-- ==== Sys2Proof/Word.lean ====
section
/-! DEFINITION. The word types of the block and their plainest arithmetic: 32-bit registers (R86), 64-bit memory
words, ITAGs (R29) and bytes. -/

namespace Sys2Proof

/-- A register word: every register is 32 bits wide (R86). -/
abbrev Word := BitVec 32

/-- A 64-bit word: a phase (R37), an address, an FP64 pattern. -/
abbrev DWord := BitVec 64

/-- A byte of memory. -/
abbrev Byte := BitVec 8

/-- The 12-bit tag of an initiator (R29). -/
abbrev Itag := BitVec 12

end Sys2Proof
end

