-- ==== Sys2Proof/Machine/Bits.lean ====
section
/-! DEFINITION. Bit fields, byte order and saturating counts: the helpers every register and record layout uses.
Multi-byte fields of records in memory lie in little-endian order (R209 counts elements so). -/

namespace Sys2Proof.Machine

/-- Field hi:lo of a natural number. -/
def bitsOf (w hi lo : Nat) : Nat := (w >>> lo) % 2 ^ (hi + 1 - lo)

/-- Bit `i` of a natural number. -/
def bitOf (w i : Nat) : Bool := (w >>> i) % 2 == 1

/-- Field hi:lo of a register word. -/
def fieldOf (w : Word) (hi lo : Nat) : Nat := bitsOf w.toNat hi lo

/-- Bit `i` of a register word. -/
def flagOf (w : Word) (i : Nat) : Bool := w.getLsbD i

/-- `w` with field hi:lo replaced by `v` (taken to the field's width). -/
def withField (w : Word) (hi lo v : Nat) : Word :=
  let n := 2 ^ (hi + 1 - lo)
  BitVec.ofNat 32 (w.toNat - bitsOf w.toNat hi lo * 2 ^ lo + (v % n) * 2 ^ lo)

/-- `w` with bit `i` set to `b`. -/
def withFlag (w : Word) (i : Nat) (b : Bool) : Word :=
  if b then w ||| BitVec.ofNat 32 (2 ^ i) else w &&& ~~~ (BitVec.ofNat 32 (2 ^ i))

/-- A count that stops at `top` (R91, R552, R553). -/
def satAdd (top a b : Nat) : Nat := if a + b ≤ top then a + b else top

/-- The `n`-bit two's complement reading of a natural number. -/
def signedOf (n w : Nat) : Int :=
  let v := w % 2 ^ n
  if v < 2 ^ (n - 1) then (v : Int) else (v : Int) - 2 ^ n

/-- The `n`-bit two's complement pattern of an integer (taken modulo 2^n). -/
def patternOf (n : Nat) (z : Int) : Nat := (z % (2 ^ n : Int)).toNat

/-- An integer limited to `lo … hi`. -/
def clampInt (lo hi z : Int) : Int := if z < lo then lo else if hi < z then hi else z

/-- The natural number spelt by bytes in little-endian order. -/
def leNat : List Byte → Nat
  | [] => 0
  | b :: rest => b.toNat + 256 * leNat rest

/-- The `n` little-endian bytes of a natural number. -/
def leBytes : Nat → Nat → List Byte
  | 0, _ => []
  | n + 1, v => BitVec.ofNat 8 (v % 256) :: leBytes n (v / 256)

/-- The natural number spelt by bytes, first byte most significant (network order, digests). -/
def beNat (bs : List Byte) : Nat := bs.foldl (fun a b => a * 256 + b.toNat) 0

/-- The `n` bytes of a natural number, most significant first. -/
def beBytes (n v : Nat) : List Byte := (leBytes n v).reverse

/-- ⌈a / b⌉. -/
def ceilDiv (a b : Nat) : Nat := (a + b - 1) / b

/-- ⌊log₂ n⌋, 0 for 0. -/
def ilog2 (n : Nat) : Nat := Nat.log2 n

end Sys2Proof.Machine
end

