-- ==== Sys2Proof/Machine/Sparse.lean ====
section
/-! DEFINITION. Finite maps in one canonical form: a list of (key, value) pairs with strictly rising keys, in which no
entry holds what an unlisted key reads as. Registers, memory, queues and tables are all held so, so that equal contents
are equal data. -/

namespace Sys2Proof.Machine

/-- A finite map from natural keys, sorted by key. -/
abbrev Sparse (α : Type) := List (Nat × α)

/-- What `m` holds at `k`; an unlisted key reads as `dflt k`. -/
def Sparse.get {α : Type} (dflt : Nat → α) : Sparse α → Nat → α
  | [], k => dflt k
  | (j, v) :: rest, k => if j = k then v else Sparse.get dflt rest k

/-- Remove the entry of `k`, if any. -/
def Sparse.erase {α : Type} : Sparse α → Nat → Sparse α
  | [], _ => []
  | (j, v) :: rest, k => if j = k then rest else (j, v) :: Sparse.erase rest k

/-- Place `v` at `k`, replacing the entry of `k` and keeping the keys rising. -/
def Sparse.insert {α : Type} : Sparse α → Nat → α → Sparse α
  | [], k, v => [(k, v)]
  | (j, w) :: rest, k, v =>
    if k < j then (k, v) :: (j, w) :: rest
    else if k = j then (k, v) :: rest
    else (j, w) :: Sparse.insert rest k v

/-- Write `v` at `k`: a value equal to what an unlisted `k` reads as is not listed. -/
def Sparse.set {α : Type} [DecidableEq α] (dflt : Nat → α) (m : Sparse α) (k : Nat) (v : α) : Sparse α :=
  if v = dflt k then Sparse.erase m k else Sparse.insert m k v

/-- The keys rise strictly, every one above `lo`. -/
def Sparse.rising {α : Type} : Option Nat → Sparse α → Bool
  | _, [] => true
  | none, (k, _) :: rest => Sparse.rising (some k) rest
  | some lo, (k, _) :: rest => decide (lo < k) && Sparse.rising (some k) rest

/-- The canonical form: rising keys, and no entry equal to what its unlisted key reads as. -/
def Sparse.wf {α : Type} [DecidableEq α] (dflt : Nat → α) (m : Sparse α) : Bool :=
  Sparse.rising none m && m.all (fun e => decide (e.2 ≠ dflt e.1))

/-- Keep only the entries whose key meets `p` (used where a reset clears a range of keys). -/
def Sparse.restrict {α : Type} (p : Nat → Bool) (m : Sparse α) : Sparse α := m.filter (fun e => p e.1)

end Sys2Proof.Machine
end

