-- ==== Sys2Proof/Machine/Data.lean ====
section
/-! DEFINITION. The data types that states and commands share: initiators, queue operations, Night Log records,
firewall descriptors, dispatched Ephemeris actions and what the block sends out. -/

namespace Sys2Proof

/-- Who issues a bus transaction: the ITAG it carries (R29), whether the issuing port owns that ITAG under R29 or R31,
and whether the issuer is a part in service (R30, R525). -/
structure Initiator where
  itag : Itag
  owns : Bool := true
  inService : Bool := true
  deriving DecidableEq, Repr

/-- What a memory access asks for. -/
inductive MemReq where
  | read (bytes : Nat)
  | write (data : List Byte)
  deriving DecidableEq, Repr

end Sys2Proof

namespace Sys2Proof.Machine

/-- How an access ended for its initiator (R87–R89, R534, R536). -/
inductive AccessStatus where
  | ok         -- it reached its target
  | violation  -- refused by a firewall, a named-writer rule or a protocol check; zero data with an error response
  | refused    -- the two checkers disagreed: refused without a freeze (R568)
  | error      -- error response: the domain is off or held (R89), or the word is uncorrectable (R720)
  | held       -- the ITAG is frozen: the request is held at the port (R536)
  | waiting    -- the target's domain is waking; the access completes after its exit latency (R88)
  deriving DecidableEq, Repr

/-- The response of the last access. -/
structure Response where
  status : AccessStatus := .ok
  data : List Byte := []
  deriving DecidableEq, Repr

/-- An access kept for later: held at a frozen port (R536) or waiting for a domain to wake (R88). The key is a register's;
for a memory access, which is only ever held, it is 2^44 plus the address. -/
structure Access where
  ini : Initiator
  key : Nat
  write : Bool
  value : Word
  deriving DecidableEq, Repr

/-- An armed unfreeze of a block (R99). -/
structure ArmedUnfreeze where
  by_ : Itag
  named : Itag
  time : Nat
  deriving DecidableEq, Repr

/-- The five queue states of R107. -/
inductive QState where
  | disabled | active | stopped | frozen | draining
  deriving DecidableEq, Repr

def QState.code : QState → Nat
  | .disabled => 0 | .active => 1 | .stopped => 2 | .frozen => 3 | .draining => 4

/-- A released descriptor that has no completion record yet. `status` is its completion status once it has one. -/
structure Op where
  index : Nat
  words : List Word
  deadline : DWord := 0     -- the phase of its deadline (R113)
  occ : Word := 0           -- phase fraction of the Ephemeris occurrence that released it (R492)
  relTime : Nat := 0        -- when it was released
  started : Bool := false
  issued : Bool := false    -- every transaction of it has passed (R535)
  readyAt : Nat := 0             -- OPERATION_COMPLETE finishes it from this time on
  outcome : Option Nat := none   -- the engine has done the work with this status; OPERATION_COMPLETE finishes it
  status : Option Nat := none
  result : DWord := 0
  tcc : Bool := false
  retried : Bool := false
  tiles : Nat := 0               -- tile operations in flight for it (R238)
  reread : Option (Nat × Nat) := none   -- when its re-read comes, and of which tile (R228)
  deriving DecidableEq, Repr

/-- A work queue (R101–R109). -/
structure Queue where
  state : QState := .disabled
  tail : Nat := 0
  released : Nat := 0
  exec : Nat := 0
  head : Nat := 0
  short : Nat := 0
  ringBase : Nat := 0
  cplBase : Nat := 0
  sizeLog2 : Nat := 4
  gated : Bool := false
  prio : Nat := 0
  tenant : Nat := 0
  itag : Itag := 0
  vector : Nat := 0
  ops : List Op := []
  failed : List (Nat × Nat) := []   -- indices that completed with a stopping status, or were skipped (status 0)
  deriving DecidableEq, Repr

/-- A QCMD command in progress (R109) and the outcome it will report. -/
structure QCmd where
  queue : Nat
  cmd : Nat
  outcome : Nat
  deriving DecidableEq, Repr

/-- A Night Log report or record (R547); its CRC is computed when it is read. -/
structure Report where
  src : Nat
  code : Nat
  inj : Bool := false
  lastOf : Bool := false
  itag : Itag := 0
  ecnt : Nat := 0
  seq : Nat := 0
  phase : DWord := 0
  detail : DWord := 0
  queue : Nat := 0xFFFF
  index : Nat := 0
  deriving DecidableEq, Repr

/-- The Night Log (R547–R551). -/
structure NightLog where
  input : List Report := []          -- oldest first, at most 64
  lastWrite : Option Nat := none     -- when the previous write started
  ring : Sparse (Option Report) := []
  last : Sparse (Option Report) := []
  seq : Sparse Nat := []
  deriving DecidableEq, Repr

/-- A firewall descriptor (R565). -/
structure FwDesc where
  base : Word := 0
  last : Word := 0
  w2 : Word := 0
  deriving DecidableEq, Repr

def FwDesc.itag (d : FwDesc) : Nat := fieldOf d.w2 11 0
def FwDesc.imask (d : FwDesc) : Nat := fieldOf d.w2 23 12
def FwDesc.rd (d : FwDesc) : Bool := flagOf d.w2 24
def FwDesc.wr (d : FwDesc) : Bool := flagOf d.w2 25
def FwDesc.en (d : FwDesc) : Bool := flagOf d.w2 26
def FwDesc.lock (d : FwDesc) : Bool := flagOf d.w2 27

/-- An FWL_DCMD command in progress (R590): a READ, or a COMMIT of a descriptor, with the result it will report. -/
structure FwlCmd where
  commit : Bool
  slot : Nat                         -- target * 64 + index
  desc : FwDesc := {}
  result : Nat
  deriving DecidableEq, Repr

/-- The firewall block's own state. -/
structure Fwl where
  desc : Sparse FwDesc := []         -- keyed target * 64 + index
  bad : List Nat := []               -- descriptors with an uncorrectable word (R568)
  busy : Option FwlCmd := none
  deriving DecidableEq, Repr

/-- The action a slot's ACT word spells (R56). -/
inductive Action where
  | none
  | trigger (pin edge : Nat)
  | doorbell (region queue dbinc : Nat)
  | sample (loop : Nat)
  | windowOpen (region window : Nat)
  | windowClose (region window : Nat)
  | fusion (stream : Nat)
  | reserved
  deriving DecidableEq, Repr

/-- An action on its way: dispatched 320 ns ahead with its match time, it takes effect at `due` (R60, R66). -/
structure Dispatched where
  slot : Nat
  action : Action
  due : Nat
  occ : DWord := 0                   -- phase of the occurrence
  deriving DecidableEq, Repr

/-- What a slot keeps beside its words: the next occurrence (a 64-bit phase) while armed, and which of its words have
been rewritten since an uncorrectable error (R80). -/
structure SlotAux where
  next : Option DWord := none
  k : Nat := 0                       -- occurrence number within the revolution (R55)
  rewritten : Nat := 0               -- bits 0–2: PHASE, REV, ACT written since the error
  deriving DecidableEq, Repr

/-- The Meridian's state beside its registers. -/
structure Merid where
  slots : Sparse SlotAux := []
  flying : List Dispatched := []     -- in order of due time, then slot (R67)
  pulse : Sparse (Option (Nat × Bool)) := []   -- pin ↦ end of the pulse and the level it returns to (R72)
  level : BitVec 32 := 0             -- trigger pin levels, meaningful where EN is 1 (R71)
  trgTime : Sparse (Option Nat) := []          -- pin ↦ timebase cycle of its last action (R64)
  trgCount : Sparse Nat := []                  -- pin ↦ actions in that cycle
  lastRef : Option Nat := none       -- time of the last valid reference event (R49)
  refSince : Nat := 0                -- from when R48 counts
  inTol : Nat := 0                   -- consecutive events within tolerance
  outTol : Nat := 0                  -- consecutive events beyond tolerance
  leftFree : Bool := false           -- the first event after FREE has been taken (R45)
  stateSince : Nat := 0              -- when the present lock state was entered
  posIndex : Sparse Word := []       -- encoder ↦ POS at its last index (R43, R76)
  seenIndex : List Nat := []         -- encoders that have seen an index
  ptpEvents : Nat := 0
  misaligned : BitVec 28 := 0        -- verniers marked misaligned (R68)
  lastBroadcast : Option Nat := none -- time of the last vernier broadcast (R68)
  deriving DecidableEq, Repr

/-- A cause on its way to the safe-state controller (R574, R721): its number, whether its source lies in the always-on
island, and the action it carries when WATCH_ACT does not decide it (R605, R611, cause 15). -/
structure Cause where
  num : Nat
  island : Bool
  act : Option Nat := none
  inj : Bool := false
  deriving DecidableEq, Repr

/-- What leaves the block. -/
inductive Out where
  | errorIrq (region : Nat)                                   -- R95
  | vector (region v : Nat)                                   -- R115
  | errorResponse (itag : Itag)                               -- a held request that completes with an error (R536, R537)
  | abortMarker (gid : Nat)                                   -- R692
  | put (link off : Nat) (data : List Byte)                   -- R696
  | eth (mac : Nat) (data : List Byte)                        -- an Ethernet frame sent (R662)
  | completed (itag : Itag) (r : Response)                    -- an access that waited for its target's domain (R88)
  | sync (mac time : Nat)                                     -- a PTP Sync message and the time it carries (R664)
  | device (config write : Bool) (addr : Nat) (v : Word)      -- an access to a PCIe device (R687)
  deriving DecidableEq, Repr

end Sys2Proof.Machine
end

