-- ==== Sys2Proof/Syntax.lean ====
section
/-! DEFINITION. The commands the block takes: one constructor per row of spec/opcode_table.json. A command is a register
or memory access by an initiator, an event from outside with the data it brings, or a time-driven event, whose condition
on the state its meaning checks (assumption log 1). -/

namespace Sys2Proof

/-- What makes a reference event (R43, R44): an index or sample of an encoder input, or a synchronisation of a MAC, whose
802.1AS time is `t` ns. -/
inductive RefSource where
  | encoder (enc : BitVec 2)
  | gptp (mac : BitVec 3) (t : DWord)
  deriving DecidableEq, Repr

/-- The three words of a slot that SLOT_WORD_WRITE reaches (R59). -/
inductive SlotWord where
  | phase | rev | act
  deriving DecidableEq, Repr

/-- The commands, in the order of the table. -/
inductive Instr where
  /-- R90. A write to a register that has no row of its own updates its fields by access type, with range checks, CFG_ERR and named-writer firewall checks. -/
  | registerWrite (i : Initiator) (addr : BitVec 44) (bytes : Nat) (v : DWord)
  /-- R38. Each nanosecond the Meridian phase advances by MERID_INCR. -/
  | phaseAdvance (ns : Nat)
  /-- R42. A write to MERID_PERIOD sets the nominal period, or keeps the old value and sets CFG_ERR when the value is out of range. -/
  | meridPeriodWrite (i : Initiator) (v : Word)
  /-- R52. A write that changes MERID_LOCKCFG.SRC acts at once on the lock state, as the SRC table states. -/
  | lockcfgWrite (i : Initiator) (v : Word)
  /-- R50. An encoder index, an SSI sample or a gPTP sync acts as a reference event, measures the phase error and moves the lock state machine. -/
  | referenceEvent (src : RefSource)
  /-- R48. No reference event arrives within 1.5 × MERID_RATE, so the reference is lost. -/
  | referenceTimeout
  /-- R50. MERID_HOLDMAX elapses in HOLDOVER and the Meridian enters UNLOCKED. -/
  | holdoverExpiry
  /-- R59. A write to a slot's PHASE, REV or ACT word is refused while the slot is armed, or counts towards rewriting a DISABLED slot. -/
  | slotWordWrite (i : Initiator) (slot : BitVec 10) (w : SlotWord) (v : Word)
  /-- R57. Setting ARM checks the owner and the destination, then arms the slot or leaves it DENIED, LATE or DISABLED. -/
  | slotArm (i : Initiator) (slot : BitVec 10) (v : Word)
  /-- R63. Clearing ARM stops every later occurrence and sets STATUS to IDLE. -/
  | slotDisarm (i : Initiator) (slot : BitVec 10) (v : Word)
  /-- R60. The Ephemeris dispatches an occurrence 320 ns before its match time, together with its match time, to its destination. -/
  | occurrenceDispatch (slot : BitVec 10)
  /-- R72. A trigger action sets the pin low or high, toggles it or starts a pulse, 3 ns after match. -/
  | triggerAction (pin : BitVec 5)
  /-- R72. The pulse width expires and the pin returns to the pulse's idle level. -/
  | pulseEnd (pin : BitVec 5)
  /-- R68. The 1 µs broadcast checks each vernier, marks a misaligned one and realigns it. -/
  | vernierBroadcast (off : BitVec 28) (intact : BitVec 28)
  /-- R71. A write to MERID_TRGn_CFG enables the pin at IDLE, or disables it to high impedance. -/
  | trgCfgWrite (i : Initiator) (pin : BitVec 5) (v : Word)
  /-- R74. A filtered quadrature transition counts, or is counted as illegal. -/
  | encoderTransition (enc : BitVec 2) (fwd : Bool) (both : Bool)
  /-- R76. An index pulse stamps the phase and checks the count against CPR. -/
  | encoderIndex (enc : BitVec 2)
  /-- R77. Every SSI_PER the input clocks out a sample, checks parity and stamps the sample. -/
  | ssiSample (enc : BitVec 2) (data : Word) (parity : Bool)
  /-- R96. A write to BLK_EINJ arms injection fields under test rights, or sets CFG_ERR without them. -/
  | einjWrite (i : Initiator) (region : BitVec 6) (v : Word)
  /-- R103. Setting BLK_CTRL.QUIESCE stops the release of descriptors. -/
  | quiesceSet (i : Initiator) (region : BitVec 6) (v : Word)
  /-- R104. Clearing QUIESCE releases the recorded TAIL of every active ungated queue. -/
  | quiesceClear (i : Initiator) (region : BitVec 6) (v : Word)
  /-- R99. A BLK_FRZ write with CMD ARM arms an unfreeze of the named ITAG. -/
  | unfreezeArm (i : Initiator) (region : BitVec 6) (itag : Itag)
  /-- R99. The second BLK_FRZ write with CMD RELEASE, made within 10 µs, releases the freeze, or else cancels the armed unfreeze. -/
  | unfreezeRelease (i : Initiator) (region : BitVec 6) (itag : Itag)
  /-- R100. 10 µs pass without the second write, so the armed unfreeze is cancelled with CFG_ERR. -/
  | unfreezeTimeout (region : BitVec 6)
  /-- R537. Once the passed transactions complete, the held requests are discarded and the FROZEN queues move to STOPPED. -/
  | unfreezeEffect (itag : Itag)
  /-- R105. A write to a queue doorbell sets TAIL after the bound test and releases work on an active ungated queue. -/
  | doorbellWrite (i : Initiator) (region : BitVec 6) (q : BitVec 12) (v : Word)
  /-- R106. An Ephemeris doorbell advances RELEASED of a gated queue by up to DBINC + 1 and counts any shortfall. -/
  | doorbellAction (region : BitVec 6)
  /-- R102. The QCMD ENABLE command reads the queue context and enters ACTIVE, or reports BADCTX. -/
  | queueEnable (i : Initiator) (region : BitVec 6) (q : BitVec 12)
  /-- R109. The QCMD DISABLE command drops unstarted work and enters DRAINING or DISABLED. -/
  | queueDisable (i : Initiator) (region : BitVec 6) (q : BitVec 12)
  /-- R108. The QCMD RESUME command sets EXEC and HEAD to NEWHEAD and returns a STOPPED queue to ACTIVE. -/
  | queueResume (i : Initiator) (region : BitVec 6) (q : BitVec 12) (newHead : BitVec 16)
  /-- R109. A QCMD command finishes, after its context read and any wake, and QCMD_STAT reports its outcome. -/
  | qcmdComplete (region : BitVec 6)
  /-- R115. An operation finishes; its completion record is written in index order and its interrupt is raised, and a DRAINING queue may reach DISABLED. -/
  | operationComplete (region : BitVec 6) (q : BitVec 12) (index : BitVec 16)
  /-- R36. A write of WATCH_MODE.DEPOT sets or clears depot mode; clearing it pre-empts training jobs at their next step boundary. -/
  | depotModeWrite (i : Initiator) (v : Word)
  /-- R174. A LOAD descriptor validates a train map and writes it into a map slot after any RUN that uses the slot completes. -/
  | domeLoad (dome : BitVec 3) (q : BitVec 6)
  /-- R175. A RUN descriptor checks its TRAIN_ID and starts the train's tile schedule. -/
  | domeRun (dome : BitVec 3) (q : BitVec 6)
  /-- R175. A Dome NOP completes DONE in queue order. -/
  | domeNop (dome : BitVec 3) (q : BitVec 6)
  /-- R179. A tile-schedule entry issues at the latest of its T_PLAN, its predecessor's finish and its Transit dependency or ring-slot readiness. -/
  | entryIssue (dome : BitVec 3) (lstage : BitVec 4) (port : BitVec 2)
  /-- R268. A gather that waited for its ring slot finds it free and writes the tile. -/
  | gatherSlotFree (dome : BitVec 3)
  /-- R185. The RUN watchdog exceeds WCET_CYC, so the RUN is abandoned with ERR_TIMEOUT_WCET. -/
  | runWcetExpiry (dome : BitVec 3)
  /-- R197. A residue mismatch, an uncorrectable buffer error or a link failure makes a slot suspect; a spare takes over and the RUN restarts or fails. -/
  | stageFault (dome : BitVec 3) (lstage : BitVec 4) (cause : BitVec 2)
  /-- R193. At a boundary between operations, a spare takes over a logical part for rotation or retirement, and the freed part enters TESTING. -/
  | spareTakeover (region : BitVec 6) (unit : BitVec 2)
  /-- R195. A test slice finishes, and the part passes to SPARE or fails to RETIRED. -/
  | testSliceEnd (region : BitVec 6) (unit : BitVec 2) (pass : Bool) (banks : List (BitVec 9))
  /-- R195. An Ephemeris window-open action opens a self-test window in a block. -/
  | windowOpen (region : BitVec 6)
  /-- R196. An Ephemeris window-close action closes the window and aborts an unfinished slice. -/
  | windowClose (region : BitVec 6)
  /-- R203. A SUBCMD TEST requests rotation of a logical part in the next window, or reports NOSPARE. -/
  | subcmdTest (i : Initiator) (region : BitVec 6) (v : Word)
  /-- R203. A SUBCMD RETIRE retires a physical part at the next boundary between operations, or reports NOSPARE. -/
  | subcmdRetire (i : Initiator) (region : BitVec 6) (v : Word)
  /-- R229. A write to PLATE_QUOTAt sets a tenant's quota, or is refused with CFG_ERR. -/
  | quotaWrite (i : Initiator) (tenant : BitVec 4) (v : Word)
  /-- R237. A MOVE descriptor copies COUNT tiles between objects as tile operations. -/
  | transitMove (q : BitVec 10)
  /-- R236. A Transit NOP completes in order; with PUBLISH set it acts as a fence. -/
  | transitNop (q : BitVec 10)
  /-- R230. An ALLOC maps Archive lines for a held P1 object, evicting borrowed slots as needed. -/
  | alloc (q : BitVec 10)
  /-- R230. A FREE unmaps a held object's lines and clears RES. -/
  | free (q : BitVec 10)
  /-- R232. A held allocation that waited for a locked slot resumes when the slot unlocks. -/
  | allocResume
  /-- R238. Once tile operations retire from a full pool, the engine releases further descriptors. -/
  | poolReleaseResume
  /-- R221. A P2 row member that has not answered within TRANSIT_RAROUND_NS is bypassed and the row is rebuilt from parity. -/
  | readaroundTimeout (pc : BitVec 8)
  /-- R228. 100 ns after an uncorrected read, the unit is read again, and the operation continues or fails with ERR_DATA. -/
  | reread (q : BitVec 10)
  /-- R223. Corrected errors of a pseudo-channel in one second exceed CETHR, so it enters SUSPECT. -/
  | pcCeThreshold (pc : BitVec 8) (count : BitVec 16)
  /-- R223. 60 s pass without a breach and a SUSPECT pseudo-channel returns to GOOD. -/
  | pcSuspectExpiry (pc : BitVec 8)
  /-- R223. An HBMn_PCCMD RETIRE puts a pseudo-channel into LOST. -/
  | pcRetireCmd (i : Initiator) (stack : BitVec 3) (v : Word)
  /-- R258. A KVW_WnFINV GO starts the invalidation of a sequence, or of every line, in a walker's Finder. -/
  | finderInvalidate (i : Initiator) (walker : BitVec 3) (v : Word)
  /-- R258. A pending Finder invalidation finishes and DONE reads 1. -/
  | finderInvalidateDone (walker : BitVec 3)
  /-- R283. A KVW_CMD FLUSH writes every staged position to its frame and clears STAGED. -/
  | kvFlush (i : Initiator) (v : Word)
  /-- R280. A write to KVW_MODE.QA_REQ requests or ends quantised-append mode for the steps that open later. -/
  | qaReqWrite (i : Initiator) (v : Word)
  /-- R318. The Coelostat serves the residency of the next ready step, swapping entries out and in by ascending FRAME. -/
  | coelServe
  /-- R318. A busy frame becomes free, or an evicted job's released steps complete, and the Coelostat continues its swaps. -/
  | coelResume
  /-- R319. A swap-out MOVE becomes visible and the entry becomes OUT, or enters FAULT on failure. -/
  | swapoutComplete
  /-- R319. A swap-in MOVE becomes visible and the entry becomes RESIDENT with DIRTY 0, or enters FAULT on failure. -/
  | swapinComplete
  /-- R322. The EVICT command swaps an entry out after its job's released steps complete. -/
  | coelEvict (i : Initiator) (entry : BitVec 10)
  /-- R322. The EVICT_HOLD command evicts the entry and sets HOLD. -/
  | coelEvictHold (i : Initiator) (entry : BitVec 10)
  /-- R322. The RESTORE command clears HOLD so that the entry may be swapped in. -/
  | coelRestore (i : Initiator) (entry : BitVec 10)
  /-- R324. The RETRY command repeats the failed swap of a FAULT entry. -/
  | coelRetry (i : Initiator) (entry : BitVec 10)
  /-- R324. The DISCARD command makes a FAULT entry RESIDENT and DIRTY with unspecified contents. -/
  | coelDiscard (i : Initiator) (entry : BitVec 10)
  /-- R332. An ADMIT checks a job record for form, limits, frames, bandwidth and response time, then admits or rejects the job. -/
  | admitJob
  /-- R330. A RETIRE releases a job's Almanac entries, frames and semaphores once its open step has closed. -/
  | retire
  /-- R330. A SCHED NOP completes DONE in queue order. -/
  | schedNop (q : BitVec 6)
  /-- R336. A JOIN takes the lowest FREE Almanac entry as PENDING and invalidates it in the Finders. -/
  | join
  /-- R336. A LEAVE marks an Almanac entry to leave at the next step boundary. -/
  | leave
  /-- R343. A STEP descriptor is released on a job queue and makes the job's next step a candidate for opening. -/
  | step (sq : BitVec 6)
  /-- R345. The scheduler opens the chosen ready step: step boundary, QA latch, cost, parking and building of the work. -/
  | stepOpen
  /-- R345. Once every builder write is visible, the step's descriptors are released. -/
  | stepRelease
  /-- R352. When every record of the step is visible, LEN advances and the STEP completion is written. -/
  | stepClose (sq : BitVec 6)
  /-- R354. The step watchdog exceeds W_step, so the step is stopped and completes with ERR_TIMEOUT_WCET. -/
  | stepWcetExpiry (sq : BitVec 6)
  /-- R355. The release of a higher-priority step on a Dome in use by a lower job requests pre-emption, deferred while a semaphore is held. -/
  | preemptRequest (sq : BitVec 6)
  /-- R356. The pre-empted job reaches its pre-emption point and the saves start on all its Domes. -/
  | preemptPoint (sq : BitVec 6)
  /-- R357. A Dome's save of live state completes and Linkous credits are returned. -/
  | saveComplete (sq : BitVec 6) (dome : BitVec 3) (live : Word)
  /-- R358. When no higher-priority work waits, the restore of a saved job starts on all its Domes. -/
  | restoreStart (sq : BitVec 6)
  /-- R358. The last restore completes and the job's Transit hold lifts. -/
  | restoreComplete (sq : BitVec 6) (dome : BitVec 3)
  /-- R359. A SCHED_SEMk ACQUIRE takes a free semaphore, or sets DENIED. -/
  | semAcquire (i : Initiator) (sem : BitVec 6) (job : BitVec 16)
  /-- R359. A SCHED_SEMk RELEASE frees the semaphore and issues any deferred pre-emption. -/
  | semRelease (i : Initiator) (sem : BitVec 6) (job : BitVec 16)
  /-- R359. A hold lasts longer than SEMHOLD, so SEMOVER sets and a Night Log record names the job. -/
  | semOverrun (sem : BitVec 6)
  /-- R373. A solver LOAD reads a context image into a lane as a STALE context. -/
  | solvLoad (q : BitVec 6)
  /-- R372. A solver FREE empties a context. -/
  | solvFree (q : BitVec 6)
  /-- R372. A solver NOP completes DONE in queue order. -/
  | solvNop (q : BitVec 6)
  /-- R378. A SOLVE validates its problem list and runs the D, F, R, refinement and Out phases for each problem on its lane. -/
  | solve (q : BitVec 6)
  /-- R384. For a deterministic job, the SOLVE starts once step REF_STEP of REF_JOB has closed. -/
  | solveRefReady (q : BitVec 6)
  /-- R386. The deadline is reached and each lane cuts its problem short as the table of R386 states. -/
  | solveDeadline
  /-- R393. A SOLVE exceeds WCET_CYC and is abandoned with ERR_TIMEOUT_WCET. -/
  | solveWcetExpiry
  /-- R398. A residue mismatch makes a lane suspect; a spare takes over and the problem restarts. -/
  | laneFault (lane : BitVec 8)
  /-- R408. An INSTALL copies a Chart image into a FREE slot and makes it CURRENT when its checks pass. -/
  | occInstall (q : BitVec 6)
  /-- R411. A BODY loads a body model image into a model slot. -/
  | occBody (q : BitVec 6)
  /-- R420. An OCC NOP completes DONE in queue order. -/
  | occNop (q : BitVec 6)
  /-- R424. A CHECK binds the current epoch and tests each candidate's swept capsules against the Chart. -/
  | check (q : BitVec 6)
  /-- R425. A CHECK deadline is reached and the remaining candidates complete MISS_DEADLINE. -/
  | checkDeadline
  /-- R432. A SELECT chooses a plan and a fall-back, re-checking as needed, and writes the hand-off. -/
  | select (q : BitVec 6)
  /-- R437. A SEED writes the held plan's poses as knots shifted forward. -/
  | seed (q : BitVec 6)
  /-- R429. A CHECK or SELECT exceeds WCET_CYC and completes with ERR_TIMEOUT_WCET. -/
  | occWcetExpiry
  /-- R434. The Clock Drive reports the hand-off, so the SELECT completes and the held trajectories change. -/
  | handoffReport
  /-- R444. A sensor frame start or sample arrives and is stamped with its capture time. -/
  | sensorSample (sensor : BitVec 5) (ts : DWord)
  /-- R445. At a reference event the AFU computes the error, refits the map and moves the slot state. -/
  | sensorRefEvent (sensor : BitVec 5) (ts : DWord)
  /-- R446. No sample arrives for 4 × PER and the slot enters SILENT. -/
  | sensorSilentTimeout (sensor : BitVec 5)
  /-- R449. An ISSUE descriptor is bound to the next instant of its stream, or skipped when too old. -/
  | afuIssue (stream : BitVec 4)
  /-- R451. A CONTRIB binds to an instant, is propagated, warped into the grid, and marked late or dropped. -/
  | afuContrib (q : BitVec 4)
  /-- R455. An AFU NOP completes DONE in queue order. -/
  | afuNop (q : BitVec 5)
  /-- R450. A fusion-deadline action issues the oldest bound instant: replacement, shadow check, tracks and record. -/
  | fusionDeadline
  /-- R461. Every 1 ms the estimator writes a pose into the pose table. -/
  | egoPoseTick
  /-- R460. An IMU, scan-match, visual or wheel input propagates or updates the ego filter. -/
  | egoUpdate (source : BitVec 2) (points : Nat) (eig : Word)
  /-- R460. No IMU sample arrives for 20 ms, or INERTIAL lasts beyond 1 s, and EGOQ becomes LOST. -/
  | egoLostTimeout
  /-- R462. For a camera frame, lidar points are projected into a depth plane and published by Transit. -/
  | l1Frame (sensor : BitVec 5)
  /-- R463. At the first later point, or at the deadline, a lidar slot publishes its instant's points. -/
  | lidarInstantMove (sensor : BitVec 5)
  /-- R486. A Clock Drive sample action arrives and queues on its core, or is dropped when too close to the previous one. -/
  | sampleAction
  /-- R480. A drive core runs a queued sample: snapshot, observer, control, saturation, output and state update. -/
  | sampleExecute (core : BitVec 2)
  /-- R503. A drive core's duplicate compare mismatches; a spare takes over and reruns the sample. -/
  | driveCoreMismatch (core : BitVec 2)
  /-- R479. The LCMD ENABLE command validates the active descriptor and puts the loop into RUN. -/
  | loopEnable (i : Initiator) (loop : BitVec 6)
  /-- R479. The LCMD DISABLE command puts the loop into OFF between samples. -/
  | loopDisable (i : Initiator) (loop : BitVec 6)
  /-- R479. The LCMD SWAP command validates the shadow descriptor and copies it to the active one for the next sample. -/
  | loopSwap (i : Initiator) (loop : BitVec 6)
  /-- R479. The LCMD RESET command returns a FAULT loop to RUN with x̂ = X0 and z = 0. -/
  | loopReset (i : Initiator) (loop : BitVec 6)
  /-- R489. The write of the hand-off record's last byte makes the hand-off pending and checks its form. -/
  | handoffRecord
  /-- R518. The CVU channel computes the CRCs of the sent blocks and delivers its verdict, making the hand-off PASSED or rejected. -/
  | handoffVerdict (ch : BitVec 5)
  /-- R492. A SWITCH released at the switch-over phase accepts a PASSED hand-off and sets the roles, or reports it late. -/
  | switch
  /-- R501. A DUMP stops a Logbook channel and writes its region out, oldest first. -/
  | dump
  /-- R491. A DRIVE NOP completes DONE in queue order. -/
  | driveNop (q : BitVec 1)
  /-- R494. A hand-off pending for DRIVE_HOTMO ms is discarded and reported late. -/
  | handoffTimeout
  /-- R495. The DRIVE_FBCMD FLY command gives the plan role to the fall-back buffer and sets FLYING. -/
  | fly (i : Initiator) (v : Word)
  /-- R495. AUTOMS ms pass without an accepted SWITCH and the Clock Drive performs FLY itself. -/
  | autoFly
  /-- R498. A write to a channel's MODE starts recording, or idles the channel; an overlapping region is refused. -/
  | logbookModeWrite (i : Initiator) (ch : BitVec 3) (v : Word)
  /-- R513. At a frame's last byte the channel compares the check value and delivers PASS or FAIL. -/
  | cvuFrameEnd (ch : BitVec 5) (ctx : BitVec 7) (data : List Byte) (ending : BitVec 2)
  /-- R516. 40 ns after a verdict the channel advances to its next context. -/
  | cvuContextAdvance (ch : BitVec 5)
  /-- R509. A write through CVU_CTXDATA sets a context, or is refused with CFG_ERR. -/
  | cvuContextWrite (i : Initiator) (word : BitVec 3) (v : Word)
  /-- R517. A write to CVU_CHn_CFG enables the channel or changes its contexts, aborting the frame in progress. -/
  | cvuChannelCfgWrite (i : Initiator) (ch : BitVec 5) (v : Word)
  /-- R547. A block sends a Night Log report into the logger's input queue, or it is dropped into the last slot. -/
  | nightLogReport (src : BitVec 6) (code : BitVec 5) (inj : Bool) (itag : Itag) (ecnt : BitVec 4) (detail : DWord) (queue index : BitVec 16)
  /-- R549. The logger writes the report at the head of the queue into the ring, at least 50 ns after the previous write. -/
  | nightLogWrite
  /-- R551. When the ring has a free entry, a held last-slot record is written with LASTOF. -/
  | lastslotWrite
  /-- R549. A write to WATCH_NLRD consumes records, or is refused with CFG_ERR. -/
  | nlrdWrite (i : Initiator) (v : Word)
  /-- R555. A write to WATCH_TRGRANT grants or clears test rights for regions. -/
  | trgrantWrite (i : Initiator) (hi : Bool) (v : Word)
  /-- R556. WATCH_TRTMO ms pass, every grant clears and BLK_EINJ returns to reset. -/
  | testRightsExpiry
  /-- R567. An FWL_DCMD COMMIT writes DDATA into the selected descriptor, unless it is LOCKED or malformed. -/
  | fwlCommit (i : Initiator)
  /-- R590. An FWL_DCMD READ loads the selected descriptor into DDATA. -/
  | fwlRead (i : Initiator)
  /-- R572. An AFU verdict reaches the safe-state controller, which may raise DIS_K or DIS_2. -/
  | checkerVerdict
  /-- R575. A cause arrives at the safe-state controller, which logs it and decides DEGRADE, RESTART or HALT. -/
  | safeCause
  /-- R721. NOPLAN ms pass without an accepted SWITCH and cause 4 is raised. -/
  | noplanTimeout
  /-- R721. A write of WATCH_HB restarts the heartbeat timer. -/
  | heartbeatWrite (i : Initiator) (v : Word)
  /-- R721. HBTMO ms pass without a heartbeat and cause 5 is raised. -/
  | heartbeatTimeout
  /-- R574. RECOVMAX ms pass after a decision without leaving RECOVERING and cause 11 is raised. -/
  | recovTimeout
  /-- R574. Firmware writes CMD DEGRADE, raising cause 15 with action DEGRADE. -/
  | sscmdDegrade (i : Initiator)
  /-- R574. Firmware writes CMD RESTART, raising cause 15 with action RESTART. -/
  | sscmdRestart (i : Initiator)
  /-- R574. Firmware writes CMD HALT, raising cause 15 with action HALT. -/
  | sscmdHalt (i : Initiator)
  /-- R576. CMD READY after the Boot phase moves the controller from RESTARTING to RECOVERING. -/
  | sscmdReady (i : Initiator)
  /-- R573. CMD CLEAR returns the controller from DEGRADED to NORMAL when no latched cause stands. -/
  | sscmdClear (i : Initiator)
  /-- R577. The restart sequencer puts memories into self-refresh, stops main-domain interfaces and abandons writes. -/
  | restartQuiesce
  /-- R577. The sequencer asserts the main-domain resets and clears their freezes. -/
  | restartHold
  /-- R577. The sequencer relocks main clocks, restores bindings and releases the main domains. -/
  | restartRelease
  /-- R581. The restart image hash is compared with WATCH_RSTHASH, and a mismatch halts. -/
  | restartImageCheck
  /-- R582. A Night Watch lockstep mismatch resets that pair. -/
  | pairMismatch (pair : BitVec 1)
  /-- R582. A reset Night Watch pair restarts from mask ROM and returns to service. -/
  | pairRestartDone (pair : BitVec 1)
  /-- R560. Every 1 ms NW_ALIVE toggles while a Night Watch pair is in service. -/
  | nwAliveToggle
  /-- R585. A protected interval begins and the open windows in its covered regions close. -/
  | protIntervalStart (k : BitVec 4)
  /-- R595. A domain idle for 1 µs with enough budget enters CLKGATED. -/
  | clkgateEntry (pd : BitVec 5)
  /-- R595. A domain idle for 200 µs with enough budget enters RETENTION. -/
  | retentionEntry (pd : BitVec 5)
  /-- R595. A domain idle for OFFDWELL with OFFOK and enough budget enters OFF. -/
  | offEntry (pd : BitVec 5)
  /-- R595. Demand on a gated, retained or off domain starts its exit. -/
  | domainWake (pd : BitVec 5)
  /-- R597. A domain's exit latency elapses and it becomes ACTIVE, reset when leaving OFF. -/
  | domainWakeDone (pd : BitVec 5) (retErr : Bool)
  /-- R596. The power controller starts a domain's exit early enough for an armed occurrence aimed at it. -/
  | prewake (pd : BitVec 5)
  /-- R595. A PWR_PDCMD WAKE starts the exit of a domain. -/
  | pdcmdWake (i : Initiator) (pd : BitVec 5)
  /-- R601. A PWR_SLEEP SLEEP puts every main domain into OFF in descending PD order. -/
  | sleep (i : Initiator)
  /-- R601. A PWR_SLEEP WAKE powers the main domains up and boots them. -/
  | wake (i : Initiator)
  /-- R604. Every 1 ms the input power is estimated and the power ceiling moves. -/
  | powerEstimate (p : BitVec 16)
  /-- R605. Every 100 µs the junction sensors are read and the thermal ceiling and causes act. -/
  | thermalSample (temps : List (BitVec 8))
  /-- R607. The 12 V input falls below 10.2 V and the Domes throttle to 25 %. -/
  | supplyDip (mv : BitVec 16)
  /-- R608. The input stays above 10.2 V for 1 ms and the supply ceiling returns to 8. -/
  | supplyRecover (mv : BitVec 16)
  /-- R609. The input falls below 9.0 V; FLY is performed and the main domains are quiesced and held. -/
  | brownout (mv : BitVec 16)
  /-- R610. The input falls below 8.0 V and memory contents are lost. -/
  | memlost (mv : BitVec 16)
  /-- R611. The input stays above 10.2 V for 1 ms after a brownout and cause 10 forces RESTART. -/
  | brownoutRecover (mv : BitVec 16)
  /-- R599. The standby input falls below 3.0 V, or PORST_N is low, and the module returns to power-on reset. -/
  | standbyLoss
  /-- R613. Every 10 ms AGE reads the monitors, moves rail voltages and requests retirements. -/
  | ageRead (readings : List (Option (BitVec 16)))
  /-- R641. At standby power-on, mask ROM locks the island clocks, reads the PUF and tests the island SRAM. -/
  | bootRom (pufDiff : Nat) (replayOk : Bool)
  /-- R641. Mask ROM chooses, verifies and measures the Night Watch firmware and sets the first firewall descriptors. -/
  | bootFirmware (failed : Bool)
  /-- R641. Firmware verifies the Provisioning and Boot Configuration Records and commits firewall entries. -/
  | bootRecords (failed : Bool)
  /-- R641. Firmware verifies the Drive Image, enables the loops on the hold plan and starts CAN FD 0–3. -/
  | bootIsland (failed : Bool)
  /-- R641. PWR brings the main rails up at their boot voltages and locks CD4–CD27. -/
  | bootMainPower
  /-- R641. The memory controllers train LPDDR5X and HBM3E. -/
  | bootMemory
  /-- R641. The application image is copied, verified, measured and hashed into WATCH_RSTHASH. -/
  | bootImage (failed : Bool)
  /-- R637. The boot self-test tests every spared part and writes the new Repair Record. -/
  | bootSelftest (parts : List (BitVec 6 × BitVec 10 × BitVec 10))
  /-- R641. The application cores are released into the image. -/
  | bootCluster
  /-- R641. SEC_BOOTCMD DONE ends boot and the safe-state controller enters NORMAL. -/
  | bootDone (i : Initiator)
  /-- R640. A write of SEC_SVNCMD commits an anti-rollback counter to the running image's SVN. -/
  | svnCommit (i : Initiator) (ctr : BitVec 4)
  /-- R648. A QUOTE writes and signs a record of the selected measurements. -/
  | quote (q : BitVec 6)
  /-- R646. An EXTEND extends MEAS6 or MEAS7 with a digest. -/
  | extend (q : BitVec 6)
  /-- R647. A SEC NOP completes in queue order. -/
  | secNop (q : BitVec 6)
  /-- R649. SEC_DBGCMD ACCEPT checks and stores a debug unlock token for the next cold boot. -/
  | debugAccept (i : Initiator) (token : List Byte)
  /-- R712. While mask ROM waits, an SPI1 frame of 261 bytes is written into firmware slot A. -/
  | recoveryFrame (off : Word) (data : List Byte)
  /-- R712. The SPI1 command DONE verifies slot A and boots it, or keeps waiting. -/
  | recoveryDone
  /-- R658. A Frame Start opens a frame in the next ring slot, ending any open frame as truncated. -/
  | csiFrameStart (port : BitVec 2) (vc : BitVec 4) (fnum : BitVec 16) (h1 h2 : Bool)
  /-- R656. A long packet is header-checked, filtered by type and written into the slot. -/
  | csiLongPacket (port : BitVec 2) (vc : BitVec 4) (dt : BitVec 6) (h1 h2 crcOk : Bool) (data : List Byte)
  /-- R657. A Frame End closes the frame and the receiver writes its frame record. -/
  | csiFrameEnd (port : BitVec 2) (vc : BitVec 4) (h1 h2 : Bool)
  /-- R661. A received Ethernet frame is FCS-checked, matched against the flow filters and written to a ring. -/
  | ethRxFrame (mac : BitVec 3) (data : List Byte) (fcsOk : Bool) (dur : Nat)
  /-- R662. A frame starts transmission when its class's gate is open and it can finish. -/
  | ethTxFrame (mac : BitVec 3) (offer : List (BitVec 3 × List Byte))
  /-- R663. ETH_GCLCMD SWAP schedules the administrative gate list to become operational. -/
  | gclSwap (i : Initiator) (mac : BitVec 3)
  /-- R663. At the first cycle start at or after the base time, the administrative list becomes operational. -/
  | gclActivate (mac : BitVec 3)
  /-- R664. A Sync message on the SLAVE MAC corrects the 802.1AS offset and rate. -/
  | ptpSync (mac : BitVec 3) (t1 : DWord)
  /-- R664. A Pdelay exchange measures the path delay. -/
  | ptpPdelay (mac : BitVec 3) (ok : Bool) (t1 t2 t3 t4 : DWord)
  /-- R665. No Sync arrives within 3 × 2^LOGSYNC s, so the port is unsynchronised. -/
  | ptpSyncTimeout
  /-- R668. A TXREQ on a transmit mailbox makes its frame pending. -/
  | canTxreq (i : Initiator) (v : Word)
  /-- R668. The highest-priority pending mailbox starts arbitration and is sent, with read-back. -/
  | canTxFrame (ch : BitVec 4)
  /-- R668. A frame on the bus ends, and new committed content becomes pending. -/
  | canTxEnd (ch : BitVec 4) (result : BitVec 2)
  /-- R669. A received frame is stored in the first matching receive mailbox and stamped. -/
  | canRxFrame (ch : BitVec 4) (ext : Bool) (id : BitVec 29) (data : List Byte) (good : Bool)
  /-- R671. After 128 occurrences of 11 recessive bits with AUTOREC, the channel rejoins the bus. -/
  | canBusoffRecover (ch : BitVec 4)
  /-- R672. A protocol-controller lockstep mismatch releases the bus and turns the channel off. -/
  | canLockstepMismatch (ch : BitVec 2)
  /-- R666. A bit-timing write sets the rates, or is refused while EN is 1 or the rates are out of range. -/
  | canBitTimingWrite (i : Initiator) (ch : BitVec 4) (isData : Bool) (v : Word)
  /-- R675. A data-ready edge starts an SPI0 IMU read, or counts an overlap. -/
  | spiDataReady (cs : BitVec 3)
  /-- R684. A USB4 or PCIe link completes training and comes up. -/
  | linkUp (port : BitVec 2) (gen4 : Bool) (width : BitVec 2) (speed : BitVec 3)
  /-- R683. A host link goes down and its incomplete requests are discarded. -/
  | linkDown (port : BitVec 2)
  /-- R687. In root complex mode, an access to PCIE_CFGDATA makes a configuration access at PCIE_CFGADDR. -/
  | pcieCfgAccess (i : Initiator) (write : Bool) (v : Word)
  /-- R698. An ALLREDUCE combines per-module values by the fixed rank tree across the group. -/
  | allreduce (q : BitVec 6)
  /-- R696. A BCAST sends the root's range to every member. -/
  | bcast (q : BitVec 6)
  /-- R696. A BARRIER waits for every member of the group. -/
  | barrier (q : BitVec 6)
  /-- R696. A PUT sends a range to the peer's window on a PAIR link. -/
  | put (q : BitVec 6)
  /-- R696. An LNK NOP completes DONE in queue order. -/
  | lnkNop (q : BitVec 6)
  /-- R693. A PUT from the peer writes into the WINOBJ object, or is refused whole when it overruns. -/
  | peerPut (link : BitVec 1) (off : DWord) (data : List Byte)
  /-- R700. TMO_US elapses before an LNK operation completes, which ends it with ERR_TIMEOUT_WCET. -/
  | collectiveTimeout (q : BitVec 6)
  /-- R700. An abort marker arrives and the operation completes with ERR_DATA. -/
  | abortMarker (gid : BitVec 16)
  /-- R692. An uncorrectable FEC word or a flit CRC failure fails its operation and sends abort markers. -/
  | flitUncorrectable (link : BitVec 1) (gid : BitVec 16)
  /-- R691. A lane's corrected symbols in one second exceed CETHR; it becomes suspect and a spare takes over. -/
  | laneCeThreshold (link : BitVec 1) (lane : BitVec 3) (count : BitVec 16)
  /-- R694. A Transit queue idle for 10 µs on a link returns its credits. -/
  | creditReturn (link : BitVec 1) (q : BitVec 10)
  /-- R695. A write to a collective group entry sets it, or is refused with CFG_ERR. -/
  | groupWrite (i : Initiator) (group : BitVec 4) (word : BitVec 2) (v : Word)
  /-- R566. An initiator's read or write to memory, the object aperture, a Plate or Archive window or the Clock Drive SRAM is checked by the firewalls and reaches its target. -/
  | memoryAccess (i : Initiator) (addr : BitVec 44) (req : MemReq)
  /-- R90. A register read returns the field, latches MERID_PHASE_HI, wakes a gated domain, or meets a protocol, firewall or uncorrectable-SRAM error. -/
  | registerRead (i : Initiator) (addr : BitVec 44) (bytes : Nat)
  /-- R463. FWIN µs after a trigger occurrence with no paired frame start, the AFU issues a NOP with PUBLISH for that frame index. -/
  | frameWindowExpiry (sensor : BitVec 5)
  /-- R460. 200 ms pass without an accepted scan match or visual update, so EGOQ falls from NOMINAL to WHEEL or INERTIAL. -/
  | egoUpdateAgeTimeout
  /-- R583. The memory controllers' patrol scrub reads every stored code word of HBM3E and LPDDR5X and corrects, counts or reports errors in unconsumed data. -/
  | patrolScrub (mem : BitVec 3) (corrected : BitVec 16) (bad : Option (BitVec 44))
  /-- R620. A power-management IC reports a fault, which sets PWR BLK_ESTAT.PMIC and counts in BLK_ECNT7. -/
  | pmicFault
  /-- R248. An HBM3E stack raises a thermal alert, which counts in that stack's BLK_ECNT6. -/
  | hbmThermalAlert (stack : BitVec 3)
  /-- R676. An Ethernet MAC's PHY link goes down and the loss counts in ETH BLK_ECNT3. -/
  | ethPhyLinkLoss (mac : BitVec 3)
  /-- R676. A CSI-2 C-PHY link is lost and the loss counts in CSI BLK_ECNT4. -/
  | cphyLinkLoss
  /-- R664. A MAC set to MASTER sends a Sync message carrying the instance's 802.1AS time at its sync interval. -/
  | ptpSyncSend (mac : BitVec 3)
  /-- R567. An FWL READ or COMMIT finishes, every checker uses the new descriptor, and FWL_DSTAT.RESULT leaves BUSY. -/
  | fwlCommandDone
  /-- R582. Every 100 µs each Night Watch pair checks the other pair's heartbeat. -/
  | pairHeartbeatCheck
  /-- R715. A Linkous link completes training and comes up on 8 or 4 lanes. -/
  | lnkLinkUp (link : BitVec 1) (eight : Bool)
  /-- R715. A Linkous link goes down, and its flits in flight are lost. -/
  | lnkLinkDown (link : BitVec 1)
  /-- R698. A flit of a collective from a peer member arrives, supplies a partial value or a barrier arrival, and advances the operation's tree. -/
  | collectiveFlitReceive (link : BitVec 1) (gid : BitVec 16) (level : BitVec 5) (rank : BitVec 18) (off : Nat) (data : List Byte)
  deriving DecidableEq, Repr

end Sys2Proof
end

