-- ==== Sys2Proof/Machine/Crc.lean ====
section
/-! DEFINITION. The check values the spec names: CRC-32C (tile headers, Charts, records), and the reflected and plain
CRCs of other widths that the check-value units compute. -/

namespace Sys2Proof.Machine

/-- One bit of a reflected CRC over a register of any width, polynomial given reflected. -/
def crcBitR (poly : Nat) (c : Nat) : Nat := if c % 2 = 1 then (c / 2) ^^^ poly else c / 2

/-- One byte of a reflected CRC. -/
def crcByteR (poly : Nat) (c : Nat) (b : Byte) : Nat :=
  (List.range 8).foldl (fun a _ => crcBitR poly a) (c ^^^ b.toNat)

/-- A reflected CRC: start value, polynomial (reflected) and final exclusive-or. -/
def crcR (poly init xorOut : Nat) (bs : List Byte) : Nat := (bs.foldl (crcByteR poly) init) ^^^ xorOut

/-- CRC-32C: polynomial 0x1EDC6F41 (reflected 0x82F63B78), start and final exclusive-or of ones. -/
def crc32c (bs : List Byte) : Nat := crcR 0x82F63B78 0xFFFFFFFF 0xFFFFFFFF bs

/-- One bit of CRC-64-ECMA-182, most significant bit first (R508). -/
def crc64Bit (c : Nat) : Nat := if c / 2 ^ 63 % 2 = 1 then (c * 2 % 2 ^ 64) ^^^ 0x42F0E1EBA9EA3693 else c * 2 % 2 ^ 64

/-- CRC-64-ECMA-182: not reflected, start and final exclusive-or 0. -/
def crc64 (bs : List Byte) : Nat :=
  bs.foldl (fun c b => (List.range 8).foldl (fun a _ => crc64Bit a) (c ^^^ (2 ^ 56 * b.toNat))) 0

/-- Fletcher-32 over 16-bit little-endian words (R508). -/
def fletcher32 : List Byte → Nat → Nat → Nat
  | a :: b :: rest, s1, s2 =>
    let s1 := (s1 + a.toNat + 256 * b.toNat) % 65535
    fletcher32 rest s1 ((s2 + s1) % 65535)
  | [a], s1, s2 =>
    let s1 := (s1 + a.toNat) % 65535
    65536 * ((s2 + s1) % 65535) + s1
  | [], s1, s2 => 65536 * s2 + s1

end Sys2Proof.Machine
end

