-- ==== Sys2Proof/Config.lean ====
section
/-! DEFINITION. What the spec leaves open and the model leaves open with it: constants without a body, so that no proof
can see a value of them. Each is applied to the operands it depends on, or to the counter `State.free`, which every use
reads and advances, so that no two uses need agree. -/

namespace Sys2Proof.Config

/-- A byte that the spec leaves unspecified (R186, R526, R579, R610). -/
opaque freeByte : Nat → BitVec 8

/-- A 32-bit value that the spec leaves unstated. -/
opaque freeWord : Nat → BitVec 32

/-- A 64-bit value that the spec leaves unstated. -/
opaque freeDWord : Nat → BitVec 64

/-- The Archive bank that holds a line: the spec names the banks but not which lines lie in each (R204, R249). -/
opaque archiveBank : Nat → Nat

/-- RSA-PSS verification of a digest under a key and a signature (R626); its arithmetic is PKCS #1's, outside the spec. -/
opaque rsaVerify : List (BitVec 8) → List (BitVec 8) → List (BitVec 8) → Bool

/-- The signature that a private key of the module makes over a message (R648); the key is secret (R630). -/
opaque rsaSign : List (BitVec 8) → List (BitVec 8)

/-- HMAC key of the replay-protected area and other secrets of the PUF (R630), as bytes. -/
opaque secretKey : Nat → List (BitVec 8)

/-- Where in LPDDR5X the restart image lies (R581, R641): the spec names no address. -/
opaque imageBase : Nat

/-- SHA-256 of the vendor root public key, in the mask ROM (R626). -/
opaque rootHash : List (BitVec 8)

/-- The 384-byte modulus of the device identity key (R629), wrapped in the flash. -/
opaque dikModulus : List (BitVec 8)

/-- Which of the five rails a monitor of shared logic (774–1,023) belongs to (R613). -/
opaque sharedRail : Nat → Nat

/-- The last voltage of a rail, mV, in the body of an Ageing Record (R635): the spec gives the entry no width. -/
opaque ageLastV : List (BitVec 8) → Nat → Nat

/-- The parts that the body of an Ageing Record names as retired: region and physical part (R635). -/
opaque ageRetired : List (BitVec 8) → List (Nat × Nat)

/-- Does a receive flow filter, as its eight words spell it, take a frame (R661)? The spec gives the words no layout. -/
opaque filterTakes : List (BitVec 32) → List (BitVec 8) → Bool

/-- The receive ring that a flow filter names (R661). -/
opaque filterRing : List (BitVec 32) → BitVec 3

end Sys2Proof.Config
end

