-- ==== Sys2Proof/Machine/AfuData.lean ====
section
/-! DEFINITION. What the Alignment and Fusion Unit keeps beside its registers (R443–R470). -/

namespace Sys2Proof.Machine

/-- A sensor slot. -/
structure AfuSlot where
  cal : List Word := []                  -- its calibration record, fixed while EN is 1 (R473)
  lastSample : Nat := 0
  frames : List (Nat × Option Nat) := [] -- match times of TRGSLOT whose frame is still to publish, and the frame's capture
  refs : List Nat := []                  -- match times of TRGSLOT that have had no reference event
  nextF : Nat := 0                       -- frames published since the slot was enabled (R463)
  ref : Option (Nat × Nat) := none       -- sensor's own time and reference time of the last event
  mapTs : Nat := 0                       -- MAP: ts ↦ mapT + (ts − mapTs) · num / den (R445)
  mapT : Int := 0
  num : Int := 1
  den : Int := 1
  good : Nat := 0                        -- consecutive events within PER/4 while UNLOCKED
  points : List Nat := []                -- capture times of a lidar's points, newest first
  moved : Option DWord := none           -- the last instant whose points a lidar has published
  deriving DecidableEq, Repr

/-- A contribution bound to an instant (R451). -/
structure Contrib where
  sensor : Nat
  kind : Nat
  capt : Nat
  late : Bool
  data : List Byte
  deriving DecidableEq, Repr

/-- A bound instant (R449). -/
structure Bound where
  queue : Nat
  index : Nat
  phase : DWord
  out : Nat
  trk : Nat
  grid : Nat
  contribs : List Contrib := []
  deriving DecidableEq, Repr

/-- What the last issued instant of a stream leaves for the next (R454, R468). -/
structure Issued where
  tinst : Nat
  grid : Nat
  contribs : List Contrib
  deriving DecidableEq, Repr

/-- An instant stream. -/
structure AfuStream where
  last : Option DWord := none            -- phase of the instant bound last
  bound : List Bound := []               -- oldest first, at most two
  count : Nat := 0                       -- instants issued since enable
  prev : Option Issued := none
  deriving DecidableEq, Repr

/-- An issued instant whose output is on its way to memory (R459). -/
structure AfuOut where
  queue : Nat
  index : Nat
  writes : List (Nat × List Byte)
  deriving DecidableEq, Repr

/-- A pose of the table (R461), with the velocity and yaw rate of its time. -/
structure PoseEntry where
  time : Nat
  ws : List Word                         -- x, y, z, quaternion w, x, y, z, then VX, VY, YAWRATE, YAW
  deriving DecidableEq, Repr

/-- A track (R465). -/
structure Track where
  tid : Nat
  cls : Nat
  confirmed : Bool := false
  ws : List Word                         -- X, Y, YAW, V, YAWRATE, L, W, H, Z, PTRACE
  conf : Word
  age : Nat := 0
  miss : Nat := 0
  hits : Nat := 0
  sensors : Nat := 0                     -- slots that have updated it in this instant
  lastT : Nat := 0
  deriving DecidableEq, Repr

/-- AFU. -/
structure Afu where
  slots : Sparse AfuSlot := []
  streams : Sparse AfuStream := []
  outs : List AfuOut := []
  poses : List PoseEntry := []           -- newest first, at most 4,096
  tracks : List Track := []              -- in ascending TID
  lastImu : Option Nat := none
  lastFix : Option Nat := none           -- last accepted scan match or visual update
  lastWheel : Option Nat := none
  inertialSince : Option Nat := none
  frameId : Nat := 0                     -- plan frame number (R470)
  phaseLog : List (Nat × BitVec 96 × Nat) := []   -- time, phase and increment of each segment, newest first
  deriving DecidableEq, Repr

end Sys2Proof.Machine
end

