-- ==== Sys2Proof/Machine/BootData.lean ====
section
/-! DEFINITION. What boot, SEC and AGE keep beside their registers (R613–R653). -/

namespace Sys2Proof.Machine

/-- Boot. The anti-rollback counters and the count of cold boots are the contents of the flash device's replay-protected
area (R638), whose layout the spec does not give; they, and an accepted token (R649), outlive the standby input. -/
structure Boot where
  phase : Nat := 0                         -- last phase of R641 that has ended, 1–10
  mainOnly : Bool := false                 -- a boot of R645
  recovery : Bool := false                 -- mask ROM waits for firmware on SPI1 (R642, R712)
  running : Sparse (Option Nat) := []      -- anti-rollback counter ↦ SVN of the image running from it (R640)
  svn : Sparse Nat := []                   -- SVNCTR (R638)
  cold : Nat := 0                          -- cold boots (R638)
  token : Option Nat := none               -- an accepted unlock token: the DEBUG value it serves (R649)
  erased : Bool := false                   -- a vendor unlock has erased helper data and keys (R650)
  debug : Nat := 0                         -- DEBUG of the valid Provisioning Record (R627)
  custHash : List Byte := []               -- its CUSTHASH
  imageLen : Nat := 0                      -- bytes of the restart image (R581)
  cfgRails : List Nat := []                -- rail voltages of the Boot Configuration Record (R632)
  rails : List Nat := []                   -- boot voltages of R633, once boot has set them
  tokenBuf : List Byte := []               -- SEC's token buffer (R653)
  deriving DecidableEq, Repr

/-- A part retired in service (R619, R635). -/
structure Retired where
  region : Nat
  part : Nat
  mon : Nat
  phase : DWord
  deriving DecidableEq, Repr

/-- AGE. -/
structure Age where
  lastRead : Sparse (Option Int) := []     -- monitor ↦ last reading, ps
  lowest : Sparse (Option Int) := []       -- monitor ↦ lowest reading since power-on (R619)
  lowRun : Sparse Nat := []                -- monitor ↦ consecutive readings below SLACK_RET with its rail at VMAX (R615)
  highFrom : Sparse (Option Nat) := []     -- rail ↦ since when m_r has exceeded SLACK_TGT + SLACK_HYS (R613)
  raised : Sparse (Option Nat) := []       -- rail ↦ when it was last raised
  lowV : Sparse Nat := []                  -- rail ↦ lowest and highest voltage since power-on (R619)
  highV : Sparse Nat := []
  retired : List Retired := []             -- newest first
  railLow : List Nat := []                 -- rails at VMAX whose shared logic read below SLACK_RET (R618)
  readAt : Option Nat := none              -- when the monitors were last read
  deriving DecidableEq, Repr

end Sys2Proof.Machine
end

