-- ==== Sys2Proof/Machine/CanData.lean ====
section
/-! DEFINITION. What the CAN channels keep beside their registers (R666–R672, R678). -/

namespace Sys2Proof.Machine

/-- A mailbox. `ctl` holds ID, IDE and OWNER in the bits of CAN_MBCTL. -/
structure Mailbox where
  ctl : Word := 0
  mask : Word := 0
  len : Nat := 0
  data : Sparse Byte := []
  stamp : DWord := 0
  pending : Bool := false
  again : Bool := false        -- new content waits for the frame on the bus to end (R668)
  unread : Bool := false
  lost : Bool := false
  count : Nat := 0             -- frames received
  deriving DecidableEq, Repr

/-- A frame on the bus: the mailbox it is sent from and what it carries. -/
structure BusFrame where
  mb : Nat
  len : Nat
  data : Sparse Byte
  deriving DecidableEq, Repr

/-- CAN. Mailboxes are keyed channel * 256 + (128 for a receive mailbox) + index. -/
structure Can where
  boxes : Sparse Mailbox := []
  bus : Sparse (Option BusFrame) := []
  deriving DecidableEq, Repr

end Sys2Proof.Machine
end

