-- ==== Sys2Proof/Machine/CvuData.lean ====
section
/-! DEFINITION. What the check-value units keep beside their registers (R509–R521). -/

namespace Sys2Proof.Machine

/-- A context: its eight words (R509), and whether an uncorrectable error has disabled it (R521). -/
structure CvuCtx where
  ws : List Word := List.replicate 8 0#32
  bad : Bool := false
  deriving DecidableEq, Repr

/-- A hand-off frame that awaits its verdict: the value computed, the blocks' outcome and cause (R518). -/
structure CvuFrame where
  value : Nat
  cause : Nat
  deriving DecidableEq, Repr

/-- A logical channel. -/
structure CvuChan where
  frame : Option CvuFrame := none
  counts : Sparse Nat := []         -- context ↦ its frames since the channel was enabled (R512)
  verdictAt : Nat := 0
  deriving DecidableEq, Repr

/-- CVU. -/
structure Cvu where
  ctxs : Sparse CvuCtx := []
  chans : Sparse CvuChan := []
  wr : Nat := 0                     -- index of the next verdict record (R515)
  deriving DecidableEq, Repr

end Sys2Proof.Machine
end

