-- ==== Sys2Proof/Machine/Fp.lean ====
section
/-! DEFINITION. Number formats and correctly rounded arithmetic (R120–R124, R134–R141): exact values as dyadic numbers,
one rounding to a format, the FP32 operations, conversions and the gate functions. -/

namespace Sys2Proof.Machine

/-- The six numeric flags of R145, bit for bit. -/
abbrev Numf := BitVec 6

def nfNanIn : Numf := 1
def nfNanGen : Numf := 2
def nfOvfSat : Numf := 4
def nfOvfInf : Numf := 8
def nfUnf : Numf := 16
def nfClamp : Numf := 32

/-- The value a pattern stands for: magnitude `m * 2^e` with its sign. -/
inductive Fv where
  | nan
  | inf (neg : Bool)
  | num (neg : Bool) (m : Nat) (e : Int)
  deriving DecidableEq, Repr

def Fv.zero : Fv := .num false 0 0

/-- How a format spells NaN (R120). -/
inductive NanKind where
  | ieee      -- exponent all ones, mantissa not 0; mantissa 0 is Inf
  | allOnes   -- S.1111.111 only, no Inf
  | none
  deriving DecidableEq, Repr

/-- A sign-exponent-mantissa format of R120. -/
structure FFmt where
  ebits : Nat
  mbits : Nat
  bias : Nat
  nan : NanKind
  canon : Nat := 0     -- the canonical NaN of R122
  deriving DecidableEq, Repr

def fp32 : FFmt := { ebits := 8, mbits := 23, bias := 127, nan := .ieee, canon := 0x7FC00000 }
def bf16 : FFmt := { ebits := 8, mbits := 7, bias := 127, nan := .ieee, canon := 0x7FC0 }
def fp16 : FFmt := { ebits := 5, mbits := 10, bias := 15, nan := .ieee, canon := 0x7E00 }
def e4m3 : FFmt := { ebits := 4, mbits := 3, bias := 7, nan := .allOnes, canon := 0x7F }
def e5m2 : FFmt := { ebits := 5, mbits := 2, bias := 15, nan := .ieee, canon := 0x7E }
def e3m2 : FFmt := { ebits := 3, mbits := 2, bias := 3, nan := .none }
def e2m3 : FFmt := { ebits := 2, mbits := 3, bias := 1, nan := .none }
def e2m1 : FFmt := { ebits := 2, mbits := 1, bias := 1, nan := .none }

def FFmt.bits (f : FFmt) : Nat := 1 + f.ebits + f.mbits

/-- Exponent of the least quantum: the smallest subnormal is 2 to it. -/
def FFmt.qmin (f : FFmt) : Int := 1 - (f.bias : Int) - (f.mbits : Int)

/-- Read a pattern (R120, R121). -/
def FFmt.decode (f : FFmt) (w : Nat) : Fv :=
  let neg := bitOf w (f.ebits + f.mbits)
  let x := bitsOf w (f.ebits + f.mbits - 1) f.mbits
  let t := w % 2 ^ f.mbits
  if f.nan = .ieee ∧ x = 2 ^ f.ebits - 1 then (if t = 0 then .inf neg else .nan)
  else if f.nan = .allOnes ∧ x = 2 ^ f.ebits - 1 ∧ t = 2 ^ f.mbits - 1 then .nan
  else if x = 0 then .num neg t f.qmin
  else .num neg (2 ^ f.mbits + t) (f.qmin + (x : Int) - 1)

/-- Largest exponent field and mantissa of a finite number. -/
def FFmt.maxFields (f : FFmt) : Nat × Nat :=
  match f.nan with
  | .ieee => (2 ^ f.ebits - 2, 2 ^ f.mbits - 1)
  | .allOnes => (2 ^ f.ebits - 1, 2 ^ f.mbits - 2)
  | .none => (2 ^ f.ebits - 1, 2 ^ f.mbits - 1)

/-- Pattern of the largest finite magnitude. -/
def FFmt.maxBits (f : FFmt) : Nat := f.maxFields.1 * 2 ^ f.mbits + f.maxFields.2

/-- Rounding modes of R134; SR carries the element's random value (R138). -/
inductive RMode where
  | rne | rtz
  | sr (r : Nat)
  deriving DecidableEq, Repr

/-- Number of bits of a magnitude. -/
def bitLen (m : Nat) : Nat := if m = 0 then 0 else Nat.log2 m + 1

/-- `m * 2^e` (plus less than one unit of `m` when `sticky`) rounded to a multiple of the format's quantum at that
magnitude: the multiple, the quantum's exponent and whether the value was exact (R134, R137). -/
def roundMag (f : FFmt) (mode : RMode) (m : Nat) (e : Int) (sticky : Bool) : Nat × Int × Bool :=
  let q := max f.qmin (e + (bitLen m : Int) - (f.mbits : Int) - 1)
  if q ≤ e then (m * 2 ^ (e - q).toNat, q, !sticky)
  else
    let sh := (q - e).toNat
    let t := m >>> sh
    let rem := m % 2 ^ sh
    let up := match mode with
      | .rne => decide (2 ^ sh < 2 * rem) || (2 * rem == 2 ^ sh && (sticky || t % 2 == 1))
      | .rtz => false
      | .sr r => decide (65536 ≤ 65536 * rem / 2 ^ sh + r)
    (if up then t + 1 else t, q, rem == 0 && !sticky)

/-- Fields of a rounded magnitude `t * 2^q`, with `none` where it exceeds the largest finite value. -/
def FFmt.pack (f : FFmt) (t : Nat) (q : Int) : Option Nat :=
  let (t, q) := if t = 2 ^ (f.mbits + 1) then (2 ^ f.mbits, q + 1) else (t, q)
  if t < 2 ^ f.mbits then some t
  else
    let x := (q - f.qmin + 1).toNat
    let b := x * 2 ^ f.mbits + (t - 2 ^ f.mbits)
    if f.maxBits < b then none else some b

def signBit (f : FFmt) (neg : Bool) : Nat := if neg then 2 ^ (f.ebits + f.mbits) else 0

/-- Convert to a format by RMODE and CMODE (R134, R135); `sat` is CMODE 0. A format without Inf or NaN always saturates
(inside R124). -/
def FFmt.convert (f : FFmt) (mode : RMode) (sat : Bool) (v : Fv) (sticky : Bool := false) : Nat × Numf :=
  match v with
  | .nan => (f.canon, nfNanIn)
  | .inf neg =>
    match f.nan with
    | .ieee => (signBit f neg + (2 ^ f.ebits - 1) * 2 ^ f.mbits, 0)
    | .allOnes => if sat then (signBit f neg + f.maxBits, nfOvfSat) else (f.canon, nfNanGen)
    | .none => (signBit f neg + f.maxBits, nfOvfSat)
  | .num neg m e =>
    let (t, q, _) := roundMag f mode m e sticky
    match f.pack t q with
    | some b => (signBit f neg + b, if t = 0 ∧ (m ≠ 0 ∨ sticky = true) then nfUnf else 0)
    | none =>
      match f.nan with
      | .ieee => if sat then (signBit f neg + f.maxBits, nfOvfSat)
                 else (signBit f neg + (2 ^ f.ebits - 1) * 2 ^ f.mbits, nfOvfInf)
      | .allOnes => if sat then (signBit f neg + f.maxBits, nfOvfSat) else (f.canon, nfNanGen)
      | .none => (signBit f neg + f.maxBits, nfOvfSat)

/-! ### FP32 operations (R140) -/

def f32 (w : Word) : Fv := fp32.decode w.toNat
def canonNan : Word := 0x7FC00000#32

/-- An exact result, rounded once to nearest even; a finite result beyond the range is Inf with OVF_INF. -/
def toF32 (v : Fv) (sticky : Bool := false) : Word × Numf :=
  let (b, fl) := fp32.convert .rne false v sticky
  (BitVec.ofNat 32 b, match v with | .nan => 0 | _ => fl)

def Fv.isNan : Fv → Bool | .nan => true | _ => false
def Fv.neg : Fv → Bool | .nan => false | .inf n => n | .num n _ _ => n
def Fv.negate : Fv → Fv | .nan => .nan | .inf n => .inf (!n) | .num n m e => .num (!n) m e

/-- A NaN result: NAN_IN where an input was NaN, else NAN_GEN. -/
def nanOut (anyIn : Bool) : Word × Numf := (canonNan, if anyIn then nfNanIn else nfNanGen)

/-- Signed magnitude of a finite value at exponent `q ≤ e`. -/
def scaledAt (neg : Bool) (m : Nat) (e q : Int) : Int :=
  let v : Int := ((m * 2 ^ (e - q).toNat : Nat) : Int)
  if neg then -v else v

/-- Exact sum of finite values; an exact zero is +0 unless both are negative zeros. -/
def addNum (n1 : Bool) (m1 : Nat) (e1 : Int) (n2 : Bool) (m2 : Nat) (e2 : Int) : Fv :=
  let q := min e1 e2
  let z := scaledAt n1 m1 e1 q + scaledAt n2 m2 e2 q
  if z = 0 then .num (n1 && n2) 0 0 else .num (decide (z < 0)) z.natAbs q

def Fv.add : Fv → Fv → Option Fv
  | .nan, _ => none
  | _, .nan => none
  | .inf a, .inf b => if a = b then some (.inf a) else none
  | .inf a, _ => some (.inf a)
  | _, .inf b => some (.inf b)
  | .num n1 m1 e1, .num n2 m2 e2 => some (addNum n1 m1 e1 n2 m2 e2)

def Fv.mul : Fv → Fv → Option Fv
  | .nan, _ => none
  | _, .nan => none
  | .inf a, .inf b => some (.inf (a != b))
  | .inf a, .num n m _ => if m = 0 then none else some (.inf (a != n))
  | .num n m _, .inf b => if m = 0 then none else some (.inf (n != b))
  | .num n1 m1 e1, .num n2 m2 e2 => some (.num (n1 != n2) (m1 * m2) (e1 + e2))

def fadd (a b : Word) : Word × Numf :=
  match (f32 a).add (f32 b) with
  | some v => toF32 v
  | none => nanOut ((f32 a).isNan || (f32 b).isNan)

def fneg (a : Word) : Word := if (f32 a).isNan then canonNan else a ^^^ 0x80000000#32
def fsub (a b : Word) : Word × Numf := if (f32 b).isNan then nanOut true else fadd a (b ^^^ 0x80000000#32)

def fmul (a b : Word) : Word × Numf :=
  match (f32 a).mul (f32 b) with
  | some v => toF32 v
  | none => nanOut ((f32 a).isNan || (f32 b).isNan)

def ffma (a b c : Word) : Word × Numf :=
  let anyIn := (f32 a).isNan || (f32 b).isNan || (f32 c).isNan
  if anyIn then nanOut true
  else
    match (f32 a).mul (f32 b) with
    | none => nanOut false
    | some p =>
      match p.add (f32 c) with
      | none => nanOut false
      | some v => toF32 v

/-- Quotient with a sticky bit: the dividend is scaled until the quotient has at least 30 bits. -/
def fdiv (a b : Word) : Word × Numf :=
  match f32 a, f32 b with
  | .nan, _ => nanOut true
  | _, .nan => nanOut true
  | .inf _, .inf _ => nanOut false
  | .inf n, .num n2 _ _ => toF32 (.inf (n != n2))
  | .num n1 _ _, .inf n2 => toF32 (.num (n1 != n2) 0 0)
  | .num n1 m1 e1, .num n2 m2 e2 =>
    if m2 = 0 then (if m1 = 0 then nanOut false else ((toF32 (.inf (n1 != n2))).1, nfOvfInf))
    else
      let s : Nat := 60
      let num := m1 * 2 ^ s
      toF32 (.num (n1 != n2) (num / m2) (e1 - e2 - (s : Int))) (num % m2 != 0)

/-- Square root with a sticky bit: the radicand is scaled to an even exponent and at least 60 bits. -/
def fsqrt (a : Word) : Word × Numf :=
  match f32 a with
  | .nan => nanOut true
  | .inf n => if n then nanOut false else toF32 (.inf false)
  | .num n m e =>
    if m = 0 then toF32 (.num n 0 0)
    else if n then nanOut false
    else
      let s : Nat := if (e % 2 == 0) then 60 else 61
      let r := m * 2 ^ s
      let t := Nat.sqrt r
      toF32 (.num false t ((e - (s : Int)) / 2)) (t * t != r)

/-- Reciprocal square root, rounded once: 1/√0 is Inf of the zero's sign. -/
def frsqrt (a : Word) : Word × Numf :=
  match f32 a with
  | .nan => nanOut true
  | .inf n => if n then nanOut false else toF32 (.num false 0 0)
  | .num n m e =>
    if m = 0 then ((toF32 (.inf n)).1, nfOvfInf)
    else if n then nanOut false
    else
      let m' := if e % 2 == 0 then m else m * 2
      let e' := if e % 2 == 0 then e else e - 1
      let t := Nat.sqrt (2 ^ 140 / m')
      toF32 (.num false t (-(70 : Int) - e' / 2)) (t * t * m' != 2 ^ 140)

/-- ⌊ln 2 · 2^256⌋, and the fraction bits of the exponential's fixed-point arithmetic. -/
def ln2x : Nat := 80260960185991308862233904206310070533990667611589946606122867505419956976171
def expBits : Nat := 256

/-- Taylor sum of exp on a fixed-point argument: `term` is r^k/k!, each rounded down, `n` terms more. -/
def expSum (r : Int) : Nat → Nat → Int → Int → Int
  | 0, _, _, acc => acc
  | n + 1, k, term, acc =>
    let t := term * r / ((k : Int) * (2 : Int) ^ expBits)
    expSum r n (k + 1) t (acc + t)

/-- exp of the fixed-point number `r / 2^256`, |r| below 1, as a fixed-point number; the error is far below 2^-200, and
no exponential of an FP32 number other than 0 lies that near to a rounding boundary. -/
def expFix (r : Int) : Int := expSum r 64 1 (2 ^ expBits) (2 ^ expBits)

/-- 2^k · exp(r), rounded once. -/
def expOut (k : Int) (r : Int) : Word × Numf :=
  toF32 (.num false (expFix r).toNat (k - (expBits : Int))) true

/-- exp (R140). -/
def fexp (a : Word) : Word × Numf :=
  match f32 a with
  | .nan => nanOut true
  | .inf n => if n then (0#32, 0) else toF32 (.inf false)
  | .num n m e =>
    if m = 0 then (0x3F800000#32, 0)
    else if 8 ≤ e + (bitLen m : Int) then
      (if n then (0#32, nfUnf) else ((toF32 (.inf false)).1, nfOvfInf))
    else
      let x : Int := scaledAt n m e (-(expBits : Int))
      let k := (x + (ln2x : Int) / 2) / (ln2x : Int)
      expOut k (x - k * (ln2x : Int))

/-- exp2 (R140): exact where the argument is an integer. -/
def fexp2 (a : Word) : Word × Numf :=
  match f32 a with
  | .nan => nanOut true
  | .inf n => if n then (0#32, 0) else toF32 (.inf false)
  | .num n m e =>
    if m = 0 then (0x3F800000#32, 0)
    else if 9 ≤ e + (bitLen m : Int) then
      (if n then (0#32, nfUnf) else ((toF32 (.inf false)).1, nfOvfInf))
    else
      let x : Int := scaledAt n m e (-(expBits : Int))
      let k := x / (2 ^ expBits : Int)
      let fr := x - k * 2 ^ expBits
      if fr = 0 then toF32 (.num false 1 k)
      else expOut k (fr * (ln2x : Int) / 2 ^ expBits)

/-- Order of two values; `none` when one is NaN. -/
def Fv.lt? (a b : Fv) : Option Bool :=
  match a, b with
  | .nan, _ => none
  | _, .nan => none
  | .inf n1, .inf n2 => some (n1 && !n2)
  | .inf n, .num _ _ _ => some n
  | .num _ _ _, .inf n => some (!n)
  | .num n1 m1 e1, .num n2 m2 e2 =>
    let q := min e1 e2
    some (decide (scaledAt n1 m1 e1 q < scaledAt n2 m2 e2 q))

def flt (a b : Word) : Bool := (f32 a).lt? (f32 b) == some true
/-- a ≤ b: false when either is NaN. -/
def fle (a b : Word) : Bool := (f32 b).lt? (f32 a) == some false
def isNanW (a : Word) : Bool := (f32 a).isNan
def isFin (a : Word) : Bool := match f32 a with | .num _ _ _ => true | _ => false
def fabs (a : Word) : Word := a &&& 0x7FFFFFFF#32

/-- max with max(−0, +0) = +0; a NaN input gives the canonical NaN (R160). -/
def fmax (a b : Word) : Word × Numf :=
  match (f32 a).lt? (f32 b) with
  | none => nanOut true
  | some true => (b, 0)
  | some false => if flt b a then (a, 0) else if (f32 a).neg then (b, 0) else (a, 0)

/-- Sequencing of flagged operations. -/
def andThen {α β : Type} (x : α × Numf) (f : α → β × Numf) : β × Numf :=
  let (v, fl) := x
  let (w, fl') := f v
  (w, fl ||| fl')

/-- FP32 constants: 1, 2, 0.5, √(2/π), 0.044715 (R141). -/
def f1 : Word := 0x3F800000#32
def f2 : Word := 0x40000000#32
def fHalf : Word := 0x3F000000#32
def fC1 : Word := 0x3F4C422A#32
def fC2 : Word := 0x3D372713#32

/-- sigmoid (R141). -/
def fsigmoid (x : Word) : Word × Numf :=
  andThen (fexp (fneg x)) (fun t => andThen (fadd f1 t) (fun t => fdiv f1 t))

/-- tanh for x ≥ 0 (R141). -/
def ftanhPos (x : Word) : Word × Numf :=
  andThen (fmul f2 x) (fun t => andThen (fexp t) (fun t => andThen (fadd t f1) (fun t =>
    andThen (fdiv f2 t) (fun t => fsub f1 t))))

/-- tanh (R141). -/
def ftanh (x : Word) : Word × Numf :=
  if isNanW x then nanOut true
  else if flt x 0#32 then andThen (ftanhPos (fneg x)) (fun y => (fneg y, 0)) else ftanhPos x

def fsilu (x : Word) : Word × Numf := andThen (fsigmoid x) (fun s => fmul x s)

def fgelu (x : Word) : Word × Numf :=
  andThen (fmul x x) (fun t => andThen (fmul t x) (fun t => andThen (ffma fC2 t x) (fun t =>
    andThen (fmul fC1 t) (fun t => andThen (ftanh t) (fun t => andThen (fadd f1 t) (fun prev =>
      andThen (fmul fHalf x) (fun t => fmul t prev)))))))

def frelu (x : Word) : Word × Numf := fmax x 0#32

/-- The gate function that FUNC selects (R160); the values it does not define name none. -/
def fact (func : Nat) (x : Word) : Option (Word × Numf) :=
  match func with
  | 0 => some (fsigmoid x)
  | 1 => some (ftanh x)
  | 2 => some (fsilu x)
  | 3 => some (fgelu x)
  | 4 => some (frelu x)
  | _ => none

/-- An integer as FP32, rounded once. -/
def intToF32 (z : Int) : Word := (toF32 (.num (decide (z < 0)) z.natAbs 0)).1

/-- A finite value rounded to an integer by RMODE. -/
def roundInt (mode : RMode) (neg : Bool) (m : Nat) (e : Int) : Int :=
  let mag : Nat :=
    if 0 ≤ e then m * 2 ^ e.toNat
    else
      let sh := (-e).toNat
      let t := m >>> sh
      let rem := m % 2 ^ sh
      let up := match mode with
        | .rne => decide (2 ^ sh < 2 * rem) || (2 * rem == 2 ^ sh && t % 2 == 1)
        | .rtz => false
        | .sr r => decide (65536 ≤ 65536 * rem / 2 ^ sh + r)
      if up then t + 1 else t
  if neg then -(mag : Int) else (mag : Int)

/-- Conversion to an `n`-bit integer (R136): NaN gives 0 with NAN_IN, out of range saturates with OVF_SAT. -/
def toIntN (n : Nat) (mode : RMode) (v : Fv) : Int × Numf :=
  let lo : Int := -(2 ^ (n - 1) : Int)
  let hi : Int := 2 ^ (n - 1) - 1
  match v with
  | .nan => (0, nfNanIn)
  | .inf neg => (if neg then lo else hi, nfOvfSat)
  | .num neg m e =>
    let z := roundInt mode neg m e
    if z < lo then (lo, nfOvfSat) else if hi < z then (hi, nfOvfSat)
    else (z, if z = 0 ∧ m ≠ 0 then nfUnf else 0)

/-- ⌊|x|⌋ of a finite FP32 number as a natural, and the floor as an integer. -/
def floorF32 (w : Word) : Int :=
  match f32 w with
  | .num neg m e =>
    if 0 ≤ e then (if neg then -((m * 2 ^ e.toNat : Nat) : Int) else ((m * 2 ^ e.toNat : Nat) : Int))
    else (if neg then -((m : Int)) else (m : Int)) / 2 ^ (-e).toNat
  | _ => 0

/-! ### The random value of stochastic rounding (R138) -/

def rotl64 (x : Nat) (n : Nat) : Nat := (x * 2 ^ n + x / 2 ^ (64 - n)) % 2 ^ 64

def srRounds (seed : Nat) : Nat → Nat → Nat → Nat → Nat × Nat
  | 0, _, hi, lo => (hi, lo)
  | n + 1, i, hi, lo =>
    let k := (seed + 0x9E3779B97F4A7C15 * (i + 1)) % 2 ^ 64
    let hi := Nat.xor (rotl64 ((hi + lo) % 2 ^ 64) 17) k
    let lo := Nat.xor (rotl64 lo 29) hi
    srRounds seed n (i + 1) hi lo

/-- The 16-bit random value of element `e` of an output tile. -/
def srValue (seed step tensor trow tcol e : Nat) : Nat :=
  let hi := 2 ^ 32 * (step % 2 ^ 32) + 2 ^ 16 * (tensor % 2 ^ 16)
  let lo := 2 ^ 48 * (trow % 2 ^ 16) + 2 ^ 32 * (tcol % 2 ^ 16) + e / 4
  let (hi, lo) := srRounds seed 6 0 hi lo
  Nat.xor hi lo / 2 ^ (16 * (e % 4)) % 2 ^ 16

/-! ### Order of reductions (R129, R133) -/

/-- Add a list in sequence, left to right. -/
def seqAdd {α : Type} (add : α → α → α × Numf) : α → List α → α × Numf
  | v, [] => (v, 0)
  | v, g :: rest => andThen (add v g) (fun v => seqAdd add v rest)

/-- One level of the pairwise tree. -/
def pairUp {α : Type} (add : α → α → α × Numf) : List α → List α × Numf
  | [] => ([], 0)
  | [a] => ([a], 0)
  | a :: b :: rest =>
    let (v, f1) := add a b
    let (vs, f2) := pairUp add rest
    (v :: vs, f1 ||| f2)

/-- The fixed pairwise tree; `fuel` bounds its levels. -/
def treeUp {α : Type} (add : α → α → α × Numf) : Nat → List α → List α × Numf
  | 0, vs => (vs, 0)
  | fuel + 1, vs =>
    match vs with
    | [] => ([], 0)
    | [a] => ([a], 0)
    | _ => andThen (pairUp add vs) (fun vs => treeUp add fuel vs)

/-- The segment tree with no sequential part (R133); `none` for no leaves. -/
def treeSum {α : Type} (add : α → α → α × Numf) (vs : List α) : Option α × Numf :=
  let (r, f) := treeUp add (vs.length + 1) vs
  (r.head?, f)

/-- Segments of `l` groups. -/
def segments {α : Type} (l : Nat) : Nat → List α → List (List α)
  | 0, _ => []
  | n + 1, gs => gs.take l :: segments l n (gs.drop l)

/-- Is a segment empty (R130)? -/
def segEmpty (g kseg : Nat) : Bool := decide (g ≤ (kseg - 1) * ceilDiv g kseg)

/-- Combine group results by R129: sequential within a segment, then the pairwise tree. -/
def reduceGroups {α : Type} (add : α → α → α × Numf) (kseg : Nat) (gs : List α) : Option α × Numf :=
  let segs := segments (ceilDiv gs.length kseg) kseg gs
  let (vs, f1) := segs.foldr (fun seg acc =>
    match seg with
    | [] => acc
    | v :: rest =>
      let (x, f) := seqAdd add v rest
      (x :: acc.1, f ||| acc.2)) ([], 0)
  let (r, f2) := treeSum add vs
  (r, f1 ||| f2)

/-- Exact sum of values, rounded once to FP32 (R127, R133). An exact sum of zero is +0. -/
def exactSum (vs : List Fv) : Word × Numf :=
  if vs.any Fv.isNan then nanOut true
  else
    let pinf := vs.any (fun v => v == .inf false)
    let ninf := vs.any (fun v => v == .inf true)
    if pinf && ninf then nanOut false
    else if pinf then toF32 (.inf false)
    else if ninf then toF32 (.inf true)
    else
      let q := vs.foldl (fun q v => match v with | .num _ _ e => min q e | _ => q) 0
      let z : Int := vs.foldl (fun z v => match v with | .num n m e => z + scaledAt n m e q | _ => z) 0
      toF32 (.num (decide (z < 0)) z.natAbs q)

/-- Sum a row of FP32 values by R129 in groups of 32, each the exact sum rounded once (R133). -/
def rowGroups : Nat → List Word → List (List Word)
  | 0, _ => []
  | fuel + 1, xs => if xs.isEmpty then [] else xs.take 32 :: rowGroups fuel (xs.drop 32)

def rowSum (kseg : Nat) (xs : List Word) : Word × Numf :=
  let gs := (rowGroups (xs.length + 1) xs).map (fun g => exactSum (g.map f32))
  let fl := gs.foldl (fun a g => a ||| g.2) 0
  let (r, f) := reduceGroups fadd kseg (gs.map (fun g => g.1))
  (r.getD 0#32, fl ||| f)

end Sys2Proof.Machine
end

