-- ==== Sys2Proof/Machine/Tile.lean ====
section
/-! DEFINITION. Tiles: header and layout (R208–R212), the exact values of their elements (R120, R123, R211), and the
conversion of FP32 results to an output format (R124, R134–R138). -/

namespace Sys2Proof.Machine

/-- Bits of an element by format code (R165). -/
def fmtBits (f : Nat) : Nat :=
  if f = 0 ∨ f = 0xD then 32 else if f = 1 ∨ f = 2 then 16 else if f = 7 ∨ f = 8 then 6
  else if f = 9 ∨ f = 0xC then 4 else 8

def fmtValid (f : Nat) : Bool := decide (f ≤ 0xD)
def fmtMx (f : Nat) : Bool := decide (5 ≤ f) && decide (f ≤ 0xA)
def fmtInt (f : Nat) : Bool := f == 0xB || f == 0xC || f == 0xD
def fmtFp8 (f : Nat) : Bool := f == 3 || f == 4

/-- The sign-exponent-mantissa format of a code; integers have none. -/
def fmtFp (f : Nat) : Option FFmt :=
  match f with
  | 0 => some fp32
  | 1 => some bf16
  | 2 => some fp16
  | 3 => some e4m3
  | 4 => some e5m2
  | 5 => some e4m3
  | 6 => some e5m2
  | 7 => some e3m2
  | 8 => some e2m3
  | 9 => some e2m1
  | _ => none

/-- Emax of R124. -/
def fmtEmax (f : Nat) : Int :=
  match f with
  | 5 => 8
  | 6 => 15
  | 7 => 4
  | 8 => 2
  | 9 => 2
  | _ => 0

/-- A tile: its header's fields, data and scales. -/
structure Tile where
  fmt : Nat
  baxis : Nat := 0
  tscaled : Bool := false
  tscale : Word := f1
  tensor : Nat := 0
  trow : Nat := 0
  tcol : Nat := 0
  rows : Nat
  cols : Nat
  data : List Byte := []
  scales : List Byte := []
  deriving DecidableEq, Repr

/-- Read a header; `none` where R212 rejects it. -/
def Tile.ofHeader (bs : List Byte) : Option Tile :=
  let w := fun (o : Nat) => leNat ((bs.drop o).take 4)
  let fmt := bitsOf (w 0) 3 0
  let rows := bitsOf (w 8) 9 0
  let cols := bitsOf (w 8) 20 10
  let baxis := bitsOf (w 0) 4 4
  let tscaled := bitOf (w 0) 5
  let b := fmtBits fmt
  if crc32c (bs.take 0x3C) = w 0x3C ∧ bitsOf (w 0) 15 8 = 1 ∧ bitsOf (w 0) 7 6 = 0 ∧ bitsOf (w 8) 31 21 = 0 ∧
      (bs.drop 0x10).take 0x2C = List.replicate 0x2C 0#8 ∧ fmtValid fmt = true ∧ rows * cols * b % 8 = 0 ∧
      1 ≤ rows ∧ rows ≤ 512 ∧ 1 ≤ cols ∧ cols ≤ 1024 ∧
      (fmtMx fmt = true → (if baxis = 0 then cols else rows) % 32 = 0 ∧ tscaled = false) ∧ rows * cols * b / 8 ≤ 131072 then
    some { fmt := fmt, baxis := baxis, tscaled := tscaled, tscale := BitVec.ofNat 32 (w 0xC), tensor := bitsOf (w 0) 31 16,
           trow := bitsOf (w 4) 15 0, tcol := bitsOf (w 4) 31 16, rows := rows, cols := cols }
  else none

def Tile.dataLen (t : Tile) : Nat := t.rows * t.cols * fmtBits t.fmt / 8
def Tile.scaleLen (t : Tile) : Nat := if fmtMx t.fmt then t.rows * t.cols / 32 else 0
/-- Length in memory: header, data, scales, padded to 64 bytes. -/
def Tile.length (t : Tile) : Nat := ceilDiv (64 + t.dataLen + t.scaleLen) 64 * 64

/-- Complete a tile from all its bytes. -/
def Tile.fill (t : Tile) (bs : List Byte) : Tile :=
  { t with data := (bs.drop 64).take t.dataLen, scales := (bs.drop (64 + t.dataLen)).take t.scaleLen }

/-- The 64-byte header with its CRC (R208). -/
def Tile.headerBytes (t : Tile) : List Byte :=
  let w0 := t.fmt + t.baxis * 16 + (if t.tscaled then 32 else 0) + 256 + 65536 * (t.tensor % 65536)
  let h := leBytes 4 w0 ++ leBytes 4 (t.trow % 65536 + 65536 * (t.tcol % 65536)) ++ leBytes 4 (t.rows + t.cols * 1024) ++
    leBytes 4 t.tscale.toNat ++ List.replicate 0x2C 0#8
  h ++ leBytes 4 (crc32c h)

/-- All bytes of a tile, padded (R209, R210). -/
def Tile.bytes (t : Tile) : List Byte :=
  let body := t.headerBytes ++ t.data ++ t.scales
  body ++ List.replicate (t.length - body.length) 0#8

/-- Element patterns, packed little-endian: eight elements of `b` bits lie in `b` bytes (R209). -/
def unpackElems (b : Nat) : Nat → List Byte → List Nat
  | 0, _ => []
  | fuel + 1, bs =>
    if bs.isEmpty then []
    else
      let c := bs.take b
      let v := leNat c
      (List.range (c.length * 8 / b)).map (fun j => bitsOf v (b * j + b - 1) (b * j)) ++ unpackElems b fuel (bs.drop b)

def packElems (b : Nat) : Nat → List Nat → List Byte
  | 0, _ => []
  | fuel + 1, es =>
    if es.isEmpty then []
    else
      let c := es.take 8
      leBytes (c.length * b / 8) (c.foldr (fun e a => a * 2 ^ b + e % 2 ^ b) 0) ++ packElems b fuel (es.drop 8)

def Tile.elems (t : Tile) : List Nat := (unpackElems (fmtBits t.fmt) (t.data.length + 1) t.data).take (t.rows * t.cols)

/-- Value of an element before any scale (R120). -/
def elemValue (fmt p : Nat) : Fv :=
  match fmtFp fmt with
  | some f => f.decode p
  | none =>
    let z := signedOf (fmtBits fmt) p
    .num (decide (z < 0)) z.natAbs (if fmt = 0xA then -6 else 0)

/-- The scale byte of element (r, c) of an MX tile (R210). -/
def Tile.scaleAt (t : Tile) (r c : Nat) : Nat :=
  (t.scales.getD (if t.baxis = 0 then r * (t.cols / 32) + c / 32 else r / 32 * t.cols + c) 0xFF#8).toNat

/-- The exact value of element (r, c) with pattern `p` (R123, R211). -/
def Tile.value (t : Tile) (r c p : Nat) : Fv :=
  let v := elemValue t.fmt p
  if fmtMx t.fmt then
    let x := t.scaleAt r c
    if x = 0xFF then .nan
    else match v with
      | .num n m e => .num n m (e + (x : Int) - 127)
      | v => v
  else if t.tscaled then
    match v.mul (f32 t.tscale) with
    | some v => v
    | none => .nan
  else v

/-- Every value, row by row. -/
def Tile.values (t : Tile) : List Fv :=
  t.elems.zipIdx.map (fun e => t.value (e.2 / t.cols) (e.2 % t.cols) e.1)

/-- Raw integer elements, row by row. -/
def Tile.ints (t : Tile) : List Int := t.elems.map (fun p => signedOf (fmtBits t.fmt) p)

/-- Is an MX scale 0xFF or an element NaN (R145)? -/
def Tile.hasNan (t : Tile) : Bool := t.values.any Fv.isNan

/-- Elements as FP32 words, each the exact value rounded once, and NAN_IN where one is NaN. -/
def Tile.f32s (t : Tile) : List Word × Numf :=
  let vs := t.values
  (vs.map (fun v => (toF32 v).1), if vs.any Fv.isNan then nfNanIn else 0)

/-- The elements of a square as rows. -/
def rowsOf {α : Type} (cols : Nat) : Nat → List α → List (List α)
  | 0, _ => []
  | n + 1, xs => xs.take cols :: rowsOf cols n (xs.drop cols)

/-- Columns of a list of rows of equal length. -/
def transposeRows {α : Type} (cols : Nat) (rs : List (List α)) : List (List α) :=
  (List.range cols).map (fun c => rs.filterMap (fun r => r[c]?))

/-- What decides a conversion: RMODE, CMODE and the inputs of the random generator (R138). -/
structure Conv where
  rmode : Nat := 0
  sat : Bool := true
  seed : Nat := 0
  step : Nat := 0
  tensor : Nat := 0
  trow : Nat := 0
  tcol : Nat := 0
  deriving DecidableEq, Repr

def Conv.mode (c : Conv) (e : Nat) : RMode :=
  if c.rmode = 1 then .rtz
  else if c.rmode = 2 then .sr (srValue c.seed c.step c.tensor c.trow c.tcol e) else .rne

/-- Quantise up to 32 FP32 values, each with its element index, into one MX block (R124): scale, patterns, flags. -/
def quantBlock (fmt : Nat) (c : Conv) (xs : List (Word × Nat)) : Nat × List Nat × Numf :=
  if xs.any (fun x => isNanW x.1) then (0xFF, xs.map (fun _ => 0), nfNanIn)
  else if xs.any (fun x => !isFin x.1) then (0xFF, xs.map (fun _ => 0), nfNanGen)
  else
    let top := xs.foldl (fun a x => match f32 x.1 with
      | .num _ m e => if m = 0 then a else max a (e + (bitLen m : Int) - 1)
      | _ => a) (-1000)
    let e0 : Int := if top = -1000 then -127 else top - fmtEmax fmt
    let e := clampInt (-127) 127 e0
    let els := xs.map (fun x =>
      match f32 x.1 with
      | .num n m ex =>
        (match fmtFp fmt with
         | some f => f.convert (c.mode x.2) true (.num n m (ex - e))
         | none => (let (z, fl) := toIntN 8 (c.mode x.2) (.num n m (ex - e + 6)); (patternOf 8 z, fl)))
      | _ => (0, 0))
    ((e + 127).toNat, els.map (fun x => x.1), els.foldl (fun a x => a ||| x.2) (if e = e0 then 0 else nfClamp))

/-- Convert results to an output tile of `fmt`; MX blocks run along `baxis`. Element indices are row-major. Results are
FP32 values, or the exact scaled values of an integer product, which round once here (R132). -/
def encodeTile (fmt baxis rows cols : Nat) (c : Conv) (vs : List Fv) : Tile × Numf :=
  let base : Tile := { fmt := fmt, rows := rows, cols := cols, tensor := c.tensor, trow := c.trow, tcol := c.tcol }
  if fmtMx fmt then
    let ix := (vs.map (fun v => (toF32 v).1)).zipIdx
    let lines : List (List (Word × Nat)) :=
      if baxis = 0 then rowsOf cols rows ix else transposeRows cols (rowsOf cols rows ix)
    let n := if baxis = 0 then cols else rows
    let blocks := lines.map (fun l => (rowsOf 32 (n / 32) l).map (quantBlock fmt c))
    let fl := blocks.foldl (fun a l => l.foldl (fun a b => a ||| b.2.2) a) 0
    let elLines := blocks.map (fun l => l.flatMap (fun b => b.2.1))
    let scLines := blocks.map (fun l => l.map (fun b => b.1))
    let els := if baxis = 0 then elLines.flatten else (transposeRows rows elLines).flatten
    let scs := if baxis = 0 then scLines.flatten else (transposeRows (rows / 32) scLines).flatten
    ({ base with baxis := baxis, data := packElems (fmtBits fmt) (els.length + 1) els,
                 scales := scs.map (BitVec.ofNat 8) }, fl)
  else
    let els : List (Nat × Numf) := vs.zipIdx.map (fun x =>
      match fmtFp fmt with
      | some f => if x.1.isNan then (f.canon, 0) else f.convert (c.mode x.2) c.sat x.1
      | none => (let (z, fl) := toIntN (fmtBits fmt) (c.mode x.2) x.1; (patternOf (fmtBits fmt) z, fl)))
    ({ base with data := packElems (fmtBits fmt) (els.length + 1) (els.map (fun e => e.1)) },
     els.foldl (fun a e => a ||| e.2) 0)

/-- A tile of INT32 values. -/
def intTile (rows cols : Nat) (zs : List Int) : Tile :=
  { fmt := 0xD, rows := rows, cols := cols, data := packElems 32 (zs.length + 1) (zs.map (patternOf 32)) }

end Sys2Proof.Machine
end

