-- ==== Sys2Proof/Machine/Stage.lean ====
section
/-! DEFINITION. Train maps and what each stage of a Dome computes from the tiles at its inputs (R125–R133, R142–R144,
R147–R149, R160–R164, R169–R173, R297–R309). -/

namespace Sys2Proof.Machine

/-! ### Train maps -/

/-- A stage entry (R171). -/
structure StageEnt where
  opcode : Nat
  fmtA : Nat
  fmtB : Nat
  fmtOut : Nat
  rmode : Nat
  cmode : Nat
  transA : Bool
  transB : Bool
  cin : Bool
  func : Nat
  bcast : Nat
  kseg : Nat
  outPlate : Bool
  outRoute : Bool
  nextCtx : Nat
  param0 : Word
  param1 : Word
  src : List Nat          -- SRC_IN0 to SRC_IN2
  recur : Nat
  reservedSet : Bool
  deriving DecidableEq, Repr

def StageEnt.ofWords (ws : List Word) : StageEnt :=
  let w := fun i => ws.getD i 0#32
  let f := fun i hi lo => fieldOf (w i) hi lo
  { opcode := f 0 7 0, fmtA := f 0 11 8, fmtB := f 0 15 12, fmtOut := f 0 19 16, rmode := f 0 21 20, cmode := f 0 22 22,
    transA := flagOf (w 0) 23, transB := flagOf (w 0) 24, cin := flagOf (w 0) 25, func := f 0 28 26, bcast := f 0 30 29,
    kseg := f 1 7 0 + 1, outPlate := flagOf (w 1) 8, outRoute := flagOf (w 1) 9, nextCtx := f 1 11 10,
    param0 := w 2, param1 := w 3, src := [f 4 7 0, f 4 15 8, f 4 23 16], recur := f 4 26 24,
    reservedSet := flagOf (w 0) 31 || f 1 31 12 != 0 || f 4 31 27 != 0 || w 5 != 0 || w 6 != 0 || w 7 != 0 }

/-- Kinds of stage, by logical index (R154): 0 MX, 1 EW, 2 NM, 3 RD, 4 XP, 5 QZ, 6 GW. -/
def stageKind (s : Nat) : Nat :=
  if s < 8 then 0 else if s < 10 then 1 else s - 8

/-- The kind of a physical slot (R154). -/
def slotKind (p : Nat) : Nat :=
  if p < 9 then 0 else if p < 12 then 1 else 2 + (p - 12) / 2

/-- Is the opcode one of the kind's (R160)? -/
def opcodeOfKind (kind op : Nat) : Bool :=
  op == 0 ||
  (match kind with
   | 0 => op == 0x10
   | 1 => decide (0x20 ≤ op) && decide (op ≤ 0x2F)
   | 2 => decide (0x30 ≤ op) && decide (op ≤ 0x32)
   | 3 => decide (0x40 ≤ op) && decide (op ≤ 0x43)
   | 4 => decide (0x50 ≤ op) && decide (op ≤ 0x52)
   | 5 => decide (0x60 ≤ op) && decide (op ≤ 0x62)
   | 6 => decide (0x70 ≤ op) && decide (op ≤ 0x72)
   | _ => false)

/-- A train map, as words (R169, R170). -/
abbrev TrainMap := List Word

def TrainMap.id (m : TrainMap) : Nat := fieldOf (m.getD 0 0#32) 31 16
def TrainMap.used (m : TrainMap) (s : Nat) : Bool := flagOf (m.getD 1 0#32) s
def TrainMap.retryOk (m : TrainMap) : Bool := flagOf (m.getD 1 0#32) 15
def TrainMap.nctx (m : TrainMap) (s : Nat) : Nat := fieldOf (m.getD 2 0#32) (2 * s + 1) (2 * s) + 1
def TrainMap.ent (m : TrainMap) (s c : Nat) : StageEnt := StageEnt.ofWords ((m.drop (16 + (4 * s + c) * 8)).take 8)

/-- The (stage, context) pairs that the map defines. -/
def TrainMap.contexts (m : TrainMap) : List (Nat × Nat) :=
  (List.range 15).flatMap (fun s => if m.used s then (List.range (m.nctx s)).map (fun c => (s, c)) else [])

/-- Operand pairs of R125. -/
def pairOk (a b : Nat) : Bool :=
  let mx8 := fun x => x == 5 || x == 6 || x == 7 || x == 8 || x == 0xA
  (mx8 a && mx8 b) || (a == 9 && b == 9) || (a == 9 && mx8 b) || (mx8 a && b == 9) || (fmtFp8 a && fmtFp8 b) ||
  ((a == 0xB || a == 0xC) && (b == 0xB || b == 0xC)) || (a == b && decide (a ≤ 2))

/-- Parameters of the scan and gate opcodes (R299): chunk length, ROWS, and COLS or H. -/
def StageEnt.chunk (e : StageEnt) : Nat := fieldOf e.param0 8 0
def StageEnt.pRows (e : StageEnt) : Nat := fieldOf e.param1 9 0
def StageEnt.pCols (e : StageEnt) : Nat := fieldOf e.param1 20 10
def StageEnt.isScan (e : StageEnt) : Bool := decide (0x2D ≤ e.opcode) && decide (e.opcode ≤ 0x2F)

/-- Columns of IN0 and of the output of a scan or gate opcode, in units of its COLS or H. -/
def StageEnt.inMul (e : StageEnt) : Nat := if e.opcode = 0x2D then 1 else if e.opcode = 0x2E then 3 else 4
def StageEnt.outMul (e : StageEnt) : Nat := if e.opcode = 0x2F then 2 else 1

/-- The format checks of R299 and R301 on a scan or gate context. -/
def StageEnt.scanFormat (e : StageEnt) : Bool :=
  e.func == 0 && e.bcast == 0 && !e.transA && !e.transB && fieldOf e.param0 31 9 == 0 && fieldOf e.param1 31 21 == 0 &&
  e.chunk != 0 && e.pRows != 0 && e.pCols != 0 && e.fmtA == 0 &&
  (if e.opcode = 0x2D then e.fmtB == 0 && e.fmtOut == 0
   else decide (e.fmtB ≤ 1) && decide (e.fmtOut ≤ 1))

/-- The limits of R301. -/
def StageEnt.scanLimit (e : StageEnt) : Bool :=
  decide (e.chunk ≤ 256) &&
  (if e.opcode = 0x2D then decide (e.pRows ≤ 512) && decide (e.pCols ≤ 1024) &&
      decide (e.chunk * e.pRows * e.pCols * 8 ≤ 4194304)
   else if e.opcode = 0x2E then decide (e.pRows ≤ 256) && decide (e.pCols ≤ 42)
   else decide (e.pRows ≤ 256) && decide (e.pCols ≤ 32))

/-- Is a source value valid (R172)? -/
def srcOk (v : Nat) : Bool := decide (v ≤ 0xE) || v == 0x10 || v == 0x1F

/-- The format checks of R173 on one context of a stage. -/
def TrainMap.entOk (m : TrainMap) (s c : Nat) : Bool :=
  let e := m.ent s c
  !e.reservedSet && opcodeOfKind (stageKind s) e.opcode && e.rmode != 3 &&
  (e.opcode != 0x10 ||
    (pairOk e.fmtA e.fmtB && !(e.transA && fmtMx e.fmtA) && !(e.transB && fmtMx e.fmtB) &&
     decide (1 ≤ fieldOf e.param0 8 0) && decide (fieldOf e.param0 8 0 ≤ 256) && fieldOf e.param1 15 0 != 0)) &&
  e.src.all (fun v => srcOk v && (!decide (v ≤ 0xE) || m.used v)) &&
  (!e.isScan || e.scanFormat)

/-- Inputs fed by stage `s` with context `c` on its output tiles: (stage, port). -/
def TrainMap.consumers (m : TrainMap) (s c : Nat) : List (Nat × Nat) :=
  m.contexts.flatMap (fun x => if x.2 = c then
    (m.ent x.1 c).src.zipIdx.filterMap (fun y => if y.1 = s then some (x.1, y.2) else none) else [])

/-- Inputs fed by the output of stage `s` in any context. -/
def TrainMap.fanOut (m : TrainMap) (s : Nat) : Nat :=
  ((List.range 15).flatMap (fun t => (List.range 3).filter (fun i =>
    m.used t && (List.range (m.nctx t)).any (fun c => (m.ent t c).src.getD i 0x1F == s)))).length

/-- Stages that feed stage `t` through an input not marked RECUR. -/
def TrainMap.feeders (m : TrainMap) (t : Nat) : List Nat :=
  (List.range 15).filter (fun s => m.used t && (List.range (m.nctx t)).any (fun c =>
    (m.ent t c).src.zipIdx.any (fun y => y.1 == s && !bitOf (m.ent t c).recur y.2)))

/-- Stages without a feeder left are removed in turn; a loop without RECUR leaves some (R173). -/
def TrainMap.peel (m : TrainMap) : Nat → List Nat → List Nat
  | 0, left => left
  | n + 1, left => m.peel n (left.filter (fun t => (m.feeders t).any (fun s => left.contains s)))

/-- CRC, header and reserved fields of a map (R169, R170). -/
def TrainMap.headOk (m : TrainMap) (bs : List Byte) : Bool :=
  fieldOf (m.getD 0 0#32) 15 0 == 1 && crc32c (bs.take 0x7FC) == (m.getD 511 0#32).toNat &&
  fieldOf (m.getD 1 0#32) 31 16 == 0 && fieldOf (m.getD 2 0#32) 31 30 == 0 &&
  ((m.drop 3).take 13).all (fun w => w == 0#32) && ((m.drop 496).take 15).all (fun w => w == 0#32)

/-- The REJ_FORMAT conditions of R173 and R301; TRAIN_ID 0 is invalid (R170). -/
def TrainMap.formatOk (m : TrainMap) (bs : List Byte) : Bool :=
  m.headOk bs && m.id != 0 && m.contexts.all (fun x => m.entOk x.1 x.2) &&
  (List.range 15).all (fun s => decide (m.fanOut s ≤ 4)) && (m.peel 15 (List.range 15)).isEmpty

/-! ### What a stage computes -/

/-- What a scan or gate context carries within a RUN (R299, R303, R308): the carry, the step within the chunk, the chunk's
mask, and the steps a LINSCAN has received but not yet scanned. -/
structure ScanSt where
  carry : Option (List Word) := none
  t : Nat := 0
  mask : List Int := []
  steps : List (List Word × List Word) := []
  deriving DecidableEq, Repr

/-- What one firing of a stage does: how many tiles of its context it takes from each input, what it emits, the flags it
raises, whether a row was empty (NUM_EMPTY), its scan state after, and an error that ends the RUN. -/
structure Fired where
  used : List Nat
  outs : List Tile := []
  numf : Numf := 0
  empty : Bool := false
  keep : ScanSt := {}
  err : Option Nat := none
  deriving DecidableEq, Repr

def Fired.bad (used : List Nat) (st : Nat) : Fired := { used := used, err := some st }

/-- What a firing needs beside the tiles. -/
structure FireEnv where
  ent : StageEnt
  seed : Nat := 0
  step : Nat := 0
  free : Nat := 0            -- index of the first free value it may use
  drained : Bool := false    -- no further tile can reach the stage
  hold : Bool := false       -- the IN1 tiles are held stationary (R298)
  keep : ScanSt := {}
  deriving DecidableEq, Repr

/-- Conversion settings of an output tile at the given coordinates. Its TENSOR is a free value: no field of the map or the
schedule gives it (log 30). -/
def FireEnv.conv (v : FireEnv) (trow tcol : Nat) : Conv :=
  { rmode := v.ent.rmode, sat := v.ent.cmode == 0, seed := v.seed, step := v.step,
    tensor := (Config.freeWord v.free).toNat % 65536, trow := trow, tcol := tcol }

/-- Emit FP32 results in FMT_OUT. -/
def FireEnv.emit (v : FireEnv) (rows cols trow tcol : Nat) (xs : List Word) : Tile × Numf :=
  encodeTile v.ent.fmtOut 0 rows cols (v.conv trow tcol) (xs.map f32)

/-- Apply a flagged operation to every element. -/
def mapFl {α β : Type} (f : α → β × Numf) (xs : List α) : List β × Numf :=
  let ys := xs.map f
  (ys.map (fun y => y.1), ys.foldl (fun a y => a ||| y.2) 0)

/-- The leading tiles that form one row of tiles: the same TROW, TCOL rising by one. -/
def rowGroup : List Tile → List Tile
  | [] => []
  | [t] => [t]
  | t :: u :: rest => if u.trow = t.trow ∧ u.tcol = t.tcol + 1 ∧ u.rows = t.rows then t :: rowGroup (u :: rest) else [t]

/-- The leading tiles at the same coordinates. -/
def sameGroup (ts : List Tile) : List Tile :=
  match ts with
  | [] => []
  | t :: _ => ts.takeWhile (fun u => u.trow == t.trow && u.tcol == t.tcol)

/-- FP32 rows of a group of tiles side by side. -/
def groupRows (ts : List Tile) : List (List Word) :=
  match ts with
  | [] => []
  | t :: _ => (List.range t.rows).map (fun r => ts.flatMap (fun u => (u.f32s.1.drop (r * u.cols)).take u.cols))

def groupNan (ts : List Tile) : Numf := ts.foldl (fun a t => a ||| t.f32s.2) 0

/-- Split rows back over tiles of the group's widths. -/
def splitRows (off : Nat) : List Tile → List (List Word) → List (Tile × List Word)
  | [], _ => []
  | t :: rest, rs => (t, rs.flatMap (fun r => (r.drop off).take t.cols)) :: splitRows (off + t.cols) rest rs

/-- Emit the rows of a group as tiles of the same shapes and coordinates. -/
def FireEnv.emitRows (v : FireEnv) (ts : List Tile) (rs : List (List Word)) : List Tile × Numf :=
  mapFl (fun x : Tile × List Word => v.emit x.1.rows x.1.cols x.1.trow x.1.tcol x.2) (splitRows 0 ts rs)

/-! #### MX -/

/-- One group's exact dot product, rounded once (R127). -/
def dotGroup (as bs : List Fv) : Word × Numf :=
  if as.any Fv.isNan || bs.any Fv.isNan then nanOut true
  else
    let ps := List.zipWith (fun a b => a.mul b) as bs
    if ps.any Option.isNone then nanOut false
    else
      let (w, fl) := exactSum (ps.filterMap id)
      if isNanW w then nanOut false else (w, fl)

/-- Lists in groups of `n`. -/
def chunksOf {α : Type} (n : Nat) : Nat → List α → List (List α)
  | 0, _ => []
  | fuel + 1, xs => if xs.isEmpty then [] else xs.take n :: chunksOf n fuel (xs.drop n)

/-- The dot product of a row and a column over the whole reduction dimension (R127–R129). -/
def dotRow (fp : Bool) (kseg : Nat) (as bs : List Fv) : Word × Numf :=
  if fp then
    -- FP32 pairs: each product is one group, and v = fma(a, b, v) takes the place of the addition (R128)
    let ps := List.zip (as.map (fun v => (toF32 v).1)) (bs.map (fun v => (toF32 v).1))
    let segs := segments (ceilDiv ps.length kseg) kseg ps
    let (vs, fl) := mapFl (fun seg : List (Word × Word) =>
      match seg with
      | [] => (0#32, 0)
      | (a, b) :: rest => rest.foldl (fun acc p => andThen acc (fun v => ffma p.1 p.2 v)) (fmul a b)) segs
    let (r, f) := treeSum fadd vs
    (r.getD 0#32, fl ||| f)
  else
    let gs := List.zipWith dotGroup (chunksOf 32 (as.length + 1) as) (chunksOf 32 (bs.length + 1) bs)
    let (r, f) := reduceGroups fadd kseg (gs.map (fun g => g.1))
    (r.getD 0#32, gs.foldl (fun a g => a ||| g.2) f)

/-- Saturating 32-bit addition (R132). -/
def satAdd32 (a b : Int) : Int × Numf :=
  let z := a + b
  let c := clampInt (-(2 ^ 31)) (2 ^ 31 - 1) z
  (c, if c = z then 0 else nfOvfSat)

/-- The integer dot product (R132). -/
def dotInt (kseg : Nat) (as bs : List Int) : Int × Numf :=
  let ps := List.zipWith (fun a b => a * b) as bs
  let gs := (chunksOf 32 (ps.length + 1) ps).map (fun g => g.foldl (fun x y => x + y) (0 : Int))
  let (r, f) := reduceGroups satAdd32 kseg gs
  (r.getD 0, f)

/-- The stationary extent K × N of an operand pair (R166). -/
def mxExtent (a b : Nat) : Nat × Nat :=
  if a = 0 then (64, 64)
  else if a = 1 ∨ a = 2 then (128, 128)
  else if (a = 9 ∧ b = 9) ∨ (a = 0xC ∧ b = 0xC) then (512, 128) else (256, 128)

/-- Rows of a tile's elements, transposed when `tr` (R147). -/
def operandRows {α : Type} (tr : Bool) (t : Tile) (xs : List α) : List (List α) :=
  let rs := rowsOf t.cols t.rows xs
  if tr then transposeRows t.cols rs else rs

/-- Put the rows of several tiles side by side. -/
def joinRows {α : Type} (n : Nat) (parts : List (List (List α))) : List (List α) :=
  (List.range n).map (fun r => parts.flatMap (fun p => p.getD r []))

/-- One block of a MATMUL: MBLK rows against KT stationary tiles, C last (R127–R132, R149, R167, R298). -/
def fireMatmul (v : FireEnv) (q0 q1 q2 : List Tile) : Option Fired :=
  let e := v.ent
  let kt := fieldOf e.param1 15 0
  let mblk := fieldOf e.param0 8 0
  let as := q0.take kt
  let bs := q1.take kt
  let used := [kt, if v.hold then 0 else kt, if e.cin then 1 else 0]
  if as.length < kt ∨ bs.length < kt ∨ (e.cin = true ∧ q2.isEmpty = true) then none
  else
    let rowsA := fun (t : Tile) => if e.transA then t.cols else t.rows
    let kA := fun (t : Tile) => if e.transA then t.rows else t.cols
    let nB := fun (t : Tile) => if e.transB then t.rows else t.cols
    let kB := fun (t : Tile) => if e.transB then t.cols else t.rows
    let m := rowsA (as.headD { fmt := 0, rows := 0, cols := 0 })
    let n := nB (bs.headD { fmt := 0, rows := 0, cols := 0 })
    let ext := mxExtent e.fmtA e.fmtB
    let isInt := fmtInt e.fmtA
    let k := as.foldl (fun a t => a + kA t) 0
    let g := if e.fmtA = 0 then k else ceilDiv k 32
    let shapes := List.zipWith (fun a b => kA a == kB b && rowsA a == m && nB b == n && decide (m ≤ mblk) &&
      decide (kB b ≤ ext.1) && decide (n ≤ ext.2) && (!fmtMx e.fmtA || a.baxis == 0) && (!fmtMx e.fmtB || b.baxis == 1)) as bs
    let c := q2.headD { fmt := 0, rows := 0, cols := 0 }
    let cOk := !e.cin || (c.rows == m && c.cols == n && (if isInt then c.fmt == 0xD else !fmtInt c.fmt))
    if !shapes.all id || !cOk || segEmpty g e.kseg then some (.bad used 0x21)
    else
      let trow := (as.headD c).trow
      let tcol := (bs.headD c).tcol
      let cv := v.conv trow tcol
      if isInt then
        let ra := joinRows m (as.map (fun t => operandRows e.transA t t.ints))
        let cb := joinRows n (bs.map (fun t => transposeRows n (operandRows e.transB t t.ints)))
        let cz := if e.cin then c.ints else []
        let (zs, fl) := mapFl (fun x : (List Int × List Int) × Nat =>
          andThen (dotInt e.kseg x.1.1 x.1.2) (fun z => if e.cin then satAdd32 z (cz.getD x.2 0) else (z, 0)))
          ((ra.flatMap (fun r => cb.map (fun col => (r, col)))).zipIdx)
        if e.fmtOut = 0xD then
          some { used := used, outs := [{ intTile m n zs with tensor := cv.tensor, trow := trow, tcol := tcol }], numf := fl }
        else
          -- the operands' tile scales apply to the sum; where the tiles of a block differ in them no value is stated (log 31)
          let sa := as.map (fun t => if t.tscaled then t.tscale else f1)
          let sb := bs.map (fun t => if t.tscaled then t.tscale else f1)
          let same := sa.all (fun x => x == sa.headD f1) && sb.all (fun x => x == sb.headD f1)
          let scale := if same then (f32 (sa.headD f1)).mul (f32 (sb.headD f1)) else some (f32 (Config.freeWord (v.free + 1)))
          let vals := zs.map (fun z =>
            match scale with
            | some sc => (match (Fv.num (decide (z < 0)) z.natAbs 0).mul sc with | some x => x | none => Fv.nan)
            | none => Fv.nan)
          let (t, f) := encodeTile e.fmtOut 0 m n cv vals
          some { used := used, outs := [t], numf := fl ||| f }
      else
        let ra := joinRows m (as.map (fun t => operandRows e.transA t t.values))
        let cb := joinRows n (bs.map (fun t => transposeRows n (operandRows e.transB t t.values)))
        let cw := if e.cin then c.f32s.1 else []
        let (xs, fl) := mapFl (fun x : (List Fv × List Fv) × Nat =>
          andThen (dotRow (e.fmtA == 0) e.kseg x.1.1 x.1.2) (fun z => if e.cin then fadd z (cw.getD x.2 0#32) else (z, 0)))
          ((ra.flatMap (fun r => cb.map (fun col => (r, col)))).zipIdx)
        let (t, f) := encodeTile e.fmtOut 0 m n cv (xs.map f32)
        some { used := used, outs := [t], numf := fl ||| f }

/-! #### EW -/

/-- A second or third operand by BCAST (R161): whole tile, one value per column, or the scalar in PARAM1. BCAST 3 and a
FUNC that names no gate have no stated result: free values (log 32). -/
def bcastAt (bc : Nat) (t : Tile) (ws : List Word) (p1 : Word) (free r c : Nat) : Word :=
  if bc = 0 then ws.getD (r * t.cols + c) 0#32 else if bc = 1 then ws.getD c 0#32
  else if bc = 2 then p1 else Config.freeWord (free + r * 1024 + c)

/-- How many operands an EW opcode takes. -/
def ewArity (op : Nat) : Nat :=
  if op = 0x23 then 3
  else if op = 0x20 ∨ op = 0x21 ∨ op = 0x22 ∨ op = 0x24 ∨ op = 0x28 ∨ op = 0x2A then 2 else 1

/-- One element of an EW operation (R160). -/
def ewElem (op func : Nat) (free : Nat) (a b c : Word) : Word × Numf :=
  match op with
  | 0x20 => fadd a b
  | 0x21 => fsub a b
  | 0x22 => fmul a b
  | 0x23 => ffma a b c
  | 0x24 => fdiv a b
  | 0x25 => fsqrt a
  | 0x26 => frsqrt a
  | 0x27 => fexp a
  | 0x28 => fmax a b
  | 0x29 => (match fact func a with | some y => y | none => (Config.freeWord free, 0))
  | 0x2A => (match fact func a with | some y => andThen y (fun y => fmul y b) | none => (Config.freeWord free, 0))
  | _ => (a, 0)

/-- An element-wise opcode: PASS to GATE, and CONVERT. -/
def fireEw (v : FireEnv) (q0 q1 q2 : List Tile) : Option Fired :=
  let e := v.ent
  let n := ewArity e.opcode
  let whole := decide (e.bcast ≤ 1)
  let need1 := decide (2 ≤ n) && whole
  let need2 := decide (3 ≤ n) && whole
  match q0 with
  | [] => none
  | a :: _ =>
    if (need1 && q1.isEmpty) || (need2 && q2.isEmpty) then none
    else
      let used := [1, if need1 then 1 else 0, if need2 then 1 else 0]
      let b := q1.headD a
      let c := q2.headD a
      let fits := fun (t : Tile) => if e.bcast = 0 then t.rows == a.rows && t.cols == a.cols else t.rows * t.cols == a.cols
      if (need1 && !fits b) || (need2 && !fits c) then some (.bad used 0x21)
      else
        let (wa, fa) := a.f32s
        let (wb, fb) := if need1 then b.f32s else ([], 0)
        let (wc, fc) := if need2 then c.f32s else ([], 0)
        let (xs, fl) := mapFl (fun x : Word × Nat =>
          let r := x.2 / a.cols
          let k := x.2 % a.cols
          ewElem e.opcode e.func (v.free + 2 + x.2) x.1 (bcastAt e.bcast b wb e.param1 (v.free + 2) r k)
            (bcastAt e.bcast c wc e.param1 (v.free + 2 + 524288) r k)) wa.zipIdx
        let (t, f) := v.emit a.rows a.cols a.trow a.tcol xs
        some { used := used, outs := [t], numf := fa ||| fb ||| fc ||| fl ||| f }

/-- ROPE (R163): pairs of a row with the cos/sin row of the table; one table row serves every row, or each its own. -/
def ropePairs : List Word → List Word → List Word × Numf
  | x0 :: x1 :: xs, c :: s :: cs =>
    let (y0, fl0) := andThen (fmul x1 s) (fun t => ffma x0 c (fneg t))
    let (y1, fl1) := andThen (fmul x0 s) (fun t => ffma x1 c t)
    let (ys, fl) := ropePairs xs cs
    (y0 :: y1 :: ys, fl0 ||| fl1 ||| fl)
  | _, _ => ([], 0)

def fireRope (v : FireEnv) (q0 q1 : List Tile) : Option Fired :=
  match q0, q1 with
  | a :: _, tb :: _ =>
    if tb.cols ≠ a.cols ∨ a.cols % 2 ≠ 0 ∨ ¬(tb.rows = a.rows ∨ tb.rows = 1) then some (.bad [1, 1, 0] 0x21)
    else
      let (wa, fa) := a.f32s
      let (wt, ft) := tb.f32s
      let trs := rowsOf tb.cols tb.rows wt
      let (rs, fl) := mapFl (fun x : List Word × Nat => ropePairs x.1 (trs.getD (if tb.rows = 1 then 0 else x.2) []))
        (rowsOf a.cols a.rows wa).zipIdx
      let (t, f) := v.emit a.rows a.cols a.trow a.tcol rs.flatten
      some { used := [1, 1, 0], outs := [t], numf := fa ||| ft ||| fl ||| f }
  | _, _ => none

/-! #### NM -/

/-- Softmax of a row (R142, R143): outputs, flags, and whether the row was empty. `mask` tells the unmasked positions. -/
def softmaxRow (kseg : Nat) (xs : List Word) (mask : Nat → Bool) : List Word × Numf × Bool × Bool :=
  let ix := xs.zipIdx
  let live := ix.filter (fun x => mask x.2)
  let zeros := xs.map (fun _ => (0#32 : Word))
  let negInf : Word := 0xFF800000#32
  if live.all (fun x => x.1 == negInf) then (zeros, 0, true, true)
  else if live.any (fun x => isNanW x.1) then (ix.map (fun x => if mask x.2 then canonNan else 0#32), nfNanIn, false, true)
  else
    let m := live.foldl (fun a x => (fmax a x.1).1) negInf
    if m = 0x7F800000#32 then (ix.map (fun x => if mask x.2 then canonNan else 0#32), nfNanGen, false, true)
    else
      let es := live.map (fun x => (andThen (fsub x.1 m) fexp, x.2))
      let fl := es.foldl (fun a x => a ||| x.1.2) 0
      let (s, f2) := rowSum kseg (es.map (fun x => x.1.1))
      let ys := es.map (fun x => (fdiv x.1.1 s, x.2))
      let fl3 := ys.foldl (fun a x => a ||| x.1.2) 0
      let out := ix.map (fun x => match ys.find? (fun y => y.2 == x.2) with | some y => y.1.1 | none => 0#32)
      (out, fl ||| f2 ||| fl3, false, !segEmpty (ceilDiv live.length 32) kseg)

/-- Sum of a row in FP32 (R129, R133), with the check of R130. -/
def normSum (kseg : Nat) (xs : List Word) : (Word × Bool) × Numf :=
  let (w, f) := rowSum kseg xs
  ((w, !segEmpty (ceilDiv xs.length 32) kseg), f)

/-- LAYERNORM of a row (R162). -/
def layerRow (kseg : Nat) (eps : Word) (g b xs : List Word) : List Word × Numf :=
  let n := intToF32 xs.length
  let (s, fs) := rowSum kseg xs
  let (mu, fm) := fdiv s n
  let (ds, fd) := mapFl (fun x => fsub x mu) xs
  let (qs, fq) := mapFl (fun d => fmul d d) ds
  let (s2, f2) := rowSum kseg qs
  let (r, fr) := andThen (fdiv s2 n) (fun v => andThen (fadd v eps) frsqrt)
  let (ys, fy) := mapFl (fun x : Word × Nat => andThen (fmul x.1 r) (fun y => ffma y (g.getD x.2 0#32) (b.getD x.2 0#32))) ds.zipIdx
  (ys, fs ||| fm ||| fd ||| fq ||| f2 ||| fr ||| fy)

/-- RMSNORM of a row (R162). -/
def rmsRow (kseg : Nat) (eps : Word) (g xs : List Word) : List Word × Numf :=
  let n := intToF32 xs.length
  let (qs, fq) := mapFl (fun x => fmul x x) xs
  let (s, fs) := rowSum kseg qs
  let (r, fr) := andThen (fdiv s n) (fun m => andThen (fadd m eps) frsqrt)
  let (ys, fy) := mapFl (fun x : Word × Nat => andThen (fmul x.1 r) (fun y => fmul y (g.getD x.2 0#32))) xs.zipIdx
  (ys, fq ||| fs ||| fr ||| fy)

/-- How many leading tiles are needed to hold `n` values. -/
def tilesFor (n : Nat) : List Tile → Option Nat
  | [] => if n = 0 then some 0 else none
  | t :: rest => if n = 0 then some 0 else (tilesFor (n - t.rows * t.cols) rest).map (· + 1)

/-- An NM operation on one row of tiles. The row's tiles stand side by side by their coordinates (log 33). -/
def fireNm (v : FireEnv) (q0 q1 q2 : List Tile) : Option Fired :=
  let e := v.ent
  let g := rowGroup q0
  if g.isEmpty ∨ (g.length = q0.length ∧ v.drained = false) then none
  else
    let rs := groupRows g
    let nan := groupNan g
    let n := g.foldl (fun a t => a + t.cols) 0
    let has := fun i => e.src.getD i 0x1F != 0x1F
    if e.opcode = 0x30 then
      if has 1 ∧ q1.isEmpty = true then none
      else
        let mask := q1.headD { fmt := 0xD, rows := 0, cols := 0 }
        let used := [g.length, if has 1 then 1 else 0, 0]
        if has 1 ∧ ¬(mask.fmt = 0xD ∧ mask.cols = 2 ∧ mask.rows = rs.length) then some (.bad used 0x21)
        else
          let ms := mask.ints
          let res := rs.zipIdx.map (fun x =>
            let (sc, f1) := mapFl (fun w => fmul w e.param0) x.1
            let (ys, f2, em, ok) := softmaxRow e.kseg sc (fun i =>
              !has 1 || (decide (ms.getD (2 * x.2) 0 ≤ (i : Int)) && decide ((i : Int) < ms.getD (2 * x.2 + 1) 0)))
            (ys, f1 ||| f2, em, ok))
          if res.any (fun r => !r.2.2.2) then some (.bad used 0x21)
          else
            let (outs, fo) := v.emitRows g (res.map (fun r => r.1))
            some { used := used, outs := outs, numf := res.foldl (fun a r => a ||| r.2.1) (nan ||| fo),
                   empty := res.any (fun r => r.2.2.1) }
    else
      let ln := e.opcode == 0x31
      match tilesFor n q1, (if ln then tilesFor n q2 else some 0) with
      | some k1, some k2 =>
        let used := [g.length, k1, k2]
        if segEmpty (ceilDiv n 32) e.kseg then some (.bad used 0x21)
        else
          let gm := (q1.take k1).flatMap (fun t => t.f32s.1)
          let bt := (q2.take k2).flatMap (fun t => t.f32s.1)
          let (ys, fl) := mapFl (fun xs => if ln then layerRow e.kseg e.param0 gm bt xs else rmsRow e.kseg e.param0 gm xs) rs
          let (outs, fo) := v.emitRows g ys
          some { used := used, outs := outs, numf := nan ||| groupNan (q1.take k1) ||| groupNan (q2.take k2) ||| fl ||| fo }
      | _, _ => none

/-! #### RD, XP, QZ -/

/-- Index of the maximum of a row, the lowest among equals, NaN ignored; −1 where all are NaN (R164). -/
def argmaxRow (xs : List Word) : Int :=
  (xs.zipIdx.foldl (fun (acc : Int × Word) x =>
    if isNanW x.1 then acc
    else if acc.1 < 0 ∨ flt acc.2 x.1 = true then ((x.2 : Int), x.1) else acc) (-1, 0#32)).1

/-- RD operations. The input tiles of SUM and MAX are those at the same coordinates on IN0, then IN1, then IN2 (R133). -/
def fireRd (v : FireEnv) (q0 q1 q2 : List Tile) : Option Fired :=
  let e := v.ent
  if e.opcode = 0x40 ∨ e.opcode = 0x41 then
    let g0 := sameGroup q0
    let has := fun i => e.src.getD i 0x1F != 0x1F
    let part := fun (i : Nat) (q : List Tile) => if has i then (match g0 with
      | t :: _ => q.takeWhile (fun u => u.trow == t.trow && u.tcol == t.tcol)
      | [] => []) else []
    let g1 := part 1 q1
    let g2 := part 2 q2
    let open_ := g0.length == q0.length || (has 1 && g1.length == q1.length) || (has 2 && g2.length == q2.length)
    if g0.isEmpty ∨ (open_ = true ∧ v.drained = false) then none
    else
      let all := g0 ++ g1 ++ g2
      let t := all.headD { fmt := 0, rows := 0, cols := 0 }
      let used := [g0.length, g1.length, g2.length]
      if !all.all (fun u => u.rows == t.rows && u.cols == t.cols) then some (.bad used 0x21)
      else
        let ws := all.map (fun u => u.f32s.1)
        let op := if e.opcode = 0x40 then fadd else fmax
        let (xs, fl) := mapFl (fun i => let (r, f) := treeSum op (ws.map (fun w => w.getD i 0#32)); (r.getD 0#32, f))
          (List.range (t.rows * t.cols))
        let (o, f) := v.emit t.rows t.cols t.trow t.tcol xs
        some { used := used, outs := [o], numf := groupNan all ||| fl ||| f }
  else
    let g := rowGroup q0
    if g.isEmpty ∨ (g.length = q0.length ∧ v.drained = false) then none
    else
      let rs := groupRows g
      let t := g.headD { fmt := 0, rows := 0, cols := 0 }
      let n := g.foldl (fun a t => a + t.cols) 0
      let used := [g.length, 0, 0]
      if e.opcode = 0x42 then
        if segEmpty (ceilDiv n 32) e.kseg then some (.bad used 0x21)
        else
          let (xs, fl) := mapFl (rowSum e.kseg) rs
          let (o, f) := v.emit t.rows 1 t.trow t.tcol xs
          some { used := used, outs := [o], numf := groupNan g ||| fl ||| f }
      else
        let zs := rs.map argmaxRow
        let cv := v.conv t.trow t.tcol
        some { used := used, outs := [{ intTile t.rows 1 zs with tensor := cv.tensor, trow := t.trow, tcol := t.tcol }],
               numf := groupNan g, empty := zs.any (fun z => decide (z < 0)) }

/-- Exchange rows and columns, scales with them (R160). -/
def transposeTile (t : Tile) : Tile :=
  let b := fmtBits t.fmt
  let els := (transposeRows t.cols (rowsOf t.cols t.rows t.elems)).flatten
  let sr := if t.baxis = 0 then t.rows else t.rows / 32
  let sc := if t.baxis = 0 then t.cols / 32 else t.cols
  { t with rows := t.cols, cols := t.rows, trow := t.tcol, tcol := t.trow, data := packElems b (els.length + 1) els,
           baxis := if fmtMx t.fmt then 1 - t.baxis else t.baxis,
           scales := if fmtMx t.fmt then (transposeRows sc (rowsOf sc sr t.scales)).flatten else t.scales }

/-- XP operations. How PARAM0 and PARAM1 spell a shape or a selection is not stated, so what RELAYOUT and SLICE emit is
free: its shape and its data (log 34). -/
def fireXp (v : FireEnv) (q0 : List Tile) : Option Fired :=
  match q0 with
  | [] => none
  | a :: _ =>
    if v.ent.opcode = 0x50 then some { used := [1, 0, 0], outs := [transposeTile a] }
    else
      let w := fun i => (Config.freeWord (v.free + i)).toNat
      let t : Tile := { a with rows := 1 + w 1 % 512, cols := 1 + w 2 % 1024, tensor := w 0 % 65536, trow := w 3 % 65536,
                               tcol := w 4 % 65536 }
      some { used := [1, 0, 0],
             outs := [{ t with data := (List.range t.dataLen).map (fun i => Config.freeByte (v.free + 8 + i)),
                               scales := (List.range t.scaleLen).map (fun i => Config.freeByte (v.free + 8 + t.dataLen + i)) }] }

/-- QZ operations (R160, R124). QUANT blocks run along the row; REQUANT along the other axis of its input (log 35). -/
def fireQz (v : FireEnv) (q0 : List Tile) : Option Fired :=
  match q0 with
  | [] => none
  | a :: _ =>
    let (ws, fa) := a.f32s
    let fmt := if v.ent.opcode = 0x61 then 0 else v.ent.fmtOut
    let axis := if v.ent.opcode = 0x62 then 1 - a.baxis else 0
    if fmtMx fmt ∧ (if axis = 0 then a.cols else a.rows) % 32 ≠ 0 then some (.bad [1, 0, 0] 0x21)
    else
      let (t, f) := encodeTile fmt axis a.rows a.cols (v.conv a.trow a.tcol) (ws.map f32)
      some { used := [1, 0, 0], outs := [t], numf := fa ||| f }

/-! #### Scan and gates -/

/-- A pair of the scan: (A, B, r) of R303. -/
abbrev ScanPair := Word × Word × Bool

def scanCombine (l r : ScanPair) : ScanPair × Numf :=
  if r.2.2 then (r, 0)
  else
    let (a, f1) := fmul r.1 l.1
    let (b, f2) := ffma r.1 l.2.1 r.2.1
    ((a, b, l.2.2), f1 ||| f2)

/-- One Kogge–Stone level at distance `d`. -/
def scanLevel (d : Nat) (ps : List ScanPair) : List ScanPair × Numf :=
  mapFl (fun x : ScanPair × Nat => if x.2 < d then (x.1, 0) else scanCombine (ps.getD (x.2 - d) (f1, 0#32, false)) x.1) ps.zipIdx

def scanLevels (n : Nat) : Nat → Nat → List ScanPair → List ScanPair × Numf
  | 0, _, ps => (ps, 0)
  | fuel + 1, d, ps => if d < n then andThen (scanLevel d ps) (fun ps => scanLevels n fuel (2 * d) ps) else (ps, 0)

/-- LINSCAN of one element position over a chunk: a, b, reset per step (R303). -/
def linscanElem (hin : Word) (xs : List (Word × Word × Bool)) : List Word × Numf :=
  let ps : List ScanPair := xs.map (fun x => if x.2.2 then (f1, x.2.1, true) else (x.1, x.2.1, false))
  andThen (scanLevels ps.length (ps.length + 1) 1 ps) (fun ps =>
    mapFl (fun p : ScanPair => if p.2.2 then (p.2.1, 0) else ffma p.1 hin p.2.1) ps)

/-- Reset bit of row `r` at step `t` (R300). -/
def resetBit (mask : List Int) (c r t : Nat) : Bool :=
  bitOf (patternOf 32 (mask.getD (r * ceilDiv c 32 + t / 32) 0)) (t % 32)

/-- Shape and format of a tile of a scan or gate context (R302). -/
def shapeIs (t : Tile) (rows cols : Nat) (fmts : List Nat) : Bool :=
  t.rows == rows && t.cols == cols && fmts.contains t.fmt

/-- Gate of one element: GRU (R306). `hp` is the carried value. -/
def gruElem (fmtOut : Nat) (cv : Conv) (e : Nat) (gr gz gn ir iz inn hp : Word) : (Word × Nat) × Numf :=
  andThen (andThen (fadd ir gr) fsigmoid) (fun r => andThen (andThen (fadd iz gz) fsigmoid) (fun z =>
    andThen (ffma r gn inn) (fun t => andThen (ftanh t) (fun n => andThen (fsub hp n) (fun d =>
      andThen (ffma z d n) (fun h =>
        let f := (fmtFp fmtOut).getD fp32
        let (b, fl) := if f = fp32 then (h.toNat, 0) else f.convert (cv.mode e) cv.sat (f32 h)
        (((toF32 (f.decode b)).1, b), fl)))))))

/-- Gate of one element: LSTM (R306): (h, c) after conversion. `eh`, `ec` are their element indices. -/
def lstmElem (fmtOut : Nat) (cv : Conv) (eh ec : Nat) (gi gf gg go ii if_ ig io cp : Word) :
    ((Word × Nat) × (Word × Nat)) × Numf :=
  andThen (andThen (fadd ii gi) fsigmoid) (fun i => andThen (andThen (fadd if_ gf) fsigmoid) (fun fo =>
    andThen (andThen (fadd ig gg) ftanh) (fun g => andThen (andThen (fadd io go) fsigmoid) (fun o =>
      andThen (fmul i g) (fun t => andThen (ffma fo cp t) (fun c =>
        let f := (fmtFp fmtOut).getD fp32
        let conv := fun (w : Word) (e : Nat) => if f = fp32 then (w.toNat, (0 : Numf)) else f.convert (cv.mode e) cv.sat (f32 w)
        let (cb, fl1) := conv c ec
        let c' := (toF32 (f.decode cb)).1
        andThen (ftanh c') (fun s => andThen (fmul o s) (fun h =>
          let (hb, fl2) := conv h eh
          ((((toF32 (f.decode hb)).1, hb), (c', cb)), fl1 ||| fl2)))))))))

/-- Take the carry-in and the chunk's mask from IN2 when they are due (R299): the state with them and the tiles taken, or
`none` while a tile is missing, or an error. -/
def scanPrepare (v : FireEnv) (q2 : List Tile) : Option (ScanSt × Nat × Bool) :=
  let e := v.ent
  let has2 := e.src.getD 2 0x1F != 0x1F
  let rows := e.pRows
  let out := e.pCols * e.outMul
  let st := v.keep
  let fresh := st.carry.isNone
  let step1 : Option (ScanSt × Nat × Bool) :=
    if fresh then
      if e.cin then
        match q2 with
        | t :: _ => some ({ st with carry := some t.f32s.1 }, 1, shapeIs t rows out [e.fmtOut])
        | [] => none
      else some ({ st with carry := some (List.replicate (rows * out) 0#32) }, 0, true)
    else some (st, 0, true)
  match step1 with
  | none => none
  | some (st, n, ok) =>
    if has2 ∧ st.t = 0 ∧ st.steps.isEmpty = true then
      match q2.drop n with
      | t :: _ => some ({ st with mask := t.ints }, n + 1, ok && shapeIs t rows (ceilDiv e.chunk 32) [0xD])
      | [] => none
    else some (st, n, ok)

/-- LINSCAN: tiles are received until the chunk is complete (or the input ends), then the chunk is scanned and emitted
(R303, R305, R311). -/
def fireLinscan (v : FireEnv) (q0 q1 q2 : List Tile) : Option Fired :=
  let e := v.ent
  match q0, q1 with
  | a :: _, b :: _ =>
    match scanPrepare v q2 with
    | none => none
    | some (st, n2, ok) =>
      let used := [1, 1, n2]
      if !ok || !shapeIs a e.pRows e.pCols [0] || !shapeIs b e.pRows e.pCols [0] then some (.bad used 0x21)
      else
        let (wa, fa) := a.f32s
        let (wb, fb) := b.f32s
        some { used := used, keep := { st with steps := st.steps ++ [(wa, wb)] }, numf := fa ||| fb }
  | _, _ => none

/-- The scan of a chunk that is complete, or that the input's end cuts short. -/
def fireScanOut (v : FireEnv) (trow tcol : Nat) : Option Fired :=
  let e := v.ent
  let st := v.keep
  if st.steps.isEmpty ∨ (st.steps.length < e.chunk ∧ v.drained = false) then none
  else
    let n := e.pRows * e.pCols
    let hin := st.carry.getD []
    let cols := (List.range n).map (fun i => linscanElem (hin.getD i 0#32)
      (st.steps.zipIdx.map (fun s => (s.1.1.getD i 0#32, s.1.2.getD i 0#32, resetBit st.mask e.chunk (i / e.pCols) s.2))))
    let fl := cols.foldl (fun a c => a ||| c.2) 0
    let rows := (List.range st.steps.length).map (fun t => cols.map (fun c => c.1.getD t 0#32))
    let (outs, fo) := mapFl (fun xs => v.emit e.pRows e.pCols trow tcol xs) rows
    some { used := [0, 0, 0], outs := outs, numf := fl ||| fo,
           keep := { carry := some (rows.getLastD hin), t := 0, mask := [], steps := [] } }

/-- GRUGATE and LSTMGATE: one step (R306–R308). -/
def fireGate (v : FireEnv) (q0 q1 q2 : List Tile) : Option Fired :=
  let e := v.ent
  match q0, q1 with
  | a :: _, x :: _ =>
    match scanPrepare v q2 with
    | none => none
    | some (st, n2, ok) =>
      let used := [1, 1, n2]
      let h := e.pCols
      if !ok || !shapeIs a e.pRows (h * e.inMul) [0] || !shapeIs x e.pRows (h * e.inMul) [e.fmtB] then some (.bad used 0x21)
      else
        let (wa, fa) := a.f32s
        let (wx, fx) := x.f32s
        let carry := st.carry.getD []
        let cv := v.conv a.trow a.tcol
        let rowRes := (List.range e.pRows).map (fun r =>
          let rs := resetBit st.mask e.chunk r st.t
          let g := fun (blk j : Nat) => if rs then 0#32 else wa.getD (r * (h * e.inMul) + blk * h + j) 0#32
          let i := fun (blk j : Nat) => wx.getD (r * (h * e.inMul) + blk * h + j) 0#32
          let p := fun (blk j : Nat) => if rs then 0#32 else carry.getD (r * (h * e.outMul) + blk * h + j) 0#32
          if e.opcode = 0x2E then
            mapFl (fun j => gruElem e.fmtOut cv (r * h + j) (g 0 j) (g 1 j) (g 2 j) (i 0 j) (i 1 j) (i 2 j) (p 0 j)) (List.range h)
          else
            let (hc, fl) := mapFl (fun j => lstmElem e.fmtOut cv (r * 2 * h + j) (r * 2 * h + h + j) (g 0 j) (g 1 j) (g 2 j) (g 3 j)
              (i 0 j) (i 1 j) (i 2 j) (i 3 j) (p 1 j)) (List.range h)
            (hc.map (fun y => y.1) ++ hc.map (fun y => y.2), fl))
        let res := rowRes.flatMap (fun y => y.1)
        let fl := rowRes.foldl (fun acc y => acc ||| y.2) (fa ||| fx)
        let b := fmtBits e.fmtOut
        let t : Tile := { fmt := e.fmtOut, rows := e.pRows, cols := h * e.outMul, tensor := cv.tensor, trow := a.trow,
                          tcol := a.tcol, data := packElems b (res.length + 1) (res.map (fun y => y.2)) }
        some { used := used, outs := [t], numf := fl,
               keep := { st with carry := some (res.map (fun y => y.1)), t := (st.t + 1) % e.chunk } }
  | _, _ => none

/-- One firing of a stage's context on the tiles waiting at its inputs; `none` while it cannot fire. -/
def fireStage (v : FireEnv) (q0 q1 q2 : List Tile) : Option Fired :=
  let op := v.ent.opcode
  if op = 0 then
    match q0 with
    | [] => none
    | a :: _ => some { used := [1, 0, 0], outs := [a] }
  else if op = 0x10 then fireMatmul v q0 q1 q2
  else if op = 0x2B then fireRope v q0 q1
  else if op = 0x2D then
    match fireScanOut v ((q0.head?.map Tile.trow).getD 0) ((q0.head?.map Tile.tcol).getD 0) with
    | some f => some f
    | none => fireLinscan v q0 q1 q2
  else if op = 0x2E ∨ op = 0x2F then fireGate v q0 q1 q2
  else if op < 0x2D then fireEw v q0 q1 q2
  else if op < 0x40 then fireNm v q0 q1 q2
  else if op < 0x50 then fireRd v q0 q1 q2
  else if op < 0x60 then fireXp v q0
  else fireQz v q0

end Sys2Proof.Machine
end

