-- ==== Sys2Proof/Machine/DomeData.lean ====
section
/-! DEFINITION. What Domes, walkers and blocks with spares keep beside their registers. -/

namespace Sys2Proof.Machine

/-- What a set of spared parts keeps beside its registers (R192–R199). -/
structure SpareSt where
  wantTest : Option Nat := none        -- logical part of a pending TEST
  wantRetire : Option Nat := none      -- physical part of a pending RETIRE
  slice : Option (Nat × Nat) := none   -- physical part under test, and when its slice started
  served : Bool := false               -- the open window has tested a part
  suspects : List Nat := []            -- parts that AGE has marked suspect (R615)
  deriving DecidableEq, Repr

/-- A tile-schedule entry (R178) and how far it has come. -/
structure SEnt where
  lstage : Nat
  port : Nat
  ctx : Nat
  tplan : Nat
  addr : Nat
  count : Nat
  stride : Nat
  tindex : Nat
  tqueue : Nat
  dep : Bool
  reservedSet : Bool := false
  doneAt : Option Nat := none          -- when it finishes, once issued
  deriving DecidableEq, Repr

/-- A tile waiting at a stage's input, with its context. -/
structure Waiting where
  ctx : Nat
  tile : Tile
  deriving DecidableEq, Repr

/-- A row that a KV_APPEND of the RUN supplied (R263): normal form, for gathers of the same RUN. -/
structure Appended where
  seq : Nat
  layer : Nat
  head : Nat
  pos : Nat
  k : List Byte
  v : List Byte
  deriving DecidableEq, Repr

/-- A GW work record waiting its turn (R262, R267): opcode and bytes. -/
structure GwRec where
  opcode : Nat
  bytes : List Byte
  deriving DecidableEq, Repr

/-- A RUN in execution or saved (R175–R191). -/
structure DomeRun where
  queue : Nat
  index : Nat
  map : TrainMap
  slot : Nat
  plan : Nat
  wcet : Nat
  start : Nat                                   -- when the RUN (or its restart) started
  first : Option Nat := none                    -- first issue
  paused : Option Nat := none                   -- since when it is pre-empted
  pausedFor : Nat := 0
  ents : List SEnt
  inputs : Sparse (List Waiting) := []          -- stage * 4 + port ↦ tiles waiting
  outAt : Sparse (List (Nat × Nat)) := []       -- stage ↦ (context, address) for outputs to the Plate Store
  scan : Sparse ScanSt := []                    -- stage * 4 + context ↦ scan state
  written : List (Nat × Nat) := []              -- address and length of outputs written
  lastOut : Nat := 0
  numf : Numf := 0
  empty : Bool := false
  tcc : Bool := false
  subst : Bool := false
  retried : Bool := false
  injWcet : Bool := false
  gw : List GwRec := []
  appended : List Appended := []
  finished : Bool := false                      -- all work done; its outcome waits for OPERATION_COMPLETE
  deriving DecidableEq, Repr

/-- A LOAD in progress: the map is checked and its slot chosen; it completes 480 cycles after its last byte (R174). -/
structure DomeLoad where
  queue : Nat
  index : Nat
  done : Nat
  deriving DecidableEq, Repr

/-- A Dome. -/
structure Dome where
  maps : Sparse TrainMap := []                  -- map slots
  run : Option DomeRun := none
  saved : List DomeRun := []                    -- pre-empted RUNs whose state has been saved, newest first (R191, R357, R358)
  deriving DecidableEq, Repr

/-- A Finder line (R259): eight PTEs, with its L1 entry's STG and NPAGES. -/
structure FinderLine where
  seq : Nat
  grp : Nat
  line : Nat
  stg : Nat
  npages : Nat
  l2 : Nat
  ptes : List Nat
  deriving DecidableEq, Repr

/-- A ring slot of a walker (R268). -/
structure RingSlot where
  ready : Bool := false
  reads : Nat := 0           -- full reads left before it is free
  deriving DecidableEq, Repr

/-- A KV walker beside its registers. -/
structure Walker where
  finder : List FinderLine := []                -- most recently used first
  ring : Sparse RingSlot := []
  finv : Option (Nat × Bool) := none            -- a pending invalidation: sequence, every line
  staged : List (Nat × Nat × Nat × Nat) := []   -- pages held staged: sequence, group, page, L2ADDR
  waitFrom : Option Nat := none                 -- since when a gather waits for its slot
  deriving DecidableEq, Repr

end Sys2Proof.Machine
end

