-- ==== Sys2Proof/Machine/DriveData.lean ====
section
/-! DEFINITION. What the Clock Drive keeps beside its registers and its SRAM (R474–R501). -/

namespace Sys2Proof.Machine

/-- A queued sample: its snapshot is the one taken at its effect edge (R482). -/
structure Sample where
  loop : Nat
  slot : Nat
  due : Nat                      -- ns of its effect edge, 10 after its match time (R66)
  y : List Word
  stale : Bool
  deriving DecidableEq, Repr

/-- What a loop keeps between samples. -/
structure LoopAux where
  lastMatch : Option Nat := none     -- match time of the last accepted sample (R486)
  swap : Bool := false               -- a SWAP waits for the next sample (R479)
  staleRun : Nat := 0                -- consecutive stale samples
  errs : List Word := []             -- MERID_ENCn_ERR at the last sample
  seen : Sparse Nat := []            -- input ↦ frames its receive buffer had received
  age : Sparse Nat := []             -- input ↦ samples since its last frame
  deriving DecidableEq, Repr

/-- A pending hand-off (R433, R489). -/
structure HandOff where
  kind : Nat
  plan : Bool
  fb : Bool
  step : Nat
  switch : Nat
  since : Nat
  passed : Bool := false
  deriving DecidableEq, Repr

/-- A Logbook channel beside its registers. -/
structure LogChan where
  left : Nat := 0                          -- records to go in POSTTRIG
  recs : List (Nat × Nat) := []            -- offset and length of the records held, oldest first
  deriving DecidableEq, Repr

/-- DRIVE. -/
structure Drive where
  loops : Sparse LoopAux := []
  queue : Sparse (List Sample) := []       -- logical core ↦ queued samples, by effect time and slot
  busy : Sparse Nat := []                  -- logical core ↦ until when, in quarters of a nanosecond
  arrived : Bool := false                  -- a hand-off record has been written and not yet taken
  inRxp : Nat := 0                         -- bytes written to RXP and RXF since the last record
  inRxf : Nat := 0
  ho : Option HandOff := none
  report : Option Nat := none              -- on its way to OCC: 0 accepted, 1 mismatch, 2 late (R434)
  autoBase : Nat := 0                      -- AUTOMS runs from here (R495)
  autoDone : Bool := false
  chans : Sparse LogChan := []
  deriving DecidableEq, Repr

end Sys2Proof.Machine
end

