-- ==== Sys2Proof/Machine/LinkData.lean ====
section
/-! DEFINITION. What Linkous, USB4 and PCIe keep beside their registers (R679–R704). -/

namespace Sys2Proof.Machine

/-- A value or arrival that a peer's flit has supplied to a collective: what the tree holds for a rank at a level, for the
bytes from `off` on (R698). -/
structure Part where
  level : Nat
  rank : Nat
  off : Nat
  data : List Byte
  deriving DecidableEq, Repr

/-- A collective or PUT in flight. -/
structure Coll where
  queue : Nat
  index : Nat
  group : Nat
  start : Nat
  own : List Byte := []          -- the member's own range
  parts : List Part := []
  tiles : Nat := 0               -- tile operations of the Transit queue in flight for it (R697)
  deriving DecidableEq, Repr

/-- LNK, USB and PCIE. -/
structure Link where
  colls : List Coll := []
  credits : Sparse Nat := []               -- link * 1024 + Transit queue ↦ flit credits held (R694)
  lastXfer : Sparse Nat := []              -- link * 1024 + Transit queue ↦ when its last transfer ended
  creditWait : List Nat := []              -- link * 1024 + Transit queue: a transfer waits for a free credit
  rcMode : Bool := false                   -- PCIe root complex (R686)
  early : List (Nat × Part) := []          -- GID and part of flits that came before the member's own operation
  halfLinks : List Nat := []               -- links that have fallen back to 4 lanes (R690)
  deriving DecidableEq, Repr

end Sys2Proof.Machine
end

