-- ==== Sys2Proof/Machine/OccData.lean ====
section
/-! DEFINITION. What the Occultation Unit keeps beside its registers (R405–R438): Chart slots, body models, the candidate
table, the held trajectories and the descriptors in execution. -/

namespace Sys2Proof.Machine

/-- A node of a Chart (R407). -/
structure ChartNode where
  mask : Nat
  child : Nat
  cmap : Nat
  level : Nat
  deriving DecidableEq, Repr

/-- A Chart image (R406). -/
structure Chart where
  t0 : Nat
  corner : Word × Word × Word
  source : Nat
  cols : List Nat
  nodes : List ChartNode
  deriving DecidableEq, Repr

/-- A Chart slot: 0 FREE, 1 LOADING, 2 CURRENT, 3 BOUND, 4 BAD (R409). -/
structure ChartSlot where
  st : Nat := 0
  epoch : Nat := 0
  nodes : Nat := 0
  chart : Option Chart := none
  deriving DecidableEq, Repr

/-- A body model (R411): seven words a capsule. -/
structure Body where
  sub : Nat
  infl : Word
  caps : List (List Word)
  deriving DecidableEq, Repr

/-- A trajectory that the unit keeps: candidate record, knots, and the epoch of the SELECT that sent it (R430, R442). -/
structure Traj where
  words : List Word
  knots : List Word
  epoch : Nat := 0
  deriving DecidableEq, Repr

/-- An entry of the candidate table (R424). -/
structure OccEntry where
  words : List Word
  step : Nat
  clear : Bool
  epoch : Nat
  deriving DecidableEq, Repr

/-- What testing one candidate gave (R413–R425). -/
structure CandOut where
  words : List Word
  hitSlice : Nat := 0xFF
  hitCap : Nat := 0
  hitT : Nat := 0
  hit : Bool := false
  out : Bool := false
  badSweep : Bool := false
  badKnot : Bool := false
  tcap : Bool := false
  notest : Bool := false
  hbeyond : Bool := false
  noepoch : Bool := false
  tests : Nat := 0
  placed : Nat := 0
  numf : BitVec 6 := 0
  deriving DecidableEq, Repr

/-- What a SELECT has decided (R432). -/
structure Choice where
  kind : Nat
  plan : Option Traj := none
  fb : Option Traj := none
  planBlock : List Byte := []
  fbBlock : List Byte := []
  status : Nat
  record : List Byte := []
  result : DWord := 0
  deriving DecidableEq, Repr

/-- The checker's descriptor in execution. Cycles are of 2 ns, from its start. -/
structure OccRun where
  queue : Nat
  index : Nat
  start : Nat
  cycles : Nat
  wcet : Nat := 0
  slot : Option Nat := none             -- the bound epoch's slot
  epoch : Nat := 0
  cut : Option Nat := none              -- cycle at which a CHECK's deadline was reached
  slow : Nat := 0                       -- corrected errors met
  outs : List CandOut := []             -- a CHECK's candidates
  tests : Nat := 0                      -- a SELECT's tests, and its capsules that reached TMAX
  tcaps : Nat := 0
  body : Option (Nat × Body) := none    -- BODY
  write : Option (Nat × List Byte) := none   -- SEED
  choice : Option Choice := none        -- SELECT
  deriving DecidableEq, Repr

/-- The loader's INSTALL in execution. -/
structure OccLoad where
  queue : Nat
  index : Nat
  slot : Nat
  chart : Chart
  deriving DecidableEq, Repr

/-- A hand-off that awaits its report (R434). -/
structure OccWait where
  queue : Nat
  index : Nat
  choice : Choice
  deriving DecidableEq, Repr

/-- OCC. -/
structure Occ where
  epoch : Nat := 0                      -- number of the last epoch installed
  slots : Sparse ChartSlot := []
  bodies : Sparse (Option Body) := []
  table : Sparse (Option OccEntry) := []
  plan : Option Traj := none
  fb : Option Traj := none
  load : Option OccLoad := none
  run : Option OccRun := none
  wait : Option OccWait := none
  missed : List Nat := []               -- plan cycles a CHECK of which ended with MISS_DEADLINE (R436)
  deriving DecidableEq, Repr

end Sys2Proof.Machine
end

