-- ==== Sys2Proof/Machine/RegMap.lean ====
section
/-! DEFINITION. The register map as data: every block's pages, header constants and registers, with each field's bits,
access type, reset value and stated limits, and who may write it (R83–R119 and each chapter's register tables). -/

namespace Sys2Proof.Machine

/-- Access types of R90. -/
inductive Acc where
  | ro | rw | w1c | w1s | rwl
  deriving DecidableEq, Repr

/-- Who may write a register beyond what the firewall descriptors say (the named writers of R90). -/
inductive Writer where
  | any         -- whoever the descriptors permit
  | pairs       -- the Night Watch lockstep pairs
  | ownerPairs  -- BLK_OWNER's ITAG and the lockstep pairs
  | owner       -- BLK_OWNER's ITAG alone
  | unfreezer   -- R98
  | einj        -- R555
  deriving DecidableEq, Repr

/-- One field of a register. A written value outside `min … max`, or not a multiple of `mul`, leaves the field
unchanged and sets CFG_ERR (R90). -/
structure FDef where
  hi : Nat
  lo : Nat
  acc : Acc
  rst : Nat := 0
  min : Nat := 0
  max : Nat := 0xFFFFFFFF
  mul : Nat := 1
  /-- the reset value is `rst` plus the register's index in its array -/
  perIdx : Bool := false
  /-- writable only by BLK_OWNER's ITAG (R90, last paragraph) -/
  ownerOnly : Bool := false
  deriving DecidableEq, Repr

/-- A register, or an array of `cnt` registers `stride` bytes apart. -/
structure RDef where
  page : Nat
  off : Nat
  fields : List FDef
  wr : Writer := .any
  cnt : Nat := 1
  stride : Nat := 4
  deriving DecidableEq, Repr

/-- What a block's page-0 header reads (R91) and which pages it implements (R87). -/
structure BlockInfo where
  type : Nat
  inst : Nat := 0
  pages : List Nat
  queues : Bool := false
  qmax : Nat := 0
  spares : Bool := false
  cap1 : Nat := 0
  ctrl : List FDef := []        -- BLK_CTRL bits 31:16
  stat : Nat := 0               -- reset of BLK_STAT bits 31:8
  estatTop : Nat := 6           -- highest BLK_ESTAT bit that exists; bits 15:7 never do
  einj : List FDef := []
  deriving DecidableEq, Repr

/-- Region indices (R85). -/
def rPLATE : Nat := 8
def rTRANSIT : Nat := 9
def rHBM0 : Nat := 10
def rLPDDR : Nat := 16
def rAPC0 : Nat := 17
def rSCHED : Nat := 21
def rKVW : Nat := 22
def rSOLV : Nat := 23
def rOCC : Nat := 24
def rAFU : Nat := 25
def rDRIVE : Nat := 26
def rWATCH : Nat := 27
def rMERID : Nat := 28
def rCVU : Nat := 29
def rFWL : Nat := 30
def rPWR : Nat := 31
def rAGE : Nat := 32
def rSEC : Nat := 33
def rUSB : Nat := 34
def rPCIE : Nat := 35
def rETH : Nat := 36
def rCSI : Nat := 37
def rCAN : Nat := 38
def rLNK : Nat := 39

/-- The key of a register: its offset from 0x00_F000_0000 (R84). -/
def rk (region page off : Nat) : Nat := 0x10000 * region + 0x1000 * page + off
def rkRegion (k : Nat) : Nat := k / 0x10000
def rkPage (k : Nat) : Nat := k / 0x1000 % 16
def rkOff (k : Nat) : Nat := k % 0x1000

/-- Shorthand of the field tables. -/
def ro (hi lo : Nat) (rst : Nat := 0) : FDef := { hi, lo, acc := .ro, rst }
def rw (hi lo : Nat) (rst : Nat := 0) (min : Nat := 0) (max : Nat := 0xFFFFFFFF) (mul : Nat := 1) : FDef :=
  { hi, lo, acc := .rw, rst, min, max, mul }
def w1c (hi lo : Nat) : FDef := { hi, lo, acc := .w1c }
def w1s (hi lo : Nat) : FDef := { hi, lo, acc := .w1s }

def domeInj : List FDef := [w1s 4 0, rw 8 5 0 0 14]
def queuePages : List Nat := [11, 12, 13, 14, 15]

/-- Each block's header constants; `none` for the unassigned regions 40–63 (R85). -/
def blockInfo (r : Nat) : Option BlockInfo :=
  if r < 8 then                                                                             -- R202
    some { type := 1, inst := r, pages := [0, 1, 2, 3, 4] ++ queuePages, queues := true, qmax := 63, spares := true,
           cap1 := 0x16 + 0xF * 2 ^ 5 + 3 * 2 ^ 9 + 0x100 * 2 ^ 11,
           ctrl := [rw 16 16 1, rw 17 17 1], stat := 7 * 2 ^ 8, estatTop := 20, einj := domeInj }
  else if r = 8 then                                                                        -- R250
    some { type := 2, pages := [0, 1, 2], spares := true, einj := [w1s 2 0, rw 12 3 0 0 511] }
  else if r = 9 then
    some { type := 3, pages := [0, 1] ++ queuePages, queues := true, qmax := 1023,
           einj := [w1s 1 0, rw 11 2] }
  else if r < 16 then
    some { type := 4, inst := r - 10, pages := [0, 1], spares := true, einj := [w1s 2 0, rw 7 3] }
  else if r = 16 then some { type := 5, pages := [0, 1], einj := [w1s 2 0] }
  else if r < 21 then some { type := 6, inst := r - 17, pages := [0], spares := true }       -- DEDUCED, log 12
  else if r = 21 then                                                                       -- R366
    some { type := 7, pages := [0, 1, 2, 3, 4, 8] ++ queuePages, queues := true, qmax := 63,
           cap1 := 0x1000 + 0x40 * 2 ^ 13, estatTop := 18, einj := [w1s 3 0, rw 15 4, w1s 16 16] }
  else if r = 22 then                                                                       -- R295
    some { type := 8, pages := [0, 1, 2, 3, 4, 5, 6, 7, 8, 9], cap1 := 7 + 0x40 * 2 ^ 3, estatTop := 18,
           einj := [w1s 3 0, rw 6 4] }
  else if r = 23 then                                                                       -- R404
    some { type := 9, pages := [0, 1, 2] ++ queuePages, queues := true, qmax := 63, spares := true,
           cap1 := 0x108 + 0x100 * 2 ^ 9 + 7 * 2 ^ 18 + 0x7F * 2 ^ 21,
           ctrl := [rw 16 16 1, rw 17 17 1], stat := 8 * 2 ^ 8, estatTop := 20, einj := [w1s 4 0, rw 12 5] }
  else if r = 24 then                                                                       -- R442
    some { type := 0xA, pages := [0, 1, 2] ++ queuePages, queues := true, qmax := 63,
           cap1 := 2 + 7 * 2 ^ 2 + 0x7FF * 2 ^ 5, estatTop := 19, einj := [w1s 4 0, rw 6 5 0 0 2] }
  else if r = 25 then                                                                       -- R473
    some { type := 0xB, pages := [0, 1, 2, 3] ++ queuePages, queues := true, qmax := 31,
           cap1 := 0x1F + 0xF * 2 ^ 5 + 0x3FF * 2 ^ 9, stat := 3 * 2 ^ 16, estatTop := 18,
           einj := [w1s 5 0, rw 10 6] }
  else if r = 26 then                                                                       -- R507
    some { type := 0xC, pages := [0, 1, 2, 3, 4] ++ queuePages, queues := true, qmax := 1, spares := true,
           cap1 := 0x40 + 5 * 2 ^ 7 + 7 * 2 ^ 10, ctrl := [rw 16 16 1], stat := 1 * 2 ^ 8, estatTop := 20,
           einj := [w1s 4 0, rw 10 5] }
  else if r = 27 then                                                                       -- R589
    some { type := 0xD, pages := [0, 1, 2, 3, 4, 5, 6, 7], cap1 := 0x10 + 0xF * 2 ^ 5, estatTop := 19,
           einj := [w1s 3 0, rw 4 4, rw 8 5] }
  else if r = 28 then                                                                       -- R717, R81
    some { type := 0xE, pages := [0, 1, 2, 3, 4, 5, 6, 7, 8], estatTop := 18,
           einj := [w1s 0 0, rw 1 1, w1s 3 2, rw 5 4, rw 10 6 0 0 27, rw 20 11] }
  else if r = 29 then                                                                       -- R523
    some { type := 0xF, pages := [0, 1, 2, 3], spares := true, cap1 := 0x22 + 0x20 * 2 ^ 6 + 0x80 * 2 ^ 12,
           stat := 2 * 2 ^ 8, estatTop := 16, einj := [w1s 2 0, rw 7 3] }
  else if r = 30 then                                                                       -- R590
    some { type := 0x10, pages := [0, 1], cap1 := 0x38 + 0x3F * 2 ^ 6, estatTop := 17,
           einj := [w1s 2 0, rw 8 3 0 0 55] }
  else if r = 31 then                                                                       -- R622
    some { type := 0x11, pages := [0, 1, 2, 3], estatTop := 21, einj := [w1s 2 0, rw 8 3, rw 13 9 0 4 31] }
  else if r = 32 then
    some { type := 0x12, pages := [0, 1, 2], estatTop := 20, einj := [w1s 1 0, rw 11 2] }
  else if r = 33 then                                                                       -- R653
    some { type := 0x13, pages := [0, 1, 2, 3] ++ queuePages, queues := true, qmax := 3, estatTop := 17,
           einj := [w1s 2 0] }
  else if r = 34 then some { type := 0x14, pages := [0, 1], einj := [w1s 0 0, rw 1 1] }      -- R715, R714
  else if r = 35 then some { type := 0x15, pages := [0, 1, 2, 8, 9, 10, 11, 12, 13, 14, 15], einj := [w1s 0 0] }
  else if r = 36 then some { type := 0x16, pages := [0, 1, 2, 3], einj := [w1s 1 0, rw 4 2 0 0 5] }  -- R678, R677
  else if r = 37 then some { type := 0x17, pages := [0, 1, 2, 3], einj := [w1s 1 0, rw 3 2] }
  else if r = 38 then
    some { type := 0x18, pages := [0, 1, 2, 3], estatTop := 18, einj := [w1s 1 0, rw 5 2 0 0 9] }
  else if r = 39 then
    some { type := 0x19, pages := [0, 1, 2] ++ queuePages, queues := true, qmax := 63, spares := true,
           ctrl := [rw 16 16 1], stat := 2 * 2 ^ 8, estatTop := 16, einj := [w1s 1 0, rw 2 2, rw 6 3 0 0 7] }
  else none

/-- Highest element of a list of pages. -/
def lastPage (ps : List Nat) : Nat := ps.foldl Nat.max 0

/-- The page-0 header of R91. -/
def headerDefs (r : Nat) (b : BlockInfo) : List RDef :=
  [ { page := 0, off := 0x000, fields := [ro 5 0 r, ro 11 6 b.type, ro 15 12 b.inst, ro 31 16 9] },
    { page := 0, off := 0x004, fields := [ro 31 0 0x100] },
    { page := 0, off := 0x008, fields := [ro 3 0 (lastPage b.pages), ro 4 4 (if b.queues then 1 else 0), ro 16 5 b.qmax,
        ro 17 17 (if b.spares then 1 else 0)] },
    { page := 0, off := 0x00C, fields := [ro 31 0 b.cap1] },
    { page := 0, off := 0x010, fields := [rw 0 0, rw 1 1] ++ b.ctrl, wr := .ownerPairs },   -- R92
    { page := 0, off := 0x014, fields := [ro 31 0 b.stat] },
    { page := 0, off := 0x018, fields := [rw 19 0, rw 20 20] },
    { page := 0, off := 0x01C, fields := [rw 11 0 1, rw 16 16], wr := .pairs },             -- R94
    { page := 0, off := 0x020, fields := [w1c 6 0] ++ (if 16 ≤ b.estatTop then [w1c b.estatTop 16] else []) },
    { page := 0, off := 0x024, fields := [rw 6 0] ++ (if 16 ≤ b.estatTop then [rw b.estatTop 16] else []) },
    { page := 0, off := 0x028, fields := b.einj, wr := .einj },
    { page := 0, off := 0x02C, fields := [ro 4 0, w1c 5 5, ro 17 6] },
    { page := 0, off := 0x030, fields := [ro 15 0], cnt := 8 },
    { page := 0, off := 0x050, fields := [rw 11 0, rw 13 12, ro 14 14, ro 15 15, ro 23 16], wr := .unfreezer },
    { page := 0, off := 0x054, fields := [ro 31 0] } ]

/-- The queue registers of R119; the doorbells are written by their own rule (R103). -/
def queueDefs : List RDef :=
  [ { page := 11, off := 0x000, fields := [rw 31 0 0 0 0xFFFFFFFF 4096] },
    { page := 11, off := 0x004, fields := [rw 31 0] },
    { page := 11, off := 0x008, fields := [rw 11 0, rw 15 12, rw 31 16] },
    { page := 11, off := 0x00C, fields := [ro 2 0] },
    { page := 11, off := 0x010, fields := [rw 11 0] },
    { page := 11, off := 0x014, fields := [ro 31 0] },
    { page := 11, off := 0x018, fields := [ro 31 0] } ]

/-- Registers of one restricted page: every definition of the list gets the named writers. -/
def only (w : Writer) (ds : List RDef) : List RDef := ds.map (fun d => { d with wr := w })

def reg (page off : Nat) (fields : List FDef) (cnt : Nat := 1) (stride : Nat := 4) : RDef :=
  { page, off, fields, cnt, stride }

/-- DOMEn pages 1–4 (R154, R202, R203). -/
def domeDefs : List RDef :=
  [ reg 1 0x100 [{ (ro 4 0) with perIdx := true }, ro 5 5, ro 6 6 1] 8,
    reg 1 0x120 [{ (ro 4 0 9) with perIdx := true }, ro 5 5, ro 6 6 1] 2,
    reg 1 0x128 [ro 4 0 12, ro 5 5, ro 6 6 1], reg 1 0x12C [ro 4 0 14, ro 5 5, ro 6 6 1],
    reg 1 0x130 [ro 4 0 16, ro 5 5, ro 6 6 1], reg 1 0x134 [ro 4 0 18, ro 5 5, ro 6 6 1],
    reg 1 0x138 [ro 4 0 20, ro 5 5, ro 6 6 1],
    reg 1 0x140 [ro 31 0 0x11145555], reg 1 0x144 [ro 11 0 0x111],
    reg 2 0x100 [ro 15 0, ro 16 16] 4,
    reg 2 0x140 [ro 15 0, ro 17 16, ro 18 18, ro 19 19],
    reg 3 0x100 [ro 15 0, ro 21 16, ro 22 22, ro 23 23],
    reg 3 0x104 [ro 31 0] 3, reg 3 0x110 [ro 31 0] 15, reg 3 0x150 [ro 31 0] 4,
    { reg 4 0x100 [rw 4 0, rw 8 5, rw 11 9] with wr := .ownerPairs },
    reg 4 0x104 [ro 2 0, ro 7 3 0x1F, w1c 8 8, w1c 9 9], reg 4 0x108 [ro 3 0] ]

/-- PLATE (R250, R251). -/
def plateDefs : List RDef :=
  [ { reg 1 0x100 [rw 14 0] 16 with wr := .ownerPairs }, reg 1 0x140 [ro 14 0] 16, reg 1 0x180 [ro 14 0] 16,
    reg 1 0x1C0 [ro 14 0 0x4000], reg 1 0x1C4 [ro 31 0], reg 1 0x1C8 [ro 31 0],
    reg 2 0x100 [rw 8 0], reg 2 0x104 [ro 16 0 0x10000, ro 17 17] ]

/-- TRANSIT page 1 (R251). -/
def transitDefs : List RDef :=
  [ reg 1 0x100 [rw 31 0 0 0 0xFFFFFFFF 4096], reg 1 0x104 [rw 31 0], reg 1 0x108 [rw 15 0], reg 1 0x10C [ro 14 0],
    reg 1 0x110 [ro 14 0], reg 1 0x114 [rw 15 0 0x1F4 100 10000], reg 1 0x118 [ro 31 0] ]

/-- HBMn page 1 (R251). -/
def hbmDefs : List RDef :=
  [ reg 1 0x100 [ro 31 0] 2, reg 1 0x108 [rw 15 0 0x40],
    { reg 1 0x10C [rw 4 0, rw 6 5] with wr := .ownerPairs } ]

/-- SCHED pages 1–4 and 8 (R329, R366). -/
def schedDefs : List RDef :=
  only .ownerPairs [reg 1 0x100 [rw 9 0], reg 1 0x104 [ro 31 0], reg 1 0x108 [ro 31 0], reg 1 0x10C [ro 12 0 0x1000]] ++
  [ { reg 2 0x100 [rw 5 0] with wr := .ownerPairs },
    reg 2 0x104 [ro 2 0, ro 5 3, ro 9 6, ro 18 10, ro 27 19], reg 2 0x108 [ro 19 0], reg 2 0x10C [ro 31 0] 4,
    reg 3 0x100 [rw 11 0], reg 3 0x104 [ro 31 0] 8,
    reg 4 0x100 [rw 15 0, rw 17 16, ro 18 18, ro 19 19] 64 ] ++
  only .ownerPairs
    [ reg 8 0x100 [rw 31 0 0 0 0xFFFFFFFF 4096], reg 8 0x104 [rw 31 0], reg 8 0x10C [rw 9 0, rw 16 16],
      reg 8 0x110 [rw 9 0, rw 14 12] ] ++
  [ { reg 8 0x108 [rw 10 0 0 0 1024] with wr := .ownerPairs },
    reg 8 0x114 [ro 2 0, ro 12 3, ro 13 13, w1c 14 14], reg 8 0x118 [ro 31 0] 4, reg 8 0x128 [ro 15 0] ]

/-- One walker page of KVW (R295). -/
def walkerDefs (n : Nat) : List RDef :=
  only .ownerPairs
    [ reg (2 + n) 0x100 [rw 31 0 0 0 0xFFFFFFFF 4096], reg (2 + n) 0x104 [rw 31 0],
      reg (2 + n) 0x108 [rw 2 0, rw 7 3, rw 10 8], reg (2 + n) 0x10C [rw 15 0], reg (2 + n) 0x110 [ro 19 0 0x4B00],
      reg (2 + n) 0x114 [rw 31 0 0 0 0xFFFFFFFF 64], reg (2 + n) 0x118 [rw 31 0],
      reg (2 + n) 0x11C [rw 24 0 0 0 0xFFFFFFFF 64], reg (2 + n) 0x120 [rw 7 0],
      reg (2 + n) 0x124 [rw 24 0 0 0 0xFFFFFFFF 64], reg (2 + n) 0x128 [rw 10 0 1 1 1024], reg (2 + n) 0x12C [rw 15 0],
      reg (2 + n) 0x130 [rw 11 0, rw 12 12, w1s 13 13, ro 14 14 1], reg (2 + n) 0x134 [ro 31 0] 3 ]

/-- KVW pages 1–9 (R280, R295). -/
def kvwDefs : List RDef :=
  [ { reg 1 0x100 [rw 0 0 1, ro 1 1 1, ro 2 2 1] with wr := .pairs }, { reg 1 0x104 [w1s 0 0] with wr := .ownerPairs }, reg 1 0x108 [ro 31 0] ] ++
  (List.range 8).flatMap walkerDefs

/-- SOLV pages 1 and 2 (R404); lane bindings before the Repair Record: log 13. -/
def solvDefs : List RDef :=
  [ reg 1 0x100 [{ (ro 8 0) with perIdx := true }, ro 9 9, ro 10 10 1] 256,
    reg 2 0x100 [ro 31 0 0x55555555] 16, reg 2 0x140 [ro 15 0],
    { reg 2 0x180 [rw 7 0, rw 16 8, rw 19 17] with wr := .ownerPairs },
    reg 2 0x184 [ro 2 0, ro 11 3 0x1FF, w1c 12 12, w1c 13 13], reg 2 0x188 [ro 7 0],
    reg 2 0x18C [rw 7 0, rw 10 8], reg 2 0x190 [ro 28 0], reg 2 0x194 [ro 16 0 0x18000],
    reg 2 0x198 [ro 31 0] 2 ]

/-- OCC pages 1 and 2 (R442). -/
def occDefs : List RDef :=
  [ reg 1 0x100 [ro 31 0], reg 1 0x104 [ro 1 0, ro 2 2, ro 31 16], reg 1 0x110 [ro 2 0, ro 23 3] 3,
    reg 1 0x120 [ro 31 0] 3 ] ++
  only .ownerPairs
    [ reg 2 0x100 [rw 31 0 0 0 0xFFFFFFFF 64], reg 2 0x104 [rw 31 0], reg 2 0x108 [rw 31 0 0 0 0xFFFFFFFF 64],
      reg 2 0x10C [rw 31 0], reg 2 0x110 [rw 31 0 0 0 0xFFFFFFFF 64], reg 2 0x114 [rw 31 0], reg 2 0x118 [rw 4 0],
      reg 2 0x11C [ro 0 0, ro 1 1, ro 12 2 0x7FF, ro 23 13 0x7FF], reg 2 0x120 [ro 31 0], reg 2 0x124 [ro 7 0] ]

/-- AFU pages 1–3 (R473). -/
def afuDefs : List RDef :=
  only .ownerPairs
    [ reg 1 0x100 [rw 6 0 1 1 64, rw 16 7 0x96 1 1000, rw 17 17, ro 31 18] 16 8, reg 1 0x104 [rw 31 0] 16 8,
      reg 1 0x180 [rw 9 0], reg 1 0x184 [rw 31 0 0 0 0xFFFFFFFF 4096], reg 1 0x188 [rw 31 0],
      reg 1 0x18C [rw 31 0 0x0F284044], reg 1 0x190 [rw 11 0 0x305], reg 1 0x194 [rw 31 0 0x41380000],
      reg 1 0x198 [rw 31 0 0x3F000000], reg 1 0x19C [rw 15 0, ro 31 16], reg 1 0x1A0 [ro 31 0],
      reg 2 0x100 [rw 3 0, rw 7 4, rw 15 8, rw 25 16, rw 26 26, rw 27 27] 32 16, reg 2 0x104 [rw 31 0 0x01FCA055] 32 16,
      reg 2 0x108 [ro 2 0, ro 15 3, ro 31 16] 32 16, reg 2 0x10C [ro 31 0] 32 16,
      reg 3 0x100 [rw 0 0, rw 8 1 2], reg 3 0x104 [rw 31 0], reg 3 0x108 [rw 31 0 0x40000000],
      reg 3 0x10C [rw 31 0 0x3F000000], reg 3 0x110 [ro 31 0] ]

/-- DRIVE pages 1–4 (R507); core bindings before the Repair Record: log 13. -/
def driveDefs : List RDef :=
  [ { reg 1 0x110 [w1s 0 0] with wr := .pairs } ] ++
  only .ownerPairs
    [ reg 1 0x100 [ro 1 0, ro 3 2, ro 5 4 1, ro 7 6 2, ro 8 8, ro 10 9, ro 11 11, ro 12 12, ro 13 13],
      reg 1 0x104 [ro 31 0] 2, reg 1 0x10C [rw 15 0 0 0 60000], reg 1 0x114 [rw 4 0], reg 1 0x118 [rw 15 0 0x64 1 1000],
      reg 1 0x11C [ro 31 0] 2,
      reg 2 0x100 [rw 5 0, rw 10 8], reg 2 0x104 [ro 2 0], reg 2 0x200 [ro 1 0, ro 2 2, ro 3 3, w1c 4 4, ro 12 5] 64,
      reg 3 0x100 [rw 5 0, rw 12 6, rw 14 13 0 0 2] 8 0x20, reg 3 0x104 [rw 15 0 1 1 65535, rw 21 16] 8 0x20,
      reg 3 0x108 [rw 20 0 0 0 0xFFFFFFFF 64] 8 0x20, reg 3 0x10C [rw 21 0 0 0 0xFFFFFFFF 64] 8 0x20, reg 3 0x110 [rw 15 0] 8 0x20,
      reg 3 0x114 [rw 31 0 0x7F800000] 8 0x20, reg 3 0x118 [ro 1 0, ro 2 2] 8 0x20, reg 3 0x11C [ro 20 0] 8 0x20,
      reg 4 0x100 [{ (ro 2 0) with perIdx := true }, ro 3 3, ro 4 4 1] 4, reg 4 0x120 [ro 9 0 0x55],
      reg 4 0x124 [rw 2 0, rw 5 4, rw 8 6], reg 4 0x128 [ro 2 0, ro 5 3 7, w1c 6 6, w1c 7 7], reg 4 0x12C [ro 1 0] ]

/-- WATCH pages 1–7 (R558, R589). -/
def watchDefs : List RDef :=
  only .pairs
    [ reg 1 0x100 [ro 2 0, ro 6 3, ro 7 7, ro 11 8, ro 12 12 1, ro 13 13 1], reg 1 0x104 [w1c 15 0, ro 19 16],
      reg 1 0x108 [rw 2 0], reg 1 0x10C [ro 3 0 6, rw 31 4 0x00955AA], reg 1 0x110 [rw 0 0],
      reg 1 0x114 [rw 3 0 3 1 15, rw 15 4 0x1F4 150 4000], reg 1 0x118 [rw 7 0 3 1 255, rw 23 8 0x6400 50 60000, rw 31 24],
      reg 1 0x11C [rw 31 0] 2, reg 1 0x140 [{ (rw 31 0) with acc := .rwl }] 8,
      reg 2 0x100 [rw 5 0 3 3 63, rw 14 6 0x1E 3 256, rw 22 15 0x1E 1 255], reg 2 0x104 [ro 31 0], reg 2 0x108 [rw 15 0],
      reg 2 0x10C [rw 15 0 0xC8 1 60000],
      reg 3 0x100 [rw 31 0] 16 0x10, reg 3 0x104 [rw 31 0] 16 0x10, reg 3 0x108 [rw 31 0] 16 0x10,
      reg 3 0x10C [rw 7 0] 16 0x10 ] ++
  [ reg 4 0x100 [rw 31 0], { reg 4 0x104 [rw 15 0] with wr := .pairs },
    reg 5 0x100 [ro 31 0], { reg 5 0x104 [rw 31 0] with wr := .pairs }, reg 5 0x108 [ro 31 0],
    reg 5 0x10C [ro 0 0, ro 7 1, ro 8 8], reg 5 0x110 [rw 9 0], reg 5 0x120 [ro 31 0] 8, reg 5 0x140 [rw 5 0],
    reg 5 0x160 [ro 31 0] 8 ] ++
  only .pairs
    [ reg 6 0x100 [rw 31 0], reg 6 0x104 [rw 7 0], reg 6 0x108 [rw 11 0], reg 6 0x10C [rw 15 0 0x3E8 1 60000],
      reg 6 0x110 [ro 15 0] ] ++
  [ reg 7 0x100 [ro 31 0] 320, reg 7 0x600 [ro 31 0] 40, reg 7 0x700 [ro 31 0] 40 ]

/-- MERID pages 1–8 (R83). -/
def meridDefs : List RDef :=
  [ reg 1 0x000 [rw 2 0 0 0 5, rw 5 3 0 0 5, { (rw 6 6) with acc := .rwl }, rw 15 8 8 1 255], reg 1 0x004 [ro 2 0, ro 3 3],
    reg 1 0x008 [rw 31 0 0x05F5E100 0x017D7840 0x0BEBC200], reg 1 0x010 [ro 31 0] 2, reg 1 0x018 [ro 31 0 0xF31DC461],
    reg 1 0x01C [ro 31 0 0x2A], reg 1 0x020 [ro 31 0], reg 1 0x024 [rw 31 0], reg 1 0x028 [rw 31 0 0x10000],
    reg 1 0x02C [rw 15 0 0x7D0 100 20000], reg 1 0x030 [rw 15 0 0x7D0 0 60000], reg 1 0x038 [rw 31 0] 2, reg 1 0x040 [ro 31 0],
    reg 2 0x000 [rw 1 0, rw 2 2, rw 5 3, rw 13 8 0xD 10 32, rw 14 14, rw 15 15, rw 17 16 1] 4 0x20,
    reg 2 0x004 [rw 31 0] 4 0x20, reg 2 0x008 [ro 31 0] 4 0x20, reg 2 0x00C [ro 31 0] 4 0x20, reg 2 0x010 [ro 31 0] 4 0x20,
    reg 2 0x014 [w1c 3 0] 4 0x20, reg 2 0x018 [rw 13 0 0x19 25 10000] 4 0x20,
    reg 3 0x000 [rw 0 0, rw 1 1, { (rw 13 2) with ownerOnly := true }, rw 15 14 1] 32 8, reg 3 0x004 [rw 15 0] 32 8 ] ++
  [4, 5, 6, 7].flatMap (fun p =>
    [ reg p 0x000 [rw 31 0] 256 16, reg p 0x004 [rw 31 0] 256 16, reg p 0x008 [rw 27 0] 256 16,
      reg p 0x00C [rw 0 0, rw 1 1, { (rw 13 2) with ownerOnly := true }, ro 18 16, ro 31 20] 256 16 ]) ++
  [ reg 8 0x000 [ro 27 0 1], reg 8 0x004 [w1c 27 0] ]

/-- CVU pages 1–3 (R523); channel bindings before the Repair Record: log 13. -/
def cvuDefs : List RDef :=
  only .ownerPairs
    [ reg 1 0x100 [rw 0 0, rw 7 1, rw 14 8] 32 0x10, reg 1 0x104 [ro 1 0, ro 8 2, ro 9 9, ro 12 10, w1c 13 13] 32 0x10,
      reg 1 0x108 [ro 31 0] 32 0x10, reg 1 0x10C [ro 31 0] 32 0x10,
      reg 2 0x100 [rw 6 0], reg 2 0x104 [rw 31 0] 8, reg 2 0x130 [rw 31 0 0 0 0xFFFFFFFF 16], reg 2 0x134 [rw 31 0],
      reg 2 0x138 [rw 3 0], reg 2 0x13C [rw 15 0],
      reg 3 0x100 [{ (ro 5 0) with perIdx := true }, ro 6 6, ro 7 7 1] 32, reg 3 0x180 [ro 31 0 0x55555555] 2,
      reg 3 0x188 [ro 3 0], reg 3 0x18C [rw 5 0, rw 10 6, rw 13 11], reg 3 0x190 [ro 2 0, ro 8 3 0x3F, w1c 9 9, w1c 10 10],
      reg 3 0x194 [ro 4 0] ]

/-- FWL page 1 (R590). -/
def fwlDefs : List RDef :=
  only .ownerPairs
    [ reg 1 0x100 [rw 5 0, rw 11 6], reg 1 0x104 [rw 31 0] 4, reg 1 0x114 [rw 1 0], reg 1 0x118 [ro 2 0] ]

/-- PWR pages 1–3 (R622). -/
def pwrDefs : List RDef :=
  only .ownerPairs
    [ reg 1 0x100 [rw 19 0 1], reg 1 0x104 [ro 0 0, ro 1 1, ro 2 2, ro 3 3 1], reg 1 0x108 [ro 3 0 8, ro 7 4 8, ro 11 8 8, ro 15 12 8],
      reg 1 0x110 [ro 15 0], reg 1 0x118 [ro 7 0], reg 1 0x11C [ro 15 0],
      reg 2 0x100 [rw 0 0, rw 16 1 0x64 1 65535] 32 8, reg 2 0x104 [ro 2 0, ro 22 3] 32 8, reg 2 0x200 [rw 4 0, rw 6 5],
      reg 3 0x100 [ro 0 0 1, ro 1 1 1] 28 ] ++
  only .pairs [reg 1 0x10C [rw 8 0 0x1A4 100 420], reg 1 0x114 [rw 6 0 0x64 95 104], reg 1 0x120 [rw 1 0]]

/-- AGE pages 1 and 2 (R622); the rails' CFG reset to the rail table of R613's chapter, their VNOW to 0 until boot (log 14). -/
def ageDefs : List RDef :=
  only .pairs
    [ reg 1 0x100 [rw 0 0 1], reg 1 0x104 [rw 9 0 0x3C 20 500, rw 19 10 0x28 10 200, rw 29 20 0x14],
      reg 1 0x108 [ro 9 0, ro 10 10, w1c 11 11],
      reg 1 0x110 [rw 10 0 550 550 750, rw 21 11 750 550 750], reg 1 0x118 [rw 10 0 700 700 850, rw 21 11 850 700 850],
      reg 1 0x120 [rw 10 0 650 650 950, rw 21 11 950 650 950], reg 1 0x128 [rw 10 0 650 650 850, rw 21 11 850 650 850],
      reg 1 0x130 [rw 10 0 750 750 850, rw 21 11 850 750 850], reg 1 0x114 [ro 10 0, ro 26 11] 5 8 ] ++
  [ reg 2 0x100 [rw 9 0], reg 2 0x104 [ro 31 0] ]

/-- SEC pages 1–3 (R653). -/
def secDefs : List RDef :=
  [ reg 1 0x100 [ro 3 0, ro 9 4, ro 13 10, ro 14 14, ro 15 15], { reg 1 0x104 [w1s 0 0] with wr := .owner },
    reg 1 0x120 [ro 31 0] 8, reg 1 0x140 [ro 31 0] 8, { reg 1 0x160 [w1s 0 0] with wr := .pairs },
    reg 2 0x100 [ro 31 0] 64, reg 3 0x100 [ro 31 0] 16, reg 3 0x140 [ro 31 0], { reg 3 0x144 [rw 3 0] with wr := .pairs } ]

/-- USB page 1 (R715). -/
def usbDefs : List RDef :=
  only .ownerPairs [reg 1 0x100 [rw 0 0 1, rw 1 1 1] 2 0x10, reg 1 0x104 [ro 1 0, ro 2 2] 2 0x10]

/-- PCIE pages 1 and 2 (R715); pages 8–15 hold no register of the spec. -/
def pcieDefs : List RDef :=
  only .ownerPairs
    [ reg 1 0x100 [ro 0 0, ro 3 1, ro 6 4, ro 7 7], reg 1 0x104 [ro 23 0 0x015309],
      reg 1 0x108 [rw 31 0 0 0 0xFFFFFFFF 0x8000], reg 1 0x10C [rw 31 0], reg 2 0x100 [rw 27 0], reg 2 0x104 [rw 31 0] ]

/-- ETH pages 1–3 (R678). -/
def ethDefs : List RDef :=
  only .ownerPairs
    [ reg 1 0x100 [rw 0 0, rw 3 1 0 0 0, rw 5 4 0 0 2] 2 0x20, reg 1 0x140 [rw 0 0, rw 3 1 0 1 4, rw 5 4 0 0 2] 4 0x20,
      reg 1 0x104 [rw 1 0 0 0 2, rw 5 2 5] 6 0x20, reg 1 0x108 [rw 7 0, w1s 8 8] 6 0x20, reg 1 0x10C [rw 7 0 0xFF] 6 0x20,
      reg 1 0x110 [rw 31 0] 6 0x20, reg 1 0x114 [rw 31 0 0xF4240] 6 0x20, reg 1 0x118 [rw 31 0] 6 0x20,
      reg 1 0x11C [rw 31 0] 6 0x20, reg 1 0x200 [ro 0 0, ro 3 1], reg 1 0x204 [rw 15 0 0x64], reg 1 0x208 [ro 31 0], reg 1 0x20C [rw 7 0 0xF8],
      reg 2 0x100 [rw 7 0], reg 2 0x104 [rw 31 0] 8,
      reg 3 0x104 [rw 15 0, rw 23 16 0 1 255] 48 0x20, reg 3 0x108 [rw 27 0 0 0 0xFFFFFFFF 64] 48 0x20,
      reg 3 0x10C [rw 31 0 0 0 0xFFFFFFFF 32] 48 0x20, reg 3 0x110 [rw 31 0] 48 0x20, reg 3 0x114 [rw 7 0] 48 0x20,
      reg 3 0x118 [ro 7 0, ro 31 8] 48 0x20 ]

/-- CSI pages 1 and 2 (R678). -/
def csiDefs : List RDef :=
  only .ownerPairs
    [ reg 1 0x100 [rw 0 0, rw 2 1 0 0 2] 4, reg 2 0x100 [rw 0 0, rw 6 1, rw 7 7] 64 0x20, reg 2 0x104 [rw 15 0, rw 23 16 0 1 255] 64 0x20,
      reg 2 0x108 [rw 27 0 0 0 0xFFFFFFFF 64] 64 0x20, reg 2 0x10C [rw 31 0 0 0 0xFFFFFFFF 32] 64 0x20,
      reg 2 0x110 [rw 31 0] 64 0x20, reg 2 0x114 [rw 7 0] 64 0x20, reg 2 0x118 [ro 7 0, ro 31 8] 64 0x20 ]

/-- CAN pages 1–3 (R678). -/
def canDefs : List RDef :=
  only .ownerPairs
    [ reg 1 0x100 [rw 0 0, rw 1 1, rw 2 2, rw 3 3, rw 4 4 1, rw 5 5, rw 11 6] 10 0x20,
      reg 1 0x104 [rw 7 0, rw 15 8 0x3E, rw 22 16 0x0F, rw 29 23 0x0F] 10 0x20,
      reg 1 0x108 [rw 4 0, rw 9 5 0xB, rw 13 10 2, rw 17 14 2, rw 25 18 0xC] 10 0x20,
      reg 1 0x10C [ro 7 0, ro 15 8, ro 17 16 3] 10 0x20,
      reg 2 0x100 [rw 3 0 0 0 9, rw 4 4, rw 10 5], reg 2 0x104 [rw 31 0], reg 2 0x108 [rw 31 0], reg 2 0x110 [rw 31 0],
      reg 2 0x118 [ro 31 0] 2, reg 2 0x200 [rw 31 0] 512, reg 3 0x100 [rw 7 0, rw 15 8 0 1 64, rw 17 16, rw 23 18 0 2 63] 8 ]

/-- LNK pages 1 and 2 (R715). -/
def lnkDefs : List RDef :=
  only .ownerPairs
    [ reg 1 0x100 [rw 1 0 0 0 2] 2 0x20, reg 1 0x104 [ro 1 0] 2 0x20, reg 1 0x108 [ro 17 0 0x05555] 2 0x20,
      reg 1 0x10C [rw 15 0 0x400] 2 0x20, reg 1 0x110 [rw 15 0, rw 16 16] 2 0x20, reg 1 0x114 [ro 13 0 0x2000] 2 0x20,
      reg 1 0x180 [rw 13 0 0x400 64 8192],
      reg 1 0x1C0 [rw 3 0, rw 6 4, rw 8 8, rw 11 9], reg 1 0x1C4 [ro 2 0, ro 6 3 0xF, w1c 7 7, w1c 8 8], reg 1 0x1C8 [ro 3 0],
      reg 2 0x100 [rw 17 0, rw 31 31] 16 0x10, reg 2 0x104 [rw 17 0] 16 0x10, reg 2 0x108 [rw 15 0, rw 17 16, rw 21 18] 16 0x10,
      reg 2 0x10C [ro 31 0] 16 0x10 ]

/-- The block-specific registers of a region. -/
def blockDefs (r : Nat) : List RDef :=
  if r < 8 then domeDefs
  else if r = 8 then plateDefs else if r = 9 then transitDefs else if r < 16 then hbmDefs
  else if r = 16 then [reg 1 0x100 [ro 7 0 0x78]]
  else if r < 21 then [] else if r = 21 then schedDefs else if r = 22 then kvwDefs
  else if r = 23 then solvDefs else if r = 24 then occDefs else if r = 25 then afuDefs
  else if r = 26 then driveDefs else if r = 27 then watchDefs else if r = 28 then meridDefs
  else if r = 29 then cvuDefs else if r = 30 then fwlDefs else if r = 31 then pwrDefs
  else if r = 32 then ageDefs else if r = 33 then secDefs else if r = 34 then usbDefs
  else if r = 35 then pcieDefs else if r = 36 then ethDefs else if r = 37 then csiDefs
  else if r = 38 then canDefs else if r = 39 then lnkDefs else []

/-- Does the definition cover this page and offset? -/
def RDef.covers (d : RDef) (page off : Nat) : Bool :=
  d.page == page && decide (d.off ≤ off) && decide (off < d.off + d.cnt * d.stride) && (off - d.off) % d.stride == 0

/-- Every register of a region. -/
def regionDefs (r : Nat) : List RDef :=
  match blockInfo r with
  | none => []
  | some b => headerDefs r b ++ (if b.queues then queueDefs else []) ++ blockDefs r

/-- The definition of a register, if the spec gives one at this key. -/
def regDef (k : Nat) : Option RDef := (regionDefs (rkRegion k)).find? (fun d => d.covers (rkPage k) (rkOff k))

/-- The reset value of a field of the register at this offset. -/
def FDef.resetAt (f : FDef) (d : RDef) (off : Nat) : Nat :=
  if f.perIdx then f.rst + (off - d.off) / d.stride else f.rst

/-- A register's reset value; offsets without a register read as zero (R83, R91). -/
def regReset (k : Nat) : Word :=
  match regDef k with
  | none => 0#32
  | some d => BitVec.ofNat 32 (d.fields.foldl (fun a f => a + f.resetAt d (rkOff k) * 2 ^ f.lo) 0)

/-- Does the block implement the page (R87)? -/
def pageExists (r page : Nat) : Bool :=
  match blockInfo r with
  | none => false
  | some b => b.pages.contains page

def hasQueues (r : Nat) : Bool := match blockInfo r with | none => false | some b => b.queues
def queueMax (r : Nat) : Nat := match blockInfo r with | none => 0 | some b => b.qmax
def hasSpares (r : Nat) : Bool := match blockInfo r with | none => false | some b => b.spares
def estatTopOf (r : Nat) : Nat := match blockInfo r with | none => 0 | some b => b.estatTop

end Sys2Proof.Machine
end

