-- ==== Sys2Proof/Machine/Power.lean ====
section
/-! DEFINITION. The fixed tables of power and clock domains (R591, R592) and of home blocks of ITAGs (R29, R533). -/

namespace Sys2Proof.Machine

/-- The power domain that holds a block's region (R591). -/
def regionPd (r : Nat) : Nat :=
  if r < 8 then 4 + r
  else if r = 8 then 12 else if r = 9 then 13
  else if r < 16 then 4 + r
  else if r = 16 then 20
  else if r < 21 then 4 + r
  else if r < 23 then 25
  else if r = 23 then 26 else if r = 24 then 27 else if r = 25 then 28
  else if r = 26 then 1 else if r = 27 then 0 else if r = 28 then 2
  else if r = 29 then 29 else if r = 30 then 0 else if r = 31 then 0
  else if r = 32 then 29 else if r = 33 then 29
  else if r < 36 then 30 else if r < 38 then 31
  else if r = 38 then 3 else if r = 39 then 30 else 0

/-- The clock domain whose vernier an action to a region waits on (R592); Linkous has its own clock in PD30. -/
def regionCd (r : Nat) : Nat :=
  if r = 39 then 26
  else
    let pd := regionPd r
    if pd = 0 then 1 else if pd = 1 then 2 else if pd = 2 then 0 else if pd = 3 then 3
    else if pd < 12 then pd
    else if pd < 14 then 12 else if pd < 17 then 13 else if pd < 20 then 14 else if pd = 20 then 15
    else if pd < 25 then pd - 5
    else if pd < 30 then pd - 5
    else if pd = 30 then 25 else 27

/-- The clock domains that serve a power domain (R592). -/
def pdCds (pd : Nat) : List Nat :=
  if pd = 0 then [1] else if pd = 1 then [2] else if pd = 2 then [0] else if pd = 3 then [3]
  else if pd < 12 then [pd]
  else if pd < 14 then [12] else if pd < 17 then [13] else if pd < 20 then [14] else if pd = 20 then [15]
  else if pd < 30 then [pd - 5]
  else if pd = 30 then [25, 26] else [27]

/-- The power domains that a clock domain serves (R593). -/
def cdPds (cd : Nat) : List Nat := (List.range 32).filter (fun pd => (pdCds pd).contains cd)

/-- The regions of a power domain. -/
def pdRegions (pd : Nat) : List Nat := (List.range 40).filter (fun r => regionPd r == pd)

/-- The always-on island is PD0–PD3; the other 28 domains are the main domains (R591). -/
def isMainPd (pd : Nat) : Bool := decide (4 ≤ pd) && decide (pd < 32)

/-- May the domain enter CLKGATED, RETENTION, OFF (R591)? OFF here is the state reached without SLEEP. -/
def pdMayGate (pd : Nat) : Bool := isMainPd pd
def pdMayRetain (pd : Nat) : Bool := isMainPd pd && pd != 29
def pdMayOff (pd : Nat) : Bool := isMainPd pd && pd != 29 && !(decide (14 ≤ pd) && decide (pd ≤ 20))

/-- The Off exit latency, in ns (R591); 0 where the table has a dash. -/
def pdOffExit (pd : Nat) : Nat :=
  if 4 ≤ pd ∧ pd ≤ 11 then 1800000
  else if pd = 12 then 2000000 else if pd = 13 then 1000000
  else if 21 ≤ pd ∧ pd ≤ 24 then 1500000
  else if pd = 25 then 1000000
  else if 26 ≤ pd ∧ pd ≤ 28 then 1200000
  else if pd = 30 then 3000000 else if pd = 31 then 2000000 else 0

/-- Is the ITAG allocated to an initiator (R29)? -/
def itagAllocated (t : Nat) : Bool :=
  (decide (1 ≤ t) && decide (t ≤ 2)) || (decide (0x10 ≤ t) && decide (t ≤ 0x13)) || t == 0x18 ||
  (decide (0x20 ≤ t) && decide (t ≤ 0x37)) || (decide (0x40 ≤ t) && decide (t ≤ 0x4B)) ||
  (decide (0x50 ≤ t) && decide (t ≤ 0x52)) || (decide (0x60 ≤ t) && decide (t ≤ 0x65)) ||
  (decide (0x68 ≤ t) && decide (t ≤ 0x6B)) || (decide (0x70 ≤ t) && decide (t ≤ 0x71)) ||
  (decide (0x400 ≤ t) && decide (t ≤ 0x7FF))

/-- A Night Watch lockstep pair. -/
def isPair (t : Nat) : Bool := t == 1 || t == 2

/-- The home block in whose BLK_FRZ an ITAG is frozen; `none` for the pairs and for unallocated values (R533, R538). -/
def homeBlock (t : Nat) : Option Nat :=
  if 0x10 ≤ t ∧ t ≤ 0x13 then some rDRIVE
  else if t = 0x18 then some rDRIVE
  else if 0x20 ≤ t ∧ t ≤ 0x37 then some (rAPC0 + (t - 0x20) / 6)
  else if 0x40 ≤ t ∧ t ≤ 0x47 then some (t - 0x40)
  else if t = 0x48 then some rSOLV else if t = 0x49 then some rOCC
  else if t = 0x4A then some rAFU else if t = 0x4B then some rCVU
  else if 0x50 ≤ t ∧ t ≤ 0x51 then some rUSB else if t = 0x52 then some rPCIE
  else if 0x60 ≤ t ∧ t ≤ 0x65 then some rETH
  else if 0x68 ≤ t ∧ t ≤ 0x6B then some rCSI
  else if 0x70 ≤ t ∧ t ≤ 0x71 then some rLNK
  else if 0x400 ≤ t ∧ t ≤ 0x7FF then some rTRANSIT
  else none

end Sys2Proof.Machine
end

