-- ==== Sys2Proof/Machine/SchedData.lean ====
section
/-! DEFINITION. What the scheduler and the Coelostat keep beside their registers: admitted jobs, the Almanac, the step
that is open, pre-emptions, semaphores and swaps (R314–R366). -/

namespace Sys2Proof.Machine

/-- A job record (R332). -/
structure JobRec where
  job : Nat := 0
  tenant : Nat := 0
  prio : Nat := 0
  rt : Bool := false
  det : Bool := false
  train : Bool := false
  serve : Bool := false
  domes : Nat := 0
  dq : Nat := 0
  tq : Nat := 0
  ntq : Nat := 1                 -- consecutive Transit queues
  seed : Nat := 0
  sq : Nat := 0
  period : Nat := 0
  wmax : Nat := 0
  semhold : Nat := 0
  tbnd : Nat := 0
  liveMax : Nat := 0
  p2 : Nat := 0
  p3 : Nat := 0
  p4 : Nat := 0
  saveObj : Nat := 0
  bmax : Nat := 0
  horizon : Nat := 0
  lgn : Nat := 1                 -- layer groups
  pchunk : Nat := 0
  newmax : Nat := 0
  fq : Nat := 0
  reticle : Nat := 0
  nitems : Nat := 0
  wloff : Nat := 0
  grant : Nat := 0
  grantLog2 : Nat := 0
  deriving DecidableEq, Repr

/-- A pre-emption of a job (R355–R358). Stages: 1 requested, 2 saving, 3 saved, 4 restoring. -/
structure Preempt where
  stage : Nat
  since : Nat                    -- when the stage began
  from_ : Nat := 0               -- when the saves began
  left : List Nat := []          -- Domes whose save or restore has not finished
  live : Sparse Nat := []        -- Dome ↦ live bytes saved
  deriving DecidableEq, Repr

/-- The open step of a job (R345–R354). -/
structure OpenStep where
  index : Nat                    -- index of its STEP descriptor
  number : Nat
  opened : Nat
  topen : Nat
  wstep : Nat
  qam : Bool
  rows : List (Nat × Nat)        -- Almanac index and NEW
  descs : List (Nat × Nat × Nat) -- region, queue and index of each descriptor built
  joined : Nat := 0
  gone : Nat := 0                -- entries freed at this opening
  parked : Bool := false
  preempted : Bool := false
  pausedFor : Nat := 0
  released : Bool := false
  expired : Bool := false
  deriving DecidableEq, Repr

/-- An admitted job. -/
structure Job where
  r : JobRec
  resp : Nat := 0                -- R_J in ns (R333), rounded
  lastStep : Nat := 0            -- STEP of the last step that closed well
  closed : Nat := 0              -- STEP of the last step that closed (R352)
  opened : Option Nat := none    -- when the last step opened
  cand : Option (Nat × Nat) := none   -- index of the released STEP descriptor, and since when it is a candidate
  residentAt : Nat := 0
  step : Option OpenStep := none
  grants : Nat := 0              -- grants written so far (R340)
  jstep : Nat := 0               -- registers of page 2
  jwstep : Nat := 0
  jshort : Nat := 0
  rows : Nat := 0
  pre : Option Preempt := none
  suspended : Bool := false      -- a TRAIN job outside depot mode (R361)
  deriving DecidableEq, Repr

/-- An Almanac entry (R335). -/
structure AlmEnt where
  state : Nat := 0
  leave : Bool := false
  short : Bool := false
  fault : Bool := false
  job : Nat := 0
  len : Nat := 0
  plen : Nat := 0
  lmax : Nat := 0
  res : Nat := 0
  jseq : Nat := 0
  jstep : Nat := 0
  deriving DecidableEq, Repr

/-- A held semaphore (R359). -/
structure Sem where
  job : Nat
  since : Nat
  told : Bool := false           -- its overrun has been reported
  deriving DecidableEq, Repr

/-- A swap MOVE in flight (R319). -/
structure Swap where
  entry : Nat
  out : Bool
  index : Nat                    -- of the MOVE on the Coelostat's queue
  at_ : Nat
  size : Nat
  deriving DecidableEq, Repr

/-- SCHED. -/
structure Sched where
  jobs : Sparse (Option Job) := []       -- SCHED queue ↦ job
  alm : Sparse AlmEnt := []
  jseq : Nat := 0
  sems : Sparse (Option Sem) := []
  swap : Option Swap := none
  evict : List Nat := []                 -- entries with an EVICT to carry out, in order
  failedOut : Sparse (Option Bool) := [] -- FAULT entries ↦ whether the failed swap was a swap-out
  waitFrom : Option Nat := none          -- since when a ready step waits on residency (R316)
  deriving DecidableEq, Repr

end Sys2Proof.Machine
end

