-- ==== Sys2Proof/Machine/SolvData.lean ====
section
/-! DEFINITION. What the Reduction array keeps beside its registers: resident contexts and the SOLVE in execution
(R367–R403). -/

namespace Sys2Proof.Machine

/-- A resident context (R369–R371). `ks` is K in packed order, `ls` the rows of L below the diagonal. -/
structure SolvCtx where
  lost : Bool := false
  stale : Bool := true
  tenant : Nat := 0
  n : Nat
  w : Nat
  itmax : Nat
  pertEn : Bool
  pivtol : Word
  pert : Word
  tol : Word
  sgn : Nat
  ks : List Word
  bs : List Word
  xs : List Word
  ls : List (List Word) := []
  ds : List Word := []
  npert : Nat := 0
  firstPert : Nat := 0xFF
  deriving DecidableEq, Repr

/-- A problem record (R375) with the deltas that it applies. `fail` is the status with which the read of its delta list, or
of its lane's store, failed. -/
structure SolvProb where
  lane : Nat
  ctx : Nat
  force : Bool
  ndelta : Nat
  nref : Nat
  dlist : Nat
  xout : Nat
  rrec : Nat
  reservedSet : Bool := false
  deltas : List Nat := []
  fail : Option Nat := none
  deriving DecidableEq, Repr

/-- The SOLVE in execution. Cycles are those of the 800 MHz clock, counted from its start. -/
structure SolvRun where
  queue : Nat
  index : Nat
  tenant : Nat
  start : Nat                          -- ns
  refprev : Bool
  wcet : Nat
  injWcet : Bool := false
  probs : List SolvProb
  cut : Option Nat := none             -- cycle at which the deadline was reached
  faults : List (Nat × Nat) := []      -- lane, and cycle of a fault that a takeover answered
  slow : Option Nat := none            -- lane that meets an injected corrected error
  pivot : Option Nat := none           -- problem whose first pivot is taken as zero
  deriving DecidableEq, Repr

/-- SOLV. Contexts are keyed lane * 8 + context. -/
structure Solv where
  ctxs : Sparse (Option SolvCtx) := []
  run : Option SolvRun := none
  deriving DecidableEq, Repr

end Sys2Proof.Machine
end

