-- ==== Sys2Proof/Machine/VehData.lean ====
section
/-! DEFINITION. What the camera receivers and the Ethernet MACs keep beside their registers (R655–R665). -/

namespace Sys2Proof.Machine

/-- A camera frame that is being received. Embedded lines go first in the slot (R655), so both kinds are kept apart until
the frame ends. -/
structure CamFrame where
  fnum : Nat
  tfs : Nat
  dropped : Bool := false                  -- the ring was full when it started (R659)
  emb : List (List Byte) := []             -- lines in arrival order
  pix : List (List Byte) := []
  trunc : Bool := false
  crcErr : Bool := false
  hdrFix : Bool := false
  deriving DecidableEq, Repr

/-- CSI: virtual channels are keyed port * 16 + channel. -/
structure Csi where
  frames : Sparse (Option CamFrame) := []
  count : Sparse Nat := []                 -- frames that have taken a slot
  deriving DecidableEq, Repr

/-- A frame ready for transmission. -/
structure TxFrame where
  pcp : Nat
  data : List Byte
  since : Nat
  counted : Bool := false                  -- its wait of more than one cycle has been counted
  deriving DecidableEq, Repr

/-- A gate control entry (R663). -/
structure Gate where
  mask : Nat := 0xFF
  ivl : Nat := 0
  deriving DecidableEq, Repr

/-- An operational gate control list. -/
structure GateList where
  gates : List Gate := []
  cycle : Nat := 0
  base : Nat := 0
  deriving DecidableEq, Repr

/-- ETH: rings and administrative gate entries are keyed mac * 8 + ring and mac * 256 + entry. -/
structure Eth where
  count : Sparse Nat := []                 -- ring ↦ frames that have taken a slot
  filters : Sparse Word := []              -- (mac * 32 + filter) * 8 + word
  admin : Sparse Gate := []
  oper : Sparse GateList := []
  swapAt : Sparse (Option Nat) := []       -- mac ↦ PTP time at which the administrative list takes over
  tx : Sparse (List TxFrame) := []         -- mac ↦ frames ready, oldest first
  txUntil : Sparse Nat := []               -- mac ↦ when the line is free again
  delay : Sparse (Option Int) := []        -- mac ↦ path delay that Pdelay measured, ns (R664)
  sent : Sparse (Option Nat) := []         -- mac ↦ when it last sent a Sync
  ptpAt : Nat := 0                         -- the instance's time is ptpTime at timebase ptpAt, and runs at ptpRate / 2^32
  ptpTime : Nat := 0
  ptpRate : Nat := 2 ^ 32
  lastSync : Option Nat := none
  good : Nat := 0                          -- consecutive Syncs that meet R665, at most 4
  unsyncUntil : Nat := 0                   -- INJ_UNSYNC acts until then (R677)
  deriving DecidableEq, Repr

end Sys2Proof.Machine
end

