-- ==== Sys2Proof/Machine/State.lean ====
section
/-! DEFINITION. The state of the module: its registers, memories, queues, timers, pins and logs, the commands that wait,
and the state right after the 3.3 V standby input powers on. -/

namespace Sys2Proof.Machine

/-- The safe-state controller and what the Night Watch keeps beside its registers (R571–R582). -/
structure Watch where
  causes : List Cause := []          -- causes on their way to the controller, oldest first (R575)
  verdicts : List Bool := []         -- true = disagree, newest first, at most 256 (R572)
  comparisons : List (Bool × Nat × Nat) := []   -- AFU comparisons on their way: disagrees, INSTANT, DIS (R468)
  clean : Nat := 0                   -- consecutive agreeing verdicts since the last DEGRADE cause (R573)
  latched : Bool := false            -- a latched MEMFAIL stands (R574)
  remembered : Bool := false         -- a DEGRADE cause to be honoured at the exit of RECOVERING (R576)
  starts : List Nat := []            -- when restarts began (R576)
  decision : Nat := 0                -- time of the decision a restart runs from (R577)
  bootEnded : Bool := false          -- the Boot phase of the restart has ended (R576)
  planBase : Nat := 0                -- NOPLAN timer: start, or what had run when it paused (R721)
  planPaused : Bool := true
  hbBase : Nat := 0                  -- APCHB timer start (R721)
  recovDone : Bool := false          -- cause 11 has been raised for that decision (R574)
  seq : Nat := 0                     -- restart sequencer: 0 none, 1 decided, 2 quiesced, 3 held, 4 released, 5 image checked
  protDone : Sparse Nat := []        -- protected interval ↦ 1 + revolution in which it last began (R585)
  hofail : Nat := 0                  -- consecutive rejected hand-offs (R574 cause 3)
  savedAutoms : Option Nat := none   -- DRIVE_FBCFG before DEGRADED (R573)
  alive : Bool := false              -- level of NW_ALIVE (R560)
  aliveAt : Nat := 0
  deg : Bool := false                -- levels of NW_DEG and NW_HALT (R563, R576)
  halt : Bool := false
  pairOut : Sparse (Option Nat) := []     -- pair ↦ when it left service (R582)
  trTime : Nat := 0                  -- last write of WATCH_TRGRANT (R556)
  badRecords : List Nat := []        -- Night Watch SRAM records with an uncorrectable error (R720)
  deriving DecidableEq, Repr

/-- The power controller beside its registers (R591–R612). -/
structure Pwr where
  idleFrom : Sparse Nat := []             -- pd ↦ since when the domain is idle
  wakeAt : Sparse (Option Nat) := []      -- pd ↦ when its exit completes
  wakeFrom : Sparse Nat := []             -- pd ↦ the state it leaves
  supplyFrom : Nat := 0                   -- since when the input stays above the warning level
  brown : Bool := false                   -- the input has been below the reset level (R609)
  sleeping : Bool := false                -- SLEEP has been carried out (R601)
  estAt : Option Nat := none              -- last estimate of the input power (R604)
  lowFor : Nat := 0                       -- consecutive 1 ms estimates below 95 % of PLIM (R604)
  warnInjUntil : Nat := 0                 -- an injected TWARN reading lasts until then (R621)
  tempDownAt : Nat := 0                   -- last change of the thermal ceiling (R605)
  warm : Bool := false                    -- TJMAX was at or above TWARN, 105 °C and 115 °C at the last sample (R605)
  crit : Bool := false
  trip : Bool := false
  sampleAt : Option Nat := none           -- last thermal sample
  deriving DecidableEq, Repr

/-- A resident tile slot of a borrowed P1 object (R231). -/
structure Slot where
  handle : Nat
  slot : Nat
  tenant : Nat
  lines : Nat
  age : Word
  dirty : Bool := false
  locks : Nat := 0                        -- operations in flight that read or write it (R232)
  deriving DecidableEq, Repr

/-- An ALLOC that waits for a slot to unlock (R232). -/
structure HeldAlloc where
  queue : Nat
  index : Nat
  handle : Nat
  deriving DecidableEq, Repr

/-- The Archive pool beside PLATE's registers (R229–R233). -/
structure Plate where
  lines : Sparse Nat := []                -- Archive line address / 4096 ↦ 1 + handle of the held object mapped there
  slots : List Slot := []                 -- resident slots of borrowed objects
  allocs : List HeldAlloc := []           -- allocations that wait, oldest first
  spareRow : Sparse Nat := []             -- bank ↦ 1 + spare row group, where it is no longer row group 16 (R207)
  locked : List (Nat × Nat × Nat × Nat) := []   -- queue, index, handle, slot: locks held by operations in flight
  stalled : Bool := false                 -- the pool of tile operations is full (R238)
  testing : Sparse Nat := []              -- bank ↦ 1 + row group under test
  rgSlice : Option Nat := none            -- when the window's row-group slice started
  rgServed : Bool := false
  rgDead : Sparse Nat := []               -- bank ↦ retired row groups, one bit each
  suspectAt : Sparse (Option Nat) := []   -- pseudo-channel ↦ last breach while SUSPECT (R223)
  deriving DecidableEq, Repr

/-- The whole state. -/
structure State where
  now : Nat := 0                          -- timebase count, ns (R38)
  phase : BitVec 96 := 0                  -- revolutions, fraction in tk, and 32 bits below 1 tk (R37, R38)
  regs : Sparse Word := []                -- every register (R84), unlisted at its reset value
  mem : Sparse Byte := []                 -- every byte of memory (R204, R474), unlisted as `memReset`
  badWords : List Nat := []               -- code words with an uncorrectable error (R527), by their first byte's key
  locks : List Nat := []                  -- RWL registers whose lock has been taken (R90)
  queues : Sparse Queue := []             -- keyed region * 4096 + queue
  qcmds : Sparse (Option QCmd) := []      -- region ↦ QCMD command in progress
  frozen : List Itag := []                -- frozen ITAGs (R534)
  held : List Access := []                -- requests held at frozen ports, oldest first (R536)
  waiting : List Access := []             -- accesses waiting for a domain's exit (R88), oldest first
  armed : Sparse (Option ArmedUnfreeze) := []   -- region ↦ armed unfreeze (R99)
  unfreezing : List Itag := []            -- released, but transactions that passed have not completed (R537)
  log : NightLog := {}
  fwl : Fwl := {}
  merid : Merid := {}
  watch : Watch := {}
  pwr : Pwr := {}
  plate : Plate := {}
  spares : Sparse SpareSt := []           -- region * 4 + unit ↦ tests and retirements in progress
  wins : Sparse Nat := []                 -- region ↦ its open self-test windows, one bit each (R56, R91)
  bind : Sparse Nat := []                 -- bindings that no register shows: Linkous lanes, application cores (R155)
  bootBind : Sparse Nat := []             -- bindings that boot made, where they differ from reset (R634)
  bindSt : Sparse Nat := []               -- states of application cores (R634)
  domes : Sparse Dome := []
  walkers : Sparse Walker := []
  sched : Sched := {}
  link : Link := {}
  solv : Solv := {}
  cvu : Cvu := {}
  can : Can := {}
  spiUntil : Sparse (Option Nat) := []    -- SPI0 chip select ↦ when its read ends (R675)
  seeds : Sparse (Option Nat) := []       -- job ↦ seed given at admission (R139)
  openQam0 : Nat := 0                     -- open steps latched with QAM 0, and with QAM 1 (R280)
  openQam1 : Nat := 0
  drive : Drive := {}
  occ : Occ := {}
  afu : Afu := {}
  boot : Boot := {}
  age : Age := {}
  csi : Csi := {}
  eth : Eth := {}
  resp : Response := {}                   -- response of the last access
  out : List Out := []                    -- what the block has sent out, newest first
  free : Nat := 0                         -- MODEL's own: how many free values have been drawn (log 4)
  pending : List Instr := []              -- commands waiting, first in first out
  deriving DecidableEq, Repr

/-- What an unlisted byte of memory reads as (log 3): the spec calls such bytes unspecified (R719). -/
def memReset (_ : Nat) : Byte := 0#8

/-- The module has no fault: every error the spec describes is an effect on the state (an error flag, a freeze, a status,
a halt of the main domains). -/
inductive Fault where
  deriving DecidableEq, Repr

/-- Why a command has no meaning. -/
inductive Refusal where
  /-- Raised by a command's arm in the dispatcher while the command has no meaning yet. Safe. -/
  | notModelled (mnemonic : String)
  /-- Raised by a meaning whose operand names an instance the module does not have (a MAC above 5, an HBM
  stack above 5): no such event can happen. Safe. -/
  | illFormed (command : String)
  deriving DecidableEq, Repr

/-- The outcome of one command. -/
abbrev Outcome := Host.Outcome State Fault Refusal

/-- Power-on of the 3.3 V standby input: every register at its reset value, nothing listed in memory, every queue
DISABLED, no firewall descriptor in force, and no command waiting. Boot (R641) follows as commands. -/
def State.reset : State := {}

end Sys2Proof.Machine
end

