-- ==== Sys2Proof/Machine/Flags.lean ====
section
/-! DEFINITION. Register access by the hardware itself, event flags (BLK_ESTAT, BLK_EFIRST), counters (BLK_ECNTk and
their Night Watch counterparts) and Night Log reports: what every detector of the module does when it fires (R95, R97,
R547–R553). -/

namespace Sys2Proof.Machine

/-- The word a register holds. -/
def State.rd (s : State) (k : Nat) : Word := Sparse.get regReset s.regs k

/-- Set a register, as the hardware does. -/
def State.wr (s : State) (k : Nat) (w : Word) : State := { s with regs := Sparse.set regReset s.regs k w }

/-- Field hi:lo of a register. -/
def State.fld (s : State) (k hi lo : Nat) : Nat := fieldOf (s.rd k) hi lo

/-- Bit `i` of a register. -/
def State.flag (s : State) (k i : Nat) : Bool := flagOf (s.rd k) i

/-- Set field hi:lo of a register. -/
def State.setFld (s : State) (k hi lo v : Nat) : State := s.wr k (withField (s.rd k) hi lo v)

/-- Set bit `i` of a register. -/
def State.setFlag (s : State) (k i : Nat) (b : Bool) : State := s.wr k (withFlag (s.rd k) i b)

/-- Add to a counting register that stops at its field's greatest value. -/
def State.addSat (s : State) (k hi lo n : Nat) : State :=
  s.setFld k hi lo (satAdd (2 ^ (hi + 1 - lo) - 1) (s.fld k hi lo) n)

/-- A 64-bit register pair, LO at the lower offset. -/
def State.rd64 (s : State) (k : Nat) : Nat := (s.rd k).toNat + 2 ^ 32 * (s.rd (k + 4)).toNat

/-- Set a 64-bit register pair. -/
def State.wr64 (s : State) (k v : Nat) : State :=
  (s.wr k (BitVec.ofNat 32 v)).wr (k + 4) (BitVec.ofNat 32 (v / 2 ^ 32))

/-- Offsets of the page-0 header (R91). -/
def kCTRL (r : Nat) : Nat := rk r 0 0x010
def kSTAT (r : Nat) : Nat := rk r 0 0x014
def kLATB (r : Nat) : Nat := rk r 0 0x018
def kOWNER (r : Nat) : Nat := rk r 0 0x01C
def kESTAT (r : Nat) : Nat := rk r 0 0x020
def kEMASK (r : Nat) : Nat := rk r 0 0x024
def kEINJ (r : Nat) : Nat := rk r 0 0x028
def kEFIRST (r : Nat) : Nat := rk r 0 0x02C
def kECNT (r k : Nat) : Nat := rk r 0 (0x030 + 4 * k)
def kFRZ (r : Nat) : Nat := rk r 0 0x050
def kTCC (r : Nat) : Nat := rk r 0 0x054

/-- The ITAG in BLK_OWNER. -/
def State.owner (s : State) (r : Nat) : Nat := s.fld (kOWNER r) 11 0

/-- The 64-bit phase: revolution count and fraction (R37). -/
def State.phase64 (s : State) : DWord := (s.phase >>> 32).setWidth 64

/-- The state of a power domain (R595): 0 ACTIVE, 1 CLKGATED, 2 RETENTION, 3 OFF, 4 HELD, 5 WAKING. -/
def kPdStat (pd : Nat) : Nat := rk rPWR 2 (0x104 + 8 * pd)
def kPdCfg (pd : Nat) : Nat := rk rPWR 2 (0x100 + 8 * pd)
def State.pdState (s : State) (pd : Nat) : Nat := s.fld (kPdStat pd) 2 0

/-- Is the domain OFF or HELD (R89)? A domain waking from OFF is off until its exit completes. -/
def State.pdDown (s : State) (pd : Nat) : Bool :=
  s.pdState pd == 3 || s.pdState pd == 4 || (s.pdState pd == 5 && Sparse.get (fun _ => 0) s.pwr.wakeFrom pd == 3)

/-- Count an event: BLK_ECNTk stops at 0xFFFF, its Night Watch counter at 0xFFFF_FFFF (R91, R552). -/
def State.count (s : State) (r k : Nat) (n : Nat := 1) : State :=
  (s.addSat (kECNT r k) 15 0 n).addSat (rk rWATCH 7 (0x100 + 0x20 * r + 4 * k)) 31 0 n

/-- Count a timing-dependent choice (R91). -/
def State.countTcc (s : State) (r : Nat) : State := s.addSat (kTCC r) 31 0 1

/-- Drop a report: NLLOST and WATCH_DROPr count, and the source's last slot keeps the dropped report of highest SEQ
(R550). -/
def State.dropReport (s : State) (rep : Report) : State :=
  let s := (s.addSat (rk rWATCH 5 0x108) 31 0 1).addSat (rk rWATCH 7 (0x700 + 4 * rep.src)) 31 0 1
  match Sparse.get (fun _ => none) s.log.last rep.src with
  | some old =>
    if old.seq < rep.seq then { s with log := { s.log with last := Sparse.set (fun _ => none) s.log.last rep.src (some rep) } }
    else s
  | none => { s with log := { s.log with last := Sparse.set (fun _ => none) s.log.last rep.src (some rep) } }

/-- Send a Night Log report: numbered at its source (R548), stamped with the phase, into the input queue of 64 or, when
that is full, dropped (R549, R550). -/
def State.report (s : State) (rep : Report) : State :=
  let n := Sparse.get (fun _ => 0) s.log.seq rep.src
  let rep := { rep with seq := n, phase := s.phase64 }
  let s := s.addSat (rk rWATCH 7 (0x600 + 4 * rep.src)) 31 0 1
  let s := { s with log := { s.log with seq := Sparse.set (fun _ => 0) s.log.seq rep.src (n + 1) } }
  if s.log.input.length < 64 then { s with log := { s.log with input := s.log.input ++ [rep] } }
  else s.dropReport rep

/-- What a report of an event may carry beside its code (R547). -/
structure Ev where
  itag : Itag := 0
  inj : Bool := false
  detail : DWord := 0
  queue : Nat := 0xFFFF
  index : Nat := 0
  /-- the event's chapter calls for a record at every occurrence, not only when the bit sets -/
  always : Bool := false
  deriving DecidableEq, Repr

/-- Set BLK_ESTAT bit `b` of region `r`: raise the error interrupt unless masked (R95), capture BLK_EFIRST while its
VALID is 0 (R97), and send a Night Log report when the bit goes from 0 to 1 or the event always calls for one (R547). -/
def State.raise (s : State) (r b : Nat) (e : Ev := {}) : State :=
  let was := s.flag (kESTAT r) b
  let s1 := s.setFlag (kESTAT r) b true
  let s2 := if s.flag (kEMASK r) b then s1
    else if was then s1 else { s1 with out := .errorIrq r :: s1.out }
  let s3 := if was || s2.flag (kEFIRST r) 5 then s2
    else s2.wr (kEFIRST r) (BitVec.ofNat 32 (b + 32 + e.itag.toNat * 64))
  if was && !e.always then s3
  else s3.report { src := r, code := b, inj := e.inj, itag := e.itag, detail := e.detail, queue := e.queue, index := e.index }

/-- A record of an event that sets no BLK_ESTAT bit: CODE 31, with the counter in which it counts (R547). -/
def State.eventRecord (s : State) (r : Nat) (ecnt : Nat := 0xF) (e : Ev := {}) : State :=
  s.report { src := r, code := 31, inj := e.inj, itag := e.itag, ecnt := ecnt, detail := e.detail, queue := e.queue, index := e.index }

/-- A write broke a stated limit and was refused (R90, R91). -/
def State.cfgErr (s : State) (r : Nat) (t : Itag := 0) : State := s.raise r 0 { itag := t }

/-- The block that reports in a block's stead: FWL when the block's domain is off or held (R718). -/
def State.reporter (s : State) (r : Nat) : Nat := if s.pdDown (regionPd r) then rFWL else r

/-- Draw the next free value's index. -/
def State.draw (s : State) : Nat × State := (s.free, { s with free := s.free + 1 })

/-- Is a BLK_EINJ bit armed? -/
def State.injArmed (s : State) (r b : Nat) : Bool := s.flag (kEINJ r) b

/-- An injection has acted: its bit clears. -/
def State.injDone (s : State) (r b : Nat) : State := s.setFlag (kEINJ r) b false

/-- Report a cause to the safe-state controller; SAFE_CAUSE acts on it within 2 µs (R575). -/
def State.postCause (s : State) (num : Nat) (island : Bool) (act : Option Nat := none) (inj : Bool := false) : State :=
  { s with watch := { s.watch with causes := s.watch.causes ++ [Cause.mk num island act inj] } }

/-- Test rights for region r (R555). -/
def State.testRights (s : State) (r : Nat) : Bool :=
  if r < 32 then s.flag (rk rWATCH 6 0x100) r else s.flag (rk rWATCH 6 0x104) (r - 32)

end Sys2Proof.Machine
end

