-- ==== Sys2Proof/Machine/Mem.lean ====
section
/-! DEFINITION. Memory: where each byte lies (R204, R205, R214, R215, R218, R219), parity and reconstruction (R220, R222,
R224), uncorrectable code words (R226, R527, R528), and reading and writing runs of bytes.

A byte's key is its system address for the Plate Stores, the Archive window and the Clock Drive SRAM; LPDDR5X, HBM3E,
the NOR flash and the tile slots of borrowed objects have key ranges of their own above the 44-bit system addresses. -/

namespace Sys2Proof.Machine

def lpKey (a : Nat) : Nat := 2 ^ 50 + a
def hbmKey (pc off : Nat) : Nat := 2 ^ 51 + 2 ^ 30 * pc + off
def flashKey (a : Nat) : Nat := 2 ^ 52 + a
def slotKey (handle off : Nat) : Nat := 2 ^ 62 + 2 ^ 44 * handle + off

/-- First byte of the code word that holds a byte, and its length: 32 bytes in HBM3E and LPDDR5X, 8 elsewhere (R226). -/
def wordLen (k : Nat) : Nat := if 2 ^ 50 ≤ k ∧ k < 2 ^ 52 then 32 else 8
def wordStart (k : Nat) : Nat := k / wordLen k * wordLen k

/-- The stored byte at a key, whatever its check bits say. -/
def State.raw (s : State) (k : Nat) : Byte := Sparse.get memReset s.mem k

/-- The byte at a key, unless its code word is uncorrectable (R527). -/
def State.readKey (s : State) (k : Nat) : Option Byte :=
  if s.badWords.contains (wordStart k) then none else some (s.raw k)

/-- Store a byte at a key; nothing in an uncorrectable code word changes (R528). -/
def State.writeKey (s : State) (k : Nat) (b : Byte) : Option State :=
  if s.badWords.contains (wordStart k) then none else some { s with mem := Sparse.set memReset s.mem k b }

/-- Health of pseudo-channel i (R218, R223): 0 GOOD, 1 SUSPECT, 2 LOST. -/
def kPcState (pc : Nat) : Nat := rk (rHBM0 + pc / 32) 1 (0x100 + 4 * (pc % 32 / 16))
def State.pcState (s : State) (pc : Nat) : Nat := s.fld (kPcState pc) (2 * (pc % 16) + 1) (2 * (pc % 16))
def State.setPcState (s : State) (pc v : Nat) : State := s.setFld (kPcState pc) (2 * (pc % 16) + 1) (2 * (pc % 16)) v

/-- An object-table entry (R214). -/
structure Obj where
  handle : Nat
  cls : Nat
  valid : Bool
  hold : Bool
  res : Bool
  tenant : Nat
  dome : Nat
  tslot : Nat
  g0 : Nat
  size : Nat
  loc : Nat
  sysbase : Nat
  home : Nat
  reservedSet : Bool
  deriving DecidableEq, Repr

/-- Decode the 64 bytes of an entry. -/
def Obj.ofBytes (h : Nat) (bs : List Byte) : Obj :=
  let w := fun (o n : Nat) => leNat ((bs.drop o).take n)
  let w0 := w 0 4
  let w1 := w 4 4
  { handle := h, cls := bitsOf w0 2 0, valid := bitOf w0 3, hold := bitOf w0 4, res := bitOf w0 5,
    tenant := bitsOf w0 11 8, dome := bitsOf w0 14 12, tslot := bitsOf w1 5 0, g0 := bitsOf w1 9 6,
    size := w 8 8, loc := w 0x10 8, sysbase := w 0x18 8, home := bitsOf (w 0x20 4) 15 0,
    reservedSet := bitsOf w0 7 6 != 0 || bitsOf w0 31 15 != 0 || bitsOf w1 31 10 != 0 || bitsOf (w 0x20 4) 31 16 != 0 ||
      w 0x24 0x1C != 0 }

/-- The object table's own address (R213). -/
def State.objTab (s : State) : Nat := s.rd64 (rk rTRANSIT 1 0x100)
def State.objMax (s : State) : Nat := s.fld (rk rTRANSIT 1 0x108) 15 0

/-- Where a byte of the object table lies: an aperture address is taken as the LPDDR5X byte at its offset from the
aperture's base, since no table entry can be consulted to find the table itself (log 5). -/
def tableKey (a : Nat) : Nat := if 0x4000000000 ≤ a ∧ a < 0x8000000000 then lpKey (a % 0x4000000000) else a

/-- The table entry of a handle; `none` when its bytes are uncorrectable. -/
def State.objEntry (s : State) (h : Nat) : Option Obj :=
  let bs := (List.range 64).map (fun i => s.readKey (tableKey (s.objTab + h * 64 + i)))
  if bs.all Option.isSome then some (Obj.ofBytes h (bs.filterMap id)) else none

/-- Is the entry well formed for an operation that names it (R216, but for the range)? -/
def State.objOk (s : State) (o : Obj) : Bool :=
  o.valid && decide (o.cls ≤ 4) && !o.reservedSet &&
  (o.cls != 1 || (decide (1 ≤ o.tslot) && decide (o.tslot ≤ 34))) &&
  (o.cls != 1 || o.hold ||
    (match s.objEntry o.home with
     | some h => h.valid && decide (2 ≤ h.cls) && decide (h.cls ≤ 4) && decide (o.home ≤ s.objMax)
     | none => false)) &&
  (!(o.cls == 2 || o.cls == 3) || (decide (o.g0 ≤ 11) && o.loc % 256 == 0))

/-- Row, member and pseudo-channel arithmetic of R219. -/
def unitsPerRow (cls : Nat) : Nat := if cls = 2 then 15 else 16
def rowOf (cls off : Nat) : Nat := off / 256 / unitsPerRow cls
def memberOf (cls row k : Nat) : Nat := if cls = 2 then (if k < row % 16 then k else k + 1) else k
def pcOf (g0 row m : Nat) : Nat := 12 * m + (g0 + row) % 12
def pcOff (pcbase row col : Nat) : Nat := pcbase + row / 12 * 256 + col

/-- The byte of member `m` of a stripe row, unless its pseudo-channel is LOST or its code word uncorrectable. -/
def State.memberByte (s : State) (o : Obj) (row m col : Nat) : Option Byte :=
  let pc := pcOf o.g0 row m
  if s.pcState pc = 2 then none else s.readKey (hbmKey pc (pcOff o.loc row col))

/-- Exclusive-or of the other 15 members of a P2 row (R220, R224); `none` when a second member is missing too. -/
def State.rebuild (s : State) (o : Obj) (row m col : Nat) : Option Byte :=
  (List.range 16).foldl
    (fun acc j => if j = m then acc else
      match acc, s.memberByte o row j col with
      | some a, some b => some (a ^^^ b)
      | _, _ => none) (some 0#8)

/-- A byte that was read, and whether it was reconstructed from parity. -/
structure Got where
  byte : Byte
  recon : Bool := false
  deriving DecidableEq, Repr

/-- Read data position `k` of a P2 row, rebuilding it from parity where its own unit is missing (R224, R228). -/
def State.p2Data (s : State) (o : Obj) (row k col : Nat) : Option Got :=
  let m := memberOf 2 row k
  match s.memberByte o row m col with
  | some b => some { byte := b }
  | none => (s.rebuild o row m col).map (fun b => { byte := b, recon := true })

/-- Is a tile slot of a borrowed object resident (R231)? -/
def State.residentSlot (s : State) (h sl : Nat) : Option Slot :=
  s.plate.slots.find? (fun x => x.handle == h && x.slot == sl)

/-- Read one byte of an object (R215, R219). A borrowed object's byte comes from its resident slot, else from HOME
(R233). -/
def State.objByte (s : State) (o : Obj) (off : Nat) : Option Got :=
  let direct (o : Obj) : Option Got :=
    if o.cls = 2 then s.p2Data o (rowOf 2 off) (off / 256 % 15) (off % 256)
    else if o.cls = 3 then
      (s.memberByte o (rowOf 3 off) (off / 256 % 16) (off % 256)).map (fun b => { byte := b })
    else if o.cls = 4 then (s.readKey (lpKey (o.loc + off))).map (fun b => { byte := b })
    else (s.readKey (o.loc + off)).map (fun b => { byte := b })
  if o.cls = 1 ∧ o.hold = false then
    match s.residentSlot o.handle (off / (4096 * o.tslot)) with
    | some _ => (s.readKey (slotKey o.handle off)).map (fun b => { byte := b })
    | none => (s.objEntry o.home).bind direct
  else direct o

/-- Store one byte of an object. A P2 byte also updates the row's parity over all 15 data units, and a unit on a LOST
pseudo-channel is left out (R222, R224). -/
def State.objPut (s : State) (o : Obj) (off : Nat) (v : Byte) : Option State :=
  let direct (s : State) (o : Obj) : Option State :=
    if o.cls = 2 then
      let row := rowOf 2 off
      let k := off / 256 % 15
      let col := off % 256
      let parity := (List.range 15).foldl
        (fun acc j =>
          match acc, (if j = k then some v else (s.p2Data o row j col).map Got.byte) with
          | some a, some b => some (a ^^^ b)
          | _, _ => none) (some 0#8)
      match parity with
      | none => none
      | some p =>
        let put (s : State) (m : Nat) (b : Byte) : Option State :=
          if s.pcState (pcOf o.g0 row m) = 2 then some s
          else s.writeKey (hbmKey (pcOf o.g0 row m) (pcOff o.loc row col)) b
        (put s (memberOf 2 row k) v).bind (fun s => put s (row % 16) p)
    else if o.cls = 3 then
      let row := rowOf 3 off
      let pc := pcOf o.g0 row (off / 256 % 16)
      if s.pcState pc = 2 then none else s.writeKey (hbmKey pc (pcOff o.loc row (off % 256))) v
    else if o.cls = 4 then s.writeKey (lpKey (o.loc + off)) v
    else s.writeKey (o.loc + off) v
  if o.cls = 1 ∧ o.hold = false then
    match s.residentSlot o.handle (off / (4096 * o.tslot)) with
    | some _ => s.writeKey (slotKey o.handle off) v
    | none => (s.objEntry o.home).bind (direct s)
  else direct s o

/-- The keys an object's byte is stored under (its own, not the parity's): used to find which code words a write replaces
whole. -/
def State.objKey (s : State) (o : Obj) (off : Nat) : Nat :=
  let direct (o : Obj) : Nat :=
    if o.cls = 2 then
      let row := rowOf 2 off
      hbmKey (pcOf o.g0 row (memberOf 2 row (off / 256 % 15))) (pcOff o.loc row (off % 256))
    else if o.cls = 3 then
      let row := rowOf 3 off
      hbmKey (pcOf o.g0 row (off / 256 % 16)) (pcOff o.loc row (off % 256))
    else if o.cls = 4 then lpKey (o.loc + off) else o.loc + off
  if o.cls = 1 ∧ o.hold = false then
    match s.residentSlot o.handle (off / (4096 * o.tslot)) with
    | some _ => slotKey o.handle off
    | none => match s.objEntry o.home with | some h => direct h | none => slotKey o.handle off
  else direct o

/-- A write that replaces every byte of a failing code word makes it good again (R527). -/
def State.heal (s : State) (keys : List Nat) : State :=
  { s with badWords := s.badWords.filter (fun w => !(List.range (wordLen w)).all (fun i => keys.contains (w + i))) }

/-- Where a system address lies (R84, R205, R474). -/
inductive Site where
  | regs (key : Nat)
  | plate (dome key : Nat)
  | plateHole (dome : Nat)
  | line (key : Nat)
  | lineUnmapped
  | drive (off : Nat)
  | obj (o : Obj) (off : Nat)
  | nowhere
  deriving DecidableEq, Repr

/-- The object an aperture address belongs to: the one of lowest handle (R205). -/
def State.apertureObj (s : State) (a : Nat) : Option Obj :=
  (List.range (s.objMax + 1)).findSome? (fun h =>
    match s.objEntry h with
    | some o => if o.valid && decide (2 ≤ o.cls) && decide (o.cls ≤ 4) && decide (o.sysbase ≤ a) && decide (a < o.sysbase + o.size)
        then some o else none
    | none => none)

/-- Classify a system address. Every window is aligned to its size, so an offset in it is a remainder. -/
def State.site (s : State) (a : Nat) : Site :=
  if 0x00F0000000 ≤ a ∧ a < 0x00F0400000 then .regs (a % 0x400000)
  else if 0x00E0000000 ≤ a ∧ a < 0x00F0000000 then
    let d := a % 0x10000000 / 0x02000000
    if a % 0x02000000 < 0x01800000 then .plate d a else .plateHole d
  else if 0x00D0000000 ≤ a ∧ a < 0x00E0000000 then
    if Sparse.get (fun _ => 0) s.plate.lines (a / 4096) = 0 then .lineUnmapped else .line a
  else if 0x00C0000000 ≤ a ∧ a < 0x00C0800000 then .drive (a % 0x800000)
  else if 0x4000000000 ≤ a ∧ a < 0x8000000000 then
    match s.apertureObj a with
    | some o => .obj o (a - o.sysbase)
    | none => .nowhere
  else .nowhere

/-- The plan buffers under the RXP and RXF apertures (R475), as DRIVE_PLANSTAT shows them. -/
def kPLANSTAT : Nat := rk rDRIVE 1 0x100

/-- The key of a Clock Drive SRAM byte: the RXP and RXF apertures map onto plan buffers (R475). -/
def State.driveKey (s : State) (off : Nat) : Nat :=
  if 0x240000 ≤ off ∧ off < 0x250000 then 0x00C0200000 + 0x10000 * s.fld kPLANSTAT 5 4 + off % 0x10000
  else if 0x250000 ≤ off ∧ off < 0x260000 then 0x00C0200000 + 0x10000 * s.fld kPLANSTAT 7 6 + off % 0x10000
  else 0x00C0000000 + off

/-- Read the byte at a site; `none` when it is uncorrectable. Register space and holes read nothing here. -/
def State.siteByte (s : State) : Site → Option Got
  | .plate _ k => (s.readKey k).map (fun b => { byte := b })
  | .line k => (s.readKey k).map (fun b => { byte := b })
  | .drive off => (s.readKey (s.driveKey off)).map (fun b => { byte := b })
  | .obj o off => s.objByte o off
  | _ => none

/-- Store a byte at a site. -/
def State.sitePut (s : State) (x : Site) (v : Byte) : Option State :=
  match x with
  | .plate _ k => s.writeKey k v
  | .line k => s.writeKey k v
  | .drive off => s.writeKey (s.driveKey off) v
  | .obj o off => s.objPut o off v
  | _ => none

/-- The key a site's byte is stored under. -/
def State.siteKey (s : State) : Site → Nat
  | .plate _ k => k
  | .line k => k
  | .drive off => s.driveKey off
  | .obj o off => s.objKey o off
  | .regs k => 0x00F0000000 + k
  | _ => 0

/-- Read `n` bytes from a system address; `none` when one of them is uncorrectable. -/
def State.readSys (s : State) (a n : Nat) : Option (List Byte) :=
  (List.range n).foldr (fun i acc =>
    match s.siteByte (s.site (a + i)), acc with
    | some g, some r => some (g.byte :: r)
    | _, _ => none) (some [])

/-- Write bytes one after another through `put`, after healing the code words the write replaces whole. Answers the state
and whether every byte could be written. -/
def writeRun (put : State → Nat → Byte → Option State) : State → Nat → List Byte → State × Bool
  | s, _, [] => (s, true)
  | s, i, b :: rest =>
    match put s i b with
    | some s' => writeRun put s' (i + 1) rest
    | none => (s, false)

/-- Write bytes from a system address on. -/
def State.writeSys (s : State) (a : Nat) (bs : List Byte) : State × Bool :=
  let s := s.heal ((List.range bs.length).map (fun i => s.siteKey (s.site (a + i))))
  writeRun (fun s i b => s.sitePut (s.site (a + i)) b) s 0 bs

/-- Read `n` bytes of an object. The flag says whether a byte was reconstructed. -/
def State.readObj (s : State) (o : Obj) (off n : Nat) : Option (List Byte × Bool) :=
  (List.range n).foldr (fun i acc =>
    match s.objByte o (off + i), acc with
    | some g, some (r, f) => some (g.byte :: r, f || g.recon)
    | _, _ => none) (some ([], false))

/-- Write bytes of an object. -/
def State.writeObj (s : State) (o : Obj) (off : Nat) (bs : List Byte) : State × Bool :=
  let s := s.heal ((List.range bs.length).map (fun i => s.objKey o (off + i)))
  writeRun (fun s i b => s.objPut o (off + i) b) s 0 bs

/-- Fill a run of keys with bytes the spec leaves unspecified (R186, R526, R579). -/
def State.scramble (s : State) (keys : List Nat) : State :=
  keys.foldl (fun s k =>
    let (n, s) := s.draw
    { s with mem := Sparse.set memReset s.mem k (Config.freeByte n) }) s

end Sys2Proof.Machine
end

