-- ==== Sys2Proof/Machine/Ops.lean ====
section
/-! DEFINITION. The shared operations over registers, memory and initiators: the protocol and firewall checks of a
transaction (R525, R564–R568, R718), what a violation does and what a freeze stops (R533–R539), and checked reads and
writes of memory by the module's own engines. -/

namespace Sys2Proof.Machine

/-! ### Queues as a map -/

def qKey (region q : Nat) : Nat := 4096 * region + q
def State.queue (s : State) (region q : Nat) : Queue := Sparse.get (fun _ => {}) s.queues (qKey region q)
def State.setQueue (s : State) (region q : Nat) (x : Queue) : State :=
  { s with queues := Sparse.set (fun _ => {}) s.queues (qKey region q) x }

/-- The ITAG that carries a queue's operations (R29, R31): one per block, one per Transit queue. The scheduler reads and
writes on its builder's Transit queue (R345); Linkous on link 0's tag. DRIVE works in its own SRAM and SEC in its own
domain, and neither has an ITAG for it: their accesses are internal (log 21). -/
def State.queueItag (s : State) (region q : Nat) : Option Itag :=
  if region < 8 then some (BitVec.ofNat 12 (0x40 + region))
  else if region = rTRANSIT then some (s.queue region q).itag
  else if region = rSCHED then some (BitVec.ofNat 12 (0x400 + s.fld (rk rSCHED 1 0x100) 9 0))
  else if region = rSOLV then some 0x48 else if region = rOCC then some 0x49 else if region = rAFU then some 0x4A
  else if region = rLNK then some 0x70 else none

/-! ### Checks -/

/-- The verdict of a check: passed, violation reported by `block` with BLK_ESTAT bit `bit` (3 FW_VIOL, 4 PROT_VIOL), or
refused because the two checkers disagreed (R568). -/
inductive Verdict where
  | pass
  | violation (block bit : Nat)
  | mismatch
  deriving DecidableEq, Repr

def State.fwDesc (s : State) (target i : Nat) : FwDesc := Sparse.get (fun _ => {}) s.fwl.desc (target * 64 + i)

/-- Is the descriptor in force? One with an uncorrectable word counts as EN 0 (R568). -/
def State.fwEn (s : State) (target i : Nat) : Bool := (s.fwDesc target i).en && !s.fwl.bad.contains (target * 64 + i)

/-- Does a descriptor let ITAG `t` reach address `a` (R566)? -/
def FwDesc.permits (d : FwDesc) (t a : Nat) (write : Bool) : Bool :=
  decide (d.base.toNat ≤ bitsOf a 43 12) && decide (bitsOf a 43 12 ≤ d.last.toNat) &&
  (Nat.land t d.imask == Nat.land d.itag d.imask) && (if write then d.wr else d.rd)

/-- The descriptors of a target, without injection (R566). -/
def State.fwPermits (s : State) (target t a : Nat) (write : Bool) : Bool :=
  (List.range 64).any (fun i => s.fwEn target i && (s.fwDesc target i).permits t a write)

/-- The check at a firewall target, with FWL's injections for it (R588): a corrected or an uncorrectable word in the
lowest descriptor in force, or checkers that disagree. -/
def State.fwCheck (s : State) (target : Nat) (t : Itag) (a : Nat) (write : Bool) : Bool × Bool × State :=
  let sel := s.fld (kEINJ rFWL) 8 3 == target
  let low := (List.range 64).find? (fun i => s.fwEn target i)
  let s := if sel && s.injArmed rFWL 0 then
      match low with
      | some i => ((s.injDone rFWL 0).count rFWL 0).raise rFWL 1 { inj := true, detail := BitVec.ofNat 64 target, index := i }
      | none => s.injDone rFWL 0
    else s
  let s := if sel && s.injArmed rFWL 1 then
      match low with
      | some i =>
        let s := (s.injDone rFWL 1).count rFWL 1
        ({ s with fwl := { s.fwl with bad := (target * 64 + i) :: s.fwl.bad } }).raise rFWL 17
          { inj := true, detail := BitVec.ofNat 64 target, index := i }
      | none => s.injDone rFWL 1
    else s
  if sel && s.injArmed rFWL 2 then
    (false, true, ((s.injDone rFWL 2).count rFWL 2).raise rFWL 16 { itag := t, inj := true, detail := BitVec.ofNat 64 a })
  else (s.fwPermits target t.toNat a write, false, s)

/-- The Clock Drive SRAM table of R474. -/
def State.driveAllows (s : State) (t off : Nat) (write : Bool) : Bool :=
  let own := t == s.owner rDRIVE
  let boss := own || isPair t
  if off < 0x200000 then boss
  else if off < 0x240000 then !write && boss
  else if off < 0x260000 then t == 0x49 || (!write && own)
  else if off < 0x260040 then t == 0x49 || (!write && own)
  else if 0x270000 ≤ off ∧ off < 0x278000 then
    if off % 0x200 < 0x100 then !write && boss
    else if off % 0x200 < 0x140 then boss else false
  else if 0x280000 ≤ off ∧ off < 0x300000 then boss
  else if 0x300000 ≤ off ∧ off < 0x500000 then !write && boss
  else false

/-- The stack whose pseudo-channel holds a byte of a P2 or P3 object (R218, R219). -/
def stackOf (o : Obj) (off : Nat) : Nat :=
  let row := rowOf o.cls off
  let k := off / 256 % unitsPerRow o.cls
  pcOf o.g0 row (memberOf o.cls row k) / 32

/-- The power domain a site lies in. -/
def sitePd : Site → Nat
  | .regs k => regionPd (rkRegion k)
  | .plate d _ => 4 + d
  | .plateHole d => 4 + d
  | .line _ => 12
  | .lineUnmapped => 12
  | .drive _ => 1
  | .obj o off => if o.cls = 4 then 20 else 14 + stackOf o off
  | .nowhere => 0

/-- The region that reports for a site (R718). -/
def siteBlock : Site → Nat
  | .regs k => if rkRegion k < 40 then rkRegion k else rFWL
  | .plate _ _ => rPLATE
  | .plateHole _ => rPLATE
  | .line _ => rPLATE
  | .lineUnmapped => rPLATE
  | .drive _ => rDRIVE
  | .obj o off => if o.cls = 4 then rLPDDR else rHBM0 + stackOf o off
  | .nowhere => rFWL

/-- The protocol checks on the ITAG carried (R525), reported by FWL (R718). -/
def itagVerdict (i : Initiator) : Verdict :=
  if itagAllocated i.itag.toNat && i.owns && i.inService then .pass else .violation rFWL 4

/-- The firewall's verdict on one address (R564–R568, R718). -/
def State.checkSite (s : State) (t : Itag) (a : Nat) (x : Site) (write : Bool) : Verdict × State :=
  let viaTarget (target : Nat) : Verdict × State :=
    match s.fwCheck target t a write with
    | (_, true, s) => (.mismatch, s)
    | (true, false, s) => (.pass, s)
    | (false, false, s) => (.violation (siteBlock x) 3, s)
  match x with
  | .regs k =>
    if 40 ≤ rkRegion k then (.violation rFWL 3, s)
    else if pageExists (rkRegion k) (rkPage k) then viaTarget (rkRegion k)
    else (.violation (rkRegion k) 3, s)
  | .plate d _ => viaTarget (47 + d)
  | .plateHole _ => (.violation rPLATE 3, s)
  | .line _ => viaTarget 55
  | .lineUnmapped => (.violation rPLATE 3, s)
  | .drive off => if s.driveAllows t.toNat off write then (.pass, s) else (.violation rDRIVE 3, s)
  | .obj o off => if o.cls = 4 then viaTarget 46 else viaTarget (40 + stackOf o off)
  | .nowhere => (.violation rFWL 3, s)

/-! ### Violations and freezes -/

/-- The frozen ITAGs of a home block. -/
def State.frozenOf (s : State) (home : Nat) : List Itag := s.frozen.filter (fun t => homeBlock t.toNat == some home)

/-- Refresh the BLK_FRZ and BLK_STAT mirrors of a home block. -/
def State.showFrozen (s : State) (home : Nat) : State :=
  let n := (s.frozenOf home).length
  ((s.setFld (kFRZ home) 23 16 n).setFlag (kFRZ home) 14 (n != 0)).setFlag (kSTAT home) 4 (n != 0)

/-- What a freeze makes of the operations of one queue (R535). `viol` is the violating operation's index when it is on
this queue. Operations kept without a status still complete; their transactions pass. -/
def freezeOps (viol : Option Nat) : Bool → List Op → List Op
  | _, [] => []
  | cut, op :: rest =>
    if op.status.isSome then op :: freezeOps viol cut rest
    else
      match viol with
      | some v =>
        if op.index = v then { op with status := some 0x12 } :: freezeOps none false rest
        else op :: freezeOps viol cut rest
      | none =>
        if op.issued && !cut then op :: freezeOps none cut rest
        else if cut then freezeOps none true rest
        else { op with status := some 0x13 } :: freezeOps none true rest

/-- On the violating operation's queue everything before it stays; what follows it is discarded whether or not it had
issued its transactions. -/
def freezeViolating (v : Nat) (ops : List Op) : List Op :=
  freezeOps (some v) false (ops.map (fun op => if op.index = v then op else { op with issued := false }))

/-- Every queue of an ITAG enters FROZEN (R535). -/
def State.freezeQueues (s : State) (t : Itag) (viol : Option (Nat × Nat × Nat)) : State :=
  s.queues.foldl (fun acc e =>
    let region := e.1 / 4096
    let q := e.1 % 4096
    if acc.queueItag region q = some t ∧ e.2.state ≠ .disabled then
      let ops := match viol with
        | some (r, qq, i) => if r = region ∧ qq = q then freezeViolating i e.2.ops else freezeOps none false e.2.ops
        | none => freezeOps none false e.2.ops
      acc.setQueue region q { e.2 with state := .frozen, ops := ops }
    else acc) s

/-- The state register of a loop (R507). -/
def kLSTAT (l : Nat) : Nat := rk rDRIVE 2 (0x200 + 4 * l)

/-- A loop enters FAULT: counted, flagged and recorded with its name (R479, R483). -/
def State.faultLoop (s : State) (l : Nat) (inj : Bool := false) : State :=
  ((s.setFld (kLSTAT l) 1 0 2).count rDRIVE 5).raise rDRIVE 16 { always := true, inj := inj, index := l }

/-- The logical core of a loop, in its active descriptor (R477). -/
def State.loopCore (s : State) (l : Nat) : Nat := (s.raw (0x00C0000000 + 0x8000 * l + 4)).toNat % 4

/-- Every loop in RUN on a logical drive core enters FAULT (R503, R539). -/
def State.faultCore (s : State) (core : Nat) : State :=
  (List.range 64).foldl (fun s l => if s.fld (kLSTAT l) 1 0 = 1 ∧ s.loopCore l = core then s.faultLoop l else s) s

/-- Freeze an ITAG in its home block (R533, R534, R539). A second offence while frozen only cancels an unfreeze armed for
it (R100, R541). -/
def State.freeze (s : State) (t : Itag) (viol : Option (Nat × Nat × Nat) := none) : State :=
  match homeBlock t.toNat with
  | none => s
  | some home =>
    if s.frozen.contains t then
      match Sparse.get (fun _ => none) s.armed home with
      | some a =>
        if a.named = t then
          (({ s with armed := Sparse.set (fun _ => none) s.armed home none }).setFlag (kFRZ home) 15 false).cfgErr home t
        else s
      | none => s
    else
      let s := { s with frozen := t :: s.frozen }
      let s := (s.showFrozen home).setFld (kFRZ home) 11 0 t.toNat
      let s := s.raise home 5 { itag := t, always := true }
      let s := s.freezeQueues t viol
      if 0x10 ≤ t.toNat ∧ t.toNat ≤ 0x13 then s.faultCore (t.toNat - 0x10) else s

/-- A transaction failed a check: it is discarded, the block that reports sets its flag and captures the ITAG, and the
initiator is frozen, but for the Night Watch pairs and ITAGs that no initiator owns (R534, R538, R718). -/
def State.violate (s : State) (t : Itag) (block bit addr : Nat) (viol : Option (Nat × Nat × Nat) := none) : State :=
  let b := s.reporter block
  let s := s.raise b bit { itag := t, detail := BitVec.ofNat 64 addr, always := true }
  let s := if bit = 3 then s.count rFWL 3 else s
  s.freeze t viol

/-! ### Engine transactions -/

/-- How a read or write that an engine of the module makes can end. -/
inductive Tx (α : Type) where
  | ok (v : α)
  | firewall          -- refused by a check (the initiator is frozen unless the checkers disagreed)
  | error             -- error response (R89)
  | uncorrectable
  deriving DecidableEq, Repr

/-- Put a power domain into a state; its clocks run while one of the domains they serve is up (R593). -/
def kCD (cd : Nat) : Nat := rk rPWR 3 (0x100 + 4 * cd)
def State.setPd (s : State) (pd st : Nat) : State :=
  let s := s.setFld (kPdStat pd) 2 0 st
  (pdCds pd).foldl (fun s cd =>
    s.setFlag (kCD cd) 0 ((cdPds cd).any (fun p => s.pdState p == 0 || s.pdState p == 5) || decide (cd < 4))) s

/-- A domain is in use now: it is idle from here at the earliest (R594). -/
def State.touch (s : State) (pd : Nat) : State :=
  if isMainPd pd then { s with pwr := { s.pwr with idleFrom := Sparse.set (fun _ => 0) s.pwr.idleFrom pd s.now } } else s

/-- Start a domain's exit from CLKGATED, RETENTION or OFF, which takes `lat` ns (R595). -/
def State.startExit (s : State) (pd lat : Nat) : State :=
  let st := s.pdState pd
  let s : State := { s with pwr := { s.pwr with
    wakeAt := Sparse.set (fun _ => none) s.pwr.wakeAt pd (some (s.now + lat)),
    wakeFrom := Sparse.set (fun _ => 0) s.pwr.wakeFrom pd st } }
  s.setPd pd 5

/-- Demand on a domain, by an access or a release: the exit of a clock-gated or retained domain starts (R88, R595). -/
def State.demandPd (s : State) (pd : Nat) : State :=
  let s := s.touch pd
  let st := s.pdState pd
  if st = 1 then s.startExit pd 200 else if st = 2 then s.startExit pd 40000 else s

/-- The addresses of a run at which the check can differ: its first byte and every later multiple of 256 (R219). -/
def checkPoints (a n : Nat) : List Nat :=
  a :: ((List.range (n / 256 + 1)).map (fun i => (a / 256 + 1 + i) * 256)).filter (fun x => x < a + n)

/-- Check a run of addresses for an ITAG; the first refusal stops it. -/
def State.checkRun (s : State) (t : Itag) (write : Bool) (viol : Option (Nat × Nat × Nat)) :
    List Nat → Tx Unit × State
  | [] => (.ok (), s)
  | a :: rest =>
    let x := s.site a
    match s.checkSite t a x write with
    | (.pass, s) =>
      if s.pdDown (sitePd x) then (.error, s) else (s.demandPd (sitePd x)).checkRun t write viol rest
    | (.violation b bit, s) => (.firewall, s.violate t b bit a viol)
    | (.mismatch, s) => (.firewall, s)

/-- Injected memory errors met by a read at a site (R249): whether it sees an uncorrectable error, and the state. A P2 unit
is rebuilt from parity (R228). -/
def State.memInject (s : State) (x : Site) : Bool × State :=
  let hit := fun (region : Nat) (sel : Bool) (s : State) =>
    if !sel then (false, s)
    else
      let s := if s.injArmed region 0 then ((s.injDone region 0).count region 0).raise region 1 { inj := true } else s
      if s.injArmed region 1 then (true, ((s.injDone region 1).count region 1).raise region 2 { inj := true }) else (false, s)
  match x with
  | .plate d k => hit rPLATE (s.fld (kEINJ rPLATE) 12 3 == d * 48 + k % 0x02000000 / 0x80000) s
  | .line k => hit rPLATE (s.fld (kEINJ rPLATE) 12 3 == 384 + Config.archiveBank (k / 4096) % 128) s
  | .obj o off =>
    if o.cls = 4 then
      let s := if s.injArmed rLPDDR 2 then ((s.injDone rLPDDR 2).count rLPDDR 2).raise rLPDDR 1 { inj := true } else s
      hit rLPDDR true s
    else
      let pc := pcOf o.g0 (rowOf o.cls off) (memberOf o.cls (rowOf o.cls off) (off / 256 % unitsPerRow o.cls))
      let sel := s.fld (kEINJ (rHBM0 + pc / 32)) 7 3 == pc % 32
      let s := if sel && s.injArmed (rHBM0 + pc / 32) 2 then s.injDone (rHBM0 + pc / 32) 2 else s
      let (ue, s) := hit (rHBM0 + pc / 32) sel s
      (ue && o.cls != 2, s)
  | _ => (false, s)

/-- Injections over a run of sites. -/
def State.memInjects (s : State) (xs : List Site) : Bool × State :=
  xs.foldl (fun acc x => let (ue, s) := acc.2.memInject x; (acc.1 || ue, s)) (false, s)

/-- An uncorrectable error met by a read counts in its tier and sets UNCORR (R226, R248). -/
def State.noteUncorr (s : State) (x : Site) : State :=
  let b := s.reporter (siteBlock x)
  (s.count (siteBlock x) 1).raise b 2

/-- A read by an engine. `t = none` is an access inside the block's own storage, which no firewall guards. `viol` names
the operation that makes it. -/
def State.txRead (s : State) (t : Option Itag) (a n : Nat) (viol : Option (Nat × Nat × Nat) := none) :
    Tx (List Byte) × State :=
  let checked := match t with
    | none => (Tx.ok (), s)
    | some t => s.checkRun t false viol (checkPoints a n)
  match checked with
  | (.ok (), s) =>
    let (ue, s) := s.memInjects ((checkPoints a n).map s.site)
    if ue then (.uncorrectable, s)
    else
      match s.readSys a n with
      | some bs => (.ok bs, s)
      | none => (.uncorrectable, s.noteUncorr (s.site a))
  | (.firewall, s) => (.firewall, s)
  | (.error, s) => (.error, s)
  | (.uncorrectable, s) => (.uncorrectable, s)

/-- A write by an engine. -/
def State.txWrite (s : State) (t : Option Itag) (a : Nat) (bs : List Byte) (viol : Option (Nat × Nat × Nat) := none) :
    Tx Unit × State :=
  let checked := match t with
    | none => (Tx.ok (), s)
    | some t => s.checkRun t true viol (checkPoints a bs.length)
  match checked with
  | (.ok (), s) =>
    let (s, good) := s.writeSys a bs
    (if good then .ok () else .uncorrectable, s)
  | (.firewall, s) => (.firewall, s)
  | (.error, s) => (.error, s)
  | (.uncorrectable, s) => (.uncorrectable, s)

/-- The completion status that a failed transaction gives its operation (R116, R529). -/
def Tx.status {α : Type} : Tx α → Nat
  | .ok _ => 0
  | .firewall => 0x12
  | .error => 0x10
  | .uncorrectable => 0x10

end Sys2Proof.Machine
end

