-- ==== Sys2Proof/Machine/Operands.lean ====
section
/-! DEFINITION. Descriptors, queue contexts and completion records: their layouts and the checks on their form
(R101, R102, R113–R116), and which opcodes each block takes. -/

namespace Sys2Proof.Machine

/-- Status codes of R116. -/
def stDONE : Nat := 0x00
def stDONE_PREV : Nat := 0x01
def stDONE_DEGRADED : Nat := 0x02
def stERR_DATA : Nat := 0x10
def stERR_TIMEOUT_WCET : Nat := 0x11
def stERR_FIREWALL : Nat := 0x12
def stERR_FROZEN : Nat := 0x13
def stREJ_CAPACITY : Nat := 0x20
def stREJ_FORMAT : Nat := 0x21
def stREJ_LIMIT : Nat := 0x22
def stNUM_PIVOT : Nat := 0x30
def stNUM_OVERFLOW : Nat := 0x31
def stNUM_EMPTY : Nat := 0x32
def stMISS_DEADLINE : Nat := 0x40
def stNO_PATH : Nat := 0x41

/-- Does a status stop its queue (R116)? -/
def stops (st : Nat) : Bool := decide (0x10 ≤ st) && decide (st < 0x30)

/-- Word `i` of a descriptor. -/
def Op.word (o : Op) (i : Nat) : Word := o.words.getD i 0#32
/-- Operand at byte offset `off`, field hi:lo of its word. -/
def Op.fld (o : Op) (off hi lo : Nat) : Nat := fieldOf (o.word (off / 4)) hi lo
/-- 64-bit operand at byte offset `off`. -/
def Op.addr (o : Op) (off : Nat) : Nat := (o.word (off / 4)).toNat + 2 ^ 32 * (o.word (off / 4 + 1)).toNat

def Op.opcode (o : Op) : Nat := o.fld 0 7 0
def Op.publish (o : Op) : Bool := flagOf (o.word 0) 8
def Op.irq (o : Op) : Bool := flagOf (o.word 0) 9
def Op.dl (o : Op) : Bool := flagOf (o.word 0) 10
def Op.stepEnd (o : Op) : Bool := flagOf (o.word 0) 11
def Op.job (o : Op) : Nat := o.fld 0 31 16
def Op.step (o : Op) : Nat := (o.word 2).toNat

/-- Which opcodes a block's queue takes, and on which a deadline is allowed (R175, R176, R236, R330, R372, R420, R455,
R491, R647, R696). -/
def opcodeOk (region q opcode : Nat) (dl : Bool) : Bool :=
  if region < 8 then [1, 2, 3].contains opcode && !dl
  else if region = rTRANSIT then [1, 3, 4, 5].contains opcode && !dl
  else if region = rSCHED then
    if q = 0 then [1, 2, 3, 4, 5].contains opcode && !dl else opcode == 0x10 || (opcode == 3 && !dl)
  else if region = rSOLV then ([1, 2, 3].contains opcode && !dl) || opcode == 0x10
  else if region = rOCC then ([1, 2, 3, 0x11, 0x12].contains opcode && !dl) || opcode == 0x10
  else if region = rAFU then
    !dl && (opcode == 3 || (opcode == 1 && decide (q < 16)) || (opcode == 2 && decide (16 ≤ q)))
  else if region = rDRIVE then !dl && (opcode == 3 || (opcode == 1 && q == 0) || (opcode == 2 && q == 1))
  else if region = rSEC then [1, 2, 3].contains opcode && !dl
  else if region = rLNK then [1, 2, 3, 4, 5].contains opcode && !dl
  else false

/-- The checks of R113 and R114 on a descriptor's header. -/
def headerOk (region q : Nat) (o : Op) : Bool :=
  o.fld 0 15 12 == 0 && (!o.publish || region == rTRANSIT) && opcodeOk region q o.opcode o.dl

/-- Words of little-endian bytes. -/
def wordsOf : List Byte → List Word
  | a :: b :: c :: d :: rest => BitVec.ofNat 32 (leNat [a, b, c, d]) :: wordsOf rest
  | _ => []

/-- Bytes of words, little-endian. -/
def bytesOf (ws : List Word) : List Byte := ws.flatMap (fun w => leBytes 4 w.toNat)

/-- A queue context as R101 lays it out. -/
structure Context where
  ringBase : Nat
  cplBase : Nat
  sizeLog2 : Nat
  gated : Bool
  prio : Nat
  tenant : Nat
  itag : Nat
  vector : Nat
  reservedSet : Bool
  deriving DecidableEq, Repr

def Context.ofBytes (bs : List Byte) : Context :=
  let w := fun (o n : Nat) => leNat ((bs.drop o).take n)
  let a := w 0x10 4
  { ringBase := w 0 8, cplBase := w 8 8, sizeLog2 := bitsOf a 3 0, gated := bitOf a 4,
    prio := bitsOf a 7 5, tenant := bitsOf a 11 8, itag := bitsOf (w 0x14 4) 11 0, vector := w 0x18 2,
    reservedSet := bitsOf a 31 12 != 0 || bitsOf (w 0x14 4) 31 12 != 0 || w 0x1A 0x26 != 0 }

/-- A ring inside the Clock Drive's queue area (R476). -/
def inQueueArea (a n : Nat) : Bool := decide (0x00C0280000 ≤ a) && decide (a + n ≤ 0x00C0300000)

/-- The checks of R102 and R476 on a context. -/
def Context.ok (c : Context) (region : Nat) : Bool :=
  decide (4 ≤ c.sizeLog2) && c.ringBase % 64 == 0 && c.cplBase % 32 == 0 && !c.reservedSet &&
  (region != rTRANSIT || (decide (0x400 ≤ c.itag) && decide (c.itag ≤ 0x7FF))) &&
  (region != rDRIVE || (inQueueArea c.ringBase (64 * 2 ^ c.sizeLog2) && inQueueArea c.cplBase (32 * 2 ^ c.sizeLog2)))

/-- The 32-byte completion record of R115's table. -/
def recordBytes (q : Queue) (o : Op) (st : Nat) (phase : DWord) : List Byte :=
  let w0 := st + o.opcode * 2 ^ 8 + 2 ^ 16 * o.job
  let pass := if o.index / 2 ^ q.sizeLog2 % 2 = 0 then 1 else 0
  let w3 := o.index + 2 ^ 16 * pass + (if o.tcc then 2 ^ 17 else 0) + (if o.retried then 2 ^ 18 else 0)
  leBytes 4 w0 ++ leBytes 4 (o.word 1).toNat ++ leBytes 4 (o.word 2).toNat ++ leBytes 4 w3 ++ leBytes 8 phase.toNat ++
    leBytes 8 o.result.toNat

end Sys2Proof.Machine
end

