-- ==== Sys2Proof/Machine/Queue.lean ====
section
/-! DEFINITION. Work queues (R101–R118): release and validation of descriptors, completion records in index order, the
queue states, the QCMD commands, doorbells, quiesce, and the release of a freeze (R99, R100, R537). -/

namespace Sys2Proof.Machine

/-- Indices count modulo 65,536. -/
def idx (n : Nat) : Nat := n % 65536
def dist (a b : Nat) : Nat := (65536 + b - a % 65536) % 65536

def State.quiesced (s : State) (region : Nat) : Bool := s.flag (kCTRL region) 0

/-! ### Completion records -/

/-- Does a vector raise an interrupt (R682): a line of the application cluster, or an entry of a host function that is up? -/
def State.vectorRoute (s : State) (v : Nat) : Bool :=
  match v / 4096 with
  | 0 => true
  | 1 => s.flag (rk rPCIE 1 0x100) 7
  | 2 => s.flag (rk rUSB 1 0x104) 2
  | 3 => s.flag (rk rUSB 1 0x114) 2
  | _ => false

/-- Write one completion record, raise the vector of an IRQ descriptor once it is visible (R115). A refused record write
is a further offence of the ITAG and the record is not made visible. -/
def State.writeRecord (s : State) (region q : Nat) (o : Op) (st : Nat) : State :=
  let x := s.queue region q
  let bytes := recordBytes x o st s.phase64
  let a := x.cplBase + o.index % 2 ^ x.sizeLog2 * 32
  match s.txWrite (s.queueItag region q) a bytes with
  | (.ok _, s) => if o.irq && s.vectorRoute x.vector then { s with out := .vector region x.vector :: s.out } else s
  | (_, s) => s

/-- Write the records of the finished operations at the front of a queue, in index order (R17, R115), and stop the queue
at a stopping status (R107). `fuel` bounds the records. -/
def State.flushN (region q : Nat) : Nat → State → State
  | 0, s => s
  | fuel + 1, s =>
    let x := s.queue region q
    match x.ops with
    | [] =>
      if x.state = .draining then
        s.setQueue region q { x with state := .disabled, head := x.released, exec := x.released }
      else s
    | o :: rest =>
      match o.status with
      | none => s
      | some st =>
        let s := s.writeRecord region q o st
        let x : Queue := { s.queue region q with ops := rest, head := idx (o.index + 1) }
        if stops st ∧ x.state = .active then
          (s.setQueue region q { x with state := .stopped, ops := [], failed := (o.index, st) :: x.failed }).raise region 6
            { queue := q, index := o.index }
        else State.flushN region q fuel (s.setQueue region q x)

def State.flush (s : State) (region q : Nat) : State := State.flushN region q ((s.queue region q).ops.length + 1) s

/-- Flush every queue of an ITAG, in queue order (R534). -/
def State.flushItag (s : State) (t : Itag) : State :=
  s.queues.foldl (fun acc e =>
    if acc.queueItag (e.1 / 4096) (e.1 % 4096) = some t then acc.flush (e.1 / 4096) (e.1 % 4096) else acc) s

/-- A violation with everything that follows from it: the report, the freeze, and the records that the freeze calls for
(R534, R535). -/
def State.offend (s : State) (t : Itag) (block bit addr : Nat) : State := (s.violate t block bit addr).flushItag t

/-! ### Operations -/

/-- Change the operation of an index. -/
def State.mapOp (s : State) (region q index : Nat) (f : Op → Op) : State :=
  let x := s.queue region q
  s.setQueue region q { x with ops := x.ops.map (fun o => if o.index = index then f o else o) }

def State.findOp (s : State) (region q index : Nat) : Option Op :=
  (s.queue region q).ops.find? (fun o => o.index == index)

/-- The next operation a queue can start: the first released one not started, with no stopping status before it. -/
def nextToStart : List Op → Option Op
  | [] => none
  | o :: rest =>
    match o.status with
    | some st => if stops st then none else nextToStart rest
    | none => if o.started then nextToStart rest else some o

/-! ### Jobs -/

/-- The admitted job of a handle. -/
def State.jobBy (s : State) (job : Nat) : Option Job :=
  s.sched.jobs.findSome? (fun e => e.2.bind (fun j => if j.r.job = job then some j else none))

/-- Was the job admitted with its deterministic flag set (R153)? -/
def State.isDet (s : State) (job : Nat) : Bool := match s.jobBy job with | some j => j.r.det | none => false

/-- Is the queue held by a pre-emption of its job: a Transit queue from the request on (R356), a Dome queue from the start
of the save until the job is restored? -/
def State.queueHeld (s : State) (region q : Nat) : Bool :=
  s.sched.jobs.any (fun e =>
    match e.2 with
    | none => false
    | some j =>
      match j.pre with
      | none => false
      | some p =>
        (region == rTRANSIT && decide (j.r.tq ≤ q) && decide (q < j.r.tq + j.r.ntq)) ||
        (decide (region < 8) && decide (2 ≤ p.stage) && bitOf j.r.domes region && j.r.dq == q))

/-- Does LNK hold the job's operations: from a pre-emption request on (R702), and a training job's while depot mode is
clear (R703)? -/
def State.lnkHeld (s : State) (job : Nat) : Bool :=
  match s.jobBy job with
  | some j => j.pre.isSome || (j.r.train && !s.flag (rk rWATCH 1 0x110) 0)
  | none => false

/-- Queues execute while ACTIVE; on a FROZEN queue only operations that the freeze kept go on (R535). While QUIESCE is 1
what is released already still executes (R103). -/
def State.nextOp (s : State) (region q : Nat) : Option Op :=
  let x := s.queue region q
  if (x.state = .active ∨ x.state = .frozen) ∧ s.queueHeld region q = false then
    match nextToStart x.ops with
    | some o => if region = rLNK ∧ s.lnkHeld o.job = true then none else some o
    | none => none
  else none

/-- Mark an operation started; EXEC moves past it. -/
def State.start (s : State) (region q : Nat) (o : Op) : State :=
  let s := s.mapOp region q o.index (fun o => { o with started := true })
  let x := s.queue region q
  s.setQueue region q { x with exec := idx (o.index + 1) }

/-- An operation has finished: its status and result are known, and records are written in index order. A status that a
freeze has given it already stands. -/
def State.finish (s : State) (region q index st : Nat) (result : DWord := 0) (tcc retried : Bool := false) : State :=
  ((s.mapOp region q index (fun o =>
    if o.status.isSome then o
    else { o with started := true, status := some st, result := result, tcc := o.tcc || tcc,
                  retried := o.retried || retried })).touch (regionPd region)).flush region q

/-- The engine has done an operation's work: it finishes at OPERATION_COMPLETE with this status and result, `after` ns from
now at the earliest. -/
def State.conclude (s : State) (region q index st : Nat) (result : DWord := 0) (after : Nat := 0)
    (tcc retried : Bool := false) : State :=
  s.mapOp region q index (fun o =>
    if o.status.isSome then o
    else { o with started := true, issued := true, outcome := some st, result := result, readyAt := s.now + after,
                  tcc := o.tcc || tcc, retried := o.retried || retried })

/-- Is operation `index` of a Transit queue visible (R19, R241)? Its own writes are done and, with PUBLISH, those of every
earlier operation of the queue. An operation that ended with a stopping status, or was skipped, never is. -/
def State.opVisible (s : State) (region q index : Nat) : Bool :=
  let x := s.queue region q
  let good := fun (o : Op) => match o.status, o.outcome with
    | some st, _ => !stops st
    | none, some st => !stops st && decide (o.readyAt ≤ s.now)
    | none, none => false
  if x.failed.any (fun f => f.1 == index) then false
  else
    match s.findOp region q index with
    | some o => good o && (!o.publish || (x.ops.takeWhile (fun p => p.index != index)).all good)
    | none => decide (0 < dist index x.head) && decide (dist index x.head ≤ 32768)

/-- The queue an engine takes next (R239, R392) among those whose next operation meets `p`: highest PRIO, then lowest index.
While RELAXED is 1 the earliest release among the highest PRIO goes first, unless one of them belongs to a deterministic job
(R153). -/
def State.pickWhere (s : State) (region : Nat) (p : Op → Bool) : Option Nat :=
  let cands := s.queues.filterMap (fun e =>
    if e.1 / 4096 = region then
      match s.nextOp region (e.1 % 4096) with
      | some o => if p o then some (e.1 % 4096, e.2.prio, o.relTime, s.isDet o.job) else none
      | none => none
    else none)
  let top := cands.foldl (fun m c => Nat.max m c.2.1) 0
  let best := cands.filter (fun c => c.2.1 == top)
  if s.flag (kCTRL region) 1 && best.all (fun c => !c.2.2.2) then
    let t0 := best.foldl (fun m c => Nat.min m c.2.2.1) (best.headD (0, 0, 0, false)).2.2.1
    (best.find? (fun c => c.2.2.1 == t0)).map (fun c => c.1)
  else best.head?.map (fun c => c.1)

def State.pick (s : State) (region : Nat) : Option Nat := s.pickWhere region (fun _ => true)

/-- Count the choice of a relaxed arbitration when the candidates' tenants differ (R239, R392). -/
def State.relaxedWhere (s : State) (region q : Nat) (p : Op → Bool) : Bool :=
  let rivals := s.queues.filter (fun e => e.1 / 4096 == region && e.2.prio == (s.queue region q).prio &&
    (match s.nextOp region (e.1 % 4096) with | some o => p o | none => false))
  s.flag (kCTRL region) 1 && rivals.any (fun e => e.2.tenant != (s.queue region q).tenant) &&
  rivals.all (fun e => match s.nextOp region (e.1 % 4096) with | some o => !s.isDet o.job | none => true)

def State.relaxedChoice (s : State) (region q : Nat) : Bool := s.relaxedWhere region q (fun _ => true)

/-! ### Release -/

/-- The first phase after `p` whose fraction is `frac` (R113). -/
def nextMatch (p : DWord) (frac : Word) : DWord :=
  let cur := p.setWidth 32
  let rev := (p >>> 32).setWidth 32
  let rev := if cur.toNat < frac.toNat then rev else rev + 1#32
  (rev.setWidth 64 <<< 32) ||| frac.setWidth 64

/-- An index is in use again: what its earlier use came to no longer counts. -/
def State.forgetFailed (s : State) (region q index : Nat) : State :=
  let x := s.queue region q
  s.setQueue region q { x with failed := x.failed.filter (fun f => f.1 != index) }

/-- Read and check one released descriptor (R111, R529). -/
def State.fetchOp (s : State) (region q index : Nat) : State :=
  let x := s.queue region q
  match s.findOp region q index with
  | none => s
  | some o =>
    if o.status.isSome then s
    else
      let a := x.ringBase + index % 2 ^ x.sizeLog2 * 64
      match s.txRead (s.queueItag region q) a 64 (some (region, q, index)) with
      | (.ok bs, s) =>
        let s := s.forgetFailed region q index
        s.mapOp region q index (fun o =>
          let o := { o with words := wordsOf bs }
          let o := { o with deadline := nextMatch s.phase64 (o.word 3) }
          if headerOk region q o && !(o.dl && s.isDet o.job) then o else { o with status := some stREJ_FORMAT })
      | (tx, s) => s.mapOp region q index (fun o => if o.status.isSome then o else { o with status := some tx.status })

/-- The descriptors from index `from_` up to RELEASED enter the queue's operations and are validated in index order. -/
def State.loadOps (s : State) (region q from_ : Nat) (occ : Word := 0) : State :=
  let x := s.queue region q
  let ids := (List.range (dist from_ x.released)).map (fun i => idx (from_ + i))
  let s := s.setQueue region q { x with ops := x.ops ++ ids.map (fun i => { index := i, words := [], occ := occ, relTime := s.now }) }
  let s := ids.foldl (fun s i => if (s.queue region q).state = .active then s.fetchOp region q i else s) s
  match s.queueItag region q with
  | some t => if s.frozen.contains t then s.flushItag t else s.flush region q
  | none => s.flush region q

/-- Release work up to `newRel`. A release is demand on the block's domain (R595). -/
def State.releaseTo (s : State) (region q newRel : Nat) (occ : Word := 0) : State :=
  let x := s.queue region q
  if newRel = x.released then s
  else
    let s := s.setQueue region q { x with released := newRel }
    (s.demandPd (regionPd region)).loadOps region q x.released occ

/-- A doorbell write of value `v` (R103, R105, R107). -/
def State.doorbell (s : State) (region q : Nat) (v : Word) (t : Itag) : State :=
  let x := s.queue region q
  let n := v.toNat % 65536
  if x.state = .disabled then s.cfgErr region t
  else if 2 ^ x.sizeLog2 < dist x.head n ∨ dist x.head n < dist x.head x.released then s.cfgErr region t
  else
    let s := s.setQueue region q { x with tail := n }
    if x.state = .active ∧ x.gated = false ∧ s.quiesced region = false then s.releaseTo region q n else s

/-- SHORT counts and stops at 0x1FFF (R106, R119). -/
def State.addShort (s : State) (region q n : Nat) : State :=
  let x := s.queue region q
  s.setQueue region q { x with short := satAdd 0x1FFF x.short n }

/-- An Ephemeris doorbell reaches a queue (R104, R106). -/
def State.ephDoorbell (s : State) (region q dbinc : Nat) (occ : Word) : State :=
  let x := s.queue region q
  let n := dbinc + 1
  if x.state = .disabled then s.addShort region q n
  else if x.gated = false then s.addShort region q 1
  else if x.state ≠ .active ∨ s.quiesced region = true then s.addShort region q n
  else
    let m := Nat.min n (dist x.released x.tail)
    (s.releaseTo region q (idx (x.released + m)) occ).addShort region q (n - m)

/-! ### QCMD -/

def kQCMD (r : Nat) : Nat := rk r 11 0x008
def kQSTAT (r : Nat) : Nat := rk r 11 0x00C
def kQTAB (r : Nat) : Nat := rk r 11 0x000

/-- Who reads a queue's context: the queue's own initiator; on TRANSIT queue q that is ITAG 0x400 + q (R235). -/
def State.contextItag (s : State) (region q : Nat) : Option Itag :=
  if region = rTRANSIT then some (BitVec.ofNat 12 (0x400 + q)) else s.queueItag region q

/-- Read a queue's context (R101, R102, R529). `none` when it cannot be read or is malformed. -/
def State.readContext (s : State) (region q : Nat) : Option Context × State :=
  let a := s.rd64 (kQTAB region) + 64 * q
  if region = rDRIVE ∧ inQueueArea a 64 = false then (none, s)
  else
    match s.txRead (s.contextItag region q) a 64 with
    | (.ok bs, s) => (let c := Context.ofBytes bs; if c.ok region then some c else none, s)
    | (.firewall, s) => (none, match s.contextItag region q with | some t => s.flushItag t | none => s)
    | (_, s) => (none, s.raise region 2 { queue := q })

/-- Take a context over into a queue. -/
def Queue.withContext (x : Queue) (c : Context) : Queue :=
  { x with ringBase := c.ringBase, cplBase := c.cplBase, sizeLog2 := c.sizeLog2, gated := c.gated, prio := c.prio,
           tenant := c.tenant, itag := BitVec.ofNat 12 c.itag, vector := c.vector }

/-- QCMD ENABLE on a queue of the block: the outcome code and the state (R102, R109). -/
def State.qEnable (s : State) (region q : Nat) : Nat × State :=
  if (s.queue region q).state ≠ .disabled then (4, s)
  else
    match s.readContext region q with
    | (none, s) => (2, s.cfgErr region)
    | (some c, s) =>
      let x := (s.queue region q).withContext c
      (0, s.setQueue region q { x with state := .active, tail := 0, released := 0, exec := 0, head := 0, ops := [], failed := [] })

/-- QCMD DISABLE (R109). -/
def State.qDisable (s : State) (region q : Nat) : Nat × State :=
  let x := s.queue region q
  match x.state with
  | .disabled => (0, s)
  | .draining => (0, s)
  | .frozen => (4, s)
  | .stopped => (0, s.setQueue region q { x with state := .disabled, head := x.released, exec := x.released, ops := [] })
  | .active =>
    let keep := x.ops.filter (fun o => o.started)
    if keep.isEmpty then
      (0, s.setQueue region q { x with state := .disabled, head := x.released, exec := x.released, ops := [] })
    else (0, (s.setQueue region q { x with state := .draining, ops := keep }).flush region q)

/-- QCMD RESUME (R108, R109, R529). -/
def State.qResume (s : State) (region q newHead : Nat) : Nat × State :=
  let x := s.queue region q
  if x.state ≠ .stopped then (4, s)
  else if dist x.head x.tail < dist x.head newHead then (3, s)
  else
    match s.readContext region q with
    | (none, s) => (2, s)
    | (some c, s) =>
      let x := (s.queue region q).withContext c
      let rel := if dist x.head x.released < dist x.head newHead then newHead else x.released
      let rel := if x.gated = false ∧ s.quiesced region = false then x.tail else rel
      let skipped := (List.range (dist x.head newHead)).map (fun i => idx (x.head + i))
      let s := s.setQueue region q { x with state := .active, exec := newHead, head := newHead, released := rel, ops := [],
                                            failed := skipped.map (fun i => (i, 0)) ++ x.failed }
      (0, (s.demandPd (regionPd region)).loadOps region q newHead)

/-- What a QCMD command does to its queue: its outcome (R109) and the state it leaves. -/
def State.qcmdDo (s : State) (region q cmd arg : Nat) : Nat × State :=
  if queueMax region < q then (3, s)
  else if cmd = 1 then s.qEnable region q
  else if cmd = 2 then s.qDisable region q
  else s.qResume region q arg

/-- A write to QCMD: BUSY until QCMD_COMPLETE reports the outcome; no effect while a command is in progress (R109).
CMD values the table does not define carry no command. -/
def State.qcmdWrite (s : State) (region : Nat) (v : Word) : State :=
  let q := fieldOf v 11 0
  let cmd := fieldOf v 15 12
  match Sparse.get (fun _ => none) s.qcmds region with
  | some _ => s
  | none =>
    let s := s.wr (kQCMD region) v
    if cmd = 0 ∨ 3 < cmd then s
    else
      let x := s.qcmdDo region q cmd (fieldOf v 31 16)
      let s := x.2
      let s : State :=
        { s with qcmds := Sparse.set (fun _ => none) s.qcmds region (some { queue := q, cmd := cmd, outcome := x.1 }) }
      s.setFld (kQSTAT region) 2 0 1

/-- The command in progress completes and QCMD_STAT reports its outcome (R109). -/
def State.qcmdDone (s : State) (region : Nat) : State :=
  match Sparse.get (fun _ => none) s.qcmds region with
  | none => s
  | some c =>
    ({ s with qcmds := Sparse.set (fun _ => none) s.qcmds region none }).setFld (kQSTAT region) 2 0 c.outcome

/-! ### Quiesce -/

/-- BLK_STAT.QUIESCED: QUIESCE is 1 and no operation of the block is in flight (R91). -/
def State.inFlight (s : State) (region : Nat) : Bool :=
  s.queues.any (fun e => e.1 / 4096 == region && e.2.ops.any (fun o => o.started && o.status.isNone))

def State.showQuiesced (s : State) (region : Nat) : State :=
  s.setFlag (kSTAT region) 0 (s.quiesced region && !s.inFlight region)

/-- QUIESCE returns to 0: every ungated ACTIVE queue releases up to its recorded TAIL, in queue order (R104). -/
def State.unquiesce (s : State) (region : Nat) : State :=
  s.queues.foldl (fun acc e =>
    if e.1 / 4096 = region ∧ e.2.state = .active ∧ e.2.gated = false then
      acc.releaseTo region (e.1 % 4096) (acc.queue region (e.1 % 4096)).tail
    else acc) s

/-! ### Unfreezing -/

/-- Cancel the armed unfreeze of a block (R100). -/
def State.cancelUnfreeze (s : State) (region : Nat) (t : Itag) : State :=
  (({ s with armed := Sparse.set (fun _ => none) s.armed region none }).setFlag (kFRZ region) 15 false).cfgErr region t

/-- A write to BLK_FRZ by an initiator that may write it (R99, R100). -/
def State.frzWrite (s : State) (region : Nat) (t : Itag) (v : Word) : State :=
  let named := BitVec.ofNat 12 (fieldOf v 11 0)
  let cmd := fieldOf v 13 12
  match Sparse.get (fun _ => none) s.armed region with
  | none =>
    if cmd = 0 then s
    else if cmd ≠ 1 then s.cfgErr region t
    else if homeBlock named.toNat = some region ∧ s.frozen.contains named = true then
      ({ s with armed := Sparse.set (fun _ => none) s.armed region (some { by_ := t, named := named, time := s.now }) }).setFlag
        (kFRZ region) 15 true
    else s.cfgErr region t
  | some a =>
    if a.by_ ≠ t then s.cfgErr region t
    else if cmd = 2 ∧ a.named = named ∧ s.now ≤ 10000 + a.time then
      let s := ({ s with armed := Sparse.set (fun _ => none) s.armed region none }).setFlag (kFRZ region) 15 false
      { s with unfreezing := named :: s.unfreezing }
    else s.cancelUnfreeze region t

/-- Have all transactions of a frozen ITAG that passed completed (R537)? No operation that the freeze kept is left. -/
def State.drained (s : State) (t : Itag) : Bool :=
  s.queues.all (fun e => s.queueItag (e.1 / 4096) (e.1 % 4096) != some t || e.2.ops.all (fun o => o.status.isSome))

/-- The unfreeze takes effect: held requests end with an error response, and FROZEN queues move to STOPPED (R536, R537). -/
def State.unfreeze (s : State) (t : Itag) : State :=
  let n := (s.held.filter (fun h => h.ini.itag == t)).length
  let s : State :=
    { s with
      frozen := s.frozen.filter (fun x => x != t), unfreezing := s.unfreezing.filter (fun x => x != t),
      held := s.held.filter (fun h => h.ini.itag != t), out := List.replicate n (Out.errorResponse t) ++ s.out }
  let s := match homeBlock t.toNat with | some home => s.showFrozen home | none => s
  s.queues.foldl (fun acc e =>
    if acc.queueItag (e.1 / 4096) (e.1 % 4096) = some t ∧ e.2.state = .frozen then
      (acc.setQueue (e.1 / 4096) (e.1 % 4096) { e.2 with state := .stopped, ops := [] })
    else acc) s

end Sys2Proof.Machine
end

