-- ==== Sys2Proof/Machine/Access.lean ====
section
/-! DEFINITION. Register accesses by initiators: the order of checks (R86–R90, R525, R534, R536, R718), named writers,
and the write of a register that has no behaviour of its own, field by field by access type (R90). -/

namespace Sys2Proof.Machine

/-- The ITAG that owns the slot whose word lies at this key of MERID pages 4–7 (R58). -/
def kSLOT (n : Nat) (w : Nat) : Nat := rk rMERID (4 + n / 256) (n % 256 * 16 + 4 * w)
def State.slotOwner (s : State) (n : Nat) : Nat := s.fld (kSLOT n 3) 13 2
def isSlotKey (k : Nat) : Bool := rkRegion k == rMERID && decide (4 ≤ rkPage k) && decide (rkPage k ≤ 7)
def slotOfKey (k : Nat) : Nat := (rkPage k - 4) * 256 + rkOff k / 16

/-- May ITAG `t` write the register at `k` (R58, R90, R92, R94, R98, R555)? Without test rights a write of BLK_EINJ is no
violation: it has no effect and sets CFG_ERR (R96). -/
def State.mayWrite (s : State) (k t : Nat) : Bool :=
  let r := rkRegion k
  if isSlotKey k then t == s.slotOwner (slotOfKey k) || t == s.owner rMERID
  else
    match regDef k with
    | none => true
    | some d =>
      match d.wr with
      | .any => true
      | .pairs => isPair t
      | .ownerPairs => isPair t || t == s.owner r
      | .owner => t == s.owner r
      | .unfreezer => isPair t || (t == s.owner r && s.flag (kOWNER r) 16)
      | .einj => !s.testRights r || isPair t || (t == s.fld (rk rWATCH 6 0x108) 11 0 && t != 0)

/-- Does the write change a field that only BLK_OWNER may change (R90, last paragraph)? -/
def State.changesOwned (s : State) (k t : Nat) (v : Word) : Bool :=
  t != s.owner (rkRegion k) &&
  (match regDef k with
   | none => false
   | some d => d.fields.any (fun f => f.ownerOnly && fieldOf v f.hi f.lo != s.fld k f.hi f.lo))

/-- The value of a field that a write gives, within its stated limits? -/
def FDef.accepts (f : FDef) (v : Nat) : Bool := decide (f.min ≤ v) && decide (v ≤ f.max) && v % f.mul == 0

/-- Write one field by its access type; the flag says that a limit or a lock was broken (R90). -/
def State.writeField (s : State) (k : Nat) (d : RDef) (v : Word) (f : FDef) (acc : State × Bool) : State × Bool :=
  let (s', bad) := acc
  let x := fieldOf v f.hi f.lo
  match f.acc with
  | .ro => acc
  | .w1c => (s'.setFld k f.hi f.lo (Nat.land (s'.fld k f.hi f.lo) (Nat.xor x (2 ^ (f.hi + 1 - f.lo) - 1))), bad)
  | .w1s => (s'.setFld k f.hi f.lo (Nat.lor (s'.fld k f.hi f.lo) x), bad)
  | .rw => if f.accepts x then (s'.setFld k f.hi f.lo x, bad) else (s', true)
  | .rwl =>
    if s.locks.contains k then (s', bad || x != s.fld k f.hi f.lo)
    else if (d.fields.all (fun g => g.acc != .rw)) || x != f.rst then
      ({ s'.setFld k f.hi f.lo x with locks := k :: s'.locks }, bad)
    else (s', bad)

/-- Write a register that has no rule of its own (R90). Offsets without a register take no write (R83, R91). -/
def State.writeGeneric (s : State) (k : Nat) (t : Itag) (v : Word) : State :=
  match regDef k with
  | none => s
  | some d =>
    let (s', bad) := d.fields.foldl (fun acc f => s.writeField k d v f acc) (s, false)
    if bad then s'.cfgErr (rkRegion k) t else s'

/-- System address of a register. -/
def regAddr (k : Nat) : Nat := 0x00F0000000 + k

/-- The domain that a register access needs: the region's, and PD31 for CAN channels 4–9, which the mailbox window may
also name (R666, R667). -/
def State.keyPd (s : State) (k : Nat) : Nat :=
  let far := (rkPage k == 1 && decide (0x180 ≤ rkOff k)) ||
    (rkPage k == 2 && decide (0x104 ≤ rkOff k) && decide (4 ≤ s.fld (rk rCAN 2 0x100) 3 0))
  if rkRegion k = rCAN ∧ far = true then 31 else regionPd (rkRegion k)

/-- The checks of a register access up to its target's power state. `ok` means that the access takes effect now. The value
matters to the named-writer rule of single fields. -/
def State.gate (s : State) (i : Initiator) (k : Nat) (write : Bool) (v : Word) : AccessStatus × State :=
  let t := i.itag
  if s.frozen.contains t then (.held, { s with held := s.held ++ [{ ini := i, key := k, write := write, value := v }] })
  else
    match itagVerdict i with
    | .violation b bit => (.violation, s.offend t b bit (regAddr k))
    | .mismatch => (.refused, s)
    | .pass =>
      match s.checkSite t (regAddr k) (.regs k) write with
      | (.violation b bit, s) => (.violation, s.offend t b bit (regAddr k))
      | (.mismatch, s) => (.refused, s)
      | (.pass, s) =>
        if write && (!s.mayWrite k t.toNat || s.changesOwned k t.toNat v) then
          (.violation, s.offend t (rkRegion k) 3 (regAddr k))
        else
          let pd := s.keyPd k
          if s.pdDown pd then (.error, s)
          else if s.pdState pd = 0 then (.ok, s.demandPd pd)
          else
            let s' : State := s.demandPd pd
            (AccessStatus.waiting, { s' with waiting := s'.waiting ++ [Access.mk i k write v] })

/-- Record the response of an access. -/
def State.respond (s : State) (st : AccessStatus) (data : List Byte := []) : State :=
  { s with resp := { status := st, data := data } }

/-- A register write: checked, then given its effect. -/
def State.writeVia (s : State) (eff : State → Nat → Itag → Word → State) (i : Initiator) (k : Nat) (v : Word) : State :=
  match s.gate i k true v with
  | (.ok, s) => (eff s k i.itag v).respond .ok
  | (st, s) => s.respond st

/-- A register read: checked, then answered; a refused read returns zero (R87, R534). -/
def State.readVia (s : State) (eff : State → Nat → Option Word × State) (i : Initiator) (k : Nat) : State :=
  match s.gate i k false 0#32 with
  | (.ok, s) =>
    match eff s k with
    | (some w, s) => s.respond .ok (leBytes 4 w.toNat)
    | (none, s) => s.respond .error (leBytes 4 0)
  | (.waiting, s) => s.respond .waiting
  | (.held, s) => s.respond .held
  | (st, s) => s.respond st (leBytes 4 0)

/-- Width and alignment of a register access (R86). -/
def regShapeOk (addr bytes : Nat) : Bool := (bytes == 4 && addr % 4 == 0) || (bytes == 8 && addr % 8 == 0)

/-- A register access of the wrong width or alignment is a protocol violation of the region's block, FWL's for an
unassigned region (R525, R718). -/
def State.badShape (s : State) (i : Initiator) (k : Nat) (write : Bool) : State :=
  if s.frozen.contains i.itag then
    ({ s with held := s.held ++ [Access.mk i k write 0#32] } : State).respond .held
  else
    match itagVerdict i with
    | .violation b bit => (s.offend i.itag b bit (regAddr k)).respond .violation (if write then [] else leBytes 4 0)
    | _ => (s.offend i.itag (siteBlock (.regs k)) 4 (regAddr k)).respond .violation (if write then [] else leBytes 4 0)

end Sys2Proof.Machine
end

