-- ==== Sys2Proof/Machine/Can.lean ====
section
/-! DEFINITION. CAN FD and CAN XL (R666–R672, R676–R678): mailboxes, transmission and reception, error states, bit timing,
and the SPI0 data-ready edge (R675). -/

namespace Sys2Proof.Machine

def kCAN (c off : Nat) : Nat := rk rCAN 1 (0x100 + 0x20 * c + off)
def kMBSEL : Nat := rk rCAN 2 0x100

def boxKey (c : Nat) (rx : Bool) (m : Nat) : Nat := c * 256 + (if rx then 128 else 0) + m
def State.box (s : State) (k : Nat) : Mailbox := Sparse.get (fun _ => {}) s.can.boxes k
def State.setBox (s : State) (k : Nat) (b : Mailbox) : State :=
  { s with can := { s.can with boxes := Sparse.set (fun _ => {}) s.can.boxes k b } }
def State.onBus (s : State) (c : Nat) : Option BusFrame := Sparse.get (fun _ => none) s.can.bus c
def State.setBus (s : State) (c : Nat) (f : Option BusFrame) : State :=
  { s with can := { s.can with bus := Sparse.set (fun _ => none) s.can.bus c f } }

/-- Mailboxes of a kind, and payload bytes, of a channel (R667). -/
def boxCount (c : Nat) : Nat := if c < 8 then 64 else 16
def boxBytes (c : Nat) : Nat := if c < 8 then 64 else 2048

def Mailbox.ide (b : Mailbox) : Bool := flagOf b.ctl 29
def Mailbox.owner (b : Mailbox) : Bool := flagOf b.ctl 30
/-- Identifier: 29 bits, or the low 11 without IDE. -/
def Mailbox.id (b : Mailbox) : Nat := if b.ide then fieldOf b.ctl 28 0 else fieldOf b.ctl 10 0
def Mailbox.byte (b : Mailbox) (i : Nat) : Byte := Sparse.get (fun _ => 0#8) b.data i

/-- Rank in arbitration, lowest first: the 11 leading bits, then a base frame before an extended one (R668). -/
def Mailbox.rank (b : Mailbox) : Nat := if b.ide then 2 ^ 18 + 2 ^ 19 * (b.id / 2 ^ 18) + b.id % 2 ^ 18 else 2 ^ 19 * b.id

/-- Does a mailbox belong to host software (R667)? -/
def hostOwns (c : Nat) (b : Mailbox) : Bool := decide (4 ≤ c) || b.owner

/-- Channel state: 0 active, 1 passive, 2 bus-off, 3 off. -/
def State.canState (s : State) (c : Nat) : Nat := s.fld (kCAN c 0x0C) 17 16
def State.canOn (s : State) (c : Nat) : Bool := decide (s.canState c < 2)
/-- The domain that a channel lies in. -/
def canPd (c : Nat) : Nat := if c < 4 then 3 else 31

/-! ### Errors -/

/-- A read of a mailbox: an injected uncorrectable error clears it (R676, R677); its ID, mask and OWNER stay. -/
def State.readBox (s : State) (k : Nat) : Mailbox × State :=
  let b := s.box k
  if s.injArmed rCAN 0 && s.fld (kEINJ rCAN) 5 2 == k / 256 then
    let s := ((s.injDone rCAN 0).count rCAN 1).raise rCAN 2 { inj := true }
    let b : Mailbox := { ctl := b.ctl, mask := b.mask, count := b.count }
    (b, s.setBox k b)
  else (b, s)

/-- Enter bus-off (R671): the frame on the bus is lost, its mailbox stays pending. -/
def State.busOff (s : State) (c : Nat) (inj : Bool) : State :=
  let s := ((s.setBus c none).setFld (kCAN c 0x0C) 17 16 2).count rCAN 6
  if c < 4 then s.raise rCAN 18 { inj := inj, always := true, index := c } else s

/-- Set the error counters of ISO 11898-1 and the state that follows from them. -/
def State.canErrors (s : State) (c tec rec_ : Nat) : State :=
  let k := kCAN c 0x0C
  let was := s.canState c
  let s := (s.setFld k 7 0 (Nat.min tec 255)).setFld k 15 8 (Nat.min rec_ 255)
  if 255 < tec then s.busOff c false
  else if 127 < tec ∨ 127 < rec_ then
    if was = 0 then (s.setFld k 17 16 1).count rCAN 3 else s
  else s.setFld k 17 16 0

def State.tec (s : State) (c : Nat) : Nat := s.fld (kCAN c 0x0C) 7 0
def State.rec_ (s : State) (c : Nat) : Nat := s.fld (kCAN c 0x0C) 15 8

/-! ### Transmission -/

/-- Commit content to a transmit mailbox (R490, R668): what it was pending with is replaced; a frame on the bus goes on as
it is. The flag tells that a frame still pending was replaced. -/
def State.canCommit (s : State) (c m len : Nat) (data : Sparse Byte) : Bool × State :=
  let k := boxKey c false m
  let b := s.box k
  let flying := (match s.onBus c with | some f => f.mb == m | none => false)
  if flying then (b.again, s.setBox k { b with len := len, data := data, again := true })
  else (b.pending, s.setBox k { b with len := len, data := data, pending := true })

/-- The pending mailbox of highest priority (R668). -/
def State.canNext (s : State) (c : Nat) : Option Nat :=
  (List.range (boxCount c)).foldl (fun best m =>
    let b := s.box (boxKey c false m)
    if b.pending then
      match best with
      | some n => if b.rank < (s.box (boxKey c false n)).rank then some m else best
      | none => some m
    else best) none

/-- A frame starts on an idle bus. -/
def effCanTx (c : Nat) (s : State) : State :=
  if s.canOn c = false ∨ s.flag (kCAN c 0) 5 = true ∨ (s.onBus c).isSome = true ∨ s.pdDown (canPd c) = true then s
  else
    match s.canNext c with
    | none => s
    | some m =>
      let (b, s) := s.readBox (boxKey c false m)
      if b.pending then s.setBus c (some { mb := m, len := b.len, data := b.data }) else s

/-- A frame on the bus ends: 0 sent, 1 arbitration lost, 2 error, 3 read back different, which channels 0–3 check (R672). -/
def effCanTxEnd (c result : Nat) (s : State) : State :=
  match s.onBus c with
  | none => s
  | some f =>
    let s := s.setBus c none
    let k := boxKey c false f.mb
    let b := s.box k
    let oneshot := s.flag (kCAN c 0) 3
    if result = 0 then (s.setBox k { b with pending := b.again, again := false }).canErrors c (s.tec c - 1) (s.rec_ c)
    else
      let resent := !oneshot || b.again
      let s := s.setBox k { b with pending := resent, again := false }
      if result = 1 then s
      else
        let s := if result = 3 ∧ c < 4 then s.raise rCAN 17 { index := c } else s
        let s := if resent then s.count rCAN 2 else s
        s.canErrors c (s.tec c + 8) (s.rec_ c)

/-! ### Reception -/

/-- Spread bytes into a payload. -/
def spreadBytes (bs : List Byte) : Sparse Byte :=
  ((List.range bs.length).zip bs).foldl (fun m x => Sparse.set (fun _ => 0#8) m x.1 x.2) []

/-- A frame arrives (R669); one with an error only counts (R671). A good frame lowers a receive count above 127 to a value
from 119 to 127. -/
def effCanRx (c : Nat) (ext : Bool) (id : Nat) (data : List Byte) (good : Bool) (s : State) : State :=
  if s.canOn c = false ∨ s.pdDown (canPd c) = true then s
  else if good = false then s.canErrors c (s.tec c) (s.rec_ c + 1)
  else
    let r := s.rec_ c
    let (r, s) := if 127 < r then let (n, s) := s.draw; (119 + (Config.freeWord n).toNat % 9, s) else (r - 1, s)
    let s := s.canErrors c (s.tec c) r
    let hit := (List.range (boxCount c)).find? (fun m =>
      let b := s.box (boxKey c true m)
      b.ide == ext && Nat.land (Nat.xor b.id id) b.mask.toNat == 0)
    match hit with
    | none => s
    | some m =>
      let k := boxKey c true m
      let b := s.box k
      let s := if b.unread then s.count rCAN 4 else s
      s.setBox k { b with data := spreadBytes data, len := data.length, stamp := BitVec.ofNat 64 s.now, unread := true,
                          lost := b.lost || b.unread, count := b.count + 1 }

/-! ### Channel states -/

def effCanRecover (c : Nat) (s : State) : State :=
  if s.canState c = 2 ∧ s.flag (kCAN c 0) 4 = true ∧ s.flag (kCAN c 0) 0 = true then s.wr (kCAN c 0x0C) 0#32 else s

/-- A lockstep mismatch turns channel 0–3 off until EN is cleared and set again (R672). -/
def effCanLockstep (c : Nat) (s : State) : State :=
  if s.flag (kCAN c 0) 0 = false ∨ s.canState c = 3 then s
  else ((((s.setBus c none).setFld (kCAN c 0x0C) 17 16 3).raise rCAN 16 { always := true, index := c }).count rCAN 6)

/-- A write of CAN_CHc_CFG: EN starts the channel error-active, or turns it off. -/
def effCanCfg (c : Nat) (t : Itag) (v : Word) (s : State) : State :=
  let was := s.flag (kCAN c 0) 0
  let s := if flagOf v 2 && decide (c < 8) then (s.writeGeneric (kCAN c 0) t (withFlag v 2 false)).cfgErr rCAN t
    else s.writeGeneric (kCAN c 0) t v
  let on := flagOf v 0
  if on && !was then s.wr (kCAN c 0x0C) 0#32
  else if !on && was then (s.setBus c none).setFld (kCAN c 0x0C) 17 16 3
  else s

/-- Cycles of a nominal or data bit (R666). -/
def nomCycles (v : Word) : Nat := (fieldOf v 7 0 + 1) * (1 + (fieldOf v 15 8 + 1) + (fieldOf v 22 16 + 1))
def dataCycles (v : Word) : Nat := (fieldOf v 4 0 + 1) * (1 + (fieldOf v 9 5 + 1) + (fieldOf v 13 10 + 1))

/-- A bit-timing write (R666): 80 to 640 cycles of 80 MHz give 1 Mbit/s down to 125 kbit/s, 10 give 8 Mbit/s and 8 give
10 Mbit/s. -/
def effBitTiming (c : Nat) (isData : Bool) (t : Itag) (v : Word) (s : State) : State :=
  let ok := if isData then decide ((if c < 8 then 10 else 8) ≤ dataCycles v)
    else decide (8 ≤ c) || (decide (80 ≤ nomCycles v) && decide (nomCycles v ≤ 640))
  if s.flag (kCAN c 0) 0 || !ok then s.cfgErr rCAN t else s.writeGeneric (kCAN c (if isData then 8 else 4)) t v

/-- INJ_BUSOFF acts at once (R677). -/
def State.injBusoff (s : State) : State :=
  let c := s.fld (kEINJ rCAN) 5 2
  let s := s.injDone rCAN 1
  if c < 10 ∧ s.canOn c = true then s.busOff c true else s

/-! ### The mailbox window (R678) -/

/-- Channel, direction and index that CAN_MBSEL names; `none` for a mailbox the channel does not have. -/
def State.mbSel (s : State) : Option (Nat × Bool × Nat) :=
  let c := s.fld kMBSEL 3 0
  let m := s.fld kMBSEL 10 5
  if c < 10 ∧ m < boxCount c then some (c, s.flag kMBSEL 4, m) else none

def State.mbRead (s : State) (off : Nat) : Word × State :=
  match s.mbSel with
  | none => (0#32, s)
  | some (c, rx, m) =>
    let k := boxKey c rx m
    let (b, s) := s.readBox k
    if off = 0x104 then (withFlag b.ctl 31 (if rx then b.lost else b.pending), s)
    else if off = 0x108 then (b.mask, s)
    else if off = 0x110 then (BitVec.ofNat 32 b.len, s)
    else if off = 0x118 then (b.stamp.setWidth 32, s)
    else if off = 0x11C then ((b.stamp >>> 32).setWidth 32, s)
    else if 0x200 ≤ off ∧ off - 0x200 < boxBytes c then
      let i := off - 0x200
      let s := if rx then s.setBox k { b with unread := false } else s
      (BitVec.ofNat 32 (leNat [b.byte i, b.byte (i + 1), b.byte (i + 2), b.byte (i + 3)]), s)
    else (0#32, s)

/-- A host write through the window. The identifier, IDE, OWNER and mask can be configured at any time; payload, length and
TXREQ of a mailbox that the Clock Drive owns are discarded (R667). -/
def State.mbWrite (s : State) (off : Nat) (t : Itag) (v : Word) : State :=
  match s.mbSel with
  | none => s
  | some (c, rx, m) =>
    let k := boxKey c rx m
    let b := s.box k
    let mine := rx || hostOwns c b
    if off = 0x104 then
      let b := { b with ctl := withFlag v 31 false }
      if flagOf v 31 then
        if rx then s.setBox k { b with lost := false }
        else if hostOwns c b then
          if (match s.onBus c with | some f => f.mb == m | none => false) then s.setBox k { b with again := true }
          else s.setBox k { b with pending := true }
        else (s.setBox k b).count rCAN 5
      else s.setBox k b
    else if off = 0x108 then s.setBox k { b with mask := v }
    else if off = 0x110 then
      if mine = false then s.count rCAN 5
      else if boxBytes c < v.toNat then s.cfgErr rCAN t
      else s.setBox k { b with len := v.toNat }
    else if 0x200 ≤ off ∧ off - 0x200 < boxBytes c then
      if mine = false then s.count rCAN 5
      else
        s.setBox k { b with data := ((List.range 4).zip (leBytes 4 v.toNat)).foldl (fun d x =>
          Sparse.set (fun _ => 0#8) d (off - 0x200 + x.1) x.2) b.data }
    else s

/-! ### SPI0 (R675) -/

def kSPI (n : Nat) : Nat := rk rCAN 3 (0x100 + 4 * n)

/-- Nanoseconds that a read of a chip select takes: a command byte and RDLEN bytes at 100 MHz over the divider. -/
def State.spiNs (s : State) (n : Nat) : Nat := (s.fld (kSPI n) 15 8 + 1) * 8 * s.fld (kSPI n) 23 18 * 10

/-- A data-ready edge starts a read, or, while one runs, counts an overlap. -/
def effSpiReady (n : Nat) (s : State) : State :=
  match Sparse.get (fun _ => none) s.spiUntil n with
  | some t => if s.now < t then s.count rCAN 7
              else { s with spiUntil := Sparse.set (fun _ => none) s.spiUntil n (some (s.now + s.spiNs n)) }
  | none => { s with spiUntil := Sparse.set (fun _ => none) s.spiUntil n (some (s.now + s.spiNs n)) }

def execCanTxFrame (ch : BitVec 4) (s : State) : Outcome :=
  if 10 ≤ ch.toNat then .refused (.illFormed "CAN_TX_FRAME") else .next (effCanTx ch.toNat s)
def execCanTxEnd (ch : BitVec 4) (result : BitVec 2) (s : State) : Outcome :=
  if 10 ≤ ch.toNat then .refused (.illFormed "CAN_TX_END") else .next (effCanTxEnd ch.toNat result.toNat s)
/-- A received frame; its payload fits its channel. -/
def execCanRxFrame (ch : BitVec 4) (ext : Bool) (id : BitVec 29) (data : List Byte) (good : Bool) (s : State) : Outcome :=
  if 10 ≤ ch.toNat ∨ boxBytes ch.toNat < data.length then .refused (.illFormed "CAN_RX_FRAME")
  else .next (effCanRx ch.toNat ext id.toNat data good s)
def execCanBusoffRecover (ch : BitVec 4) (s : State) : Outcome :=
  if 10 ≤ ch.toNat then .refused (.illFormed "CAN_BUSOFF_RECOVER") else .next (effCanRecover ch.toNat s)
def execCanLockstepMismatch (ch : BitVec 2) (s : State) : Outcome := .next (effCanLockstep ch.toNat s)
def execSpiDataReady (cs : BitVec 3) (s : State) : Outcome := .next (effSpiReady cs.toNat s)

end Sys2Proof.Machine
end

