-- ==== Sys2Proof/Machine/SafeState.lean ====
section
/-! DEFINITION. The states of the safe-state controller and what entering and leaving them does (R573, R576, R721). -/

namespace Sys2Proof.Machine

def kSAFESTAT : Nat := rk rWATCH 1 0x100
def ssNORMAL : Nat := 0
def ssDEGRADED : Nat := 1
def ssRESTARTING : Nat := 2
def ssRECOVERING : Nat := 3
def ssHALTED : Nat := 4
def State.safe (s : State) : Nat := s.fld kSAFESTAT 2 0

def kFBCFG : Nat := rk rDRIVE 1 0x10C

/-- Write DRIVE_FBCFG.AUTOMS: its time runs from the write (R495). -/
def State.setAutoms (s : State) (v : Nat) : State :=
  let s := s.setFld kFBCFG 15 0 v
  { s with drive := { s.drive with autoBase := s.now, autoDone := false } }

/-- The NOPLAN timer runs in NORMAL and DEGRADED and pauses elsewhere; while paused, `planBase` holds what had run (R721). -/
def State.planTimer (s : State) (run : Bool) : State :=
  if run = !s.watch.planPaused then s
  else { s with watch := { s.watch with planPaused := !run, planBase := s.now - s.watch.planBase } }

/-- The NOPLAN timer starts from zero. -/
def State.planRestart (s : State) : State :=
  { s with watch := { s.watch with planBase := if s.watch.planPaused then 0 else s.now } }

/-- Enter a state: its registers, NW_DEG and NW_HALT, and what DEGRADED changes in the Clock Drive. -/
def State.enterSafe (s : State) (st : Nat) : State :=
  let was := s.safe
  let s := (s.setFld kSAFESTAT 2 0 st).setFld (kSTAT rWATCH) 18 16 st
  let s : State := { s with watch := { s.watch with deg := st != ssNORMAL, halt := st == ssHALTED } }
  let s := s.planTimer (st == ssNORMAL || st == ssDEGRADED)
  let s := if was = ssDEGRADED ∧ st ≠ ssDEGRADED then
      match s.watch.savedAutoms with
      | some v => ({ s with watch := { s.watch with savedAutoms := none } } : State).setAutoms v
      | none => s
    else s
  if st = ssDEGRADED ∧ was ≠ ssDEGRADED then
    let s : State := { s with watch := { s.watch with savedAutoms := some (s.fld kFBCFG 15 0), clean := 0 } }
    let s := s.raise rWATCH 16
    s.setAutoms (s.fld (rk rWATCH 2 0x10C) 15 0)
  else s

/-- DRIVE accepts a SWITCH with KIND NEW: RECOVERING ends (R576). -/
def State.leaveRecovering (s : State) : State :=
  if s.safe ≠ ssRECOVERING then s
  else
    let s := s.setFld kSAFESTAT 6 3 0
    if s.watch.latched || s.watch.remembered then
      (({ s with watch := { s.watch with remembered := false } } : State).enterSafe ssDEGRADED)
    else s.enterSafe ssNORMAL

/-- DRIVE has rejected a hand-off: HOFMAX of them in a row raise cause 3, which RECOVERING does not evaluate (R574, R576). -/
def State.hoRejected (s : State) : State :=
  let n := s.watch.hofail + 1
  if s.safe = ssRECOVERING then s
  else if s.fld (rk rWATCH 1 0x118) 7 0 ≤ n then
    ({ s with watch := { s.watch with hofail := 0 } } : State).postCause 3 true
  else { s with watch := { s.watch with hofail := n } }

end Sys2Proof.Machine
end

