-- ==== Sys2Proof/Machine/Meridian.lean ====
section
/-! DEFINITION. The Meridian timebase, its lock to a reference, the Ephemeris slots and their dispatch, trigger outputs,
encoder inputs and verniers ("Meridian Timebase, Ephemeris and Triggers", R37–R83). -/

namespace Sys2Proof.Machine

def kLOCKCFG : Nat := rk rMERID 1 0x000
def kLOCKSTAT : Nat := rk rMERID 1 0x004
def kPERIOD : Nat := rk rMERID 1 0x008
def kINCR : Nat := rk rMERID 1 0x018
def kRATE : Nat := rk rMERID 1 0x020
def kZERO : Nat := rk rMERID 1 0x024
def kLOCKTOL : Nat := rk rMERID 1 0x028
def kSLEWMAX : Nat := rk rMERID 1 0x02C
def kHOLDMAX : Nat := rk rMERID 1 0x030
def kPTPT0 : Nat := rk rMERID 1 0x038
def kPERR : Nat := rk rMERID 1 0x040
def kENC (n off : Nat) : Nat := rk rMERID 2 (n * 0x20 + off)
def kTRG (n off : Nat) : Nat := rk rMERID 3 (n * 8 + off)
def kVALIGN : Nat := rk rMERID 8 0x000
def kVERR : Nat := rk rMERID 8 0x004

/-! ### The phase -/

/-- MERID_INCR: tk per ns with 32 fraction bits (R38). -/
def State.incr (s : State) : Nat := s.rd64 kINCR

/-- 2³² / MERID_PERIOD with 32 fraction bits (R50). -/
def State.nominalIncr (s : State) : Nat := 2 ^ 64 / (s.rd kPERIOD).toNat

/-- Lock states of R50. -/
def lkFREE : Nat := 0
def lkACQUIRE : Nat := 1
def lkLOCKED : Nat := 2
def lkHOLDOVER : Nat := 3
def lkUNLOCKED : Nat := 4
def State.lock (s : State) : Nat := s.fld kLOCKSTAT 2 0

/-- `v` limited to lie between `a` and `b`, whichever is the greater. -/
def between (a b v : Nat) : Nat := Nat.max (Nat.min a b) (Nat.min (Nat.max a b) v)

/-- In FREE the increment slews from its present value towards that of MERID_PERIOD; how fast is not stated (R50, log 6). -/
def State.slewFree (s : State) : State :=
  if s.lock = lkFREE ∧ s.incr ≠ s.nominalIncr then
    let (n, s) := s.draw
    s.wr64 kINCR (between s.incr s.nominalIncr (Config.freeDWord n).toNat)
  else s

/-- Keep the AFU vernier's phase log: a segment for each change of increment or step of the phase, of the last 8 s. -/
def State.logPhase (s : State) : State :=
  let straight := match s.afu.phaseLog with
    | (t, p, i) :: _ => i == s.incr && p + BitVec.ofNat 96 (i * (s.now - t)) == s.phase
    | [] => false
  if straight then s
  else
    let old := s.afu.phaseLog
    let keep := old.takeWhile (fun e => decide (s.now < 8000000000 + e.1))
    { s with afu := { s.afu with phaseLog := (s.now, s.phase, s.incr) :: old.take (keep.length + 1) } }

/-- `ns` nanoseconds pass (R38). -/
def State.advance (s : State) (ns : Nat) : State :=
  let s := s.logPhase
  { s with now := s.now + ns, phase := s.phase + BitVec.ofNat 96 (s.incr * ns) }

/-- The timebase runs for `ns` nanoseconds. -/
def effPhaseAdvance (ns : Nat) (s : State) : State := (s.advance ns).slewFree

/-- Nanoseconds until phase `p` matches; `none` when it is past or reached (R40, R41). -/
def State.untilMatch (s : State) (p : DWord) : Option Nat :=
  let ahead := (p - s.phase64).toNat
  if ahead = 0 ∨ 2 ^ 63 < ahead then none
  else
    let need := 2 ^ 32 * ahead - (s.phase.toNat % 2 ^ 32)
    if s.incr = 0 then none else some (ceilDiv need s.incr)

/-- The phase at the end of the cycle `ns` later. -/
def State.phaseIn (s : State) (ns : Nat) : DWord := ((s.phase + BitVec.ofNat 96 (s.incr * ns)) >>> 32).setWidth 64

/-! ### Locking -/

/-- Enter a lock state (R50, R51). Entering FREE returns MERID_RATE to 0 (R49); UNLOCKED raises cause 9 (R574). -/
def State.setLock (s : State) (st : Nat) : State :=
  let s := s.setFld kLOCKSTAT 2 0 st
  let s := { s with merid := { s.merid with stateSince := s.now, inTol := 0, outTol := 0 } }
  let s := if st = lkFREE then
      { s.wr kRATE 0#32 with merid := { s.merid with lastRef := none, leftFree := false } }
    else s
  let s := if st = lkHOLDOVER ∨ st = lkUNLOCKED then (s.count rMERID 0).raise rMERID 16 { always := true } else s
  if st = lkUNLOCKED then s.postCause 9 true else s

/-- The reference is lost (R48, R50). -/
def State.refLost (s : State) : State :=
  if s.lock = lkLOCKED then s.setLock lkHOLDOVER
  else if s.lock = lkACQUIRE then s.setLock lkUNLOCKED
  else s

/-- MERID_LOCKCFG.SRC: 0 none, 1–4 encoder input 0–3, 5 gPTP (R83). -/
def State.src (s : State) : Nat := s.fld kLOCKCFG 2 0

/-- A write to MERID_LOCKCFG (R43, R52): its fields by type; a change of SRC acts on the lock state at once. -/
def effLockcfgWrite (v : Word) (t : Itag) (s : State) : State :=
  let old := s.src
  let s := s.writeGeneric kLOCKCFG t v
  let new := s.src
  if new = old then s
  else
    let s : State := { s.wr kRATE 0#32 with merid := { s.merid with lastRef := none, refSince := s.now } }
    let s := if 1 ≤ new ∧ new ≤ 4 ∧ s.fld (kENC (new - 1) 0) 1 0 = 1 then s.cfgErr rMERID t else s
    if new = 0 then (if s.lock = lkFREE then s else s.setLock lkFREE) else s.refLost

/-- The reference phase fraction of an encoder event (R43). -/
def State.encFraction (s : State) (n : Nat) : Nat :=
  let cpr := (s.rd (kENC n 4)).toNat
  let d := (s.rd (kENC n 8) - Sparse.get (fun _ => 0#32) s.merid.posIndex n).toInt
  let q : Int := if cpr = 0 then 0 else (2 ^ 32 * d) / (cpr : Int)
  patternOf 32 ((s.rd kZERO).toNat + q)

/-- The reference fraction and revolution count of a gPTP event (R44, R45). -/
def State.ptpFraction (s : State) (t : DWord) : Nat × Nat :=
  let p := (s.rd kPERIOD).toNat
  let d := (t - BitVec.ofNat 64 (s.rd64 kPTPT0)).toNat
  (2 ^ 32 * (d % p) / p, d / p % 2 ^ 32)

/-! ### Slots -/

def State.slotAux (s : State) (n : Nat) : SlotAux := Sparse.get (fun _ => {}) s.merid.slots n
def State.setSlotAux (s : State) (n : Nat) (a : SlotAux) : State :=
  { s with merid := { s.merid with slots := Sparse.set (fun _ => {}) s.merid.slots n a } }

/-- Slot status codes (R83). -/
def ssIDLE : Nat := 0
def ssARMED : Nat := 1
def ssFIRED : Nat := 2
def ssLATE : Nat := 3
def ssDENIED : Nat := 4
def ssDISABLED : Nat := 5
def State.slotStatus (s : State) (n : Nat) : Nat := s.fld (kSLOT n 3) 18 16
def State.slotArmed (s : State) (n : Nat) : Bool := s.flag (kSLOT n 3) 0
def State.slotRecurring (s : State) (n : Nat) : Bool := s.flag (kSLOT n 3) 1

/-- A recurring slot's PHASE, N (0 acts as 1) and DIV + 1 (R55). -/
def State.slotRule (s : State) (n : Nat) : Nat × Nat × Nat :=
  let rev := s.rd (kSLOT n 1)
  let c := fieldOf rev 15 0
  ((s.rd (kSLOT n 0)).toNat, if c = 0 then 1 else c, fieldOf rev 23 16 + 1)

/-- The first occurrence of a recurring rule at a phase strictly above `p` (R55): the k-th of its revolution lies at
PHASE + ⌊k·2³²/N⌋, in revolutions divisible by DIV + 1. -/
def nextOccurrence (ph n d p : Nat) : Nat :=
  let base := p + 1
  let start (r : Nat) : Nat := (r + d - 1) / d * d
  if base ≤ ph then ph
  else
    let x := base - ph
    let r := x / 2 ^ 32
    let k := ceilDiv (x % 2 ^ 32 * n) (2 ^ 32)
    if r % d = 0 ∧ k < n then 2 ^ 32 * r + ph + 2 ^ 32 * k / n
    else 2 ^ 32 * start (r + 1) + ph

/-- How many occurrences of a recurring rule lie at or below phase `p` (R46, R55). -/
def occurrencesUpTo (ph n d p : Nat) : Nat :=
  if p < ph then 0
  else
    let x := p - ph
    let r := x / 2 ^ 32
    n * ((r + d - 1) / d) + (if r % d = 0 then Nat.min n (ceilDiv ((x % 2 ^ 32 + 1) * n) (2 ^ 32)) else 0)

/-- The action a slot's words name (R56, R83). -/
def State.slotAction (s : State) (n : Nat) : Action :=
  let a := s.rd (kSLOT n 2)
  let x := fieldOf a 9 4
  match fieldOf a 3 0 with
  | 0 => .none
  | 1 => .trigger x (fieldOf a 11 10)
  | 2 => .doorbell x (fieldOf a 21 10) (fieldOf a 27 22)
  | 3 => .sample x
  | 4 => .windowOpen x (fieldOf a 15 10)
  | 5 => .windowClose x (fieldOf a 15 10)
  | 6 => .fusion x
  | _ => .reserved

/-- The page of a block that holds its self-test controller's registers (R57, R203, R404, R507, R523, R715); blocks
without such a page are checked at page 0 (log 7). -/
def selfTestPage (r : Nat) : Nat :=
  if r < 8 then 4 else if r = rPLATE then 2 else if r = rSOLV then 2 else if r = rDRIVE then 4
  else if r = rCVU then 3 else if r = rLNK then 1 else 0

/-- The rights check of arming (R57). -/
def State.armAllowed (s : State) (n : Nat) : Bool :=
  let o := s.slotOwner n
  match s.slotAction n with
  | .none => true
  | .trigger pin _ => decide (pin < 32) && s.fld (kTRG pin 0) 13 2 == o
  | .doorbell r q _ =>
    hasQueues r && decide (q ≤ queueMax r) && s.fwPermits r o (regAddr (rk r (12 + q / 1024) (q % 1024 * 4))) true
  | .sample _ => true
  | .windowOpen r _ => hasSpares r && s.fwPermits r o (regAddr (rk r (selfTestPage r) 0)) true
  | .windowClose r _ => hasSpares r && s.fwPermits r o (regAddr (rk r (selfTestPage r) 0)) true
  | .fusion st => decide (st < 16)
  | .reserved => false

/-- A slot whose storage the Ephemeris finds uncorrectable is disarmed and DISABLED (R80). -/
def State.slotDead (s : State) (n : Nat) (inj : Bool) : State :=
  let s := (s.setFlag (kSLOT n 3) 0 false).setFld (kSLOT n 3) 18 16 ssDISABLED
  ((s.setSlotAux n {}).count rMERID 7).raise rMERID 2 { inj := inj, queue := n }

/-- Does an injected double-bit error meet this read of slot `n` by the Ephemeris (R81)? -/
def State.slotEcc (s : State) (n : Nat) : Bool := s.injArmed rMERID 3 && s.fld (kEINJ rMERID) 20 11 == n

/-- Refuse to arm: ARM reads 0 and STATUS says why. -/
def State.notArmed (s : State) (n st : Nat) : State :=
  ((s.setFlag (kSLOT n 3) 0 false).setFld (kSLOT n 3) 18 16 st).setSlotAux n { s.slotAux n with next := none }

/-- Arm slot `n`, whose words stand (R57, R61, R62, R80). -/
def State.armSlot (s : State) (n : Nat) : State :=
  if s.slotStatus n = ssDISABLED then s.setFlag (kSLOT n 3) 0 false
  else if s.slotEcc n then (s.injDone rMERID 3).slotDead n true
  else if !s.armAllowed n then (s.notArmed n ssDENIED).count rMERID 7
  else
    let armed (p : DWord) : State :=
      (((s.setFlag (kSLOT n 3) 0 true).setFld (kSLOT n 3) 18 16 ssARMED).setFld (kSLOT n 3) 31 20 0).setSlotAux n { next := some p }
    if s.slotRecurring n then
      let (ph, c, d) := s.slotRule n
      armed (BitVec.ofNat 64 (nextOccurrence ph c d (s.phaseIn 319).toNat))
    else
      let p : DWord := ((s.rd (kSLOT n 1)).setWidth 64 <<< 32) ||| (s.rd (kSLOT n 0)).setWidth 64
      match s.untilMatch p with
      | some ns =>
        if 320 ≤ ns then armed p
        else ((s.notArmed n ssLATE).count rMERID 1).raise rMERID 17 { queue := n }
      | none => ((s.notArmed n ssLATE).count rMERID 1).raise rMERID 17 { queue := n }

/-- A write to a slot's CTL word (R59, R63). -/
def effSlotCtl (n : Nat) (v : Word) (t : Itag) (s : State) : State :=
  let k := kSLOT n 3
  let arm := flagOf v 0
  if s.slotArmed n ∧ arm = true then
    let s' := s.setFld k 13 2 (fieldOf v 13 2)
    if flagOf v 1 = s.flag k 1 then s' else s'.cfgErr rMERID t
  else
    let s := (s.setFld k 13 2 (fieldOf v 13 2)).setFlag k 1 (flagOf v 1)
    if arm then s.armSlot n
    else
      let st := s.slotStatus n
      let s := (s.setFlag k 0 false).setSlotAux n { s.slotAux n with next := none }
      if st = ssARMED ∨ st = ssFIRED then s.setFld k 18 16 ssIDLE else s

/-- A write to a slot's PHASE (0), REV (1) or ACT (2) word (R59, R80). -/
def effSlotWord (n w : Nat) (v : Word) (t : Itag) (s : State) : State :=
  if s.slotArmed n then s.cfgErr rMERID t
  else
    let s := s.wr (kSLOT n w) v
    if s.slotStatus n = ssDISABLED then
      let a := s.slotAux n
      let r := Nat.lor a.rewritten (2 ^ w)
      if r = 7 then (s.setSlotAux n {}).setFld (kSLOT n 3) 18 16 ssIDLE
      else s.setSlotAux n { a with rewritten := r }
    else s

/-- The fixed delay of an action after its match (R66). -/
def actionDelay : Action → Nat
  | .trigger _ _ => 3
  | .sample _ => 10
  | .fusion _ => 20
  | .doorbell _ _ _ => 40
  | .windowOpen _ _ => 100
  | .windowClose _ _ => 100
  | _ => 0

/-- Keep dispatched actions in order of effect and then of slot (R67). -/
def insertFlying (d : Dispatched) : List Dispatched → List Dispatched
  | [] => [d]
  | e :: rest =>
    if d.due < e.due ∨ (d.due = e.due ∧ d.slot < e.slot) then d :: e :: rest else e :: insertFlying d rest

/-- An occurrence has fired: LASTOCC counts it, and a one-shot slot reads FIRED (R63, R83). -/
def State.slotFired (s : State) (n : Nat) : State :=
  let k := kSLOT n 3
  let s := s.setFld k 31 20 (s.fld k 31 20 + 1)
  if s.slotRecurring n then s else s.setFld k 18 16 ssFIRED

/-- An occurrence of slot `n` that matches at `m` is one of the triggers of every enabled sensor slot that names it
(R444, R445). -/
def State.sensorTrigger (s : State) (n m : Nat) : State :=
  (List.range 32).foldl (fun (s : State) k =>
    let c := s.rd (rk rAFU 2 (0x100 + 16 * k))
    if flagOf c 27 && fieldOf c 25 16 == n && (fieldOf c 3 0 == 1 || fieldOf c 3 0 == 2) then
      let a := Sparse.get (fun _ => ({} : AfuSlot)) s.afu.slots k
      let a := { a with frames := if fieldOf c 3 0 = 1 then a.frames ++ [(m, none)] else [], refs := a.refs ++ [m] }
      { s with afu := { s.afu with slots := Sparse.set (fun _ => ({} : AfuSlot)) s.afu.slots k a } }
    else s) s

/-- The Ephemeris dispatches slot `n`'s next occurrence, 320 ns before its match time (R60). -/
def effDispatch (n : Nat) (s : State) : State :=
  match (s.slotAux n).next with
  | none => s
  | some p =>
    let ns := s.untilMatch p
    if s.slotArmed n = false ∨ 320 < ns.getD 0 then s
    else if s.slotEcc n then (s.injDone rMERID 3).slotDead n true
    else
      let a := s.slotAction n
      let next := if s.slotRecurring n then
          let (ph, c, d) := s.slotRule n
          some (BitVec.ofNat 64 (nextOccurrence ph c d p.toNat))
        else none
      let m := s.now + ns.getD 0
      let s := (s.setSlotAux n { s.slotAux n with next := next }).sensorTrigger n m
      if a = .none then s.slotFired n
      else
        { s with merid := { s.merid with flying := insertFlying { slot := n, action := a, due := m + actionDelay a, occ := p } s.merid.flying } }

/-- Is the action a trigger edge on this pin? -/
def Action.isTrigger (pin : Nat) : Action → Bool
  | .trigger p _ => p == pin
  | _ => false

/-- Is it a doorbell of this region? -/
def Action.isDoorbell (r : Nat) : Action → Bool
  | .doorbell x _ _ => x == r
  | _ => false

/-- Does it open a window of this region? -/
def Action.isOpen (r : Nat) : Action → Bool
  | .windowOpen x _ => x == r
  | _ => false

/-- Does it close a window of this region? -/
def Action.isClose (r : Nat) : Action → Bool
  | .windowClose x _ => x == r
  | _ => false

/-- Is it a Clock Drive sample? -/
def Action.isSample : Action → Bool
  | .sample _ => true
  | _ => false

/-- Is it a fusion deadline? -/
def Action.isFusion : Action → Bool
  | .fusion _ => true
  | _ => false

/-- Take the first dispatched action that meets `p` and is due (R66, R67). -/
def State.takeDue (s : State) (p : Action → Bool) : Option (Dispatched × State) :=
  match s.merid.flying.find? (fun d => p d.action && decide (d.due ≤ s.now)) with
  | none => none
  | some d => some (d, { s with merid := { s.merid with flying := s.merid.flying.erase d } })

/-- Is an action to a region dropped at its destination (R69)? -/
def State.dropsAt (s : State) (r : Nat) : Bool :=
  let st := s.pdState (regionPd r)
  s.pdDown (regionPd r) || st == 2 || (st == 5 && Sparse.get (fun _ => 0) s.pwr.wakeFrom (regionPd r) == 2) ||
    (regionCd r != 0 && s.merid.misaligned.getLsbD (regionCd r))

/-- An action is dropped: counted, and outside a restart flagged and recorded (R69). -/
def State.dropAction (s : State) (slot : Nat) : State :=
  let s := s.count rMERID 5
  if s.fld (rk rWATCH 1 0x100) 2 0 = 2 then s else s.raise rMERID 18 { always := true, queue := slot }

/-! ### Trigger outputs -/

def State.setLevel (s : State) (pin : Nat) (b : Bool) : State :=
  let m : BitVec 32 := BitVec.ofNat 32 (2 ^ pin)
  { s with merid := { s.merid with level := if b then s.merid.level ||| m else s.merid.level &&& ~~~ m } }

def State.setPulse (s : State) (pin : Nat) (x : Option (Nat × Bool)) : State :=
  { s with merid := { s.merid with pulse := Sparse.set (fun _ => none) s.merid.pulse pin x } }

/-- A write to MERID_TRGn_CFG (R71). -/
def effTrgCfg (pin : Nat) (v : Word) (t : Itag) (s : State) : State :=
  let was := s.flag (kTRG pin 0) 0
  let s := s.writeGeneric (kTRG pin 0) t v
  let is := s.flag (kTRG pin 0) 0
  if is = was then s
  else (s.setLevel pin (is && s.flag (kTRG pin 0) 1)).setPulse pin none

/-- Count two or more actions on one pin in one cycle, once (R64). -/
def State.trgConflict (s : State) (pin due : Nat) : State :=
  let same := Sparse.get (fun _ => none) s.merid.trgTime pin == some due
  let n := if same then Sparse.get (fun _ => 0) s.merid.trgCount pin + 1 else 1
  let s := { s with merid := { s.merid with
    trgTime := Sparse.set (fun _ => none) s.merid.trgTime pin (some due),
    trgCount := Sparse.set (fun _ => 0) s.merid.trgCount pin n } }
  if n = 2 then s.count rMERID 3 else s

/-- A trigger action takes effect on an enabled pin (R65, R71, R72). -/
def State.trgAct (s : State) (pin edge due : Nat) : State :=
  if s.flag (kTRG pin 0) 0 = false then s
  else
    let idle := s.flag (kTRG pin 0) 1
    if edge = 3 then
      let w := s.fld (kTRG pin 4) 15 0
      (s.setLevel pin (!idle)).setPulse pin (some (due + Nat.max 1 w, idle))
    else
      let lvl := if edge = 0 then false else if edge = 1 then true else !s.merid.level.getLsbD pin
      (s.setLevel pin lvl).setPulse pin none

/-- The first due action of a pin takes effect, 3 ns after its match (R64–R66, R72). -/
def effTriggerAction (pin : Nat) (s : State) : State :=
  match s.takeDue (Action.isTrigger pin) with
  | none => s
  | some (d, s) =>
    match d.action with
    | .trigger _ edge => ((s.trgConflict pin d.due).trgAct pin edge d.due).slotFired d.slot
    | _ => s

/-- A pulse's width has passed (R72). -/
def effPulseEnd (pin : Nat) (s : State) : State :=
  match Sparse.get (fun _ => none) s.merid.pulse pin with
  | none => s
  | some (e, lvl) => if e ≤ s.now then (s.setLevel pin lvl).setPulse pin none else s

/-! ### Verniers -/

/-- Is a clock domain without a running clock because its power domains are off, in retention or held (R68)? -/
def State.cdDown (s : State) (cd : Nat) : Bool :=
  (cdPds cd).all (fun pd => s.pdDown pd || s.pdState pd == 2)

/-- One domain's part in a vernier broadcast (R68). -/
def State.vernierCheck (s : State) (off intact : BitVec 28) (cd : Nat) : State :=
  if s.cdDown cd then s.setFlag kVALIGN cd false
  else if intact.getLsbD cd = false then s
  else if s.merid.misaligned.getLsbD cd then
    ({ s with merid := { s.merid with misaligned := s.merid.misaligned &&& ~~~ BitVec.ofNat 28 (2 ^ cd) } }).setFlag kVALIGN cd true
  else if s.flag kVALIGN cd = false then s.setFlag kVALIGN cd true
  else
    let inj := s.injArmed rMERID 2 && s.fld (kEINJ rMERID) 10 6 == cd
    let s := if inj then s.injDone rMERID 2 else s
    if off.getLsbD cd || inj then
      let s := { s with merid := { s.merid with misaligned := s.merid.misaligned ||| BitVec.ofNat 28 (2 ^ cd) } }
      ((s.setFlag kVALIGN cd false).setFlag kVERR cd true).count rMERID 4
    else s

/-- The 1 µs broadcast: `off` marks the verniers that stand more than 1 ns away, `intact` those that receive it intact. -/
def effVernier (off intact : BitVec 28) (s : State) : State :=
  match s.merid.lastBroadcast with
  | some t0 =>
    if s.now < t0 + 1000 then s
    else (List.range 27).foldl (fun s i => s.vernierCheck off intact (i + 1))
      { s with merid := { s.merid with lastBroadcast := some s.now } }
  | none => (List.range 27).foldl (fun s i => s.vernierCheck off intact (i + 1))
      { s with merid := { s.merid with lastBroadcast := some s.now } }

/-! ### Encoder inputs -/

/-- An encoder error: ERR bit `b`, BLK_ECNT6, and a lost reference when the input is the source (R48, R75–R77). -/
def State.encError (s : State) (n b : Nat) : State :=
  let s := (s.setFlag (kENC n 0x14) b true).count rMERID 6
  if s.src = n + 1 then s.refLost else s

/-- A filtered sample of a quadrature input in which A or B changed; `both` says that both did (R74, R75). -/
def effTransition (n : Nat) (fwd both : Bool) (s : State) : State :=
  let mode := s.fld (kENC n 0) 1 0
  if mode = 1 ∨ mode = 2 then
    let inj := s.injArmed rMERID 0 && s.fld (kEINJ rMERID) 5 4 == n
    let s := if inj then s.injDone rMERID 0 else s
    if both || inj then s.encError n 0
    else
      let up := fwd != s.flag (kENC n 0) 2
      s.wr (kENC n 8) (if up then s.rd (kENC n 8) + 1#32 else s.rd (kENC n 8) - 1#32)
  else s

/-- Stamp an event of an input with the present phase (R78). -/
def State.encStamp (s : State) (n : Nat) : State := s.wr64 (kENC n 0x0C) s.phase64.toNat

/-- An index pulse (R76, R78). -/
def effIndex (n : Nat) (s : State) : State :=
  if s.fld (kENC n 0) 1 0 = 2 then
    let pos := s.rd (kENC n 8)
    let d := (pos - Sparse.get (fun _ => 0#32) s.merid.posIndex n).toInt.natAbs
    let bad := s.merid.seenIndex.contains n && d != (s.rd (kENC n 4)).toNat
    let s := s.encStamp n
    let s := { s with merid := { s.merid with
      posIndex := Sparse.set (fun _ => 0#32) s.merid.posIndex n pos,
      seenIndex := if s.merid.seenIndex.contains n then s.merid.seenIndex else n :: s.merid.seenIndex } }
    if bad then s.encError n 1 else s
  else s

/-- Gray code to binary. -/
def grayNat : Nat → Nat → Nat
  | 0, _ => 0
  | n + 1, g =>
    let b := grayNat n (g / 2)
    2 * b + (if b % 2 = g % 2 then 0 else 1)

/-- An SSI frame of SSI_BITS data bits and, with SSI_PAR, an even parity bit (R77, R78). -/
def effSsi (n : Nat) (data : Word) (parity : Bool) (s : State) : State :=
  let c := s.rd (kENC n 0)
  if fieldOf c 1 0 = 3 then
    let bits := fieldOf c 13 8
    let d := data.toNat % 2 ^ bits
    let ones := (List.range 32).foldl (fun a i => a + (if bitOf d i then 1 else 0)) (if parity then 1 else 0)
    if flagOf c 15 ∧ ones % 2 = 1 then s.encError n 2
    else (s.wr (kENC n 8) (BitVec.ofNat 32 (if flagOf c 14 then grayNat bits d else d))).encStamp n
  else s

/-! ### Reference events -/

/-- Skip the occurrences that a forward step from `a` to `b` passes over (R46). -/
def State.skipSlots (s : State) (a b : Nat) : State :=
  s.merid.slots.foldl (fun acc e =>
    match e.2.next with
    | none => acc
    | some p =>
      if p.toNat ≤ a ∨ b < p.toNat then acc
      else if acc.slotRecurring e.1 then
        let (ph, c, d) := acc.slotRule e.1
        let n := occurrencesUpTo ph c d b - occurrencesUpTo ph c d (p.toNat - 1)
        (acc.count rMERID 2 n).setSlotAux e.1 { e.2 with next := some (BitVec.ofNat 64 (nextOccurrence ph c d b)) }
      else (acc.count rMERID 2).setSlotAux e.1 { e.2 with next := none }) s

/-- The forward step of R45: by the fraction error, and in gPTP mode up to the revolution count given. -/
def State.stepPhase (s : State) (ref : Nat) (rev : Option Nat) : State :=
  let a := s.phase64.toNat
  let b := a + (2 ^ 32 + ref - a % 2 ^ 32) % 2 ^ 32
  let b := match rev with | some r => Nat.max b (2 ^ 32 * r + ref) | none => b
  let s := { s with phase := BitVec.ofNat 96 (2 ^ 32 * (b % 2 ^ 64) + s.phase.toNat % 2 ^ 32) }
  let s := (s.skipSlots a b).setFlag kLOCKSTAT 3 true
  { s.setFlag kLOCKCFG 6 false with locks := if s.locks.contains kLOCKCFG then s.locks else kLOCKCFG :: s.locks }

/-- In ACQUIRE and LOCKED the Meridian corrects the error by changing MERID_INCR within ±MERID_SLEWMAX ppm of the
increment of MERID_PERIOD; by how much is not stated (R47, log 6). -/
def State.slewLocked (s : State) : State :=
  let nom := s.nominalIncr
  let lim := nom * s.fld kSLEWMAX 15 0 / 1000000
  let (n, s) := s.draw
  s.wr64 kINCR (between (nom - lim) (nom + lim) (Config.freeDWord n).toNat)

/-- The lock state machine at a valid reference event whose fraction is `ref` (R45, R49, R50). -/
def State.refEvent (s : State) (ref : Nat) (rev : Option Nat) : State :=
  let s := match s.merid.lastRef with
    | some t0 => s.wr kRATE (BitVec.ofNat 32 (s.now - t0))
    | none => s
  let s := { s with merid := { s.merid with lastRef := some s.now } }
  let err := signedOf 32 (2 ^ 32 + ref - s.phase64.toNat % 2 ^ 32)
  let s := s.wr kPERR (BitVec.ofInt 32 err)
  let st := s.lock
  let within := decide (err.natAbs ≤ (s.rd kLOCKTOL).toNat)
  let step := s.merid.leftFree && s.flag kLOCKCFG 6
  let s := if s.merid.leftFree then { s with merid := { s.merid with leftFree := false } } else s
  let s := if step then s.stepPhase ref rev else s
  if st = lkFREE then
    let s := s.setLock lkACQUIRE
    { s with merid := { s.merid with leftFree := true } }
  else if st = lkHOLDOVER ∨ st = lkUNLOCKED then s.setLock lkACQUIRE
  else if st = lkACQUIRE then
    let s := s.slewLocked
    if within then
      if s.merid.inTol + 1 ≥ s.fld kLOCKCFG 15 8 then s.setLock lkLOCKED
      else { s with merid := { s.merid with inTol := s.merid.inTol + 1 } }
    else { s with merid := { s.merid with inTol := 0 } }
  else
    let s := s.slewLocked
    if within then { s with merid := { s.merid with outTol := 0 } }
    else if s.merid.outTol + 1 ≥ 2 then s.setLock lkACQUIRE
    else { s with merid := { s.merid with outTol := s.merid.outTol + 1 } }

/-- A reference event: it counts only from the selected source, with no error of the input, and while INJ_REFLOSS is 0
(R43, R44, R48, R52, R81). An index whose measured period leaves 25–200 ms loses the reference (R48). -/
def effReference (r : RefSource) (s : State) : State :=
  if s.injArmed rMERID 1 then s
  else
    match r with
    | .encoder e =>
      let n := e.toNat
      let mode := s.fld (kENC n 0) 1 0
      if s.src ≠ n + 1 ∨ (mode ≠ 2 ∧ mode ≠ 3) ∨ s.fld (kENC n 0x14) 3 0 ≠ 0 then s
      else
        let tooFar := mode == 2 && (match s.merid.lastRef with
          | some t0 => decide (s.now - t0 < 25000000) || decide (200000000 < s.now - t0)
          | none => false)
        if tooFar then ({ s with merid := { s.merid with lastRef := some s.now } }).refLost
        else s.refEvent (s.encFraction n) none
    | .gptp m t =>
      if s.src ≠ 5 ∨ s.fld kLOCKCFG 5 3 ≠ m.toNat then s
      else
        let (f, rev) := s.ptpFraction t
        s.refEvent f (some rev)

/-- No reference event within 1.5 × MERID_RATE, or 1.5 × MERID_PERIOD while MERID_RATE reads 0 (R48, R49). -/
def effRefTimeout (s : State) : State :=
  let rate := (s.rd kRATE).toNat
  let lim := if rate = 0 then (s.rd kPERIOD).toNat else rate
  let from_ := s.merid.lastRef.getD s.merid.refSince
  if 1 ≤ s.src ∧ s.src ≤ 4 ∧ 3 * lim ≤ 2 * (s.now - from_) then s.refLost else s

/-- MERID_HOLDMAX ms have passed in HOLDOVER (R50). -/
def effHoldover (s : State) : State :=
  if s.lock = lkHOLDOVER ∧ 1000000 * s.fld kHOLDMAX 15 0 ≤ s.now - s.merid.stateSince then s.setLock lkUNLOCKED else s

/-! ### The meanings of the commands that are no register writes -/

/-- R38. -/
def execPhaseAdvance (ns : Nat) (s : State) : Outcome := .next (effPhaseAdvance ns s)
/-- R43–R50. -/
def execReferenceEvent (src : RefSource) (s : State) : Outcome := .next (effReference src s)
/-- R48. -/
def execReferenceTimeout (s : State) : Outcome := .next (effRefTimeout s)
/-- R50. -/
def execHoldoverExpiry (s : State) : Outcome := .next (effHoldover s)
/-- R60. -/
def execOccurrenceDispatch (slot : BitVec 10) (s : State) : Outcome := .next (effDispatch slot.toNat s)
/-- R72. -/
def execTriggerAction (pin : BitVec 5) (s : State) : Outcome := .next (effTriggerAction pin.toNat s)
/-- R72. -/
def execPulseEnd (pin : BitVec 5) (s : State) : Outcome := .next (effPulseEnd pin.toNat s)
/-- R68. -/
def execVernierBroadcast (off intact : BitVec 28) (s : State) : Outcome := .next (effVernier off intact s)
/-- R74, R75. -/
def execEncoderTransition (enc : BitVec 2) (fwd both : Bool) (s : State) : Outcome :=
  .next (effTransition enc.toNat fwd both s)
/-- R76. -/
def execEncoderIndex (enc : BitVec 2) (s : State) : Outcome := .next (effIndex enc.toNat s)
/-- R77. -/
def execSsiSample (enc : BitVec 2) (data : Word) (parity : Bool) (s : State) : Outcome :=
  .next (effSsi enc.toNat data parity s)

end Sys2Proof.Machine
end

