-- ==== Sys2Proof/Machine/ObjTx.lean ====
section
/-! DEFINITION. Reads and writes of objects by engines: the firewall check of the bytes an operation names and the access
itself (R215, R224, R225, R228, R245, R564–R566). -/

namespace Sys2Proof.Machine

/-- Site and address by which an object's byte is checked: the Plate or Archive address of P0 and held P1, the aperture
address of P2–P4, and HOME's for a borrowed P1 object (log 36). -/
def State.objPoint (s : State) (o : Obj) (off : Nat) : Site × Nat :=
  if o.cls = 0 ∨ (o.cls = 1 ∧ o.hold = true) then (s.site (o.loc + off), o.loc + off)
  else if o.cls = 1 then
    match s.objEntry o.home with
    | some h => (.obj h off, h.sysbase + off)
    | none => (.nowhere, 0)
  else (.obj o off, o.sysbase + off)

def State.objCheckAt (s : State) (t : Itag) (o : Obj) (write : Bool) (viol : Option (Nat × Nat × Nat)) :
    List Nat → Tx Unit × State
  | [] => (.ok (), s)
  | off :: rest =>
    let (x, a) := s.objPoint o off
    match s.checkSite t a x write with
    | (.pass, s) =>
      if s.pdDown (sitePd x) then (.error, s) else (s.demandPd (sitePd x)).objCheckAt t o write viol rest
    | (.violation b bit, s) => (.firewall, s.violate t b bit a viol)
    | (.mismatch, s) => (.firewall, s)

/-- Check a range of an object for an ITAG. -/
def State.objCheck (s : State) (t : Itag) (o : Obj) (off n : Nat) (write : Bool) (viol : Option (Nat × Nat × Nat)) :
    Tx Unit × State :=
  s.objCheckAt t o write viol (checkPoints off n)

/-- Read a range of an object; the flag tells that a unit was reconstructed from parity. -/
def State.objTxRead (s : State) (t : Itag) (o : Obj) (off n : Nat) (viol : Option (Nat × Nat × Nat) := none) :
    Tx (List Byte × Bool) × State :=
  match s.objCheck t o off n false viol with
  | (.ok (), s) =>
    let (ue, s) := s.memInjects ((checkPoints off n).map (fun i => (s.objPoint o i).1))
    if ue then (.uncorrectable, s)
    else
      match s.readObj o off n with
      | some r => (.ok r, s)
      | none => (.uncorrectable, s.noteUncorr (s.objPoint o off).1)
  | (.firewall, s) => (.firewall, s)
  | (.error, s) => (.error, s)
  | (.uncorrectable, s) => (.uncorrectable, s)

/-- Write a range of an object. -/
def State.objTxWrite (s : State) (t : Itag) (o : Obj) (off : Nat) (bs : List Byte) (viol : Option (Nat × Nat × Nat) := none) :
    Tx Unit × State :=
  match s.objCheck t o off bs.length true viol with
  | (.ok (), s) =>
    let (s, good) := s.writeObj o off bs
    (if good then .ok () else .uncorrectable, s)
  | r => r

/-- A valid object of one of the classes, by handle (R216). -/
def State.validObj (s : State) (h : Nat) (classes : List Nat) : Option Obj :=
  if s.objMax < h then none
  else
    match s.objEntry h with
    | some o => if s.objOk o && classes.contains o.cls then some o else none
    | none => none

end Sys2Proof.Machine
end

