-- ==== Sys2Proof/Machine/Kvw.lean ====
section
/-! DEFINITION. The KV walkers (R252–R295): page tables and the Finder, appends in normal and quantised form, staging and
flushes, gathers into the ring, and row gathers. -/

namespace Sys2Proof.Machine

/-- A register of walker `n`. -/
def kWK (n off : Nat) : Nat := rk rKVW (2 + n) off
def kKVMODE : Nat := rk rKVW 1 0x100

def State.walker (s : State) (n : Nat) : Walker := Sparse.get (fun _ => {}) s.walkers n
def State.setWalker (s : State) (n : Nat) (w : Walker) : State := { s with walkers := Sparse.set (fun _ => {}) s.walkers n w }

/-- Geometry (R252). -/
def State.kvLG (s : State) (n : Nat) : Nat := s.fld (kWK n 0x108) 2 0 + 1
def State.kvLGN (s : State) (n : Nat) : Nat := s.fld (kWK n 0x108) 7 3 + 1
def State.kvHPD (s : State) (n : Nat) : Nat := s.fld (kWK n 0x108) 10 8 + 1

/-- FPITCH of a geometry (R254). -/
def fpitchOf (hpd lg : Nat) : Nat := ceilDiv (64 + 16896 * (hpd * lg)) 3840 * 3840
def State.fpitch (s : State) (n : Nat) : Nat := fpitchOf (s.kvHPD n) (s.kvLG n)

def plateBase (n : Nat) : Nat := 0x00E0000000 + 0x02000000 * n
def State.stagingAt (s : State) (n stg : Nat) : Nat := plateBase n + s.fld (kWK n 0x11C) 24 0 + stg * s.fpitch n
def State.ringAt (s : State) (n i : Nat) : Nat := plateBase n + s.fld (kWK n 0x124) 24 0 + 32832 * i
def domeItag (n : Nat) : Itag := BitVec.ofNat 12 (0x40 + n)

/-- Ring slot of an address in the walker's ring (R269). -/
def State.ringSlotOf (s : State) (n a : Nat) : Option Nat :=
  let r := s.ringAt n 0
  if r ≤ a ∧ a < r + 32832 * s.fld (kWK n 0x128) 10 0 then some ((a - r) / 32832) else none

/-- Injection selected for this walker (R294). -/
def State.kvInj (s : State) (n b : Nat) : Bool := s.injArmed rKVW b && s.fld (kEINJ rKVW) 6 4 == n

/-! ### PTEs -/

def pteValid (p : Nat) : Bool := bitOf p 0
def pteQa (p : Nat) : Bool := bitOf p 1
def pteOpen (p : Nat) : Bool := bitOf p 2
def pteStaged (p : Nat) : Bool := bitOf p 3
def pteFill (p : Nat) : Nat := bitsOf p 10 4
def pteCommit (p : Nat) : Nat := bitsOf p 17 11
def pteFrame (p : Nat) : Nat := bitsOf p 47 24
/-- The PTE with the walker's fields replaced. -/
def pteWith (p : Nat) (qa open_ staged : Bool) (fill commit : Nat) : Nat :=
  (if pteValid p then 1 else 0) + (if qa then 2 else 0) + (if open_ then 4 else 0) + (if staged then 8 else 0) + fill * 2 ^ 4 +
    commit * 2 ^ 11 + 2 ^ 18 * bitsOf p 63 18

/-- How a walk can end: the PTE with its line, absent, or a status that ends the RUN. -/
inductive Walk where
  | found (pte : Nat) (line : FinderLine)
  | absent
  | failed (st : Nat)
  deriving DecidableEq, Repr

/-- Put a line first; the Finder keeps 64 (R259). -/
def Walker.touch (w : Walker) (l : FinderLine) : Walker :=
  { w with finder := (l :: w.finder.filter (fun x => !(x.seq == l.seq && x.grp == l.grp && x.line == l.line))).take 64 }

/-- Eight 64-bit words. -/
def dwordsOf : Nat → List Byte → List Nat
  | 0, _ => []
  | n + 1, bs => leNat (bs.take 8) :: dwordsOf n (bs.drop 8)

/-- A Finder miss: the L1 entry, then the PTE line (R256, R259, R260). -/
def State.kvFill (s : State) (n seq g k : Nat) : Walk × State :=
  let s := s.addSat (kWK n 0x138) 31 0 1
  match s.txRead (some (domeItag n)) (s.rd64 (kWK n 0x100) + (seq * s.kvLGN n + g) * 16) 16 with
  | (.ok bs, s) =>
    let w0 := leNat (bs.take 4)
    let l2 := leNat (bs.drop 8)
    if bitOf w0 0 = false ∨ bitsOf w0 11 1 ≤ k then (.absent, s)
    else
      match s.txRead (some (domeItag n)) (l2 + k / 8 * 64) 64 with
      | (.ok ls, s) =>
        let l : FinderLine := { seq := seq, grp := g, line := k / 8, stg := bitsOf w0 23 16, npages := bitsOf w0 11 1, l2 := l2,
                                ptes := dwordsOf 8 ls }
        (.found (l.ptes.getD (k % 8) 0) l, s.setWalker n ((s.walker n).touch l))
      | (tx, s) => (.failed tx.status, s)
  | (tx, s) => (.failed tx.status, s)

/-- Look a page up: a hit in the Finder, unless its line is uncorrectable (R292), or a walk. -/
def State.kvWalk (s : State) (n seq g k : Nat) : Walk × State :=
  if s.kvInj n 2 then (.absent, s.injDone rKVW 2)
  else
    match (s.walker n).finder.find? (fun l => l.seq == seq && l.grp == g && l.line == k / 8) with
    | some l =>
      if s.kvInj n 0 then
        let w := s.walker n
        let s := ((s.injDone rKVW 0).count rKVW 1).setWalker n { w with finder := w.finder.erase l }
        s.kvFill n seq g k
      else if l.npages ≤ k then (.absent, s)
      else (.found (l.ptes.getD (k % 8) 0) l, (s.addSat (kWK n 0x134) 31 0 1).setWalker n ((s.walker n).touch l))
    | none => s.kvFill n seq g k

/-- A position that resolves ABSENT is flagged and counted (R260). -/
def State.kvAbsent (s : State) : State := (s.count rKVW 2).raise rKVW 16

/-- Write a PTE in memory and in the Finder together (R258). -/
def State.setPte (s : State) (n : Nat) (l : FinderLine) (k pte : Nat) : Tx Unit × State :=
  match s.txWrite (some (domeItag n)) (l.l2 + k * 8) (leBytes 8 pte) with
  | (.ok u, s) => (.ok u, s.setWalker n ((s.walker n).touch { l with ptes := l.ptes.set (k % 8) pte }))
  | r => r

/-! ### Frames -/

/-- The pool object (R254). -/
def State.kvPool (s : State) (n : Nat) : Option Obj := s.validObj (s.fld (kWK n 0x10C) 15 0) [2, 3]

/-- Byte offset of section (lo, h) in a frame (R253). -/
def sectionOff (hpd lo h : Nat) : Nat := 0x40 + 0x4200 * (lo * hpd + h)

/-- The 64-byte frame header (R253). -/
def frameHeader (qamask seq grp page : Nat) : List Byte :=
  let h := leBytes 8 qamask ++ leBytes 4 (seq % 4096 + 4096 * grp) ++ leBytes 4 page ++ List.replicate 0x2C 0#8
  h ++ leBytes 4 (crc32c h)

/-- Where a page's bytes are written: its frame, or its staging slot. -/
inductive Page where
  | frame (f : Nat)
  | staging (stg : Nat)
  deriving DecidableEq, Repr

/-- Write bytes of a page. -/
def State.pageWrite (s : State) (n : Nat) (pool : Obj) (p : Page) (off : Nat) (bs : List Byte) : Tx Unit × State :=
  match p with
  | .frame f =>
    if pool.size < f * s.fpitch n + off + bs.length then (.uncorrectable, s)
    else s.objTxWrite (domeItag n) pool (f * s.fpitch n + off) bs
  | .staging g => s.txWrite none (s.stagingAt n g + off) bs

/-- Read bytes of a page. -/
def State.pageRead (s : State) (n : Nat) (pool : Obj) (p : Page) (off len : Nat) : Tx (List Byte) × State :=
  match p with
  | .frame f =>
    if pool.size < f * s.fpitch n + off + len then (.uncorrectable, s)
    else
      match s.objTxRead (domeItag n) pool (f * s.fpitch n + off) len with
      | (.ok r, s) => (.ok r.1, s)
      | (.firewall, s) => (.firewall, s)
      | (.error, s) => (.error, s)
      | (.uncorrectable, s) => (.uncorrectable, s)
  | .staging g => s.txRead none (s.stagingAt n g + off) len

/-! ### Scales and forms -/

/-- A quotient of two values as an exact value with a sticky bit; `none` for a NaN result. -/
def divFv (a b : Fv) : Option (Fv × Bool) :=
  match a, b with
  | .nan, _ => none
  | _, .nan => none
  | .inf n, .num n2 _ _ => some (.inf (n != n2), false)
  | .inf _, .inf _ => none
  | .num n1 _ _, .inf n2 => some (.num (n1 != n2) 0 0, false)
  | .num n1 m1 e1, .num n2 m2 e2 =>
    if m2 = 0 then (if m1 = 0 then none else some (.inf (n1 != n2), false))
    else some (.num (n1 != n2) (2 ^ 80 * m1 / m2) (e1 - e2 - 80), 2 ^ 80 * m1 % m2 != 0)

/-- x / scale as E4M3, rounded once to nearest even and saturated (R255). -/
def toE4m3 (x : Fv) (scale : Word) : Nat × Numf :=
  match divFv x (f32 scale) with
  | some (v, sticky) => e4m3.convert .rne true v sticky
  | none => (0x7F, nfNanIn)

/-- Is a scale a positive normal FP32 value (R255)? -/
def scaleOk (w : Word) : Bool := decide (0x00800000 ≤ w.toNat) && decide (w.toNat < 0x7F800000)

/-- KSCALE and VSCALE of a layer and head (R255). -/
def State.kvScales (s : State) (n layer h : Nat) : Tx (Word × Word) × State :=
  match s.txRead (some (domeItag n)) (s.rd64 (kWK n 0x114) + (layer * s.kvHPD n + h) * 8) 8 with
  | (.ok bs, s) => (.ok (BitVec.ofNat 32 (leNat (bs.take 4)), BitVec.ofNat 32 (leNat (bs.drop 4))), s)
  | (.firewall, s) => (.firewall, s)
  | (.error, s) => (.error, s)
  | (.uncorrectable, s) => (.uncorrectable, s)

/-- A row quantised into four blocks (R281): scales and elements. -/
def qaRow (row : List Word) : List Byte × List Byte :=
  let bs := (rowsOf 32 4 row.zipIdx).map (quantBlock 5 {})
  (bs.map (fun b => BitVec.ofNat 8 b.1), bs.flatMap (fun b => b.2.1.map (BitVec.ofNat 8)))

/-- A quantised row converted to normal form (R282). -/
def qaToNormal (scale : Word) (scs els : List Byte) : List Byte × Numf :=
  let ys := els.zipIdx.map (fun e =>
    let x := (scs.getD (e.2 / 32) 0#8).toNat
    if x = 0xFF then ((0x7F : Nat), nfNanIn)
    else match e4m3.decode e.1.toNat with
      | .num n m ex => toE4m3 (.num n m (ex + (x : Int) - 127)) scale
      | _ => (0x7F, nfNanIn))
  (ys.map (fun y => BitVec.ofNat 8 y.1), ys.foldl (fun a y => a ||| y.2) 0)

/-! ### Work records (R262, R267) -/

structure GwFields where
  seq : Nat
  head : Nat
  self : Nat
  qam : Bool
  kind : Nat
  layer : Nat
  qrows : Nat
  gqa : Nat
  len : Nat
  first : Nat
  qpos : Nat
  win : Nat
  rslot : Nat
  cons : Nat
  reservedSet : Bool
  deriving DecidableEq, Repr

def GwFields.ofBytes (bs : List Byte) : GwFields :=
  let w := fun (o : Nat) => leNat ((bs.drop o).take 4)
  { seq := bitsOf (w 0) 11 0, head := bitsOf (w 0) 14 12, self := bitsOf (w 0) 15 15, qam := bitOf (w 0) 16,
    kind := bitsOf (w 0) 18 17, layer := bitsOf (w 4) 7 0, qrows := bitsOf (w 4) 15 8 + 1, gqa := bitsOf (w 4) 19 16 + 1,
    len := bitsOf (w 8) 16 0, first := bitsOf (w 0xC) 16 0, qpos := bitsOf (w 0x10) 16 0, win := bitsOf (w 0x14) 16 0,
    rslot := bitsOf (w 0x18) 9 0, cons := bitsOf (w 0x18) 11 10 + 1,
    reservedSet := bitsOf (w 0) 31 19 != 0 || bitsOf (w 4) 31 20 != 0 || bitsOf (w 8) 31 17 != 0 || bitsOf (w 0xC) 31 17 != 0 ||
      bitsOf (w 0x10) 31 17 != 0 || bitsOf (w 0x14) 31 17 != 0 || bitsOf (w 0x18) 31 12 != 0 || w 0x1C != 0 }

/-- A record's fields fit the walker's geometry. -/
def State.gwOk (s : State) (n : Nat) (r : GwFields) : Bool :=
  !r.reservedSet && decide (r.head < s.kvHPD n) && decide (r.layer < s.kvLG n * s.kvLGN n)

/-- The prescan of one KV_APPEND record (R272): the status that ends the RUN, if any. -/
def State.kvPrescan (s : State) (n : Nat) (bs : List Byte) : Option Nat × State :=
  let r := GwFields.ofBytes bs
  if !s.gwOk n r || r.kind != 0 then (some 0x21, s)
  else if 65535 < r.len then (some 0x22, s)
  else
    match s.kvWalk n r.seq (r.layer / s.kvLG n) (r.len / 64) with
    | (.found p _, s) => (if pteValid p then none else some 0x20, s)
    | (.absent, s) => (some 0x20, s)
    | (.failed st, s) => (some st, s)

/-- Run a write and keep its failing status. -/
def thenTx (r : Option Nat × State) (f : State → Tx Unit × State) : Option Nat × State :=
  match r with
  | (some st, s) => (some st, s)
  | (none, s) => (match f s with | (.ok _, s) => (none, s) | (tx, s) => (some tx.status, s))

/-- The whole staging image moves to the frame when a staged page is full (R275). -/
def State.kvFlushFull (s : State) (n : Nat) (pool : Obj) (stg f : Nat) : Tx Unit × State :=
  match s.pageRead n pool (.staging stg) 0 (s.fpitch n) with
  | (.ok bs, s) => s.pageWrite n pool (.frame f) 0 bs
  | (.firewall, s) => (.firewall, s)
  | (.error, s) => (.error, s)
  | (.uncorrectable, s) => (.uncorrectable, s)

/-- Set or clear a page in the list of staged pages. -/
def State.noteStaged (s : State) (n seq g k l2 : Nat) (on : Bool) : State :=
  let w := s.walker n
  let rest := w.staged.filter (fun x => x != (seq, g, k, l2))
  s.setWalker n { w with staged := if on then (seq, g, k, l2) :: rest else rest }

/-- KVW_MODE.QA and DRAINED (R280, R283). -/
def State.showKvMode (s : State) : State :=
  let staged := (List.range 8).any (fun n => !(s.walker n).staged.isEmpty)
  (s.setFlag kKVMODE 1 (s.openQam1 != 0)).setFlag kKVMODE 2 (s.openQam0 == 0 && !staged)

/-- The first record of a page opens it with its header. -/
def State.kvOpenPage (s : State) (n : Nat) (pool : Obj) (page : Page) (pte : Nat) (seq g k : Nat) : Option Nat × State :=
  if pteOpen pte then (none, s) else thenTx (none, s) (fun s => s.pageWrite n pool page 0 (frameHeader 0 seq g k))

/-- QAMASK gains row `t`, and HCRC is rewritten (R281). -/
def State.kvMask (x : Option Nat × State) (n : Nat) (pool : Obj) (page : Page) (seq g k t : Nat) : Option Nat × State :=
  match x with
  | (some e, s) => (some e, s)
  | (none, s) =>
    match s.pageRead n pool page 0 8 with
    | (.ok m, s) =>
      thenTx (none, s) (fun s => s.pageWrite n pool page 0 (frameHeader (Nat.lor (leNat m) (2 ^ t)) seq g k))
    | (tx, s) => (some tx.status, s)

/-- The rows of one record go to their page: at `off`, and at `off + 0x2000` the value row. -/
def State.kvPutRows (x : Option Nat × State) (n : Nat) (pool : Obj) (page : Page) (off : Nat) (kb vb : List Byte) :
    Option Nat × State :=
  thenTx (thenTx x (fun s => s.pageWrite n pool page off kb)) (fun s => s.pageWrite n pool page (0x2000 + off) vb)

/-- Their scales, in quantised-append form (R281). -/
def State.kvPutScales (x : Option Nat × State) (n : Nat) (pool : Obj) (page : Page) (off : Nat) (ksc vsc : List Byte) :
    Option Nat × State :=
  thenTx (thenTx x (fun s => s.pageWrite n pool page (0x4000 + off) ksc)) (fun s => s.pageWrite n pool page (0x4100 + off) vsc)

/-- FILL advances with the last layer's append of the next position (R261); a full page is flushed and committed (R275);
the page table entry is written. -/
def State.kvAdvance (x : Option Nat × State) (n : Nat) (pool : Obj) (pte : Nat) (l : FinderLine) (seq g k : Nat) (qam stage adv : Bool) :
    Option Nat × State :=
  let fill := if adv then pteFill pte + 1 else pteFill pte
  let staged := pteStaged pte || stage
  let full := adv && fill == 64
  let x := if full && staged then thenTx x (fun s => s.kvFlushFull n pool l.stg (pteFrame pte)) else x
  let commit := if full then 64 else if adv && !staged then fill else pteCommit pte
  let pte' := pteWith pte (pteQa pte || qam) (!full) (staged && !full) fill commit
  let x := thenTx x (fun s => s.setPte n l k pte')
  let s := (x.2.noteStaged n seq g k l.l2 (staged && !full)).showKvMode
  (x.1, if qam then s.countTcc rKVW else s)

/-- One KV_APPEND: key and value rows of 128 FP32 values (R261, R274, R275, R281, R285). `allHeads` says that every other
head of the layer has appended this position. Answers the status that ends the RUN, the row in normal form, and whether
quantised-append form was used. -/
def State.kvAppend (s : State) (n : Nat) (bs : List Byte) (krow vrow : List Word) (allHeads : Bool) :
    (Option Nat × State) × Appended × Bool × Numf :=
  let r := GwFields.ofBytes bs
  let lg := s.kvLG n
  let g := r.layer / lg
  let lo := r.layer % lg
  let k := r.len / 64
  let t := r.len % 64
  let none' : Appended := { seq := r.seq, layer := r.layer, head := r.head, pos := r.len, k := [], v := [] }
  if !s.gwOk n r || r.kind != 0 then ((some 0x21, s), none', false, 0)
  else
    match s.kvPool n with
    | none => ((some 0x21, s), none', false, 0)
    | some pool =>
      match s.kvScales n r.layer r.head with
      | (.ok (ks, vs), s) =>
        if !scaleOk ks || !scaleOk vs then ((some 0x21, s), none', false, 0)
        else
          match s.kvWalk n r.seq g k with
          | (.failed st, s) => ((some st, s), none', false, 0)
          | (.absent, s) => ((some 0x20, s), none', false, 0)
          | (.found pte l, s) =>
            if !pteValid pte then ((some 0x20, s), none', false, 0)
            else
              let stage := !r.qam && l.stg != 0xFF && !pteQa pte && decide (l.stg < s.fld (kWK n 0x120) 7 0)
              let page : Page := if stage then .staging l.stg else .frame (pteFrame pte)
              let sec := sectionOff (s.kvHPD n) lo r.head
              let adv := lo + 1 == lg && allHeads && pteFill pte == t
              if r.qam then
                let (ksc, kel) := qaRow krow
                let (vsc, vel) := qaRow vrow
                let (kq, fq1) := qaToNormal ks ksc kel
                let (vq, fq2) := qaToNormal vs vsc vel
                let x := State.kvPutRows (s.kvOpenPage n pool page pte r.seq g k) n pool page (sec + t * 128) kel vel
                let x := State.kvMask (State.kvPutScales x n pool page (sec + t * 4) ksc vsc) n pool page r.seq g k t
                (State.kvAdvance x n pool pte l r.seq g k true stage adv, { none' with k := kq, v := vq }, true, fq1 ||| fq2)
              else
                let kn := krow.map (fun x => toE4m3 (f32 x) ks)
                let vn := vrow.map (fun x => toE4m3 (f32 x) vs)
                let kb := kn.map (fun y => BitVec.ofNat 8 y.1)
                let vb := vn.map (fun y => BitVec.ofNat 8 y.1)
                let x := State.kvPutRows (s.kvOpenPage n pool page pte r.seq g k) n pool page (sec + t * 128) kb vb
                (State.kvAdvance x n pool pte l r.seq g k false stage adv, { none' with k := kb, v := vb }, false,
                  (kn ++ vn).foldl (fun a y => a ||| y.2) 0)
      | (tx, s) => ((some tx.status, s), none', false, 0)

/-! ### Gathers -/

/-- Bounds of row `i` of a gather record (R263). -/
def GwFields.hi (r : GwFields) (i : Nat) : Nat := r.qpos + i / r.gqa + r.self
def GwFields.lo (r : GwFields) (i : Nat) : Nat := if r.win = 0 then 0 else r.hi i - r.win

/-- A cached row of K or V in normal form (R260, R276, R282, R290). -/
def State.kvRow (s : State) (n : Nat) (pool : Obj) (r : GwFields) (isV : Bool) (scale : Word) (p : Nat) :
    (Option Nat × State) × List Byte × Numf :=
  let lg := s.kvLG n
  let k := p / 64
  let t := p % 64
  let sec := sectionOff (s.kvHPD n) (r.layer % lg) r.head + (if isV then 0x2000 else 0)
  let scOff := sectionOff (s.kvHPD n) (r.layer % lg) r.head + (if isV then 0x4100 else 0x4000)
  match s.kvWalk n r.seq (r.layer / lg) k with
  | (.failed st, s) => ((some st, s), [], 0)
  | (.absent, s) => ((some 0x21, s.kvAbsent), [], 0)
  | (.found pte l, s) =>
    if !pteValid pte || decide (pteFill pte ≤ t) then ((some 0x21, s.kvAbsent), [], 0)
    else if pteCommit pte ≤ t then
      if s.kvInj n 3 then
        ((some 0x10, (((s.injDone rKVW 3).count rKVW 7).raise rKVW 18
          { inj := true, detail := BitVec.ofNat 64 r.seq, always := true })), [], 0)
      else
        match s.pageRead n pool (.staging l.stg) (sec + t * 128) 128 with
        | (.ok bs, s) => ((none, s), bs, 0)
        | (.uncorrectable, s) =>
          ((some 0x10, (s.count rKVW 7).raise rKVW 18 { detail := BitVec.ofNat 64 r.seq, always := true }), [], 0)
        | (tx, s) => ((some tx.status, s), [], 0)
    else
      match s.pageRead n pool (.frame (pteFrame pte)) 0 64 with
      | (.ok h, s) =>
        if s.kvInj n 1 ∨ crc32c (h.take 0x3C) ≠ leNat (h.drop 0x3C) then
          ((some 0x10, ((s.injDone rKVW 1).count rKVW 3).raise rKVW 17 {}), [], 0)
        else
          match s.pageRead n pool (.frame (pteFrame pte)) (sec + t * 128) 128 with
          | (.ok bs, s) =>
            if bitOf (leNat (h.take 8)) t then
              match s.pageRead n pool (.frame (pteFrame pte)) (scOff + t * 4) 4 with
              | (.ok sc, s) => (let (b, f) := qaToNormal scale sc bs; ((none, s), b, f))
              | (tx, s) => ((some tx.status, s.count rKVW 6), [], 0)
            else ((none, s), bs, 0)
          | (.uncorrectable, s) => ((some 0x10, s.count rKVW 6), [], 0)
          | (tx, s) => ((some tx.status, s), [], 0)
      | (.uncorrectable, s) => ((some 0x10, s.count rKVW 6), [], 0)
      | (tx, s) => ((some tx.status, s), [], 0)

/-- The rows of a gathered tile (R263–R265): cache below LEN, the append table from LEN on, +0 outside the range. -/
def State.kvRows (n : Nat) (pool : Obj) (r : GwFields) (isV : Bool) (scale : Word) (app : List Appended) (lo hi : Nat) :
    List Nat → State → (Option Nat × State) × List Byte × Numf
  | [], s => ((none, s), [], 0)
  | p :: rest, s =>
    let here : (Option Nat × State) × List Byte × Numf :=
      if p < lo ∨ hi ≤ p then ((none, s), List.replicate 128 0#8, 0)
      else if p < r.len then s.kvRow n pool r isV scale p
      else match app.find? (fun a => a.seq == r.seq && a.layer == r.layer && a.head == r.head && a.pos == p) with
        | some a => ((none, s), if isV then a.v else a.k, 0)
        | none => ((some 0x21, s), [], 0)
    match here with
    | ((some st, s), _, _) => ((some st, s), [], 0)
    | ((none, s), bs, f) =>
      let (res, more, f2) := State.kvRows n pool r isV scale app lo hi rest s
      (res, bs ++ more, f ||| f2)

/-- Write a gathered tile into its ring slot and make the slot ready (R268). -/
def State.ringPut (s : State) (n rslot cons : Nat) (t : Tile) : Option Nat × State :=
  match s.txWrite none (s.ringAt n rslot) t.bytes with
  | (.ok _, s) =>
    let w := s.walker n
    (none, s.setWalker n { w with ring := Sparse.set (fun _ => {}) w.ring rslot { ready := true, reads := cons } })
  | (tx, s) => (some tx.status, s)

/-- A KV_GATHER (R263–R266). -/
def State.kvGather (s : State) (n : Nat) (bs : List Byte) (app : List Appended) : (Option Nat × State) × Numf :=
  let r := GwFields.ofBytes bs
  if !s.gwOk n r || r.kind == 3 || decide (s.fld (kWK n 0x128) 10 0 ≤ r.rslot) then ((some 0x21, s), 0)
  else
    match s.kvPool n with
    | none => ((some 0x21, s), 0)
    | some pool =>
      if r.kind = 2 then
        let rows := List.range r.qrows
        let empties := (rows.filter (fun i => decide (r.hi i ≤ r.lo i))).length
        let s := s.addSat (rk rKVW 1 0x108) 31 0 empties
        let t : Tile := { intTile r.qrows 2 (rows.flatMap (fun i => [(r.lo i : Int) - r.first, (r.hi i : Int) - r.first])) with
                          tensor := s.fld (kWK n 0x12C) 15 0 }
        (s.ringPut n r.rslot r.cons t, 0)
      else
        let isV := r.kind == 1
        let cnt := if isV then 256 else 128
        if r.first % cnt ≠ 0 then ((some 0x21, s), 0)
        else
          match s.kvScales n r.layer r.head with
          | (.ok (ks, vs), s) =>
            let scale := if isV then vs else ks
            if !scaleOk scale then ((some 0x21, s), 0)
            else
              let rows := List.range r.qrows
              let lo := rows.foldl (fun a i => Nat.min a (r.lo i)) (r.lo 0)
              let hi := rows.foldl (fun a i => Nat.max a (r.hi i)) 0
              match State.kvRows n pool r isV scale app lo hi ((List.range cnt).map (fun j => r.first + j)) s with
              | ((some st, s), _, _) => ((some st, s), 0)
              | ((none, s), data, f) =>
                let t : Tile := { fmt := 3, tscaled := true, tscale := scale, tensor := s.fld (kWK n 0x12C) 15 0,
                                  trow := r.first / cnt, tcol := r.head, rows := cnt, cols := 128, data := data }
                (s.ringPut n r.rslot r.cons t, f)
          | (tx, s) => ((some tx.status, s), 0)

/-- Rows of a ROW_GATHER, one after another. -/
def State.rowGatherRows (n : Nat) (o : Obj) (len : Nat) : List Nat → State → (Option Nat × State) × List Byte
  | [], s => ((none, s), [])
  | i :: rest, s =>
    if o.size < i * len + len then ((some 0x21, s), [])
    else
      match s.objTxRead (domeItag n) o (i * len) len with
      | (.ok r, s) => (let (res, more) := State.rowGatherRows n o len rest s; (res, r.1 ++ more))
      | (tx, s) => ((some tx.status, s), [])

/-- A ROW_GATHER (R267). Row byte offsets are INDEX × COLS × b / 8. -/
def State.kvRowGather (s : State) (n : Nat) (bs : List Byte) : Option Nat × State :=
  let w := fun (o : Nat) => leNat ((bs.drop o).take 4)
  let nrows := bitsOf (w 0) 24 16
  let fmt := bitsOf (w 4) 3 0
  let cols := bitsOf (w 4) 14 4
  let len := cols * fmtBits fmt / 8
  let rslot := bitsOf (w 0x10) 9 0
  let reserved := bitsOf (w 0) 31 25 != 0 || bitsOf (w 4) 31 15 != 0 || bitsOf (w 8) 31 25 != 0 || bitsOf (w 0x10) 31 12 != 0 ||
    w 0x18 != 0 || w 0x1C != 0
  match s.validObj (bitsOf (w 0) 15 0) [2, 3, 4] with
  | none => (some 0x21, s)
  | some o =>
    if reserved || fmtMx fmt || !fmtValid fmt || nrows == 0 || decide (256 < nrows) || cols == 0 || decide (1024 < cols) ||
        decide (32768 < nrows * cols * fmtBits fmt / 8) || decide (s.fld (kWK n 0x128) 10 0 ≤ rslot) then (some 0x21, s)
    else
      match s.txRead none (plateBase n + bitsOf (w 8) 24 0) (4 * nrows) with
      | (.ok ix, s) =>
        (match State.rowGatherRows n o len ((wordsOf ix).map BitVec.toNat) s with
         | ((some st, s), _) => (some st, s)
         | ((none, s), data) =>
           s.ringPut n rslot (bitsOf (w 0x10) 11 10 + 1)
             { fmt := fmt, tensor := s.fld (kWK n 0x12C) 15 0, rows := nrows, cols := cols, data := data })
      | (tx, s) => (some tx.status, s)

/-- Ring slot that a gather record names, and whether it is free (R268). -/
def gwSlot (opcode : Nat) (bs : List Byte) : Nat :=
  if opcode = 0x72 then bitsOf (leNat ((bs.drop 0x10).take 4)) 9 0 else (GwFields.ofBytes bs).rslot
def State.ringFree (s : State) (n slot : Nat) : Bool := (Sparse.get (fun _ => {}) (s.walker n).ring slot).reads == 0

/-- One full read of a ring slot (R268). -/
def State.ringRead (s : State) (n slot : Nat) : State :=
  let w := s.walker n
  let r := Sparse.get (fun _ => {}) w.ring slot
  let r : RingSlot := if r.reads ≤ 1 then {} else { r with reads := r.reads - 1 }
  s.setWalker n { w with ring := Sparse.set (fun _ => {}) w.ring slot r }

/-! ### Registers -/

/-- Staging and ring regions inside the Dome's 24 MiB and apart (R295). -/
def State.kvRegionsOk (s : State) (n : Nat) : Bool :=
  let sb := s.fld (kWK n 0x11C) 24 0
  let sl := s.fld (kWK n 0x120) 7 0 * s.fpitch n
  let rb := s.fld (kWK n 0x124) 24 0
  let rl := 32832 * s.fld (kWK n 0x128) 10 0
  (sl == 0 || decide (sb + sl ≤ 0x1800000)) && (rl == 0 || decide (rb + rl ≤ 0x1800000)) &&
  (sl == 0 || rl == 0 || decide (sb + sl ≤ rb) || decide (rb + rl ≤ sb))

/-- A write to a walker register that places the regions: refused when it breaks R295; GEOM also sets FPITCH. -/
def State.kvPlaceWrite (s : State) (k : Nat) (t : Itag) (v : Word) : State :=
  let n := rkPage k - 2
  let s' := s.writeGeneric k t v
  let s' := s'.setFld (kWK n 0x110) 19 0 (s'.fpitch n)
  if s'.kvRegionsOk n then s' else s.cfgErr rKVW t

/-- A write to KVW_WnFINV (R258). -/
def effFinv (n : Nat) (v : Word) (s : State) : State :=
  let s := (s.setFld (kWK n 0x130) 11 0 (fieldOf v 11 0)).setFlag (kWK n 0x130) 12 (flagOf v 12)
  if flagOf v 13 then
    let w := s.walker n
    let all := match w.finv with | some (_, a) => a | none => false
    ((s.setWalker n { w with finv := some (fieldOf v 11 0, flagOf v 12 || all) }).setFlag (kWK n 0x130) 13 true).setFlag
      (kWK n 0x130) 14 false
  else s

/-- A pending invalidation finishes (R258). -/
def effFinvDone (n : Nat) (s : State) : State :=
  let w := s.walker n
  match w.finv with
  | none => s
  | some (q, all) =>
    ((s.setWalker n { w with finv := none, finder := w.finder.filter (fun l => !all && l.seq != q) }).setFlag
      (kWK n 0x130) 13 false).setFlag (kWK n 0x130) 14 true

/-- Invalidate a sequence in one walker's Finder (R258, R336). -/
def State.finderDrop (s : State) (n q : Nat) : State :=
  let w := s.walker n
  s.setWalker n { w with finder := w.finder.filter (fun l => l.seq != q) }

/-- Flush one staged page (R283): header and rows COMMIT to FILL − 1 of each section. -/
def State.kvFlushPage (s : State) (n : Nat) (x : Nat × Nat × Nat × Nat) : State :=
  let (q, g, k, l2) := x
  match s.kvPool n, s.kvWalk n q g k with
  | some pool, (.found pte l, s) =>
    if !pteStaged pte then s.noteStaged n q g k l2 false
    else
      let copy := fun (off len : Nat) (r : Option Nat × State) =>
        match r with
        | (some e, s) => (some e, s)
        | (none, s) =>
          (match s.pageRead n pool (.staging l.stg) off len with
           | (.ok bs, s) => thenTx (none, s) (fun s => s.pageWrite n pool (.frame (pteFrame pte)) off bs)
           | (tx, s) => (some tx.status, s))
      let c := pteCommit pte
      let len := (pteFill pte - c) * 128
      let secs := (List.range (s.kvLG n * s.kvHPD n)).flatMap (fun i => [0x40 + 0x4200 * i + c * 128, 0x40 + 0x4200 * i + 0x2000 + c * 128])
      let r := secs.foldl (fun r off => if len = 0 then r else copy off len r) (copy 0 64 (none, s))
      let r := thenTx r (fun s => s.setPte n l k (pteWith pte (pteQa pte) (pteOpen pte) false (pteFill pte) (pteFill pte)))
      match r with
      | (none, s) => (s.count rKVW 5).noteStaged n q g k l2 false
      | (some _, s) => s
  | _, (_, s) => s

/-- KVW_CMD FLUSH (R283). -/
def effKvFlush (s : State) : State :=
  let s := (List.range 8).foldl (fun s n => (s.walker n).staged.foldl (fun s x => s.kvFlushPage n x) s) s
  s.showKvMode

/-! ### Commands -/

def execFinderInvalidateDone (walker : BitVec 3) (s : State) : Outcome := .next (effFinvDone walker.toNat s)

end Sys2Proof.Machine
end

