-- ==== Sys2Proof/Machine/Spare.lean ====
section
/-! DEFINITION. Spared parts: bindings, states, takeovers, rotation in self-test windows, test slices, TEST and RETIRE
(R155, R192–R199, R203, R396–R399, R502, R519, R689–R691). One machinery serves Dome slots, solver lanes, drive cores, CVU
channels, Linkous lanes and application cores. -/

namespace Sys2Proof.Machine

/-- A set of spared parts: where its bindings and states are shown, and what differs from block to block. -/
structure SpareSet where
  region : Nat
  unit : Nat := 0
  nlog : Nat                      -- logical parts
  nphys : Nat                     -- physical parts
  kind : Nat → Nat := fun _ => 0      -- kind of a logical part
  pkind : Nat → Nat := fun _ => 0     -- kind of a physical part
  home : Nat → Nat := fun l => l      -- the part bound before any takeover
  kMap : Option (Nat × Nat) := none   -- first binding register and the highest bit of its part field
  kState : Option (Nat → Nat × Nat) := none   -- register and low bit of a part's state
  kSub : Nat := 0
  kSubstat : Nat := 0
  kRot : Nat := 0
  subPhys : Nat × Nat := (0, 0)
  subLog : Nat × Nat := (0, 0)
  subCmd : Nat × Nat := (0, 0)
  testHi : Nat := 0               -- TESTSLOT field of SUBSTAT is testHi:3; PASS and FAIL follow it
  rotHi : Nat := 0
  units : Nat := 1                -- sets that share one ROTNEXT
  slice : Nat → Nat := fun _ => 0     -- length of a test slice, ns
  lostBit : Option Nat := none    -- BLK_ESTAT bit of a lost part
  failBit : Option Nat := none    -- BLK_ESTAT bit of a retired part
  cntTest : Option Nat := none    -- counter of slices aborted or failed, and of returns
  cntTake : Option Nat := none    -- counter of takeovers

/-- Two state bits per part from a first register on. -/
def stateAt (k0 : Nat) (p : Nat) : Nat × Nat := (k0 + 4 * (p / 16), 2 * (p % 16))

def domeSpares (n : Nat) : SpareSet :=
  { region := n, nlog := 15, nphys := 22, kind := stageKind, pkind := slotKind,
    home := fun l => if l < 8 then l else if l < 10 then l + 1 else 12 + 2 * (l - 10),
    kMap := some (rk n 1 0x100, 4), kState := some (stateAt (rk n 1 0x140)),
    kSub := rk n 4 0x100, kSubstat := rk n 4 0x104, kRot := rk n 4 0x108,
    subPhys := (4, 0), subLog := (8, 5), subCmd := (11, 9), testHi := 7, rotHi := 3,
    slice := fun p => if p < 9 then 1200000 else 400000, lostBit := some 19, failBit := some 20, cntTest := some 7,
    cntTake := some 6 }

def solvSpares : SpareSet :=
  { region := rSOLV, nlog := 256, nphys := 264, kMap := some (rk rSOLV 1 0x100, 8), kState := some (stateAt (rk rSOLV 2 0x100)),
    kSub := rk rSOLV 2 0x180, kSubstat := rk rSOLV 2 0x184, kRot := rk rSOLV 2 0x188,
    subPhys := (16, 8), subLog := (7, 0), subCmd := (19, 17), testHi := 11, rotHi := 7,
    slice := fun _ => 250000, lostBit := some 17, failBit := some 19, cntTest := some 7 }

def driveSpares : SpareSet :=
  { region := rDRIVE, nlog := 4, nphys := 5, kMap := some (rk rDRIVE 4 0x100, 2), kState := some (stateAt (rk rDRIVE 4 0x120)),
    kSub := rk rDRIVE 4 0x124, kSubstat := rk rDRIVE 4 0x128, kRot := rk rDRIVE 4 0x12C,
    subPhys := (2, 0), subLog := (5, 4), subCmd := (8, 6), testHi := 5, rotHi := 1, slice := fun _ => 200000 }

def cvuSpares : SpareSet :=
  { region := rCVU, nlog := 32, nphys := 34, kMap := some (rk rCVU 3 0x100, 5), kState := some (stateAt (rk rCVU 3 0x180)),
    kSub := rk rCVU 3 0x18C, kSubstat := rk rCVU 3 0x190, kRot := rk rCVU 3 0x194,
    subPhys := (5, 0), subLog := (10, 6), subCmd := (13, 11), testHi := 8, rotHi := 4, slice := fun _ => 100000,
    cntTest := some 7 }

def lnkSpares (l : Nat) : SpareSet :=
  { region := rLNK, unit := l, nlog := 8, nphys := 9, kState := some (fun p => (rk rLNK 1 (0x108 + 0x20 * l), 2 * p)),
    kSub := rk rLNK 1 0x1C0, kSubstat := rk rLNK 1 0x1C4, kRot := rk rLNK 1 0x1C8,
    subPhys := (3, 0), subLog := (6, 4), subCmd := (11, 9), testHi := 6, rotHi := 3, units := 2, slice := fun _ => 500000,
    lostBit := some 16, cntTest := some 6, cntTake := some 2 }

/-- Application cores: 24 logical cores over four clusters and two spares they share; no register shows them (log 12). -/
def apcSpares (r : Nat) : SpareSet :=
  { region := r, nlog := 6, nphys := 26, home := fun l => (r - rAPC0) * 6 + l, slice := fun _ => 2000000 }

/-- The sets of a region. -/
def spareSets (r : Nat) : List SpareSet :=
  if r < 8 then [domeSpares r] else if r = rSOLV then [solvSpares] else if r = rDRIVE then [driveSpares]
  else if r = rCVU then [cvuSpares] else if r = rLNK then [lnkSpares 0, lnkSpares 1]
  else if rAPC0 ≤ r ∧ r < rAPC0 + 4 then [apcSpares r] else []

/-! ### Bindings and states -/

def SpareSet.bindKey (S : SpareSet) (l : Nat) : Nat := 4096 * S.region + S.unit * 1024 + l

/-- What an unlisted binding reads as: the part of the same index, counted over the clusters for application cores. -/
def bindHome (k : Nat) : Nat :=
  if rAPC0 ≤ k / 4096 ∧ k / 4096 < rAPC0 + 4 then (k / 4096 - rAPC0) * 6 + k % 1024 else k % 1024

/-- What an unlisted state reads as: application cores 0–23 are ACTIVE and their spares SPARE; a logical part is available
(keys from 2^20 on). -/
def bindStDflt (k : Nat) : Nat := if k < 24 ∨ 2 ^ 20 ≤ k then 1 else 0

/-- The physical part bound to a logical part. -/
def SpareSet.phys (S : SpareSet) (s : State) (l : Nat) : Nat :=
  match S.kMap with
  | some (k, hi) => s.fld (k + 4 * l) hi 0
  | none => Sparse.get bindHome s.bind (S.bindKey l)

/-- The part that ONSPARE compares with: a Dome's at reset (R202), any other's at boot (R404, R507, R523). -/
def SpareSet.base (S : SpareSet) (s : State) (l : Nat) : Nat :=
  if S.region < 8 then S.home l else Sparse.get bindHome s.bootBind (S.bindKey l)

/-- Does the logical part have a working physical part? -/
def SpareSet.avail (S : SpareSet) (s : State) (l : Nat) : Bool :=
  match S.kMap with
  | some (k, hi) => s.flag (k + 4 * l) (hi + 2)
  | none => Sparse.get bindStDflt s.bindSt (2 ^ 20 + S.bindKey l) == 1

def SpareSet.setAvail (S : SpareSet) (s : State) (l : Nat) (b : Bool) : State :=
  match S.kMap with
  | some (k, hi) => s.setFlag (k + 4 * l) (hi + 2) b
  | none => { s with bindSt := Sparse.set bindStDflt s.bindSt (2 ^ 20 + S.bindKey l) (if b then 1 else 0) }

/-- State of a part: 0 SPARE, 1 ACTIVE, 2 TESTING, 3 RETIRED (R192). Application cores 0–23 begin ACTIVE. -/
def apcState (s : State) (p : Nat) : Nat := Sparse.get bindStDflt s.bindSt p
def SpareSet.st (S : SpareSet) (s : State) (p : Nat) : Nat :=
  match S.kState with
  | some f => s.fld (f p).1 ((f p).2 + 1) (f p).2
  | none => apcState s p

/-- Refresh SPARES_FREE and SPARE_ACTIVE (R91). -/
def State.showSpares (s : State) (region : Nat) : State :=
  let sets := spareSets region
  let free := sets.foldl (fun n S => n + ((List.range S.nphys).filter (fun p => S.st s p == 0)).length) 0
  let act := sets.any (fun S => (List.range S.nlog).any (fun l => S.phys s l != S.base s l))
  (s.setFld (kSTAT region) 15 8 free).setFlag (kSTAT region) 1 act

def SpareSet.setSt (S : SpareSet) (s : State) (p v : Nat) : State :=
  let s := match S.kState with
    | some f => s.setFld (f p).1 ((f p).2 + 1) (f p).2 v
    | none => { s with bindSt := Sparse.set bindStDflt s.bindSt p v }
  s.showSpares S.region

/-- Bind a logical part to a physical part, which becomes ACTIVE. -/
def SpareSet.bindTo (S : SpareSet) (s : State) (l p : Nat) : State :=
  let s := match S.kMap with
    | some (k, hi) => ((s.setFld (k + 4 * l) hi 0 p).setFlag (k + 4 * l) (hi + 1) (p != S.base s l)).setFlag (k + 4 * l) (hi + 2) true
    | none => { s with bind := Sparse.set bindHome s.bind (S.bindKey l) p }
  S.setSt s p 1

def SpareSet.key (S : SpareSet) : Nat := S.region * 4 + S.unit
def SpareSet.aux (S : SpareSet) (s : State) : SpareSt := Sparse.get (fun _ => {}) s.spares S.key
def SpareSet.setAux (S : SpareSet) (s : State) (x : SpareSt) : State :=
  { s with spares := Sparse.set (fun _ => {}) s.spares S.key x }

/-- The lowest spare of a logical part's kind. -/
def SpareSet.spareFor (S : SpareSet) (s : State) (l : Nat) : Option Nat :=
  (List.range S.nphys).find? (fun p => S.pkind p == S.kind l && S.st s p == 0)

/-- A part of the kind under test that a fault may call back (R198). -/
def SpareSet.testingFor (S : SpareSet) (s : State) (l : Nat) : Option Nat :=
  (List.range S.nphys).find? (fun p => S.pkind p == S.kind l && S.st s p == 2)

def State.countOpt (s : State) (r : Nat) : Option Nat → State
  | some k => s.count r k
  | none => s

/-- Show the part under test in SUBSTAT. -/
def SpareSet.showTest (S : SpareSet) (s : State) : State :=
  if S.kSubstat = 0 then s
  else s.setFld S.kSubstat S.testHi 3 (match (S.aux s).slice with | some (p, _) => p | none => 2 ^ (S.testHi - 2) - 1)

/-- Abort the slice in progress; the part stays TESTING (R196). -/
def SpareSet.abort (S : SpareSet) (s : State) : State :=
  match (S.aux s).slice with
  | none => s
  | some _ => S.showTest ((S.setAux s { S.aux s with slice := none }).countOpt S.region S.cntTest)

/-! ### Faults (R197–R199) -/

/-- The part of a logical part is suspect: it enters TESTING, and a spare, or a part called back from its test, takes over.
The flag says whether one could. -/
def SpareSet.fault (S : SpareSet) (s : State) (l : Nat) : Bool × State :=
  let p := S.phys s l
  let back := S.testingFor s l
  let s := S.setSt s p 2
  match S.spareFor s l with
  | some q => (true, (S.bindTo s l q).countOpt S.region S.cntTake)
  | none =>
    match back with
    | some q =>
      let aux := S.aux s
      let s := match aux.slice with
        | some (t, _) => if t = q then S.showTest (S.setAux s { aux with slice := none }) else s
        | none => s
      (true, ((S.bindTo s l q).countOpt S.region S.cntTest).countOpt S.region S.cntTake)
    | none =>
      let s := (S.setAvail s l false).setFlag (kSTAT S.region) 2 true
      let s := match S.lostBit with | some b => s.raise S.region b { index := l } | none => s
      (false, s.postCause 8 (S.region == rDRIVE))

/-! ### Rotation, tests and retirement -/

/-- Move a logical part to the spare, its old part to state `v`: TESTING for rotation, RETIRED for retirement. -/
def SpareSet.move (S : SpareSet) (s : State) (l v : Nat) : Option State :=
  match S.spareFor s l with
  | none => none
  | some q =>
    let p := S.phys s l
    some ((S.bindTo (S.setSt s p v) l q).countOpt S.region S.cntTake)

/-- Start the slice of a part in the open window. -/
def SpareSet.startSlice (S : SpareSet) (s : State) (p : Nat) : State :=
  S.showTest (S.setAux s { S.aux s with slice := some (p, s.now), served := true })

/-- The logical part that rotation takes next: ascending from ROTNEXT, skipping those without a spare (R195). Where two
links share one ROTNEXT, the link it names rotates. -/
def SpareSet.nextRot (S : SpareSet) (s : State) : Option Nat :=
  let v := if S.kRot = 0 then 0 else s.fld S.kRot S.rotHi 0
  if v / S.nlog = S.unit ∨ S.units = 1 then
    ((List.range S.nlog).map (fun i => (v % S.nlog + i) % S.nlog)).find? (fun l => (S.spareFor s l).isSome && S.avail s l)
  else none

/-- ROTNEXT moves past the part that was rotated. -/
def SpareSet.advanceRot (S : SpareSet) (s : State) (l : Nat) : State :=
  if S.kRot = 0 then s
  else if S.units = 1 then s.setFld S.kRot S.rotHi 0 ((l + 1) % S.nlog)
  else s.setFld S.kRot S.rotHi 0 ((S.unit * S.nlog + l + 1) % (S.nlog * S.units))

/-- BLK_CTRL.ROT_EN exists in the blocks whose chapters define it (R202, R404, R507, R715); the others always rotate. -/
def SpareSet.rotEnabled (S : SpareSet) (s : State) : Bool :=
  if S.region < 8 ∨ S.region = rSOLV ∨ S.region = rDRIVE ∨ S.region = rLNK then s.flag (kCTRL S.region) 16 else true

/-- Physical parts that a window of this set may test: a cluster tests its own cores and the shared spares. -/
def SpareSet.owns (S : SpareSet) (p : Nat) : Bool :=
  !(decide (rAPC0 ≤ S.region) && decide (S.region < rAPC0 + 4)) || p / 6 == S.region - rAPC0 || decide (24 ≤ p)

/-- May a window of this set start a slice of the part: it is TESTING, and no other cluster is testing it? -/
def SpareSet.canTest (S : SpareSet) (s : State) (p : Nat) : Bool :=
  S.st s p == 2 && S.owns p &&
  !(S.kMap.isNone && S.kState.isNone &&
    s.spares.any (fun e => e.1 != S.key && decide (rAPC0 ≤ e.1 / 4) && decide (e.1 / 4 < rAPC0 + 4) &&
      (match e.2.slice with | some x => x.1 == p | none => false)))

def SpareSet.result (S : SpareSet) (s : State) (v : Nat) : State :=
  if S.kSubstat = 0 then s else s.setFld S.kSubstat 2 0 v

/-- Suspect parts whose logical part is at a boundary enter TESTING, as for a fault (R615). -/
def SpareSet.takeSuspects (S : SpareSet) (s : State) (free : Nat → Bool) : State :=
  (S.aux s).suspects.foldl (fun s p =>
    match (List.range S.nlog).find? (fun l => S.phys s l == p && S.st s p == 1) with
    | none => S.setAux s { S.aux s with suspects := (S.aux s).suspects.filter (fun x => x != p) }
    | some l =>
      if free l then (S.fault (S.setAux s { S.aux s with suspects := (S.aux s).suspects.filter (fun x => x != p) }) l).2 else s) s

/-- At a boundary between operations: suspect parts enter TESTING; a pending RETIRE acts, but waits for the slice of a part
that is TESTING (R616); in an open window that has tested no part yet, a part left in
TESTING starts its slice again, else a TEST or the rotation frees a part (R193–R196). `free l` says that the logical part is
at a boundary. -/
def SpareSet.boundary (S : SpareSet) (s : State) (free : Nat → Bool) : State :=
  let s := S.takeSuspects s free
  let aux := S.aux s
  let s := match aux.wantRetire with
    | none => s
    | some p =>
      match (List.range S.nlog).find? (fun l => S.phys s l == p && S.st s p == 1) with
      | none =>
        if S.st s p = 2 then s else S.result (S.setAux (S.setSt s p 3) { aux with wantRetire := none }) 0
      | some l =>
        if free l then
          match S.move s l 3 with
          | some s => S.result (S.setAux s { aux with wantRetire := none }) 0
          | none => (S.result (S.setAux s { aux with wantRetire := none }) 2).setFlag (kSTAT S.region) 2 true
        else s
  let aux := S.aux s
  if s.flag (kSTAT S.region) 3 ∧ aux.served = false ∧ aux.slice.isNone = true then
    match (List.range S.nphys).find? (S.canTest s) with
    | some p => S.startSlice s p
    | none =>
      let want := match aux.wantTest with
        | some l => some l
        | none => if S.rotEnabled s then S.nextRot s else none
      match want with
      | none => s
      | some l =>
        if free l then
          let p := S.phys s l
          match S.move s l 2 with
          | none => s
          | some s =>
            let s := if aux.wantTest.isSome then S.result (S.setAux s { S.aux s with wantTest := none }) 0
              else S.advanceRot s l
            S.startSlice s p
        else s
  else s

/-- The slice finishes: SPARE when it passed, else RETIRED (R192). It has no effect before its length has passed. -/
def SpareSet.sliceEnd (S : SpareSet) (s : State) (pass : Bool) : State :=
  match (S.aux s).slice with
  | none => s
  | some (p, t) =>
    if s.now < t + S.slice p then s
    else
      let s := S.showTest (S.setAux s { S.aux s with slice := none })
      let want := (S.aux s).wantRetire == some p
      let s := if want then S.result (S.setAux s { S.aux s with wantRetire := none }) 0 else s
      let s := S.setSt s p (if pass && !want then 0 else 3)
      let s := if S.kSubstat = 0 then s
        else s.setFlag S.kSubstat (if pass then S.testHi + 1 else S.testHi + 2) true
      if pass then s
      else
        let s := s.countOpt S.region S.cntTest
        match S.failBit with | some b => s.raise S.region b { index := p } | none => s

/-- A write to SUBCMD (R203): the fields are stored, CMD reads 0, and the command is taken. -/
def SpareSet.subcmd (S : SpareSet) (s : State) (v : Word) : State :=
  let p := fieldOf v S.subPhys.1 S.subPhys.2
  let l := fieldOf v S.subLog.1 S.subLog.2
  let cmd := fieldOf v S.subCmd.1 S.subCmd.2
  let s := (s.setFld S.kSub S.subPhys.1 S.subPhys.2 p).setFld S.kSub S.subLog.1 S.subLog.2 l
  if cmd = 1 then
    if S.nlog ≤ l then S.result s 3
    else if (S.spareFor s l).isNone ∨ S.avail s l = false then S.result s 2
    else S.result (S.setAux s { S.aux s with wantTest := some l }) 1
  else if cmd = 2 then
    if S.nphys ≤ p then S.result s 3
    else
      match (List.range S.nlog).find? (fun l => S.phys s l == p && S.st s p == 1) with
      | none => S.result (S.setAux s { S.aux s with wantRetire := some p }) 1
      | some l =>
        if (S.spareFor s l).isNone then S.result s 2
        else S.result (S.setAux s { S.aux s with wantRetire := some p }) 1
  else s

/-- A retirement that AGE or a fault calls for outside SUBCMD. -/
def SpareSet.requestRetire (S : SpareSet) (s : State) (p : Nat) : State :=
  S.setAux s { S.aux s with wantRetire := some p }

end Sys2Proof.Machine
end

