-- ==== Sys2Proof/Machine/Dome.lean ====
section
/-! DEFINITION. The Domes (R154–R203): train maps, RUNs, the tile schedule, the stages' firing, faults, restarts and the
watchdog. Tiles pass from stage to stage in FIFO order per input; a stage fires on its lowest context that can fire. No
result depends on that order between contexts (R131, R151). -/

namespace Sys2Proof.Machine

def State.dome (s : State) (d : Nat) : Dome := Sparse.get (fun _ => {}) s.domes d
def State.setDome (s : State) (d : Nat) (x : Dome) : State := { s with domes := Sparse.set (fun _ => {}) s.domes d x }
def State.setRun (s : State) (d : Nat) (r : Option DomeRun) : State := s.setDome d { s.dome d with run := r }

/-- 400 MHz cycles in a time of `ns`. -/
def cyclesIn (ns : Nat) : Nat := ns * 2 / 5
/-- Time of `n` 400 MHz cycles, in ns, rounded up. -/
def cyclesNs (n : Nat) : Nat := ceilDiv (n * 5) 2

/-- Registers of pages 2 and 3 (R202). -/
def kTMSLOT (d m : Nat) : Nat := rk d 2 (0x100 + 4 * m)
def kTRAINMAP (d : Nat) : Nat := rk d 2 0x140
def kRUNSTAT (d : Nat) : Nat := rk d 3 0x100
def kRUNCYC (d : Nat) : Nat := rk d 3 0x104
def kRUNPLAN (d : Nat) : Nat := rk d 3 0x108
def kRUNWCET (d : Nat) : Nat := rk d 3 0x10C
def kBUB (d k : Nat) : Nat := rk d 3 (0x110 + 4 * k)
def kBUBCAUSE (d k : Nat) : Nat := rk d 3 (0x150 + 4 * k)

/-- Dome injection armed for a logical stage (R201). -/
def State.domeInj (s : State) (d b l : Nat) : Bool := s.injArmed d b && s.fld (kEINJ d) 8 5 == l

/-! ### LOAD -/

/-- Is a map slot used by a RUN that executes or is saved (R174)? -/
def Dome.usesSlot (x : Dome) (m : Nat) : Bool :=
  (match x.run with | some r => r.slot == m | none => false) || x.saved.any (fun r => r.slot == m)

/-- A LOAD (R173, R174). -/
def effDomeLoad (d q : Nat) (s : State) : State :=
  match s.nextOp d q with
  | none => s
  | some o =>
    let m := o.fld 0x18 1 0
    if o.opcode ≠ 1 ∨ s.pick d ≠ some q ∨ (s.dome d).usesSlot m = true then s
    else
      let s := s.start d q o
      let a := o.addr 0x10
      if a % 64 ≠ 0 then s.conclude d q o.index stREJ_FORMAT
      else
        match s.txRead (some (domeItag d)) a 2048 (some (d, q, o.index)) with
        | (.ok bs, s) =>
          let tm : TrainMap := wordsOf bs
          let lost := (List.range 15).any (fun l => tm.used l && !(domeSpares d).avail s l)
          let scans := tm.contexts.all (fun x => !(tm.ent x.1 x.2).isScan || (tm.ent x.1 x.2).scanLimit)
          if !tm.formatOk bs then s.conclude d q o.index stREJ_FORMAT
          else if lost || !scans then s.conclude d q o.index stREJ_LIMIT
          else
            let x := s.dome d
            let s := s.setDome d { x with maps := Sparse.set (fun _ => []) x.maps m tm }
            let s := s.wr (kTMSLOT d m) (BitVec.ofNat 32 (2 ^ 16 + tm.id))
            let s := s.setFlag (kSTAT d) (18 + m) true
            s.conclude d q o.index stDONE 0 (cyclesNs 480)
        | (.firewall, s) => s.flushItag (domeItag d)
        | (tx, s) => s.conclude d q o.index tx.status

/-! ### RUN -/

/-- Watchdog count of a RUN (R185). -/
def DomeRun.cycles (r : DomeRun) (now : Nat) : Nat :=
  match r.first with
  | none => 0
  | some t => cyclesIn ((r.paused.getD now) - t - r.pausedFor)

/-- Cycle of the schedule: from the start of the RUN, pauses left out (R178). -/
def DomeRun.planCycle (r : DomeRun) (now : Nat) : Nat := cyclesIn ((r.paused.getD now) - r.start - r.pausedFor)

/-- Read schedule entries (R178). -/
def SEnt.ofBytes (bs : List Byte) : SEnt :=
  let w := fun (o : Nat) => leNat ((bs.drop o).take 4)
  { lstage := bitsOf (w 0) 3 0, port := bitsOf (w 0) 5 4, ctx := bitsOf (w 0) 7 6, tplan := w 4, addr := leNat ((bs.drop 8).take 8),
    count := bitsOf (w 0x10) 15 0, stride := w 0x14, tindex := bitsOf (w 0x18) 15 0, tqueue := bitsOf (w 0x18) 25 16,
    dep := bitOf (w 0x18) 31,
    reservedSet := bitsOf (w 0) 31 8 != 0 || w 0x1C != 0 || bitsOf (w 0x10) 31 16 != 0 || bitsOf (w 0x18) 30 26 != 0 }

def SEnt.many : Nat → List Byte → List SEnt
  | 0, _ => []
  | n + 1, bs => SEnt.ofBytes bs :: SEnt.many n (bs.drop 32)

/-- An entry names a stage and a context of the map. -/
def SEnt.ok (e : SEnt) (m : TrainMap) : Bool :=
  !e.reservedSet && decide (e.lstage < 15) && m.used e.lstage && decide (e.ctx < m.nctx e.lstage) && e.count != 0

/-- Is an earlier step of the job still at work on the Dome (R190)? -/
def State.earlierStep (s : State) (region : Nat) (o : Op) (opcode : Nat) : Bool :=
  s.queues.any (fun e => e.1 / 4096 == region && e.2.ops.any (fun p =>
    !p.words.isEmpty && p.opcode == opcode && p.job == o.job && decide (p.step < o.step)))

/-- Show the current RUN (R202). -/
def State.showRun (s : State) (d : Nat) : State :=
  let x := s.dome d
  let cur := match x.run with | some r => some r | none => x.saved.head?
  let s := s.setFlag (kSTAT d) 16 (match x.run with | some r => r.paused.isNone | none => false)
  let s := s.setFlag (kSTAT d) 17 !x.saved.isEmpty
  match cur with
  | some r =>
    s.wr (kRUNSTAT d) (BitVec.ofNat 32 (r.index + 2 ^ 16 * r.queue + 2 ^ 22 + (if r.paused.isSome then 2 ^ 23 else 0)))
  | none => s.setFld (kRUNSTAT d) 23 22 0

/-- A RUN whose operation a freeze has discarded is gone (R535). -/
def State.dropDeadRun (s : State) (d : Nat) : State :=
  match (s.dome d).run with
  | none => s
  | some r =>
    match s.findOp d r.queue r.index with
    | some o => if o.status.isSome then (s.setRun d none).showRun d else s
    | none => (s.setRun d none).showRun d

/-- A RUN starts (R175, R177, R182, R190). -/
def effDomeRun (d q : Nat) (s : State) : State :=
  let s := s.dropDeadRun d
  match s.nextOp d q with
  | none => s
  | some o =>
    if o.opcode ≠ 2 ∨ s.pick d ≠ some q ∨ (s.dome d).run.isSome = true ∨ s.earlierStep d o 2 = true then s
    else
      let tcc := s.relaxedChoice d q
      let s := if tcc then s.countTcc d else s
      let s := s.start d q o
      let nent := o.fld 0x18 23 0
      let plan := (o.word 8).toNat
      let wcet := (o.word 9).toNat
      let tid := o.fld 0x1C 15 0
      let bad := o.addr 0x10 % 32 != 0 || o.fld 0x18 31 24 != 0 || o.fld 0x1C 31 16 != 0 || nent == 0 || decide (wcet < plan) ||
        (o.words.drop 10).any (fun w => w != 0#32)
      if bad then s.conclude d q o.index stREJ_FORMAT (tcc := tcc)
      else
        match (s.dome d).maps.find? (fun m => TrainMap.id m.2 == tid) with
        | none => s.conclude d q o.index stREJ_FORMAT (tcc := tcc)
        | some (slot, m) =>
          if (List.range 15).any (fun l => TrainMap.used m l && !(domeSpares d).avail s l) then
            s.conclude d q o.index stREJ_LIMIT (tcc := tcc)
          else
            match s.txRead (some (domeItag d)) (o.addr 0x10) (32 * nent) (some (d, q, o.index)) with
            | (.ok bs, s) =>
              let ents := SEnt.many nent bs
              if !ents.all (fun e => e.ok m) then s.conclude d q o.index stREJ_FORMAT (tcc := tcc)
              else
                let inj := s.injArmed d 4
                let s := if inj then s.injDone d 4 else s
                let s := s.setRun d (some { queue := q, index := o.index, map := m, slot := slot, plan := plan, wcet := wcet,
                                            start := s.now, ents := ents, tcc := tcc, injWcet := inj })
                let s := ((s.wr (kRUNPLAN d) (BitVec.ofNat 32 plan)).wr (kRUNWCET d) (BitVec.ofNat 32 wcet)).wr (kRUNCYC d) 0#32
                let s := (List.range 19).foldl (fun s k => s.wr (rk d 3 (if k < 15 then 0x110 + 4 * k else 0x150 + 4 * (k - 15))) 0#32) s
                let s := s.wr (kTRAINMAP d) (BitVec.ofNat 32 (tid + 2 ^ 16 * slot + 2 ^ 18 +
                  (if TrainMap.retryOk m then 2 ^ 19 else 0)))
                s.showRun d
            | (.firewall, s) => s.flushItag (domeItag d)
            | (tx, s) => s.conclude d q o.index tx.status (tcc := tcc)

/-- RESULT of a RUN record (R181). -/
def DomeRun.result (r : DomeRun) (cyc : Nat) : DWord :=
  let bub := Nat.min 0xFFFFFF (cyc - r.plan)
  BitVec.ofNat 64 (cyc % 2 ^ 32 + 2 ^ 32 * (r.numf.toNat + (if r.subst then 64 else 0) + bub * 256))

/-- The RUN of a Dome ends with a status other than one it has earned by finishing: outputs already written hold
unspecified values (R180, R185, R186, R526), and the record is written. -/
def State.endRun (s : State) (d st : Nat) : State :=
  match (s.dome d).run with
  | none => s
  | some r =>
    let cyc := r.cycles s.now
    let s := s.wr (kRUNCYC d) (BitVec.ofNat 32 cyc)
    let s := s.setRun d none
    let s := r.written.foldl (fun s w => s.scramble ((List.range w.2).map (fun i => s.siteKey (s.site (w.1 + i))))) s
    let s := s.showRun d
    let s := (s.finish d r.queue r.index st (r.result cyc) r.tcc r.retried).showQuiesced d
    if s.frozen.contains (domeItag d) then s.flushItag (domeItag d) else s

/-- An address of the schedule: the Dome's own Plate Store, or a mapped Archive line of a held object of the job's tenant
(R180, R234). -/
def State.scheduleAddrOk (s : State) (d tenant a n : Nat) : Bool :=
  if plateBase d ≤ a ∧ a + n ≤ 0x1800000 + plateBase d then true
  else
    decide (0x00D0000000 ≤ a) && decide (a + n ≤ 0x00E0000000) &&
    ((List.range (n / 4096 + 2)).map (fun i => a / 4096 + i)).all (fun l => decide (a + n ≤ 4096 * l) ||
      (match Sparse.get (fun _ => 0) s.plate.lines l with
       | 0 => false
       | h + 1 => match s.objEntry h with | some o => o.hold && o.tenant == tenant | none => false))

/-- An address of the schedule that is refused ends the RUN; Archive refusals count (R180, R234, R248). -/
def State.refuseAddr (s : State) (d a : Nat) : State :=
  let s := if 0x00D0000000 ≤ a ∧ a < 0x00E0000000 then s.count rPLATE 3 else s
  s.endRun d stERR_FIREWALL

/-! ### Firing -/

def DomeRun.inq (r : DomeRun) (st port ctx : Nat) : List Tile :=
  (Sparse.get (fun _ => []) r.inputs (st * 4 + port)).filterMap (fun w => if w.ctx = ctx then some w.tile else none)

/-- Take `n` tiles of a context from an input. -/
def dropCtx (ctx : Nat) : Nat → List Waiting → List Waiting
  | 0, ws => ws
  | _, [] => []
  | n + 1, w :: ws => if w.ctx = ctx then dropCtx ctx n ws else w :: dropCtx ctx (n + 1) ws

def DomeRun.takeFrom (r : DomeRun) (st port ctx n : Nat) : DomeRun :=
  let k := st * 4 + port
  { r with inputs := Sparse.set (fun _ => []) r.inputs k (dropCtx ctx n (Sparse.get (fun _ => []) r.inputs k)) }

def DomeRun.feed (r : DomeRun) (st port ctx : Nat) (t : Tile) : DomeRun :=
  let k := st * 4 + port
  { r with inputs := Sparse.set (fun _ => []) r.inputs k (Sparse.get (fun _ => []) r.inputs k ++ [{ ctx := ctx, tile := t }]) }

/-- Are the IN1 tiles of a MATMUL context held stationary for the whole RUN (R298)? -/
def DomeRun.holds (r : DomeRun) (st ctx : Nat) : Bool :=
  let kt := fieldOf (r.map.ent st ctx).param1 15 0
  let n := (r.ents.filter (fun e => e.lstage == st && e.port == 1 && e.ctx == ctx)).foldl (fun a e => a + e.count) 0
  (r.map.ent st ctx).opcode == 0x10 && decide (kt ≤ 2) && n == kt

def DomeRun.allIssued (r : DomeRun) : Bool := r.ents.all (fun e => e.doneAt.isSome)

def DomeRun.outAddr (r : DomeRun) (st ctx : Nat) : Option Nat :=
  ((Sparse.get (fun _ => []) r.outAt st).find? (fun x => x.1 == ctx)).map (fun x => x.2)

/-- Remove the first output address of a context. -/
def dropOut (ctx : Nat) : List (Nat × Nat) → List (Nat × Nat)
  | [] => []
  | x :: xs => if x.1 = ctx then xs else x :: dropOut ctx xs

/-- How many output addresses of a context wait. -/
def DomeRun.outCount (r : DomeRun) (st ctx : Nat) : Nat := ((Sparse.get (fun _ => []) r.outAt st).filter (fun x => x.1 == ctx)).length

/-- Send one output tile on: to the Plate Store, and over the coudé path to every input it feeds (R158, R171, R172). -/
def State.emitTile (s : State) (d st ctx : Nat) (t : Tile) : Option Nat × State :=
  match (s.dome d).run with
  | none => (none, s)
  | some r =>
    let e := r.map.ent st ctx
    let r := if e.outRoute then
        (r.map.consumers st e.nextCtx).foldl (fun r x => r.feed x.1 x.2 e.nextCtx t) r
      else r
    if e.outPlate then
      match r.outAddr st ctx with
      | none => (none, s.setRun d (some r))
      | some a =>
        let r := { r with outAt := Sparse.set (fun _ => []) r.outAt st (dropOut ctx (Sparse.get (fun _ => []) r.outAt st)),
                          written := (a, t.length) :: r.written, lastOut := s.now }
        let s := s.setRun d (some r)
        let tenant := (s.queue d r.queue).tenant
        if s.scheduleAddrOk d tenant a t.length = false then (some 0x12, s)
        else
          match s.txWrite (some (domeItag d)) a t.bytes (some (d, r.queue, r.index)) with
          | (.ok _, s) => (none, s)
          | (tx, s) => (some tx.status, s)
    else (none, s.setRun d (some { r with lastOut := s.now }))

/-- The formats the headers must show at the inputs of a context (R180): FMT_A at IN0, FMT_B at IN1. -/
def headersFit (e : StageEnt) (q0 q1 : List Tile) : Bool :=
  q0.all (fun t => t.fmt == e.fmtA) && q1.all (fun t => t.fmt == e.fmtB)

/-- Fire one context of a stage if it can; `some` answers the status that ends the RUN, or none after a firing. -/
def State.fireCtx (s : State) (d st ctx : Nat) (drained : Bool) : Option (Option Nat × State) :=
  match (s.dome d).run with
  | none => none
  | some r =>
    let e := r.map.ent st ctx
    let q0 := r.inq st 0 ctx
    let q1 := r.inq st 1 ctx
    let q2 := r.inq st 2 ctx
    let job := s.findOp d r.queue r.index
    let jobId := (job.map Op.job).getD 0
    let seed := match Sparse.get (fun _ => none) s.seeds jobId with
      | some x => x
      | none => (Config.freeDWord (2 ^ 32 + jobId)).toNat
    let keep := Sparse.get (fun _ => {}) r.scan (st * 4 + ctx)
    let env : FireEnv := { ent := e, seed := seed, step := (job.map Op.step).getD 0, free := s.free, drained := drained,
                           hold := r.holds st ctx, keep := keep }
    if r.holds st ctx = true ∧ q0.isEmpty = true then none
    else
      match fireStage env q0 q1 q2 with
      | none => none
      | some f =>
        if e.outPlate = true ∧ r.outCount st ctx < f.outs.length then none
        else if !headersFit e q0 q1 then some (some 0x21, s)
        else
          let r := (((r.takeFrom st 0 ctx (f.used.getD 0 0)).takeFrom st 1 ctx (f.used.getD 1 0)).takeFrom st 2 ctx (f.used.getD 2 0))
          let r := { r with numf := r.numf ||| f.numf, empty := r.empty || f.empty,
                            scan := Sparse.set (fun _ => {}) r.scan (st * 4 + ctx) f.keep }
          let s := ({ s with free := 2 ^ 21 + s.free } : State).setRun d (some r)
          match f.err with
          | some x => some (some x, s)
          | none =>
            some (f.outs.foldl (fun acc t => match acc with
              | (some x, s) => (some x, s)
              | (none, s) => s.emitTile d st ctx t) (none, s))

/-- Serve the GW stage's next work record, if it can be served (R262–R272). -/
def State.fireGw (s : State) (d : Nat) : Option (Option Nat × State) :=
  match (s.dome d).run with
  | none => none
  | some r =>
    match r.gw with
    | [] => none
    | g :: rest =>
      if g.opcode = 0x71 then
        let rec0 := GwFields.ofBytes g.bytes
        -- the next key row on IN0 and value row on IN1, whichever context carries them
        let k0 := Sparse.get (fun _ => []) r.inputs (14 * 4)
        let k1 := Sparse.get (fun _ => []) r.inputs (14 * 4 + 1)
        match k0, k1 with
        | a :: as, b :: bs =>
          let cut := fun (t : Tile) => ({ t with rows := t.rows - 1, data := t.data.drop (t.cols * fmtBits t.fmt / 8) } : Tile)
          let next := fun (w : Waiting) (ws : List Waiting) => if w.tile.rows ≤ 1 then ws else { w with tile := cut w.tile } :: ws
          let row := fun (t : Tile) => t.f32s.1.take t.cols
          let ins := Sparse.set (fun _ => []) (Sparse.set (fun _ => []) r.inputs (14 * 4) (next a as)) (14 * 4 + 1) (next b bs)
          let s1 := s.setRun d (some { r with gw := rest, inputs := ins })
          if a.tile.fmt ≠ 0 ∨ b.tile.fmt ≠ 0 ∨ a.tile.cols ≠ 128 ∨ b.tile.cols ≠ 128 then some (some 0x21, s1)
          else
            let others := (List.range (s.kvHPD d)).all (fun h => h == rec0.head || r.appended.any (fun x =>
              x.seq == rec0.seq && x.layer == rec0.layer && x.pos == rec0.len && x.head == h))
            let ((st, s2), x, qa, fl) := s1.kvAppend d g.bytes (row a.tile) (row b.tile) others
            match (s2.dome d).run with
            | none => some (st, s2)
            | some r => some (st, s2.setRun d (some { r with appended := x :: r.appended, tcc := r.tcc || qa, numf := r.numf ||| fl }))
        | _, _ => none
      else if s.ringFree d (gwSlot g.opcode g.bytes) then
        let w := s.walker d
        let s := match w.waitFrom with
          | some t => (s.addSat (kWK d 0x13C) 31 0 (cyclesIn (s.now - t))).setWalker d { w with waitFrom := none }
          | none => s
        let s := s.setRun d (some { r with gw := rest })
        if g.opcode = 0x70 then
          let ((st, s), fl) := s.kvGather d g.bytes r.appended
          match (s.dome d).run with
          | none => some (st, s)
          | some r => some (st, s.setRun d (some { r with numf := r.numf ||| fl }))
        else some (s.kvRowGather d g.bytes)
      else none

/-- A gather whose slot is not free begins to wait (R268). -/
def State.noteRingWait (s : State) (d : Nat) : State :=
  match (s.dome d).run with
  | some r =>
    (match r.gw with
     | g :: _ =>
       let w := s.walker d
       if g.opcode ≠ 0x71 ∧ s.ringFree d (gwSlot g.opcode g.bytes) = false ∧ w.waitFrom.isNone = true then
         s.setWalker d { w with waitFrom := some s.now }
       else s
     | [] => s)
  | none => s

/-- The first thing that can fire: a stage's context in ascending order, then the GW stage. -/
def State.fireAny (s : State) (d : Nat) (drained : Bool) : Option (Option Nat × State) :=
  match (s.dome d).run with
  | none => none
  | some r =>
    match (r.map.contexts.filter (fun x => x.1 != 14)).findSome? (fun x => s.fireCtx d x.1 x.2 drained) with
    | some y => some y
    | none => s.fireGw d

/-- Nothing waits any more: every entry issued, every output written, every input but the stationary tiles empty. -/
def DomeRun.idle (r : DomeRun) : Bool :=
  r.allIssued && r.outAt.isEmpty && r.gw.isEmpty &&
  r.inputs.all (fun e => e.1 % 4 == 1 && (e.2.all (fun w => r.holds (e.1 / 4) w.ctx))) &&
  r.scan.all (fun e => e.2.steps.isEmpty)

/-- The next firing: one of those that may go at once, else, when every entry is issued, one that drains. -/
def State.fireNext (s : State) (d : Nat) (drain : Bool) : Option (Option Nat × State) :=
  match s.fireAny d false with
  | some y => some y
  | none => if drain then s.fireAny d true else none

/-- Let every stage fire that can; `fuel` bounds the firings. -/
def State.settle (d : Nat) : Nat → State → State
  | 0, s => s
  | fuel + 1, s =>
    match (s.dome d).run with
    | none => s
    | some r =>
      if r.paused.isSome ∨ r.finished = true then s
      else
        match s.fireNext d r.allIssued with
        | some (none, s) => State.settle d fuel s
        | some (some st, s) => s.endRun d st
        | none =>
          let s := s.noteRingWait d
          if r.idle then
            (s.setRun d (some { r with finished := true })).conclude d r.queue r.index (if r.empty then stNUM_EMPTY else stDONE)
          else s

/-- Firings that one RUN may make: every entry's tiles through every stage. -/
def DomeRun.fuel (r : DomeRun) : Nat := 16 * (r.ents.foldl (fun a e => a + e.count) 0 + r.gw.length + 64)

def State.runOn (s : State) (d : Nat) : State :=
  match (s.dome d).run with
  | none => s
  | some r => State.settle d r.fuel s

/-! ### Issue of entries -/

/-- Read one tile for a stage input (R180, R212). -/
def State.readTile (s : State) (d : Nat) (r : DomeRun) (a : Nat) : (Tile ⊕ Nat) × State :=
  let tenant := (s.queue d r.queue).tenant
  let viol := some (d, r.queue, r.index)
  if s.scheduleAddrOk d tenant a 64 = false then
    (.inr 0x12, if 0x00D0000000 ≤ a ∧ a < 0x00E0000000 then s.count rPLATE 3 else s)
  else
    match s.txRead (some (domeItag d)) a 64 viol with
    | (.ok h, s) =>
      match Tile.ofHeader h with
      | none => (.inr 0x21, s)
      | some t =>
        if s.scheduleAddrOk d tenant a t.length = false then (.inr 0x12, s)
        else
          match s.txRead (some (domeItag d)) a t.length viol with
          | (.ok bs, s) => (.inl (t.fill bs), s)
          | (tx, s) => (.inr tx.status, s)
    | (tx, s) => (.inr tx.status, s)

/-- Addresses of an entry's tiles: STRIDE apart, or the walker's ring slots in turn (R178, R350). -/
def State.entAddrs (s : State) (d : Nat) (e : SEnt) : List Nat :=
  (List.range e.count).map (fun i =>
    match s.ringSlotOf d e.addr with
    | some k => s.ringAt d ((k + i) % s.fld (kWK d 0x128) 10 0)
    | none => e.addr + i * e.stride)

/-- Read the tiles of an entry and put them at its input; answers the failing status and the bytes read. -/
def State.readTiles (d st port ctx : Nat) : List Nat → State → (Option Nat × State) × Nat
  | [], s => ((none, s), 0)
  | a :: more, s =>
    match (s.dome d).run with
    | none => ((none, s), 0)
    | some r =>
      match s.readTile d r a with
      | (.inr e, s) => ((some e, s), 0)
      | (.inl t, s) =>
        let s := match s.ringSlotOf d a with | some i => s.ringRead d i | none => s
        let s := match (s.dome d).run with
          | some r => s.setRun d (some (r.feed st port ctx t))
          | none => s
        let (res, b) := State.readTiles d st port ctx more s
        (res, b + t.length)

/-- Read the work records of a GW entry. -/
def State.readRecords (d opcode stride : Nat) : Nat → Nat → State → (Option Nat × State) × List GwRec
  | 0, _, s => ((none, s), [])
  | n + 1, a, s =>
    if a < plateBase d ∨ 0x1800000 + plateBase d < a + 32 then ((some 0x12, s), [])
    else
      match s.txRead (some (domeItag d)) a 32 with
      | (.ok bs, s) =>
        let (res, more) := State.readRecords d opcode stride n (a + stride) s
        (res, { opcode := opcode, bytes := bs } :: more)
      | (tx, s) => ((some tx.status, s), [])

/-- The prescan of all KV_APPEND records of a RUN (R272), in entry order. -/
def State.prescan (s : State) (d : Nat) (r : DomeRun) : Option Nat × State :=
  let ents := r.ents.filter (fun e => e.lstage == 14 && (r.map.ent 14 e.ctx).opcode == 0x71)
  let total := ents.foldl (fun a e => a + e.count) 0
  if 16384 < total then (some 0x22, s)
  else
    ents.foldl (fun acc e => match acc with
      | (some x, s) => (some x, s)
      | (none, s) =>
        match State.readRecords d 0x71 e.stride e.count e.addr s with
        | ((some x, s), _) => (some x, s)
        | ((none, s), rs) => rs.foldl (fun acc g => match acc with
          | (some x, s) => (some x, s)
          | (none, s) => s.kvPrescan d g.bytes) (none, s)) (none, s)

/-- Count the bubbles of an entry that issues late (R184): cycles since it could have issued but for its input. -/
def State.bubble (s : State) (d st cause n : Nat) : State :=
  (s.addSat (kBUB d st) 31 0 n).addSat (kBUBCAUSE d cause) 31 0 n

/-- A fault of a logical stage (R197–R199, R189): causes are 0 residue, 1 uncorrectable buffer, 2 link. -/
def effStageFault (d l cause : Nat) (s : State) (inj : Bool := false) : State :=
  if 15 ≤ l then s
  else
    let e : Ev := { inj := inj, detail := BitVec.ofNat 64 l }
    let s := if cause = 0 then (s.count d 3).raise d 16 e
      else if cause = 1 then (s.count d 1).raise d 2 e
      else (s.count d 2 3).raise d 17 e
    let (took, s) := (domeSpares d).fault s l
    match (s.dome d).run with
    | none => s
    | some r =>
      if r.map.used l = false then s
      else
        let cnt := r.cycles s.now
        if took = true ∧ r.map.retryOk = true ∧ s.flag (kCTRL d) 17 = true ∧ cnt + r.plan ≤ r.wcet then
          let r := { r with start := s.now, pausedFor := 0, ents := r.ents.map (fun e => { e with doneAt := none }), inputs := [],
                            outAt := [], scan := [], gw := [], appended := [], numf := 0, empty := false, subst := true,
                            retried := true, first := r.first.map (fun t => t + r.pausedFor), finished := false }
          ((s.setRun d (some r)).mapOp d r.queue r.index (fun o => { o with outcome := none })).count d 4
        else s.endRun d stERR_DATA

/-- What an injection of R201 makes of the next issue of its stage. -/
def State.domeInject (s : State) (d l : Nat) : State :=
  let s := if s.domeInj d 0 l then ((s.injDone d 0).count d 0).raise d 1 { inj := true, detail := BitVec.ofNat 64 l } else s
  let s := if s.domeInj d 2 l then ((s.injDone d 2).count d 2).bubble d l 3 6 else s
  let s := if s.domeInj d 1 l then effStageFault d l 1 (s.injDone d 1) true else s
  if s.domeInj d 3 l ∧ l < 8 then effStageFault d l 0 (s.injDone d 3) true else s

/-- The next entry of a stage and port issues, when its cycle has come, the one before it has finished, its Transit operation
is visible and the ring slots it names are ready (R179, R269). -/
def effEntryIssue (d l port : Nat) (s : State) : State :=
  let s := s.dropDeadRun d
  match (s.dome d).run with
  | none => s
  | some r =>
    if r.paused.isSome ∨ r.finished = true then s
    else
      let mine := r.ents.filter (fun e => e.lstage == l && e.port == port)
      match mine.find? (fun e => e.doneAt.isNone) with
      | none => s
      | some e =>
        let prevDone := mine.all (fun x => match x.doneAt with | some t => decide (t ≤ s.now) | none => true)
        let ring := l == 14 || port == 3 || (s.entAddrs d e).all (fun a =>
          match s.ringSlotOf d a with
          | some k => (Sparse.get (fun _ => {}) (s.walker d).ring k).ready
          | none => true)
        if r.planCycle s.now < e.tplan ∨ prevDone = false ∨ ring = false ∨
            (e.dep = true ∧ s.opVisible rTRANSIT e.tqueue e.tindex = false) then s
        else
          let late := r.planCycle s.now - mine.foldl (fun a x => match x.doneAt with
            | some t => Nat.max a (cyclesIn (t - r.start - r.pausedFor)) | none => a) e.tplan
          let s := s.setRun d (some { r with first := some (r.first.getD s.now) })
          let s := if late = 0 then s else s.bubble d l 0 late
          let s := s.domeInject d l
          match (s.dome d).run with
          | none => s
          | some r =>
            let mark := fun (n : Nat) (s : State) => match (s.dome d).run with
              | some r => s.setRun d (some { r with ents := r.ents.map (fun x => if x = e then { x with doneAt := some (s.now + n) } else x) })
              | none => s
            if r.start = s.now ∧ r.retried = true then s
            else if l = 14 then
              let first := r.ents.all (fun x => x.lstage != 14 || x.doneAt.isNone)
              let (pre, s) := if first then s.prescan d r else (none, s)
              match pre with
              | some st => (s.count rKVW 4).endRun d st
              | none =>
                match State.readRecords d (r.map.ent 14 e.ctx).opcode e.stride e.count e.addr s with
                | ((some st, s), _) => s.endRun d st
                | ((none, s), recs) =>
                  let s := match (s.dome d).run with
                    | some r => s.setRun d (some { r with gw := r.gw ++ recs })
                    | none => s
                  (mark (cyclesNs e.count) s).runOn d
            else if port = 3 then
              let tenant := (s.queue d r.queue).tenant
              let addrs := (List.range e.count).map (fun i => e.addr + i * e.stride)
              match addrs.find? (fun a => s.scheduleAddrOk d tenant a 64 = false) with
              | some a => s.refuseAddr d a
              | none =>
                let q := Sparse.get (fun _ => []) r.outAt l ++ addrs.map (fun a => (e.ctx, a))
                let r := { r with outAt := Sparse.set (fun _ => []) r.outAt l q }
                (mark (cyclesNs 1) (s.setRun d (some r))).runOn d
            else
              match State.readTiles d l port e.ctx (s.entAddrs d e) s with
              | ((some st, s), _) => s.endRun d st
              | ((none, s), bytes) =>
                let rate := if l < 8 ∧ port < 2 then 256 else 512
                (mark (cyclesNs (ceilDiv bytes rate)) s).runOn d

/-- A gather that waited finds its slot free (R268). -/
def effGatherSlotFree (d : Nat) (s : State) : State := (s.dropDeadRun d).runOn d

/-- The watchdog exceeds WCET_CYC (R185), or reaches PLAN_CYC under INJ_WCET (R201). -/
def effRunWcet (d : Nat) (s : State) : State :=
  let s := s.dropDeadRun d
  match (s.dome d).run with
  | none => s
  | some r =>
    let c := r.cycles s.now
    if r.first.isNone ∨ r.paused.isSome ∨ r.finished = true then s
    else if r.wcet < c ∨ (r.injWcet = true ∧ r.plan ≤ c) then
      ((s.count d 5).raise d 18 { inj := r.injWcet, queue := r.queue, index := r.index }).endRun d stERR_TIMEOUT_WCET
    else s

/-- The record of a RUN that has finished: CYCLES up to the last output, taken as the time of completion (R181). -/
def State.completeRun (s : State) (d : Nat) : State :=
  match (s.dome d).run with
  | none => s
  | some r =>
    if r.finished = false then s
    else
      let cyc := r.cycles s.now
      let s := (s.wr (kRUNCYC d) (BitVec.ofNat 32 cyc)).setRun d none
      let s := s.setFlag (kSTAT d) 16 false
      let s := (s.showRun d).mapOp d r.queue r.index (fun o =>
        { o with result := r.result cyc, tcc := o.tcc || r.tcc, retried := o.retried || r.retried })
      s

/-- A NOP of a queue completes DONE in queue order (R175, R236, R330, R372, R420, R455, R491, R647, R696). -/
def effNop (region q : Nat) (s : State) : State :=
  match s.nextOp region q with
  | none => s
  | some o => if o.opcode = 3 then (s.start region q o).finish region q o.index stDONE else s

def execDomeLoad (dome : BitVec 3) (q : BitVec 6) (s : State) : Outcome := .next (effDomeLoad dome.toNat q.toNat s)
/-- A RUN starts. -/
def execDomeRun (dome : BitVec 3) (q : BitVec 6) (s : State) : Outcome := .next (effDomeRun dome.toNat q.toNat s)
def execDomeNop (dome : BitVec 3) (q : BitVec 6) (s : State) : Outcome := .next (effNop dome.toNat q.toNat s)
def execEntryIssue (dome : BitVec 3) (lstage : BitVec 4) (port : BitVec 2) (s : State) : Outcome :=
  .next (effEntryIssue dome.toNat lstage.toNat port.toNat s)
def execGatherSlotFree (dome : BitVec 3) (s : State) : Outcome := .next (effGatherSlotFree dome.toNat s)
def execRunWcetExpiry (dome : BitVec 3) (s : State) : Outcome := .next (effRunWcet dome.toNat s)
def execStageFault (dome : BitVec 3) (lstage : BitVec 4) (cause : BitVec 2) (s : State) : Outcome :=
  .next (effStageFault dome.toNat lstage.toNat cause.toNat s)

end Sys2Proof.Machine
end

