-- ==== Sys2Proof/Machine/Transit.lean ====
section
/-! DEFINITION. The Transit Engine, the Archive pool and pseudo-channel health (R206–R251): MOVE, ALLOC, FREE, borrowed
slots and their eviction, re-reads and read-arounds, and the states of pseudo-channels. -/

namespace Sys2Proof.Machine

def kQUOTA (t : Nat) : Nat := rk rPLATE 1 (0x100 + 4 * t)
def kHELD (t : Nat) : Nat := rk rPLATE 1 (0x140 + 4 * t)
def kUSE (t : Nat) : Nat := rk rPLATE 1 (0x180 + 4 * t)
def kPFREE : Nat := rk rPLATE 1 0x1C0
def kAGECLK : Nat := rk rPLATE 1 0x1C4
def kEVICT : Nat := rk rPLATE 1 0x1C8
def kINFLIGHT : Nat := rk rTRANSIT 1 0x10C
def kINFPEAK : Nat := rk rTRANSIT 1 0x110
def kRACNT : Nat := rk rTRANSIT 1 0x118

/-- Write PLATE_QUOTAt (R229). -/
def effQuota (n : Nat) (v : Word) (t : Itag) (s : State) : State :=
  let q := fieldOf v 14 0
  let sum := (List.range 16).foldl (fun a i => a + (if i = n then q else s.fld (kQUOTA i) 14 0)) 0
  if 16384 < sum ∨ q < s.fld (kHELD n) 14 0 then s.cfgErr rPLATE t else s.setFld (kQUOTA n) 14 0 q

/-! ### The pool (R231–R233) -/

/-- Is age `a` older than `b`, by signed difference (R251)? -/
def olderAge (a b : Word) : Bool := decide ((a - b).toInt < 0)

/-- The oldest unlocked resident slot that meets `p`. -/
def State.oldestSlot (s : State) (p : Slot → Bool) : Option Slot :=
  (s.plate.slots.filter (fun x => x.locks == 0 && p x)).foldl (fun best x =>
    match best with
    | none => some x
    | some b => if olderAge x.age b.age then some x else some b) none

/-- The victim of R232 for tenant `a`. -/
def State.victim (s : State) (a : Nat) (held : Bool) : Option Slot :=
  match s.oldestSlot (fun x => decide (s.fld (kQUOTA x.tenant) 14 0 < s.fld (kUSE x.tenant) 14 0)) with
  | some v => some v
  | none => if held then s.oldestSlot (fun _ => true) else s.oldestSlot (fun x => x.tenant == a)

/-- Bytes of a slot. -/
def slotBytes (tslot : Nat) : Nat := 4096 * tslot

/-- Change lines in use by a tenant and the free count. -/
def State.takeLines (s : State) (t n : Nat) : State :=
  (s.setFld (kUSE t) 14 0 (s.fld (kUSE t) 14 0 + n)).setFld kPFREE 14 0 (s.fld kPFREE 14 0 - n)
def State.giveLines (s : State) (t n : Nat) : State :=
  (s.setFld (kUSE t) 14 0 (s.fld (kUSE t) 14 0 - n)).setFld kPFREE 14 0 (s.fld kPFREE 14 0 + n)

/-- Evict a slot: a dirty one is written back to HOME first (R232). -/
def State.evict (s : State) (v : Slot) : State :=
  let s := match s.objEntry v.handle with
    | none => s
    | some o =>
      if v.dirty then
        match s.objEntry o.home with
        | none => s
        | some h =>
          let n := Nat.min (slotBytes o.tslot) (h.size - v.slot * slotBytes o.tslot)
          let bs := (List.range n).map (fun i => s.raw (slotKey v.handle (v.slot * slotBytes o.tslot + i)))
          ((s.writeObj h (v.slot * slotBytes o.tslot) bs).1).count rPLATE 6
      else s
  let s := { s with plate := { s.plate with slots := s.plate.slots.filter (fun x => !(x.handle == v.handle && x.slot == v.slot)) } }
  (s.giveLines v.tenant v.lines).addSat kEVICT 31 0 1

/-- Make room for `n` lines (R232): true when they are free; `fuel` bounds the evictions by the resident slots. -/
def State.makeRoom (a : Nat) (held : Bool) (n : Nat) : Nat → State → Bool × State
  | 0, s => (decide (n ≤ s.fld kPFREE 14 0), s)
  | fuel + 1, s =>
    if n ≤ s.fld kPFREE 14 0 then (true, s)
    else match s.victim a held with
      | none => (false, s)
      | some v => State.makeRoom a held n fuel (s.evict v)

/-- Stamp a slot with the age clock, which advances (R231). -/
def State.touchSlot (s : State) (h sl : Nat) (dirty : Bool) : State :=
  let age := s.rd kAGECLK + 1#32
  let s := s.wr kAGECLK age
  { s with plate := { s.plate with slots := s.plate.slots.map (fun x =>
      if x.handle = h ∧ x.slot = sl then { x with age := age, dirty := x.dirty || dirty } else x) } }

/-- Store a byte whatever its code word's state. -/
def State.putRaw (s : State) (k : Nat) (b : Byte) : State := { s with mem := Sparse.set memReset s.mem k b }

/-- Note when a pseudo-channel last breached its threshold. -/
def State.setSuspect (s : State) (pc : Nat) (t : Option Nat) : State :=
  { s with plate := { s.plate with suspectAt := Sparse.set (fun _ => none) s.plate.suspectAt pc t } }

/-- What an access of a borrowed slot met: whether it was resident, and whether it goes to HOME (R233). -/
structure Borrow where
  miss : Bool := false
  bypass : Bool := false
  deriving DecidableEq, Repr

/-- Access a borrowed slot: make it resident if there is room. -/
def State.borrow (s : State) (o : Obj) (sl : Nat) (write : Bool) : Borrow × State :=
  match s.residentSlot o.handle sl with
  | some _ => ({}, s.touchSlot o.handle sl write)
  | none =>
    -- the HOME copy that fills the slot; when it cannot be read the access goes to HOME and meets the error there
    match (s.objEntry o.home).bind (fun h => s.readObj h (sl * slotBytes o.tslot)
        (Nat.min (slotBytes o.tslot) (h.size - sl * slotBytes o.tslot))) with
    | none => ({ miss := true }, s)
    | some (bs, _) =>
      let (ok, s) := State.makeRoom o.tenant false o.tslot (s.plate.slots.length + 1) s
      if ok then
        let s : State := bs.zipIdx.foldl (fun (s : State) (b : Byte × Nat) =>
          s.putRaw (slotKey o.handle (sl * slotBytes o.tslot + b.2)) b.1) s
        let s : State := { s with plate := { s.plate with slots := s.plate.slots ++
          [{ handle := o.handle, slot := sl, tenant := o.tenant, lines := o.tslot, age := 0 }] } }
        ({ miss := true }, (s.takeLines o.tenant o.tslot).touchSlot o.handle sl write)
      else ({ miss := true, bypass := true }, s.count rPLATE 5)

/-- Lock a slot for an operation in flight (R232). -/
def State.lockSlot (s : State) (q i h sl : Nat) : State :=
  if (s.residentSlot h sl).isNone then s
  else
    { s with plate := { s.plate with
        locked := (q, i, h, sl) :: s.plate.locked,
        slots := s.plate.slots.map (fun x => if x.handle = h ∧ x.slot = sl then { x with locks := x.locks + 1 } else x) } }

/-- Unlock every slot of an operation. -/
def State.unlockSlots (s : State) (q i : Nat) : State :=
  let mine := s.plate.locked.filter (fun l => l.1 == q && l.2.1 == i)
  { s with plate := { s.plate with
      locked := s.plate.locked.filter (fun l => !(l.1 == q && l.2.1 == i)),
      slots := s.plate.slots.map (fun x =>
        { x with locks := x.locks - (mine.filter (fun l => l.2.2.1 == x.handle && l.2.2.2 == x.slot)).length }) } }

/-- Tile operations and locks of MOVEs that a freeze or a stop has ended are gone (R238, R535). -/
def State.dropDeadMoves (s : State) : State :=
  let alive := fun (s : State) (q i : Nat) =>
    match s.findOp rTRANSIT q i with | some o => o.status.isNone | none => false
  let s : State := s.plate.locked.foldl (fun s l => if alive s l.1 l.2.1 then s else s.unlockSlots l.1 l.2.1) s
  let n := s.queues.foldl (fun (n : Nat) e =>
    if e.1 / 4096 = rTRANSIT then e.2.ops.foldl (fun (n : Nat) o => if o.status.isNone then n + o.tiles else n) n else n) 0
  s.setFld kINFLIGHT 14 0 n

/-! ### ALLOC and FREE (R230) -/

/-- Write the RES bit of a table entry. -/
def State.setRes (s : State) (h : Nat) (b : Bool) : State :=
  let k := tableKey (s.objTab + h * 64)
  let old := s.raw k
  let new : Byte := if b then old ||| 0x20#8 else old &&& 0xDF#8
  { s with mem := Sparse.set memReset s.mem k new }

def allocLines (o : Obj) : Nat := ceilDiv o.size 4096

/-- Do the object's line addresses lie in the window, free of mapped objects (R230)? -/
def State.linesFree (s : State) (o : Obj) : Bool :=
  o.loc % 4096 == 0 && decide (0x00D0000000 ≤ o.loc) && decide (o.loc + 4096 * allocLines o ≤ 0x00E0000000) &&
  (List.range (allocLines o)).all (fun i => Sparse.get (fun _ => 0) s.plate.lines (o.loc / 4096 + i) == 0)

/-- Map the lines of a held object. -/
def State.mapLines (s : State) (o : Obj) : State :=
  let n := allocLines o
  let lines := (List.range n).foldl (fun m i => Sparse.set (fun _ => 0) m (o.loc / 4096 + i) (o.handle + 1)) s.plate.lines
  let s := ({ s with plate := { s.plate with lines := lines } } : State).takeLines o.tenant n
  (s.setFld (kHELD o.tenant) 14 0 (s.fld (kHELD o.tenant) 14 0 + n)).setRes o.handle true

/-- An ALLOC: `none` when it must wait for a slot to unlock (R232). -/
def State.allocate (s : State) (o : Obj) : Option State :=
  match State.makeRoom o.tenant true (allocLines o) (s.plate.slots.length + 1) s with
  | (true, s) => some (s.mapLines o)
  | (false, _) => none

/-- The object that an ALLOC or FREE names, when it is a well-formed P1 object with HOLD 1. -/
def State.heldObj (s : State) (o : Op) : Option Obj :=
  match s.validObj (o.fld 0x10 15 0) [1] with
  | some x => if x.hold && o.fld 0x10 31 16 == 0 && (o.words.drop 5).all (fun w => w == 0#32) then some x else none
  | none => none

def effAlloc (q : Nat) (s : State) : State :=
  let s := s.dropDeadMoves
  match s.nextOp rTRANSIT q with
  | none => s
  | some op =>
    if op.opcode ≠ 4 ∨ s.pick rTRANSIT ≠ some q then s
    else
      let s := s.start rTRANSIT q op
      match s.heldObj op with
      | none => s.conclude rTRANSIT q op.index stREJ_FORMAT
      | some o =>
        if !s.linesFree o then s.conclude rTRANSIT q op.index stREJ_FORMAT
        else if s.fld (kQUOTA o.tenant) 14 0 < s.fld (kHELD o.tenant) 14 0 + allocLines o then
          s.conclude rTRANSIT q op.index stREJ_CAPACITY
        else
          match s.allocate o with
          | some s => s.conclude rTRANSIT q op.index stDONE
          | none =>
            ({ s with plate := { s.plate with
                allocs := s.plate.allocs ++ [{ queue := q, index := op.index, handle := o.handle }] } } : State).count rPLATE 4

/-- A slot has unlocked: the oldest waiting ALLOC tries again (R232). -/
def effAllocResume (s : State) : State :=
  let s := s.dropDeadMoves
  match s.plate.allocs with
  | [] => s
  | h :: rest =>
    match s.findOp rTRANSIT h.queue h.index, s.objEntry h.handle with
    | some op, some o =>
      if op.status.isSome then { s with plate := { s.plate with allocs := rest } }
      else
        match s.allocate o with
        | some s => ({ s with plate := { s.plate with allocs := rest } } : State).conclude rTRANSIT h.queue h.index stDONE
        | none => s
    | _, _ => { s with plate := { s.plate with allocs := rest } }

def effFree (q : Nat) (s : State) : State :=
  match s.nextOp rTRANSIT q with
  | none => s
  | some op =>
    if op.opcode ≠ 5 ∨ s.pick rTRANSIT ≠ some q then s
    else
      let s := s.start rTRANSIT q op
      match s.heldObj op with
      | none => s.conclude rTRANSIT q op.index stREJ_FORMAT
      | some o =>
        let mine := (s.plate.lines.filter (fun e => e.2 == o.handle + 1)).length
        let s : State := { s with plate := { s.plate with lines := s.plate.lines.filter (fun e => e.2 != o.handle + 1) } }
        let s := (s.giveLines o.tenant mine).setFld (kHELD o.tenant) 14 0 (s.fld (kHELD o.tenant) 14 0 - mine)
        (s.setRes o.handle false).conclude rTRANSIT q op.index stDONE

/-! ### Pseudo-channel health (R223) -/

/-- Members of a stripe group that are LOST. -/
def State.lostMembers (s : State) (g : Nat) : Nat := ((List.range 16).filter (fun m => s.pcState (12 * m + g) == 2)).length

/-- A pseudo-channel enters LOST: its stack counts and records it, and the second loss in a group makes the group FAILED,
which is counted and is the cause MEMFAIL (R223, R248, R574). -/
def State.losePc (s : State) (pc : Nat) : State :=
  if s.pcState pc = 2 ∨ 191 < pc then s
  else
    let r := rHBM0 + pc / 32
    let s := ((s.setPcState pc 2).count r 3).eventRecord r 3 { detail := BitVec.ofNat 64 (pc % 32) }
    let s := s.setSuspect pc none
    if s.lostMembers (pc % 12) = 2 then (s.count r 4).postCause 7 false else s

/-- The units of a range of a P2 or P3 object: pseudo-channel, and the keys of its bytes that lie in the range. -/
def unitsOf (o : Obj) (off n : Nat) : List (Nat × List Nat) :=
  let first := off / 256
  (List.range ((off + n - 1) / 256 + 1 - first)).map (fun i =>
    let u := first + i
    let row := u / unitsPerRow o.cls
    let pc := pcOf o.g0 row (memberOf o.cls row (u % unitsPerRow o.cls))
    (pc, (List.range 256).map (fun c => hbmKey pc (pcOff o.loc row c))))

/-- Pseudo-channels of a range whose stored code words are uncorrectable. -/
def State.badUnits (s : State) (o : Obj) (off n : Nat) : List Nat :=
  ((unitsOf o off n).filter (fun u => u.2.any (fun k => (s.readKey k).isNone))).map Prod.fst

/-- An uncorrected error on a SUSPECT pseudo-channel makes it LOST (R223). -/
def State.loseSuspects (s : State) (o : Obj) (off n : Nat) : State :=
  ((s.badUnits o off n).filter (fun pc => s.pcState pc == 1)).foldl State.losePc s

/-- An error persists through the re-read: its pseudo-channels are LOST (R223, R228). -/
def State.losePcs (s : State) (o : Obj) (off n : Nat) : State :=
  if o.cls = 2 ∨ o.cls = 3 then (s.badUnits o off n).foldl State.losePc s else s

/-- One read-around: the row is completed from the other 15 members (R221). -/
def State.readAround (s : State) (pc : Nat) : State := (s.addSat kRACNT 31 0 1).count (rHBM0 + pc / 32) 5

/-- INJ_SLOW: a read of the selected pseudo-channel answers 2 µs late, which is a read-around when the threshold is
shorter (R221, R249). The engine reads whole rows, so every member of a row of the range is read. -/
def State.slowRead (s : State) (o : Obj) (off n : Nat) : State :=
  let rows := (List.range ((off + n - 1) / 3840 + 1 - off / 3840)).map (fun i => off / 3840 + i)
  (List.range 6).foldl (fun s k =>
    let pc := 32 * k + s.fld (kEINJ (rHBM0 + k)) 7 3
    if s.injArmed (rHBM0 + k) 2 && rows.any (fun row => (List.range 16).any (fun m => pcOf o.g0 row m == pc)) then
      let s := s.injDone (rHBM0 + k) 2
      if s.fld (rk rTRANSIT 1 0x114) 15 0 < 2000 ∧ s.pcState pc ≠ 2 then s.readAround pc else s
    else s) s

/-! ### MOVE (R237–R245) -/

/-- The operands of a MOVE. -/
structure MoveArgs where
  src : Nat
  dst : Nat
  srcOff : Nat
  dstOff : Nat
  srcStride : Nat
  dstStride : Nat
  count : Nat
  deriving DecidableEq, Repr

def Op.move (o : Op) : MoveArgs :=
  { src := o.fld 0x10 15 0, dst := o.fld 0x10 31 16, srcOff := o.addr 0x18, dstOff := o.addr 0x20,
    srcStride := (o.word 10).toNat, dstStride := (o.word 11).toNat, count := o.fld 0x30 8 0 }

/-- A P1 access names whole slots (R231, R237). -/
def slotAligned (o : Obj) (off stride count : Nat) : Bool :=
  o.cls != 1 || (off % slotBytes o.tslot == 0 && (count == 1 || stride % slotBytes o.tslot == 0))

def moveFormatOk (a : MoveArgs) (o : Op) (x y : Obj) : Bool :=
  o.word 5 == 0#32 && o.fld 0x30 31 9 == 0 && (o.words.drop 13).all (fun w => w == 0#32) &&
  a.srcOff % 64 == 0 && a.dstOff % 64 == 0 && a.srcStride % 64 == 0 && a.dstStride % 64 == 0 &&
  slotAligned x a.srcOff a.srcStride a.count && slotAligned y a.dstOff a.dstStride a.count &&
  decide (a.srcOff < x.size) && decide (a.dstOff < y.size)

/-- Room of one tile in an object: to the object's end, and to the end of its slot when borrowed. -/
def tileRoom (o : Obj) (off : Nat) : Nat := if o.cls = 1 ∧ o.hold = false then Nat.min (o.size - off) (slotBytes o.tslot) else o.size - off

/-- Flags that a MOVE gathers for its RESULT (R243). -/
structure MoveAcc where
  bytes : Nat := 0
  tiles : Nat := 0
  recon : Bool := false
  miss : Bool := false
  bypass : Bool := false
  written : List (Nat × Nat) := []     -- offset and length in the destination
  deriving DecidableEq, Repr

def MoveAcc.result (m : MoveAcc) : DWord :=
  BitVec.ofNat 64 (m.bytes + (m.tiles + (if m.recon then 2 ^ 9 else 0) + (if m.miss then 2 ^ 10 else 0) +
    (if m.bypass then 2 ^ 11 else 0)) * 2 ^ 32)

/-- How a part of a MOVE ended. -/
inductive MoveEnd where
  | ok
  | status (st : Nat)
  | uncorrectable
  deriving DecidableEq, Repr

/-- Read part of an object for a MOVE; a borrowed source slot becomes resident first. INJ_RECON rebuilds a P2 unit. -/
def State.moveRead (s : State) (q i : Nat) (t : Itag) (o : Obj) (off n : Nat) (m : MoveAcc) :
    MoveEnd × List Byte × MoveAcc × State :=
  let (b, s) := if o.cls = 1 ∧ o.hold = false then s.borrow o (off / slotBytes o.tslot) false else ({}, s)
  let s := if o.cls = 1 ∧ o.hold = false then s.lockSlot q i o.handle (off / slotBytes o.tslot) else s
  let s := if o.cls = 2 then s.slowRead o off n else s
  let inj := o.cls == 2 && s.injArmed rTRANSIT 1 && s.fld (kEINJ rTRANSIT) 11 2 == q
  let s := if inj then (s.injDone rTRANSIT 1).count rTRANSIT 2 else s
  let m := { m with miss := m.miss || b.miss, bypass := m.bypass || b.bypass, recon := m.recon || inj }
  match s.objTxRead t o off n (some (rTRANSIT, q, i)) with
  | (.ok (bs, rec_), s) =>
    let lost := (List.range (n / 256 + 1)).any (fun j =>
      o.cls == 2 && s.pcState (pcOf o.g0 (rowOf 2 (off + 256 * j)) (memberOf 2 (rowOf 2 (off + 256 * j)) ((off + 256 * j) / 256 % 15))) == 2)
    let s := if rec_ && !lost then (s.count rTRANSIT 2).loseSuspects o off n else s
    (.ok, bs, { m with recon := m.recon || rec_ }, s)
  | (.uncorrectable, s) => (.uncorrectable, [], m, s)
  | (tx, s) => (.status tx.status, [], m, s)

/-- Check one tile of a MOVE: its header, and its length against both objects and the next tile (R212, R237). -/
def State.moveCheck (s : State) (q i : Nat) (t : Itag) (a : MoveArgs) (x y : Obj) (j : Nat) (m : MoveAcc) :
    MoveEnd × Nat × MoveAcc × State :=
  let so := a.srcOff + j * a.srcStride
  let do_ := a.dstOff + j * a.dstStride
  if x.size < so + 64 then (.status stREJ_LIMIT, 0, m, s)
  else
    match s.moveRead q i t x so 64 m with
    | (.ok, h, m, s) =>
      let inj := s.injArmed rTRANSIT 0 && s.fld (kEINJ rTRANSIT) 11 2 == q
      let s := if inj then s.injDone rTRANSIT 0 else s
      (match (if inj then none else Tile.ofHeader h) with
       | none => (.status stREJ_FORMAT, 0, m, s.count rTRANSIT 0)
       | some tl =>
         let n := tl.length
         if tileRoom x so < n ∨ y.size ≤ do_ ∨ tileRoom y do_ < n ∨ (1 < a.count ∧ (a.srcStride < n ∨ a.dstStride < n)) then
           (.status stREJ_LIMIT, n, m, s)
         else (.ok, n, m, s))
    | (e, _, m, s) => (e, 0, m, s)

/-- Check every tile from `j` on before any is written, so that a rejected MOVE publishes nothing. -/
def State.moveChecks (q i : Nat) (t : Itag) (a : MoveArgs) (x y : Obj) : Nat → Nat → MoveAcc → State → MoveEnd × Nat × MoveAcc × State
  | 0, j, m, s => (.ok, j, m, s)
  | n + 1, j, m, s =>
    match s.moveCheck q i t a x y j m with
    | (.ok, _, m, s) => State.moveChecks q i t a x y n (j + 1) m s
    | (e, _, m, s) => (e, j, m, s)

/-- P2 rows that a write covers only in part (R222). -/
def partialRows (o : Obj) (off n : Nat) : Nat :=
  if o.cls ≠ 2 then 0
  else
    let first := off / 3840
    let last := (off + n - 1) / 3840
    ((List.range (last + 1 - first)).filter (fun k =>
      !(decide (off ≤ (first + k) * 3840) && decide ((first + k + 1) * 3840 ≤ off + n)))).length

/-- Copy tile `j`. -/
def State.moveTile (s : State) (q i : Nat) (t : Itag) (a : MoveArgs) (x y : Obj) (j : Nat) (m : MoveAcc) : MoveEnd × MoveAcc × State :=
  match s.moveCheck q i t a x y j m with
  | (.ok, n, m, s) =>
    let so := a.srcOff + j * a.srcStride
    let do_ := a.dstOff + j * a.dstStride
    (match s.moveRead q i t x so n m with
     | (.ok, bs, m, s) =>
       let (b, s) := if y.cls = 1 ∧ y.hold = false then s.borrow y (do_ / slotBytes y.tslot) true else ({}, s)
       let s := if y.cls = 1 ∧ y.hold = false then s.lockSlot q i y.handle (do_ / slotBytes y.tslot) else s
       (match s.objTxWrite t y do_ bs (some (rTRANSIT, q, i)) with
        | (.ok _, s) =>
          (.ok, { m with bytes := m.bytes + n, tiles := m.tiles + 1, bypass := m.bypass || b.bypass,
                         written := (do_, n) :: m.written }, s.count rTRANSIT 6 (partialRows y do_ n))
        | (.uncorrectable, s) => (.status stERR_DATA, { m with written := (do_, n) :: m.written }, s)
        | (tx, s) => (.status tx.status, m, s))
     | (e, _, m, s) => (e, m, s))
  | (e, _, m, s) => (e, m, s)

/-- Copy the tiles from `j` on. -/
def State.moveTiles (q i : Nat) (t : Itag) (a : MoveArgs) (x y : Obj) : Nat → Nat → MoveAcc → State → MoveEnd × Nat × MoveAcc × State
  | 0, j, m, s => (.ok, j, m, s)
  | n + 1, j, m, s =>
    match s.moveTile q i t a x y j m with
    | (.ok, m, s) => State.moveTiles q i t a x y n (j + 1) m s
    | (e, m, s) => (e, j, m, s)

/-- Show the count of tile operations in flight (R238). -/
def State.addInflight (s : State) (n : Nat) : State :=
  let c := s.fld kINFLIGHT 14 0 + n
  (s.setFld kINFLIGHT 14 0 c).setFld kINFPEAK 14 0 (Nat.max c (s.fld kINFPEAK 14 0))

/-- A MOVE ends without DONE: its writes hold unspecified values (R244, R526). -/
def State.failMove (s : State) (q i : Nat) (y : Obj) (m : MoveAcc) (st : Nat) : State :=
  let s := m.written.foldl (fun s w => s.scramble ((List.range w.2).map (fun k => s.objKey y (w.1 + k)))) s
  let s := if st = stERR_DATA then s.count rTRANSIT 3 else if st = stERR_FIREWALL then s.count rTRANSIT 4 else s
  let s := (s.conclude rTRANSIT q i st m.result)
  let t := (s.queue rTRANSIT q).itag
  if s.frozen.contains t then s.flushItag t else s

/-- What the tiles before `j` of a MOVE that was re-read have come to: their lengths, from the headers copied. -/
def State.movedBefore (s : State) (a : MoveArgs) (y : Obj) (j : Nat) (m : MoveAcc) : MoveAcc :=
  (List.range j).foldl (fun m i =>
    let off := a.dstOff + i * a.dstStride
    match (s.readObj y off 64).bind (fun r => Tile.ofHeader r.1) with
    | some tl => { m with bytes := m.bytes + tl.length, tiles := m.tiles + 1, written := (off, tl.length) :: m.written }
    | none => m) m

/-- The flags of a RESULT that an interrupted MOVE has gathered. -/
def accFlags (r : DWord) : MoveAcc := { recon := r.getLsbD 41, miss := r.getLsbD 42, bypass := r.getLsbD 43 }

/-- Tile `k` cannot be read: the first time the MOVE is set up for one re-read from tile `from_`; the second time it ends
with ERR_DATA (R228). -/
def State.uncorrectableTile (s : State) (q : Nat) (op : Op) (x y : Obj) (k from_ : Nat) (again : Option Nat) (m : MoveAcc) : State :=
  let a := op.move
  if again = some k then
    (s.losePcs x (a.srcOff + k * a.srcStride) (Nat.min 135232 (x.size - (a.srcOff + k * a.srcStride)))).failMove q op.index y m
      stERR_DATA
  else
    let s := s.mapOp rTRANSIT q op.index (fun o => { o with reread := some (100 + s.now, k), tiles := op.tiles,
                                                             result := ({ m with tiles := from_ } : MoveAcc).result })
    (if x.cls = 4 then s.count rLPDDR 3 else s).count rTRANSIT 1

/-- Carry out a MOVE from tile `j` on. `again` is the tile whose re-read (R228) this is. A read of a tile that fails once
more after its re-read ends the MOVE. -/
def State.runMove (s : State) (q : Nat) (op : Op) (j : Nat) (again : Option Nat) : State :=
  let a := op.move
  let t := (s.queue rTRANSIT q).itag
  match s.validObj a.src [0, 1, 2, 3, 4], s.validObj a.dst [0, 1, 2, 3, 4] with
  | some x, some y =>
    let m0 := s.movedBefore a y j (accFlags op.result)
    match State.moveChecks q op.index t a x y (a.count - j) j m0 s with
    | (.status st, _, m, s) => s.failMove q op.index y m st
    | (.uncorrectable, k, m, s) => s.uncorrectableTile q op x y k j again m
    | (.ok, _, _, s) =>
      match State.moveTiles q op.index t a x y (a.count - j) j m0 s with
      | (.ok, _, m, s) => s.conclude rTRANSIT q op.index stDONE ({ m with tiles := a.count } : MoveAcc).result 0 false again.isSome
      | (.status st, _, m, s) => s.failMove q op.index y m st
      | (.uncorrectable, k, m, s) => s.uncorrectableTile q op x y k k again m
  | _, _ => s.conclude rTRANSIT q op.index stREJ_FORMAT

/-- No write of step n + 1 of a job becomes visible before every released operation of its earlier steps (R242). -/
def State.stepBlocked (s : State) (op : Op) : Bool :=
  s.queues.any (fun e => e.1 / 4096 == rTRANSIT && e.2.ops.any (fun o =>
    o.job == op.job && decide (o.step < op.step) && !s.opVisible rTRANSIT (e.1 % 4096) o.index))

def effTransitMove (q : Nat) (s : State) : State :=
  let s := s.dropDeadMoves
  match s.nextOp rTRANSIT q with
  | none => s
  | some op =>
    let a := op.move
    if op.opcode ≠ 1 ∨ s.pick rTRANSIT ≠ some q ∨ s.plate.stalled = true ∨ s.stepBlocked op = true then s
    else if 16384 < s.fld kINFLIGHT 14 0 + a.count ∧ a.count ≤ 256 then
      ({ s with plate := { s.plate with stalled := true } } : State).count rTRANSIT 5
    else
      let s := if s.relaxedChoice rTRANSIT q then
          ((s.countTcc rTRANSIT).count rTRANSIT 7).mapOp rTRANSIT q op.index (fun o => { o with tcc := true })
        else s
      let s := s.start rTRANSIT q op
      if a.count = 0 ∨ 256 < a.count then s.conclude rTRANSIT q op.index stREJ_LIMIT
      else
        match s.validObj a.src [0, 1, 2, 3, 4], s.validObj a.dst [0, 1, 2, 3, 4] with
        | some x, some y =>
          if moveFormatOk a op x y then
            let s := (s.addInflight a.count).mapOp rTRANSIT q op.index (fun o => { o with tiles := a.count })
            s.runMove q { op with tiles := a.count } 0 none
          else s.conclude rTRANSIT q op.index stREJ_FORMAT
        | _, _ => s.conclude rTRANSIT q op.index stREJ_FORMAT

/-- 100 ns after an uncorrected read the failing tile is read again (R228). -/
def effReread (q : Nat) (s : State) : State :=
  match (s.queue rTRANSIT q).ops.find? (fun o => o.reread.isSome && o.status.isNone) with
  | none => s
  | some op =>
    match op.reread with
    | none => s
    | some (at_, k) =>
      if s.now < at_ then s
      else
        let s := s.mapOp rTRANSIT q op.index (fun o => { o with reread := none })
        s.runMove q op (bitsOf op.result.toNat 40 32) (some k)

/-- A MOVE's tile operations retire and its slots unlock when it completes (R232, R238). -/
def State.retireMove (s : State) (q : Nat) (o : Op) : State :=
  ((s.mapOp rTRANSIT q o.index (fun o => { o with tiles := 0 })).unlockSlots q o.index).dropDeadMoves

/-- A Transit NOP. With PUBLISH it is a fence: `opVisible` waits for every earlier operation (R241). -/
def effTransitNop (q : Nat) (s : State) : State :=
  match s.nextOp rTRANSIT q with
  | none => s
  | some o =>
    if o.opcode ≠ 3 ∨ s.pick rTRANSIT ≠ some q ∨ s.stepBlocked o = true then s
    else (s.start rTRANSIT q o).conclude rTRANSIT q o.index stDONE

/-- Tile operations have retired from a full pool: releases go on (R238). -/
def effPoolResume (s : State) : State :=
  let s := s.dropDeadMoves
  match s.pick rTRANSIT with
  | none => s
  | some q =>
    match s.nextOp rTRANSIT q with
    | some o =>
      if s.fld kINFLIGHT 14 0 + o.move.count ≤ 16384 then { s with plate := { s.plate with stalled := false } } else s
    | none => s

/-- A member of a P2 row has not answered in time while a MOVE reads P2 data (R221). -/
def effReadAround (pc : Nat) (s : State) : State :=
  let busy := s.queues.any (fun e => e.1 / 4096 == rTRANSIT && e.2.ops.any (fun o =>
    o.opcode == 1 && o.started && o.status.isNone &&
      (match s.objEntry o.move.src with | some x => x.cls == 2 | none => false)))
  if busy = true ∧ s.pcState pc ≠ 2 then s.readAround pc else s

/-- `n` errors of a pseudo-channel were corrected in one second (R223, R227); above CETHR that is a breach. -/
def effPcThreshold (pc n : Nat) (s : State) : State :=
  let r := rHBM0 + pc / 32
  if s.fld (rk r 1 0x108) 15 0 < n ∧ s.pcState pc ≠ 2 then
    let s := (s.count r 0 n).raise r 1 { detail := BitVec.ofNat 64 (pc % 32) }
    let s := s.setSuspect pc (some s.now)
    if s.pcState pc = 0 then
      ((s.setPcState pc 1).count r 2).eventRecord r 2 { detail := BitVec.ofNat 64 (pc % 32) }
    else s
  else s

/-- 60 s without a breach (R223). -/
def effPcExpiry (pc : Nat) (s : State) : State :=
  match Sparse.get (fun _ => none) s.plate.suspectAt pc with
  | some t =>
    if s.pcState pc = 1 ∧ 60000000000 + t ≤ s.now then
      (s.setPcState pc 0).setSuspect pc none
    else s
  | none => s

/-- A write of HBMn_PCCMD (R251). CMD reads 0b00. -/
def effPcCmd (n : Nat) (v : Word) (s : State) : State :=
  let s := s.setFld (rk (rHBM0 + n) 1 0x10C) 4 0 (fieldOf v 4 0)
  if fieldOf v 6 5 = 1 then s.losePc (32 * n + fieldOf v 4 0) else s

/-- The patrol scrub of HBM stack 0–5 or of LPDDR5X (6) has corrected `n` errors and, with `bad`, met an uncorrectable
code word at that byte of the memory: on a stack, pseudo-channel × 2^30 plus offset (R223, R531, R583). -/
def effPatrol (mem n : Nat) (bad : Option Nat) (s : State) : State :=
  let r := if mem < 6 then rHBM0 + mem else rLPDDR
  if s.pdDown (regionPd r) then s
  else
    let s := if n = 0 then s else (s.count r 0 n).raise r 1
    match bad with
    | none => s
    | some a =>
      let pc := 32 * mem + a / 2 ^ 30
      let k := if mem < 6 then hbmKey pc (a % 2 ^ 30) else lpKey a
      if mem < 6 ∧ s.pcState pc = 2 then s
      else
        let w := wordStart k
        let s : State := if s.badWords.contains w then s else { s with badWords := w :: s.badWords }
        let s := (s.count r 1).raise r 2 { detail := BitVec.ofNat 64 a }
        if mem < 6 ∧ s.pcState pc = 1 then s.losePc pc else s

/-- Is the byte inside the memory that is scrubbed (R204)? -/
def patrolInRange (mem : Nat) : Option Nat → Bool
  | none => decide (mem ≤ 6)
  | some a => if mem < 6 then decide (a / 2 ^ 30 < 32) && decide (a % 2 ^ 30 < 0x30000000) else mem == 6 && decide (a < 120 * 2 ^ 30)

/-- INJ_EVICT: the oldest unlocked borrowed slot is evicted at once (R249). -/
def State.injEvict (s : State) : State :=
  if s.injArmed rPLATE 2 then
    let s := s.injDone rPLATE 2
    match s.oldestSlot (fun _ => true) with
    | some v => s.evict v
    | none => s
  else s

def execTransitMove (q : BitVec 10) (s : State) : Outcome := .next (effTransitMove q.toNat s)
def execTransitNop (q : BitVec 10) (s : State) : Outcome := .next (effTransitNop q.toNat s)
def execAlloc (q : BitVec 10) (s : State) : Outcome := .next (effAlloc q.toNat s)
def execFree (q : BitVec 10) (s : State) : Outcome := .next (effFree q.toNat s)
def execAllocResume (s : State) : Outcome := .next (effAllocResume s)
def execPoolReleaseResume (s : State) : Outcome := .next (effPoolResume s)
def execReread (q : BitVec 10) (s : State) : Outcome := .next (effReread q.toNat s)
def execReadaroundTimeout (pc : BitVec 8) (s : State) : Outcome :=
  if 191 < pc.toNat then .refused (.illFormed "READAROUND_TIMEOUT") else .next (effReadAround pc.toNat s)
def execPcCeThreshold (pc : BitVec 8) (count : BitVec 16) (s : State) : Outcome :=
  if 191 < pc.toNat then .refused (.illFormed "PC_CE_THRESHOLD") else .next (effPcThreshold pc.toNat count.toNat s)
def execPcSuspectExpiry (pc : BitVec 8) (s : State) : Outcome :=
  if 191 < pc.toNat then .refused (.illFormed "PC_SUSPECT_EXPIRY") else .next (effPcExpiry pc.toNat s)
def execPatrolScrub (mem : BitVec 3) (corrected : BitVec 16) (bad : Option (BitVec 44)) (s : State) : Outcome :=
  if patrolInRange mem.toNat (bad.map BitVec.toNat) then .next (effPatrol mem.toNat corrected.toNat (bad.map BitVec.toNat) s)
  else .refused (.illFormed "PATROL_SCRUB")
def execHbmThermalAlert (stack : BitVec 3) (s : State) : Outcome :=
  if 5 < stack.toNat then .refused (.illFormed "HBM_THERMAL_ALERT") else .next (s.count (rHBM0 + stack.toNat) 6)

end Sys2Proof.Machine
end

