-- ==== Sys2Proof/Machine/Coelostat.lean ====
section
/-! DEFINITION. The Coelostat (R314–R329): residency of carried-state objects, swaps over its Transit queue, and its
commands. Its table lies in memory; it reads and writes the table as the block's own access (log 37). -/

namespace Sys2Proof.Machine

def kCOEL (off : Nat) : Nat := rk rSCHED 8 off
def kCOELSTAT : Nat := kCOEL 0x114

/-- A table entry (R314). -/
structure CoelEnt where
  valid : Bool
  hold : Bool
  job : Nat
  frame : Nat
  home : Nat
  state : Nat
  dirty : Bool
  step : Nat
  deriving DecidableEq, Repr

def State.coelAddr (s : State) (i : Nat) : Nat := s.rd64 (kCOEL 0x100) + 32 * i
def State.coelCount (s : State) : Nat := s.fld (kCOEL 0x108) 10 0
def State.coelQueue (s : State) : Nat := s.fld (kCOEL 0x10C) 9 0
def State.coelOn (s : State) : Bool := s.flag (kCOEL 0x10C) 16

/-- Read an entry; `none` when its bytes are uncorrectable. -/
def State.coelEnt (s : State) (i : Nat) : Option CoelEnt :=
  (s.readSys (s.coelAddr i) 32).map (fun bs =>
    let w := fun (o : Nat) => leNat ((bs.drop o).take 4)
    { valid := bitOf (w 0) 0, hold := bitOf (w 0) 1, job := bitsOf (w 0) 31 16, frame := bitsOf (w 4) 15 0,
      home := bitsOf (w 4) 31 16, state := bitsOf (w 8) 2 0, dirty := bitOf (w 8) 3, step := w 12 })

/-- Write the fields of an entry that the Coelostat owns. -/
def State.coelPut (s : State) (i state : Nat) (dirty : Bool) (step : Nat) : State :=
  (s.writeSys (s.coelAddr i + 8) (leBytes 4 (state + (if dirty then 8 else 0)) ++ leBytes 4 step)).1

/-- Set or clear HOLD. -/
def State.coelHold (s : State) (i : Nat) (b : Bool) : State :=
  match s.readSys (s.coelAddr i) 1 with
  | some [x] => (s.writeSys (s.coelAddr i) [if b then x ||| 2#8 else x &&& 0xFD#8]).1
  | _ => s

/-- The VALID entries, with their indices. -/
def State.coelTable (s : State) : List (Nat × CoelEnt) :=
  (List.range s.coelCount).filterMap (fun i =>
    match s.coelEnt i with
    | some e => if e.valid then some (i, e) else none
    | none => none)

/-- Is every VALID entry of the job RESIDENT (R316)? An entry that cannot be read is not. -/
def State.resident (s : State) (job : Nat) : Bool :=
  (List.range s.coelCount).all (fun i =>
    match s.coelEnt i with
    | some e => !e.valid || e.job != job || e.state == 2
    | none => false)

/-- Has the job a released step whose records are not all visible (R317)? -/
def State.jobBusy (s : State) (job : Nat) : Bool :=
  match s.jobBy job with
  | some j => (match j.step with | some o => o.released | none => false)
  | none => false

/-- Is the frame busy (R317)? -/
def State.frameBusy (s : State) (frame : Nat) : Bool :=
  s.coelTable.any (fun x => x.2.frame == frame && ((x.2.state == 2 && s.jobBusy x.2.job) || x.2.state == 1 || x.2.state == 3))

/-- Conditions of R343 on a job's candidate step, residency left out. -/
def State.readyButResidency (s : State) (j : Job) : Bool :=
  j.cand.isSome && j.step.isNone && j.pre.isNone &&
  (match j.opened with | some t => decide (t + j.r.period * 1000 ≤ s.now) | none => true) &&
  (!j.r.det || !s.flag kKVMODE 0) && (!j.r.train || s.flag (rk rWATCH 1 0x110) 0)

/-- Jobs in the order in which the scheduler would open their steps (R344). -/
def State.jobOrder (s : State) (p : Job → Bool) : List Job :=
  let js := s.sched.jobs.filterMap (fun e => e.2.bind (fun j => if p j then some j else none))
  (List.range 8).flatMap (fun k => js.filter (fun j => j.r.prio == 7 - k))

/-- Account for the time that ready steps have waited on residency (R316), up to now. -/
def State.coelClock (s : State) : State :=
  let held := s.sched.jobs.any (fun e => match e.2 with | some j => s.readyButResidency j && !s.resident j.r.job | none => false)
  let s := match s.sched.waitFrom with
    | some t => s.addSat (kCOEL 0x124) 31 0 (cyclesIn (s.now - t))
    | none => s
  { s with sched := { s.sched with waitFrom := if held then some s.now else none } }

/-- An entry enters FAULT (R324); `out` tells which swap is to be repeated. -/
def State.coelFault (s : State) (i : Nat) (e : CoelEnt) (out : Bool) : State :=
  let s := (s.coelPut i 4 e.dirty e.step).setFlag kCOELSTAT 14 true
  let s := (s.addSat (kCOEL 0x128) 15 0 1).eventRecord rSCHED 0xF { detail := BitVec.ofNat 64 i }
  { s with sched := { s.sched with failedOut := Sparse.set (fun _ => none) s.sched.failedOut i (some out),
                                   evict := s.sched.evict.filter (fun x => x != i) } }

/-- Are the entry's objects as they must be (R325)? -/
def State.coelGood (s : State) (e : CoelEnt) : Option Obj :=
  match s.validObj e.frame [0], s.validObj e.home [2, 3] with
  | some f, some h => if f.size = h.size then some f else none
  | _, _ => none

/-- The descriptor of a swap MOVE: one tile, with PUBLISH (R319). Words that no rule gives are zero (log 38). -/
def swapWords (job src dst : Nat) : List Word :=
  [BitVec.ofNat 32 (1 + 2 ^ 8 + 2 ^ 16 * job), 0#32, 0#32, 0#32, BitVec.ofNat 32 (src + 2 ^ 16 * dst)] ++
  List.replicate 7 0#32 ++ [1#32] ++ List.replicate 3 0#32

/-- Write a descriptor at TAIL of a queue, and release it. -/
def State.submit (s : State) (region q : Nat) (words : List Word) : State :=
  let x := s.queue region q
  match s.txWrite (s.queueItag region q) (x.ringBase + x.tail % 2 ^ x.sizeLog2 * 64) (bytesOf words) with
  | (.ok _, s) => s.doorbell region q (BitVec.ofNat 32 (idx (x.tail + 1))) ((s.queueItag region q).getD 0#12)
  | (_, s) => s

/-- Issue the MOVE of a swap (R319, R320). Nothing is issued while the queue is not ACTIVE. -/
def State.coelMove (s : State) (i : Nat) (e : CoelEnt) (out : Bool) : State :=
  match s.coelGood e with
  | none => s.coelFault i e out
  | some f =>
    let q := s.coelQueue
    let x := s.queue rTRANSIT q
    if x.state ≠ .active ∨ s.sched.swap.isSome = true then s
    else
      let s := s.coelPut i (if out then 3 else 1) e.dirty e.step
      let s := s.addSat (kCOEL (if out then 0x11C else 0x118)) 31 0 1
      let s := (s.setFld kCOELSTAT 12 3 i).setFlag kCOELSTAT 13 true
      let s := { s with sched := { s.sched with
        swap := some { entry := i, out := out, index := x.tail, at_ := s.now, size := f.size },
        failedOut := Sparse.set (fun _ => none) s.sched.failedOut i none } }
      let s := s.submit rTRANSIT q (if out then swapWords e.job e.frame e.home else swapWords e.job e.home e.frame)
      if s.injArmed rSCHED 16 then (s.injDone rSCHED 16).finish rTRANSIT q x.tail stERR_DATA else s

/-- Swap a RESIDENT entry out: at once when it is clean (R319). -/
def State.coelOut (s : State) (i : Nat) (e : CoelEnt) : State :=
  if e.dirty then s.coelMove i e true
  else
    let s := (s.coelPut i 0 false e.step).addSat (kCOEL 0x120) 31 0 1
    { s with sched := { s.sched with evict := s.sched.evict.filter (fun x => x != i) } }

/-- Entries by ascending FRAME (R318). -/
def insertFrame (x : Nat × CoelEnt) : List (Nat × CoelEnt) → List (Nat × CoelEnt)
  | [] => [x]
  | y :: ys => if x.2.frame < y.2.frame then x :: y :: ys else y :: insertFrame x ys

/-- The next swap for a served job (R318): `none` when its step stays held, for HOLD or FAULT. -/
def State.coelServeJob (s : State) (j : Job) : Option State :=
  let es := (s.coelTable.filter (fun x => x.2.job == j.r.job && x.2.state != 2)).foldr insertFrame []
  match es with
  | [] => none
  | (i, e) :: _ =>
    if e.hold ∨ e.state = 4 then none
    else if e.state = 1 ∨ e.state = 3 ∨ s.frameBusy e.frame = true then some s
    else
      match s.coelTable.find? (fun x => x.2.frame == e.frame && x.2.state == 2) with
      | some (k, o) =>
        let s := s.coelOut k o
        some (if o.dirty then s else s.coelMove i e false)
      | none => some (s.coelMove i e false)

/-- Serve the next ready step that waits on residency, in the scheduler's order (R318). -/
def State.coelServe (s : State) : State :=
  if !s.coelOn || s.sched.swap.isSome then s
  else
    let js := s.jobOrder (fun j => s.readyButResidency j && !s.resident j.r.job)
    (js.findSome? (fun j => s.coelServeJob j)).getD s

/-- Carry out the first EVICT whose job has no released step left (R322). -/
def State.coelEvictNext (s : State) : State :=
  if !s.coelOn || s.sched.swap.isSome then s
  else
    match s.sched.evict.find? (fun i => match s.coelEnt i with | some e => !s.jobBusy e.job | none => false) with
    | none => s
    | some i => match s.coelEnt i with | some e => if e.state = 2 then s.coelOut i e else s | none => s

/-- STAT.RESULT: BUSY until the EVICTs are carried out. -/
def State.coelResult (s : State) : State :=
  if s.fld kCOELSTAT 2 0 = 1 ∧ s.sched.evict.isEmpty = true then s.setFld kCOELSTAT 2 0 0 else s

def effCoelServe (s : State) : State := s.coelServe.coelClock
def effCoelResume (s : State) : State :=
  let s := s.coelEvictNext
  s.coelServe.coelResult.coelClock

/-- The swap MOVE in flight ends (R319, R321, R324). -/
def effSwapDone (out : Bool) (s : State) : State :=
  match s.sched.swap with
  | none => s
  | some m =>
    let q := s.coelQueue
    let x := s.queue rTRANSIT q
    let bad := x.failed.any (fun f => f.1 == m.index)
    let due := m.at_ + 1000 + ceilDiv m.size (if m.out then 640 else 1280)
    if m.out ≠ out ∨ (bad = false ∧ (s.opVisible rTRANSIT q m.index = false ∨ s.now < due)) then s
    else
      match s.coelEnt m.entry with
      | none => s
      | some e =>
        let s : State := { s with sched := { s.sched with swap := none } }
        let s := s.setFlag kCOELSTAT 13 false
        let s := if bad then s.coelFault m.entry e out
          else if out then
            let s := s.coelPut m.entry 0 e.dirty e.step
            ({ s with sched := { s.sched with evict := s.sched.evict.filter (fun i => i != m.entry) } } : State)
          else
            let s := s.coelPut m.entry 2 false e.step
            { s with sched := { s.sched with jobs := s.sched.jobs.map (fun k => match k.2 with
                | some j => (k.1, some (if j.r.job = e.job then { j with residentAt := s.now } else j))
                | none => k) } }
        s.coelResult.coelClock

/-- A write of SCHED_COEL_CMD (R322, R324, R329). CMD reads 0; values above 5 carry no command. -/
def effCoelCmd (v : Word) (s : State) : State :=
  let i := fieldOf v 9 0
  let c := fieldOf v 14 12
  let s := s.setFld (kCOEL 0x110) 9 0 i
  let result := fun (r : Nat) (s : State) => s.setFld kCOELSTAT 2 0 r
  if c = 0 ∨ 5 < c then s
  else if s.coelCount ≤ i then result 2 s
  else
    match s.coelEnt i with
    | none => result 3 s
    | some e =>
      if c = 1 ∨ c = 2 then
        if e.valid = false ∨ e.state ≠ 2 then result 3 s
        else
          let s := if c = 2 then s.coelHold i true else s
          let s : State := { s with sched := { s.sched with evict := s.sched.evict ++ [i] } }
          ((result 1 s).coelEvictNext).coelResult
      else if c = 3 then (result 0 (s.coelHold i false)).coelServe.coelClock
      else if e.valid = false ∨ e.state ≠ 4 then result 3 s
      else if c = 4 then
        if s.sched.swap.isSome then result 1 s
        else if (s.queue rTRANSIT s.coelQueue).state ≠ .active then result 3 s
        else (result 0 s).coelMove i e ((Sparse.get (fun _ => none) s.sched.failedOut i).getD false)
      else
        let s := s.coelPut i 2 true e.step
        let s := match s.validObj e.frame [0] with
          | some o => s.scramble ((List.range o.size).map (fun k => o.loc + k))
          | none => s
        let s : State := { s with sched := { s.sched with failedOut := Sparse.set (fun _ => none) s.sched.failedOut i none } }
        (result 0 s).coelClock

/-- A step of a job is released: its RESIDENT entries become DIRTY with its STEP (R314). -/
def State.coelDirty (s : State) (job step : Nat) : State :=
  (s.coelTable.filter (fun x => x.2.job == job && x.2.state == 2)).foldl (fun s x => s.coelPut x.1 2 true step) s

def execCoelServe (s : State) : Outcome := .next (effCoelServe s)
def execCoelResume (s : State) : Outcome := .next (effCoelResume s)
def execSwapoutComplete (s : State) : Outcome := .next (effSwapDone true s)
def execSwapinComplete (s : State) : Outcome := .next (effSwapDone false s)

end Sys2Proof.Machine
end

