-- ==== Sys2Proof/Machine/Sched.lean ====
section
/-! DEFINITION. The scheduler (R330–R366): admission, the Almanac, steps, pre-emption and semaphores. -/

namespace Sys2Proof.Machine

def kSEM (k : Nat) : Nat := rk rSCHED 4 (0x100 + 4 * k)
def kALMFREE : Nat := rk rSCHED 1 0x10C

/-- The builder's ITAG (R334). -/
def State.builder (s : State) : Itag := BitVec.ofNat 12 (0x400 + s.fld (rk rSCHED 1 0x100) 9 0)

/-- The job of a SCHED queue. -/
def State.jobAt (s : State) (sq : Nat) : Option Job := Sparse.get (fun _ => none) s.sched.jobs sq
def State.setJob (s : State) (sq : Nat) (j : Option Job) : State :=
  { s with sched := { s.sched with jobs := Sparse.set (fun _ => none) s.sched.jobs sq j } }
/-- Admitted jobs. -/
def State.jobs (s : State) : List Job := s.sched.jobs.filterMap (fun e => e.2)

def State.alm (s : State) (i : Nat) : AlmEnt := Sparse.get (fun _ => {}) s.sched.alm i
def State.setAlm (s : State) (i : Nat) (e : AlmEnt) : State :=
  let s : State := { s with sched := { s.sched with alm := Sparse.set (fun _ => {}) s.sched.alm i e } }
  s.setFld kALMFREE 12 0 (4096 - (s.sched.alm.filter (fun x => x.2.state != 0)).length)

/-- Entries of a job, by ascending index. -/
def State.almOf (s : State) (job : Nat) : List (Nat × AlmEnt) :=
  s.sched.alm.filter (fun x => x.2.state != 0 && x.2.job == job)

/-- Insert by ascending JSEQ. -/
def insertSeq (x : Nat × AlmEnt) : List (Nat × AlmEnt) → List (Nat × AlmEnt)
  | [] => [x]
  | y :: ys => if x.2.jseq < y.2.jseq then x :: y :: ys else y :: insertSeq x ys
def bySeq (xs : List (Nat × AlmEnt)) : List (Nat × AlmEnt) := xs.foldr insertSeq []

/-- Almanac injections met when an entry is read (R363, R365). -/
def State.almInject (s : State) (i : Nat) : State :=
  if s.fld (kEINJ rSCHED) 15 4 ≠ i then s
  else
    let s := if s.injArmed rSCHED 0 then ((s.injDone rSCHED 0).count rSCHED 0).raise rSCHED 1 { inj := true, detail := BitVec.ofNat 64 i } else s
    if s.injArmed rSCHED 1 then
      (((s.injDone rSCHED 1).count rSCHED 1).raise rSCHED 18 { inj := true, detail := BitVec.ofNat 64 i, always := true }).setAlm i
        { s.alm i with fault := true }
    else s

/-- The words of an entry, as the window of page 3 shows them (R335). -/
def AlmEnt.words (e : AlmEnt) : List Word :=
  [BitVec.ofNat 32 (e.state + (if e.leave then 8 else 0) + (if e.short then 16 else 0) + (if e.fault then 32 else 0) + 2 ^ 16 * e.job),
   BitVec.ofNat 32 e.len, BitVec.ofNat 32 e.plen, BitVec.ofNat 32 e.lmax, BitVec.ofNat 32 e.res, BitVec.ofNat 32 e.jseq,
   BitVec.ofNat 32 e.jstep, 0#32]

/-! ### Admission (R332, R333) -/

def JobRec.ofBytes (bs : List Byte) : JobRec :=
  let w := fun (o : Nat) => leNat ((bs.drop o).take 4)
  let d := fun (o : Nat) => leNat ((bs.drop o).take 8)
  { job := bitsOf (w 0) 15 0, tenant := bitsOf (w 0) 19 16, prio := bitsOf (w 0) 22 20, rt := bitOf (w 0) 23, det := bitOf (w 0) 24,
    train := bitOf (w 0) 25, serve := bitOf (w 0) 26, domes := bitsOf (w 4) 7 0, dq := bitsOf (w 4) 13 8, tq := bitsOf (w 4) 23 14,
    ntq := bitsOf (w 4) 27 24 + 1, seed := d 8, sq := bitsOf (w 0x10) 5 0, period := w 0x14, wmax := w 0x18, semhold := w 0x1C,
    tbnd := w 0x20, liveMax := w 0x24, p2 := w 0x28, p3 := w 0x2C, p4 := w 0x30, saveObj := bitsOf (w 0x34) 15 0,
    bmax := bitsOf (w 0x38) 8 0, horizon := bitsOf (w 0x38) 12 9, lgn := bitsOf (w 0x38) 17 13 + 1, pchunk := bitsOf (w 0x3C) 14 0,
    newmax := bitsOf (w 0x40) 14 0, fq := bitsOf (w 0x44) 19 0, reticle := d 0x48, nitems := bitsOf (w 0x50) 15 0,
    wloff := bitsOf (w 0x54) 24 0, grant := d 0x58, grantLog2 := bitsOf (w 0x60) 3 0 }

/-- Is a reserved field of the record set? -/
def jobReserved (bs : List Byte) : Bool :=
  let w := fun (o : Nat) => leNat ((bs.drop o).take 4)
  bitsOf (w 0) 31 27 != 0 || bitsOf (w 4) 31 28 != 0 || bitsOf (w 0x10) 31 6 != 0 || bitsOf (w 0x34) 31 16 != 0 ||
  bitsOf (w 0x38) 31 18 != 0 || bitsOf (w 0x3C) 31 15 != 0 || bitsOf (w 0x40) 31 15 != 0 || bitsOf (w 0x44) 31 20 != 0 ||
  bitsOf (w 0x50) 31 16 != 0 || bitsOf (w 0x54) 31 25 != 0 || bitsOf (w 0x60) 31 4 != 0 || (bs.drop 0x64).any (fun b => b != 0#8)

/-- The form check of R332. -/
def State.jobForm (s : State) (r : JobRec) : Bool :=
  decide (1 ≤ r.sq) && decide (1 ≤ r.period) && decide (r.period ≤ 1000000) && decide (1 ≤ r.nitems) && r.reticle % 128 == 0 &&
  r.wloff % 64 == 0 &&
  (if r.serve then
    decide (1 ≤ r.bmax) && decide (r.bmax ≤ 256) && decide (2 ≤ r.horizon) && decide (1 ≤ r.pchunk) && decide (r.pchunk ≤ 16384) &&
    decide (r.bmax ≤ r.newmax) && decide (r.newmax ≤ 16384) && decide (4 ≤ r.grantLog2) && r.grant % 16 == 0
  else
    r.bmax == 0 && r.horizon == 0 && r.lgn == 1 && r.pchunk == 0 && r.newmax == 0 && r.fq == 0 && r.grantLog2 == 0 && r.grant == 0) &&
  (!r.train || r.det) && (s.queue rSCHED r.sq).state == .active && (s.jobAt r.sq).isNone && (s.jobBy r.job).isNone

/-- Do two jobs share a Dome? -/
def shareDome (a b : JobRec) : Bool := Nat.land a.domes b.domes != 0

/-- Times in units of 1/1,280 ns: a 400 MHz cycle, a microsecond and the save of R357 are whole numbers of them. -/
def unCyc (n : Nat) : Nat := 3200 * n
def unUs (n : Nat) : Nat := 1280000 * n
def unSave (live : Nat) : Nat := 2048000 + 2 * live

/-- The bound R_J over a set of admitted jobs, in units of 1/1,280 ns (R333). -/
def respBound (all : List JobRec) (j : JobRec) : Nat :=
  let others := all.filter (fun i => i.job != j.job && shareDome i j)
  let block := (others.filter (fun l => decide (l.prio < j.prio))).foldl
    (fun m l => Nat.max m (unCyc (l.semhold + l.tbnd) + unSave l.liveMax)) 0
  let sw := 2 * unSave j.liveMax
  (others.filter (fun i => i.rt && decide (j.prio ≤ i.prio))).foldl
    (fun a i => a + ceilDiv j.period i.period * (unCyc i.wmax + (if j.prio < i.prio then sw else 0))) (unCyc j.wmax + block)

/-- A quotient shown in a register whose rounding the spec does not state: exact where it divides, else one of the two
neighbours (log 40). -/
def State.quotient (s : State) (a b : Nat) : Nat × State :=
  if a % b = 0 then (a / b, s)
  else
    let (n, s) := s.draw
    (a / b + (if (Config.freeWord n).getLsbD 0 then 1 else 0), s)

/-- The checks of R332, in order: the status of the first that fails. -/
def State.admitCheck (s : State) (bs : List Byte) (r : JobRec) : Nat :=
  let others := s.jobs.map (fun j => j.r)
  let rts := others.filter (fun o => o.rt)
  let all := others ++ [r]
  let frames := (List.range 8).all (fun n =>
    !(r.serve && bitOf r.domes n) ||
    (match s.kvPool n with
     | some o => decide ((others.filter (fun k => k.serve && bitOf k.domes n)).foldl (fun a k => a + k.fq) r.fq ≤ o.size / s.fpitch n)
     | none => r.fq == 0))
  let rtNow := if r.rt then rts ++ [r] else rts
  let hbm : Nat := rtNow.foldl (fun a k => a + 16 * k.p2 + 15 * k.p3) 0
  let lp : Nat := rtNow.foldl (fun a k => a + k.p4) 0
  if jobReserved bs || !s.jobForm r then stREJ_FORMAT
  else if (r.train && !s.flag (rk rWATCH 1 0x110) 0) || (!r.rt && rts.any (fun k => shareDome k r && decide (k.prio ≤ r.prio))) ||
      decide (63 ≤ others.length) then stREJ_LIMIT
  else if !frames then stREJ_CAPACITY
  else if 15 * 6635520 < hbm ∨ 245700 < lp then stREJ_CAPACITY
  else if rtNow.any (fun k => decide (unUs k.period < respBound all k)) then stREJ_CAPACITY
  else stDONE

/-- Show the admitted loads and the bounds (R332, R333). -/
def State.showLoads (s : State) : State :=
  let rts := (s.jobs.map (fun j => j.r)).filter (fun r => r.rt)
  let all := s.jobs.map (fun j => j.r)
  let (h, s) := s.quotient (rts.foldl (fun a k => a + 16 * k.p2 + 15 * k.p3) 0) 15
  let s := (s.wr (rk rSCHED 1 0x104) (BitVec.ofNat 32 h)).wr (rk rSCHED 1 0x108) (BitVec.ofNat 32 (rts.foldl (fun a k => a + k.p4) 0))
  s.jobs.foldl (fun s j =>
    if j.r.rt then
      let (n, s) := s.quotient (respBound all j.r) 1280
      s.setJob j.r.sq (some { j with resp := n })
    else s) s

def State.setSeed (s : State) (job : Nat) (x : Option Nat) : State := { s with seeds := Sparse.set (fun _ => none) s.seeds job x }

/-- The next control operation of queue 0 with this opcode. -/
def State.control (s : State) (opcode : Nat) : Option Op :=
  match s.nextOp rSCHED 0 with
  | some o => if o.opcode = opcode then some o else none
  | none => none

/-- An ADMIT (R332). -/
def effAdmit (s : State) : State :=
  match s.control 1 with
  | none => s
  | some o =>
    let s := s.start rSCHED 0 o
    let a := o.addr 0x10
    let refuse := fun (st : Nat) (s : State) => (s.count rSCHED 7).finish rSCHED 0 o.index st
    if a % 128 ≠ 0 then refuse stREJ_FORMAT s
    else
      match s.txRead (s.queueItag rSCHED 0) a 128 (some (rSCHED, 0, o.index)) with
      | (.ok bs, s) =>
        let r := JobRec.ofBytes bs
        let st := s.admitCheck bs r
        if st ≠ stDONE then refuse st s
        else (((s.setJob r.sq (some { r := r })).setSeed r.job (some r.seed)).showLoads).finish rSCHED 0 o.index stDONE
      | (.firewall, s) => s.flushItag s.builder
      | (tx, s) => s.finish rSCHED 0 o.index tx.status

/-! ### JOIN, LEAVE, RETIRE (R330, R331, R336) -/

def effJoin (s : State) : State :=
  match s.control 4 with
  | none => s
  | some o =>
    let s := s.start rSCHED 0 o
    let len := o.fld 0x14 16 0
    let plen := o.fld 0x18 16 0
    let lmax := o.fld 0x1C 16 0
    let done := fun (st : Nat) (r : DWord) (s : State) => s.finish rSCHED 0 o.index st r
    match s.jobBy (o.fld 0x10 15 0) with
    | none => done stREJ_FORMAT 0#64 s
    | some j =>
      if j.r.serve = false then done stREJ_FORMAT 0#64 s
      else
        match (List.range 4096).find? (fun i => (s.alm i).state == 0) with
        | none => done stREJ_CAPACITY 0#64 s
        | some i =>
          if 65536 < lmax ∨ lmax < plen ∨ lmax ≤ len ∨ plen < len then done stREJ_LIMIT 0#64 s
          else
            let n := s.sched.jseq
            let s : State := { s with sched := { s.sched with jseq := (n + 1) % 2 ^ 32 } }
            let s := s.setAlm i { state := 1, job := j.r.job, len := len, plen := plen, lmax := lmax, jseq := n }
            let s := (List.range 8).foldl (fun s d => if bitOf j.r.domes d then s.finderDrop d i else s) s
            done stDONE (BitVec.ofNat 64 i) s

def effLeave (s : State) : State :=
  match s.control 5 with
  | none => s
  | some o =>
    let s := s.start rSCHED 0 o
    let i := o.fld 0x10 11 0
    let e := s.alm i
    if e.state = 0 ∨ (s.jobBy e.job).isNone = true then (s.cfgErr rSCHED).finish rSCHED 0 o.index stDONE
    else (s.setAlm i { e with leave := true }).finish rSCHED 0 o.index stDONE

/-- Release what a retired job holds (R330, R359). -/
def State.retireJob (s : State) (j : Job) : State :=
  let s := (s.almOf j.r.job).foldl (fun s x => s.setAlm x.1 {}) s
  let s := (List.range 64).foldl (fun s k =>
    match Sparse.get (fun _ => none) s.sched.sems k with
    | some m =>
      if m.job = j.r.job then
        (({ s with sched := { s.sched with sems := Sparse.set (fun _ => none) s.sched.sems k none } } : State).setFlag (kSEM k) 18 false).count
          rSCHED 3
      else s
    | none => s) s
  ((s.setJob j.r.sq none).setSeed j.r.job none).showLoads

def effRetire (s : State) : State :=
  match s.control 2 with
  | none => s
  | some o =>
    let s := s.start rSCHED 0 o
    match s.jobBy (o.fld 0x10 15 0) with
    | none => s.finish rSCHED 0 o.index stDONE
    | some j => if j.step.isSome then s else (s.retireJob j).finish rSCHED 0 o.index stDONE

/-- Once a job's open step has closed, a RETIRE that waits for it completes (R330). -/
def State.retireWaiting (s : State) (j : Job) : State :=
  match (s.queue rSCHED 0).ops.find? (fun o => o.started && o.status.isNone && o.opcode == 2 && o.fld 0x10 15 0 == j.r.job) with
  | some o => (s.retireJob j).finish rSCHED 0 o.index stDONE
  | none => s

/-! ### NEW and reservations (R337, R338) -/

/-- NEW of a row alone. -/
def newAlone (r : JobRec) (len plen lmax : Nat) : Nat :=
  Nat.min (if len < plen then Nat.min r.pchunk (plen - len) else 1) (lmax - len)

/-- Σ NEW over `n` steps for the row alone. -/
def newSum (r : JobRec) (plen lmax : Nat) : Nat → Nat → Nat
  | 0, _ => 0
  | n + 1, len => let x := newAlone r len plen lmax; x + newSum r plen lmax n (len + x)

def pagesNeed (r : JobRec) (e : AlmEnt) : Nat := ceilDiv (Nat.min e.lmax (e.len + newSum r e.plen e.lmax r.horizon e.len)) 64
def resNeed (r : JobRec) (e : AlmEnt) : Nat := r.lgn * pagesNeed r e

/-- First step from `m` on whose appends go beyond `pages`. -/
def dueStep (r : JobRec) (plen lmax pages : Nat) : Nat → Nat → Nat → Nat
  | 0, _, m => m
  | n + 1, len, m => if pages * 64 < len + newAlone r len plen lmax then m else dueStep r plen lmax pages n (len + newAlone r len plen lmax) (m + 1)

/-- The frame ledger (R338). -/
def State.ledger (s : State) (r : JobRec) : Nat := r.fq - (s.almOf r.job).foldl (fun a x => a + x.2.res) 0

/-! ### The step boundary (R339) -/

/-- What opening a step gathers. A failed write of the builder stops it. -/
structure Opening where
  s : State
  fail : Option Nat := none
  wrote : Nat := 0               -- records and descriptors written
  joined : Nat := 0
  gone : Nat := 0
  parked : Bool := false

/-- A write by the builder for the STEP at `index` of queue `sq`. -/
def Opening.put (o : Opening) (sq index a : Nat) (bs : List Byte) : Opening :=
  if o.fail.isSome then o
  else
    match o.s.txWrite (some o.s.builder) a bs (some (rSCHED, sq, index)) with
    | (.ok _, s) => { o with s := s }
    | (tx, s) => { o with s := s, fail := some tx.status }

/-- Write one grant (R340). -/
def Opening.grant (o : Opening) (sq index seq : Nat) (release : Bool) (from_ last due : Nat) : Opening :=
  match o.s.jobAt sq with
  | none => o
  | some j =>
    let n := 2 ^ j.r.grantLog2
    let ph := if j.grants / n % 2 = 0 then 1 else 0
    let bs := leBytes 4 (seq + (if release then 2 ^ 12 else 0) + 2 ^ 13 * ph) ++ leBytes 4 (from_ + 2 ^ 16 * last) ++ leBytes 4 due ++ leBytes 4 0
    let o := o.put sq index (j.r.grant + j.grants % n * 16) bs
    { o with s := o.s.setJob sq (some { j with grants := j.grants + 1 }), wrote := o.wrote + 1 }

/-- Enter PARKED, counted on each entry (R342). -/
def State.park (s : State) (i : Nat) : State :=
  let e := s.alm i
  if e.state = 4 then s else (s.setAlm i { e with state := 4 }).count rSCHED 4

/-- A leave: the row's reservation is granted back. -/
def Opening.leave (o : Opening) (r : JobRec) (index n i : Nat) (e : AlmEnt) : Opening :=
  if e.leave ∨ (e.state = 3 ∧ e.len = e.lmax) then
    let o := if e.res = 0 then o else o.grant r.sq index i true 0 (e.res / r.lgn - 1) (n + 1)
    { o with s := o.s.setAlm i {}, gone := o.gone + 1 }
  else o

/-- Step 1: leaves. -/
def Opening.leaves (o : Opening) (r : JobRec) (index n : Nat) : Opening :=
  (o.s.almOf r.job).foldl (fun o x => o.leave r index n x.1 x.2) o

/-- JSHORT counts one shortage of the ledger. -/
def State.noteShort (s : State) (sq : Nat) : State :=
  match s.jobAt sq with
  | some j => s.setJob sq (some { j with jshort := satAdd 0xFFFFFFFF j.jshort 1 })
  | none => s

/-- The pages that a row needs beyond its reservation are granted where the ledger has them; where it does not, the job
counts one shortage. -/
def Opening.reserve (o : Opening) (r : JobRec) (index n i : Nat) (e : AlmEnt) : Opening × AlmEnt :=
  let d := resNeed r e - e.res
  if d ≤ o.s.ledger r then
    let old := e.res / r.lgn
    (if d = 0 then o
      else o.grant r.sq index i false old (pagesNeed r e - 1) (Nat.max (n + 1) (dueStep r e.plen e.lmax old r.horizon e.len n)),
     { e with res := e.res + d, short := false })
  else
    ({ o with s := o.s.noteShort r.sq }, { e with short := true })

/-- One extension: the row stays in the step where its reservation covers the step, else it is parked. -/
def Opening.extend (o : Opening) (r : JobRec) (index n i : Nat) (e : AlmEnt) : Opening :=
  let x := o.reserve r index n i e
  let o := x.1
  let e := x.2
  if r.lgn * ceilDiv (e.len + newAlone r e.len e.plen e.lmax) 64 ≤ e.res then { o with s := o.s.setAlm i { e with state := 3 } }
  else { o with s := (o.s.setAlm i e).park i, parked := true }

/-- Step 2: extensions, oldest first. -/
def Opening.extensions (o : Opening) (r : JobRec) (index n : Nat) : Opening :=
  (bySeq ((o.s.almOf r.job).filter (fun x => x.2.state == 3 || x.2.state == 4))).foldl
    (fun o x => o.extend r index n x.1 x.2) o

/-- Step 3: joins, in strict JSEQ order; the first that fails ends the loop. -/
def Opening.joins (r : JobRec) (index n : Nat) : List (Nat × AlmEnt) → Opening → Opening
  | [], o => o
  | (i, e) :: rest, o =>
    let rows := ((o.s.almOf r.job).filter (fun x => x.2.state == 2 || x.2.state == 3)).length
    if r.bmax ≤ rows ∨ o.s.ledger r < resNeed r e then o
    else
      let o := o.grant r.sq index i false 0 (pagesNeed r e - 1) (n + 1)
      Opening.joins r index n rest
        { o with s := o.s.setAlm i { e with res := resNeed r e, state := 2, jstep := n + 1 }, joined := o.joined + 1 }

/-- Joins of the step before become ACTIVE. -/
def State.activate (s : State) (r : JobRec) (n : Nat) : State :=
  (s.almOf r.job).foldl (fun s x => if x.2.state = 2 ∧ x.2.jstep = n then s.setAlm x.1 { x.2 with state := 3 } else s) s

/-- The whole boundary: joins of the step before become ACTIVE, then leaves, extensions and joins. -/
def Opening.boundary (o : Opening) (r : JobRec) (index n : Nat) : Opening :=
  let o := (({ o with s := o.s.activate r n } : Opening).leaves r index n).extensions r index n
  let o := Opening.joins r index n (bySeq ((o.s.almOf r.job).filter (fun x => x.2.state == 1))) o
  if (o.s.almOf r.job).any (fun x => x.2.state == 1) then { o with s := o.s.count rSCHED 5 } else o

/-! ### Rows, the reticle and the cost (R337, R346–R349) -/

/-- NEW of every row of the step: decode rows keep 1 and prefill rows share NEWMAX by JSEQ (R337). -/
def State.rowsOf (s : State) (r : JobRec) : List (Nat × AlmEnt × Nat) :=
  let act := (s.almOf r.job).filter (fun x => x.2.state == 3)
  let want := fun (e : AlmEnt) => newAlone r e.len e.plen e.lmax
  let total := act.foldl (fun a x => a + want x.2) 0
  if total ≤ r.newmax then act.map (fun x => (x.1, x.2, want x.2))
  else
    let decode := (act.filter (fun x => decide (x.2.plen ≤ x.2.len))).foldl (fun a x => a + want x.2) 0
    let shares := ((bySeq (act.filter (fun x => decide (x.2.len < x.2.plen)))).foldl
      (fun (acc : Nat × List (Nat × Nat)) x => let n := Nat.min acc.1 (want x.2); (acc.1 - n, (x.1, n) :: acc.2))
      (r.newmax - decode, [])).2
    (act.map (fun x => (x.1, x.2, if x.2.len < x.2.plen then ((shares.find? (fun p => p.1 == x.1)).map Prod.snd).getD 0 else want x.2))).filter
      (fun x => x.2.2 != 0)

/-- A reticle item (R347). -/
structure RetItem where
  kind : Nat
  dome : Nat
  transit : Bool
  qoff : Nat
  gwkind : Nat
  layer : Nat
  head : Nat
  dst : Nat
  ref : Nat
  cost : Bool
  cs : List Nat
  allow : Nat
  image : List Byte
  deriving DecidableEq, Repr

def RetItem.ofBytes (bs : List Byte) : RetItem :=
  let w := fun (o : Nat) => leNat ((bs.drop o).take 4)
  { kind := bitsOf (w 0) 1 0, dome := bitsOf (w 0) 4 2, transit := bitOf (w 0) 5, qoff := bitsOf (w 0) 9 6,
    gwkind := bitsOf (w 0) 11 10, layer := bitsOf (w 4) 7 0, head := bitsOf (w 4) 10 8, dst := leNat ((bs.drop 8).take 8),
    ref := bitsOf (w 0x10) 15 0, cost := bitOf (w 0x10) 16, cs := (List.range 5).map (fun i => w (0x14 + 4 * i)),
    allow := w 0x28, image := bs.drop 0x40 }

/-- What a record of a GWREC item substitutes into its image (R349). -/
structure GwEmit where
  seq : Nat
  len : Nat
  gather : Option (Nat × Nat × Nat) := none     -- QPOS, FIRST, query rows
  deriving DecidableEq, Repr

/-- Tile starts of one query block. -/
def tileStarts (s lo hi : Nat) : List Nat :=
  if s = 0 then [0]
  else
    let f := lo / s * s
    f :: ((List.range (hi / s + 1)).map (fun i => f + s * (i + 1))).filter (fun x => decide (x < hi))

/-- Records of a row, block by block; `fuel` bounds the blocks. -/
def emitRow (gwkind g qb self win seq len top : Nat) : Nat → Nat → List GwEmit
  | 0, _ => []
  | fuel + 1, b =>
    if top ≤ b then []
    else
      let q1 := Nat.min top (b + qb)
      let hi := q1 - 1 + self
      let lo := if win = 0 then 0 else b + self - win
      let here := if gwkind = 0 then (List.range (q1 - b)).map (fun i => { seq := seq, len := b + i })
        else (tileStarts (if gwkind = 1 then 128 else if gwkind = 2 then 256 else 0) lo hi).map
          (fun f => { seq := seq, len := len, gather := some (b, f, (q1 - b) * g) })
      here ++ emitRow gwkind g qb self win seq len top fuel (b + qb)

/-- The records of a GWREC item, rows in work-list order. `none` when its blocks hold no position: the count then has no end. -/
def RetItem.emits (it : RetItem) (rows : List (Nat × AlmEnt × Nat)) : Option (List GwEmit) :=
  let f := GwFields.ofBytes (it.image.take 32)
  let qb := f.qrows / f.gqa
  if qb = 0 ∧ rows ≠ [] then none
  else
    some (rows.flatMap (fun x => emitRow it.gwkind f.gqa qb f.self f.win x.1 x.2.1.len (x.2.1.len + x.2.2) (x.2.2 + 1) x.2.1.len))

/-- Replace bits hi:lo of the 32-bit word at byte `o` of an image. -/
def patch (bs : List Byte) (o hi lo v : Nat) : List Byte :=
  let w := BitVec.ofNat 32 (leNat ((bs.drop o).take 4))
  bs.take o ++ leBytes 4 (withField w hi lo v).toNat ++ bs.drop (o + 4)

/-- The 32 bytes of a record. -/
def GwEmit.bytes (g : GwEmit) (image : List Byte) (qam : Bool) (slot : Nat) : List Byte :=
  let b := patch (patch (patch (image.take 32) 0 11 0 g.seq) 0 16 16 (if qam then 1 else 0)) 8 16 0 g.len
  match g.gather with
  | none => b
  | some (qpos, first, qrows) => patch (patch (patch (patch b 0x10 16 0 qpos) 0xC 16 0 first) 4 15 8 (qrows - 1)) 0x18 9 0 slot

/-- Counts of K or V tiles that the work list and the cost use: those of the first such item (log 41). -/
def tilesOf (its : List RetItem) (rows : List (Nat × AlmEnt × Nat)) (gwkind : Nat) : Nat :=
  match its.find? (fun i => i.kind == 1 && i.gwkind == gwkind) with
  | some i => ((i.emits rows).getD []).length
  | none => 0

/-- PLAN_CYC of a DESC item with COST (R348). -/
def RetItem.plan (it : RetItem) (rows kt vt new : Nat) : Nat :=
  let c := fun i => it.cs.getD i 0
  c 0 + c 1 * rows + c 2 * kt + c 3 * vt + c 4 * new

/-- The image of a DESC item, patched. -/
def RetItem.desc (it : RetItem) (rows kt vt new : Nat) : List Byte :=
  if it.cost then
    let p := it.plan rows kt vt new
    patch (patch it.image 0x20 31 0 p) 0x24 31 0 (p + it.allow)
  else it.image

/-- WCET_CYC that an item adds on its Dome: of a RUN. -/
def RetItem.wcet (it : RetItem) (rows kt vt new : Nat) : Nat :=
  let b := it.desc rows kt vt new
  if it.kind = 0 ∧ it.transit = false ∧ b.headD 0#8 = 2#8 then leNat ((b.drop 0x24).take 4) else 0

/-- Sizes of the step's work over a set of rows. -/
structure StepSize where
  kt : Nat
  vt : Nat
  new : Nat
  written : Nat
  topen : Nat
  wstep : Nat
  deriving DecidableEq, Repr

def stepSize (its : List RetItem) (rows : List (Nat × AlmEnt × Nat)) (entries grants : Nat) : StepSize :=
  let kt := tilesOf its rows 1
  let vt := tilesOf its rows 2
  let new := rows.foldl (fun a x => a + x.2.2) 0
  let recs := its.foldl (fun a i => a + (if i.kind = 0 then 1 else if i.kind = 1 then ((i.emits rows).getD []).length else 0)) 0
  let written := recs + grants
  let topen := 800 + 16 * entries + ceilDiv written 64
  let perDome := (List.range 8).map (fun d => (its.filter (fun i => i.dome == d)).foldl (fun a i => a + i.wcet rows.length kt vt new) 0)
  { kt := kt, vt := vt, new := new, written := written, topen := topen, wstep := topen + perDome.foldl Nat.max 0 + 64 }

/-- Park rows of highest JSEQ while the cost exceeds WMAX (R345). -/
def Opening.fitCost (r : JobRec) (its : List RetItem) (entries : Nat) : Nat → Opening → Opening
  | 0, o => o
  | fuel + 1, o =>
    let rows := o.s.rowsOf r
    if (stepSize its rows entries o.wrote).wstep ≤ r.wmax then o
    else
      match (bySeq ((o.s.almOf r.job).filter (fun x => x.2.state == 3))).getLast? with
      | none => o
      | some (i, _) => Opening.fitCost r its entries fuel { o with s := o.s.park i, parked := true }

/-- Read the reticle up to END. -/
def State.readReticle (s : State) (sq index : Nat) : Nat → Nat → List RetItem → Tx (List RetItem) × State
  | 0, _, acc => (.ok acc, s)
  | n + 1, a, acc =>
    match s.txRead (some s.builder) a 128 (some (rSCHED, sq, index)) with
    | (.ok bs, s) =>
      let it := RetItem.ofBytes bs
      if it.kind = 3 then (.ok acc, s) else State.readReticle s sq index n (a + 128) (acc ++ [it])
    | (.firewall, s) => (.firewall, s)
    | (.error, s) => (.error, s)
    | (.uncorrectable, s) => (.uncorrectable, s)

/-- The work list of one Dome (R346). -/
def workList (n : Nat) (qam : Bool) (z : StepSize) (rows : List (Nat × AlmEnt × Nat)) : List Byte :=
  leBytes 4 n ++ leBytes 4 (rows.length + (if qam then 512 else 0)) ++ leBytes 4 z.new ++ leBytes 4 z.kt ++
  rows.flatMap (fun x =>
    leBytes 4 (x.1 + (if x.2.1.jstep = n then 2 ^ 12 else 0) + (if x.2.1.lmax ≤ x.2.1.len + x.2.2 then 2 ^ 13 else 0)) ++
    leBytes 4 x.2.1.len ++ leBytes 4 x.2.2 ++ leBytes 4 0)

/-- What building gathers beside the state: records per item, ring slots used per walker, descriptors per queue. -/
structure Built where
  o : Opening
  counts : List Nat := []
  slots : Sparse Nat := []
  descs : List (Nat × Nat × Nat) := []

/-- Build one item (R347–R350). -/
def Built.item (b : Built) (j : JobRec) (index : Nat) (qam : Bool) (z : StepSize) (rows : List (Nat × AlmEnt × Nat)) (it : RetItem) : Built :=
  if it.kind = 0 then
    let region := if it.transit then rTRANSIT else it.dome
    let q := if it.transit then j.tq + it.qoff else j.dq
    let x := b.o.s.queue region q
    let k := (b.descs.filter (fun d => d.1 == region && d.2.1 == q)).length
    let i := idx (x.tail + k)
    let o := b.o.put j.sq index (x.ringBase + i % 2 ^ x.sizeLog2 * 64) (it.desc rows.length z.kt z.vt z.new)
    { b with o := o, counts := b.counts ++ [0], descs := b.descs ++ [(region, q, i)] }
  else if it.kind = 1 then
    let es := (it.emits rows).getD []
    let ringn := b.o.s.fld (kWK it.dome 0x128) 10 0
    let s0 := Sparse.get (fun _ => 0) b.slots it.dome
    let o := es.zipIdx.foldl (fun (o : Opening) (e : GwEmit × Nat) =>
      o.put j.sq index (plateBase it.dome + it.dst + 32 * e.2) (e.1.bytes it.image qam ((s0 + e.2) % ringn))) b.o
    { b with o := o, counts := b.counts ++ [es.length],
             slots := if it.gwkind = 0 then b.slots else Sparse.set (fun _ => 0) b.slots it.dome (s0 + es.length) }
  else
    { b with o := b.o.put j.sq index (it.dst + 0x10) (leBytes 2 (b.counts.getD it.ref 0)), counts := b.counts ++ [0] }

/-! ### Opening and releasing a step (R343–R351) -/

/-- End the STEP without opening it. -/
def State.endStep (s : State) (sq index st : Nat) : State :=
  let s := match s.jobAt sq with | some j => s.setJob sq (some { j with cand := none }) | none => s
  (s.setFlag (kSTAT rSCHED) 16 false).finish rSCHED sq index st

/-- Count a relaxed choice among ready steps (R344). -/
def State.stepChoice (s : State) : Option (Job × Bool) :=
  let ready := s.jobOrder (fun j => s.readyButResidency j && s.resident j.r.job && !j.suspended)
  match ready with
  | [] => none
  | top :: _ =>
    let peers := ready.filter (fun j => j.r.prio == top.r.prio)
    let since := fun (j : Job) => Nat.max (Nat.max (j.cand.map Prod.snd |>.getD 0) j.residentAt)
      (match j.opened with | some t => t + j.r.period * 1000 | none => 0)
    if s.flag (kCTRL rSCHED) 1 && peers.all (fun j => !j.r.det) then
      let t0 := peers.foldl (fun m j => Nat.min m (since j)) (since top)
      match peers.find? (fun j => since j == t0) with
      | some j => some (j, peers.any (fun k => k.r.tenant != j.r.tenant))
      | none => some (top, false)
    else some (top, false)

/-- Latch QA_REQ for a step (R280). -/
def State.openQam (s : State) (qam : Bool) : State :=
  (if qam then { s with openQam1 := s.openQam1 + 1 } else { s with openQam0 := s.openQam0 + 1 } : State).showKvMode

/-- Write the work lists and the records, and open the step; a write that fails ends it (R346–R350). -/
def Opening.open_ (o : Opening) (r : JobRec) (index n : Nat) (qam : Bool) (rows : List (Nat × AlmEnt × Nat)) (its : List RetItem)
    (z : StepSize) : State :=
  let o := (List.range 8).foldl (fun (o : Opening) d =>
    if bitOf r.domes d then o.put r.sq index (plateBase d + r.wloff) (workList n qam z rows) else o) o
  let b := its.foldl (fun (b : Built) it => b.item r index qam z rows it) { o := o }
  (match b.o.fail with
   | some st => (if st = stERR_FIREWALL then b.o.s.flushItag b.o.s.builder else b.o.s).endStep r.sq index st
   | none =>
     let s := b.o.s.openQam qam
     match s.jobAt r.sq with
     | none => s
     | some j =>
       (s.setJob r.sq (some { j with
          cand := none, opened := some s.now, rows := rows.length, jstep := n, jwstep := z.wstep,
          step := some { index := index, number := n, opened := s.now, topen := z.topen, wstep := z.wstep, qam := qam,
                         rows := rows.map (fun x => (x.1, x.2.2)), descs := b.descs, joined := o.joined, gone := o.gone,
                         parked := o.parked } })).setFlag (kSTAT rSCHED) 16 true)

/-- Build the step: the boundary, the reticle, the costs, the work lists and the records; then it is opened (R345–R350). -/
def State.buildStep (s : State) (r : JobRec) (index n entries : Nat) : State :=
  let o := ({ s := s } : Opening).boundary r index n
  let qam := o.s.flag kKVMODE 0
  match State.readReticle o.s r.sq index r.nitems r.reticle [] with
  | (.ok its, s) =>
    let o := Opening.fitCost r its entries (entries + 1) { o with s := s }
    let rows := o.s.rowsOf r
    let z := stepSize its rows entries o.wrote
    let counts := its.map (fun i => if i.kind = 1 then (i.emits rows).map List.length else some 0)
    let appends := (List.range 8).any (fun d =>
      decide (16384 < ((its.filter (fun i => i.kind == 1 && i.gwkind == 0 && i.dome == d)).map
        (fun i => ((i.emits rows).getD []).length)).foldl Nat.max 0))
    if counts.any (fun c => match c with | some n => decide (65535 < n) | none => true) || appends then
      o.s.endStep r.sq index stREJ_LIMIT
    else
      o.open_ r index n qam rows its z
  | (.firewall, s) => (s.flushItag s.builder).endStep r.sq index stERR_FIREWALL
  | (tx, s) => s.endStep r.sq index tx.status

/-- Has the job a step that is open and not released? -/
def Job.building (j : Job) : Bool :=
  match j.step with
  | some o => !o.released
  | none => false

/-- STEP_OPEN: the chosen ready step is opened and its work built (R345). -/
def effStepOpen (s : State) : State :=
  let busy := s.jobs.any Job.building
  if busy then s
  else
    match s.stepChoice with
    | none => s
    | some (j, tcc) =>
      match j.cand with
      | none => s
      | some (index, _) =>
        let r := j.r
        let s := s.coelClock
        let s := if tcc then (s.countTcc rSCHED).mapOp rSCHED r.sq index (fun o => { o with tcc := true }) else s
        let n := match s.findOp rSCHED r.sq index with | some o => o.step | none => 0
        let entries := s.almOf r.job
        let s := entries.foldl (fun s x => s.almInject x.1) s
        if (s.almOf r.job).any (fun x => x.2.fault) then s.endStep r.sq index stERR_DATA
        else
          s.buildStep r index n entries.length

/-- A STEP descriptor is taken: the next step is a candidate, or its number is wrong (R331, R343). -/
def effStep (sq : Nat) (s : State) : State :=
  match s.jobAt sq, s.nextOp rSCHED sq with
  | some j, some o =>
    if o.opcode ≠ 0x10 ∨ j.cand.isSome = true ∨ j.step.isSome = true then s
    else
      let s := s.start rSCHED sq o
      if o.step ≠ j.lastStep + 1 then s.finish rSCHED sq o.index stREJ_FORMAT
      else (s.setJob sq (some { j with cand := some (o.index, s.now) })).coelClock
  | _, _ => s

/-- Doorbell register of a queue (R119). -/
def kDOORBELL (region q : Nat) : Nat := rk region (12 + q / 1024) (q % 1024 * 4)

/-- STEP_RELEASE: every builder write is visible, and the doorbells of the step's queues are written (R345, R334). -/
def effStepRelease (s : State) : State :=
  match s.jobs.find? Job.building with
  | none => s
  | some j =>
    match j.step with
    | none => s
    | some o =>
      let s := s.setJob j.r.sq (some { j with step := some { o with released := true } })
      let s := s.setFlag (kSTAT rSCHED) 16 false
      let s := s.coelDirty j.r.job o.number
      let qs := (o.descs.map (fun d => (d.1, d.2.1))).eraseDups
      qs.foldl (fun s q =>
        let n := (o.descs.filter (fun d => d.1 == q.1 && d.2.1 == q.2)).length
        let v := BitVec.ofNat 32 (idx ((s.queue q.1 q.2).tail + n))
        match s.gate { itag := s.builder } (kDOORBELL q.1 q.2) true v with
        | (.ok, s) => s.doorbell q.1 q.2 v s.builder
        | (_, s) => s) s

/-! ### Closing a step (R352–R354) -/

/-- Is the record of a released descriptor visible, or will it never be (R108)? -/
def State.recordDone (s : State) (d : Nat × Nat × Nat) : Bool :=
  let x := s.queue d.1 d.2.1
  !x.ops.any (fun o => o.index == d.2.2) && decide (0 < dist d.2.2 x.head) && decide (dist d.2.2 x.head ≤ 32768)

/-- The lowest stopping status among the step's records, 0 when none stops. -/
def State.stepStatus (s : State) (o : OpenStep) : Nat :=
  o.descs.foldl (fun a d =>
    match ((s.queue d.1 d.2.1).failed.find? (fun f => f.1 == d.2.2 && f.2 != 0)).map Prod.snd with
    | some st => if a = 0 ∨ st < a then st else a
    | none => a) 0

/-- Cycles from opening, pre-empted intervals left out. -/
def State.stepCycles (s : State) (j : Job) (o : OpenStep) : Nat :=
  let pausing := match j.pre with | some p => if 2 ≤ p.stage then s.now - p.from_ else 0 | none => 0
  cyclesIn (s.now - o.opened - o.pausedFor - pausing)

/-- RESULT of a STEP (R353). -/
def stepResult (cyc rows joined gone : Nat) (pre parked : Bool) : DWord :=
  BitVec.ofNat 64 (cyc % 2 ^ 32 + (rows % 512 + joined % 256 * 2 ^ 9 + 2 ^ 17 * (gone % 256) + (if pre then 2 ^ 25 else 0) +
    (if parked then 2 ^ 26 else 0)) * 2 ^ 32)

def effStepClose (sq : Nat) (s : State) : State :=
  match s.jobAt sq with
  | none => s
  | some j =>
    match j.step with
    | none => s
    | some o =>
      if (!o.released && !o.expired) || (o.released && !o.descs.all (fun d => s.recordDone d)) then s
      else
        let worst := if o.released then s.stepStatus o else 0
        let dl := match s.findOp rSCHED sq o.index with
          | some p => p.dl && decide (p.deadline.toNat < s.phase64.toNat)
          | none => false
        let st := if o.expired then stERR_TIMEOUT_WCET else if worst ≠ 0 then worst else if dl then stMISS_DEADLINE
          else if o.qam then stDONE_DEGRADED else stDONE
        let good := !o.expired && worst == 0
        let s := if good then
            o.rows.foldl (fun s x => let e := s.alm x.1; if e.state = 0 then s else s.setAlm x.1 { e with len := e.len + x.2 }) s
          else s
        let res := stepResult (s.stepCycles j o) o.rows.length o.joined o.gone o.preempted o.parked
        let s : State := if o.qam then { s with openQam1 := s.openQam1 - 1 } else { s with openQam0 := s.openQam0 - 1 }
        let depot := s.flag (rk rWATCH 1 0x110) 0
        let s := s.setJob sq (some { j with step := none, lastStep := if good then o.number else j.lastStep, closed := o.number,
                                            suspended := j.r.train && !depot })
        let s := (s.showKvMode.setFlag (kSTAT rSCHED) 16 false).finish rSCHED sq o.index st res
        match s.jobAt sq with
        | some j => s.retireWaiting j
        | none => s

/-- The step watchdog (R354, R365). -/
def effStepWcet (sq : Nat) (s : State) : State :=
  match s.jobAt sq with
  | none => s
  | some j =>
    match j.step with
    | none => s
    | some o =>
      let c := s.stepCycles j o
      let inj := s.injArmed rSCHED 2 && decide (o.topen ≤ c)
      if o.expired = true ∨ (c ≤ o.wstep ∧ inj = false) then s
      else
        let s := if inj then s.injDone rSCHED 2 else s
        let s := s.setJob sq (some { j with step := some { o with expired := true } })
        (s.count rSCHED 2).raise rSCHED 16 { inj := inj, queue := sq, index := o.index }

/-! ### Pre-emption (R355–R361) -/

/-- Does the job hold a semaphore? -/
def State.holdsSem (s : State) (job : Nat) : Bool :=
  s.sched.sems.any (fun e => match e.2 with | some m => m.job == job | none => false)

/-- The Domes on which a job's RUN executes. -/
def State.runDomes (s : State) (r : JobRec) : List Nat :=
  (List.range 8).filter (fun d => bitOf r.domes d && (match (s.dome d).run with | some x => x.queue == r.dq | none => false))

/-- A released descriptor of the job waits on a Dome. -/
def State.waitsOn (s : State) (r : JobRec) (d : Nat) : Bool :=
  bitOf r.domes d && (s.queue d r.dq).ops.any (fun o => !o.started && o.status.isNone)

/-- A released step of higher PRIO wants a Dome on which the job executes. -/
def State.wanted (s : State) (l : JobRec) : Bool :=
  s.jobs.any (fun j => decide (l.prio < j.r.prio) && (match j.step with | some o => o.released | none => false) &&
    (s.runDomes l).any (fun d => s.waitsOn j.r d))

/-- Request the pre-emption of a job, unless it holds a semaphore (R355). -/
def effPreemptRequest (sq : Nat) (s : State) : State :=
  match s.jobAt sq with
  | none => s
  | some j =>
    if j.pre.isSome ∨ j.step.isNone = true ∨ s.holdsSem j.r.job = true ∨ s.wanted j.r = false then s
    else (s.setJob sq (some { j with pre := some { stage := 1, since := s.now } })).count rSCHED 6

/-- Pause a Dome's RUN at its tile boundaries. -/
def State.pauseRun (s : State) (d : Nat) : State :=
  match (s.dome d).run with
  | some r => (s.setRun d (some { r with paused := some s.now })).showRun d
  | none => s

/-- Free credits of a link (R694). -/
def kCREDFREE (l : Nat) : Nat := rk rLNK 1 (0x114 + 0x20 * l)

/-- A Transit queue returns its credits on a link (R360, R694). -/
def State.dropCredits (s : State) (l q : Nat) : State :=
  let k := l * 1024 + q
  let n := Sparse.get (fun _ => 0) s.link.credits k
  let s := s.setFld (kCREDFREE l) 13 0 (Nat.min 8192 (s.fld (kCREDFREE l) 13 0 + n))
  { s with link := { s.link with credits := Sparse.set (fun _ => 0) s.link.credits k 0 } }

/-- The queues of a saved job return their credits; none of its operations is in flight (R356, R360). -/
def State.dropJobCredits (s : State) (r : JobRec) : State :=
  (List.range r.ntq).foldl (fun s k => (s.dropCredits 0 (r.tq + k)).dropCredits 1 (r.tq + k)) s

/-- The job reaches its pre-emption point: its Transit operations have completed and the saves start (R356). -/
def effPreemptPoint (sq : Nat) (s : State) : State :=
  match s.jobAt sq with
  | none => s
  | some j =>
    match j.pre with
    | none => s
    | some p =>
      let tq := (List.range j.r.ntq).all (fun k => (s.queue rTRANSIT (j.r.tq + k)).ops.all (fun o => !o.started || o.status.isSome))
      let lnk := s.queues.any (fun e => e.1 / 4096 == rLNK && e.2.ops.any (fun o => o.started && o.status.isNone && o.job == j.r.job))
      if p.stage ≠ 1 ∨ tq = false ∨ lnk = true then s
      else
        let ds := s.runDomes j.r
        let s := ds.foldl State.pauseRun s
        let step := j.step.map (fun o => { o with preempted := true })
        let stage := if ds.isEmpty then 3 else 2
        let s := s.setJob sq (some { j with step := step, pre := some { stage := stage, since := s.now, from_ := s.now, left := ds } })
        if stage = 3 then (s.dropJobCredits j.r).setFlag (kSTAT rSCHED) 17 true else s

/-- Stage state of a train (R357). -/
def stageState (m : TrainMap) (scan : Sparse ScanSt) : Nat :=
  let halves := (scan.filter (fun e => (m.ent (e.1 / 4) (e.1 % 4)).opcode == 0x2D)).length
  ((List.range 15).filter (fun l => m.used l)).foldl (fun a l =>
    a + (match stageKind l with | 0 => 215040 | 1 => 16384 | 2 => 81920 | 6 => 540672 | _ => 16384)) (4194304 * halves)

/-- Nanoseconds of the save or restore of `live` bytes, rounded up (R357). -/
def saveNs (live : Nat) : Nat := 1600 + ceilDiv live 640

/-- A Dome's save completes (R357). `live` is the Dome's live_bytes: what its RUNs mark live, and the stages' state. -/
def effSaveComplete (sq d live : Nat) (s : State) : State :=
  match s.jobAt sq with
  | none => s
  | some j =>
    match j.pre, (s.dome d).run with
    | some p, some r =>
      if p.stage ≠ 2 ∨ p.left.contains d = false ∨ live < stageState r.map r.scan ∨ j.r.liveMax < live ∨
          s.now < p.since + saveNs live then s
      else
        let x := s.dome d
        let s := (s.setDome d { x with run := none, saved := r :: x.saved }).showRun d
        let area := d * (4096 * ceilDiv j.r.liveMax 4096)
        let s := match s.validObj j.r.saveObj [2, 3] with
          | some o => s.scramble ((List.range (Nat.min live (o.size - area))).map (fun i => s.objKey o (area + i)))
          | none => s
        let left := p.left.filter (fun k => k != d)
        let p := { p with left := left, live := Sparse.set (fun _ => 0) p.live d live, stage := if left.isEmpty then 3 else 2,
                          since := if left.isEmpty then s.now else p.since }
        let s := s.setJob sq (some { j with pre := some p })
        if left.isEmpty then (s.dropJobCredits j.r).setFlag (kSTAT rSCHED) 17 true else s
    | _, _ => s
/-- Does a released descriptor of higher PRIO wait for a Dome of the job, or a Dome still execute (R358)? -/
def State.restoreBlocked (s : State) (l : JobRec) (ds : List Nat) : Bool :=
  s.jobs.any (fun j => decide (l.prio < j.r.prio) && (List.range 8).any (fun d => bitOf l.domes d && s.waitsOn j.r d)) ||
  ds.any (fun d => (s.dome d).run.isSome)

/-- The restore of a saved job starts on all its Domes (R358). -/
def effRestoreStart (sq : Nat) (s : State) : State :=
  match s.jobAt sq with
  | none => s
  | some j =>
    match j.pre with
    | none => s
    | some p =>
      let ds := (List.range 8).filter (fun d => bitOf j.r.domes d && (s.dome d).saved.any (fun x => x.queue == j.r.dq))
      if p.stage ≠ 3 ∨ s.restoreBlocked j.r ds = true then s
      else s.setJob sq (some { j with pre := some { p with stage := 4, since := s.now, left := ds } })

/-- Shift a RUN's times past the time it was pre-empted. -/
def DomeRun.resume (r : DomeRun) (now : Nat) : DomeRun :=
  match r.paused with
  | none => r
  | some t =>
    { r with paused := none, pausedFor := r.pausedFor + (now - t),
             ents := r.ents.map (fun e => { e with doneAt := e.doneAt.map (fun x => if t < x then x + (now - t) else x) }) }

/-- The pre-emption of a job ends: its watchdogs go on and its queues are no longer held. -/
def State.endPreempt (s : State) (sq : Nat) (j : Job) (p : Preempt) : State :=
  let step := j.step.map (fun o => { o with pausedFor := o.pausedFor + (s.now - p.from_) })
  let s := s.setJob sq (some { j with pre := none, step := step })
  s.setFlag (kSTAT rSCHED) 17 (s.jobs.any (fun k => match k.pre with | some q => decide (3 ≤ q.stage) | none => k.suspended))

/-- A Dome's restore completes; with the last one the Transit hold lifts (R357, R358). -/
def effRestoreComplete (sq d : Nat) (s : State) : State :=
  match s.jobAt sq with
  | none => s
  | some j =>
    match j.pre with
    | none => s
    | some p =>
      if p.stage ≠ 4 then s
      else if p.left.isEmpty then s.endPreempt sq j p
      else if p.left.contains d = false ∨ s.now < p.since + saveNs (Sparse.get (fun _ => 0) p.live d) then s
      else
        let x := s.dome d
        match x.saved.find? (fun r => r.queue == j.r.dq) with
        | none => s
        | some r =>
          let s := (s.setDome d { x with run := some (r.resume s.now), saved := x.saved.filter (fun y => y.queue != j.r.dq) }).showRun d
          let p := { p with left := p.left.filter (fun k => k != d) }
          if p.left.isEmpty then s.endPreempt sq j p else s.setJob sq (some { j with pre := some p })

/-! ### Semaphores (R359) -/

def State.sem (s : State) (k : Nat) : Option Sem := Sparse.get (fun _ => none) s.sched.sems k
def State.setSem (s : State) (k : Nat) (m : Option Sem) : State :=
  let s : State := { s with sched := { s.sched with sems := Sparse.set (fun _ => none) s.sched.sems k m } }
  match m with
  | some x => (s.setFld (kSEM k) 15 0 x.job).setFlag (kSEM k) 18 true
  | none => (s.setFld (kSEM k) 15 0 0).setFlag (kSEM k) 18 false

/-- Report an overrun of a hold. -/
def State.semOver (s : State) (job : Nat) (inj : Bool) : State :=
  let e : Ev := { inj := inj, detail := BitVec.ofNat 64 job, always := true }
  (s.count rSCHED 3).raise rSCHED 17 e

/-- A write of SCHED_SEMk. -/
def effSemWrite (k : Nat) (t : Itag) (v : Word) (s : State) : State :=
  let job := fieldOf v 15 0
  let c := fieldOf v 17 16
  if c = 1 then
    let ok := (s.sem k).isNone && (match s.jobBy job with | some j => j.pre.isNone && !j.suspended | none => true)
    if ok then (s.setSem k (some { job := job, since := s.now })).setFlag (kSEM k) 19 false else s.setFlag (kSEM k) 19 true
  else if c = 2 then
    match s.sem k with
    | some m =>
      if m.job ≠ job then s.cfgErr rSCHED t
      else
        let s := s.setSem k none
        let s := if s.injArmed rSCHED 3 then (s.injDone rSCHED 3).semOver job true else s
        match s.jobBy job with
        | some j => effPreemptRequest j.r.sq s
        | none => s
    | none => s.cfgErr rSCHED t
  else s

def effSemOverrun (k : Nat) (s : State) : State :=
  match s.sem k with
  | none => s
  | some m =>
    match s.jobBy m.job with
    | none => s
    | some j =>
      if m.told = true ∨ cyclesIn (s.now - m.since) ≤ j.r.semhold then s
      else (s.setSem k (some { m with told := true })).semOver m.job false

/-! ### Depot mode (R34, R36, R361) -/

/-- WATCH_MODE.DEPOT has changed: training jobs between steps are saved, or restored. -/
def State.depotChanged (s : State) : State :=
  let depot := s.flag (rk rWATCH 1 0x110) 0
  let s := s.jobs.foldl (fun s j => if j.r.train ∧ j.step.isNone then s.setJob j.r.sq (some { j with suspended := !depot }) else s) s
  s.setFlag (kSTAT rSCHED) 17 (s.jobs.any (fun k => match k.pre with | some q => decide (3 ≤ q.stage) | none => k.suspended))

/-! ### Registers of page 2 and 3 -/

/-- SCHED_JSTAT.STATE. -/
def State.jobState (s : State) (j : Job) : Nat :=
  if (s.almOf j.r.job).any (fun x => x.2.fault) then 7
  else if j.suspended then 6
  else match j.pre with
    | some p => if 3 ≤ p.stage then 5 else 4
    | none =>
      match j.step with
      | some o => if o.released then 4 else 3
      | none => if j.cand.isSome then 2 else 1

/-- What the registers that SCHED_JSEL and SCHED_ALMSEL select read; `none` for every other register. -/
def State.schedRead (s : State) (page off : Nat) : Option Word × State :=
  if page = 2 ∧ 0x104 ≤ off ∧ off ≤ 0x118 then
    match s.jobAt (s.fld (rk rSCHED 2 0x100) 5 0) with
    | none => (some 0#32, s)
    | some j =>
      let park := ((s.almOf j.r.job).filter (fun x => x.2.state == 4)).length
      let v := if off = 0x104 then s.jobState j + j.r.prio * 8 + j.r.tenant * 64 + j.rows * 2 ^ 10 + 2 ^ 19 * (park % 512)
        else if off = 0x108 then s.ledger j.r
        else if off = 0x10C then j.jstep
        else if off = 0x110 then j.jwstep
        else if off = 0x114 then j.resp
        else j.jshort
      (some (BitVec.ofNat 32 v), s)
  else if page = 3 ∧ 0x104 ≤ off ∧ off ≤ 0x120 then
    let i := s.fld (rk rSCHED 3 0x100) 11 0
    let s := s.almInject i
    (some ((s.alm i).words.getD ((off - 0x104) / 4) 0#32), s)
  else (none, s)

def execAdmitJob (s : State) : Outcome := .next (effAdmit s)
def execRetire (s : State) : Outcome := .next (effRetire s)
def execSchedNop (q : BitVec 6) (s : State) : Outcome := .next (effNop rSCHED q.toNat s)
def execJoin (s : State) : Outcome := .next (effJoin s)
def execLeave (s : State) : Outcome := .next (effLeave s)
def execStep (sq : BitVec 6) (s : State) : Outcome := .next (effStep sq.toNat s)
def execStepOpen (s : State) : Outcome := .next (effStepOpen s)
def execStepRelease (s : State) : Outcome := .next (effStepRelease s)
def execStepClose (sq : BitVec 6) (s : State) : Outcome := .next (effStepClose sq.toNat s)
def execStepWcetExpiry (sq : BitVec 6) (s : State) : Outcome := .next (effStepWcet sq.toNat s)
def execPreemptRequest (sq : BitVec 6) (s : State) : Outcome := .next (effPreemptRequest sq.toNat s)
def execPreemptPoint (sq : BitVec 6) (s : State) : Outcome := .next (effPreemptPoint sq.toNat s)
def execSaveComplete (sq : BitVec 6) (dome : BitVec 3) (live : Word) (s : State) : Outcome :=
  .next (effSaveComplete sq.toNat dome.toNat live.toNat s)
def execRestoreStart (sq : BitVec 6) (s : State) : Outcome := .next (effRestoreStart sq.toNat s)
def execRestoreComplete (sq : BitVec 6) (dome : BitVec 3) (s : State) : Outcome := .next (effRestoreComplete sq.toNat dome.toNat s)
def execSemOverrun (sem : BitVec 6) (s : State) : Outcome := .next (effSemOverrun sem.toNat s)

end Sys2Proof.Machine
end

