-- ==== Sys2Proof/Machine/Solv.lean ====
section
/-! DEFINITION. The Reduction array (R367–R404): contexts and LOAD, the factorisation and the refinement in binary64, the
timeline of a SOLVE over its lanes, deadlines, watchdog, lane faults and results. -/

namespace Sys2Proof.Machine

/-! ### Binary64 arithmetic (R379) -/

def fp64 : FFmt := { ebits := 11, mbits := 52, bias := 1023, nan := .ieee, canon := 0x7FF8000000000000 }

/-- A value rounded to binary64, nearest even. -/
def round64 (v : Fv) : Fv := fp64.decode (fp64.convert .rne false v).1

/-- A binary64 operation on values, with the NaN flag it raises (R145). -/
def op64 (f : Fv → Fv → Option Fv) (a b : Fv) : Fv × Numf :=
  match f a b with
  | some v => (round64 v, 0)
  | none => (.nan, if a.isNan || b.isNan then nfNanIn else nfNanGen)

def mul64 (a b : Fv) : Fv × Numf := op64 Fv.mul a b
def sub64 (a b : Fv) : Fv × Numf := op64 (fun a b => a.add b.negate) a b

/-- s − Σ a·b over the pairs, in their order. -/
def subDots (s : Fv) (ps : List (Fv × Fv)) : Fv × Numf :=
  ps.foldl (fun acc p =>
    let m := mul64 p.1 p.2
    let d := sub64 acc.1 m.1
    (d.1, acc.2 ||| m.2 ||| d.2)) (s, 0)

/-- Store a binary64 value: rounded once to FP32. -/
def store32 (x : Fv × Numf) : Word × Numf :=
  let r := toF32 x.1
  (r.1, x.2 ||| r.2)

/-- A quotient rounded once to FP32. -/
def quot32 (x : Fv × Numf) (d : Word) : Word × Numf :=
  match divFv x.1 (f32 d) with
  | some (v, sticky) => let r := toF32 v sticky; (r.1, x.2 ||| r.2)
  | none => (canonNan, x.2 ||| if x.1.isNan || isNanW d then nfNanIn else nfNanGen)

/-! ### Contexts -/

/-- E of R368. -/
def packedLen (n w : Nat) : Nat := (w + 1) * n - w * (w + 1) / 2
/-- Store bytes of a context (R368). -/
def ctxBytes (n w : Nat) : Nat := ceilDiv (8 * packedLen n w + 32 * n + 64) 256 * 256
/-- First column of a packed row, and where the row starts. -/
def rowLo (w i : Nat) : Nat := i - w
def rowStart (w i : Nat) : Nat := if i ≤ w then i * (i + 1) / 2 else w * (w + 1) / 2 + (i - w) * (w + 1)
/-- Position of entry (i, j), i ≥ j, in packed order (R369). -/
def packedAt (w i j : Nat) : Nat := rowStart w i + (j - rowLo w i)

def SolvCtx.k (c : SolvCtx) (i j : Nat) : Word := if i ≤ j then c.ks.getD (packedAt c.w j i) 0#32 else c.ks.getD (packedAt c.w i j) 0#32
def lAt (w : Nat) (rows : List (List Word)) (i j : Nat) : Word := (rows.getD i []).getD (j - rowLo w i) 0#32

def solvKey (lane ctx : Nat) : Nat := lane * 8 + ctx
def State.solvCtx (s : State) (key : Nat) : Option SolvCtx := Sparse.get (fun _ => none) s.solv.ctxs key
def State.setSolvCtx (s : State) (key : Nat) (c : Option SolvCtx) : State :=
  { s with solv := { s.solv with ctxs := Sparse.set (fun _ => none) s.solv.ctxs key c } }

/-- Free store bytes of a lane (R404). -/
def State.laneFree (s : State) (lane : Nat) : Nat :=
  98304 - ((List.range 8).filterMap (fun c => s.solvCtx (solvKey lane c))).foldl (fun a c => a + ctxBytes c.n c.w) 0

/-! ### Deltas (R377) -/

/-- Apply one delta entry; `none` where it is skipped. -/
def SolvCtx.delta (c : SolvCtx) (d : Nat) : Option SolvCtx :=
  let i := bitsOf d 6 0
  let j := bitsOf d 13 7
  let v := BitVec.ofNat 32 (d / 2 ^ 32)
  if bitOf d 15 || bitsOf d 31 16 != 0 || decide (c.n ≤ i) then none
  else if bitOf d 14 then some { c with bs := c.bs.set i v }
  else if decide (c.n ≤ j) || decide (i + c.w < j) || decide (j + c.w < i) then none
  else some { c with ks := c.ks.set (if i ≤ j then packedAt c.w j i else packedAt c.w i j) v }

/-- Apply deltas in list order; how many were skipped. -/
def SolvCtx.apply (c : SolvCtx) (ds : List Nat) : SolvCtx × Nat :=
  ds.foldl (fun acc d => match acc.1.delta d with | some c => (c, acc.2) | none => (acc.1, acc.2 + 1)) (c, 0)

/-! ### Factorisation (R379) -/

/-- A factor under construction. -/
structure Factor where
  rows : List (List Word)
  ds : List Word := []
  npert : Nat := 0
  first : Nat := 0xFF
  numf : Numf := 0
  bust : Bool := false
  deriving DecidableEq, Repr

/-- The entries of column j below a pivot; the flag says that every one is finite. -/
def SolvCtx.column (c : SolvCtx) (f : Factor) (j : Nat) (dj : Word) : List Word × Numf × Bool :=
  ((List.range (Nat.min (c.n - 1 - j) c.w)).map (fun o => j + 1 + o)).foldl (fun acc i =>
    let lo := rowLo c.w i
    let ps := (List.range (j - lo)).map (fun o =>
      let k := lo + o
      (mul64 (f32 (lAt c.w f.rows i k)) (f32 (f.ds.getD k 0#32)), f32 (lAt c.w f.rows j k)))
    let nf := ps.foldl (fun a p => a ||| p.1.2) (0 : Numf)
    let s := subDots (f32 (c.k i j)) (ps.map (fun p => (p.1.1, p.2)))
    let q := quot32 (s.1, s.2 ||| nf) dj
    (acc.1 ++ [q.1], acc.2.1 ||| q.2, acc.2.2 && isFin q.1)) ([], 0, true)

/-- Place column j. -/
def Factor.withColumn (f : Factor) (j : Nat) (dj : Word) (col : List Word) (numf : Numf) : Factor :=
  { f with
    rows := (List.range f.rows.length).map (fun i =>
      let r := f.rows.getD i []
      if j < i ∧ i ≤ j + col.length then r ++ [col.getD (i - j - 1) 0#32] else r),
    ds := f.ds ++ [dj], numf := f.numf ||| numf }

/-- One pivot and its column. -/
def SolvCtx.pivot (c : SolvCtx) (zero : Bool) (f : Factor) (j : Nat) : Factor :=
  if f.bust then f
  else
    let lo := rowLo c.w j
    let ps := (List.range (j - lo)).map (fun o =>
      let k := lo + o
      let l := f32 (lAt c.w f.rows j k)
      (mul64 l (f32 (f.ds.getD k 0#32)), l))
    let nf := ps.foldl (fun a p => a ||| p.1.2) (0 : Numf)
    let s := subDots (f32 (c.k j j)) (ps.map (fun p => (p.1.1, p.2)))
    let d := store32 (s.1, s.2 ||| nf)
    let dj := if zero then 0#32 else d.1
    let f := { f with numf := f.numf ||| d.2 }
    let perturbed := fun (f : Factor) =>
      if c.pertEn = false then { f with bust := true }
      else
        let p := if bitOf c.sgn j then fneg c.pert else c.pert
        let f := { f with npert := f.npert + 1, first := if f.npert = 0 then j else f.first }
        let (col, nf, ok) := c.column f j p
        if ok then f.withColumn j p col nf else { f with bust := true, numf := f.numf ||| nf }
    if isFin dj = false then { f with bust := true }
    else if fabs dj = 0#32 ∨ flt (fabs dj) c.pivtol = true then perturbed f
    else
      let (col, nf, ok) := c.column f j dj
      if ok then f.withColumn j dj col nf else perturbed { f with numf := f.numf ||| nf }

/-- K = L D Lᵀ. `zero` takes the first pivot as exactly zero (R403). -/
def SolvCtx.factor (c : SolvCtx) (zero : Bool) : Factor :=
  (List.range c.n).foldl (fun f j => c.pivot (zero && j == 0) f j) { rows := List.replicate c.n [] }

/-! ### Refinement (R382) -/

/-- r = b − K x. -/
def SolvCtx.residual (c : SolvCtx) (x : List Word) : List Word × Numf :=
  (List.range c.n).foldl (fun acc i =>
    let lo := rowLo c.w i
    let js := (List.range (Nat.min (c.n - 1) (i + c.w) + 1 - lo)).map (fun o => lo + o)
    let r := store32 (subDots (f32 (c.bs.getD i 0#32)) (js.map (fun j => (f32 (c.k i j), f32 (x.getD j 0#32)))))
    (acc.1 ++ [r.1], acc.2 ||| r.2)) ([], 0)

/-- Solve L D Lᵀ δ = r: forward, diagonal, backward. -/
def SolvCtx.correction (c : SolvCtx) (r : List Word) : List Word × Numf :=
  let fwd := (List.range c.n).foldl (fun (acc : List Word × Numf) i =>
    let lo := rowLo c.w i
    let ps := (List.range (i - lo)).map (fun o => (f32 (lAt c.w c.ls i (lo + o)), f32 (acc.1.getD (lo + o) 0#32)))
    let y := store32 (subDots (f32 (r.getD i 0#32)) ps)
    (acc.1 ++ [y.1], acc.2 ||| y.2)) ([], 0)
  let mid := (List.range c.n).map (fun i => quot32 (f32 (fwd.1.getD i 0#32), 0) (c.ds.getD i 0#32))
  let nf := mid.foldl (fun a q => a ||| q.2) fwd.2
  (List.range c.n).reverse.foldl (fun (acc : List Word × Numf) i =>
    let ks := (List.range (Nat.min (c.n - 1) (i + c.w) - i)).map (fun o => i + 1 + o)
    let ps := ks.map (fun k => (f32 (lAt c.w c.ls k i), f32 (acc.1.getD (k - i - 1) 0#32)))
    let d := store32 (subDots (f32 (mid.getD i (0#32, 0)).1) ps)
    (d.1 :: acc.1, acc.2 ||| d.2)) ([], nf)

/-- The largest magnitude of a finite vector. -/
def normOf (r : List Word) : Word := r.foldl (fun m v => if m.toNat < (fabs v).toNat then fabs v else m) 0#32

def allFin (xs : List Word) : Bool := xs.all isFin

/-- A completed iterate. -/
structure Iterate where
  x : List Word
  norm : Word
  numf : Numf
  deriving DecidableEq, Repr

/-- The iterates whose residual is finite, first to last, and whether a non-finite value ends the problem after them (R381). -/
structure Refinement where
  its : List Iterate := []
  bust : Bool := false
  numf : Numf := 0
  deriving DecidableEq, Repr

/-- Iterate `x` with its residual, then the corrections that follow, at most `fuel` of them. -/
def SolvCtx.iterate (c : SolvCtx) : Nat → List Word → Numf → List Iterate → Refinement
  | fuel, x, nf, its =>
    let r := c.residual x
    let nf := nf ||| r.2
    if allFin x = false ∨ allFin r.1 = false then { its := its, bust := true, numf := nf }
    else
      let it : Iterate := { x := x, norm := normOf r.1, numf := nf }
      match fuel with
      | 0 => { its := its ++ [it], numf := nf }
      | fuel + 1 =>
        if fle it.norm c.tol = true then { its := its ++ [it], numf := nf }
        else
          let d := c.correction r.1
          let nf := nf ||| d.2
          if allFin d.1 = false then { its := its ++ [it], bust := true, numf := nf }
          else
            let y := (List.range c.n).map (fun i => fadd (x.getD i 0#32) (d.1.getD i 0#32))
            c.iterate fuel (y.map (fun v => v.1)) (y.foldl (fun a v => a ||| v.2) nf) (its ++ [it])

/-! ### Timing (R391) -/

def SolvRun.lanes (r : SolvRun) : List Nat := (r.probs.map (fun p => p.lane)).eraseDups
def SolvRun.share (r : SolvRun) : Nat := Nat.min 16 (1024 / r.lanes.length)
def openCycles (nprob : Nat) : Nat := 400 + ceilDiv nprob 8
def dCycles (deltas b : Nat) : Nat := 240 + ceilDiv (8 * deltas) b
def fCycles (n w npert : Nat) : Nat :=
  12 * n + ceilDiv (Nat.min (n * w * (w + 1) / 2) ((n ^ 3 - n) / 6)) 16 + npert * (12 + ceilDiv (w * w) 16)
def rCycles (n w : Nat) : Nat := 2 * n + ceilDiv (Nat.min (n * (2 * w + 1)) (n * n)) 16
def corrCycles (n w : Nat) : Nat := 6 * n + ceilDiv (Nat.min (n * w) (n * (n - 1) / 2)) 8
def outCycles (n : Nat) : Nat := 120 + ceilDiv n 4
/-- Whole nanoseconds that hold a number of 800 MHz cycles, and the cycle that a time falls in. -/
def solvNs (cyc : Nat) : Nat := ceilDiv (cyc * 5) 4
def solvCyc (ns : Nat) : Nat := ceilDiv (ns * 4) 5

/-! ### One problem (R378–R388) -/

/-- What a problem comes to. -/
structure SolvOut where
  start : Nat
  dEnd : Nat
  fEnd : Nat                   -- end of phase F where it runs, else `dEnd`
  outAt : Nat
  stop_ : Nat
  afterD : SolvCtx
  after : SolvCtx              -- the context after the problem, but for its warm start
  needF : Bool
  x : List Word
  status : Nat
  iter : Nat := 0
  conv : Bool := false
  refact : Bool := false
  skipped : Nat := 0
  retried : Bool := false
  numf : Numf := 0
  used : Bool := false         -- a factor was used
  resid : Word := canonNan
  deriving DecidableEq, Repr

/-- Smallest pivot magnitude of a factor. -/
def dmin (ds : List Word) : Word :=
  (ds.map fabs).foldl (fun m v => if v.toNat < m.toNat then v else m) (fabs (ds.headD 0#32))

/-- Where the arithmetic of a problem begins once the faults of its lane have been answered: each restarts it 1,536 cycles
later (R397, R398). `len` is its natural length; a fault after its end or after the deadline does not touch it. -/
def restartAt (t0 dEnd len : Nat) (cut : Option Nat) : List Nat → Nat → Nat × Bool
  | [], base => (base, false)
  | f :: rest, base =>
    let stop := match cut with | some c => Nat.min c (base + len) | none => base + len
    if t0 ≤ f ∧ f < stop then ((restartAt t0 dEnd len cut rest (Nat.max f dEnd + 1536)).1, true)
    else restartAt t0 dEnd len cut rest base

/-- A problem that starts at cycle `t0`. -/
def SolvRun.problem (r : SolvRun) (c : SolvCtx) (i : Nat) (p : SolvProb) (t0 : Nat) : SolvOut :=
  let t1 := if r.slow = some p.lane then t0 + 2 else t0
  let dEnd := t1 + dCycles p.deltas.length r.share
  let (c1, skipped) := c.apply p.deltas
  let needF := p.force || c.stale || c1.ks != c.ks
  if (match r.cut with | some k => decide (k ≤ t0) | none => false) then
    { start := t0, dEnd := dEnd, fEnd := dEnd, outAt := dEnd, stop_ := 1, afterD := c1, after := c1, needF := false, x := c.xs,
      status := stMISS_DEADLINE, skipped := skipped }
  else
    let f := c1.factor (r.pivot == some i)
    let c2 := if needF = false then c1
      else if f.bust then { c1 with stale := true }
      else { c1 with stale := false, ls := f.rows, ds := f.ds, npert := f.npert, firstPert := f.first }
    let fLen := if needF then fCycles c.n c.w f.npert else 0
    let rf := if needF && f.bust then ({ bust := true, numf := f.numf } : Refinement)
      else c2.iterate c.itmax c.xs (if needF then f.numf else 0) []
    let it := corrCycles c.n c.w + rCycles c.n c.w
    let len := fLen + (if needF && f.bust then 0
      else rCycles c.n c.w + (if rf.bust then rf.its.length else rf.its.length - 1) * it)
    let faults := r.faults.filterMap (fun x => if x.1 = p.lane then some x.2 else none)
    let (base, retried) := restartAt t0 dEnd len r.cut faults dEnd
    let fEnd := base + fLen
    let out : SolvOut :=
      { start := t0, dEnd := dEnd, fEnd := fEnd, outAt := base + len, stop_ := 0, afterD := c1, after := c2, needF := needF, x := c.xs,
        status := stDONE, skipped := skipped, retried := retried, refact := needF, used := true }
    let natural := r.cut.all (fun k => decide (base + len ≤ k))
    if natural then
      match rf.its.getLast? with
      | some l =>
        let conv := fle l.norm c.tol
        { out with after := if rf.bust then { c2 with stale := true } else c2, x := l.x, iter := rf.its.length - 1, conv := conv,
                   numf := rf.numf, resid := l.norm,
                   status := if rf.bust then stNUM_OVERFLOW else if 0 < c2.npert then stNUM_PIVOT
                     else if 0 < skipped then stDONE_DEGRADED else stDONE }
      | none =>
        { out with after := { c2 with stale := true }, numf := rf.numf, status := stNUM_OVERFLOW,
                   refact := needF && !f.bust, used := !(needF && f.bust) }
    else
      let k := r.cut.getD 0
      if needF && decide (k < fEnd) then
        { out with outAt := Nat.max dEnd k, stop_ := 2, after := { c1 with stale := true }, status := stDONE_PREV, refact := false,
                   used := false }
      else
        let at_ := Nat.max dEnd k
        let done := rf.its.take (if k < fEnd + rCycles c.n c.w then 0 else (k - fEnd - rCycles c.n c.w) / it + 1)
        match done.getLast? with
        | some l => { out with outAt := at_, stop_ := 3, x := l.x, iter := done.length - 1, numf := l.numf, resid := l.norm,
                               status := stDONE_PREV }
        | none => { out with outAt := at_, stop_ := 3, numf := if needF then f.numf else 0, status := stDONE_PREV }

def SolvOut.finish (o : SolvOut) : Nat := o.outAt + outCycles o.afterD.n

/-- The problems of every lane, in record order, each with its outcome (R378); contexts are looked up in the state. -/
def State.solvRunAll (s : State) (r : SolvRun) : List (Nat × SolvProb × SolvOut) :=
  let ps := (List.range r.probs.length).zip r.probs
  (ps.foldl (fun (acc : List (Nat × SolvProb × SolvOut) × Sparse Nat) x =>
    match s.solvCtx (solvKey x.2.lane x.2.ctx) with
    | none => acc
    | some c =>
      let t := Sparse.get (fun _ => openCycles r.probs.length) acc.2 x.2.lane
      let o := r.problem c x.1 x.2 t
      (acc.1 ++ [(x.1, x.2, o)], Sparse.insert acc.2 x.2.lane o.finish)) ([], [])).1

/-- The cycle at which the slowest lane finishes (R391). -/
def solvTotal (r : SolvRun) (os : List (Nat × SolvProb × SolvOut)) : Nat :=
  os.foldl (fun m x => Nat.max m x.2.2.finish) (openCycles r.probs.length)

/-- The cycle at which a SOLVE is given up, with its status: a failed read, or the watchdog (R393, R400). -/
def SolvRun.abortAt (r : SolvRun) (os : List (Nat × SolvProb × SolvOut)) : Option (Nat × Nat) :=
  let fails := os.filterMap (fun x => x.2.1.fail.map (fun st => (x.2.2.start, st)))
  let first := fails.foldl (fun (m : Option (Nat × Nat)) f => match m with
    | some g => if f.1 < g.1 then some f else m
    | none => some f) none
  let limit := if r.injWcet then some (openCycles r.probs.length) else if r.wcet = 0 then none else some r.wcet
  let total := match first with | some f => f.1 | none => solvTotal r os
  match limit with
  | some l => if l < total then some (l, stERR_TIMEOUT_WCET) else first
  | none => first

/-! ### Committing what has been done -/

/-- The context of a problem when its SOLVE stopped at cycle `a` (R383): how far its deltas came inside phase D is not
stated. -/
def State.solvPartial (s : State) (key : Nat) (c : SolvCtx) (p : SolvProb) (o : SolvOut) (a : Nat) : State :=
  if a ≤ o.start then s
  else if a < o.dEnd then
    let (n, s) := s.draw
    s.setSolvCtx key (some (c.apply (p.deltas.take ((Config.freeWord n).toNat % (p.deltas.length + 1)))).1)
  else if o.needF && decide (a < o.fEnd) then s.setSolvCtx key (some { o.afterD with stale := true })
  else s.setSolvCtx key (some o.after)

def SolvOut.record (o : SolvOut) (refprev : Bool) (i lane dminW : Nat) : List Byte :=
  let b := fun (x : Bool) (k : Nat) => if x then 2 ^ k else 0
  leBytes 4 (o.status + o.iter * 2 ^ 8 + 2 ^ 12 * o.stop_ + b o.conv 14 + b o.refact 15 + b refprev 16 + b (0 < o.skipped) 17 +
    b o.retried 18 + 2 ^ 19 * o.numf.toNat) ++
  leBytes 4 (if o.used then Nat.min o.after.npert 0xFF + o.after.firstPert * 2 ^ 8 else 0xFF00) ++
  leBytes 4 o.resid.toNat ++ leBytes 4 dminW ++ leBytes 4 (o.finish - o.start) ++ leBytes 4 (i + 2 ^ 16 * lane) ++ leBytes 8 0

/-- `n` bytes whose values the spec leaves unspecified. -/
def State.freeBytes : Nat → State → List Byte × State
  | 0, s => ([], s)
  | n + 1, s =>
    let (i, s) := s.draw
    let (bs, s) := State.freeBytes n s
    (Config.freeByte i :: bs, s)

/-- Write the solution and the record of a finished problem; under `lost` with unspecified values (R393). -/
def State.solvWrite (s : State) (r : SolvRun) (lost : Bool) (x : Nat × SolvProb × SolvOut) : Tx Unit × State :=
  let viol := some (rSOLV, r.queue, r.index)
  let o := x.2.2
  let sol := bytesOf o.x
  let (dm, s) := if o.used then ((dmin o.after.ds).toNat, s)
    else let (n, s) := s.draw; ((Config.freeWord n).toNat, s)
  let rec_ := o.record r.refprev x.1 x.2.1.lane dm
  let (sol, s) := if lost then State.freeBytes sol.length s else (sol, s)
  let (rec_, s) := if lost then State.freeBytes rec_.length s else (rec_, s)
  match s.txWrite (some 0x48) x.2.1.xout sol viol with
  | (.ok _, s) => s.txWrite (some 0x48) x.2.1.rrec rec_ viol
  | e => e

def State.solvWrites (r : SolvRun) (lost : Bool) : List (Nat × SolvProb × SolvOut) → State → Tx Unit × State
  | [], s => (.ok (), s)
  | x :: rest, s =>
    match s.solvWrite r lost x with
    | (.ok _, s) => State.solvWrites r lost rest s
    | e => e

/-- Keep the warm start that a problem earned (R383). -/
def keepsWarm (st : Nat) : Bool := st == stDONE || st == stDONE_DEGRADED || st == stNUM_PIVOT || st == stDONE_PREV

/-- The SOLVE's own status (R390). -/
def solvStatus (sts : List Nat) : Nat :=
  ([stMISS_DEADLINE, stNUM_OVERFLOW, stDONE_PREV, stNUM_PIVOT, stDONE_DEGRADED].find? (fun x => sts.contains x)).getD stDONE

def solvResult (refprev : Bool) (os : List SolvOut) : DWord :=
  let cnt := fun (f : Nat → Bool) => (os.filter (fun o => f o.status)).length
  let numf := os.foldl (fun a o => a ||| o.numf) (0 : Numf)
  BitVec.ofNat 64 (cnt (· == stDONE) + cnt (fun x => x == stDONE_PREV || x == stMISS_DEADLINE) * 2 ^ 11 +
    (numf.toNat + cnt (fun x => x == stNUM_PIVOT || x == stNUM_OVERFLOW) * 2 ^ 6 + (if refprev then 2 ^ 17 else 0)) * 2 ^ 32)

def kSOLVCYC : Nat := rk rSOLV 2 0x19C

/-- Give up a SOLVE at cycle `a` with a stopping status: what the lanes had done by then stands. -/
def State.solvGiveUp (s : State) (r : SolvRun) (a st : Nat) : State :=
  let os := s.solvRunAll r
  let done := os.filter (fun x => decide (x.2.2.finish ≤ a))
  let (_, s) := State.solvWrites r (st == stERR_TIMEOUT_WCET) done s
  let s := os.foldl (fun (s : State) x =>
    let key := solvKey x.2.1.lane x.2.1.ctx
    match s.solvCtx key with
    | some c => if c.lost then s else s.solvPartial key c x.2.1 x.2.2 a
    | none => s) s
  let s := if st = stERR_TIMEOUT_WCET then (s.count rSOLV 6).raise rSOLV 18 { inj := r.injWcet, queue := r.queue, index := r.index } else s
  let s : State := { s with solv := { s.solv with run := none } }
  let skipped := done.foldl (fun a x => a + x.2.2.skipped) 0
  let s := (((s.wr kSOLVCYC (BitVec.ofNat 32 a)).addSat (rk rSOLV 2 0x198) 31 0 skipped).setFlag (kSTAT rSOLV) 16 false)
  let s := s.mapOp rSOLV r.queue r.index (fun o => { o with outcome := none, retried := done.any (fun x => x.2.2.retried) || o.retried })
  s.finish rSOLV r.queue r.index st

/-- A SOLVE whose lanes have all finished: solutions, records, contexts, warm starts and counters (R383, R387–R390, R402). -/
def State.solvCommit (s : State) (r : SolvRun) : State :=
  let os := s.solvRunAll r
  let total := solvTotal r os
  match State.solvWrites r false os s with
  | (.ok _, s) =>
    let s := os.foldl (fun (s : State) x =>
      let c := x.2.2.after
      s.setSolvCtx (solvKey x.2.1.lane x.2.1.ctx) (some (if keepsWarm x.2.2.status then { c with xs := x.2.2.x } else c))) s
    let outs := os.map (fun x => x.2.2)
    let cuts := (outs.filter (fun o => o.stop_ != 0)).length
    let s := s.addSat (kTCC rSOLV) 31 0 cuts
    let s := (s.count rSOLV 4 (outs.filter (fun o => o.status == stNUM_PIVOT)).length).count rSOLV 5
      (outs.filter (fun o => o.status == stNUM_OVERFLOW)).length
    let s := s.addSat (rk rSOLV 2 0x198) 31 0 (outs.foldl (fun a o => a + o.skipped) 0)
    let s : State := { s with solv := { s.solv with run := none } }
    let s := (s.wr kSOLVCYC (BitVec.ofNat 32 total)).setFlag (kSTAT rSOLV) 16 false
    let s := s.mapOp rSOLV r.queue r.index (fun o => { o with outcome := none })
    s.finish rSOLV r.queue r.index (solvStatus (outs.map (fun o => o.status))) (solvResult r.refprev outs)
      (r.refprev || decide (0 < cuts)) (outs.any (fun o => o.retried))
  | (tx, s) =>
    let s := os.foldl (fun (s : State) x => s.setSolvCtx (solvKey x.2.1.lane x.2.1.ctx) (some x.2.2.after)) s
    let s : State := { s with solv := { s.solv with run := none } }
    let s := (s.wr kSOLVCYC (BitVec.ofNat 32 total)).setFlag (kSTAT rSOLV) 16 false
    let s := s.mapOp rSOLV r.queue r.index (fun o => { o with outcome := none })
    (s.finish rSOLV r.queue r.index tx.status).flushItag 0x48

def State.setSolvRun (s : State) (r : SolvRun) : State := { s with solv := { s.solv with run := some r } }

/-- Has phase `p` been reached (R40)? -/
def State.reached (s : State) (p : DWord) : Bool := decide ((s.phase64 - p).toNat < 2 ^ 63)

/-- The deadline of the SOLVE in execution cuts its lanes from the cycle of its match time on (R385). -/
def State.solvCut (s : State) : State :=
  match s.solv.run with
  | none => s
  | some r =>
    match s.findOp rSOLV r.queue r.index with
    | none => s
    | some o =>
      if o.dl = false ∨ r.cut.isSome = true ∨ s.reached o.deadline = false then s
      else
        let past := (s.phase - (o.deadline.setWidth 96 <<< 32)).toNat
        let ago := if s.incr = 0 then 0 else past / s.incr
        s.setSolvRun { r with cut := some (solvCyc (s.now - r.start - ago)) }

/-- When the SOLVE in execution ends: with its slowest lane, or when it is given up. -/
def State.solvDue (s : State) : State :=
  match s.solv.run with
  | none => s
  | some r =>
    let os := s.solvRunAll r
    let cyc := match r.abortAt os with | some a => a.1 | none => solvTotal r os
    s.mapOp rSOLV r.queue r.index (fun o => { o with readyAt := r.start + solvNs cyc })

/-- OPERATION_COMPLETE of a SOLVE. -/
def State.solveComplete (s : State) : State :=
  match s.solv.run with
  | none => s
  | some r =>
    match r.abortAt (s.solvRunAll r) with
    | some (a, st) => s.solvGiveUp r a st
    | none => s.solvCommit r

/-! ### LOAD and FREE (R370–R373) -/

def finiteNonneg (w : Word) : Bool := isFin w && (!flagOf w 31 || fabs w == 0#32)

/-- A context image's header. -/
def solvHeader (ws : List Word) : Option SolvCtx :=
  let a := ws.getD 0 0#32
  let nm1 := fieldOf a 6 0
  let w := fieldOf a 14 8
  let itmax := fieldOf a 19 16
  let pert := ws.getD 2 0#32
  if flagOf a 7 || fieldOf a 31 20 != 0 || decide (nm1 < w) || itmax == 0 || !finiteNonneg (ws.getD 1 0#32) ||
      decide (pert.toNat < 0x00800000) || decide (0x7F800000 ≤ pert.toNat) || !finiteNonneg (ws.getD 3 0#32) ||
      ((ws.drop 8).take 8).any (fun w => w != 0#32) then none
  else
    some { n := nm1 + 1, w := w, itmax := itmax, pertEn := flagOf a 15, pivtol := ws.getD 1 0#32, pert := pert,
           tol := ws.getD 3 0#32, sgn := leNat (bytesOf ((ws.drop 4).take 4)), ks := [], bs := [], xs := [] }

/-- Is a descriptor executing on the array (R392)? -/
def State.solvBusy (s : State) : Bool := s.inFlight rSOLV

/-- The next descriptor of a queue, when the array is free to start it (R392, R395). -/
def State.solvNext (s : State) (q opcode : Nat) : Option Op :=
  if s.solvBusy ∨ s.pick rSOLV ≠ some q then none
  else
    match s.nextOp rSOLV q with
    | some o => if o.opcode ≠ opcode ∨ s.queues.any (fun e => e.1 / 4096 == rSOLV && e.2.ops.any (fun p =>
        !p.words.isEmpty && p.job == o.job && decide (p.step < o.step) && p.status.isNone)) = true then none else some o
    | none => none

/-- Count and mark a relaxed choice (R392). -/
def State.solvStart (s : State) (q : Nat) (o : Op) : State :=
  let tcc := s.relaxedChoice rSOLV q
  let s := if tcc then s.countTcc rSOLV else s
  (s.start rSOLV q o).mapOp rSOLV q o.index (fun o => { o with tcc := tcc })

def effSolvLoad (q : Nat) (s : State) : State :=
  match s.solvNext q 1 with
  | none => s
  | some o =>
    let s := s.solvStart q o
    let lane := o.fld 0x10 7 0
    let key := solvKey lane (o.fld 0x10 10 8)
    let a := o.addr 0x18
    let tenant := (s.queue rSOLV q).tenant
    let foreign := match s.solvCtx key with | some c => c.tenant != tenant | none => false
    let viol := some (rSOLV, q, o.index)
    if a % 64 ≠ 0 ∨ o.fld 0x10 31 11 ≠ 0 ∨ o.word 5 ≠ 0#32 ∨ (o.words.drop 8).any (fun w => w != 0#32) = true ∨ foreign = true then
      s.conclude rSOLV q o.index stREJ_FORMAT
    else
      match s.txRead (some 0x48) a 64 viol with
      | (.ok h, s) =>
        match solvHeader (wordsOf h) with
        | none => s.conclude rSOLV q o.index stREJ_FORMAT
        | some c =>
          let e := packedLen c.n c.w
          let len := 4 * (e + 2 * c.n)
          match s.txRead (some 0x48) (a + 64) len viol with
          | (.ok bs, s) =>
            let ws := wordsOf bs
            let c := { c with tenant := tenant, ks := ws.take e, bs := (ws.drop e).take c.n, xs := ws.drop (e + c.n) }
            let old := match s.solvCtx key with | some x => ctxBytes x.n x.w | none => 0
            let after := solvNs (240 + ceilDiv (ceilDiv (64 + len) 64 * 64) 16)
            if allFin ws = false then s.conclude rSOLV q o.index stREJ_FORMAT 0 after
            else if solvSpares.avail s lane = false then s.conclude rSOLV q o.index stREJ_LIMIT 0 after
            else if s.laneFree lane + old < ctxBytes c.n c.w then s.conclude rSOLV q o.index stREJ_CAPACITY 0 after
            else (s.setSolvCtx key (some c)).conclude rSOLV q o.index stDONE 0 after
          | (.firewall, s) => s.flushItag 0x48
          | (tx, s) => s.conclude rSOLV q o.index tx.status
      | (.firewall, s) => s.flushItag 0x48
      | (tx, s) => s.conclude rSOLV q o.index tx.status

def effSolvFree (q : Nat) (s : State) : State :=
  match s.solvNext q 2 with
  | none => s
  | some o =>
    let s := s.solvStart q o
    let key := solvKey (o.fld 0x10 7 0) (o.fld 0x10 10 8)
    let foreign := match s.solvCtx key with | some c => c.tenant != (s.queue rSOLV q).tenant | none => false
    if o.fld 0x10 31 11 ≠ 0 ∨ (o.words.drop 5).any (fun w => w != 0#32) = true ∨ foreign = true then
      s.conclude rSOLV q o.index stREJ_FORMAT
    else (s.setSolvCtx key none).conclude rSOLV q o.index stDONE

/-! ### SOLVE -/

def probsOf : Nat → List Byte → List SolvProb
  | 0, _ => []
  | n + 1, bs =>
    let w := fun (o : Nat) => leNat ((bs.drop o).take 4)
    { lane := bitsOf (w 0) 7 0, ctx := bitsOf (w 0) 10 8, force := bitOf (w 0) 11, ndelta := bitsOf (w 4) 15 0,
      nref := bitsOf (w 4) 31 16, dlist := leNat ((bs.drop 8).take 8), xout := leNat ((bs.drop 16).take 8),
      rrec := leNat ((bs.drop 24).take 8), reservedSet := bitsOf (w 0) 31 12 != 0 } :: probsOf n (bs.drop 32)

def distinct : List Nat → Bool
  | [] => true
  | x :: rest => !rest.contains x && distinct rest

/-- The form checks of R376. -/
def State.solveForm (s : State) (o : Op) (ps : List SolvProb) (tenant : Nat) : Bool :=
  ps.all (fun p => !p.reservedSet && p.dlist % 8 == 0 && p.xout % 64 == 0 && p.rrec % 32 == 0 &&
    (match s.solvCtx (solvKey p.lane p.ctx) with | some c => !c.lost && c.tenant == tenant | none => false)) &&
  distinct (ps.map (fun p => solvKey p.lane p.ctx)) &&
  (!s.isDet o.job || (s.jobBy (o.fld 0x1C 15 0)).isSome)

def solveWordsOk (o : Op) : Bool :=
  o.addr 0x10 % 32 == 0 && o.fld 0x18 31 10 == 0 && o.fld 0x1C 31 17 == 0 && (o.words.drop 10).all (fun w => w == 0#32)

/-- Has the step that supplies the reference closed (R384)? -/
def State.refClosed (s : State) (o : Op) : Bool :=
  match s.jobBy (o.fld 0x1C 15 0) with
  | some j => decide (1 ≤ (o.word 8).toNat) && decide ((o.word 8).toNat ≤ j.closed)
  | none => false

/-- Does a deterministic job's SOLVE still wait for its reference? -/
def State.solveWaits (s : State) (o : Op) : Bool :=
  s.isDet o.job && flagOf (o.word 7) 16 && (s.jobBy (o.fld 0x1C 15 0)).isSome && !s.refClosed o

/-- Read the delta lists in record order; the first read that fails stops the reading. -/
def State.readDeltas (useRef : Bool) (viol : Nat × Nat × Nat) : List SolvProb → State → List SolvProb × Bool × State
  | [], s => ([], false, s)
  | p :: rest, s =>
    let n := p.ndelta + if useRef then p.nref else 0
    let r := if n = 0 then (Tx.ok [], s) else s.txRead (some 0x48) p.dlist (8 * n) (some viol)
    match r with
    | (.ok bs, s) =>
      let (ps, fw, s) := State.readDeltas useRef viol rest s
      ({ p with deltas := dwordsOf n bs } :: ps, fw, s)
    | (.firewall, s) => ({ p with fail := some stERR_FIREWALL } :: rest, true, s)
    | (.error, s) => ({ p with fail := some stERR_DATA } :: rest, false, s)
    | (.uncorrectable, s) => ({ p with fail := some stERR_DATA } :: rest, false, s.count rSOLV 1)

/-- The lane that SOLV's injections act on. -/
def State.laneSel (s : State) : Nat := s.fld (kEINJ rSOLV) 12 5

/-- Injected store errors met by the first problem of the selected lane (R400, R403). -/
def State.solvStoreInj (s : State) (r : SolvRun) : SolvRun × State :=
  match r.probs.find? (fun p => p.lane == s.laneSel) with
  | none => (r, s)
  | some p =>
    let (r, s) := if s.injArmed rSOLV 0 then
        ({ r with slow := some p.lane }, ((s.injDone rSOLV 0).count rSOLV 0).raise rSOLV 1 { inj := true })
      else (r, s)
    if s.injArmed rSOLV 1 then
      let key := solvKey p.lane p.ctx
      let s := ((s.injDone rSOLV 1).count rSOLV 1).raise rSOLV 20 { inj := true, index := p.lane }
      let s := match s.solvCtx key with | some c => s.setSolvCtx key (some { c with lost := true }) | none => s
      ({ r with probs := r.probs.map (fun x => if x.lane = p.lane ∧ x.ctx = p.ctx then { x with fail := some stERR_DATA } else x) }, s)
    else (r, s)

/-- A lane's arithmetic has mismatched at cycle `cyc` of the SOLVE in execution, if any (R398, R399). -/
def State.laneFault (s : State) (lane cyc : Nat) (inj : Bool) : State :=
  let s := (s.count rSOLV 2).raise rSOLV 16 { inj := inj, index := lane }
  let (ok, s) := if s.flag (kCTRL rSOLV) 17 then solvSpares.fault s lane
    else
      let s := solvSpares.setAvail (solvSpares.setSt s (solvSpares.phys s lane) 2) lane false
      (false, ((s.setFlag (kSTAT rSOLV) 2 true).raise rSOLV 17 { index := lane }).postCause 8 false)
  match s.solv.run with
  | none => s
  | some r =>
    let os := s.solvRunAll r
    match os.find? (fun x => x.2.1.lane == lane && decide (x.2.2.start ≤ cyc) && decide (cyc < x.2.2.outAt)) with
    | none => s
    | some _ =>
      if ok then
        ((s.setSolvRun { r with faults := r.faults ++ [(lane, cyc)] }).count rSOLV 3).solvDue
      else s.solvGiveUp r cyc stERR_DATA

/-- A SOLVE starts (R376, R384). -/
def State.solveStart (s : State) (q : Nat) (o : Op) : State :=
  let s := s.solvStart q o
  let n := o.fld 0x18 9 0 + 1
  let viol := (rSOLV, q, o.index)
  let tenant := (s.queue rSOLV q).tenant
  if solveWordsOk o = false then s.conclude rSOLV q o.index stREJ_FORMAT
  else
    match s.txRead (some 0x48) (o.addr 0x10) (32 * n) (some viol) with
    | (.ok bs, s) =>
      let ps := probsOf n bs
      if s.solveForm o ps tenant = false then s.conclude rSOLV q o.index stREJ_FORMAT
      else if ps.any (fun p => decide (16384 < p.ndelta) || decide (16384 < p.nref) || !solvSpares.avail s p.lane) then
        s.conclude rSOLV q o.index stREJ_LIMIT
      else
        let refEn := flagOf (o.word 7) 16
        let have_ := s.refClosed o
        let refprev := refEn && !have_
        let s := if refprev then s.countTcc rSOLV else s
        let (ps, fw, s) := State.readDeltas (refEn && have_) viol ps s
        let inj := s.injArmed rSOLV 4
        let s := if inj then s.injDone rSOLV 4 else s
        let r : SolvRun := { queue := q, index := o.index, tenant := tenant, start := s.now, refprev := refprev,
                             wcet := (o.word 9).toNat, injWcet := inj, probs := ps }
        let (r, s) := s.solvStoreInj r
        let os := s.solvRunAll r
        let (r, s) := if s.injArmed rSOLV 3 then
            match os.find? (fun x => x.2.1.lane == s.laneSel && x.2.2.needF) with
            | some x => ({ r with pivot := some x.1 }, s.injDone rSOLV 3)
            | none => (r, s)
          else (r, s)
        let s := (s.setSolvRun r).setFlag (kSTAT rSOLV) 16 true
        if fw then
          let st := match r.abortAt (s.solvRunAll r) with | some a => a | none => (0, stERR_FIREWALL)
          (s.solvGiveUp r st.1 stERR_FIREWALL).flushItag 0x48
        else
          let s := ((s.conclude rSOLV q o.index stDONE).solvCut).solvDue
          if s.injArmed rSOLV 2 then
            match os.find? (fun x => x.2.1.lane == s.laneSel && decide (x.2.2.dEnd < x.2.2.outAt)) with
            | some x => (s.injDone rSOLV 2).laneFault x.2.1.lane x.2.2.dEnd true
            | none => s
          else s
    | (.firewall, s) => s.flushItag 0x48
    | (tx, s) => s.conclude rSOLV q o.index tx.status

def effSolve (q : Nat) (s : State) : State :=
  match s.solvNext q 0x10 with
  | none => s
  | some o => if s.solveWaits o then s else s.solveStart q o

/-- A deterministic job's reference step has closed, and its SOLVE starts (R384). -/
def effSolveRefReady (q : Nat) (s : State) : State :=
  match s.solvNext q 0x10 with
  | none => s
  | some o => if s.isDet o.job && flagOf (o.word 7) 16 && s.refClosed o then s.solveStart q o else s

/-- The deadline is reached (R385, R386). -/
def effSolveDeadline (s : State) : State := s.solvCut.solvDue

/-- The watchdog expires once the SOLVE's cycles exceed WCET_CYC (R393). -/
def effSolveWcet (s : State) : State :=
  let s := s.solvCut
  match s.solv.run with
  | none => s
  | some r =>
    match r.abortAt (s.solvRunAll r) with
    | some (a, st) => if st = stERR_TIMEOUT_WCET ∧ a < solvCyc (s.now - r.start) then s.solvGiveUp r a st else s
    | none => s

/-- A residue mismatch in a logical lane (R398). -/
def effLaneFault (lane : Nat) (s : State) : State :=
  let s := s.solvCut
  let cyc := match s.solv.run with | some r => solvCyc (s.now - r.start) | none => 0
  s.laneFault lane cyc false

/-- What CTXSTAT, LFREE and RUNCYC show (R404). -/
def State.solvRead (s : State) (page off : Nat) : Option Word :=
  let lane := s.fld (rk rSOLV 2 0x18C) 7 0
  if page ≠ 2 then none
  else if off = 0x190 then
    some (match s.solvCtx (solvKey lane (s.fld (rk rSOLV 2 0x18C) 10 8)) with
      | none => 0#32
      | some c => BitVec.ofNat 32 ((if c.lost then 2 else 1) + (if c.stale then 4 else 0) + (c.n - 1) * 2 ^ 3 + c.w * 2 ^ 10 +
          2 ^ 17 * Nat.min c.npert 0xFF + 2 ^ 25 * c.tenant))
  else if off = 0x194 then some (BitVec.ofNat 32 (s.laneFree lane))
  else if off = 0x19C then
    match s.solv.run with
    | some r => some (BitVec.ofNat 32 (solvCyc (s.now - r.start)))
    | none => none
  else none

/-- A SOLVE whose operation a freeze has discarded is gone (R535). -/
def State.dropDeadSolve (s : State) : State :=
  match s.solv.run with
  | none => s
  | some r =>
    match s.findOp rSOLV r.queue r.index with
    | some o => if o.status.isSome then s.solvGiveUp r 0 stERR_FROZEN else s
    | none => ({ s with solv := { s.solv with run := none } } : State).setFlag (kSTAT rSOLV) 16 false

def execSolvLoad (q : BitVec 6) (s : State) : Outcome := .next (effSolvLoad q.toNat s)
def execSolvFree (q : BitVec 6) (s : State) : Outcome := .next (effSolvFree q.toNat s)
def execSolvNop (q : BitVec 6) (s : State) : Outcome := .next (effNop rSOLV q.toNat s)
def execSolve (q : BitVec 6) (s : State) : Outcome := .next (effSolve q.toNat s)
def execSolveRefReady (q : BitVec 6) (s : State) : Outcome := .next (effSolveRefReady q.toNat s)
def execSolveDeadline (s : State) : Outcome := .next (effSolveDeadline s)
def execSolveWcetExpiry (s : State) : Outcome := .next (effSolveWcet s)
def execLaneFault (lane : BitVec 8) (s : State) : Outcome := .next (effLaneFault lane.toNat s)

end Sys2Proof.Machine
end

