-- ==== Sys2Proof/Machine/Drive.lean ====
section
/-! DEFINITION. The Clock Drive (R474–R507): loop descriptors, samples, outputs, plan and fall-back roles, the switch-over,
FLY, the Logbook and drive-core faults. -/

namespace Sys2Proof.Machine

/-! ### Its SRAM -/

def dKey (off : Nat) : Nat := 0x00C0000000 + off

/-- Read own SRAM; `none` where a word is uncorrectable. -/
def State.sramRead (s : State) (off n : Nat) : Option (List Byte) :=
  (List.range n).foldr (fun i acc => match s.readKey (dKey (off + i)), acc with | some b, some r => some (b :: r) | _, _ => none)
    (some [])

/-- Write own SRAM: whole words clear an earlier uncorrectable error (R528). -/
def State.sramWrite (s : State) (off : Nat) (bs : List Byte) : State :=
  let s := s.heal ((List.range bs.length).map (fun i => dKey (off + i)))
  (writeRun (fun s i b => s.writeKey (dKey (off + i)) b) s 0 bs).1

def State.sramWords (s : State) (off n : Nat) : Option (List Word) := (s.sramRead off (4 * n)).map wordsOf

/-- A read that meets an uncorrectable word counts (R504). -/
def State.sramUe (s : State) : State := (s.count rDRIVE 1).raise rDRIVE 2

def descOff (l : Nat) : Nat := 0x8000 * l
def stateOff (l : Nat) : Nat := 0x270000 + l * 0x200

/-! ### Loop descriptors (R477, R478) -/

/-- A loop descriptor: its words. -/
structure LoopDesc where
  ws : List Word

def LoopDesc.w (d : LoopDesc) (off : Nat) : Word := d.ws.getD (off / 4) 0#32
def LoopDesc.f (d : LoopDesc) (off hi lo : Nat) : Nat := fieldOf (d.w off) hi lo
def LoopDesc.nx (d : LoopDesc) : Nat := d.f 0 4 0
def LoopDesc.nu (d : LoopDesc) : Nat := d.f 0 8 5
def LoopDesc.ny (d : LoopDesc) : Nat := d.f 0 13 9
def LoopDesc.ni (d : LoopDesc) : Nat := d.f 0 17 14
def LoopDesc.nr (d : LoopDesc) : Nat := d.f 0 21 18
def LoopDesc.form (d : LoopDesc) : Bool := flagOf (d.w 0) 22
def LoopDesc.clampdir (d : LoopDesc) : Bool := flagOf (d.w 0) 23
def LoopDesc.refsrc (d : LoopDesc) : Nat := d.f 0 25 24
def LoopDesc.core (d : LoopDesc) : Nat := d.f 4 1 0
def LoopDesc.outdiv (d : LoopDesc) : Nat := d.f 4 23 8
def LoopDesc.stalemax (d : LoopDesc) : Nat := d.f 4 31 24
def LoopDesc.latmax (d : LoopDesc) : Nat := (d.w 8).toNat
/-- Element (i, j) of a matrix, and an element of a vector. -/
def LoopDesc.m (d : LoopDesc) (base stride i j : Nat) : Word := d.w (base + 4 * (stride * i + j))
def LoopDesc.v (d : LoopDesc) (base i : Nat) : Word := d.w (base + 4 * i)
def LoopDesc.inp (d : LoopDesc) (i hi lo : Nat) : Nat := d.f (0x40 + 16 * i) hi lo
def LoopDesc.out (d : LoopDesc) (i hi lo : Nat) : Nat := d.f (0x140 + 16 * i) hi lo
def LoopDesc.ui (d : LoopDesc) (i : Nat) : Nat := d.f (0x200 + 16 * i) 3 0
def LoopDesc.ri (d : LoopDesc) (i : Nat) : Nat := d.f (0x200 + 16 * i) 7 4
def LoopDesc.yi (d : LoopDesc) (i : Nat) : Nat := d.f (0x200 + 16 * i) 11 8
def LoopDesc.ti (d : LoopDesc) (i : Nat) : Word := d.w (0x204 + 16 * i)
def LoopDesc.rmap (d : LoopDesc) (i : Nat) : Nat := d.f (0x2C0 + i) (8 * (i % 4) + 7) (8 * (i % 4))

/-- Bytes of a value in a format. -/
def fmtBytes (fmt : Nat) : Nat := if fmt < 2 then 4 else 2

/-- Byte ranges that hold nothing. -/
def descGaps : List (Nat × Nat) := [(0x0C, 0x40), (0x2CC, 0x300), (0x330, 0x340), (0x3D0, 0x400), (0x460, 0x480), (0x2700, 0x3FFC)]

def LoopDesc.zeroed (d : LoopDesc) : Bool :=
  descGaps.all (fun g => (List.range ((g.2 - g.1) / 4)).all (fun i => d.w (g.1 + 4 * i) == 0#32)) &&
  d.f 0 31 26 == 0 && d.f 4 7 2 == 0

/-- Ranges of the input, output and integrator maps within the loop's dimensions. -/
def LoopDesc.mapsOk (d : LoopDesc) : Bool :=
  (List.range d.ny).all (fun i =>
    let kind := d.inp i 2 0
    let idx := d.inp i 18 13
    d.inp i 31 20 == 0 && d.f (0x4C + 16 * i) 31 8 == 0 && decide (kind ≤ 4) &&
    (kind != 2 || decide (idx + fmtBytes (d.inp i 4 3) ≤ 64)) && (kind != 3 || decide (idx < 16)) &&
    (kind != 4 || decide (idx < (if d.inp i 19 19 = 0 then 12 else 24)))) &&
  (List.range d.nu).all (fun i =>
    let kind := d.out i 2 0
    d.out i 31 19 == 0 && d.w (0x14C + 16 * i) == 0#32 && decide (kind ≤ 1) &&
    (kind != 1 || decide (d.out i 18 13 + fmtBytes (d.out i 4 3) ≤ 64))) &&
  (List.range d.ni).all (fun i =>
    decide (d.ui i < d.nu) && decide (d.ri i < d.nr) && decide (d.yi i < d.ny) && d.f (0x200 + 16 * i) 31 12 == 0 &&
    d.w (0x208 + 16 * i) == 0#32 && d.w (0x20C + 16 * i) == 0#32) &&
  (List.range d.nr).all (fun i => decide (d.rmap i < 64))

def rectFin (d : LoopDesc) (base stride rows cols : Nat) : Bool :=
  (List.range rows).all (fun i => (List.range cols).all (fun j => isFin (d.m base stride i j)))

/-- Every value within the dimensions is finite, and UMIN ≤ UMAX. -/
def LoopDesc.valuesOk (d : LoopDesc) : Bool :=
  (List.range d.ny).all (fun i => isFin (d.w (0x44 + 16 * i)) && isFin (d.w (0x48 + 16 * i))) &&
  (List.range d.nu).all (fun i => isFin (d.w (0x144 + 16 * i)) && isFin (d.w (0x148 + 16 * i)) && isFin (d.v 0x340 i) &&
    isFin (d.v 0x370 i) && isFin (d.v 0x3A0 i) && fle (d.v 0x340 i) (d.v 0x370 i)) &&
  (List.range d.ni).all (fun i => isFin (d.ti i)) &&
  (List.range d.nr).all (fun i => isFin (d.v 0x300 i)) && (List.range d.nx).all (fun i => isFin (d.v 0x400 i)) &&
  rectFin d 0x480 24 d.nx d.nx && rectFin d 0xD80 12 d.nx d.nu && rectFin d 0x1200 16 d.nx d.ny && rectFin d 0x1800 24 d.ny d.nx &&
  rectFin d 0x1E00 24 d.nu d.nx && rectFin d 0x2280 12 d.nu d.ni && rectFin d 0x24C0 12 d.nu d.nr

/-- The checks of R479. -/
def LoopDesc.ok (d : LoopDesc) : Bool :=
  (d.w 0x3FFC).toNat == crc32c (bytesOf (d.ws.take 4095)) && d.zeroed &&
  decide (1 ≤ d.nx) && decide (d.nx ≤ 24) && decide (1 ≤ d.nu) && decide (d.nu ≤ 12) && decide (1 ≤ d.ny) && decide (d.ny ≤ 16) &&
  decide (d.ni ≤ 12) && decide (d.nr ≤ 12) && decide (d.refsrc ≤ 1) && decide (1 ≤ d.outdiv) && decide (1 ≤ d.stalemax) &&
  d.mapsOk && d.valuesOk

/-- A loop's active descriptor. -/
def State.loopDesc (s : State) (l : Nat) : Option LoopDesc := (s.sramWords (descOff l) 4096).map (fun ws => { ws := ws })
def State.shadowDesc (s : State) (l : Nat) : Option LoopDesc := (s.sramWords (0x4000 + descOff l) 4096).map (fun ws => { ws := ws })

def State.aux (s : State) (l : Nat) : LoopAux := Sparse.get (fun _ => {}) s.drive.loops l
def State.setAux (s : State) (l : Nat) (a : LoopAux) : State :=
  { s with drive := { s.drive with loops := Sparse.set (fun _ => {}) s.drive.loops l a } }
def State.loopState (s : State) (l : Nat) : Nat := s.fld (kLSTAT l) 1 0

/-! ### Set-point blocks (R487, R488) -/

/-- A set-point block's header and rows. -/
structure Block where
  nrow : Nat
  ncol : Nat
  t0 : Nat
  dt : Nat
  rows : List Word

def bufOff (b : Nat) : Nat := 0x200000 + 0x10000 * b

/-- Read the block in a plan buffer: `none` where it cannot be read or breaks R487. `len` bounds it where it is known. -/
def State.block (s : State) (b : Nat) (len : Nat := 65536) : Option Block :=
  match s.sramRead (bufOff b) 64 with
  | none => none
  | some h =>
    let w := fun (o n : Nat) => leNat ((h.drop o).take n)
    let nrow := bitsOf (w 4 4) 11 0
    let ncol := bitsOf (w 4 4) 18 12
    let dt := w 0x10 4
    if w 0 4 ≠ 1 ∨ bitsOf (w 4 4) 31 19 ≠ 0 ∨ nrow < 2 ∨ ncol < 1 ∨ 64 < ncol ∨ dt < 1000000 ∨ 100000000 < dt ∨
        w 0x14 44 ≠ 0 ∨ Nat.min len 65536 < 64 + nrow * ncol * 4 then none
    else
      match s.sramWords (bufOff b + 64) (nrow * ncol) with
      | some ws => some { nrow := nrow, ncol := ncol, t0 := w 8 8, dt := dt, rows := ws }
      | none => none

/-- A fraction of naturals, rounded once to FP32. -/
def fracF32 (a b : Nat) : Word :=
  match divFv (.num false a 0) (.num false b 0) with
  | some (v, sticky) => (toF32 v sticky).1
  | none => canonNan

/-- The references at time t, and END (R488). -/
def Block.interp (b : Block) (cols : List Nat) (t : Nat) : List Word × Bool :=
  let row := fun (k c : Nat) => b.rows.getD (k * b.ncol + c) 0#32
  if t ≤ b.t0 then (cols.map (row 0), false)
  else if b.t0 + (b.nrow - 1) * b.dt ≤ t then (cols.map (row (b.nrow - 1)), true)
  else
    let k := (t - b.t0) / b.dt
    let f := fracF32 ((t - b.t0) % b.dt) b.dt
    (cols.map (fun c => (ffma f (fsub (row (k + 1) c) (row k c)).1 (row k c)).1), false)

/-! ### Plan and fall-back roles (R475, R492, R495) -/

def State.planBuf (s : State) : Nat := s.fld kPLANSTAT 1 0
def State.fbBuf (s : State) : Nat := s.fld kPLANSTAT 3 2
def State.fbBad (s : State) : Bool := s.flag kPLANSTAT 11

/-- Set the roles; RXP and RXF map onto the two lowest free buffers. -/
def State.setRoles (s : State) (plan fb : Nat) : State :=
  let free := (List.range 4).filter (fun b => b != plan && b != fb)
  (((s.setFld kPLANSTAT 1 0 plan).setFld kPLANSTAT 3 2 fb).setFld kPLANSTAT 5 4 (free.getD 0 0)).setFld kPLANSTAT 7 6 (free.getD 1 0)

def State.setFlying (s : State) (b : Bool) : State := (s.setFlag kPLANSTAT 8 b).setFlag (kSTAT rDRIVE) 16 b

/-- Show the pending hand-off in PLANSTAT. -/
def State.setHandOff (s : State) (h : Option HandOff) : State :=
  let s : State := { s with drive := { s.drive with ho := h } }
  s.setFld kPLANSTAT 10 9 (match h with | none => 0 | some x => if x.passed then 2 else 1)

/-- Discard the pending hand-off and report it: 1 a mismatch, 2 late (R489, R492, R494). `counts` says whether it counts
towards cause 3 (R574). -/
def State.rejectHandOff (s : State) (report : Nat) (counts : Bool) : State :=
  match s.drive.ho with
  | none => s
  | some _ =>
    let s := s.setHandOff none
    let s : State := { s with drive := { s.drive with report := some report } }
    let s := (s.count rDRIVE 6).raise rDRIVE 17
    if counts then s.hoRejected else s

/-- FLY (R495, R496). -/
def State.fly (s : State) : State :=
  let s := s.rejectHandOff 2 false
  let s := (s.count rDRIVE 7).raise rDRIVE 18 { always := true }
  let s := s.setFlying true
  if s.fbBad then (s.setFlag kPLANSTAT 12 true).raise rDRIVE 20 { always := true }
  else s.setRoles s.fbBuf s.fbBuf

/-- Every loop that tracks a plan enters FAULT (R496). -/
def State.faultTrackers (s : State) : State :=
  (List.range 64).foldl (fun s l =>
    if s.loopState l = 1 ∧ fieldOf ((s.sramWords (descOff l) 1).getD [] |>.headD 0#32) 25 24 = 1 then s.faultLoop l else s) s

/-! ### Snapshots (R482) -/

/-- A value of a receive buffer, of its format, as FP32 (R478). -/
def fmtValue (fmt : Nat) (bs : List Byte) : Word :=
  let n := leNat bs
  if fmt = 0 then BitVec.ofNat 32 n
  else if fmt = 1 then intToF32 (signedOf 32 n)
  else if fmt = 2 then intToF32 (signedOf 16 n)
  else intToF32 (n % 65536 : Nat)

def State.rxAge (s : State) (l i c m : Nat) : Nat :=
  let a := s.aux l
  if (s.box (boxKey c true m)).count = Sparse.get (fun _ => 0) a.seen i then Sparse.get (fun _ => 0) a.age i + 1 else 0

/-- One input: its value, whether it is stale, and the state after the read. -/
def State.snapInput (s : State) (l : Nat) (d : LoopDesc) (i : Nat) : Word × Bool × State :=
  let kind := d.inp i 2 0
  let ch := d.inp i 6 5
  let buf := d.inp i 12 7
  let at_ := d.inp i 18 13
  let fin := fun (v : Word) => (ffma (d.w (0x44 + 16 * i)) v (d.w (0x48 + 16 * i))).1
  if kind = 1 then
    let gained := (s.rd (kENC ch 0x14)).toNat &&& (Nat.xor 15 (((s.aux l).errs.getD ch 0#32).toNat))
    (fin (intToF32 (signedOf 32 (s.rd (kENC ch 0x08)).toNat)), gained != 0, s)
  else if kind = 2 then
    let k := boxKey ch true buf
    let (b, s) := s.readBox k
    let age := s.rxAge l i ch buf
    let a := s.aux l
    let s := s.setAux l { a with seen := Sparse.set (fun _ => 0) a.seen i b.count, age := Sparse.set (fun _ => 0) a.age i age }
    let s := s.setBox k { s.box k with unread := false }
    let bs := (List.range (fmtBytes (d.inp i 4 3))).map (fun o => b.byte (at_ + o))
    let maxage := d.f (0x4C + 16 * i) 7 0
    (fin (fmtValue (d.inp i 4 3) bs), decide (0 < maxage) && decide (maxage ≤ age), s)
  else if kind = 3 then (fin (((s.sramWords (stateOff l + 0x100 + 4 * at_) 1).getD []).headD 0#32), false, s)
  else if kind = 4 then
    let off := if d.inp i 19 19 = 0 then 0x90 + 4 * at_ else 4 * at_
    (fin (((s.sramWords (stateOff buf + off) 1).getD []).headD 0#32), false, s)
  else (fin 0#32, false, s)

def State.snapAll (l : Nat) (d : LoopDesc) : List Nat → State → List Word × Bool × State
  | [], s => ([], false, s)
  | i :: rest, s =>
    let (v, st, s) := s.snapInput l d i
    let (vs, sts, s) := State.snapAll l d rest s
    (v :: vs, st || sts, s)

def State.encErrs (s : State) : List Word := (List.range 4).map (fun n => s.rd (kENC n 0x14))

/-- Queue a sample on its core, by effect time and slot (R485). -/
def insertSample (x : Sample) : List Sample → List Sample
  | [] => [x]
  | y :: rest => if x.due < y.due ∨ (x.due = y.due ∧ x.slot < y.slot) then x :: y :: rest else y :: insertSample x rest

def State.coreQueue (s : State) (core : Nat) : List Sample := Sparse.get (fun _ => []) s.drive.queue core
def State.setCoreQueue (s : State) (core : Nat) (q : List Sample) : State :=
  { s with drive := { s.drive with queue := Sparse.set (fun _ => []) s.drive.queue core q } }

/-- The match that a sample action belongs to. -/
def Dispatched.at10 (d : Dispatched) : Nat := d.due - 10

/-- A sample comes too early: within 24 µs of its loop's last match, or while one of the loop still waits (R482). -/
def State.sampleEarly (s : State) (l m : Nat) : Bool :=
  (match (s.aux l).lastMatch with | some p => decide (m < 24000 + p) | none => false) ||
  (List.range 4).any (fun c => (s.coreQueue c).any (fun x => x.loop == l))

/-- A sample is taken: the sensors are read, and it joins its core's queue (R482, R486). -/
def State.takeSample (s : State) (l : Nat) (d : Dispatched) : State :=
  let desc := if (s.aux l).swap then s.shadowDesc l else s.loopDesc l
  match desc with
  | none =>
    let s := s.setAux l { s.aux l with lastMatch := some d.at10 }
    let core := s.loopCore l
    s.setCoreQueue core (insertSample { loop := l, slot := d.slot, due := d.due, y := [], stale := false } (s.coreQueue core))
  | some x =>
    let (y, stale, s) := State.snapAll l x (List.range x.ny) s
    let s := s.setAux l { s.aux l with lastMatch := some d.at10, errs := s.encErrs }
    s.setCoreQueue x.core (insertSample { loop := l, slot := d.slot, due := d.due, y := y, stale := stale } (s.coreQueue x.core))

/-- The effect of a sample action on loop `l`. -/
def State.sampleLoop (s : State) (l : Nat) (d : Dispatched) : State :=
  if s.dropsAt rDRIVE then s.dropAction d.slot
  else
    let s := s.slotFired d.slot
    if s.loopState l = 0 then s
    else if s.sampleEarly l d.at10 then s.count rDRIVE 3
    else s.takeSample l d

/-- A sample action reaches the Clock Drive (R482, R486). -/
def effSampleAction (s : State) : State :=
  match s.takeDue Action.isSample with
  | none => s
  | some (d, s) =>
    match d.action with
    | .sample l => s.sampleLoop l d
    | _ => s

/-! ### One sample (R480–R484) -/

def fm (a b c : Word) : Word := (ffma a b c).1
def fmin (a b : Word) : Word := fneg (fmax (fneg a) (fneg b)).1

/-- A chain of fma over the pairs, from `c`. -/
def chain (c : Word) (ps : List (Word × Word)) : Word := ps.foldl (fun c p => fm p.1 p.2 c) c

/-- What a sample computes. -/
structure SampleOut where
  e : List Word
  upre : List Word
  u : List Word
  sat : List Bool
  hold : List Bool
  xn : List Word
  zn : List Word
  deriving DecidableEq, Repr

def LoopDesc.step (d : LoopDesc) (x z y r : List Word) : SampleOut :=
  let at_ := fun (l : List Word) (i : Nat) => l.getD i 0#32
  let e := (List.range d.ny).map (fun i =>
    (fsub (at_ y i) (chain 0#32 ((List.range d.nx).map (fun j => (d.m 0x1800 24 i j, at_ x j))))).1)
  let le := fun (i : Nat) (s : Word) => chain s ((List.range d.ny).map (fun j => (d.m 0x1200 16 i j, at_ e j)))
  let xs := if d.form then (List.range d.nx).map (fun i => le i (at_ x i)) else x
  let upre := (List.range d.nu).map (fun i =>
    let s := chain 0#32 ((List.range d.nr).map (fun j => (d.m 0x24C0 12 i j, at_ r j)))
    let s := chain s ((List.range d.nx).map (fun j => (fneg (d.m 0x1E00 24 i j), at_ xs j)))
    chain s ((List.range d.ni).map (fun j => (fneg (d.m 0x2280 12 i j), at_ z j))))
  let u := (List.range d.nu).map (fun i => fmin (fmax (at_ upre i) (d.v 0x340 i)).1 (d.v 0x370 i))
  let sat := (List.range d.nu).map (fun i => flt (at_ u i) (at_ upre i) || flt (at_ upre i) (at_ u i))
  let xn := (List.range d.nx).map (fun i =>
    let s := chain 0#32 ((List.range d.nx).map (fun j => (d.m 0x480 24 i j, at_ xs j)))
    let s := chain s ((List.range d.nu).map (fun j => (d.m 0xD80 12 i j, at_ u j)))
    if d.form then s else le i s)
  let zs := (List.range d.ni).map (fun i =>
    let ei := (fsub (at_ r (d.ri i)) (at_ y (d.yi i))).1
    let k := d.ui i
    let dd := (fmul (fmul (fneg (d.m 0x2280 12 k i)) (d.ti i)).1 ei).1
    let high := flt (d.v 0x370 k) (at_ upre k)
    let held := sat.getD k false && (!d.clampdir || (if high then flt 0#32 dd else flt dd 0#32))
    (held, if held then at_ z i else fm (d.ti i) ei (at_ z i)))
  { e := e, upre := upre, u := u, sat := sat, hold := zs.map (fun p => p.1), xn := xn, zn := zs.map (fun p => p.2) }

def SampleOut.finite (o : SampleOut) : Bool := allFin o.upre && allFin o.xn && allFin o.zn

/-- T_u and T_total in core cycles (R484). -/
def g8 (m : Nat) : Nat := ceilDiv m 8
def LoopDesc.tu (d : LoopDesc) : Nat :=
  let u := 16 + g8 d.nu * (d.nr + d.nx + d.ni) + 4 + 8
  if d.form then u + g8 d.ny * d.nx + 4 + g8 d.nx * d.ny + 4 else u
def LoopDesc.ttotal (d : LoopDesc) : Nat :=
  16 + (g8 d.ny * d.nx + 4) + (if d.form then g8 d.nx * d.ny + 4 else 0) + (g8 d.nu * (d.nr + d.nx + d.ni) + 4) + 8 +
  (g8 d.nx * (d.nx + d.nu + if d.form then 0 else d.ny) + 4) + (if 0 < d.ni then 8 else 0) + 16

/-! ### Outputs (R478, R490) -/

def kTXREPL : Nat := rk rDRIVE 1 0x120

/-- A plant input in its output format (R478). -/
def LoopDesc.outBytes (d : LoopDesc) (i : Nat) (u : Word) : List Byte :=
  let v := fm (d.w (0x144 + 16 * i)) u (d.w (0x148 + 16 * i))
  let fmt := d.out i 4 3
  if fmt = 0 then leBytes 4 v.toNat
  else if fmt = 1 then leBytes 4 (patternOf 32 (toIntN 32 .rne (f32 v)).1)
  else if fmt = 2 then leBytes 2 (patternOf 16 (toIntN 16 .rne (f32 v)).1)
  else leBytes 2 (clampInt 0 65535 (toIntN 32 .rne (f32 v)).1).toNat

/-- The transmit buffers that a loop writes: channel and mailbox. -/
def LoopDesc.outBoxes (d : LoopDesc) : List (Nat × Nat) :=
  ((List.range d.nu).filterMap (fun i => if d.out i 2 0 = 1 then some (d.out i 6 5, d.out i 12 7) else none)).eraseDups

/-- Write the output map and commit its frames. A mailbox that host software owns takes nothing (R667). -/
def State.commitOut (s : State) (d : LoopDesc) (u : List Word) : State :=
  d.outBoxes.foldl (fun s cm =>
    let is := (List.range d.nu).filter (fun i => d.out i 2 0 == 1 && d.out i 6 5 == cm.1 && d.out i 12 7 == cm.2)
    let b := s.box (boxKey cm.1 false cm.2)
    if b.owner then s.count rCAN 5 is.length
    else
      let put := is.foldl (fun (acc : Sparse Byte × Nat) i =>
        let bs := d.outBytes i (u.getD i 0#32)
        let off := d.out i 18 13
        (((List.range bs.length).zip bs).foldl (fun m x => Sparse.set (fun _ => 0#8) m (off + x.1) x.2) acc.1,
          Nat.max acc.2 (off + bs.length))) (b.data, 0)
      let (repl, s) := s.canCommit cm.1 cm.2 put.2 put.1
      if repl then s.addSat kTXREPL 31 0 1 else s) s

/-! ### The Logbook (R498–R500) -/

def kLB (c off : Nat) : Nat := rk rDRIVE 3 (0x100 + 0x20 * c + off)
def State.logChan (s : State) (c : Nat) : LogChan := Sparse.get (fun _ => {}) s.drive.chans c
def State.setLogChan (s : State) (c : Nat) (x : LogChan) : State :=
  { s with drive := { s.drive with chans := Sparse.set (fun _ => {}) s.drive.chans c x } }

/-- What a sample shows the Logbook. -/
structure Trace where
  loop : Nat
  match_ : Nat
  samples : Nat
  flags : Nat                 -- the eight flags of R499 in order
  satMask : Nat
  holdMask : Nat
  lat : Nat
  groups : List (List Word)   -- the seven node groups in order
  errs : List Word            -- ē

def Trace.bytes (t : Trace) (nodes : Nat) : List Byte :=
  let body := ((List.range 7).zip t.groups).flatMap (fun g => if bitOf nodes g.1 then bytesOf g.2 else [])
  let bs := leBytes 8 t.match_ ++ leBytes 4 (t.samples % 65536 + 2 ^ 16 * t.loop + 2 ^ 22 * t.flags) ++
    leBytes 4 (t.satMask + 2 ^ 12 * t.holdMask + 2 ^ 24 * t.lat) ++ body
  bs ++ List.replicate (ceilDiv bs.length 16 * 16 - bs.length) 0#8

/-- Write one record of a channel, round its region. -/
def State.logRecord (s : State) (c : Nat) (bs : List Byte) : State :=
  let base := s.fld (kLB c 8) 20 0
  let size := s.fld (kLB c 0x0C) 21 0
  let w := s.fld (kLB c 0x1C) 20 0
  let n := bs.length
  if size < n then s
  else
    let wrap := base + size < w + n
    let at_ := if wrap then base else w
    let s := if wrap then s.setFlag (kLB c 0x18) 2 true else s
    let x := s.logChan c
    let keep := x.recs.filter (fun r => decide (r.1 + r.2 ≤ at_) || decide (at_ + n ≤ r.1))
    ((s.sramWrite (0x300000 + at_) bs).setLogChan c { x with recs := keep ++ [(at_, n)] }).setFld (kLB c 0x1C) 20 0 (at_ + n)

/-- A sample passes a channel that records its loop. -/
def State.logSample (s : State) (t : Trace) (c : Nat) : State :=
  let st := s.fld (kLB c 0x18) 1 0
  if s.fld (kLB c 0) 5 0 ≠ t.loop ∨ (st ≠ 1 ∧ st ≠ 2) then s
  else
    let div := Nat.max 1 (s.fld (kLB c 4) 15 0)
    let due := t.samples % div == 0
    let s := if due then s.logRecord c (t.bytes (s.fld (kLB c 0) 12 6)) else s
    if st = 1 then
      let trig := s.fld (kLB c 4) 21 16
      let innov := t.errs.any (fun e => flt (s.rd (kLB c 0x14)) (fabs e))
      let ev := (bitOf trig 0 && bitOf t.flags 0) || (bitOf trig 1 && bitOf t.flags 1) || (bitOf trig 2 && bitOf t.flags 2) ||
        (bitOf trig 3 && bitOf t.flags 3) || (bitOf trig 4 && innov) || (bitOf trig 5 && bitOf t.flags 5)
      if s.fld (kLB c 0) 14 13 = 2 ∧ ev = true then
        let n := s.fld (kLB c 0x10) 15 0
        (s.setLogChan c { s.logChan c with left := n }).setFld (kLB c 0x18) 1 0 (if n = 0 then 3 else 2)
      else s
    else if due then
      let n := (s.logChan c).left - 1
      (s.setLogChan c { s.logChan c with left := n }).setFld (kLB c 0x18) 1 0 (if n = 0 then 3 else 2)
    else s

def State.logAll (s : State) (t : Trace) : State := (List.range 8).foldl (fun s c => s.logSample t c) s

/-- Words of a region whose values the spec leaves open. -/
def State.freeWords : Nat → State → List Word × State
  | 0, s => ([], s)
  | n + 1, s =>
    let (i, s) := s.draw
    let (ws, s) := State.freeWords n s
    (Config.freeWord i :: ws, s)

/-! ### Running a sample -/

def maskOf (bs : List Bool) : Nat := ((List.range bs.length).zip bs).foldl (fun a x => if x.2 then a + 2 ^ x.1 else a) 0

/-- The references of a sample (R486, R488, R496): the plan role, after FLY the fall-back, else none usable. -/
def State.planRefs (s : State) (d : LoopDesc) (t : Nat) : Option (List Word × Bool) × State :=
  let cols := (List.range d.nr).map d.rmap
  let try_ := fun (s : State) => match s.block s.planBuf with
    | some b => if cols.all (fun c => decide (c < b.ncol)) then some (b.interp cols t) else none
    | none => none
  match try_ s with
  | some r => (some r, s)
  | none =>
    let s := s.sramUe
    let s := s.fly
    if s.fbBad then (none, s.faultTrackers)
    else
      match try_ s with
      | some r => (some r, s)
      | none => (none, (s.setFlag kPLANSTAT 11 true).faultTrackers)

/-- Finish a sample: the loop's registers and its SAMPLES count. -/
def State.endSample (s : State) (l samples lat4 latmax : Nat) (timed stale sat : Bool) : State :=
  let s := s.sramWrite (stateOff l + 0xC0) (leBytes 4 (samples + 1))
  let s := (s.setFlag (kLSTAT l) 2 stale).setFlag (kLSTAT l) 3 sat
  if timed then
    let s := s.setFld (kLSTAT l) 12 5 (Nat.min 255 (lat4 / 40))
    if latmax ≠ 0 ∧ 4 * latmax < lat4 then (s.setFlag (kLSTAT l) 4 true).count rDRIVE 4 else s
  else s

/-- A loop in FAULT, or one that enters it at this sample, writes SAFEU (R479, R483). -/
def State.safeOut (s : State) (d : LoopDesc) (l samples : Nat) : State :=
  let u := (List.range d.nu).map (fun i => d.v 0x3A0 i)
  let s := s.sramWrite (stateOff l + 0x90) (bytesOf u)
  if samples % Nat.max 1 d.outdiv = 0 then s.commitOut d u else s

def flagsOf (sat hold stale fault late flying end_ retried : Bool) : Nat := maskOf [sat, hold, stale, fault, late, flying, end_, retried]

/-- A sample of a loop in FAULT. -/
def State.faultSample (s : State) (d : LoopDesc) (x : Sample) : State :=
  let l := x.loop
  let samples := leNat ((s.sramRead (stateOff l + 0xC0) 4).getD [])
  let s := s.safeOut d l samples
  let s := s.endSample l samples 0 0 false x.stale false
  let st := (s.sramWords (stateOff l) 36).getD []
  let (e, s) := State.freeWords d.ny s
  let (up, s) := State.freeWords d.nu s
  let (r, s) := State.freeWords d.nr s
  s.logAll { loop := l, match_ := x.due - 10, samples := samples, flags := flagsOf false false x.stale true false (s.flag kPLANSTAT 8) false false,
             satMask := 0, holdMask := 0, lat := s.fld (kLSTAT l) 12 5,
             groups := [st.take d.nx, e, (st.drop 24).take d.ni, up, (List.range d.nu).map (fun i => d.v 0x3A0 i), r, x.y], errs := [] }

/-- The part of a descriptor that SAFEU needs, where the whole cannot be read. -/
def State.safeDesc (s : State) (l : Nat) : Option LoopDesc := (s.sramWords (descOff l) 0xF4).map (fun ws => { ws := ws })

/-- A sample of a loop in RUN. `retried`: a core mismatch has cost its first run (R503). -/
def State.runSample (s : State) (core : Nat) (d : LoopDesc) (x : Sample) (retried : Bool) : State :=
  let l := x.loop
  let m := x.due - 10
  match s.sramWords (stateOff l) 49 with
  | none => (s.sramUe.faultLoop l).safeOut d l 0
  | some st =>
    let samples := (st.getD 48 0#32).toNat
    let xh := st.take d.nx
    let z := (st.drop 24).take d.ni
    let (refs, s) := if d.refsrc = 1 then s.planRefs d m
      else (some ((List.range d.nr).map (fun i => d.v 0x300 i), false), s)
    match refs with
    | none => s.faultSample d x
    | some (r, end_) =>
      let o := d.step xh z x.y r
      let start4 := Nat.max (4 * x.due) (Sparse.get (fun _ => 0) s.drive.busy core)
      let again := if retried then 5 * (d.ttotal + 64) else 0
      let s : State := { s with drive := { s.drive with
        busy := Sparse.set (fun _ => 0) s.drive.busy core (start4 + 5 * d.ttotal + again) } }
      let commits := samples % d.outdiv == 0 && !d.outBoxes.isEmpty
      let lat4 := start4 + 5 * d.tu + again + (if commits then 320 else 0) - 4 * m
      let inj := s.injArmed rDRIVE 3 && s.fld (kEINJ rDRIVE) 10 5 == l
      let s := if inj then s.injDone rDRIVE 3 else s
      let stale := x.stale || inj
      let a := s.aux l
      let run := if stale then a.staleRun + 1 else 0
      let s := s.setAux l { a with staleRun := run }
      let sat := o.sat.any id
      let bad := !o.finite
      let late := d.latmax != 0 && decide (4 * d.latmax < lat4)
      let s := if bad then (s.faultLoop l).safeOut d l samples
        else
          let s := s.sramWrite (stateOff l) (bytesOf o.xn)
          let s := s.sramWrite (stateOff l + 0x60) (bytesOf o.zn)
          let s := s.sramWrite (stateOff l + 0x90) (bytesOf o.u)
          let s := if commits then s.commitOut d o.u else s
          if d.stalemax < run then s.faultLoop l inj else s
      let s := s.endSample l samples lat4 d.latmax true stale sat
      s.logAll { loop := l, match_ := m, samples := samples,
                 flags := flagsOf sat (o.hold.any id) stale (s.loopState l == 2) late (s.flag kPLANSTAT 8) end_ retried,
                 satMask := maskOf o.sat, holdMask := maskOf o.hold, lat := Nat.min 255 (lat4 / 40),
                 groups := [xh, o.e, z, o.upre, o.u, r, x.y], errs := o.e }

/-- A core's two computations of a sample differ (R503). -/
def State.coreFault (s : State) (core : Nat) (inj : Bool) : Bool × State :=
  driveSpares.fault ((s.count rDRIVE 2).raise rDRIVE 19 { inj := inj, index := core }) core

/-- The next queued sample of a logical core runs; `mism` finds the core's computations different. -/
def State.sampleOn (s : State) (core : Nat) (mism : Bool) : State :=
  match s.coreQueue core with
  | [] => s
  | x :: rest =>
    if s.now < x.due ∨ 4 * s.now < Sparse.get (fun _ => 0) s.drive.busy core then s
    else
      let l := x.loop
      let s := s.setCoreQueue core rest
      if s.loopState l = 0 then s
      else
        let sel := s.fld (kEINJ rDRIVE) 10 5 == l
        let s := if sel && s.injArmed rDRIVE 0 then ((s.injDone rDRIVE 0).count rDRIVE 0).raise rDRIVE 1 { inj := true } else s
        let ue := sel && s.injArmed rDRIVE 1
        let s := if ue then s.injDone rDRIVE 1 else s
        let a := s.aux l
        let s := if a.swap then
            let s := s.setAux l { a with swap := false }
            match s.sramRead (0x4000 + descOff l) 0x4000 with | some bs => s.sramWrite (descOff l) bs | none => s
          else s
        let injCore := sel && s.injArmed rDRIVE 2
        let s := if injCore then s.injDone rDRIVE 2 else s
        match (if ue then none else s.loopDesc l) with
        | none =>
          let s := s.sramUe
          let s := if s.loopState l = 1 then s.faultLoop l ue else s
          match s.safeDesc l with | some d => s.faultSample d x | none => s
        | some d =>
          if s.loopState l = 2 then s.faultSample d x
          else if mism || injCore then
            let (ok, s) := s.coreFault core injCore
            if ok then s.runSample core d x true else (s.faultCore core).faultSample d x
          else s.runSample core d x false

def effSampleExecute (core : Nat) (s : State) : State := s.sampleOn core false
def effCoreMismatch (core : Nat) (s : State) : State := s.sampleOn core true

/-! ### Loop commands (R479) -/

def kLCMD : Nat := rk rDRIVE 2 0x100
def kLCMDSTAT : Nat := rk rDRIVE 2 0x104

/-- Start a loop in RUN: x̂ = X0, z = 0, and with `fresh` SAMPLES = 0. -/
def State.startLoop (s : State) (l : Nat) (d : LoopDesc) (fresh : Bool) : State :=
  let s := s.sramWrite (stateOff l) (bytesOf ((List.range d.nx).map (fun i => d.v 0x400 i)))
  let s := s.sramWrite (stateOff l + 0x60) (List.replicate 48 0#8)
  let s := if fresh then s.sramWrite (stateOff l + 0xC0) (leBytes 4 0) else s
  let seen := (List.range d.ny).foldl (fun m i =>
    if d.inp i 2 0 = 2 then Sparse.set (fun _ => 0) m i (s.box (boxKey (d.inp i 6 5) true (d.inp i 12 7))).count else m) ([] : Sparse Nat)
  let s := s.setAux l { s.aux l with staleRun := 0, errs := s.encErrs, seen := seen, age := [],
                                     swap := (s.aux l).swap && !fresh }
  s.setFld (kLSTAT l) 1 0 1

/-- A SWAP finds an RMAP column outside the plan role. -/
def State.swapBadCols (s : State) (d : LoopDesc) : Bool :=
  d.refsrc == 1 && (match s.block s.planBuf with
    | some b => (List.range d.nr).any (fun i => decide (b.ncol ≤ d.rmap i))
    | none => decide (0 < d.nr))

/-- A write to DRIVE_LCMD: the loop and the command; CMD reads 0. -/
def State.loopCommand (s : State) (v : Word) : State :=
  let l := fieldOf v 5 0
  let cmd := fieldOf v 10 8
  let s := s.wr kLCMD (BitVec.ofNat 32 l)
  let st := s.loopState l
  let res := fun (s : State) (r : Nat) => s.setFld kLCMDSTAT 2 0 r
  if cmd = 0 then s
  else if cmd = 1 then
    if st ≠ 0 then res s 3
    else
      match s.loopDesc l with
      | some d => if d.ok then res (s.startLoop l d true) 0 else res s 2
      | none => res s.sramUe 2
  else if cmd = 2 then
    if st = 0 then res s 3
    else res ((s.setFld (kLSTAT l) 1 0 0).setAux l { s.aux l with swap := false, lastMatch := none }) 0
  else if cmd = 3 then
    if st = 0 then res s 3
    else
      match s.shadowDesc l with
      | some d =>
        if d.ok = false then res s 2
        else if s.swapBadCols d then res s 4
        else res (s.setAux l { s.aux l with swap := true }) 0
      | none => res s.sramUe 2
  else if cmd = 4 then
    if st ≠ 2 then res s 3
    else
      match s.loopDesc l with
      | some d => res (s.startLoop l d false) 0
      | none => res s.sramUe 2
  else res s 4

/-! ### Hand-offs (R489–R494) -/

/-- Does a block fit the loops that would take their references from it (R489)? -/
def State.blockServes (s : State) (b : Block) : Bool :=
  (List.range 64).all (fun l =>
    s.loopState l != 1 ||
    (match s.loopDesc l with
     | some d => d.refsrc != 1 || (List.range d.nr).all (fun i => decide (d.rmap i < b.ncol))
     | none => true))

/-- Check the form of an arrived hand-off. -/
def State.handOffOk (s : State) (bs : List Byte) : Bool :=
  let w := fun (o : Nat) => leNat ((bs.drop o).take 4)
  let kind := bitsOf (w 0) 1 0
  let plan := bitOf (w 0) 2
  let fb := bitOf (w 0) 3
  let rxp := if plan then s.block (s.fld kPLANSTAT 5 4) (bitsOf (w 0x10) 16 0) else none
  let rxf := if fb then s.block (s.fld kPLANSTAT 7 6) (bitsOf (w 0x18) 16 0) else none
  let role := if kind = 0 then rxp else if kind = 2 then rxf else if kind = 3 then s.block s.fbBuf else none
  bitsOf (w 0) 31 5 == 0 && bitsOf (w 0x20) 31 22 == 0 && bitsOf (w 0x10) 31 17 == 0 && bitsOf (w 0x18) 31 17 == 0 &&
  ((bs.drop 0x24).all (fun b => b == 0#8)) &&
  (if kind = 0 then plan else if kind = 1 then !plan else if kind = 2 then plan && fb else !plan && !fb) &&
  (!plan || rxp.isSome) && (!fb || rxf.isSome) &&
  (match role with | some b => s.blockServes b | none => true)

/-- The hand-off record is complete: the hand-off becomes pending, and a broken form rejects it (R489). -/
def State.takeRecord (s : State) : State :=
  let s : State := { s with drive := { s.drive with arrived := false } }
  match s.sramRead 0x260000 64 with
  | none =>
    let s := s.sramUe.setHandOff (some { kind := 0, plan := false, fb := false, step := 0, switch := 0, since := s.now })
    s.rejectHandOff 1 true
  | some bs =>
    let w := fun (o : Nat) => leNat ((bs.drop o).take 4)
    let s := s.setHandOff (some { kind := bitsOf (w 0) 1 0, plan := bitOf (w 0) 2, fb := bitOf (w 0) 3, step := w 8,
                                  switch := w 0x0C, since := s.now })
    let s := s.wr (rk rDRIVE 1 0x108) (BitVec.ofNat 32 (w 8))
    if s.handOffOk bs then s else s.rejectHandOff 1 true

/-- The CVU's verdict reaches the Clock Drive (R489, R506). -/
def State.handOffVerdict (s : State) (pass : Bool) : State :=
  match s.drive.ho with
  | none => s
  | some h =>
    if h.passed then s
    else
      let inj := s.injArmed rDRIVE 4
      let s := if inj then s.injDone rDRIVE 4 else s
      if pass && !inj then s.setHandOff (some { h with passed := true }) else s.rejectHandOff 1 true

/-- Accept the pending hand-off (R492). -/
def State.acceptHandOff (s : State) (h : HandOff) : State :=
  let rxp := s.fld kPLANSTAT 5 4
  let rxf := s.fld kPLANSTAT 7 6
  let plan := if h.kind = 0 then rxp else if h.kind = 2 then rxf else if h.kind = 3 then s.fbBuf else s.planBuf
  let fb := if (h.kind < 2 ∧ h.fb = true) ∨ h.kind = 2 then rxf else s.fbBuf
  let s := if fb ≠ s.fbBuf then (s.setFlag kPLANSTAT 11 false).setFlag kPLANSTAT 12 false else s
  let s := (s.setHandOff none).setRoles plan fb
  let s := if h.kind = 0 then s.setFlying false else if 2 ≤ h.kind then s.setFlying true else s
  let s := ((s.setFlag kPLANSTAT 13 true).wr (rk rDRIVE 1 0x104) (BitVec.ofNat 32 h.step)).addSat (rk rDRIVE 1 0x11C) 31 0 1
  let s : State := { s with drive := { s.drive with report := some 0, autoBase := s.now, autoDone := false },
                            watch := { s.watch with hofail := 0 } }
  let s := s.planRestart
  if h.kind = 0 then s.leaveRecovering else s

/-- A SWITCH (R492). -/
def effSwitch (s : State) : State :=
  match s.nextOp rDRIVE 0 with
  | none => s
  | some o =>
    if o.opcode ≠ 1 then s
    else
      let s := s.start rDRIVE 0 o
      let kind := match s.drive.ho with | some h => h.kind | none => 0
      match s.drive.ho with
      | some h =>
        if h.step = o.step ∧ h.switch = o.occ.toNat ∧ h.passed = true then
          (s.acceptHandOff h).finish rDRIVE 0 o.index stDONE (BitVec.ofNat 64 (kind + 4))
        else if h.step ≤ o.step then (s.rejectHandOff 2 true).finish rDRIVE 0 o.index stDONE_PREV (BitVec.ofNat 64 kind)
        else s.finish rDRIVE 0 o.index stDONE_PREV (BitVec.ofNat 64 kind)
      | none => s.finish rDRIVE 0 o.index stDONE_PREV

/-- HOTMO passes (R494). -/
def effHandOffTimeout (s : State) : State :=
  match s.drive.ho with
  | some h => if h.since + 1000000 * s.fld (rk rDRIVE 1 0x118) 15 0 ≤ s.now then s.rejectHandOff 2 false else s
  | none => s

/-- AUTOMS passes without an accepted SWITCH (R495): once per lapse. -/
def effAutoFly (s : State) : State :=
  let n := s.fld kFBCFG 15 0
  if n = 0 ∨ s.drive.autoDone = true ∨ s.now < s.drive.autoBase + 1000000 * n then s
  else ({ s with drive := { s.drive with autoDone := true } } : State).fly

/-! ### DUMP (R501) and MODE (R498, R500) -/

/-- Put out the records of a channel, oldest first. -/
def State.dumpRecs (q : Nat) (o : Op) (dst : Nat) : List (Nat × Nat) → Nat → State → Tx Nat × State
  | [], n, s => (.ok n, s)
  | r :: rest, n, s =>
    match s.sramRead (0x300000 + r.1) r.2 with
    | none => (.uncorrectable, s.sramUe)
    | some bs =>
      match s.txWrite (some 0x18) (dst + n) bs (some (rDRIVE, q, o.index)) with
      | (.ok _, s) => State.dumpRecs q o dst rest (n + r.2) s
      | (.firewall, s) => (.firewall, s)
      | (.error, s) => (.error, s)
      | (.uncorrectable, s) => (.uncorrectable, s)

def effDump (s : State) : State :=
  match s.nextOp rDRIVE 1 with
  | none => s
  | some o =>
    if o.opcode ≠ 2 then s
    else
      let s := s.start rDRIVE 1 o
      let c := o.fld 0x10 2 0
      let dst := o.addr 0x18
      if o.fld 0x10 31 3 ≠ 0 ∨ dst % 64 ≠ 0 ∨ o.word 5 ≠ 0#32 ∨ (o.words.drop 8).any (fun w => w != 0#32) = true then
        s.conclude rDRIVE 1 o.index stREJ_FORMAT
      else
        let st := s.fld (kLB c 0x18) 1 0
        let s := if st = 1 ∨ st = 2 then s.setFld (kLB c 0x18) 1 0 3 else s
        match State.dumpRecs 1 o dst (s.logChan c).recs 0 s with
        | (.ok n, s) => s.conclude rDRIVE 1 o.index stDONE (BitVec.ofNat 64 n)
        | (.firewall, s) => (s.finish rDRIVE 1 o.index stERR_FIREWALL).flushItag 0x18
        | (tx, s) => s.conclude rDRIVE 1 o.index tx.status

/-- Do the regions of two Logbook channels overlap? -/
def State.logOverlap (s : State) (a b : Nat) : Bool :=
  let lo := fun c => s.fld (kLB c 8) 20 0
  let hi := fun c => s.fld (kLB c 8) 20 0 + s.fld (kLB c 0x0C) 21 0
  decide (lo a < hi b) && decide (lo b < hi a)

/-- A write to a channel's word 0 with its MODE (R498, R500). -/
def effLogMode (c : Nat) (t : Itag) (v : Word) (s : State) : State :=
  let mode := fieldOf v 14 13
  if mode = 3 then s.cfgErr rDRIVE t
  else if mode ≠ 0 ∧ (List.range 8).any (fun b => b != c && s.fld (kLB b 0) 14 13 != 0 && s.logOverlap c b) = true then s.cfgErr rDRIVE t
  else
    let s := s.writeGeneric (kLB c 0) t v
    if mode = 0 then s.setFld (kLB c 0x18) 1 0 0
    else
      let s := (s.setFld (kLB c 0x18) 2 0 1).setFld (kLB c 0x1C) 20 0 (s.fld (kLB c 8) 20 0)
      s.setLogChan c {}

/-- SIZE keeps a channel's region inside the Logbook. -/
def effLogSize (c : Nat) (t : Itag) (v : Word) (s : State) : State :=
  let n := fieldOf v 21 0
  if n < 64 ∨ 2097152 < n + s.fld (kLB c 8) 20 0 then s.cfgErr rDRIVE t else s.writeGeneric (kLB c 0x0C) t v

def execSampleAction (s : State) : Outcome := .next (effSampleAction s)
def execSampleExecute (core : BitVec 2) (s : State) : Outcome := .next (effSampleExecute core.toNat s)
def execDriveCoreMismatch (core : BitVec 2) (s : State) : Outcome := .next (effCoreMismatch core.toNat s)
def execSwitch (s : State) : Outcome := .next (effSwitch s)
def execDump (s : State) : Outcome := .next (effDump s)
def execDriveNop (q : BitVec 1) (s : State) : Outcome := .next (effNop rDRIVE q.toNat s)
def execHandoffTimeout (s : State) : Outcome := .next (effHandOffTimeout s)
def execAutoFly (s : State) : Outcome := .next (effAutoFly s)

end Sys2Proof.Machine
end

