-- ==== Sys2Proof/Machine/Cvu.lean ====
section
/-! DEFINITION. Check-Value Units (R508–R523): contexts, verdicts, turns and the hand-off check. -/

namespace Sys2Proof.Machine

def kCH (n off : Nat) : Nat := rk rCVU 1 (0x100 + 0x10 * n + off)
def kCTXSEL : Nat := rk rCVU 2 0x100

def State.cvuCtx (s : State) (c : Nat) : CvuCtx := Sparse.get (fun _ => {}) s.cvu.ctxs c
def State.setCvuCtx (s : State) (c : Nat) (x : CvuCtx) : State :=
  { s with cvu := { s.cvu with ctxs := Sparse.set (fun _ => {}) s.cvu.ctxs c x } }
def State.cvuChan (s : State) (n : Nat) : CvuChan := Sparse.get (fun _ => {}) s.cvu.chans n
def State.setCvuChan (s : State) (n : Nat) (x : CvuChan) : State :=
  { s with cvu := { s.cvu with chans := Sparse.set (fun _ => {}) s.cvu.chans n x } }

def CvuCtx.w (c : CvuCtx) (i : Nat) : Word := c.ws.getD i 0#32
def CvuCtx.alg (c : CvuCtx) : Nat := fieldOf (c.w 0) 1 0
def CvuCtx.mode (c : CvuCtx) : Nat := fieldOf (c.w 0) 3 2
def CvuCtx.expsrc (c : CvuCtx) : Nat := fieldOf (c.w 0) 5 4
def CvuCtx.port (c : CvuCtx) : Nat := fieldOf (c.w 0) 10 6
def CvuCtx.recall (c : CvuCtx) : Bool := flagOf (c.w 0) 11
def CvuCtx.len (c : CvuCtx) : Nat := fieldOf (c.w 4) 24 0
def CvuCtx.tbln (c : CvuCtx) : Nat := fieldOf (c.w 5) 15 0
def CvuCtx.expect (c : CvuCtx) : Nat := (c.w 6).toNat + 2 ^ 32 * (c.w 7).toNat

/-- Ranges and reserved fields of one word (R509, R510). -/
def ctxWordOk (i : Nat) (v : Word) : Bool :=
  if i = 0 then fieldOf v 1 0 != 3 && fieldOf v 3 2 != 3 && fieldOf v 5 4 != 3 && decide (fieldOf v 10 6 ≤ 18) && fieldOf v 31 12 == 0
  else if i = 1 then fieldOf v 31 13 == 0
  else if i = 4 then decide (v.toNat ≤ 16777216)
  else if i = 5 then decide (v.toNat < 65536)
  else true

/-- What a context must meet before a channel runs it: the ranges that depend on MODE and EXPSRC (R509, R510). -/
def CvuCtx.runnable (c : CvuCtx) : Bool :=
  (c.mode == 2 ||
    ((if c.mode = 0 then decide (1 ≤ c.len) else c.len == 0 && c.port != 0) &&
     (if c.expsrc = 1 then decide (1 ≤ c.tbln) && c.expect % 8 == 0 else c.tbln == 0)))

/-- First context and number of contexts of a channel configuration. -/
def cfgFirst (v : Word) : Nat := fieldOf v 7 1
def cfgCount (v : Word) : Nat := fieldOf v 14 8 + 1

def State.cvuOn (s : State) (n : Nat) : Bool := s.flag (kCH n 0) 0
def State.cvuNames (s : State) (n c : Nat) : Bool :=
  let v := s.rd (kCH n 0)
  s.cvuOn n && decide (cfgFirst v ≤ c) && decide (c < cfgFirst v + cfgCount v)

/-- A write through CVU_CTXDATA (R509). -/
def effCtxData (i : Nat) (t : Itag) (v : Word) (s : State) : State :=
  let c := s.fld kCTXSEL 6 0
  if ctxWordOk i v = false ∨ (List.range 32).any (fun n => s.cvuNames n c) = true then s.cfgErr rCVU t
  else s.setCvuCtx c { ws := (s.cvuCtx c).ws.set i v, bad := false }

/-! ### Verdicts (R512–R515) -/

/-- The check value of a frame (R508). -/
def checkValue (alg : Nat) (bs : List Byte) : Nat :=
  if alg = 0 then crc32c bs else if alg = 1 then crc64 bs else fletcher32 bs 0 0

/-- Write a verdict record, or drop it when the ring is full (R515). -/
def State.verdictRecord (s : State) (n ctx : Nat) (pass : Bool) (cause idx_ value : Nat) : State :=
  let size := 2 ^ (s.fld (rk rCVU 2 0x138) 3 0 + 4)
  let wr := s.cvu.wr
  if size ≤ (65536 + wr - s.fld (rk rCVU 2 0x13C) 15 0) % 65536 then s.count rCVU 3
  else
    let ph := if wr / size % 2 = 0 then 1 else 0
    let bytes := leBytes 4 (n + ctx * 2 ^ 5 + (if pass then 2 ^ 12 else 0) + 2 ^ 13 * cause + 2 ^ 16 * ph) ++ leBytes 4 idx_ ++ leBytes 8 value
    let s : State := { s with cvu := { s.cvu with wr := (wr + 1) % 65536 } }
    match s.txWrite (some 0x4B) (s.rd64 (rk rCVU 2 0x130) + wr % size * 16) bytes with
    | (.firewall, s) => s.flushItag 0x4B
    | (_, s) => s

/-- Deliver a verdict: registers, counters, Night Log and record (R513–R515). -/
def State.deliver (s : State) (n ctx cause idx_ value : Nat) (inj : Bool) : State :=
  let pass := cause == 0
  let s := (s.setFlag (kCH n 4) 9 pass).setFld (kCH n 4) 12 10 cause
  let s := s.wr64 (kCH n 8) value
  let s := if cause = 5 then s.count rCVU 2
    else if pass then s
    else ((s.setFlag (kCH n 4) 13 true).count rCVU 1).raise rCVU 16 { always := true, inj := inj, queue := n, index := ctx }
  let s := if cause = 1 then (cvuSpares.fault (s.count rCVU 5) n).2 else s
  if !pass || (s.cvuCtx ctx).recall then s.verdictRecord n ctx pass cause idx_ value else s

/-- The channel enters SWITCH; its context has had one more frame. -/
def State.afterVerdict (s : State) (n ctx : Nat) : State :=
  let x := s.cvuChan n
  let i := Sparse.get (fun _ => 0) x.counts ctx
  (s.setCvuChan n { x with frame := none, counts := Sparse.set (fun _ => 0) x.counts ctx (i + 1), verdictAt := s.now }).setFld (kCH n 4) 1 0 2

/-- Injections of a channel: SELF, an inverted value, an uncorrectable context read (R522). -/
def State.cvuInj (s : State) (n b : Nat) : Bool := s.injArmed rCVU b && s.fld (kEINJ rCVU) 7 3 == n

/-- Read the channel's context; an injected double-bit error disables it (R521). -/
def State.readCtx (s : State) (n ctx : Nat) : CvuCtx × State :=
  if s.cvuInj n 2 then
    let s := ((s.injDone rCVU 2).count rCVU 6).raise rCVU 2 { inj := true, index := ctx }
    let c := { s.cvuCtx ctx with bad := true }
    (c, s.setCvuCtx ctx c)
  else (s.cvuCtx ctx, s)

/-- The expected value of a frame, `none` where its table entry cannot be read (R512). -/
def State.expected (s : State) (c : CvuCtx) (i : Nat) (trailer : Nat) : Option Nat × State :=
  if c.expsrc = 0 then (some c.expect, s)
  else if c.expsrc = 1 then
    match s.txRead (some 0x4B) (c.expect + i % c.tbln * 8) 8 with
    | (.ok bs, s) => (some (leNat bs), s)
    | (.firewall, s) => (none, s.flushItag 0x4B)
    | (_, s) => (none, s)
  else (some trailer, s)

/-- A frame of a context ends (R511–R516): its bytes as snooped, `ending` 0 complete, 1 out of order, 2 incomplete. -/
def effFrameEnd (n ctx : Nat) (data : List Byte) (ending : Nat) (s : State) : State :=
  let cur := s.fld (kCH n 4) 8 2
  if s.pdDown (regionPd rCVU) ∨ s.cvuOn n = false ∨ s.cvuNames n ctx = false ∨ cvuSpares.avail s n = false then s
  else if (s.cvuCtx ctx).mode = 2 then s
  else if s.fld (kCH n 4) 1 0 ≠ 1 ∨ cur ≠ ctx then (if (s.cvuCtx ctx).mode = 1 then s.count rCVU 4 else s)
  else
    let (c, s) := s.readCtx n ctx
    if c.bad then s.afterVerdict n ctx
    else if c.mode = 0 ∧ ending = 0 ∧ data.length ≠ c.len then s
    else
      let i := Sparse.get (fun _ => 0) (s.cvuChan n).counts ctx
      let self := s.cvuInj n 1
      let s := if self then s.injDone rCVU 1 else s
      let tl := if c.expsrc = 2 then (if c.alg = 1 then 8 else 4) else 0
      let short := decide (data.length < tl)
      let body := data.take (data.length - tl)
      let (ex, s) := s.expected c i (leNat (data.drop (data.length - tl)))
      let inv := s.cvuInj n 0
      let s := if inv then s.injDone rCVU 0 else s
      let width := if c.alg = 1 then 64 else 32
      let v := checkValue c.alg body
      let v := if inv then 2 ^ width - 1 - v else v
      let cause := if self then 1
        else match ex with
          | none => 2
          | some e =>
            if ending = 1 then 3 else if short then 4 else if ending = 2 then 5
            else if v = e % 2 ^ width then 0 else 6
      (s.deliver n ctx cause i v (self || inv)).afterVerdict n ctx

/-- The channel advances to its next context, 40 ns after the verdict (R516). -/
def effCtxAdvance (n : Nat) (s : State) : State :=
  if s.fld (kCH n 4) 1 0 ≠ 2 ∨ s.now < (s.cvuChan n).verdictAt + 40 then s
  else
    let v := s.rd (kCH n 0)
    let cur := s.fld (kCH n 4) 8 2
    let next := cfgFirst v + (cur - cfgFirst v + 1) % cfgCount v
    (s.setFld (kCH n 4) 8 2 next).setFld (kCH n 4) 1 0 1

/-- The frame in progress ends with cause ABORT (R517). -/
def State.abortFrame (s : State) (n : Nat) : State :=
  match (s.cvuChan n).frame with
  | none => s
  | some f =>
    let ctx := s.fld (kCH n 4) 8 2
    (s.deliver n ctx 5 (Sparse.get (fun _ => 0) (s.cvuChan n).counts ctx) f.value false).setCvuChan n { s.cvuChan n with frame := none }

/-- A write of CVU_CHn_CFG (R509, R517, R518). -/
def effChCfg (n : Nat) (t : Itag) (v : Word) (s : State) : State :=
  let on := flagOf v 0
  let cs := (List.range (cfgCount v)).map (fun i => s.cvuCtx (cfgFirst v + i))
  if 127 < cfgFirst v + (cfgCount v - 1) then s.cfgErr rCVU t
  else if on ∧ (cs.any (fun c => !c.runnable) = true ∨ (1 < cfgCount v ∧ cs.any (fun c => c.mode == 2) = true)) then s.cfgErr rCVU t
  else
    let old := s.rd (kCH n 0)
    let moved := cfgFirst old != cfgFirst v || cfgCount old != cfgCount v
    let s := if flagOf old 0 && (moved || !on) then s.abortFrame n else s
    let s := s.writeGeneric (kCH n 0) t v
    if on then
      if flagOf old 0 && !moved then s
      else
        let s := if flagOf old 0 then s else s.setCvuChan n {}
        (s.setFld (kCH n 4) 8 2 (cfgFirst v)).setFld (kCH n 4) 1 0 1
    else s.setFld (kCH n 4) 1 0 0

/-! ### The hand-off (R518) -/

/-- One block: its value, and whether it lacks bytes or differs. -/
def State.blockCheck (s : State) (sent : Bool) (buf have_ len crc : Nat) : Option (Nat × Nat) :=
  if sent then
    let v := match s.sramRead (bufOff buf) (Nat.min len have_) with | some bs => crc32c bs | none => 0
    some (v, if have_ < len then 3 else if v = crc then 0 else 6)
  else none

/-- A channel takes the record: the verdict it will deliver, but for injections. -/
def State.captureFrame (s : State) (n : Nat) : State :=
  let ctx := s.fld (kCH n 4) 8 2
  if s.pdDown (regionPd rCVU) ∨ s.cvuOn n = false ∨ s.fld (kCH n 4) 1 0 ≠ 1 ∨ cvuSpares.avail s n = false ∨ (s.cvuCtx ctx).mode ≠ 2 then s
  else
    let (c, s) := s.readCtx n ctx
    if c.bad then s
    else
      match s.sramRead 0x260000 64 with
      | none => s
      | some bs =>
        let w := fun (o : Nat) => leNat ((bs.drop o).take 4)
        let p := s.blockCheck (bitOf (w 0) 2) (s.fld kPLANSTAT 5 4) s.drive.inRxp (bitsOf (w 0x10) 16 0) (w 0x14)
        let f := s.blockCheck (bitOf (w 0) 3) (s.fld kPLANSTAT 7 6) s.drive.inRxf (bitsOf (w 0x18) 16 0) (w 0x1C)
        let causes := ([p, f].filterMap id).map (fun x => x.2)
        let cause := if causes.contains 3 then 3 else if causes.contains 6 then 6 else 0
        let value := match p, f with | some x, _ => x.1 | none, some x => x.1 | none, none => 0
        s.setCvuChan n { s.cvuChan n with frame := some { value := value, cause := cause } }

/-- The hand-off record's last byte arrives at the Clock Drive SRAM (R489, R518). -/
def effHandOffRecord (s : State) : State :=
  if s.drive.arrived = false then s
  else
    let s := (List.range 32).foldl (fun s n => s.captureFrame n) s
    let s := s.takeRecord
    { s with drive := { s.drive with inRxp := 0, inRxf := 0 } }

/-- A channel delivers the verdict of a hand-off; the Clock Drive listens to the channel in DRIVE_HOCVU (R489, R518). -/
def effHandOffVerdict (n : Nat) (s : State) : State :=
  match (s.cvuChan n).frame with
  | none => s
  | some f =>
    let ctx := s.fld (kCH n 4) 8 2
    let self := s.cvuInj n 1
    let s := if self then s.injDone rCVU 1 else s
    let inv := s.cvuInj n 0
    let s := if inv then s.injDone rCVU 0 else s
    let v := if inv then 2 ^ 32 - 1 - f.value % 2 ^ 32 else f.value
    let cause := if self then 1 else if f.cause = 3 then 3 else if inv then 6 else f.cause
    let i := Sparse.get (fun _ => 0) (s.cvuChan n).counts ctx
    let s := (s.deliver n ctx cause i v (self || inv)).afterVerdict n ctx
    if s.fld (rk rDRIVE 1 0x114) 4 0 = n then s.handOffVerdict (cause == 0) else s

def execCvuFrameEnd (ch : BitVec 5) (ctx : BitVec 7) (data : List Byte) (ending : BitVec 2) (s : State) : Outcome :=
  if ending = 3 then .refused (.illFormed "CVU_FRAME_END") else .next (effFrameEnd ch.toNat ctx.toNat data ending.toNat s)
def execCvuContextAdvance (ch : BitVec 5) (s : State) : Outcome := .next (effCtxAdvance ch.toNat s)
def execHandoffRecord (s : State) : Outcome := .next (effHandOffRecord s)
def execHandoffVerdict (ch : BitVec 5) (s : State) : Outcome := .next (effHandOffVerdict ch.toNat s)

end Sys2Proof.Machine
end

