-- ==== Sys2Proof/Machine/Trig.lean ====
section
/-! DEFINITION. Correctly rounded FP32 sine and cosine (R412), in fixed point of 640 fraction bits, and FP32 operations that
carry their numeric flags along. -/

namespace Sys2Proof.Machine

def trigBits : Nat := 640
/-- ⌊π · 2^640⌋. -/
def piFix : Nat :=
  14333329926761567455775730701799299831126131522901418329710873694248203755857903894978459978948837038337184470360789102305252273090192709030764248428292776480232102476327552185579501988876367276

/-- Terms of a Taylor series: each next term is −t · r² / (n (n + 1)). -/
def taylor (r2 : Int) : Nat → Int → Int → Int → Int
  | 0, _, _, acc => acc
  | fuel + 1, n, t, acc =>
    let t := -(t * r2 / 2 ^ trigBits) / (n * (n + 1))
    taylor r2 fuel (n + 2) t (acc + t)

def sinFix (r : Int) : Int := taylor (r * r / 2 ^ trigBits) 80 2 r r
def cosFix (r : Int) : Int := taylor (r * r / 2 ^ trigBits) 80 1 (2 ^ trigBits) (2 ^ trigBits)

/-- Sine of a positive magnitude `m * 2^e`, `cos` selecting the cosine: quadrant and remainder by π/2. -/
def trigFix (m : Nat) (e : Int) (cos : Bool) : Int :=
  let x : Nat := m * 2 ^ (e + trigBits).toNat
  let h := piFix / 2
  let k := (x + h / 2) / h
  let r : Int := (x : Int) - (k : Int) * (h : Int)
  match (k + if cos then 1 else 0) % 4 with
  | 0 => sinFix r
  | 1 => cosFix r
  | 2 => -sinFix r
  | _ => -cosFix r

def fcos (a : Word) : Word × Numf :=
  match f32 a with
  | .nan => nanOut true
  | .inf _ => nanOut false
  | .num _ m e =>
    if m = 0 then (f1, 0)
    else
      let z := trigFix m e true
      toF32 (.num (decide (z < 0)) z.natAbs (-(trigBits : Int))) true

def fsin (a : Word) : Word × Numf :=
  match f32 a with
  | .nan => nanOut true
  | .inf _ => nanOut false
  | .num n m e =>
    if m = 0 then (a, 0)
    else
      let z := trigFix m e false
      toF32 (.num (decide (z < 0) != n) z.natAbs (-(trigBits : Int))) true

/-- A word with the numeric flags raised on the way to it. -/
abbrev Fl := Word × Numf

def fl (w : Word) : Fl := (w, 0)
def Fl.op1 (f : Word → Fl) (a : Fl) : Fl := let r := f a.1; (r.1, a.2 ||| r.2)
def Fl.op2 (f : Word → Word → Fl) (a b : Fl) : Fl := let r := f a.1 b.1; (r.1, a.2 ||| b.2 ||| r.2)
def addF (a b : Fl) : Fl := Fl.op2 fadd a b
def subF (a b : Fl) : Fl := Fl.op2 fsub a b
def mulF (a b : Fl) : Fl := Fl.op2 fmul a b
def divF (a b : Fl) : Fl := Fl.op2 fdiv a b
def maxF (a b : Fl) : Fl := Fl.op2 fmax a b
def fmaF (a b c : Fl) : Fl := let r := ffma a.1 b.1 c.1; (r.1, a.2 ||| b.2 ||| c.2 ||| r.2)
def negF (a : Fl) : Fl := (fneg a.1, a.2)
def sqrtF (a : Fl) : Fl := Fl.op1 fsqrt a
/-- The lesser of two values. -/
def minF (a b : Fl) : Fl := negF (maxF (negF a) (negF b))

end Sys2Proof.Machine
end

