-- ==== Sys2Proof/Machine/Occ.lean ====
section
/-! DEFINITION. The Occultation Unit (R405–R442): Chart epochs, body models, swept volumes and their tests, CHECK, SELECT
with its hand-off, and SEED. -/

namespace Sys2Proof.Machine

/-! ### Charts (R405–R408) -/

def popcount8 (m : Nat) : Nat := ((List.range 8).filter (fun i => bitOf m i)).length

def nodesOf : Nat → List Byte → List ChartNode
  | 0, _ => []
  | n + 1, bs =>
    let w := fun (o k : Nat) => leNat ((bs.drop o).take k)
    { mask := w 0 8, child := bitsOf (w 8 4) 20 0, cmap := bitsOf (w 8 4) 31 24, level := bitsOf (w 12 4) 2 0 } ::
      nodesOf n (bs.drop 16)

/-- Reserved bits of the node records. -/
def nodesClean : Nat → List Byte → Bool
  | 0, _ => true
  | n + 1, bs =>
    bitsOf (leNat ((bs.drop 8).take 4)) 23 21 == 0 && bitsOf (leNat ((bs.drop 12).take 4)) 31 3 == 0 && nodesClean n (bs.drop 16)

def Chart.node (c : Chart) (i : Nat) : ChartNode := c.nodes.getD i { mask := 0, child := 0, cmap := 0, level := 0 }

/-- The children of node `i`, with their octants, in ascending octant order (R407). -/
def ChartNode.children (n : ChartNode) : List (Nat × Nat) :=
  ((List.range 8).filter (fun o => bitOf n.cmap o)).map (fun o => (o, n.child + popcount8 (n.cmap % 2 ^ o)))

/-- The checks of R408 on one node. -/
def Chart.nodeOk (c : Chart) (i : Nat) : Bool :=
  let n := c.node i
  if n.cmap = 0 then n.child == 0
  else
    n.level != 7 && decide (i < n.child) && decide (n.child + popcount8 n.cmap ≤ c.nodes.length) &&
    n.children.all (fun x => (c.node x.2).level == n.level + 1 && Nat.land n.mask (c.node x.2).mask == (c.node x.2).mask)

/-- A whole image, as R406 lays it out; `none` where a check of R408 on the image alone fails. -/
def chartOf (n : Nat) (bs : List Byte) : Option Chart :=
  let w := fun (o k : Nat) => leNat ((bs.drop o).take k)
  let len := 0x1040 + 16 * n
  let corner := (BitVec.ofNat 32 (w 0x10 4), BitVec.ofNat 32 (w 0x14 4), BitVec.ofNat 32 (w 0x18 4))
  let cols := (wordsOf ((bs.drop 0x40).take 0x1000)).map (fun x => x.toNat)
  let c : Chart := { t0 := w 8 8, corner := corner, source := w 0x1C 2, cols := cols, nodes := nodesOf n (bs.drop 0x1040) }
  if w 0 2 ≠ 1 ∨ w 2 2 ≠ 0 ∨ bitsOf (w 4 4) 31 21 ≠ 0 ∨ w 0x1E 2 ≠ 0 ∨ w 0x20 0x20 ≠ 0 ∨ w len 4 ≠ crc32c (bs.take len) ∨
      (isFin corner.1 && isFin corner.2.1 && isFin corner.2.2) = false ∨ nodesClean n (bs.drop 0x1040) = false ∨
      cols.all (fun x => x == 0xFFFFFFFF || (decide (x < n) && (c.node x).level == 0)) = false ∨
      (List.range n).all c.nodeOk = false then none
  else some c

/-! ### The unit's state and its registers -/

def State.slot_ (s : State) (k : Nat) : ChartSlot := Sparse.get (fun _ => {}) s.occ.slots k
def State.setSlot_ (s : State) (k : Nat) (x : ChartSlot) : State :=
  { s with occ := { s.occ with slots := Sparse.set (fun _ => {}) s.occ.slots k x } }
/-- The slot of the current epoch. -/
def State.curSlot (s : State) : Option Nat := (List.range 3).find? (fun k => (s.slot_ k).st == 2)
def State.bodyModel (s : State) (m : Nat) : Option Body := Sparse.get (fun _ => none) s.occ.bodies m

def Traj.cid (t : Traj) : Nat := fieldOf (t.words.headD 0#32) 10 0
def cidOf (t : Option Traj) : Nat := match t with | some t => t.cid | none => 0x7FF

/-- What OCC's registers show (R442). -/
def State.showOcc (s : State) : State :=
  let s := (List.range 3).foldl (fun (s : State) k =>
    s.wr (rk rOCC 1 (0x110 + 4 * k)) (BitVec.ofNat 32 ((s.slot_ k).st + (s.slot_ k).nodes * 8))) s
  let cur := s.curSlot
  let x := match cur with | some k => s.slot_ k | none => {}
  let (t0, src) := match x.chart with | some c => (c.t0, c.source) | none => (0, 0)
  let s := s.wr (rk rOCC 1 0x100) (BitVec.ofNat 32 x.epoch)
  let s := s.wr (rk rOCC 1 0x104)
    (BitVec.ofNat 32 (cur.getD (s.fld (rk rOCC 1 0x104) 1 0) + (if cur.isSome then 4 else 0) + 2 ^ 16 * src))
  let s := s.wr64 (rk rOCC 1 0x120) t0
  let s := (s.setFlag (kSTAT rOCC) 16 s.occ.load.isSome).setFlag (kSTAT rOCC) 17 s.occ.run.isSome
  let s := ((s.setFlag (kSTAT rOCC) 18 s.occ.wait.isSome).setFlag (kSTAT rOCC) 19 s.occ.plan.isSome).setFlag (kSTAT rOCC) 20 s.occ.fb.isSome
  let s := s.wr (rk rOCC 2 0x11C) (BitVec.ofNat 32 ((if s.occ.plan.isSome then 1 else 0) + (if s.occ.fb.isSome then 2 else 0) +
    cidOf s.occ.plan * 4 + 2 ^ 13 * cidOf s.occ.fb))
  let s := s.wr (rk rOCC 2 0x120) (BitVec.ofNat 32 (match s.occ.plan with | some t => t.epoch | none => 0))
  s.wr (rk rOCC 2 0x124)
    (BitVec.ofNat 32 (((List.range 8).filter (fun m => (s.bodyModel m).isSome)).foldl (fun a m => a + 2 ^ m) 0))

/-- A descriptor that was bound to slot `k` has ended (R409). -/
def State.unbind (s : State) (k : Option Nat) : State :=
  match k with
  | none => s
  | some k => if (s.slot_ k).st = 3 ∨ (s.slot_ k).st = 4 then s.setSlot_ k {} else s

def State.occEndRun (s : State) : State :=
  match s.occ.run with
  | none => s
  | some r => ({ s with occ := { s.occ with run := none } } : State).unbind r.slot

/-- Is the operation of an index still to have a status? -/
def State.opAlive (s : State) (region q index : Nat) : Bool :=
  match s.findOp region q index with | some o => o.status.isNone | none => false

/-- Descriptors that a freeze has ended no longer execute (R535). -/
def State.dropDeadOcc (s : State) : State :=
  let s := match s.occ.load with
    | some l => if s.opAlive rOCC l.queue l.index then s else { s.setSlot_ l.slot {} with occ := { (s.setSlot_ l.slot {}).occ with load := none } }
    | none => s
  let s := match s.occ.run with | some r => if s.opAlive rOCC r.queue r.index then s else s.occEndRun | none => s
  s.showOcc

/-! ### Engines (R420) -/

def occLoader (o : Op) : Bool := o.opcode == 1

/-- Is an engine executing a descriptor? A SELECT whose hand-off awaits its report has left the checker (R434). -/
def State.occBusy (s : State) (loader : Bool) : Bool :=
  s.queues.any (fun e => e.1 / 4096 == rOCC && e.2.ops.any (fun o => o.started && o.status.isNone && occLoader o == loader &&
    (match s.occ.wait with | some w => !(w.queue == e.1 % 4096 && w.index == o.index) | none => true)))

/-- Which operations an engine could start now (R420, R435). -/
def State.occFits (s : State) (loader : Bool) (o : Op) : Bool :=
  occLoader o == loader && (o.opcode != 0x11 || s.occ.wait.isNone)

def State.occNext (s : State) (q opcode : Nat) : Option Op :=
  let loader := opcode == 1
  if s.occBusy loader ∨ s.pickWhere rOCC (s.occFits loader) ≠ some q then none
  else (s.nextOp rOCC q).filter (fun o => o.opcode == opcode)

def State.occStart (s : State) (q : Nat) (o : Op) : State :=
  let tcc := s.relaxedWhere rOCC q (s.occFits (occLoader o))
  let s := if tcc then s.countTcc rOCC else s
  (s.start rOCC q o).mapOp rOCC q o.index (fun o => { o with tcc := tcc })

def occNs (cyc : Nat) : Nat := 2 * cyc
def zeroWords (o : Op) (from_ : Nat) : Bool := (o.words.drop from_).all (fun w => w == 0#32)

/-- Set a descriptor running: it ends with its cycles, or at the watchdog (R429). -/
def State.setOccRun (s : State) (r : OccRun) : State :=
  let total := match r.cut with | some c => Nat.min c (r.cycles + r.slow) | none => r.cycles + r.slow
  let cyc := if r.wcet ≠ 0 ∧ r.wcet < total then r.wcet else total
  let s : State := { s with occ := { s.occ with run := some r } }
  (s.mapOp rOCC r.queue r.index (fun o => if o.status.isSome then o else { o with readyAt := r.start + occNs cyc })).showOcc

/-! ### INSTALL (R408, R409) -/

/-- A refused INSTALL: its slot is FREE again. -/
def State.rejectInstall (s : State) (q index st : Nat) (after : Nat) : State :=
  ((s.count rOCC 2).raise rOCC 16 { queue := q, index := index }).conclude rOCC q index st 0 after

def effOccInstall (q : Nat) (s : State) : State :=
  let s := s.dropDeadOcc
  match s.occNext q 1, (List.range 3).find? (fun k => (s.slot_ k).st == 0) with
  | some o, some k =>
    let s := s.occStart q o
    let a := o.addr 0x18
    let viol := some (rOCC, q, o.index)
    if a % 64 ≠ 0 ∨ o.word 4 ≠ 0#32 ∨ o.word 5 ≠ 0#32 ∨ zeroWords o 8 = false then s.conclude rOCC q o.index stREJ_FORMAT
    else
      match s.txRead (some 0x49) a 64 viol with
      | (.ok h, s) =>
        let n := bitsOf (leNat ((h.drop 4).take 4)) 20 0
        let after := occNs (1200 + ceilDiv n 8)
        if 1048576 < n then s.rejectInstall q o.index stREJ_LIMIT after
        else if n = 0 then s.rejectInstall q o.index stREJ_FORMAT after
        else
          match s.txRead (some 0x49) a (0x1044 + 16 * n) viol with
          | (.ok bs, s) =>
            match chartOf n bs with
            | none => s.rejectInstall q o.index stREJ_FORMAT after
            | some c =>
              let s := (s.setSlot_ k { st := 1 }).conclude rOCC q o.index stDONE 0 after
              ({ s with occ := { s.occ with load := some { queue := q, index := o.index, slot := k, chart := c } } } : State).showOcc
          | (.firewall, s) => s.flushItag 0x49
          | (tx, s) => s.conclude rOCC q o.index tx.status
      | (.firewall, s) => s.flushItag 0x49
      | (tx, s) => s.conclude rOCC q o.index tx.status
  | _, _ => s

/-- An INSTALL ends: the slot becomes CURRENT and the epoch before it BOUND or FREE, unless its T0 is not later. -/
def State.installDone (s : State) (l : OccLoad) : State :=
  let s : State := { s with occ := { s.occ with load := none } }
  let cur := s.curSlot
  let late := match cur with
    | some k => (match (s.slot_ k).chart with | some c => decide (l.chart.t0 ≤ c.t0) | none => false)
    | none => false
  if late then
    let s := ((s.setSlot_ l.slot {}).count rOCC 2).raise rOCC 16 { queue := l.queue, index := l.index }
    (s.showOcc).finish rOCC l.queue l.index stREJ_FORMAT
  else
    let s := match cur with
      | some k =>
        let bound := match s.occ.run with | some r => r.slot == some k | none => false
        if bound then s.setSlot_ k { s.slot_ k with st := 3 } else s.setSlot_ k {}
      | none => s
    let e := s.occ.epoch + 1
    let s : State := { s with occ := { s.occ with epoch := e } }
    let s := s.setSlot_ l.slot { st := 2, epoch := e, nodes := l.chart.nodes.length, chart := some l.chart }
    (s.showOcc).finish rOCC l.queue l.index stDONE

/-! ### BODY (R411) -/

def bodyOf (bs : List Byte) : Body :=
  let ws := wordsOf bs
  let a := ws.headD 0#32
  { sub := fieldOf a 8 4, infl := ws.getD 1 0#32,
    caps := (List.range (fieldOf a 3 0 + 1)).map (fun c => (ws.drop (16 + 8 * c)).take 7) }

/-- The status of a BODY image: 0 where it loads. -/
def bodyStatus (bs : List Byte) : Nat :=
  let ws := wordsOf bs
  let a := ws.headD 0#32
  let n := fieldOf a 3 0 + 1
  let b := bodyOf bs
  if fieldOf a 31 9 ≠ 0 ∨ ((ws.drop 2).take 14).any (fun w => w != 0#32) = true ∨ finiteNonneg b.infl = false ∨
      b.caps.any (fun c => !allFin c || !finiteNonneg (c.getD 6 0#32)) = true ∨
      (List.range n).any (fun c => ws.getD (16 + 8 * c + 7) 0#32 != 0#32) = true then stREJ_FORMAT
  else if b.sub = 0 ∨ 16 < b.sub ∨ 64 < n * b.sub then stREJ_LIMIT
  else 0

def effOccBody (q : Nat) (s : State) : State :=
  let s := s.dropDeadOcc
  match s.occNext q 2 with
  | none => s
  | some o =>
    let s := s.occStart q o
    let a := o.addr 0x18
    let viol := some (rOCC, q, o.index)
    if a % 64 ≠ 0 ∨ o.fld 0x10 31 3 ≠ 0 ∨ o.word 5 ≠ 0#32 ∨ zeroWords o 8 = false then s.conclude rOCC q o.index stREJ_FORMAT
    else
      match s.txRead (some 0x49) a 64 viol with
      | (.ok h, s) =>
        match s.txRead (some 0x49) a (64 + 32 * (bitsOf (leNat (h.take 4)) 3 0 + 1)) viol with
        | (.ok bs, s) =>
          let st := bodyStatus bs
          if st ≠ 0 then s.conclude rOCC q o.index st 0 (occNs 100)
          else
            let s := s.conclude rOCC q o.index stDONE
            s.setOccRun { queue := q, index := o.index, start := s.now, cycles := 100, body := some (o.fld 0x10 2 0, bodyOf bs) }
        | (.firewall, s) => s.flushItag 0x49
        | (tx, s) => s.conclude rOCC q o.index tx.status
      | (.firewall, s) => s.flushItag 0x49
      | (tx, s) => s.conclude rOCC q o.index tx.status

def effOccNop (q : Nat) (s : State) : State :=
  let s := s.dropDeadOcc
  match s.occNext q 3 with
  | none => s
  | some o => (s.occStart q o).finish rOCC q o.index stDONE

/-! ### Candidates and poses (R412, R422) -/

def cWord (ws : List Word) (off : Nat) : Word := ws.getD (off / 4) 0#32
def cFld (ws : List Word) (off hi lo : Nat) : Nat := fieldOf (cWord ws off) hi lo
def cAddr (ws : List Word) (off : Nat) : Nat := (cWord ws off).toNat + 2 ^ 32 * (cWord ws (off + 4)).toNat
def cNk (ws : List Word) : Nat := cFld ws 0 21 16 + 1
def cKt0 (ws : List Word) : Nat := cAddr ws 0x10
def cKdt (ws : List Word) : Nat := (cWord ws 0x18).toNat
def cEnd (ws : List Word) : Nat := cKt0 ws + (cNk ws - 1) * cKdt ws
def cSplen (ws : List Word) : Nat := cFld ws 0x28 16 0

/-- Does a candidate record keep R422? -/
def candOk (ws : List Word) : Bool :=
  !flagOf (cWord ws 0) 15 && cFld ws 0 31 22 == 0 && isFin (cWord ws 4) && cAddr ws 8 % 16 == 0 &&
  decide (1000000 ≤ cKdt ws) && decide (cKdt ws ≤ 1000000000) && cAddr ws 0x20 % 64 == 0 && cFld ws 0x28 31 17 == 0 &&
  decide (64 ≤ cSplen ws) && decide (cSplen ws ≤ 65536) && cSplen ws % 64 == 0 && (ws.drop 12).all (fun w => w == 0#32)

def knotsBad (ks : List Word) : Bool :=
  (List.range (ks.length / 4)).any (fun k =>
    !(isFin (ks.getD (4 * k) 0#32) && isFin (ks.getD (4 * k + 1) 0#32) && isFin (ks.getD (4 * k + 2) 0#32)) ||
    ks.getD (4 * k + 3) 0#32 != 0#32)

def fPI : Word := 0x40490FDB#32
def fTwoPI : Word := 0x40C90FDB#32

/-- A difference of angles brought into ±π (R412). -/
def wrapYaw (d : Fl) : Fl :=
  if flt fPI d.1 then subF d (fl fTwoPI) else if flt d.1 (fneg fPI) then addF d (fl fTwoPI) else d

/-- A pose: x, y, yaw. -/
structure Pose where
  x : Fl
  y : Fl
  yaw : Fl

/-- The pose of R412 at a timebase time. -/
def poseAt (ws ks : List Word) (t : Nat) : Pose :=
  let nk := cNk ws
  let kt0 := cKt0 ws
  let kdt := cKdt ws
  let (k, f) := if t ≤ kt0 then (0, 0#32) else if cEnd ws ≤ t then (nk - 1, 0#32)
    else ((t - kt0) / kdt, fracF32 ((t - kt0) % kdt) kdt)
  let k1 := Nat.min (k + 1) (nk - 1)
  let g := fun (i c : Nat) => fl (ks.getD (4 * i + c) 0#32)
  let d := wrapYaw (subF (g k1 2) (g k 2))
  { x := fmaF (fl f) (subF (g k1 0) (g k 0)) (g k 0), y := fmaF (fl f) (subF (g k1 1) (g k 1)) (g k 1), yaw := fmaF (fl f) d (g k 2) }

/-- A point of three flagged words. -/
structure V3 where
  x : Fl
  y : Fl
  z : Fl

/-- A body point in the plan frame. -/
def Pose.place (p : Pose) (zb bx by_ bz : Word) : V3 :=
  let c := Fl.op1 fcos p.yaw
  let s := Fl.op1 fsin p.yaw
  { x := fmaF (negF s) (fl by_) (fmaF c (fl bx) p.x), y := fmaF c (fl by_) (fmaF s (fl bx) p.y), z := addF (fl zb) (fl bz) }

/-- Planar distance (R140: each step rounded). -/
def planar (a b : V3) : Fl :=
  let dx := subF b.x a.x
  let dy := subF b.y a.y
  sqrtF (fmaF dy dy (mulF dx dx))

/-! ### The test of one capsule (R415–R417) -/

def V3.sub (a b : V3) : V3 := { x := subF a.x b.x, y := subF a.y b.y, z := subF a.z b.z }
def V3.dot (a b : V3) : Fl := fmaF a.z b.z (fmaF a.y b.y (mulF a.x b.x))
def V3.nf (a : V3) : Numf := a.x.2 ||| a.y.2 ||| a.z.2

/-- A swept capsule in leaf units. -/
structure Capsule where
  a : V3
  b : V3
  rho : Fl

/-- HD[L]: the FP32 value nearest to 2^(7 − L) · √3 / 2. -/
def halfDiag (level : Nat) : Word := BitVec.ofNat 32 (0x3F5DB3D7 + 2 ^ 23 * (7 - level))

def coord (n : Nat) : Fl := fl (intToF32 (n : Int))

/-- One axis of the slab test: the interval of the segment inside, and whether the axis excludes it. -/
def slabAxis (acc : Fl × Fl × Bool × Numf) (ax : Fl × Fl × Fl × Fl) : Fl × Fl × Bool × Numf :=
  let (tmin, tmax, ok, nf) := acc
  let (a, b, lo, hi) := ax
  let dd := subF b a
  if fabs dd.1 = 0#32 then (tmin, tmax, ok && !(flt a.1 lo.1 || flt hi.1 a.1), nf ||| dd.2 ||| lo.2 ||| hi.2)
  else
    let t1 := divF (subF lo a) dd
    let t2 := divF (subF hi a) dd
    let (u, v) := if flt t2.1 t1.1 then (t2, t1) else (t1, t2)
    (maxF tmin u, minF tmax v, ok, nf ||| t1.2 ||| t2.2)

def Capsule.slab (c : Capsule) (lo : Nat × Nat × Nat) (size : Nat) : Bool × Numf :=
  let edge := fun (n : Nat) => (subF (coord n) c.rho, addF (coord (n + size)) c.rho)
  let axes := [(c.a.x, c.b.x, edge lo.1), (c.a.y, c.b.y, edge lo.2.1), (c.a.z, c.b.z, edge lo.2.2)]
  let r := axes.foldl slabAxis (fl 0#32, fl f1, true, 0)
  (r.2.2.1 && !flt r.2.1.1 r.1.1, r.2.2.2 ||| r.1.2 ||| r.2.1.2)

/-- Squared distance from the node's centre to the segment. -/
def Capsule.dist2 (c : Capsule) (lo : Nat × Nat × Nat) (size : Nat) : Fl :=
  let mid := fun (n : Nat) => fl (toF32 (.num false (2 * n + size) (-1))).1
  let C : V3 := { x := mid lo.1, y := mid lo.2.1, z := mid lo.2.2 }
  let d := c.b.sub c.a
  let q := d.dot d
  let t := if fabs q.1 = 0#32 then (0#32, q.2) else minF (maxF (divF ((C.sub c.a).dot d) q) (fl 0#32)) (fl f1)
  let e : V3 := { x := subF (fmaF t d.x c.a.x) C.x, y := subF (fmaF t d.y c.a.y) C.y, z := subF (fmaF t d.z c.a.z) C.z }
  e.dot e

/-- How far the walk of a capsule has come: result (0 a miss, 1 a hit, 2 TCAP), tests, flags. -/
structure OccWalk where
  res : Nat := 0
  tests : Nat := 0
  numf : Numf := 0

/-- node_test of R416; `fuel` bounds the levels. -/
def nodeTest (ch : Chart) (slice tmax : Nat) (c : Capsule) : Nat → Nat → Nat × Nat × Nat → Nat → OccWalk → OccWalk
  | 0, _, _, _, w => w
  | fuel + 1, i, lo, size, w =>
    if w.tests = tmax then { w with res := 2 }
    else
      let w := { w with tests := w.tests + 1 }
      let n := ch.node i
      if bitOf n.mask slice = false then w
      else
        let (inside, nf) := c.slab lo size
        let w := { w with numf := w.numf ||| nf }
        if inside = false then w
        else if n.cmap = 0 then
          let d := c.dist2 lo size
          let r := addF c.rho (fl (halfDiag n.level))
          let r2 := mulF r r
          { w with res := if fle d.1 r2.1 then 1 else 0, numf := w.numf ||| d.2 ||| r2.2 }
        else
          let h := size / 2
          n.children.foldl (fun (w : OccWalk) x =>
            if w.res ≠ 0 then w
            else
              let at_ := (lo.1 + (if bitOf x.1 0 then h else 0), lo.2.1 + (if bitOf x.1 1 then h else 0),
                          lo.2.2 + (if bitOf x.1 2 then h else 0))
              nodeTest ch slice tmax c fuel x.2 at_ h w) w

/-- The box of R415: low and high corner. -/
def Capsule.box (c : Capsule) : V3 × V3 :=
  ({ x := subF (minF c.a.x c.b.x) c.rho, y := subF (minF c.a.y c.b.y) c.rho, z := subF (minF c.a.z c.b.z) c.rho },
   { x := addF (maxF c.a.x c.b.x) c.rho, y := addF (maxF c.a.y c.b.y) c.rho, z := addF (maxF c.a.z c.b.z) c.rho })

def within (lo hi : Fl) (top : Nat) : Bool := fle 0#32 lo.1 && fle hi.1 (coord top).1

/-- Does a capsule's box stay inside the Chart? -/
def Capsule.inside (c : Capsule) : Bool :=
  let (lo, hi) := c.box
  within lo.x hi.x 4096 && within lo.y hi.y 4096 && within lo.z hi.z 128

/-- The columns that a capsule walks, in ascending index. -/
def Capsule.columns (c : Capsule) (ch : Chart) : List Nat :=
  let (lo, hi) := c.box
  let meets := fun (lo hi : Fl) (i : Nat) => fle lo.1 (coord (128 * (i + 1))).1 && fle (coord (128 * i)).1 hi.1
  (List.range 1024).filter (fun k => ch.cols.getD k 0xFFFFFFFF != 0xFFFFFFFF && meets lo.x hi.x (k % 32) && meets lo.y hi.y (k / 32))

/-- OccWalk every column. -/
def Capsule.walk (c : Capsule) (ch : Chart) (slice tmax : Nat) : OccWalk :=
  (c.columns ch).foldl (fun (w : OccWalk) k =>
    if w.res ≠ 0 then w else nodeTest ch slice tmax c 8 (ch.cols.getD k 0) (128 * (k % 32), 128 * (k / 32), 0) 128 w) {}

/-! ### The test of one candidate (R413, R414, R417) -/

/-- Where body capsule `cap` stands in leaf units. -/
def Body.capsule (b : Body) (ch : Chart) (zb : Word) (p0 pm pp : Pose) (cap : List Word) : Capsule :=
  let w := fun (i : Nat) => cap.getD i 0#32
  let a := fun (p : Pose) => p.place zb (w 0) (w 1) (w 2)
  let e := fun (p : Pose) => p.place zb (w 3) (w 4) (w 5)
  let m := maxF (maxF (planar (a p0) (a pm)) (planar (a p0) (a pp))) (maxF (planar (e p0) (e pm)) (planar (e p0) (e pp)))
  let r := addF (addF (fl (w 6)) (fl b.infl)) m
  let ten := fl 0x41200000#32
  let unit := fun (v : V3) => ({ x := mulF (subF v.x (fl ch.corner.1)) ten, y := mulF (subF v.y (fl ch.corner.2.1)) ten,
                                 z := mulF (subF v.z (fl ch.corner.2.2)) ten } : V3)
  { a := unit (a p0), b := unit (e p0), rho := mulF r ten }

/-- The test of one placed capsule: the candidate so far, and whether an injection still waits. -/
def testCapsule (ch : Chart) (slice tmax t at_ : Nat) (c : Capsule) (acc : CandOut × Bool) : CandOut × Bool :=
  let (o, inj) := acc
  if o.hit then acc
  else
    let o := { o with placed := o.placed + 1, numf := o.numf ||| c.a.nf ||| c.b.nf ||| c.rho.2 }
    let stop := fun (o : CandOut) => { o with hit := true, hitSlice := slice, hitCap := at_, hitT := t }
    if c.inside = false then (stop { o with out := true }, inj)
    else if inj then (stop { o with tcap := true }, false)
    else
      let w := c.walk ch slice tmax
      let o := { o with tests := o.tests + w.tests, numf := o.numf ||| w.numf }
      if w.res = 0 then (o, false) else (stop { o with tcap := w.res == 2 }, false)

/-- One placement: every body capsule in turn. -/
def testPlacement (ch : Chart) (b : Body) (ws ks : List Word) (tmax slice j : Nat) (acc : CandOut × Bool) : CandOut × Bool :=
  if acc.1.hit then acc
  else
    let h := 50000000 / b.sub
    let t := ch.t0 + 100000000 * slice + (2 * j + 1) * h
    let p0 := poseAt ws ks t
    let pm := poseAt ws ks (t - h)
    let pp := poseAt ws ks (t + h)
    let d := wrapYaw (subF pp.yaw pm.yaw)
    let bad := flt fHalf (fabs d.1)
    let o := { acc.1 with badSweep := acc.1.badSweep || bad,
                          numf := acc.1.numf ||| d.2 ||| p0.x.2 ||| p0.y.2 ||| p0.yaw.2 }
    (List.range b.caps.length).foldl (fun acc c =>
      testCapsule ch slice tmax t (j * b.caps.length + c) (b.capsule ch (cWord ws 0x1C) p0 pm pp (b.caps.getD c [])) acc) (o, acc.2)

/-- The sub-intervals that R413 has tested. -/
def testedPlaces (ch : Chart) (b : Body) (ws : List Word) (start : Nat) : List (Nat × Nat) :=
  let h := 50000000 / b.sub
  (List.range 64).flatMap (fun sl => ((List.range b.sub).filter (fun j =>
    let t := ch.t0 + 100000000 * sl + (2 * j + 1) * h
    decide (start < t + h) && decide (t - h < cEnd ws))).map (fun j => (sl, j)))

/-- Test a candidate against a Chart. `inj` takes the next capsule that walks the tree as one that reaches TMAX (R441). -/
def testCand (ch : Chart) (b : Body) (ws ks : List Word) (start tmax : Nat) (inj : Bool) : CandOut × Bool :=
  let places := testedPlaces ch b ws start
  let bad := knotsBad ks
  let o : CandOut := { words := ws, badKnot := bad, notest := places.isEmpty, hbeyond := decide (6400000000 + ch.t0 < cEnd ws),
                       numf := if bad then nfNanIn else 0 }
  places.foldl (fun acc p => testPlacement ch b ws ks tmax p.1 p.2 acc) (o, inj)

def CandOut.clear (o : CandOut) : Bool := !(o.hit || o.out || o.badSweep || o.badKnot || o.tcap || o.notest || o.noepoch)
def CandOut.cid (o : CandOut) : Nat := cFld o.words 0 10 0
def testCycles (tests placed : Nat) : Nat := Nat.max (ceilDiv tests 8) (ceilDiv placed 4)

/-! ### CHECK (R421–R426) -/

/-- The cycle at which each candidate is complete (log 56): the formula of R428 over the candidates so far. -/
def doneCycles (base : Nat) (outs : List CandOut) : List Nat :=
  (outs.foldl (fun (acc : List Nat × Nat × Nat) o =>
    let t := acc.2.1 + o.tests
    let g := acc.2.2 + o.placed
    (acc.1 ++ [base + testCycles t g], t, g)) ([], 0, 0)).1

def statusOfCand (o : CandOut) : Nat := if o.tcap || o.badKnot then stDONE_DEGRADED else stDONE

/-- A 32-byte result record (R424). -/
def resultRecord (o : CandOut) (st : Nat) (clear : Bool) (epoch step tests : Nat) : List Byte :=
  let b := fun (x : Bool) (i : Nat) => if x then 2 ^ i else 0
  leBytes 4 (st + b clear 8 + b o.out 9 + b o.badSweep 10 + b o.badKnot 11 + b o.tcap 12 + b o.notest 13 + b o.hbeyond 14 +
    b o.noepoch 15 + 2 ^ 16 * o.cid) ++
  leBytes 4 epoch ++ leBytes 4 (o.hitSlice + o.hitCap * 2 ^ 8) ++ leBytes 4 tests ++ leBytes 8 o.hitT ++
  leBytes 4 (cWord o.words 4).toNat ++ leBytes 4 step

/-- A candidate as a cut-off CHECK reports it: nothing but its record. -/
def missedCand (o : CandOut) : CandOut := { words := o.words, noepoch := o.noepoch }

def checkOk (o : Op) : Bool :=
  o.addr 0x10 % 64 == 0 && o.fld 0x18 31 11 == 0 && decide (16 ≤ o.fld 0x1C 12 0) && decide (o.fld 0x1C 12 0 ≤ 4096) &&
  o.fld 0x1C 31 13 == 0 && o.addr 0x20 % 32 == 0 && zeroWords o 11

def splitRecs : Nat → List Word → List (List Word)
  | 0, _ => []
  | n + 1, ws => ws.take 16 :: splitRecs n (ws.drop 16)

/-- Read the knots of each candidate, in list order; the first read that fails ends the CHECK. -/
def State.readKnots (viol : Nat × Nat × Nat) : List (List Word) → State → Tx (List (List Word)) × State
  | [], s => (.ok [], s)
  | ws :: rest, s =>
    match s.txRead (some 0x49) (cAddr ws 8) (16 * cNk ws) (some viol) with
    | (.ok bs, s) =>
      match State.readKnots viol rest s with
      | (.ok ks, s) => (.ok (wordsOf bs :: ks), s)
      | (tx, s) => (tx, s)
    | (.firewall, s) => (.firewall, s)
    | (.error, s) => (.error, s)
    | (.uncorrectable, s) => (.uncorrectable, s)

/-- Test the candidates in turn. -/
def testAll (ch : Chart) (body : Nat → Body) (tmax : Nat) : List (List Word × List Word) → Bool → List CandOut × Bool
  | [], inj => ([], inj)
  | (ws, ks) :: rest, inj =>
    let (o, inj) := testCand ch (body (cFld ws 0 14 12)) ws ks (cKt0 ws) tmax inj
    let (os, inj) := testAll ch body tmax rest inj
    (o :: os, inj)

def State.setEntry (s : State) (cid : Nat) (e : OccEntry) : State :=
  { s with occ := { s.occ with table := Sparse.set (fun _ => none) s.occ.table cid (some e) } }

def noBody : Body := { sub := 1, infl := 0#32, caps := [] }
def State.bodies (s : State) (m : Nat) : Body := (s.bodyModel m).getD noBody

/-- Injections that a descriptor meets which makes tests against slot `k` (R438, R441): whether it ends with ERR_DATA, and
the cycles that corrections add. -/
def State.occInject (s : State) (k : Nat) (tests : Nat) : Bool × Nat × State :=
  if tests = 0 then (false, 0, s)
  else
    let sel := s.fld (kEINJ rOCC) 6 5 == k
    let (slow, s) := if sel && s.injArmed rOCC 0 then (1, ((s.injDone rOCC 0).count rOCC 0).raise rOCC 1 { inj := true, index := k })
      else (0, s)
    if sel && s.injArmed rOCC 1 then
      let s := ((s.injDone rOCC 1).count rOCC 1).raise rOCC 17 { inj := true, index := k, always := true }
      (true, slow, s.setSlot_ k { s.slot_ k with st := 4 })
    else if s.injArmed rOCC 2 then (true, slow, ((s.injDone rOCC 2).count rOCC 3).raise rOCC 18 { inj := true })
    else (false, slow, s)

/-- The deadline of the CHECK in execution (R425). -/
def State.occCut (s : State) : State :=
  match s.occ.run with
  | none => s
  | some r =>
    match s.findOp rOCC r.queue r.index with
    | none => s
    | some o =>
      if o.opcode ≠ 0x10 ∨ o.dl = false ∨ r.cut.isSome = true ∨ s.reached o.deadline = false then s
      else
        let past := (s.phase - (o.deadline.setWidth 96 <<< 32)).toNat
        let ago := if s.incr = 0 then 0 else past / s.incr
        s.setOccRun { r with cut := some ((s.now - r.start - ago) / 2) }

def effCheck (q : Nat) (s : State) : State :=
  let s := s.dropDeadOcc
  match s.occNext q 0x10 with
  | none => s
  | some o =>
    let s := s.occStart q o
    let n := o.fld 0x18 10 0 + 1
    let viol := (rOCC, q, o.index)
    if checkOk o = false then s.conclude rOCC q o.index stREJ_FORMAT
    else
      match s.txRead (some 0x49) (o.addr 0x10) (64 * n) (some viol) with
      | (.ok bs, s) =>
        let recs := splitRecs n (wordsOf bs)
        if recs.all (fun ws => candOk ws && (s.bodyModel (cFld ws 0 14 12)).isSome) = false ∨
            distinct (recs.map (fun ws => cFld ws 0 10 0)) = false then s.conclude rOCC q o.index stREJ_FORMAT
        else
          match State.readKnots viol recs s with
          | (.ok ks, s) =>
            let r : OccRun := { queue := q, index := o.index, start := s.now, cycles := 0, wcet := (o.word 10).toNat }
            match s.curSlot with
            | none =>
              let outs := recs.map (fun ws => ({ words := ws, noepoch := true } : CandOut))
              let s := s.conclude rOCC q o.index stDONE
              (s.setOccRun { r with cycles := 200 + 2 * n, outs := outs }).occCut
            | some k =>
              let ch := (s.slot_ k).chart.getD { t0 := 0, corner := (0#32, 0#32, 0#32), source := 0, cols := [], nodes := [] }
              let (outs, left) := testAll ch s.bodies (o.fld 0x1C 12 0) (recs.zip ks) (s.injArmed rOCC 3)
              let s := if s.injArmed rOCC 3 && !left then s.injDone rOCC 3 else s
              let t := outs.foldl (fun a x => a + x.tests) 0
              let g := outs.foldl (fun a x => a + x.placed) 0
              let epoch := (s.slot_ k).epoch
              let (dead, slow, s) := s.occInject k t
              if dead then (s.unbind (some k)).showOcc.conclude rOCC q o.index stERR_DATA
              else
                let s := s.conclude rOCC q o.index stDONE
                (s.setOccRun { r with cycles := 200 + 2 * n + testCycles t g, slot := some k, epoch := epoch, slow := slow,
                                      outs := outs }).occCut
          | (.firewall, s) => s.flushItag 0x49
          | (tx, s) => s.conclude rOCC q o.index tx.status
      | (.firewall, s) => s.flushItag 0x49
      | (tx, s) => s.conclude rOCC q o.index tx.status

/-- The candidates a CHECK completed by a cycle, and how the others stand: with each its status, whether it is clear, and
its tests (`none`: it was in progress, its count is free). -/
def OccRun.settled (r : OccRun) (n by_ : Nat) : List (CandOut × Nat × Bool × Option Nat) :=
  let base := 200 + 2 * n + r.slow
  let ds := doneCycles base r.outs
  (List.range r.outs.length).map (fun i =>
    let o := r.outs.getD i { words := [] }
    let d := ds.getD i 0
    let from_ := if i = 0 then base else ds.getD (i - 1) 0
    if d ≤ by_ then (o, statusOfCand o, o.clear, some o.tests)
    else (missedCand o, stMISS_DEADLINE, false, if from_ < by_ then none else some 0))

/-- Add to the counts of tests and of capsules at TMAX (R440, R442). -/
def State.occCounts (s : State) (tests tcaps : Nat) : State :=
  let s := s.addSat (rk rOCC 1 0x128) 31 0 tests
  if tcaps = 0 then s else s.count rOCC 4 tcaps

/-- Give tests in progress a free count. -/
def State.freeTests (s : State) (t : Option Nat) : Nat × State :=
  match t with
  | some t => (t, s)
  | none => let (i, s) := s.draw; ((BitVec.setWidth 32 (Config.freeWord i)).toNat, s)

/-- A CHECK ends (R424–R426). -/
def State.checkDone (s : State) (r : OccRun) (o : Op) : State :=
  let n := r.outs.length
  let total := r.cycles + r.slow
  let end_ := match r.cut with | some c => Nat.min c total | none => total
  if r.wcet ≠ 0 ∧ r.wcet < end_ then
    let rows := r.settled n r.wcet
    let s := s.occCounts (rows.foldl (fun a x => a + x.2.2.2.getD 0) 0) (rows.filter (fun x => x.1.tcap)).length
    ((s.count rOCC 6).occEndRun.showOcc).finish rOCC r.queue r.index stERR_TIMEOUT_WCET
  else
    let rows := r.settled n end_
    let (recs, s) := rows.foldl (fun (acc : List Byte × State) x =>
      let (t, s) := acc.2.freeTests x.2.2.2
      (acc.1 ++ resultRecord x.1 x.2.1 x.2.2.1 r.epoch o.step t, s)) ([], s)
    match s.txWrite (some 0x49) (o.addr 0x20) recs (some (rOCC, r.queue, r.index)) with
    | (.ok _, s) =>
      let s := rows.foldl (fun (s : State) x =>
        s.setEntry x.1.cid { words := x.1.words, step := o.step, clear := x.2.2.1, epoch := r.epoch }) s
      let s := s.occCounts (rows.foldl (fun a x => a + x.2.2.2.getD 0) 0) (rows.filter (fun x => x.1.tcap)).length
      let nmiss := (rows.filter (fun x => x.2.1 == stMISS_DEADLINE)).length
      let nclear := (rows.filter (fun x => x.2.2.1)).length
      let nf := rows.foldl (fun (a : Numf) x => a ||| x.1.numf) 0
      let s : State := if nmiss = 0 ∨ s.occ.missed.contains o.step = true then s
        else { s with occ := { s.occ with missed := o.step :: s.occ.missed } }
      let st := if 0 < nmiss then stMISS_DEADLINE else if r.slot = none then stNO_PATH
        else if rows.any (fun x => x.2.1 == stDONE_DEGRADED) then stDONE_DEGRADED else stDONE
      (s.occEndRun.showOcc).finish rOCC r.queue r.index st
        (BitVec.ofNat 64 (nclear + 2 ^ 12 * nmiss + 2 ^ 32 * nf.toNat))
    | (.firewall, s) => (s.flushItag 0x49).dropDeadOcc
    | (tx, s) => (s.occEndRun.showOcc).finish rOCC r.queue r.index tx.status

/-! ### SELECT (R430–R436) -/

/-- What a SELECT has done so far. -/
structure Sel where
  used : Nat := 0                 -- re-checks made, and how many failed
  failed : Nat := 0
  cycles : Nat := 0
  tests : Nat := 0
  tcaps : Nat := 0
  inj : Bool := false
  stop : Option (Tx Unit) := none

/-- A re-check against a Chart (R431, R432). -/
def Sel.recheck (x : Sel) (s : State) (ch : Chart) (ws ks : List Word) (start tmax : Nat) : Bool × Sel :=
  let (o, inj) := testCand ch (s.bodies (cFld ws 0 14 12)) ws ks start tmax x.inj
  (o.clear, { x with used := x.used + 1, failed := x.failed + (if o.clear then 0 else 1), inj := inj,
                     cycles := x.cycles + 100 + testCycles o.tests o.placed, tests := x.tests + o.tests,
                     tcaps := x.tcaps + if o.tcap then 1 else 0 })

/-- Does one entry come before another: lower COST, then lower CID (R431)? -/
def entryBefore (a b : OccEntry) : Bool :=
  flt (cWord a.words 4) (cWord b.words 4) ||
  (!flt (cWord b.words 4) (cWord a.words 4) && decide (cFld a.words 0 10 0 < cFld b.words 0 10 0))

def insertEntry (x : OccEntry) : List OccEntry → List OccEntry
  | [] => [x]
  | y :: rest => if entryBefore x y then x :: y :: rest else y :: insertEntry x rest

/-- The eligible entries of a role, best first. -/
def State.eligible (s : State) (step : Nat) (role : Bool) : List OccEntry :=
  ((s.occ.table.filterMap (fun e => e.2)).filter (fun e => e.clear && e.step == step && flagOf (cWord e.words 0) 11 == role)).foldl
    (fun acc e => insertEntry e acc) []

/-- The first accepted entry, with its knots. -/
def State.selectRole (ch : Chart) (epoch rcmax tmax : Nat) (viol : Nat × Nat × Nat) :
    List OccEntry → Sel → State → Option Traj × Sel × State
  | [], x, s => (none, x, s)
  | e :: rest, x, s =>
    let fresh := e.epoch == epoch
    if fresh = false ∧ rcmax ≤ x.used then State.selectRole ch epoch rcmax tmax viol rest x s
    else
      match s.txRead (some 0x49) (cAddr e.words 8) (16 * cNk e.words) (some viol) with
      | (.ok bs, s) =>
        let ks := wordsOf bs
        let t : Traj := { words := e.words, knots := ks, epoch := epoch }
        if fresh then (some t, x, s)
        else
          let (ok, x) := x.recheck s ch e.words ks (cKt0 e.words) tmax
          if ok then (some t, x, s) else State.selectRole ch epoch rcmax tmax viol rest x s
      | (.firewall, s) => (none, { x with stop := some .firewall }, s)
      | (.error, s) => (none, { x with stop := some .error }, s)
      | (.uncorrectable, s) => (none, { x with stop := some .uncorrectable }, s)

/-- Read the set-point block of a trajectory that is sent. -/
def State.readBlock (s : State) (t : Option Traj) (viol : Nat × Nat × Nat) : Tx (List Byte) × State :=
  match t with
  | none => (.ok [], s)
  | some t => s.txRead (some 0x49) (cAddr t.words 0x20) (cSplen t.words) (some viol)

def trajLen (t : Option Traj) : Nat := match t with | some t => cSplen t.words | none => 0
def trajCrc (t : Option Traj) : Nat := match t with | some t => (cWord t.words 0x2C).toNat | none => 0

/-- The 64-byte hand-off record (R433). -/
def handOffRecord (kind status epoch step switch : Nat) (p f : Option Traj) : List Byte :=
  let flagged := kind != 0 || status == stDONE_DEGRADED
  leBytes 4 (kind + (if p.isSome then 4 else 0) + (if f.isSome then 8 else 0) + if flagged then 16 else 0) ++
  leBytes 4 epoch ++ leBytes 4 step ++ leBytes 4 switch ++ leBytes 4 (trajLen p) ++ leBytes 4 (trajCrc p) ++
  leBytes 4 (trajLen f) ++ leBytes 4 (trajCrc f) ++ leBytes 4 (cidOf p + cidOf f * 2 ^ 11) ++ List.replicate 28 0#8

def selectOk (o : Op) : Bool :=
  decide (o.fld 0x10 5 0 ≤ 32) && o.fld 0x10 31 6 == 0 && decide (16 ≤ o.fld 0x18 12 0) && decide (o.fld 0x18 12 0 ≤ 4096) &&
  o.fld 0x18 31 13 == 0 && zeroWords o 8

/-- The table of R432: kind, plan sent, fall-back sent, status. -/
def decideKind (plan fb : Option Traj) (heldClear : Bool) : Nat × Option Traj × Option Traj × Nat :=
  match plan, fb with
  | some p, some f => (0, some p, some f, stDONE)
  | some p, none => (0, some p, none, stDONE_DEGRADED)
  | none, fb =>
    if heldClear then (1, none, fb, stDONE_PREV)
    else
      match fb with
      | some f => (2, some f, some f, stNO_PATH)
      | none => (3, none, none, stNO_PATH)

def effSelect (q : Nat) (s : State) : State :=
  let s := s.dropDeadOcc
  match s.occNext q 0x11 with
  | none => s
  | some o =>
    let s := s.occStart q o
    let viol := (rOCC, q, o.index)
    if selectOk o = false then s.conclude rOCC q o.index stREJ_FORMAT
    else
      let cur := s.curSlot
      let chart := match cur with | some k => (s.slot_ k).chart | none => none
      let epoch := match cur with | some k => (s.slot_ k).epoch | none => 0
      let tmax := o.fld 0x18 12 0
      let rcmax := o.fld 0x10 5 0
      let x : Sel := { inj := s.injArmed rOCC 3 }
      let (plan, fb, held, x, s) := match chart with
        | none => (none, none, false, x, s)
        | some ch =>
          let (plan, x, s) := State.selectRole ch epoch rcmax tmax viol (s.eligible o.step false) x s
          let (fb, x, s) := if x.stop.isSome then (none, x, s)
            else State.selectRole ch epoch rcmax tmax viol (s.eligible o.step true) x s
          match plan, s.occ.plan with
          | none, some t =>
            let (ok, x) := x.recheck s ch t.words t.knots s.now tmax
            (plan, fb, ok, x, s)
          | _, _ => (plan, fb, false, x, s)
      let s := if s.injArmed rOCC 3 && !x.inj then s.injDone rOCC 3 else s
      match x.stop with
      | some .firewall => s.flushItag 0x49
      | some tx => s.conclude rOCC q o.index tx.status
      | none =>
        let (kind, p, f, st) := decideKind plan fb held
        match s.readBlock p viol with
        | (.ok pb, s) =>
          match s.readBlock f viol with
          | (.ok fbk, s) =>
            let (dead, slow, s) := match cur with | some k => s.occInject k x.tests | none => (false, 0, s)
            if dead then (s.unbind cur).showOcc.conclude rOCC q o.index stERR_DATA
            else
              let b := pb.length + fbk.length
              let timeout := s.occ.missed.contains o.step
              let result := cidOf p + cidOf f * 2 ^ 11 + (kind + (if timeout then 4 else 0) + (if 0 < x.failed then 8 else 0) +
                (if cur.isNone then 16 else 0) + x.used * 2 ^ 5) * 2 ^ 32
              let c : Choice := { kind := kind, plan := p, fb := f, planBlock := pb, fbBlock := fbk, status := st,
                                  record := handOffRecord kind st epoch o.step (o.word 5).toNat p f,
                                  result := BitVec.ofNat 64 result }
              let s := s.conclude rOCC q o.index stDONE
              s.setOccRun { queue := q, index := o.index, start := s.now, cycles := 506 + x.cycles + ceilDiv b 128,
                            wcet := (o.word 7).toNat, slot := cur, epoch := epoch, slow := slow, tests := x.tests,
                            tcaps := x.tcaps, choice := some c }
          | (.firewall, s) => s.flushItag 0x49
          | (tx, s) => s.conclude rOCC q o.index tx.status
        | (.firewall, s) => s.flushItag 0x49
        | (tx, s) => s.conclude rOCC q o.index tx.status

/-- The Clock Drive sees what is written to its hand-off windows (R474, R489). -/
def State.noteHandOffWrite (s : State) (a n : Nat) : State :=
  if a = 0x00C0240000 then { s with drive := { s.drive with inRxp := n } }
  else if a = 0x00C0250000 then { s with drive := { s.drive with inRxf := n } }
  else if a ≤ 0x00C026003F ∧ 0x00C0260040 ≤ a + n ∧ 0x00C0260000 ≤ a then { s with drive := { s.drive with arrived := true } }
  else s

/-- Writes of the hand-off, in order; the first refusal ends them. -/
def State.handOffWrites (viol : Nat × Nat × Nat) : List (Nat × List Byte) → State → Tx Unit × State
  | [], s => (.ok (), s)
  | (a, bs) :: rest, s =>
    match s.txWrite (some 0x49) a bs (some viol) with
    | (.ok _, s) => State.handOffWrites viol rest (s.noteHandOffWrite a bs.length)
    | (tx, s) => (tx, s)

/-- The bytes of the record with PCRC inverted (R441). -/
def invertPcrc (bs : List Byte) : List Byte := bs.take 0x14 ++ ((bs.drop 0x14).take 4).map (fun b => ~~~b) ++ bs.drop 0x18

/-- A SELECT has chosen: the blocks and the record are written, and the checker is free (R433, R434). -/
def State.selectDone (s : State) (r : OccRun) (c : Choice) : State :=
  let s := s.occCounts r.tests r.tcaps
  if r.wcet ≠ 0 ∧ r.wcet < r.cycles + r.slow then
    ((s.count rOCC 6).occEndRun.showOcc).finish rOCC r.queue r.index stERR_TIMEOUT_WCET
  else
    let at_ := fun (off : Nat) => s.rd64 (rk rOCC 2 off)
    let inj := s.injArmed rOCC 4
    let record := if inj then invertPcrc c.record else c.record
    let writes := (if c.plan.isSome then [(at_ 0x108, c.planBlock)] else []) ++
      (if c.fb.isSome then [(at_ 0x110, c.fbBlock)] else []) ++ [(at_ 0x100, record)]
    let s := if inj then s.injDone rOCC 4 else s
    match State.handOffWrites (rOCC, r.queue, r.index) writes s with
    | (.ok _, s) =>
      let s := s.occEndRun
      let s : State := { s with occ := { s.occ with wait := some { queue := r.queue, index := r.index, choice := c } } }
      (s.mapOp rOCC r.queue r.index (fun o => { o with outcome := none })).showOcc
    | (.firewall, s) => (s.flushItag 0x49).dropDeadOcc
    | (tx, s) => (s.occEndRun.showOcc).finish rOCC r.queue r.index tx.status

/-- The held trajectories after an accepted hand-off (R435). -/
def State.adopt (s : State) (c : Choice) : State :=
  let o := s.occ
  let (plan, fb) := match c.kind with
    | 0 => (c.plan, if c.fb.isSome then c.fb else o.fb)
    | 1 => (o.plan, if c.fb.isSome then c.fb else o.fb)
    | 2 => (c.fb, c.fb)
    | _ => (o.fb, o.fb)
  { s with occ := { o with plan := plan, fb := fb } }

/-- The Clock Drive reports the hand-off (R434–R436). -/
def effHandOffReport (s : State) : State :=
  match s.drive.report, s.occ.wait with
  | some rep, some w =>
    let s : State := { s with drive := { s.drive with report := none }, occ := { s.occ with wait := none } }
    let s := if rep = 0 then s.adopt w.choice else (s.count rOCC 7).raise rOCC 19 { queue := w.queue, index := w.index }
    let st := if rep = 1 then stERR_DATA else if rep = 2 then stMISS_DEADLINE else w.choice.status
    let s := if st = stDONE_PREV then s.count rOCC 5 else if st = stNO_PATH then s.count rOCC 6 else s
    let tcc := st == stDONE_PREV || st == stNO_PATH
    let s := if tcc then s.countTcc rOCC else s
    (s.showOcc).finish rOCC w.queue w.index st w.choice.result tcc
  | some _, none => { s with drive := { s.drive with report := none } }
  | none, _ => s

/-! ### SEED (R437) -/

def effSeed (q : Nat) (s : State) : State :=
  let s := s.dropDeadOcc
  match s.occNext q 0x12 with
  | none => s
  | some o =>
    let s := s.occStart q o
    let nk := o.fld 0x18 5 0 + 1
    let after := occNs (100 + 2 * nk)
    if o.addr 0x10 % 16 ≠ 0 ∨ o.fld 0x18 31 6 ≠ 0 ∨ zeroWords o 10 = false then s.conclude rOCC q o.index stREJ_FORMAT
    else
      match s.occ.plan with
      | none => s.conclude rOCC q o.index stNO_PATH 0 after
      | some t =>
        let times := (List.range nk).map (fun k => o.addr 0x20 + k * (o.word 7).toNat)
        let bytes := times.flatMap (fun x =>
          let p := poseAt t.words t.knots x
          bytesOf [p.x.1, p.y.1, p.yaw.1, 0#32])
        let st := if times.any (fun x => decide (cEnd t.words < x)) then stDONE_DEGRADED else stDONE
        let s := s.conclude rOCC q o.index st
        s.setOccRun { queue := q, index := o.index, start := s.now, cycles := 100 + 2 * nk, write := some (o.addr 0x10, bytes) }

/-! ### Completion -/

/-- The checker's descriptor ends. -/
def State.runDone (s : State) (r : OccRun) (o : Op) : State :=
  match r.body, r.write, r.choice with
  | some (m, b), _, _ =>
    let s : State := { s with occ := { s.occ with bodies := Sparse.set (fun _ => none) s.occ.bodies m (some b) } }
    (s.occEndRun.showOcc).finish rOCC r.queue r.index stDONE
  | none, some (a, bs), _ =>
    match s.txWrite (some 0x49) a bs (some (rOCC, r.queue, r.index)) with
    | (.ok _, s) => (s.occEndRun.showOcc).finish rOCC r.queue r.index (o.outcome.getD 0)
    | (.firewall, s) => (s.flushItag 0x49).dropDeadOcc
    | (tx, s) => (s.occEndRun.showOcc).finish rOCC r.queue r.index tx.status
  | none, none, some c => s.selectDone r c
  | none, none, none => s.checkDone r o

/-- OPERATION_COMPLETE of an OCC descriptor. -/
def State.occComplete (s : State) (q : Nat) (o : Op) : State :=
  let s := (s.dropDeadOcc).occCut
  let mine := match s.occ.run with | some r => r.queue == q && r.index == o.index | none => false
  match s.occ.load, s.occ.run with
  | some l, run =>
    if l.queue = q ∧ l.index = o.index then s.installDone l
    else if mine then
      match run with | some r => s.runDone r o | none => s
    else s.finish rOCC q o.index (o.outcome.getD 0) o.result
  | none, some r => if mine then s.runDone r o else s.finish rOCC q o.index (o.outcome.getD 0) o.result
  | none, none => s.finish rOCC q o.index (o.outcome.getD 0) o.result

/-- The deadline of a CHECK is reached (R425). -/
def effCheckDeadline (s : State) : State := s.occCut

/-- The watchdog (R429). -/
def effOccWcet (s : State) : State :=
  let s := s.occCut
  match s.occ.run with
  | none => s
  | some r =>
    let end_ := match r.cut with | some c => Nat.min c (r.cycles + r.slow) | none => r.cycles + r.slow
    if r.wcet ≠ 0 ∧ r.wcet < end_ ∧ r.start + occNs r.wcet < s.now then
      match s.findOp rOCC r.queue r.index with
      | some o => s.occComplete r.queue o
      | none => s
    else s

def execOccInstall (q : BitVec 6) (s : State) : Outcome := .next (effOccInstall q.toNat s)
def execOccBody (q : BitVec 6) (s : State) : Outcome := .next (effOccBody q.toNat s)
def execOccNop (q : BitVec 6) (s : State) : Outcome := .next (effOccNop q.toNat s)
def execCheck (q : BitVec 6) (s : State) : Outcome := .next (effCheck q.toNat s)
def execCheckDeadline (s : State) : Outcome := .next (effCheckDeadline s)
def execSelect (q : BitVec 6) (s : State) : Outcome := .next (effSelect q.toNat s)
def execSeed (q : BitVec 6) (s : State) : Outcome := .next (effSeed q.toNat s)
def execOccWcetExpiry (s : State) : Outcome := .next (effOccWcet s)
def execHandoffReport (s : State) : Outcome := .next (effHandOffReport s)

end Sys2Proof.Machine
end

