-- ==== Sys2Proof/Machine/Afu.lean ====
section
/-! DEFINITION. The Alignment and Fusion Unit (R443–R473): stamps and slot states, instants and contributions, ego quality
and poses, the three fusion levels and the shadow check. -/

namespace Sys2Proof.Machine

/-! ### Registers -/

def kSTR (m : Nat) : Nat := rk rAFU 1 (0x100 + 8 * m)
def kSEN (n w : Nat) : Nat := rk rAFU 2 (0x100 + 16 * n + 4 * w)
def State.senKind (s : State) (n : Nat) : Nat := s.fld (kSEN n 0) 3 0
def State.senStream (s : State) (n : Nat) : Nat := s.fld (kSEN n 0) 7 4
def State.senGrid (s : State) (n : Nat) : Bool := s.flag (kSEN n 0) 26
def State.senOn (s : State) (n : Nat) : Bool := s.flag (kSEN n 0) 27
def State.senPer (s : State) (n : Nat) : Nat := (s.rd (kSEN n 1)).toNat
/-- 0 OFF, 1 ACQUIRE, 2 LOCKED, 3 UNLOCKED, 4 SILENT. -/
def State.senState (s : State) (n : Nat) : Nat := s.fld (kSEN n 2) 2 0
def State.setSen (s : State) (n v : Nat) : State := s.setFld (kSEN n 2) 2 0 v
def State.sen (s : State) (n : Nat) : AfuSlot := Sparse.get (fun _ => {}) s.afu.slots n
def State.putSen (s : State) (n : Nat) (a : AfuSlot) : State :=
  { s with afu := { s.afu with slots := Sparse.set (fun _ => {}) s.afu.slots n a } }
def State.str (s : State) (m : Nat) : AfuStream := Sparse.get (fun _ => {}) s.afu.streams m
def State.putStr (s : State) (m : Nat) (x : AfuStream) : State :=
  { s with afu := { s.afu with streams := Sparse.set (fun _ => {}) s.afu.streams m x } }
def State.agemax (s : State) (m : Nat) : Nat := 1000000 * s.fld (kSTR m) 16 7
def State.senSel (s : State) : Nat := s.fld (kEINJ rAFU) 10 6

def AfuSlot.f (a : AfuSlot) (off hi lo : Nat) : Nat := fieldOf (a.cal.getD (off / 4) 0#32) hi lo
def AfuSlot.w (a : AfuSlot) (off : Nat) : Nat := (a.cal.getD (off / 4) 0#32).toNat
/-- FWIN, in ns. -/
def AfuSlot.fwin (a : AfuSlot) : Nat := a.f 0x64 15 0 * 1000

/-- Does an SRC name a source of its KIND (R443)? -/
def senSrcOk (kind src : Nat) : Bool :=
  match kind with
  | 1 => decide (src < 64)
  | 2 => decide (src / 32 < 6)
  | 3 => decide (src < 8)
  | 4 => decide (src < 4) || (decide (128 ≤ src) && decide (src < 136))
  | _ => false

/-- Enter UNLOCKED or SILENT (R446, R471). -/
def State.senLost (s : State) (n : Nat) : State :=
  ((s.setSen n 3).count rAFU 4).raise rAFU 16 { always := true, index := n }
def State.senSilent (s : State) (n : Nat) : State := (s.setSen n 4).count rAFU 4

/-- Draw `n` free words. -/
def State.drawWords (s : State) : Nat → List Word × State
  | 0 => ([], s)
  | n + 1 =>
    let (i, s) := s.draw
    let (ws, s) := s.drawWords n
    (Config.freeWord i :: ws, s)

/-- Read a slot's calibration record as it is enabled. A record that cannot be read has no stated contents. -/
def State.readCal (s : State) (n : Nat) : List Word × State :=
  match s.txRead (some 0x4A) (s.rd64 (rk rAFU 1 0x184) + 128 * n) 128 with
  | (.ok bs, s) => (wordsOf bs, s)
  | (.firewall, s) => (s.flushItag 0x4A).drawWords 32
  | (_, s) => s.drawWords 32

/-- A write of AFU_SENn_CFG (R443, R446, R473). -/
def effSenCfg (n : Nat) (t : Itag) (v : Word) (s : State) : State :=
  let k := kSEN n 0
  let on := flagOf v 27
  if s.senOn n then
    let s := if withFlag v 27 true = s.rd k then s else s.cfgErr rAFU t
    if on then s.cfgErr rAFU t else (s.setFlag k 27 false).setSen n 0
  else if senSrcOk (fieldOf v 3 0) (fieldOf v 15 8) = false then s.cfgErr rAFU t
  else
    let s := s.writeGeneric k t v
    if on then
      let (cal, s) := s.readCal n
      (s.setSen n 1).putSen n { cal := cal, lastSample := s.now }
    else s

/-- A write of AFU_SENn_PER: none while the slot is enabled (R473). -/
def effSenPer (n : Nat) (t : Itag) (v : Word) (s : State) : State :=
  if s.senOn n then s.cfgErr rAFU t else s.writeGeneric (kSEN n 1) t v

/-- A write of AFU_STRm_CFG: instants are counted from enable (R458). -/
def effStrCfg (m : Nat) (t : Itag) (v : Word) (s : State) : State :=
  let was := s.flag (kSTR m) 17
  let s := s.writeGeneric (kSTR m) t v
  if !was && s.flag (kSTR m) 17 then s.putStr m { s.str m with last := none, count := 0, prev := none } else s

/-! ### Phases and times (R448) -/

/-- The timebase time at which a phase matches, by the phase log. -/
def State.timeOf (s : State) (p : DWord) : Option Nat :=
  let p96 : BitVec 96 := p.setWidth 96 <<< 32
  ((s.now, s.phase, s.incr) :: s.afu.phaseLog).findSome? (fun e =>
    let d := (p96 - e.2.1).toNat
    if d < 2 ^ 95 ∧ e.2.2 ≠ 0 then some (e.1 + ceilDiv d e.2.2) else none)

/-- The phases of a stream's instants in the revolutions around a phase. -/
def State.instantsNear (s : State) (m : Nat) (p : Nat) : List Nat :=
  let n := s.fld (kSTR m) 6 0
  let off := s.fld (kSTR m + 4) 31 0
  let r := p / 2 ^ 32
  [r - 2, r - 1, r, r + 1].flatMap (fun r => (List.range n).map (fun k => 2 ^ 32 * r + off + 2 ^ 32 * k / n))

/-- The first instant after a phase, and the last one before it. -/
def State.instantAfter (s : State) (m p : Nat) : Nat :=
  let xs := (s.instantsNear m p).filter (fun x => decide (p < x))
  xs.foldl Nat.min (xs.headD (p + 1))
def State.instantBefore (s : State) (m p : Nat) : Nat :=
  ((s.instantsNear m p).filter (fun x => decide (x < p))).foldl Nat.max 0

/-! ### L1 publication (R462, R463) -/

/-- Issue the next operation of a slot on its Transit queue: a MOVE into slot f mod RING of DEST, or a NOP. -/
def State.l1Publish (s : State) (n : Nat) (written : Bool) : State :=
  let q := s.fld (rk rAFU 1 0x180) 9 0 + n
  let a := s.sen n
  let s := s.putSen n { a with nextF := a.nextF + 1 }
  let x := s.queue rTRANSIT q
  if x.state ≠ .active then s
  else
    let i := x.released
    let op : Op := { index := i, words := BitVec.ofNat 32 ((if written then 1 else 3) + 2 ^ 8) :: List.replicate 15 0#32,
                     relTime := s.now, started := true }
    let s := s.setQueue rTRANSIT q { x with released := idx (i + 1), exec := idx (i + 1), ops := x.ops ++ [op],
                                            tail := if x.tail = i then idx (i + 1) else x.tail }
    if written = false then s.conclude rTRANSIT q i stDONE
    else
      let ring := Nat.max 1 (a.f 0x68 23 16)
      match s.validObj (a.f 0x68 15 0) [0, 1, 2, 3, 4] with
      | none => s.conclude rTRANSIT q i stREJ_FORMAT
      | some o =>
        let len := o.size / ring
        let off := a.nextF % ring * len
        match s.objCheck x.itag o off len true (some (rTRANSIT, q, i)) with
        | (.ok _, s) => (s.scramble ((List.range len).map (fun b => s.objKey o (off + b)))).conclude rTRANSIT q i stDONE
        | (.firewall, s) => s.flushItag x.itag
        | (tx, s) => s.conclude rTRANSIT q i tx.status

/-- The oldest trigger of a camera, without it, when its frame has paired (`paired`) or FWIN has passed without one. -/
def State.takeFrame (s : State) (n : Nat) (paired : Bool) : Option State :=
  let a := s.sen n
  match a.frames with
  | [] => none
  | (m, capt) :: rest =>
    if s.senOn n && s.senKind n == 1 && capt.isSome == paired && (paired || decide (m + a.fwin < s.now)) then
      some (s.putSen n { a with frames := rest })
    else none

/-- L1 of a camera: the frame of its oldest trigger is published (R462, R463). -/
def effL1Frame (n : Nat) (s : State) : State :=
  match s.takeFrame n true with | some s => s.l1Publish n true | none => s

/-- FWIN has passed since the oldest trigger with no frame: a NOP takes the frame's place (R463). -/
def effFrameExpiry (n : Nat) (s : State) : State :=
  match s.takeFrame n false with | some s => s.l1Publish n false | none => s

/-- A lidar's MOVE of an instant, once for each (R463). -/
def State.lidarMove (s : State) (n : Nat) (b : Bound) : State :=
  if (s.sen n).moved = some b.phase then s
  else (s.putSen n { s.sen n with moved := some b.phase }).l1Publish n true

/-! ### Stamps and slot states (R444–R446) -/

def int64 (z : Int) : Fv := round64 (.num (decide (z < 0)) z.natAbs 0)
def div64 (a b : Fv) : Fv :=
  match divFv a b with
  | some (v, sticky) => fp64.decode (fp64.convert .rne false v sticky).1
  | none => .nan
def add64 (a b : Fv) : Fv := match a.add b with | some v => round64 v | none => .nan

/-- MAP(ts) in binary64, to the nearest ns; `none` where the two events behind it give none. -/
def AfuSlot.map (a : AfuSlot) (ts : Nat) : Option Int :=
  let d := (mul64 (int64 ((ts : Int) - (a.mapTs : Int))) (int64 a.num)).1
  match add64 (int64 a.mapT) (div64 d (int64 a.den)) with
  | .num neg m e => some (roundInt .rne neg m e)
  | _ => none

/-- A sample's own time taken by MAP: free where the map gives nothing. -/
def State.mapTime (s : State) (n ts : Nat) : Nat × State :=
  match (s.sen n).map ts with
  | some z => (z.toNat, s)
  | none => let (i, s) := s.draw; ((Config.freeDWord i).toNat, s)

/-- Pair a frame with the oldest unpaired trigger in whose window it starts. -/
def pairFrame (now fwin capt : Nat) : List (Nat × Option Nat) → Option (List (Nat × Option Nat))
  | [] => none
  | (m, c) :: rest =>
    if c.isNone ∧ m ≤ now ∧ now ≤ m + fwin then some ((m, some (if capt = 0 then m + 3 else capt)) :: rest)
    else (pairFrame now fwin capt rest).map (fun r => (m, c) :: r)

/-- A sensor frame start, point or sample arrives; `ts` is the sensor's own time (R444, R446). -/
def effSensorSample (n : Nat) (ts : Nat) (s : State) : State :=
  if s.pdDown (regionPd rAFU) ∨ s.senOn n = false then s
  else
    let kind := s.senKind n
    let s := s.putSen n { s.sen n with lastSample := s.now }
    match s.senState n with
    | 4 => s.setSen n 1
    | 1 => if 3 ≤ kind then s.setSen n 2 else s
    | 0 => s
    | st =>
      if kind = 1 then
        let (capt, s) := if st = 3 then s.mapTime n ts else (0, s)
        match pairFrame s.now (s.sen n).fwin capt (s.sen n).frames with
        | some fs => s.putSen n { s.sen n with frames := fs }
        | none => s.addSat (kSEN n 2) 15 3 1
      else if kind = 2 then
        let (capt, s) := s.mapTime n ts
        let a := s.sen n
        s.putSen n { a with points := capt :: a.points.filter (fun p => decide (s.now < 8000000000 + p)) }
      else s

/-- The first point captured after an instant has arrived: the lidar publishes the instant's points (R463). At a fusion
deadline the deadline itself does. -/
def effLidarInstant (n : Nat) (s : State) : State :=
  if s.senOn n && s.senKind n == 2 && (s.senState n == 2 || s.senState n == 3) then
    match (s.str (s.senStream n)).bound.find? (fun b => some b.phase != (s.sen n).moved) with
    | some b =>
      let t := (s.timeOf b.phase).getD s.now
      if (s.sen n).points.any (fun p => decide (t < p)) then s.lidarMove n b else s
    | none => s
  else s

/-- Saturate to a signed 32-bit pattern. -/
def sat32 (z : Int) : Word := BitVec.ofNat 32 (patternOf 32 (clampInt (-2147483648) 2147483647 z))

/-- A reference event of a slot: its own time `ts` against the oldest trigger that has had none (R445, R446). -/
def effSensorRef (n : Nat) (ts : Nat) (s : State) : State :=
  let a := s.sen n
  let st := s.senState n
  match a.refs with
  | [] => s
  | m :: rest =>
    if s.senOn n = false ∨ s.now < m ∨ st = 0 ∨ st = 4 then s
    else
      let t := m + 3
      let inj := s.injArmed rAFU 3 && s.senSel == n
      let s := if inj then s.injDone rAFU 3 else s
      let per := s.senPer n
      let (mapped, s) := s.mapTime n ts
      let e : Int := if inj then (per : Int) + 1 else (mapped : Int) - (t : Int)
      let a := { a with refs := rest, ref := some (ts, t) }
      let near := decide (4 * e.natAbs ≤ per)
      let far := decide (per < e.natAbs)
      let based := fun (x : AfuSlot) => { x with mapTs := ts, mapT := (t : Int), num := 1, den := 1 }
      let refit := fun (x : AfuSlot) (pts pt : Nat) =>
        { x with mapTs := ts, mapT := (t : Int), num := (t : Int) - (pt : Int), den := (ts : Int) - (pts : Int) }
      match (s.sen n).ref with
      | none => s.putSen n (based a)
      | some (pts, pt) =>
        let s := s.wr (kSEN n 3) (sat32 e)
        if st = 1 then
          if near then (s.putSen n { refit a pts pt with good := 0 }).setSen n 2 else s.putSen n (based a)
        else if st = 2 then
          if far then (s.putSen n { a with good := 0 }).senLost n else s.putSen n (refit a pts pt)
        else if near then
          if a.good + 1 = 16 then (s.putSen n { refit a pts pt with good := 0 }).setSen n 2
          else s.putSen n { a with good := a.good + 1 }
        else s.putSen n { a with good := 0 }

/-- No sample for 4 × PER (R446). -/
def effSensorSilent (n : Nat) (s : State) : State :=
  let st := s.senState n
  if (st = 2 ∨ st = 3) ∧ (s.sen n).lastSample + 4 * s.senPer n ≤ s.now then s.senSilent n else s

/-! ### Ego quality and poses (R460, R461) -/

def State.egoq (s : State) : Nat := s.fld (kSTAT rAFU) 18 16

def recent (s : State) (t : Option Nat) (ns : Nat) : Bool := match t with | some t => decide (s.now ≤ t + ns) | none => false

/-- Bring EGOQ up to date (R460). -/
def State.egoRefresh (s : State) : State :=
  let old := s.egoq
  let a := s.afu
  let (q, since) :=
    if recent s a.lastImu 20000000 = false then (3, none)
    else if recent s a.lastFix 200000000 then (0, none)
    else if recent s a.lastWheel 200000000 then (1, none)
    else
      match a.inertialSince with
      | some t => if 1000000000 + t < s.now then (3, some t) else (2, some t)
      | none => (2, some s.now)
  let s : State := { s with afu := { a with inertialSince := since } }
  let s := s.setFld (kSTAT rAFU) 18 16 q
  if q = 3 ∧ old ≠ 3 then ((s.count rAFU 7).raise rAFU 18 { always := true }).postCause 6 false else s

/-- An input of the ego filter: 0 IMU, 1 a scan match with its matching points and smallest eigenvalue, 2 visual, 3 wheel. -/
def effEgoUpdate (source points : Nat) (eig : Word) (s : State) : State :=
  if s.pdDown (regionPd rAFU) then s
  else
    let s := s.egoRefresh
    let s : State :=
      if source = 0 then { s with afu := { s.afu with lastImu := some s.now } }
      else if source = 1 then
        let inj := s.injArmed rAFU 5
        let s := if inj then s.injDone rAFU 5 else s
        let eigmin := (toF32 (.num false (s.fld (rk rAFU 1 0x19C) 15 5) (-4))).1
        if inj || decide (points < 500) || flt eig eigmin then s.addSat (rk rAFU 1 0x19C) 31 16 1
        else { s with afu := { s.afu with lastFix := some s.now } }
      else if source = 2 then { s with afu := { s.afu with lastFix := some s.now } }
      else { s with afu := { s.afu with lastWheel := some s.now } }
    s.egoRefresh

/-- The estimator writes a pose, 1 ms after the one before (R461). The spec gives the filter no numbers: its estimate is
free (log 60). -/
def effEgoTick (s : State) : State :=
  let due := match s.afu.poses with | p :: _ => decide (1000000 + p.time ≤ s.now) | [] => true
  if s.pdDown (regionPd rAFU) || !due then s
  else
    let (ws, s) := s.drawWords 11
    { s with afu := { s.afu with poses := { time := s.now, ws := ws } :: s.afu.poses.take 4095 } }

/-- Is a sample's time covered by the pose table (R461)? -/
def State.inTable (s : State) (t : Nat) : Bool :=
  match s.afu.poses, s.afu.poses.getLast? with
  | p :: _, some o => decide (o.time ≤ t) && decide (t ≤ 5000000 + p.time)
  | _, _ => false

/-- A pose: position and quaternion. -/
structure Place where
  p : V3
  qw : Fl
  qx : Fl
  qy : Fl
  qz : Fl

def PoseEntry.w (e : PoseEntry) (i : Nat) : Fl := fl (e.ws.getD i 0#32)

/-- The pose between two entries: linear in position, normalised linear in the quaternion. -/
def lerpPose (a b : PoseEntry) (t : Nat) : Place :=
  let f := fl (fracF32 (t - a.time) (b.time - a.time))
  let g := fun (i : Nat) => fmaF f (subF (b.w i) (a.w i)) (a.w i)
  let n := sqrtF (fmaF (g 6) (g 6) (fmaF (g 5) (g 5) (fmaF (g 4) (g 4) (mulF (g 3) (g 3)))))
  let h := fun (i : Nat) => divF (g i) n
  { p := { x := g 0, y := g 1, z := g 2 }, qw := h 3, qx := h 4, qy := h 5, qz := h 6 }

/-- Neighbours of a time in the table, newest first. -/
def findPose (t : Nat) : List PoseEntry → Option Place
  | b :: a :: rest => if a.time ≤ t ∧ t ≤ b.time then some (lerpPose a b t) else findPose t (a :: rest)
  | _ => none

def State.placeAt (s : State) (t : Nat) : Option Place := findPose t s.afu.poses

/-- Rows of the rotation matrix of a pose. -/
def Place.rows (q : Place) : V3 × V3 × V3 :=
  let one := fl f1
  let two := fl f2
  let m := fun (a b : Fl) => mulF two (mulF a b)
  let d := fun (a b : Fl) => subF one (mulF two (fmaF b b (mulF a a)))
  ({ x := d q.qy q.qz, y := subF (m q.qx q.qy) (m q.qw q.qz), z := addF (m q.qx q.qz) (m q.qw q.qy) },
   { x := addF (m q.qx q.qy) (m q.qw q.qz), y := d q.qx q.qz, z := subF (m q.qy q.qz) (m q.qw q.qx) },
   { x := subF (m q.qx q.qz) (m q.qw q.qy), y := addF (m q.qy q.qz) (m q.qw q.qx), z := d q.qx q.qy })

def V3.add (a b : V3) : V3 := { x := addF a.x b.x, y := addF a.y b.y, z := addF a.z b.z }
def Place.rot (q : Place) (v : V3) : V3 :=
  let (r0, r1, r2) := q.rows
  { x := r0.dot v, y := r1.dot v, z := r2.dot v }
def Place.unrot (q : Place) (v : V3) : V3 :=
  let (r0, r1, r2) := q.rows
  let c := fun (f : V3 → Fl) => ({ x := f r0, y := f r1, z := f r2 } : V3)
  { x := (c (fun r => r.x)).dot v, y := (c (fun r => r.y)).dot v, z := (c (fun r => r.z)).dot v }

/-- A point of the ego frame at `c`, moved by `v` in the plan frame, in the ego frame at `i` (R461). -/
def carry (c i : Place) (p v : V3) : V3 := i.unrot ((((c.rot p).add v).add c.p).sub i.p)

def zero3 : V3 := { x := fl 0#32, y := fl 0#32, z := fl 0#32 }

/-! ### Detections -/

/-- A detection (R455) of a slot, propagated to its instant. -/
structure Det where
  slot : Nat
  idx : Nat
  cls : Nat
  conf : Word
  at_ : V3
  numf : Numf

/-- Signed time difference in seconds. -/
def secs (b a : Nat) : Word :=
  if a ≤ b then fracF32 (b - a) 1000000000 else fneg (fracF32 (a - b) 1000000000)

/-- The detections of a contribution at an instant; one with a field that is not finite is skipped (R465). -/
def State.detsOf (s : State) (tinst : Nat) (c : Contrib) : List Det × Numf :=
  match s.placeAt c.capt, s.placeAt tinst with
  | some pc, some pi =>
    (List.range (c.data.length / 48)).foldl (fun (acc : List Det × Numf) k =>
      let ws := wordsOf ((c.data.drop (48 * k)).take 48)
      let w := fun (i : Nat) => ws.getD i 0#32
      if allFin ((ws.drop 1).take 10) = false then (acc.1, acc.2 ||| nfNanIn)
      else
        let dt := fl (secs tinst c.capt)
        let v := if flagOf (w 0) 8 then ({ x := mulF (fl (w 6)) dt, y := mulF (fl (w 7)) dt, z := fl 0#32 } : V3) else zero3
        let p := carry pc pi { x := fl (w 2), y := fl (w 3), z := fl (w 4) } v
        (acc.1 ++ [{ slot := c.sensor, idx := k, cls := fieldOf (w 0) 7 0, conf := w 1, at_ := p, numf := p.nf }], acc.2 ||| p.nf))
      ([], 0)
  | _, _ => ([], 0)

/-- Order of association: CONF descending, then slot, then index. -/
def detBefore (a b : Det) : Bool :=
  flt b.conf a.conf || (!flt a.conf b.conf && (decide (a.slot < b.slot) || (a.slot == b.slot && decide (a.idx < b.idx))))

def insertDet (x : Det) : List Det → List Det
  | [] => [x]
  | y :: rest => if detBefore x y then x :: y :: rest else y :: insertDet x rest

/-! ### L3 (R465) -/

def insertTrack (x : Track) : List Track → List Track
  | [] => [x]
  | y :: rest => if x.tid < y.tid then x :: y :: rest else y :: insertTrack x rest

def State.putTracks (s : State) (ts : List Track) : State := { s with afu := { s.afu with tracks := ts } }

/-- Predict every track: the filter's numbers are free (log 60). -/
def predictAll : List Track → State → List Track × State
  | [], s => ([], s)
  | t :: rest, s =>
    let (xs, s) := s.drawWords 5
    let (p, s) := s.drawWords 1
    let (ts, s) := predictAll rest s
    ({ t with ws := xs ++ (t.ws.drop 5).take 4 ++ p, age := t.age + 1, sensors := 0 } :: ts, s)

/-- The tracks that a detection of a slot may take, each with its free Mahalanobis distance; the best within the gate. -/
def bestTrack (gate : Word) (slot : Nat) : List Track → Option (Nat × Word) → State → Option Nat × State
  | [], best, s => (best.map (fun b => b.1), s)
  | t :: rest, best, s =>
    if bitOf t.sensors slot then bestTrack gate slot rest best s
    else
      let (i, s) := s.draw
      let d := Config.freeWord i
      let better := match best with | some b => flt d b.2 | none => true
      bestTrack gate slot rest (if fle d gate && better then some (t.tid, d) else best) s

/-- The lowest free TID. -/
def freeTid (ts : List Track) : Nat := ((List.range 1024).find? (fun i => ts.all (fun t => t.tid != i))).getD 0

/-- A TENTATIVE track of lowest CONF below `conf`. -/
def weakest (conf : Word) (ts : List Track) : Option Track :=
  (ts.filter (fun t => !t.confirmed && flt t.conf conf)).foldl (fun (m : Option Track) t =>
    match m with | some b => if flt t.conf b.conf then some t else m | none => some t) none

/-- Handle one detection. -/
def State.associate (s : State) (tinst : Nat) (d : Det) : State :=
  let (hit, s) := bestTrack (s.rd (rk rAFU 1 0x194)) d.slot s.afu.tracks none s
  match hit with
  | some tid =>
    let (ws, s) := s.drawWords 10
    let confn := s.fld (rk rAFU 1 0x190) 11 8
    s.putTracks (s.afu.tracks.map (fun t =>
      if t.tid = tid then
        { t with ws := ws, conf := d.conf, hits := t.hits + 1, confirmed := t.confirmed || decide (confn ≤ t.hits + 1),
                 sensors := Nat.lor t.sensors (2 ^ d.slot), lastT := tinst, miss := 0 }
      else t))
  | none =>
    if flt d.conf (s.rd (rk rAFU 1 0x198)) then s
    else
      let born := fun (s : State) =>
        let (ws, s) := s.drawWords 10
        s.putTracks (insertTrack { tid := freeTid s.afu.tracks, cls := d.cls, ws := ws, conf := d.conf, sensors := 2 ^ d.slot,
                                   lastT := tinst } s.afu.tracks)
      if s.afu.tracks.length < 1024 then born s
      else
        match weakest d.conf s.afu.tracks with
        | some t => born (s.putTracks (s.afu.tracks.filter (fun x => x.tid != t.tid)))
        | none => s.count rAFU 7

/-- End of an instant: misses count, and tracks that have missed too often or are not finite go. -/
def State.pruneTracks (s : State) : State :=
  let missmax := s.fld (rk rAFU 1 0x190) 7 0
  let ts := s.afu.tracks.map (fun t => if t.sensors = 0 then { t with miss := t.miss + 1 } else t)
  let s := s.putTracks (ts.filter (fun t => allFin t.ws && !(t.sensors == 0 && decide (missmax ≤ t.miss))))
  s.setFld (rk rAFU 1 0x1A0) 10 0 s.afu.tracks.length

/-- A 64-byte track record. -/
def Track.bytes (t : Track) (unlkOnly : Bool) : List Byte :=
  leBytes 4 (t.tid + t.cls * 2 ^ 11 + 2 ^ 19 * (if t.confirmed then 2 else 1) + (if unlkOnly then 2 ^ 21 else 0)) ++
  bytesOf t.ws ++ leBytes 4 t.age ++ leBytes 4 t.miss ++ leBytes 4 t.sensors ++ leBytes 8 t.lastT

/-! ### L2 (R464) -/

structure GridCfg where
  nx : Nat
  ny : Nat
  cps : Nat
  cell : Nat
  tensor : Nat

def State.gridCfg (s : State) : GridCfg :=
  let k := rk rAFU 1 0x18C
  { nx := 64 * (s.fld k 3 0 + 1), ny := 64 * (s.fld k 7 4 + 1), cps := s.fld k 12 8 + 1, cell := s.fld k 23 13, tensor := s.fld k 31 24 }

def GridCfg.groupLen (g : GridCfg) : Nat := g.nx * g.ny * g.cps * 2
def GridCfg.pitch (g : GridCfg) : Nat := ceilDiv (64 + g.nx * g.cps * 2) 64 * 64

/-- A BF16 value of a group at cell (x, y), channel c; +0 outside the grid. -/
def GridCfg.at (g : GridCfg) (data : List Byte) (x y : Int) (c : Nat) : Fl :=
  if 0 ≤ x ∧ x < g.nx ∧ 0 ≤ y ∧ y < g.ny then
    let i := ((y.toNat * g.nx + x.toNat) * g.cps + c) * 2
    fl (BitVec.ofNat 32 (65536 * leNat ((data.drop i).take 2)))
  else fl 0#32

/-- One row of a group, warped from the frame at `c` into the frame at `i`; the flags of its arithmetic. -/
def GridCfg.warpRow (g : GridCfg) (data : List Byte) (c i : Place) (y : Nat) : List Byte × Numf :=
  let cell := fl (fracF32 g.cell 100)
  let off := fun (n : Nat) => fl (toF32 (.num false (n - 1) (-1))).1
  let pos := fun (k n : Nat) => mulF (subF (fl (intToF32 (k : Int))) (off n)) cell
  (List.range g.nx).foldl (fun (acc : List Byte × Numf) x =>
    let p := carry i c { x := pos x g.nx, y := pos y g.ny, z := fl 0#32 } zero3
    let u := addF (divF p.x cell) (off g.nx)
    let v := addF (divF p.y cell) (off g.ny)
    if !(isFin u.1 && isFin v.1) then (acc.1 ++ List.replicate (2 * g.cps) 0#8, acc.2 ||| u.2 ||| v.2)
    else
      let x0 := floorF32 u.1
      let y0 := floorF32 v.1
      let fx := subF u (fl (intToF32 x0))
      let fy := subF v (fl (intToF32 y0))
      let gx := subF (fl f1) fx
      let gy := subF (fl f1) fy
      let cells := (List.range g.cps).map (fun ch =>
        let t := fmaF (mulF fx fy) (g.at data (x0 + 1) (y0 + 1) ch) (fmaF (mulF gx fy) (g.at data x0 (y0 + 1) ch)
          (fmaF (mulF fx gy) (g.at data (x0 + 1) y0 ch) (mulF (mulF gx gy) (g.at data x0 y0 ch))))
        let r := bf16.convert .rne false (f32 t.1)
        (leBytes 2 r.1, t.2 ||| r.2))
      (acc.1 ++ cells.flatMap (fun x => x.1), cells.foldl (fun a x => a ||| x.2) acc.2)) ([], 0)

def GridCfg.tile (g : GridCfg) (group y : Nat) (row : List Byte) : List Byte :=
  let t : Tile := { fmt := 1, tensor := g.tensor, trow := y, tcol := group, rows := g.nx, cols := g.cps, data := row }
  t.bytes

/-- A whole group: warped, or +0 where nothing supplies it. -/
def GridCfg.group (g : GridCfg) (group : Nat) (src : Option (List Byte × Place × Place)) : List Byte × Numf :=
  (List.range g.ny).foldl (fun (acc : List Byte × Numf) y =>
    let (row, nf) := match src with
      | some (data, c, i) => g.warpRow data c i y
      | none => (List.replicate (2 * g.nx * g.cps) 0#8, 0)
    (acc.1 ++ g.tile group y row, acc.2 ||| nf)) ([], 0)

/-- The group's rows out of a grid buffer. -/
def GridCfg.ungroup (g : GridCfg) (group : Nat) (buf : List Byte) : List Byte :=
  (List.range g.ny).flatMap (fun y => ((buf.drop ((group * g.ny + y) * g.pitch + 64)).take (2 * g.nx * g.cps)))

/-! ### Binding (R449, R451) -/

/-- An ISSUE is bound to the next instant of its stream, or skipped (R449, R457). -/
def effAfuIssue (m : Nat) (s : State) : State :=
  match s.nextOp rAFU m with
  | none => s
  | some o =>
    let x := s.str m
    if o.opcode ≠ 1 ∨ s.flag (kSTR m) 17 = false ∨ 2 ≤ x.bound.length then s
    else
      let s := s.start rAFU m o
      if o.addr 0x10 % 128 ≠ 0 ∨ o.addr 0x18 % 64 ≠ 0 ∨ o.addr 0x20 % 64 ≠ 0 ∨ zeroWords o 10 = false then
        s.finish rAFU m o.index stREJ_FORMAT
      else
        let p := BitVec.ofNat 64 (s.instantAfter m (match x.last with | some p => p.toNat | none => s.phase64.toNat))
        let s := s.putStr m { x with last := some p }
        let old := match s.timeOf p with | some t => decide (t + s.agemax m < s.now) | none => true
        if old then (s.count rAFU 3).finish rAFU m o.index stMISS_DEADLINE
        else
          let b : Bound := { queue := m, index := o.index, phase := p, out := o.addr 0x10, trk := o.addr 0x18, grid := o.addr 0x20 }
          s.putStr m { s.str m with bound := x.bound ++ [b] }

/-- Place a contribution: of one sensor and kind the latest capture is used (R453). -/
def State.bindContrib (s : State) (m : Nat) (b : Bound) (c : Contrib) : State :=
  let same := fun (x : Contrib) => x.sensor == c.sensor && x.kind == c.kind
  let put := fun (s : State) (cs : List Contrib) =>
    let x := s.str m
    s.putStr m { x with bound := x.bound.map (fun y => if y.index = b.index then { y with contribs := cs } else y) }
  match b.contribs.find? same with
  | none => put s (b.contribs ++ [c])
  | some old =>
    let s := s.addSat (kSEN c.sensor 2) 31 16 1
    if c.capt < old.capt then s else put s (b.contribs.filter (fun x => !same x) ++ [c])

def contribOk (o : Op) : Bool :=
  o.fld 0x10 31 7 == 0 && o.fld 0x10 6 5 != 3 && o.fld 0x14 31 13 == 0 && decide (o.fld 0x14 12 0 ≤ 4096) &&
  o.addr 0x20 % 64 == 0 && zeroWords o 10

/-- A CONTRIB binds to an instant (R451). -/
def effAfuContrib (q : Nat) (s : State) : State :=
  match s.nextOp rAFU q with
  | none => s
  | some o =>
    if o.opcode ≠ 2 then s
    else if contribOk o = false then (s.start rAFU q o).finish rAFU q o.index stREJ_FORMAT
    else
      let n := o.fld 0x10 4 0
      let kind := o.fld 0x10 6 5
      let capt := o.addr 0x18
      let m := s.senStream n
      let st := s.senState n
      let used := (st == 2 || (st == 3 && kind != 1)) && (kind != 1 || s.senGrid n)
      if used = false then (s.start rAFU q o).conclude rAFU q o.index stDONE
      else
        let reaches := fun (p : Nat) => match s.timeOf (BitVec.ofNat 64 p) with | some t => decide (capt ≤ t + 1000) | none => false
        match (s.str m).bound.find? (fun b => reaches b.phase.toNat) with
        | none => s
        | some b =>
          let inj := s.injArmed rAFU 2 && s.senSel == n
          let own := !reaches (s.instantBefore m b.phase.toNat)
          let late := inj || !own
          let s := if inj then s.injDone rAFU 2 else s
          let s := s.start rAFU q o
          let tinst := (s.timeOf b.phase).getD s.now
          let s := s.egoRefresh
          if capt + s.agemax m < tinst ∨ s.inTable capt = false ∨ (late = true ∧ s.egoq = 3) then
            (s.count rAFU 3).conclude rAFU q o.index stMISS_DEADLINE
          else
            let len := if kind = 1 then s.gridCfg.groupLen else 48 * o.fld 0x14 12 0
            let viol := some (rAFU, q, o.index)
            let r := if len = 0 then (Tx.ok [], s) else s.txRead (some 0x4A) (o.addr 0x20) len viol
            match r with
            | (.ok bs, s) =>
              let s := s.bindContrib m b { sensor := n, kind := kind, capt := capt, late := late, data := bs }
              if late then ((s.count rAFU 2).countTcc rAFU).conclude rAFU q o.index stDONE_DEGRADED 0 0 true
              else s.conclude rAFU q o.index stDONE
            | (.firewall, s) => s.flushItag 0x4A
            | (tx, s) => (s.count rAFU 1).conclude rAFU q o.index tx.status

/-! ### Issue (R450, R454, R457–R468) -/

/-- The slots of a stream. -/
def State.streamSlots (s : State) (m : Nat) : List Nat := (List.range 32).filter (fun n => s.senOn n && s.senStream n == m)

def slotMask (ns : List Nat) : Nat := ns.foldl (fun a n => Nat.lor a (2 ^ n)) 0

/-- What an instant uses: its contributions and replacements, and the slots replaced and omitted (R454). -/
def State.gather (s : State) (m tinst : Nat) (b : Bound) : List Contrib × List Nat × List Nat :=
  let prev := match (s.str m).prev with | some p => p.contribs | none => []
  let lost := s.egoq == 3
  let need := ((s.streamSlots m).filter (fun n => s.senState n == 2 && (s.senKind n == 1 || s.senKind n == 2))).flatMap
    (fun n => (n, 0) :: if s.senGrid n then [(n, 1)] else [])
  let missing := need.filter (fun x => !b.contribs.any (fun c => c.sensor == x.1 && c.kind == x.2))
  missing.foldl (fun (acc : List Contrib × List Nat × List Nat) x =>
    match prev.find? (fun c => c.sensor == x.1 && c.kind == x.2) with
    | some c =>
      if lost || decide (c.capt + s.agemax m < tinst) || !s.inTable c.capt then (acc.1, acc.2.1, x.1 :: acc.2.2)
      else (acc.1 ++ [c], x.1 :: acc.2.1, acc.2.2)
    | none => (acc.1, acc.2.1, x.1 :: acc.2.2)) (b.contribs, [], [])

/-- Do two detections match in the shadow check (R467)? -/
def Det.matches (a b : Det) (gate : Word) : Bool :=
  let d := a.at_.sub b.at_
  a.cls == b.cls && fle (sqrtF (d.dot d)).1 gate

/-- The shadow check: DIS, and whether a checker contribution is missing. -/
def State.shadow (s : State) (m tinst : Nat) (cs : List Contrib) : Nat × Bool :=
  let mask := s.fld (rk rAFU 3 0x104) 31 0
  let slots := (s.streamSlots m).filter (fun n => bitOf mask n)
  let conf := s.rd (rk rAFU 3 0x10C)
  let gate := s.rd (rk rAFU 3 0x108)
  let take := fun (kind : Nat) =>
    (cs.filter (fun c => c.kind == kind && slots.contains c.sensor)).flatMap (fun c => (s.detsOf tinst c).1)
  let main := take 0
  let chk := (take 2).filter (fun d => fle conf d.conf)
  let d1 := (chk.filter (fun d => !main.any (fun e => e.matches d gate))).length
  let d2 := ((main.filter (fun d => fle conf d.conf)).filter (fun d => !chk.any (fun e => e.matches d gate))).length
  (d1 + d2, slots.any (fun n => !cs.any (fun c => c.kind == 2 && c.sensor == n)))

/-- The grid buffer of an instant. -/
def State.gridBytes (s : State) (m tinst : Nat) (cs : List Contrib) : List Byte × Numf :=
  let g := s.gridCfg
  let owners := (s.streamSlots m).filter s.senGrid
  (List.range owners.length).foldl (fun (acc : List Byte × Numf) k =>
    let src := match cs.find? (fun c => c.kind == 1 && c.sensor == owners.getD k 0) with
      | some c => (match s.placeAt c.capt, s.placeAt tinst with | some a, some b => some (c.data, a, b) | _, _ => none)
      | none => none
    let (bs, nf) := g.group k src
    (acc.1 ++ bs, acc.2 ||| nf)) ([], 0)

/-- The previous issued instant's grid, warped forward (R468). -/
def State.agedGrid (s : State) (m tinst : Nat) (viol : Nat × Nat × Nat) : Tx (List Byte × Numf) × State :=
  let g := s.gridCfg
  let n := ((s.streamSlots m).filter s.senGrid).length
  let none_ := fun (s : State) => (Tx.ok ((List.range n).foldl (fun (acc : List Byte × Numf) k => (acc.1 ++ (g.group k none).1, 0)) ([], 0)), s)
  match (s.str m).prev with
  | none => none_ s
  | some p =>
    if n = 0 then (.ok ([], 0), s)
    else
      match s.txRead (some 0x4A) p.grid (n * g.ny * g.pitch) (some viol) with
      | (.ok buf, s) =>
        match s.placeAt p.tinst, s.placeAt tinst with
        | some a, some b =>
          (.ok ((List.range n).foldl (fun (acc : List Byte × Numf) k =>
            let (bs, nf) := g.group k (some (g.ungroup k buf, a, b))
            (acc.1 ++ bs, acc.2 ||| nf)) ([], 0)), s)
        | _, _ => none_ s
      | (.firewall, s) => (.firewall, s)
      | (.error, s) => (.error, s)
      | (.uncorrectable, s) => (.uncorrectable, s)

/-- Remove an issued instant from its stream. -/
def State.unbindInstant (s : State) (m : Nat) (b : Bound) : State :=
  let x := s.str m
  s.putStr m { x with bound := x.bound.filter (fun y => y.index != b.index) }

/-- Errors injected into the read of the track table: whether the issue ends (R469, R472). -/
def State.trackInject (s : State) : Bool × State :=
  let s := if s.injArmed rAFU 0 then ((s.injDone rAFU 0).count rAFU 0).raise rAFU 1 { inj := true } else s
  if s.injArmed rAFU 1 then
    (true, (((s.injDone rAFU 1).count rAFU 1).raise rAFU 2 { inj := true }).putTracks (s.afu.tracks.drop 1))
  else (false, s)

/-- The 128-byte instant record (R458). -/
def instantRecord (m : Nat) (untrusted : Bool) (egoq mlock instant tinst : Nat) (phase : DWord) (masks : List Nat)
    (ntrk frameId : Nat) (pose : List Word) (dis : Nat) : List Byte :=
  leBytes 4 (m + (if untrusted then 16 else 0) + egoq * 32 + mlock * 256) ++ leBytes 4 instant ++ leBytes 8 tinst ++
  leBytes 8 phase.toNat ++ masks.flatMap (leBytes 4) ++ leBytes 4 (ntrk + 65536 * (frameId % 65536)) ++ bytesOf pose ++
  leBytes 4 (dis % 256) ++ List.replicate 48 0#8

/-- The time of the instant; free where the Meridian gives its phase no time. -/
def State.tinstOf (s : State) (b : Bound) : Nat × State :=
  match s.timeOf b.phase with
  | some t => (t, s)
  | none => ((Config.freeDWord s.draw.1).toNat, s.draw.2)

/-- Which sensors an instant lists, by slot number. -/
structure Listed where
  present : List Nat
  repl : List Nat
  gone : List Nat
  late : List Nat
  unlk : List Nat

/-- The verdict of the cross-check (R462–R468): whether it ran, was injected, found no partner, its cell count, and whether
the instant is untrusted. -/
structure Checked where
  ran : Bool
  inj : Bool
  none_ : Bool
  dis : Nat
  untrusted : Bool

def State.listed (s : State) (m : Nat) (b : Bound) (repl gone : List Nat) : Listed :=
  { repl := (List.range 32).filter (fun n => repl.contains n),
    gone := (List.range 32).filter (fun n => gone.contains n),
    late := (List.range 32).filter (fun n => b.contribs.any (fun c => c.sensor == n && c.late)),
    present := (List.range 32).filter (fun n => b.contribs.any (fun c => c.sensor == n && !c.late)),
    unlk := (s.streamSlots m).filter (fun n => s.senState n == 3) }

def State.crossCheck (s : State) (m tinst : Nat) (cs : List Contrib) : Checked :=
  let ran := s.flag (rk rAFU 3 0x100) 0
  let x := if ran then s.shadow m tinst cs else (0, false)
  let inj := ran && s.injArmed rAFU 4
  let dis := Nat.min x.1 255
  { ran := ran, inj := inj, none_ := x.2, dis := dis,
    untrusted := ran && (inj || x.2 || decide (s.fld (rk rAFU 3 0x100) 8 1 < dis)) }

/-- What the cross-check shows: its register, the Night Watch's comparison, and error cause 17. -/
def State.showCheck (s : State) (m instant : Nat) (c : Checked) : State :=
  if c.ran then
    let s := if c.inj then s.injDone rAFU 4 else s
    let s := s.wr (rk rAFU 3 0x110) (BitVec.ofNat 32 (c.dis + instant % 2 ^ 24 * 256))
    let s : State := if s.flag (rk rWATCH 2 0x108) m then
        { s with watch := { s.watch with comparisons := s.watch.comparisons ++ [(c.untrusted, instant, c.dis)] } }
      else s
    let s := if c.none_ then s.countTcc rAFU else s
    if c.untrusted then (s.count rAFU 6).raise rAFU 17 { inj := c.inj, detail := BitVec.ofNat 64 instant } else s
  else s

/-- Tracks are predicted to the instant, detections associated (unless the instant is untrusted), and old tracks pruned. -/
def State.trackStep (s : State) (tinst : Nat) (untrusted : Bool) (dets : List Det) : State :=
  let x := predictAll s.afu.tracks s
  let s := x.2.putTracks x.1
  let s := if untrusted then s
    else (dets.take 4096).foldl (fun s d => s.associate tinst d) (s.addSat (rk rAFU 1 0x1A0) 31 11 (dets.length - 4096))
  s.pruneTracks

/-- The instant's record and RESULT, and the writes its completion makes (R458, R459). -/
def State.issueOut (s : State) (m : Nat) (b : Bound) (tinst : Nat) (l : Listed) (c : Checked) (grid : List Byte) (nf : Numf) : State :=
  let instant := (s.str m).count
  let unlkMask := slotMask l.unlk
  let trk := s.afu.tracks.flatMap (fun t => t.bytes (t.sensors != 0 && Nat.land t.sensors unlkMask == t.sensors))
  let x := s.drawWords 7
  let s := x.2
  let pose := match s.placeAt tinst with | some p => [p.p.x.1, p.p.y.1, p.p.z.1] ++ x.1.drop 3 | none => x.1
  let q := s.egoq
  let rec_ := instantRecord m c.untrusted q (s.fld kLOCKSTAT 2 0) instant tinst b.phase
    [slotMask l.present, slotMask l.repl, slotMask l.gone, slotMask l.late, unlkMask] s.afu.tracks.length s.afu.frameId pose c.dis
  let degraded := !l.repl.isEmpty || !l.gone.isEmpty || !l.late.isEmpty || c.untrusted || q != 0
  let result := instant % 2 ^ 32 + (nf.toNat + l.repl.length * 2 ^ 6 + 2 ^ 12 * l.late.length +
    (if c.untrusted then 2 ^ 18 else 0) + 2 ^ 19 * q) * 2 ^ 32
  let y := s.str m
  let s := s.putStr m { y with count := y.count + 1, prev := some { tinst := tinst, grid := b.grid, contribs := b.contribs } }
  let s : State := { s with afu := { s.afu with outs := s.afu.outs ++
    [{ queue := m, index := b.index, writes := [(b.out, rec_), (b.trk, trk), (b.grid, grid)] }] } }
  s.conclude rAFU m b.index (if degraded then stDONE_DEGRADED else stDONE) (BitVec.ofNat 64 result) 0 (!l.repl.isEmpty || c.none_)

/-- The grid is read (an untrusted instant ages the last one) and the instant goes out. -/
def State.issueGrid (s : State) (m : Nat) (b : Bound) (tinst : Nat) (cs : List Contrib) (l : Listed) (c : Checked) : State :=
  let r := if c.untrusted then s.agedGrid m tinst (rAFU, m, b.index) else (Tx.ok (s.gridBytes m tinst cs), s)
  match r with
  | (.ok (grid, nfG), s) =>
    let dets := (cs.filter (fun c => c.kind == 0)).foldl (fun (acc : List Det × Numf) c =>
      let (ds, nf) := s.detsOf tinst c
      (ds.foldl (fun l d => insertDet d l) acc.1, acc.2 ||| nf)) ([], 0)
    (s.trackStep tinst c.untrusted dets.1).issueOut m b tinst l c grid (nfG ||| dets.2)
  | (.firewall, s) => s.flushItag 0x4A
  | (tx, s) => (s.count rAFU 1).conclude rAFU m b.index tx.status

/-- The instant is issued. -/
def State.issue (s : State) (m : Nat) (b : Bound) : State :=
  let x := s.egoRefresh.tinstOf b
  let y := x.2.gather m x.1 b
  let l := x.2.listed m b y.2.1 y.2.2
  let s := l.repl.foldl (fun (s : State) _ => (s.count rAFU 5).countTcc rAFU) x.2
  let c := s.crossCheck m x.1 y.1
  let z := (s.showCheck m (s.str m).count c).trackInject
  let s := z.2.unbindInstant m b
  if z.1 then s.conclude rAFU m b.index stERR_DATA else s.issueGrid m b x.1 y.1 l c

/-- The first bound instant whose phase the deadline has reached. -/
def State.dueInstant (s : State) (m : Nat) (d : Dispatched) : Option Bound :=
  (s.str m).bound.find? (fun b => decide ((d.occ - b.phase).toNat < 2 ^ 63))

/-- Lidar slots' sweeps move to the instant. -/
def State.lidarMoves (s : State) (m : Nat) (b : Bound) : State :=
  ((s.streamSlots m).filter (fun n => s.senKind n == 2 && (s.senState n == 2 || s.senState n == 3))).foldl
    (fun s n => s.lidarMove n b) s

/-- The fusion deadline of stream `m`: its oldest due instant is issued. -/
def State.fusionDue (s : State) (m : Nat) (d : Dispatched) : State :=
  if s.dropsAt rAFU then s.dropAction d.slot
  else
    let s := s.slotFired d.slot
    match s.dueInstant m d with
    | none => s.addSat (kSTR m) 31 18 1
    | some b =>
      let s := s.lidarMoves m b
      if s.opAlive rAFU m b.index then s.issue m b else s.unbindInstant m b

/-- A fusion-deadline action takes effect (R450). -/
def effFusion (s : State) : State :=
  match s.takeDue Action.isFusion with
  | none => s
  | some (d, s) =>
    match d.action with
    | .fusion m => s.fusionDue m d
    | _ => s

/-- Writes of an issued instant. -/
def State.afuWrites (viol : Nat × Nat × Nat) : List (Nat × List Byte) → State → Tx Unit × State
  | [], s => (.ok (), s)
  | (a, bs) :: rest, s =>
    if bs.isEmpty then State.afuWrites viol rest s
    else
      match s.txWrite (some 0x4A) a bs (some viol) with
      | (.ok _, s) => State.afuWrites viol rest s
      | r => r

/-- OPERATION_COMPLETE of an AFU descriptor (R459). -/
def State.afuComplete (s : State) (q : Nat) (o : Op) : State :=
  match s.afu.outs.find? (fun x => x.queue == q && x.index == o.index) with
  | none => s.finish rAFU q o.index (o.outcome.getD 0) o.result
  | some x =>
    let s : State := { s with afu := { s.afu with outs := s.afu.outs.filter (fun y => !(y.queue == q && y.index == o.index)) } }
    match State.afuWrites (rAFU, q, o.index) x.writes s with
    | (.ok _, s) => s.finish rAFU q o.index (o.outcome.getD 0) o.result
    | (.firewall, s) => s.flushItag 0x4A
    | (tx, s) => s.finish rAFU q o.index tx.status

def execSensorSample (sensor : BitVec 5) (ts : DWord) (s : State) : Outcome := .next (effSensorSample sensor.toNat ts.toNat s)
def execSensorRefEvent (sensor : BitVec 5) (ts : DWord) (s : State) : Outcome := .next (effSensorRef sensor.toNat ts.toNat s)
def execSensorSilentTimeout (sensor : BitVec 5) (s : State) : Outcome := .next (effSensorSilent sensor.toNat s)
def execAfuIssue (stream : BitVec 4) (s : State) : Outcome := .next (effAfuIssue stream.toNat s)
def execAfuContrib (q : BitVec 4) (s : State) : Outcome := .next (effAfuContrib (16 + q.toNat) s)
def execAfuNop (q : BitVec 5) (s : State) : Outcome := .next (effNop rAFU q.toNat s)
def execFusionDeadline (s : State) : Outcome := .next (effFusion s)
def execEgoPoseTick (s : State) : Outcome := .next (effEgoTick s)
def execEgoUpdate (source : BitVec 2) (points : Nat) (eig : Word) (s : State) : Outcome :=
  .next (effEgoUpdate source.toNat points eig s)
def execEgoLostTimeout (s : State) : Outcome := .next (if s.pdDown (regionPd rAFU) then s else s.egoRefresh)
def execFrameWindowExpiry (sensor : BitVec 5) (s : State) : Outcome := .next (effFrameExpiry sensor.toNat s)
def execLidarInstantMove (sensor : BitVec 5) (s : State) : Outcome := .next (effLidarInstant sensor.toNat s)
def execEgoUpdateAgeTimeout (s : State) : Outcome := .next (if s.pdDown (regionPd rAFU) then s else s.egoRefresh)
def execL1Frame (sensor : BitVec 5) (s : State) : Outcome := .next (effL1Frame sensor.toNat s)

end Sys2Proof.Machine
end

