-- ==== Sys2Proof/Machine/Reset.lean ====
section
/-! DEFINITION. What the reset of a main power domain loses and keeps (R540, R553, R577, R578, R597, R719): its blocks'
registers, queues and engines return to reset; page-0 counters, spare bindings, pseudo-channel states and the measurements
live in the always-on island. -/

namespace Sys2Proof.Machine

/-- Registers that a reset of their block keeps: counters and BLK_TCC (R553), bindings, states of parts and pseudo-channels
(R578), and what the Night Watch's boot has put into SEC's pages (R646, log 67). -/
def keepsReg (k : Nat) : Bool :=
  let r := rkRegion k
  let p := rkPage k
  let o := rkOff k
  (p == 0 && ((decide (0x030 ≤ o) && decide (o < 0x050)) || o == 0x054)) ||
  (decide (r < 8) && p == 1) ||
  (decide (rHBM0 ≤ r) && decide (r < rHBM0 + 6) && p == 1 && decide (o < 0x108)) ||
  (r == rSOLV && (p == 1 || (p == 2 && decide (o < 0x140)))) ||
  (r == rCVU && p == 3 && decide (o < 0x188)) ||
  (r == rLNK && p == 1 && (o == 0x108 || o == 0x128)) ||
  (r == rSEC && decide (1 ≤ p) && decide (p ≤ 3))

/-- Forget bytes of memory: they hold unspecified values from here on (R719). -/
def State.dropMem (s : State) (p : Nat → Bool) : State :=
  { s with mem := Sparse.restrict (fun k => !p k) s.mem, badWords := s.badWords.filter (fun k => !p k) }

/-- The Plate window of a Dome; the Archive, its lines and the slots of borrowed objects; HBM3E and LPDDR5X. -/
def isPlateKey (d k : Nat) : Bool := decide (0x00E0000000 + 0x02000000 * d ≤ k) && decide (k < 0x00E0000000 + 0x02000000 * (d + 1))
def isArchiveKey (k : Nat) : Bool := (decide (0x00D0000000 ≤ k) && decide (k < 0x00E0000000)) || decide (2 ^ 62 ≤ k)
def isHbmLpddrKey (k : Nat) : Bool := decide (2 ^ 50 ≤ k) && decide (k < 2 ^ 52)

/-- What an engine keeps beside its registers, at reset. -/
def State.resetEngine (s : State) (r : Nat) : State :=
  if r < 8 then
    ({ s with domes := s.domes.filter (fun e => e.1 != r), walkers := s.walkers.filter (fun e => e.1 != r) }).dropMem (isPlateKey r)
  else if r = rPLATE then
    ({ s with plate := { spareRow := s.plate.spareRow, rgDead := s.plate.rgDead, suspectAt := s.plate.suspectAt } }).dropMem isArchiveKey
  else if r = rSCHED then { s with sched := {}, seeds := [], openQam0 := 0, openQam1 := 0 }
  else if r = rKVW then { s with walkers := [] }
  else if r = rSOLV then { s with solv := {} }
  else if r = rOCC then { s with occ := {} }
  else if r = rAFU then { s with afu := { frameId := s.afu.frameId + 1, phaseLog := s.afu.phaseLog } }
  else if r = rCVU then { s with cvu := {} }
  else if r = rAGE then { s with age := {} }
  else if r = rLNK then { s with link := { rcMode := s.link.rcMode } }
  else if r = rPCIE then s.setFlag (rk rPCIE 1 0x100) 0 s.link.rcMode
  else if r = rCSI then { s with csi := {} }
  else if r = rETH then { s with eth := {} }
  else s

/-- Boot voltages reappear as AGE's VNOW (R613, R633). -/
def State.railsToBoot (s : State) : State :=
  (List.range s.boot.rails.length).foldl (fun s r => s.setFld (rk rAGE 1 (0x114 + 8 * r)) 10 0 (s.boot.rails.getD r 0)) s

/-- Reset one block. -/
def State.resetRegion (s : State) (r : Nat) : State :=
  let gone := s.waiting.filter (fun a => rkRegion a.key == r)
  let s : State :=
    { s with
      regs := Sparse.restrict (fun k => rkRegion k != r || keepsReg k) s.regs
      locks := s.locks.filter (fun k => rkRegion k != r)
      queues := Sparse.restrict (fun k => k / 4096 != r) s.queues
      qcmds := Sparse.restrict (fun k => k != r) s.qcmds
      armed := Sparse.restrict (fun k => k != r) s.armed
      spares := Sparse.restrict (fun k => k / 4 != r) s.spares
      wins := Sparse.restrict (fun k => k != r) s.wins
      waiting := s.waiting.filter (fun a => rkRegion a.key != r)
      out := gone.map (fun a => Out.errorResponse a.ini.itag) ++ s.out }
  let s := s.resetEngine r
  let s := if r = rAGE then s.railsToBoot else s
  if hasSpares r && r != rPLATE && !(decide (rHBM0 ≤ r) && decide (r < rHBM0 + 6)) then
    (s.showSpares r).setFlag (kSTAT r) 2 ((spareSets r).any (fun S => (List.range S.nlog).any (fun l => !S.avail s l)))
  else s

/-- Freezes whose home block lies in one of these regions clear, and their held requests are discarded (R540). -/
def State.clearFreezes (s : State) (p : Nat → Bool) : State :=
  let here := fun (t : Itag) => match homeBlock t.toNat with | some h => p h | none => false
  { s with frozen := s.frozen.filter (fun t => !here t), unfreezing := s.unfreezing.filter (fun t => !here t),
           held := s.held.filter (fun a => !here a.ini.itag) }

/-- CAN FD 4–7 and CAN XL lie in PD31, their region in PD3. -/
def State.resetFarCan (s : State) : State :=
  { s with
    regs := Sparse.restrict (fun k => !(rkRegion k == rCAN && rkPage k == 1 && decide (0x180 ≤ rkOff k))) s.regs
    can := { boxes := Sparse.restrict (fun k => decide (k < 4 * 256)) s.can.boxes
             bus := Sparse.restrict (fun k => decide (k < 4)) s.can.bus } }

/-- Reset a main power domain. -/
def State.resetPd (s : State) (pd : Nat) : State :=
  let s := (pdRegions pd).foldl State.resetRegion s
  let s := s.clearFreezes (fun r => regionPd r == pd)
  if pd = 31 then s.resetFarCan else s

def mainPds : List Nat := (List.range 32).filter isMainPd

end Sys2Proof.Machine
end

