-- ==== Sys2Proof/Machine/Sha.lean ====
section
/-! DEFINITION. SHA-256 (FIPS 180-4) and HMAC-SHA-256 (RFC 2104), which the records, measurements and restart images of
R577–R650 use. -/

namespace Sys2Proof.Machine

/-- The round constants. -/
def shaK : List Word :=
  [ 0x428a2f98, 0x71374491, 0xb5c0fbcf, 0xe9b5dba5, 0x3956c25b, 0x59f111f1, 0x923f82a4, 0xab1c5ed5,
    0xd807aa98, 0x12835b01, 0x243185be, 0x550c7dc3, 0x72be5d74, 0x80deb1fe, 0x9bdc06a7, 0xc19bf174 ] ++
  [ 0xe49b69c1, 0xefbe4786, 0x0fc19dc6, 0x240ca1cc, 0x2de92c6f, 0x4a7484aa, 0x5cb0a9dc, 0x76f988da,
    0x983e5152, 0xa831c66d, 0xb00327c8, 0xbf597fc7, 0xc6e00bf3, 0xd5a79147, 0x06ca6351, 0x14292967 ] ++
  [ 0x27b70a85, 0x2e1b2138, 0x4d2c6dfc, 0x53380d13, 0x650a7354, 0x766a0abb, 0x81c2c92e, 0x92722c85,
    0xa2bfe8a1, 0xa81a664b, 0xc24b8b70, 0xc76c51a3, 0xd192e819, 0xd6990624, 0xf40e3585, 0x106aa070 ] ++
  [ 0x19a4c116, 0x1e376c08, 0x2748774c, 0x34b0bcb5, 0x391c0cb3, 0x4ed8aa4a, 0x5b9cca4f, 0x682e6ff3,
    0x748f82ee, 0x78a5636f, 0x84c87814, 0x8cc70208, 0x90befffa, 0xa4506ceb, 0xbef9a3f7, 0xc67178f2 ]

/-- The initial hash value. -/
def shaH0 : List Word :=
  [0x6a09e667, 0xbb67ae85, 0x3c6ef372, 0xa54ff53a, 0x510e527f, 0x9b05688c, 0x1f83d9ab, 0x5be0cd19]

def ror (w : Word) (n : Nat) : Word := (w >>> n) ||| (w <<< (32 - n))

/-- Big-endian words of a message. -/
def beWords : List Byte → List Word
  | a :: b :: c :: d :: rest => BitVec.ofNat 32 (beNat [a, b, c, d]) :: beWords rest
  | _ => []

/-- The next `n` words of the message schedule; `w` holds the last sixteen, newest first. -/
def shaSchedule : Nat → List Word → List Word
  | 0, _ => []
  | n + 1, w =>
    let a := w.getD 1 0
    let b := w.getD 14 0
    let s1 := ror a 17 ^^^ ror a 19 ^^^ (a >>> 10)
    let s0 := ror b 7 ^^^ ror b 18 ^^^ (b >>> 3)
    let x := s1 + w.getD 6 0 + s0 + w.getD 15 0
    x :: shaSchedule n (x :: w.take 15)

/-- One round on the working variables a … h. -/
def shaRound (v : List Word) (k w : Word) : List Word :=
  match v with
  | [a, b, c, d, e, f, g, h] =>
    let t1 := h + (ror e 6 ^^^ ror e 11 ^^^ ror e 25) + ((e &&& f) ^^^ (~~~ e &&& g)) + k + w
    let t2 := (ror a 2 ^^^ ror a 13 ^^^ ror a 22) + ((a &&& b) ^^^ (a &&& c) ^^^ (b &&& c))
    [t1 + t2, a, b, c, d + t1, e, f, g]
  | v => v

/-- One block of sixteen words. -/
def shaBlock (h block : List Word) : List Word :=
  let ws := block ++ shaSchedule 48 block.reverse
  List.zipWith (· + ·) h ((List.zip shaK ws).foldl (fun v x => shaRound v x.1 x.2) h)

/-- The blocks of a padded message, one after another; `n` bounds them. -/
def shaBlocks : Nat → List Word → List Word → List Word
  | 0, _, h => h
  | n + 1, ws, h => if ws.isEmpty then h else shaBlocks n (ws.drop 16) (shaBlock h (ws.take 16))

/-- SHA-256 of a message: 32 bytes. -/
def sha256 (m : List Byte) : List Byte :=
  let n := m.length
  let pad := (55 + 64 - n % 64) % 64
  let ws := beWords (m ++ [0x80#8] ++ List.replicate pad 0#8 ++ beBytes 8 (8 * n))
  (shaBlocks (n / 64 + 2) ws shaH0).flatMap (fun w => beBytes 4 w.toNat)

/-- HMAC-SHA-256. -/
def hmac256 (key m : List Byte) : List Byte :=
  let k := if 64 < key.length then sha256 key else key
  let k := k ++ List.replicate (64 - k.length) 0#8
  sha256 (k.map (fun b => b ^^^ 0x5C#8) ++ sha256 (k.map (fun b => b ^^^ 0x36#8) ++ m))

end Sys2Proof.Machine
end

