-- ==== Sys2Proof/Machine/Watch.lean ====
section
/-! DEFINITION. The Night Watch: the diverse checker's verdicts, the safe-state controller with its causes and timers, the
restart sequencer, the lockstep pairs and the protected intervals (R560, R571–R585, R721). -/

namespace Sys2Proof.Machine

def kSSCAUSE : Nat := rk rWATCH 1 0x104
def kACT : Nat := rk rWATCH 1 0x10C
def kRSTCFG : Nat := rk rWATCH 1 0x114
def kCAUSECFG : Nat := rk rWATCH 1 0x118
def kRSTHASH (i : Nat) : Nat := rk rWATCH 1 (0x140 + 4 * i)
def kDISCFG : Nat := rk rWATCH 2 0x100
def kDISSTAT : Nat := rk rWATCH 2 0x104
def kCHKSTRM : Nat := rk rWATCH 2 0x108
def kHBTMO : Nat := rk rWATCH 4 0x104

def State.setWatch (s : State) (w : Watch) : State := { s with watch := w }

/-! ### The controller (R574–R576) -/

/-- The action of a cause: its own where the rule fixes one, else WATCH_ACT's. -/
def State.actOf (s : State) (c : Cause) : Nat := c.act.getD (s.fld kACT (2 * c.num + 1) (2 * c.num))

/-- The restart phase shown in WATCH_SAFESTAT (R577): the one in progress. -/
def State.setPhase (s : State) (p : Nat) : State := s.setFld kSAFESTAT 6 3 p

/-- Restarts begun in the last 60 s (R576). -/
def State.recentStarts (s : State) : List Nat := s.watch.starts.filter (fun t => decide (s.now < 60000000000 + t))

/-- HALT: FLY, HALTED, and from here the sequencer quiesces and holds the main domains (R576). -/
def State.haltMain (s : State) : State :=
  let s := (s.fly.enterSafe ssHALTED).setPhase 0
  s.setWatch { s.watch with seq := if s.watch.seq = 3 then 3 else 1, decision := s.now }

/-- A restart begins from Decide (R576, R577). -/
def State.beginRestart (s : State) : State :=
  let s := ((s.fly.enterSafe ssRESTARTING).setPhase 1).count rWATCH 4
  let s := s.setFld kDISSTAT 8 0 0
  s.setWatch { s.watch with
    starts := s.now :: s.recentStarts, decision := s.now, recovDone := false, seq := 1, bootEnded := false, verdicts := [],
    hofail := 0 }

/-- RESTART, or HALTED where RSTMAX restarts began in the last 60 s. -/
def State.restartOrHalt (s : State) : State :=
  if s.fld kRSTCFG 3 0 ≤ s.recentStarts.length then s.haltMain else s.beginRestart

/-- What a decision makes of the state (R575, R576). HALTED is left by a cold boot only. -/
def State.react (s : State) (act : Nat) : State :=
  let st := s.safe
  if st = ssHALTED then s
  else if act = 3 then s.haltMain
  else if act = 2 then s.restartOrHalt
  else if st = ssNORMAL then s.enterSafe ssDEGRADED
  else if st = ssDEGRADED then s.setWatch { s.watch with clean := 0 }
  else s.setWatch { s.watch with remembered := true }

/-- The controller takes one cause (R575): SEEN, and unless it is ignored or only logged, the decision with its record. -/
def State.takeCause (s : State) (c : Cause) : State :=
  let st := s.safe
  if st = ssRECOVERING ∧ (c.num = 3 ∨ c.num = 4) then s
  else
    let s := s.setFlag kSSCAUSE c.num true
    if st = ssRESTARTING ∧ c.island = false then s
    else
      let act := s.actOf c
      let ev : Ev := { always := true, inj := c.inj, detail := BitVec.ofNat 64 c.num }
      if act = 0 then s.eventRecord rWATCH 0xF ev
      else
        let s := ((s.setFld kSSCAUSE 19 16 c.num).raise rWATCH 16 ev).count rWATCH 3
        let s := if c.num = 7 then (s.setWatch { s.watch with latched := true }).setFlag kSAFESTAT 7 true else s
        s.react act

/-- The pending cause whose action is the most severe, the oldest of equals (R574). -/
def State.worstCause (s : State) : Option Cause :=
  let top := s.watch.causes.foldl (fun m c => Nat.max m (s.actOf c)) 0
  s.watch.causes.find? (fun c => s.actOf c == top)

/-- Within 2 µs of arriving, the most severe pending cause is taken (R574, R575). -/
def effSafeCause (s : State) : State :=
  match s.worstCause with
  | none => s
  | some c => (s.setWatch { s.watch with causes := s.watch.causes.erase c }).takeCause c

/-- Does a cause of this number have its source in the always-on island (R721)? Cause 8 as an injection is taken as
reported by a main domain. -/
def causeIsland (n : Nat) : Bool := n == 3 || n == 4 || 9 ≤ n

/-! ### The diverse checker (R571–R573) -/

/-- One verdict reaches the controller. -/
def effVerdict (s : State) : State :=
  match s.watch.comparisons with
  | [] => s
  | (bad, instant, _) :: rest =>
    let vs := (bad :: s.watch.verdicts).take 256
    let win := vs.take (s.fld kDISCFG 14 6)
    let n := (win.filter id).length
    let two := bad && vs.getD 1 false
    let clean := if bad then 0 else s.watch.clean + 1
    let s := s.setWatch { s.watch with comparisons := rest, verdicts := vs, clean := clean }
    let s := s.wr kDISSTAT (BitVec.ofNat 32 (n + (if bad then 2 ^ 9 else 0) + (if two then 2 ^ 10 else 0) + instant % 2 ^ 21 * 2 ^ 11))
    let s := if bad then (s.count rWATCH 5).raise rWATCH 18 { detail := BitVec.ofNat 64 instant } else s
    let s := if s.fld kDISCFG 5 0 ≤ n then s.postCause 0 false else if two then s.postCause 1 false else s
    if s.safe = ssDEGRADED ∧ s.watch.latched = false ∧ s.rd kCHKSTRM ≠ 0#32 ∧ s.fld kDISCFG 22 15 ≤ clean ∧ bad = false then
      s.enterSafe ssNORMAL
    else s

/-! ### Timers (R574, R721) -/

def effNoPlan (s : State) : State :=
  if s.watch.planPaused = false ∧ s.watch.planBase + 1000000 * s.fld kCAUSECFG 23 8 ≤ s.now then
    (s.setWatch { s.watch with planBase := s.now }).postCause 4 true
  else s

def effHeartbeat (s : State) : State :=
  let t := s.fld kHBTMO 15 0
  if t ≠ 0 ∧ s.watch.hbBase + 1000000 * t ≤ s.now then (s.setWatch { s.watch with hbBase := s.now }).postCause 5 false else s

def effRecovTimeout (s : State) : State :=
  if (s.safe = ssRESTARTING ∨ s.safe = ssRECOVERING) ∧ s.watch.recovDone = false ∧
      s.watch.decision + 1000000 * s.fld kRSTCFG 15 4 ≤ s.now then
    (s.setWatch { s.watch with recovDone := true }).postCause 11 true
  else s

/-! ### WATCH_SSCMD (R573, R574, R576) -/

/-- A write of WATCH_SSCMD; CMD reads 0. -/
def effSsCmd (v : Word) (t : Itag) (s : State) : State :=
  let cmd := fieldOf v 2 0
  if 1 ≤ cmd ∧ cmd ≤ 3 then s.postCause 15 true (some cmd)
  else if cmd = 4 then
    if s.safe = ssRESTARTING ∧ s.watch.bootEnded = true then
      ((s.setWatch { s.watch with hbBase := s.now, seq := 0 }).enterSafe ssRECOVERING).setPhase 7
    else s.cfgErr rWATCH t
  else if cmd = 5 then
    if s.safe = ssDEGRADED ∧ s.watch.latched = false then s.enterSafe ssNORMAL else s
  else s

/-! ### The restart sequencer (R577–R581) -/

/-- Quiesce ends: memories in self-refresh, interfaces silent. Every write of the model's engines is whole, so that none is
abandoned halfway (R579, log 68). -/
def effQuiesce (s : State) : State :=
  if s.watch.seq ≠ 1 then s
  else
    let s := s.setWatch { s.watch with seq := 2 }
    if s.safe = ssRESTARTING then s.setPhase 3 else s

/-- Put every main domain into HELD: its blocks are reset, freezes clear, and what waits for it ends with an error. -/
def State.holdMain (s : State) : State :=
  let s := mainPds.foldl (fun s pd => if s.pdState pd = 4 then s else (s.resetPd pd).setPd pd 4) s
  let s : State := { s with pwr := { s.pwr with wakeAt := [], wakeFrom := [] },
                            merid := { s.merid with misaligned := s.merid.misaligned &&& 0xF#28 } }
  (List.range 28).foldl (fun s cd => if 4 ≤ cd then (s.setFlag (kCD cd) 1 false).setFlag kVALIGN cd false else s) s

/-- Hold ends (R577). -/
def effHold (s : State) : State :=
  if s.watch.seq ≠ 2 then s
  else
    let s := s.holdMain
    let s := s.setWatch { s.watch with seq := 3 }
    if s.safe = ssRESTARTING then s.setPhase 4 else s

/-- MEASi returns to zero (R646). -/
def kMEAS (i w : Nat) : Nat := rk rSEC 2 (0x100 + 32 * i + 4 * w)
def State.zeroMeas (s : State) (i : Nat) : State := (List.range 8).foldl (fun s w => s.wr (kMEAS i w) 0#32) s

/-- Main domains leave HELD or OFF: clocks locked, domains ACTIVE (R577 Release, R641 Main power). -/
def State.releaseMain (s : State) : State :=
  let s := (List.range 28).foldl (fun s cd => s.setFlag (kCD cd) 1 true) s
  mainPds.foldl (fun s pd => (s.setPd pd 0).touch pd) s

/-- The lock of WATCH_RSTHASH releases and MEAS4 returns to zero at the start of a boot of R645 (R645, R646). -/
def State.startMainBoot (s : State) : State :=
  let s : State := { s with locks := s.locks.filter (fun k => !(decide (kRSTHASH 0 ≤ k) && decide (k ≤ kRSTHASH 7))),
                            boot := { s.boot with mainOnly := true, phase := 4 } }
  s.zeroMeas 4

/-- Release (R577, R611, R645, R646): with memory contents lost, the main domains cold boot from Main power on instead. -/
def effRelease (s : State) : State :=
  if s.watch.seq ≠ 3 ∨ s.safe ≠ ssRESTARTING ∨ s.pwr.brown = true then s
  else
    let s := ((s.zeroMeas 6).zeroMeas 7).setPhase 5
    let s := s.setWatch { s.watch with seq := 4 }
    if s.flag (rk rPWR 1 0x104) 2 then s.startMainBoot
    else s.releaseMain

/-- The bytes of the restart image in LPDDR5X; `none` where one is uncorrectable. -/
def State.restartImage (s : State) : Option (List Byte) :=
  (List.range s.boot.imageLen).mapM (fun i => s.readKey (lpKey (Config.imageBase + i)))

/-- The digest of WATCH_RSTHASH: word 0 holds its first four bytes, the first byte uppermost (log 68). -/
def State.rstHash (s : State) : List Byte := (List.range 8).flatMap (fun i => beBytes 4 (s.rd (kRSTHASH i)).toNat)

/-- An armed failure of the next verification (R652). -/
def State.sigFails (s : State) : Bool × State := if s.injArmed rSEC 0 then (true, s.injDone rSEC 0) else (false, s)

/-- The image check of the Boot phase (R581). -/
def effImageCheck (s : State) : State :=
  if s.watch.seq ≠ 4 ∨ s.safe ≠ ssRESTARTING ∨ s.boot.mainOnly = true then s
  else
    let (bad, s) := s.sigFails
    match s.restartImage with
    | some bs =>
      if bad = false ∧ sha256 bs = s.rstHash then (s.setWatch { s.watch with seq := 5, bootEnded := true }).setPhase 6
      else s.haltMain
    | none => s.haltMain

/-! ### Lockstep pairs and NW_ALIVE (R560, R582) -/

def State.pairIn (s : State) (p : Nat) : Bool := s.flag kSAFESTAT (12 + p)

/-- A mismatch in a pair. -/
def State.pairMismatch (s : State) (p : Nat) (inj : Bool) : State :=
  let s := (s.count rWATCH 2).raise rWATCH 17 { inj := inj, index := p }
  if s.pairIn p = false then s
  else
    let s := s.setFlag kSAFESTAT (12 + p) false
    let s := s.setWatch { s.watch with pairOut := Sparse.set (fun _ => none) s.watch.pairOut p (some s.now) }
    if s.pairIn 0 || s.pairIn 1 || s.safe == ssHALTED then s else s.haltMain

/-- A reset pair has restarted from mask ROM. -/
def effPairDone (p : Nat) (s : State) : State :=
  match Sparse.get (fun _ => none) s.watch.pairOut p with
  | none => s
  | some _ =>
    (s.setWatch { s.watch with pairOut := Sparse.set (fun _ => none) s.watch.pairOut p none }).setFlag kSAFESTAT (12 + p) true

/-- NW_ALIVE toggles every 1 ms while a pair is in service. -/
def effAlive (s : State) : State :=
  if (s.pairIn 0 || s.pairIn 1) && decide (1000000 + s.watch.aliveAt ≤ s.now) then
    s.setWatch { s.watch with alive := !s.watch.alive, aliveAt := s.now }
  else s

/-! ### Protected intervals (R585) -/

def kPROT (k w : Nat) : Nat := rk rWATCH 3 (0x100 + 0x10 * k + 4 * w)

/-- Does interval `k` cover region `r`? -/
def State.protCovers (s : State) (k r : Nat) : Bool :=
  s.rd (kPROT k 1) != 0#32 && (if r < 32 then s.flag (kPROT k 2) r else s.flag (kPROT k 3) (r - 32))

/-- Is the phase inside interval `k`? -/
def State.protNow (s : State) (k : Nat) : Bool :=
  let f := s.phase64.toNat % 2 ^ 32
  decide ((2 ^ 32 + f - (s.rd (kPROT k 0)).toNat) % 2 ^ 32 < (s.rd (kPROT k 1)).toNat)

/-- Is a region covered by an interval now? -/
def State.isProtected (s : State) (r : Nat) : Bool := (List.range 16).any (fun k => s.protCovers k r && s.protNow k)

/-- Interval `k` begins, once a revolution: each open window in a covered region is closed 100 ns later. The forced close
travels as a dispatched close action that no slot owns. -/
def effProtStart (k : Nat) (s : State) : State :=
  let rev := ((s.phase64 - (s.rd (kPROT k 0)).setWidth 64) >>> 32).toNat + 1
  if s.protNow k = false ∨ Sparse.get (fun _ => 0) s.watch.protDone k = rev then s
  else
    let s := s.setWatch { s.watch with protDone := Sparse.set (fun _ => 0) s.watch.protDone k rev }
    (List.range 40).foldl (fun s r =>
      if s.protCovers k r && s.flag (kSTAT r) 3 && hasSpares r then
        let d : Dispatched := { slot := 1024 + k, action := .windowClose r 0, due := s.now + 100 }
        { s with merid := { s.merid with flying := insertFlying d s.merid.flying } }
      else s) s

/-! ### Meanings -/

def execCheckerVerdict (s : State) : Outcome := .next (effVerdict s)
def execSafeCause (s : State) : Outcome := .next (effSafeCause s)
def execNoplanTimeout (s : State) : Outcome := .next (effNoPlan s)
def execHeartbeatTimeout (s : State) : Outcome := .next (effHeartbeat s)
def execRecovTimeout (s : State) : Outcome := .next (effRecovTimeout s)
def execRestartQuiesce (s : State) : Outcome := .next (effQuiesce s)
def execRestartHold (s : State) : Outcome := .next (effHold s)
def execRestartRelease (s : State) : Outcome := .next (effRelease s)
def execRestartImageCheck (s : State) : Outcome := .next (effImageCheck s)
def execPairMismatch (pair : BitVec 1) (s : State) : Outcome := .next (s.pairMismatch pair.toNat false)
def execPairRestartDone (pair : BitVec 1) (s : State) : Outcome := .next (effPairDone pair.toNat s)
def execNwAliveToggle (s : State) : Outcome := .next (effAlive s)
/-- R582: the check itself changes nothing; a mismatch comes as PAIR_MISMATCH. -/
def execPairHeartbeatCheck (s : State) : Outcome := .next s
def execProtIntervalStart (k : BitVec 4) (s : State) : Outcome := .next (effProtStart k.toNat s)

end Sys2Proof.Machine
end

