-- ==== Sys2Proof/Machine/Supply.lean ====
section
/-! DEFINITION. The power controller: domain states and their budgets, wakes and pre-wakes, sleep, the power and thermal
ceilings, supply events and power-management faults (R591–R612, R620, R621). -/

namespace Sys2Proof.Machine

def kGLAT : Nat := rk rPWR 1 0x100
def kPSTAT : Nat := rk rPWR 1 0x104
def kLEVEL : Nat := rk rPWR 1 0x108
def kPLIM : Nat := rk rPWR 1 0x10C
def kPEST : Nat := rk rPWR 1 0x110
def kTCFG : Nat := rk rPWR 1 0x114
def kTJMAX : Nat := rk rPWR 1 0x118
def kVIN : Nat := rk rPWR 1 0x11C
def kPDCMD : Nat := rk rPWR 2 0x200

def State.setPwr (s : State) (p : Pwr) : State := { s with pwr := p }

/-! ### Budgets and idleness (R70, R93, R594) -/

/-- LAT_US of a block, or PWR_GLAT where it is 0. -/
def State.latUs (s : State) (r : Nat) : Nat :=
  let l := s.fld (kLATB r) 19 0
  if l = 0 then s.fld kGLAT 19 0 else l

/-- The budget of a domain, µs. -/
def State.budget (s : State) (pd : Nat) : Nat :=
  let ls := (pdRegions pd).map s.latUs
  ls.foldl Nat.min (ls.headD 0)

/-- Does a block of the domain forbid gating (R93)? -/
def State.noGate (s : State) (pd : Nat) : Bool := (pdRegions pd).any (fun r => s.flag (kLATB r) 20)

/-- Has the block an operation in flight, a released descriptor not yet started, a frame on its way or a window open? -/
def State.blockBusy (s : State) (r : Nat) : Bool :=
  s.queues.any (fun e => e.1 / 4096 == r && e.2.ops.any (fun o => o.status.isNone)) ||
  (hasSpares r && s.flag (kSTAT r) 3) ||
  (r == rCVU && s.cvu.chans.any (fun c => c.2.frame.isSome)) ||
  (r == rCSI && s.csi.frames.any (fun f => f.2.isSome)) ||
  (r == rETH && s.eth.tx.any (fun t => !t.2.isEmpty))

/-- Is the domain idle (R594)? -/
def State.pdIdle (s : State) (pd : Nat) : Bool :=
  !(pdRegions pd).any s.blockBusy && !s.waiting.any (fun a => s.keyPd a.key == pd) &&
  !(decide (4 ≤ pd) && decide (pd < 12) &&
    s.sched.jobs.any (fun e => match e.2 with | some j => bitOf j.r.domes (pd - 4) | none => false))

/-- The block an action is aimed at. -/
def actionRegion : Action → Option Nat
  | .trigger _ _ => some rMERID
  | .doorbell r _ _ => some r
  | .sample _ => some rDRIVE
  | .windowOpen r _ => some r
  | .windowClose r _ => some r
  | .fusion _ => some rAFU
  | _ => none

def aimedAt (pd : Nat) (a : Action) : Bool := match actionRegion a with | some r => regionPd r == pd | none => false

/-- Nanoseconds until the effect of the next armed or dispatched occurrence aimed at the domain. -/
def State.nextAimed (s : State) (pd : Nat) : Option Nat :=
  let armed := s.merid.slots.filterMap (fun e =>
    match e.2.next with
    | some p =>
      if s.slotArmed e.1 && aimedAt pd (s.slotAction e.1) then
        some ((s.untilMatch p).getD 0 + actionDelay (s.slotAction e.1))
      else none
    | none => none)
  let flying := (s.merid.flying.filter (fun d => aimedAt pd d.action)).map (fun d => d.due - s.now)
  match armed ++ flying with
  | [] => none
  | x :: rest => some (rest.foldl Nat.min x)

/-- R70: the exit latency fits before the next occurrence, less 1 µs. -/
def State.fitsAimed (s : State) (pd lat : Nat) : Bool :=
  match s.nextAimed pd with | none => true | some t => decide (lat + 1000 ≤ t)

/-- May the domain go deeper: from state `st`, with exit latency `lat` ns, once idle for `ns`? -/
def State.goesDeeper (s : State) (pd st lat ns : Nat) : Bool :=
  s.pdState pd == st && s.pdIdle pd && !s.noGate pd && decide (lat ≤ s.budget pd * 1000) && s.fitsAimed pd lat &&
  decide (Sparse.get (fun _ => 0) s.pwr.idleFrom pd + ns ≤ s.now)

def effClkgate (pd : Nat) (s : State) : State :=
  if pdMayGate pd && decide (1 ≤ s.budget pd) && s.goesDeeper pd 0 200 1000 then s.setPd pd 1 else s

def effRetention (pd : Nat) (s : State) : State :=
  if pdMayRetain pd && s.goesDeeper pd 1 40000 200000 then s.setPd pd 2 else s

def effOff (pd : Nat) (s : State) : State :=
  if pdMayOff pd && s.flag (kPdCfg pd) 0 && s.goesDeeper pd 2 (pdOffExit pd) (1000000 * s.fld (kPdCfg pd) 16 1) then
    (s.resetPd pd).setPd pd 3
  else s

/-! ### Exits (R595–R597) -/

/-- Demand on a clock-gated or retained domain starts its exit. -/
def effWake (pd : Nat) (s : State) : State :=
  if s.pdIdle pd then s else if s.pdState pd = 1 ∨ s.pdState pd = 2 then s.demandPd pd else s

/-- Exit latency from the present state; `none` where the state has no exit of its own. -/
def State.exitLatency (s : State) (pd : Nat) : Option Nat :=
  match s.pdState pd with
  | 1 => some 200
  | 2 => some 40000
  | 3 => if pdMayOff pd then some (pdOffExit pd) else none
  | _ => none

/-- The exit that an armed occurrence calls for (R596). -/
def effPrewake (pd : Nat) (s : State) : State :=
  match s.exitLatency pd, s.nextAimed pd with
  | some lat, some t => if t ≤ lat + 1000 then (s.startExit pd lat).count rPWR 5 else s
  | _, _ => s

/-- A write of PWR_PDCMD. -/
def effPdCmd (v : Word) (t : Itag) (s : State) : State :=
  let pd := fieldOf v 4 0
  let s := s.setFld kPDCMD 4 0 pd
  if fieldOf v 6 5 ≠ 1 then s
  else if pd < 4 then s.cfgErr rPWR t
  else match s.exitLatency pd with | some lat => s.startExit pd lat | none => s

/-- The memory of a domain that restarts as from OFF holds unspecified values (R719). -/
def State.dropPdMem (s : State) (pd : Nat) : State :=
  if 14 ≤ pd ∧ pd < 20 then s.dropMem (fun k => decide (hbmKey (32 * (pd - 14)) 0 ≤ k) && decide (k < hbmKey (32 * (pd - 13)) 0))
  else if pd = 20 then s.dropMem (fun k => decide (2 ^ 50 ≤ k) && decide (k < 2 ^ 51))
  else s

/-- An exit is complete: the domain is ACTIVE. A retention exit that finds a state error restarts it as from OFF (R620). -/
def State.wakeDone (s : State) (pd : Nat) (retErr : Bool) : State :=
  match Sparse.get (fun _ => none) s.pwr.wakeAt pd with
  | none => s
  | some t =>
    if s.now < t ∨ s.pdState pd ≠ 5 then s
    else
      let from_ := Sparse.get (fun _ => 0) s.pwr.wakeFrom pd
      let inj := from_ == 2 && s.injArmed rPWR 2 && s.fld (kEINJ rPWR) 13 9 == pd
      let s := if inj then s.injDone rPWR 2 else s
      let s := s.setPwr { s.pwr with wakeAt := Sparse.set (fun _ => none) s.pwr.wakeAt pd none,
                                     wakeFrom := Sparse.set (fun _ => 0) s.pwr.wakeFrom pd 0 }
      let s := if from_ = 2 ∧ (inj || retErr) = true then ((s.count rPWR 6).resetPd pd).dropPdMem pd else s
      (s.setPd pd 0).touch pd

/-! ### Sleep (R601) -/

/-- A write of PWR_SLEEP; CMD reads 0. -/
def effSleepCmd (v : Word) (s : State) : State :=
  let cmd := fieldOf v 1 0
  if cmd = 1 then
    let s := mainPds.reverse.foldl (fun s pd => (s.resetPd pd).setPd pd 3) s
    let s := s.dropMem isHbmLpddrKey
    s.setPwr { s.pwr with sleeping := true, wakeAt := [], wakeFrom := [] }
  else if cmd = 2 ∧ s.pwr.sleeping = true then (s.setPwr { s.pwr with sleeping := false }).startMainBoot
  else s

/-! ### Ceilings (R602–R605) -/

/-- Set a ceiling: 0 power, 1 thermal, 2 supply; the Dome level is the lowest of the three (R602, R612). -/
def State.setCeiling (s : State) (which v : Nat) : State :=
  let s := s.setFld kLEVEL (4 * which + 3) (4 * which) v
  s.setFld kLEVEL 15 12 (Nat.min (s.fld kLEVEL 3 0) (Nat.min (s.fld kLEVEL 7 4) (s.fld kLEVEL 11 8)))

def State.ceiling (s : State) (which : Nat) : Nat := s.fld kLEVEL (4 * which + 3) (4 * which)

def passed (s : State) (last : Option Nat) (ns : Nat) : Bool := match last with | none => true | some t => decide (t + ns ≤ s.now)

/-- The 1 ms estimate of the input power, in tenths of a watt (R604). -/
def effEstimate (p : Nat) (s : State) : State :=
  if !passed s s.pwr.estAt 1000000 then s
  else
    let s := (s.setFld kPEST 15 0 p).setPwr { s.pwr with estAt := some s.now }
    let lim := s.fld kPLIM 8 0 * 10
    let c := s.ceiling 0
    if lim < p then
      let s := s.setPwr { s.pwr with lowFor := 0 }
      let s := if c = 8 then (s.count rPWR 4).raise rPWR 20 else s
      s.setCeiling 0 (Nat.max 2 (c - 1))
    else if 100 * p < 95 * lim then
      let n := s.pwr.lowFor + 1
      let s := s.setPwr { s.pwr with lowFor := n }
      if 10 ≤ n then s.setCeiling 0 (Nat.min 8 (c + 1)) else s
    else s.setPwr { s.pwr with lowFor := 0 }

/-- Step the thermal ceiling, at most once a millisecond (R605). -/
def State.thermalStep (s : State) (v : Nat) : State :=
  if 1000000 + s.pwr.tempDownAt ≤ s.now ∧ v ≠ s.ceiling 1 then
    (s.setCeiling 1 v).setPwr { s.pwr with tempDownAt := s.now }
  else s

/-- The 100 µs reading of the 64 junction sensors, °C (R605). -/
def effThermal (temps : List Nat) (s : State) : State :=
  if !passed s s.pwr.sampleAt 100000 then s
  else
    let twarn := s.fld kTCFG 6 0
    let temps := if s.now < s.pwr.warnInjUntil then temps.set (s.fld (kEINJ rPWR) 8 3) (twarn + 1) else temps
    let t := temps.foldl Nat.max 0
    let s := (s.setFld kTJMAX 7 0 t).setPwr { s.pwr with sampleAt := some s.now }
    let warm := decide (twarn ≤ t)
    let crit := decide (105 ≤ t)
    let trip := decide (115 ≤ t)
    let was := s.pwr
    let s := s.setPwr { s.pwr with warm := warm, crit := crit, trip := trip }
    let s := if warm && !was.warm then (s.count rPWR 2).raise rPWR 18 else s
    let s := if crit && !was.crit then ((s.count rPWR 3).raise rPWR 19).postCause 10 true else s
    let s := if trip && !was.trip then s.postCause 10 true (some 3) else s
    if crit then s.setCeiling 1 2
    else if warm then s.thermalStep (Nat.max 2 (s.ceiling 1 - 1))
    else if t + 5 < twarn then s.thermalStep (Nat.min 8 (s.ceiling 1 + 1))
    else s

/-! ### Supply events (R607–R611) -/

/-- The input has fallen below the warning level; it has to stay above it for 1 ms from `since` on. -/
def State.inputLow (s : State) (mv since : Nat) : State :=
  (((s.setFld kVIN 15 0 mv).setFlag kPSTAT 1 true).setFlag kPSTAT 0 false).setPwr { s.pwr with supplyFrom := since }

/-- A fall below 10.2 V (R607). -/
def State.dip (s : State) (mv since : Nat) (inj : Bool) : State :=
  (((s.inputLow mv since).setCeiling 2 2).count rPWR 0).raise rPWR 16 { always := true, inj := inj }

def effDip (mv : Nat) (s : State) : State := if 9000 ≤ mv ∧ mv < 10200 then s.dip mv s.now false else s

/-- The input has stayed above 10.2 V for 1 ms (R600, R608). -/
def State.inputGood (s : State) (mv : Nat) : State :=
  (((s.setFld kVIN 15 0 mv).setFlag kPSTAT 1 false).setFlag kPSTAT 0 true).setCeiling 2 8

def State.steady (s : State) : Bool := decide (1000000 + s.pwr.supplyFrom ≤ s.now)

def effRecover (mv : Nat) (s : State) : State := if 10200 ≤ mv ∧ s.steady = true then s.inputGood mv else s

/-- A fall below 9.0 V (R609): FLY, and the sequencer quiesces and holds the main domains. -/
def effBrownout (mv : Nat) (s : State) : State :=
  if 9000 ≤ mv then s
  else
    let s := (s.inputLow mv s.now).fly
    let s := s.setWatch { s.watch with seq := if s.watch.seq = 3 then 3 else 1, bootEnded := false }
    ((s.setPwr { s.pwr with brown := true }).count rPWR 1).raise rPWR 17

/-- A fall below 8.0 V (R610). -/
def effMemLost (mv : Nat) (s : State) : State :=
  if 8000 ≤ mv then s else ((s.inputLow mv s.now).setFlag kPSTAT 2 true).dropMem isHbmLpddrKey

/-- Recovery from a brownout: cause 10, and RESTART whatever WATCH_ACT states (R611). -/
def effBrownRecover (mv : Nat) (s : State) : State :=
  if 10200 ≤ mv ∧ s.steady = true ∧ s.pwr.brown = true then
    ((s.inputGood mv).setPwr { s.pwr with brown := false }).postCause 10 true (some 2)
  else s

/-- The standby input fails: the module returns to power-on reset (R599). The flash, with its replay-protected area, keeps
its contents. -/
def effStandbyLoss (s : State) : State :=
  { State.reset with
    mem := Sparse.restrict (fun k => decide (flashKey 0 ≤ k) && decide (k < flashKey 0x10000000)) s.mem
    badWords := s.badWords.filter (fun k => decide (flashKey 0 ≤ k) && decide (k < flashKey 0x10000000))
    boot := { svn := s.boot.svn, cold := s.boot.cold, token := s.boot.token, erased := s.boot.erased }
    free := s.free, pending := s.pending }

/-! ### Meanings -/

def execClkgateEntry (pd : BitVec 5) (s : State) : Outcome := .next (effClkgate pd.toNat s)
def execRetentionEntry (pd : BitVec 5) (s : State) : Outcome := .next (effRetention pd.toNat s)
def execOffEntry (pd : BitVec 5) (s : State) : Outcome := .next (effOff pd.toNat s)
def execDomainWake (pd : BitVec 5) (s : State) : Outcome := .next (effWake pd.toNat s)
def execPrewake (pd : BitVec 5) (s : State) : Outcome := .next (effPrewake pd.toNat s)
def execPowerEstimate (p : BitVec 16) (s : State) : Outcome := .next (effEstimate p.toNat s)
def execThermalSample (temps : List (BitVec 8)) (s : State) : Outcome := .next (effThermal (temps.map BitVec.toNat) s)
def execSupplyDip (mv : BitVec 16) (s : State) : Outcome := .next (effDip mv.toNat s)
def execSupplyRecover (mv : BitVec 16) (s : State) : Outcome := .next (effRecover mv.toNat s)
def execBrownout (mv : BitVec 16) (s : State) : Outcome := .next (effBrownout mv.toNat s)
def execMemlost (mv : BitVec 16) (s : State) : Outcome := .next (effMemLost mv.toNat s)
def execBrownoutRecover (mv : BitVec 16) (s : State) : Outcome := .next (effBrownRecover mv.toNat s)
def execStandbyLoss (s : State) : Outcome := .next (effStandbyLoss s)
def execPmicFault (s : State) : Outcome := .next ((s.count rPWR 7).raise rPWR 21)

end Sys2Proof.Machine
end

