-- ==== Sys2Proof/Machine/Ageing.lean ====
section
/-! DEFINITION. The Seeing monitors and the margin planner AGE (R613–R619). -/

namespace Sys2Proof.Machine

def kAGECTRL : Nat := rk rAGE 1 0x100
def kSLACK : Nat := rk rAGE 1 0x104
def kRETQ : Nat := rk rAGE 1 0x108
def kRAIL (r : Nat) : Nat := rk rAGE 1 (0x110 + 8 * r)
def kVNOW (r : Nat) : Nat := rk rAGE 1 (0x114 + 8 * r)

/-- The rail that serves a power domain. -/
def railOf (pd : Nat) : Nat :=
  if pd < 4 then 4 else if pd < 12 then 0 else if pd < 21 then 1 else if pd < 25 then 2 else 3

/-- The retirable part a monitor belongs to: its set of spares and its physical index; `none` for shared logic. -/
def monPart (i : Nat) : Option (SpareSet × Nat) :=
  if i < 352 then some (domeSpares (i / 44), i % 44 / 2)
  else if i < 616 then some (solvSpares, i - 352)
  else if i < 636 then some (driveSpares, (i - 616) / 4)
  else if i < 740 then
    let core := (i - 636) / 4
    some (apcSpares (rAPC0 + (if core < 24 then core / 6 else 0)), core)
  else if i < 774 then some (cvuSpares, i - 740)
  else none

/-- The rail of a monitor. -/
def monRail (i : Nat) : Nat :=
  match monPart i with | some (S, _) => railOf (regionPd S.region) | none => Config.sharedRail i % 5

/-- Is a monitor's domain ACTIVE? The spare application cores belong to no one cluster, shared logic to every domain of its
rail. -/
def State.monActive (s : State) (i : Nat) : Bool :=
  match monPart i with
  | some (S, p) =>
    if rAPC0 ≤ S.region ∧ S.region < rAPC0 + 4 ∧ 24 ≤ p then (List.range 4).any (fun c => s.pdState (21 + c) == 0)
    else s.pdState (regionPd S.region) == 0
  | none => (List.range 32).any (fun pd => railOf pd == Config.sharedRail i % 5 && s.pdState pd == 0)

def State.setAge (s : State) (a : Age) : State := { s with age := a }

/-- One monitor's reading: injections, what AGE_MONDATA shows, and the counts (R613, R620, R621). -/
def State.readMonitor (s : State) (i : Nat) (x : Option Int) : Option Int × State :=
  let sel := s.fld (kEINJ rAGE) 11 2 == i
  let neg := sel && s.injArmed rAGE 0
  let low := sel && s.injArmed rAGE 1
  let inj := neg || low
  let tgt : Int := s.fld kSLACK 9 0
  let (x, s) :=
    if neg then (some (-1), s.injDone rAGE 0) else if low then (some (tgt - 1), s.injDone rAGE 1) else (x, s)
  match x with
  | none => (none, s.count rAGE 6)
  | some v =>
    let least := match Sparse.get (fun _ => none) s.age.lowest i with | some w => if v < w then v else w | none => v
    let s := s.setAge { s.age with lastRead := Sparse.set (fun _ => none) s.age.lastRead i (some v),
                                   lowest := Sparse.set (fun _ => none) s.age.lowest i (some least) }
    let s := if v < tgt then (s.count rAGE 0).raise rAGE 16 { inj := inj, index := i } else s
    (some v, if v < 0 then s.count rAGE 5 else s)

/-- Is a rail at its greatest voltage? -/
def State.atMax (s : State) (r : Nat) : Bool := decide (s.fld (kRAIL r) 21 11 ≤ s.fld (kVNOW r) 10 0)

/-- AGE requests a part's retirement (R615–R617). -/
def State.retirePart (s : State) (i : Nat) (S : SpareSet) (p : Nat) (neg : Bool) : State :=
  if S.st s p = 3 ∨ (S.aux s).wantRetire = some p then s
  else
    let s := s.wr kRETQ (BitVec.ofNat 32 (i + (if neg then 2 ^ 10 else 0) + 2 ^ 11))
    let s := (s.count rAGE 3).raise rAGE 17 { index := i }
    let s := if rAPC0 ≤ S.region ∧ S.region < rAPC0 + 4 then s.raise rAGE 20 { index := p } else s
    let s := if neg then S.setAux s { S.aux s with suspects := p :: (S.aux s).suspects } else s
    let noSpare := match (List.range S.nlog).find? (fun l => S.phys s l == p && S.st s p == 1) with
      | some l => (S.spareFor s l).isNone
      | none => false
    if noSpare then
      let s := s.setFlag (kSTAT S.region) 2 true
      let s := match S.lostBit with | some b => s.raise S.region b { index := p } | none => s
      ((s.count rAGE 4).raise rAGE 18 { index := i }).postCause 8 (S.region == rDRIVE)
    else
      let s := s.setAge { s.age with retired := { region := S.region, part := p, mon := i, phase := s.phase64 } :: s.age.retired }
      S.requestRetire s p

/-- The planner's view of one part's reading (R615). -/
def State.judgePart (s : State) (i : Nat) (v : Int) : State :=
  match monPart i with
  | none => s
  | some (S, p) =>
    let run := if v < (s.fld kSLACK 29 20 : Int) ∧ s.atMax (monRail i) = true then Sparse.get (fun _ => 0) s.age.lowRun i + 1 else 0
    let s := s.setAge { s.age with lowRun := Sparse.set (fun _ => 0) s.age.lowRun i run }
    if v < 0 then s.retirePart i S p true else if run = 3 then s.retirePart i S p false else s

/-- A new setting of a rail. -/
def State.setRail (s : State) (r v : Nat) : State :=
  let s := s.setFld (kVNOW r) 10 0 v
  let lo := Sparse.get (fun _ => 0) s.age.lowV r
  s.setAge { s.age with lowV := Sparse.set (fun _ => 0) s.age.lowV r (if lo = 0 then v else Nat.min lo v),
                        highV := Sparse.set (fun _ => 0) s.age.highV r (Nat.max (Sparse.get (fun _ => 0) s.age.highV r) v) }

/-- The planner moves one rail by the lowest reading `m` (R613). -/
def State.moveRail (s : State) (r : Nat) (m : Int) : State :=
  let tgt : Int := s.fld kSLACK 9 0
  let v := s.fld (kVNOW r) 10 0
  let high := decide (tgt + (s.fld kSLACK 19 10 : Int) < m)
  let since := if high then some ((Sparse.get (fun _ => none) s.age.highFrom r).getD s.now) else none
  let s := s.setAge { s.age with highFrom := Sparse.set (fun _ => none) s.age.highFrom r since }
  if m < tgt ∧ v < s.fld (kRAIL r) 21 11 ∧ passed s (Sparse.get (fun _ => none) s.age.raised r) 1000000 = true then
    let s := s.setAge { s.age with raised := Sparse.set (fun _ => none) s.age.raised r (some s.now) }
    (s.setRail r (Nat.min (s.fld (kRAIL r) 21 11) (v + 5))).count rAGE 1
  else
    match since with
    | some t =>
      if 60000000000 + t ≤ s.now ∧ s.fld (kRAIL r) 10 0 < v then
        (s.setRail r (Nat.max (s.fld (kRAIL r) 10 0) (v - 5))).count rAGE 2
      else s
    | none => s

/-- Shared logic below SLACK_RET with its rail at VMAX (R618), reported as the condition begins. -/
def State.judgeRail (s : State) (r : Nat) (shared : List Int) : State :=
  let low := s.atMax r && shared.any (fun v => decide (v < (s.fld kSLACK 29 20 : Int)))
  let was := s.age.railLow.contains r
  let s := s.setAge { s.age with railLow := if low then (if was then s.age.railLow else r :: s.age.railLow)
                                            else s.age.railLow.filter (fun x => x != r) }
  if low && !was then (s.raise rAGE 19 { index := r }).postCause 10 true else s

/-- Which readings count towards m_r: shared logic, and parts in ACTIVE or TESTING (R613). -/
def State.counts (s : State) (i : Nat) : Bool :=
  match monPart i with | none => true | some (S, p) => S.st s p == 1 || S.st s p == 2

/-- AGE reads every monitor whose domain is ACTIVE (R613). -/
def effAgeRead (readings : List (Option Int)) (s : State) : State :=
  if s.pdDown 29 || !passed s s.age.readAt 10000000 then s
  else
    let s := s.setAge { s.age with readAt := some s.now }
    let (vs, s) := (List.range 1024).foldl (fun (acc : List (Nat × Int) × State) i =>
      if acc.2.monActive i then
        match acc.2.readMonitor i (readings.getD i none) with
        | (some v, s) => ((i, v) :: acc.1, s)
        | (none, s) => (acc.1, s)
      else acc) ([], s)
    let vs := vs.reverse
    let rails := (List.range 5).map (fun r =>
      let mine := (vs.filter (fun x => monRail x.1 == r && s.counts x.1)).map (fun x => x.2)
      let shared := (vs.filter (fun x => monRail x.1 == r && decide (774 ≤ x.1))).map (fun x => x.2)
      (r, mine, shared))
    let s := rails.foldl (fun (s : State) x =>
      match x.2.1 with
      | [] => s
      | m :: ms => s.setFld (kVNOW x.1) 26 11 (patternOf 16 (ms.foldl (fun a b => if b < a then b else a) m))) s
    if s.flag kAGECTRL 0 = false then s
    else
      let s := vs.foldl (fun (s : State) x => s.judgePart x.1 x.2) s
      rails.foldl (fun (s : State) x =>
        let s := s.judgeRail x.1 x.2.2
        match x.2.1 with
        | [] => s
        | m :: ms => s.moveRail x.1 (ms.foldl (fun a b => if b < a then b else a) m)) s

/-- AGE_MONDATA: last and lowest reading of the selected monitor. -/
def State.monData (s : State) : Word :=
  let i := s.fld (rk rAGE 2 0x100) 9 0
  let half := fun (m : Sparse (Option Int)) => match Sparse.get (fun _ => none) m i with | some v => patternOf 16 v | none => 0
  BitVec.ofNat 32 (half s.age.lastRead + 65536 * half s.age.lowest)

/-- R613. -/
def execAgeRead (readings : List (Option (BitVec 16))) (s : State) : Outcome :=
  .next (effAgeRead (readings.map (fun x => x.map BitVec.toInt)) s)

end Sys2Proof.Machine
end

