-- ==== Sys2Proof/Machine/NightLog.lean ====
section
/-! DEFINITION. The Night Log's logger, test rights and the firewall's descriptor commands (R547–R558, R565–R568, R590,
R720). -/

namespace Sys2Proof.Machine

def kNLWR : Nat := rk rWATCH 5 0x100
def kNLRD : Nat := rk rWATCH 5 0x104
def kTRGRANT : Nat := rk rWATCH 6 0x100
def kTRTMO : Nat := rk rWATCH 6 0x10C

/-! ### The logger -/

/-- The eight words of a record, the last its CRC-32C (R547). -/
def Report.words (r : Report) : List Word :=
  let w0 := r.src + r.code * 2 ^ 8 + (if r.inj then 2 ^ 13 else 0) + (if r.lastOf then 2 ^ 14 else 0) +
    2 ^ 16 * r.itag.toNat + 2 ^ 28 * r.ecnt
  let body := leBytes 4 w0 ++ leBytes 4 r.seq ++ leBytes 8 r.phase.toNat ++ leBytes 8 r.detail.toNat ++
    leBytes 4 (r.queue % 65536 + 65536 * (r.index % 65536))
  wordsOf (body ++ leBytes 4 (crc32c body))

def State.nlUsed (s : State) : Nat := (s.rd kNLWR - s.rd kNLRD).toNat
/-- The ring is full while NLWR − NLRD equals 1,024 (R549). -/
def State.nlFull (s : State) : Bool := s.nlUsed == 1024
/-- Two writes start at least 50 ns apart (R549). -/
def State.nlReady (s : State) : Bool :=
  match s.log.lastWrite with | none => true | some t => decide (t + 50 ≤ s.now)

/-- Write a record into ring entry NLWR mod 1,024 and advance NLWR (R549). -/
def State.nlStore (s : State) (r : Report) : State :=
  let w := (s.rd kNLWR).toNat
  let s := { s with log := { s.log with ring := Sparse.set (fun _ => none) s.log.ring (w % 1024) (some r), lastWrite := some s.now } }
  let s := { s with watch := { s.watch with badRecords := s.watch.badRecords.filter (fun x => x != w % 1024) } }
  s.wr kNLWR (BitVec.ofNat 32 (w + 1))

def State.lastSlot (s : State) (r : Nat) : Option Report := Sparse.get (fun _ => none) s.log.last r

/-- The logger takes the report at the head of its queue: dropped while the ring is full (R550), written when 50 ns have
passed and no held last-slot record of its source must come first (R549, R551). -/
def effNlWrite (s : State) : State :=
  match s.log.input with
  | [] => s
  | r :: rest =>
    if s.nlFull then ({ s with log := { s.log with input := rest } }).dropReport r
    else
      let blocked := match s.lastSlot r.src with | some l => decide (l.seq < r.seq) | none => false
      if blocked || !s.nlReady then s
      else ({ s with log := { s.log with input := rest } }).nlStore r

/-- The held last-slot record to be written next: the lowest SRC whose slot is held and of which the input queue holds no
earlier report (R551). -/
def State.nextLast (s : State) : Option Report :=
  (s.log.last.filterMap (fun e => e.2)).find? (fun l => s.log.input.all (fun r => r.src != l.src || decide (l.seq < r.seq)))

/-- Write a held last-slot record, with LASTOF set, when the ring has a free entry (R551). -/
def effLastWrite (s : State) : State :=
  match s.nextLast with
  | none => s
  | some l =>
    if s.nlFull || !s.nlReady then s
    else
      let s := { s with log := { s.log with last := Sparse.set (fun _ => none) s.log.last l.src none } }
      let s := { s with watch := { s.watch with badRecords := s.watch.badRecords.filter (fun x => x != 1024 + l.src) } }
      s.nlStore { l with lastOf := true }

/-- A write to WATCH_NLRD: neither below its value nor above NLWR (R558). -/
def effNlrd (v : Word) (t : Itag) (s : State) : State :=
  if v.toNat < (s.rd kNLRD).toNat ∨ (s.rd kNLWR).toNat < v.toNat then s.cfgErr rWATCH t else s.wr kNLRD v

/-- A read of a record in Night Watch SRAM, with WATCH's injections (R588, R720): `id` is the ring entry, or 1,024 plus
the source of a last slot. -/
def State.readRecord (s : State) (id : Nat) (rep : Option Report) (w : Nat) : Option Word × State :=
  let s := if s.injArmed rWATCH 0 then ((s.injDone rWATCH 0).count rWATCH 0).raise rWATCH 1 { inj := true } else s
  let inj := s.injArmed rWATCH 1
  let s := if inj then
      { s.injDone rWATCH 1 with watch := { s.watch with badRecords := id :: s.watch.badRecords } }
    else s
  if s.watch.badRecords.contains id then (none, (s.count rWATCH 1).raise rWATCH 2 { inj := inj })
  else
    match rep with
    | none => (some 0#32, s)
    | some r => (some (r.words.getD w 0#32), s)

/-! ### Test rights -/

/-- BLK_EINJ of region r returns to its reset value; an injection that has not acted does not act (R556). -/
def State.dropInjection (s : State) (r : Nat) : State := s.wr (kEINJ r) (regReset (kEINJ r))

/-- Clear the injections of the regions whose grant has gone (R556). -/
def State.revoke (s s0 : State) : State :=
  (List.range 40).foldl (fun acc r => if s0.testRights r && !s.testRights r then acc.dropInjection r else acc) s

/-- A write to WATCH_TRGRANT_LO or _HI (R555, R556, R587). -/
def effTrgrant (hi : Bool) (v : Word) (t : Itag) (s : State) : State :=
  let s' := s.writeGeneric (if hi then kTRGRANT + 4 else kTRGRANT) t v
  let s' := { s' with watch := { s'.watch with trTime := s.now } }
  let s' := if v = 0#32 then s' else s'.count rWATCH 7
  s'.revoke s

/-- WATCH_TRTMO ms have passed since the last write of WATCH_TRGRANT (R556). -/
def effRightsExpiry (s : State) : State :=
  if (s.rd kTRGRANT ≠ 0#32 ∨ s.rd (kTRGRANT + 4) ≠ 0#32) ∧ s.watch.trTime + 1000000 * s.fld kTRTMO 15 0 ≤ s.now then
    ((s.wr kTRGRANT 0#32).wr (kTRGRANT + 4) 0#32).revoke s
  else s

/-- WATCH_TRREM: milliseconds until the grants expire. -/
def State.rightsLeft (s : State) : Nat :=
  if s.rd kTRGRANT = 0#32 ∧ s.rd (kTRGRANT + 4) = 0#32 then 0
  else ceilDiv (s.watch.trTime + 1000000 * s.fld kTRTMO 15 0 - s.now) 1000000

/-! ### Firewall descriptors -/

def kDSEL : Nat := rk rFWL 1 0x100
def kDDATA (i : Nat) : Nat := rk rFWL 1 (0x104 + 4 * i)
def kDSTAT : Nat := rk rFWL 1 0x118

/-- A write to FWL_DCMD (R567, R590): nothing while a command is in progress; LOCK is checked before the data. -/
def effFwlCmd (v : Word) (t : Itag) (s : State) : State :=
  let cmd := fieldOf v 1 0
  match s.fwl.busy with
  | some _ => s
  | none =>
    if cmd ≠ 1 ∧ cmd ≠ 2 then s
    else
      let target := s.fld kDSEL 5 0
      let slot := target * 64 + s.fld kDSEL 11 6
      let d : FwDesc := { base := s.rd (kDDATA 0), last := s.rd (kDDATA 1), w2 := s.rd (kDDATA 2) }
      let old : FwDesc := Sparse.get (fun _ => {}) s.fwl.desc slot
      let result :=
        if 55 < target then 3
        else if cmd = 1 then 0
        else if old.lock && !isPair t.toNat then 2
        else if fieldOf d.w2 31 28 ≠ 0 ∨ s.rd (kDDATA 3) ≠ 0#32 ∨ d.last.toNat < d.base.toNat then 4
        else 0
      let s := if result = 2 then s.count rFWL 5 else s
      { s.setFld kDSTAT 2 0 1 with fwl := { s.fwl with busy := some { commit := cmd == 2, slot := slot, desc := d, result := result } } }

/-- The command in progress completes: from here on every checker uses a committed descriptor (R567, R590). -/
def effFwlDone (s : State) : State :=
  match s.fwl.busy with
  | none => s
  | some c =>
    let s := { s.setFld kDSTAT 2 0 c.result with fwl := { s.fwl with busy := none } }
    if c.result ≠ 0 then s
    else if c.commit then
      let s := s.count rFWL 4
      { s with fwl := { s.fwl with
        desc := Sparse.set (fun _ => {}) s.fwl.desc c.slot c.desc, bad := s.fwl.bad.filter (fun x => x != c.slot) } }
    else
      let d : FwDesc := Sparse.get (fun _ => {}) s.fwl.desc c.slot
      (((s.wr (kDDATA 0) d.base).wr (kDDATA 1) d.last).wr (kDDATA 2) d.w2).wr (kDDATA 3) 0#32

/-! ### Meanings -/

/-- A detector of block `src` sends a report that no other command carries (R547). -/
def execNightLogReport (src : BitVec 6) (code : BitVec 5) (inj : Bool) (itag : Itag) (ecnt : BitVec 4) (detail : DWord)
    (queue index : BitVec 16) (s : State) : Outcome :=
  if 40 ≤ src.toNat then .refused (.illFormed "NIGHT_LOG_REPORT")
  else .next (s.report { src := src.toNat, code := code.toNat, inj := inj, itag := itag, ecnt := ecnt.toNat,
                         detail := detail, queue := queue.toNat, index := index.toNat })
/-- R549, R550. -/
def execNightLogWrite (s : State) : Outcome := .next (effNlWrite s)
/-- R551. -/
def execLastslotWrite (s : State) : Outcome := .next (effLastWrite s)
/-- R556. -/
def execTestRightsExpiry (s : State) : Outcome := .next (effRightsExpiry s)
/-- R567, R590. -/
def execFwlCommandDone (s : State) : Outcome := .next (effFwlDone s)

end Sys2Proof.Machine
end

