-- ==== Sys2Proof/Machine/Records.lean ====
section
/-! DEFINITION. Signed records in the NOR flash: their header, validity, anti-rollback and the choice between slots and
copies (R623–R631, R636, R638, R639, R642). -/

namespace Sys2Proof.Machine

def kBOOTSTAT : Nat := rk rSEC 1 0x100
def kDEVID (i : Nat) : Nat := rk rSEC 1 (0x120 + 4 * i)
def kDBGNONCE (i : Nat) : Nat := rk rSEC 1 (0x140 + 4 * i)
def kSVNCTR (i : Nat) : Nat := rk rSEC 3 (0x100 + 4 * i)
def kBOOTCNT : Nat := rk rSEC 3 0x140
def kSVNCMD : Nat := rk rSEC 3 0x144

def State.setBoot (s : State) (b : Boot) : State := { s with boot := b }

/-- A digest in eight registers, first byte uppermost in the first word (log 68). -/
def State.digestAt (s : State) (k : Nat) : List Byte := (List.range 8).flatMap (fun i => beBytes 4 (s.rd (k + 4 * i)).toNat)
def State.setDigest (s : State) (k : Nat) (d : List Byte) : State :=
  (List.range 8).foldl (fun s i => s.wr (k + 4 * i) (BitVec.ofNat 32 (beNat ((d.drop (4 * i)).take 4)))) s

/-- DEVID: SHA-256 of the DIK modulus (R629). -/
def devId : List Byte := sha256 Config.dikModulus

/-- The device record key (R631): label 1 in four bytes, first byte uppermost (log 69). -/
def recordKey : List Byte := hmac256 (Config.secretKey 0) [0#8, 0#8, 0#8, 1#8]

/-- Read flash; `none` where a word is uncorrectable. -/
def State.flashRead (s : State) (a n : Nat) : Option (List Byte) := (List.range n).mapM (fun i => s.readKey (flashKey (a + i)))

/-- Write flash. -/
def State.flashWrite (s : State) (a : Nat) (bs : List Byte) : State :=
  let s := s.heal ((List.range bs.length).map (fun i => flashKey (a + i)))
  (writeRun (fun s i b => s.writeKey (flashKey (a + i)) b) s 0 bs).1

/-- A record as it stands: its header and body (R625). -/
structure Rec where
  hdr : List Byte
  body : List Byte
  deriving DecidableEq, Repr

def Rec.w (r : Rec) (off : Nat) : Nat := leNat ((r.hdr.drop off).take 4)
def Rec.bytes (r : Rec) (off n : Nat) : List Byte := (r.hdr.drop off).take n
def Rec.svn (r : Rec) : Nat := r.w 0x00C
def Rec.ctr (r : Rec) : Nat := bitsOf (r.w 0x010) 3 0
def Rec.seq (r : Rec) : Nat := r.w 0x014
def Rec.signer (r : Rec) : Nat := bitsOf (r.w 0x004) 17 16
def Rec.image (r : Rec) : List Byte := r.hdr ++ r.body
/-- Little-endian words of the body. -/
def Rec.b (r : Rec) (off n : Nat) : Nat := leNat ((r.body.drop off).take n)

def allZero (bs : List Byte) : Bool := bs.all (fun b => b == 0#8)

/-- Read the record at a flash address of a given area; `none` where it cannot be read or its LENGTH does not fit. -/
def State.recAt (s : State) (a area : Nat) : Option Rec :=
  match s.flashRead a 0x400 with
  | none => none
  | some hdr =>
    let len := leNat ((hdr.drop 8).take 4)
    if area < 0x400 + len then none
    else (s.flashRead (a + 0x400) len).map (fun body => { hdr := hdr, body := body })

/-- The form of a record of a type (R625, R626). -/
def Rec.formOk (r : Rec) (type : Nat) : Bool :=
  r.w 0 == 0x53524543 && bitsOf (r.w 4) 7 0 == type && bitsOf (r.w 4) 15 8 == 1 && bitsOf (r.w 4) 31 18 == 0 &&
  bitsOf (r.w 0x10) 31 4 == 0 && allZero (r.bytes 0x58 0x28) && allZero (r.bytes 0x380 0x80) &&
  r.bytes 0x38 32 == sha256 r.body &&
  (r.bytes 0x18 32 == devId || (allZero (r.bytes 0x18 32) && !([2, 6, 7].contains type)))

/-- Does the signature verify (R626)? -/
def Rec.signed (r : Rec) (custHash : List Byte) : Bool :=
  let msg := r.bytes 0 0x80
  let sig := r.bytes 0x80 0x180
  let key := r.bytes 0x200 0x180
  if r.signer = 0 then sha256 key == Config.rootHash && Config.rsaVerify key msg sig
  else if r.signer = 1 then sha256 key == custHash && Config.rsaVerify key msg sig
  else if r.signer = 2 then sig.take 32 == hmac256 recordKey msg && allZero (sig.drop 32) && allZero key
  else false

/-- Which SIGNER a type accepts (R627). -/
def signerOf (type : Nat) : Nat := if type ≤ 2 then 0 else if type ≤ 5 then 1 else 2

/-- Verify a record (R626, R627, R639): a pass counts in BLK_ECNT0, a rollback in BLK_ECNT1. -/
def State.verify (s : State) (r : Rec) (type signer : Nat) : Bool × State :=
  let (inj, s) := s.sigFails
  if inj || !(r.formOk type && r.signer == signer && r.signed s.boot.custHash) then (false, s)
  else
    let s := s.count rSEC 0
    if r.svn < (s.rd (kSVNCTR r.ctr)).toNat then (false, s.count rSEC 1) else (true, s)

/-- A valid record at an address. -/
def State.validRec (s : State) (a area type : Nat) : Option Rec × State :=
  match s.recAt a area with
  | none => (none, s)
  | some r =>
    let (ok, s) := s.verify r type (signerOf type)
    (if ok then some r else none, s)

/-- The slot that boots (R642): of two valid slots the higher SVN, then the higher SEQ; `failed` says that the chosen one
failed while it was read, so that the other is used. -/
def State.chooseSlot (s : State) (a b area type : Nat) (failed : Bool) : Option (Nat × Rec) × State :=
  let (ra, s) := s.validRec a area type
  let (rb, s) := s.validRec b area type
  match ra, rb with
  | some x, some y =>
    let takeB := decide (x.svn < y.svn) || (x.svn == y.svn && decide (x.seq < y.seq))
    let takeB := if failed then !takeB else takeB
    let s := if failed then s.count rSEC 2 else s
    (some (if takeB then (1, y) else (0, x)), s)
  | some x, none => (if failed then none else some (0, x), s)
  | none, some y => (if failed then none else some (1, y), s)
  | none, none => (none, s)

/-- The copy of a Repair or Ageing Record in use (R636): the valid one of higher SEQ; with none, BLK_ECNT4 counts and a
record names the type. -/
def State.chooseCopy (s : State) (a b area type : Nat) : Option (Nat × Rec) × State :=
  let (ra, s) := s.validRec a area type
  let (rb, s) := s.validRec b area type
  match ra, rb with
  | some x, some y => (some (if x.seq < y.seq then (1, y) else (0, x)), s)
  | some x, none => (some (0, x), s)
  | none, some y => (some (1, y), s)
  | none, none => (none, (s.count rSEC 4).eventRecord rSEC 4 { detail := BitVec.ofNat 64 type })

/-- Read the replay-protected area (R638): a failed read makes every counter read 0xFFFF_FFFF. -/
def State.readReplay (s : State) (good : Bool) : State :=
  let inj := s.injArmed rSEC 1
  let s := if inj then s.injDone rSEC 1 else s
  if good && !inj then
    (List.range 16).foldl (fun s i => s.wr (kSVNCTR i) (BitVec.ofNat 32 (Sparse.get (fun _ => 0) s.boot.svn i))) s
  else
    let s := (List.range 16).foldl (fun s i => s.wr (kSVNCTR i) 0xFFFFFFFF#32) s
    (s.count rSEC 7).raise rSEC 16 { inj := inj }

/-- Extend a measurement register (R646). -/
def State.extend (s : State) (i : Nat) (d : List Byte) : State :=
  s.setDigest (kMEAS i 0) (sha256 (s.digestAt (kMEAS i 0) ++ d))

/-- The anti-rollback counter of an image that runs from now on (R640). -/
def State.nowRunning (s : State) (r : Rec) : State :=
  s.setBoot { s.boot with running := Sparse.set (fun _ => none) s.boot.running r.ctr (some r.svn) }

def State.setSlot (s : State) (i slot : Nat) : State := s.setFlag kBOOTSTAT (4 + i) (slot == 1)

/-- A phase of R641 ends; SEC_BOOTSTAT shows the last that has. -/
def State.phaseDone (s : State) (n : Nat) : State := (s.setBoot { s.boot with phase := n }).setFld kBOOTSTAT 3 0 n

/-- Boot cannot go on: FAIL names the first cause, and the controller enters HALTED (R642). -/
def State.bootFail (s : State) (code : Nat) : State :=
  let s := if s.fld kBOOTSTAT 13 10 = 0 then s.setFld kBOOTSTAT 13 10 code else s
  (s.raise rSEC 17 { detail := BitVec.ofNat 64 code }).haltMain

/-- May phase `n` of the boot run: the one before has ended, and boot has neither failed nor stopped in recovery? -/
def State.phaseReady (s : State) (n : Nat) : Bool :=
  s.boot.phase + 1 == n && !s.boot.recovery && s.safe != ssHALTED

end Sys2Proof.Machine
end

