-- ==== Sys2Proof/Machine/Boot.lean ====
section
/-! DEFINITION. The boot sequence (R632–R645, R712): each phase of R641 as one command. -/

namespace Sys2Proof.Machine

/-! ### Mask ROM -/

/-- ROM: PUF read, replay area read, token taken, nonce renewed (R628, R638, R641, R649, R650). -/
def effBootRom (pufDiff : Nat) (replayOk : Bool) (s : State) : State :=
  if s.phaseReady 1 = false then s
  else
    let s := s.setBoot { s.boot with cold := s.boot.cold + 1 }
    let s := (s.wr kBOOTCNT (BitVec.ofNat 32 s.boot.cold)).readReplay replayOk
    let s := if s.flag (kESTAT rSEC) 16 && s.fld kBOOTSTAT 13 10 == 0 then s.setFld kBOOTSTAT 13 10 7 else s
    let s := (List.range 8).foldl (fun (s : State) i =>
      let (n, s) := s.draw
      s.wr (kDBGNONCE i) (Config.freeWord n)) s
    if 1536 < pufDiff ∨ s.boot.erased = true then (s.phaseDone 1).bootFail 6
    else
      let s := if 768 < pufDiff then s.count rSEC 3 else s
      let s := s.setDigest (kDEVID 0) devId
      let open_ := s.boot.token.isSome
      let s := (s.setFlag kBOOTSTAT 14 open_).setFlag kBOOTSTAT 15 (!open_)
      let s := s.setBoot { s.boot with token := none, erased := s.boot.token == some 2 }
      s.phaseDone 1

/-- Descriptors 0 and 1 of every target, for the two lockstep pairs (R641). -/
def State.pairDescriptors (s : State) : State :=
  let d := fun (t : Nat) =>
    ({ base := 0#32, last := 0xFFFFFFFF#32, w2 := BitVec.ofNat 32 (t + 0xFFF * 2 ^ 12 + 0xF * 2 ^ 24) } : FwDesc)
  (List.range 56).foldl (fun s target =>
    let m := Sparse.set (fun _ => ({} : FwDesc)) s.fwl.desc (target * 64) (d 1)
    { s with fwl := { s.fwl with desc := Sparse.set (fun _ => ({} : FwDesc)) m (target * 64 + 1) (d 2) } }) s

/-- The chosen firmware image runs: measured into MEAS0. -/
def State.runFirmware (s : State) (slot : Nat) (r : Rec) : State :=
  (((s.extend 0 (sha256 r.image)).setSlot 0 slot).pairDescriptors.nowRunning r).phaseDone 2

/-- Firmware: the image is chosen, verified and measured; with none, mask ROM waits on SPI1 (R641, R642). -/
def effBootFirmware (failed : Bool) (s : State) : State :=
  if s.phaseReady 2 = false then s
  else
    match s.chooseSlot 0 0x00800000 0x00800000 1 failed with
    | (some (slot, r), s) => s.runFirmware slot r
    | (none, s) =>
      let s := if s.fld kBOOTSTAT 13 10 = 0 then s.setFld kBOOTSTAT 13 10 1 else s
      let s := (s.raise rSEC 17 { detail := 1 }).holdMain
      { s with boot := { s.boot with recovery := true }, watch := { s.watch with halt := true } }

/-- A frame on the recovery port (R712). -/
def effRecoveryFrame (off : Nat) (data : List Byte) (s : State) : State :=
  if s.boot.recovery && data.length == 256 && decide (off + 256 ≤ 0x00800000) then s.flashWrite off data else s

/-- DONE on the recovery port: slot A is verified, and boots if it passes. -/
def effRecoveryDone (s : State) : State :=
  if s.boot.recovery = false then s
  else
    match s.validRec 0 0x00800000 1 with
    | (some r, s) =>
      let s : State := { s with boot := { s.boot with recovery := false }, watch := { s.watch with halt := false } }
      (s.setFld kBOOTSTAT 13 10 0).runFirmware 0 r
    | (none, s) => s

/-! ### Night Watch firmware -/

/-- A value that the Boot Configuration Record gives a register lies within the register's limits (R632). -/
def initOk (k v : Nat) : Bool :=
  match regDef k with
  | none => false
  | some d => d.fields.all (fun f => f.acc == .ro || f.accepts (bitsOf v f.hi f.lo))

/-- The registers that the record sets, in its order. -/
def initKeys : List Nat := [kPLIM, kTCFG, kACT, kRSTCFG, kCAUSECFG, kDISCFG, kLOCKCFG]

/-- The ranges of the five rails. -/
def railRange (r : Nat) : Nat × Nat :=
  if r = 0 then (550, 750) else if r = 1 then (700, 850) else if r = 2 then (650, 950) else if r = 3 then (650, 850) else (750, 850)

/-- One firewall entry of the record: target, index and descriptor. -/
def fwEntry (r : Rec) (i : Nat) : Nat × Nat × FwDesc × Nat :=
  let o := 0x100 + 20 * i
  let w := r.b o 4
  (bitsOf w 5 0, bitsOf w 11 6,
   { base := BitVec.ofNat 32 (r.b (o + 4) 4), last := BitVec.ofNat 32 (r.b (o + 8) 4), w2 := BitVec.ofNat 32 (r.b (o + 12) 4) },
   r.b (o + 16) 4)

/-- The body of a Boot Configuration Record keeps every limit (R632). -/
def configOk (r : Rec) : Bool :=
  let nfw := r.b 0xA0 4
  (List.range 5).all (fun i => decide ((railRange i).1 ≤ r.b (2 * i) 2) && decide (r.b (2 * i) 2 ≤ (railRange i).2)) &&
  (List.range 7).all (fun i => initOk (initKeys.getD i 0) (r.b (0x80 + 4 * i) 4)) &&
  decide (bitsOf (r.b 0x94 4) 5 0 ≤ bitsOf (r.b 0x94 4) 14 6) &&
  decide (nfw ≤ 1024) &&
  (List.range nfw).all (fun i =>
    let (target, _, d, w3) := fwEntry r i
    decide (target ≤ 55) && fieldOf d.w2 31 28 == 0 && w3 == 0 && decide (d.base.toNat ≤ d.last.toNat))

/-- Set the registers and descriptors that the record names. -/
def State.applyConfig (s : State) (r : Rec) : State :=
  let s := (List.range 7).foldl (fun (s : State) i =>
    let k := initKeys.getD i 0
    let v := BitVec.ofNat 32 (r.b (0x80 + 4 * i) 4)
    if k = kLOCKCFG then effLockcfgWrite v 1 s else s.writeGeneric k 1 v) s
  let s := (List.range (r.b 0xA0 4)).foldl (fun (s : State) i =>
    let (target, index, d, _) := fwEntry r i
    { s.count rFWL 4 with fwl := { s.fwl with desc := Sparse.set (fun _ => ({} : FwDesc)) s.fwl.desc (target * 64 + index) d } }) s
  let s : State := { s with link := { s.link with rcMode := bitOf (r.b 0x14 4) 0 } }
  (s.setFlag (rk rPCIE 1 0x100) 0 s.link.rcMode).setBoot { s.boot with cfgRails := (List.range 5).map (fun i => r.b (2 * i) 2) }

/-- Does the body of a Provisioning Record keep to R627? -/
def provisionOk (r : Rec) : Bool :=
  (r.body.drop 0x20).take 32 == devId && decide (bitsOf (r.b 0x40 4) 1 0 ≤ 2) && bitsOf (r.b 0x44 4) 15 0 == 0 &&
  decide (0x48 ≤ r.body.length)

/-- MEAS5 records the debug state by a digest that the spec does not give (R646, R650). -/
def State.measureDebug (s : State) : State :=
  let (ws, s) := State.freeWords 8 s
  s.extend 5 (ws.flatMap (fun w => beBytes 4 w.toNat))

/-- Records: Provisioning and Boot Configuration (R641). -/
def effBootRecords (failed : Bool) (s : State) : State :=
  if s.phaseReady 3 = false then s
  else
    match s.validRec 0x01000000 0x10000 2 with
    | (none, s) => s.bootFail 2
    | (some p, s) =>
      if provisionOk p = false then s.bootFail 2
      else
        let s := (s.extend 1 (sha256 p.image)).setBoot { s.boot with custHash := p.body.take 32, debug := bitsOf (p.b 0x40 4) 1 0 }
        let (ra, s) := s.validRec 0x01010000 0x20000 3
        let (rb, s) := s.validRec 0x01030000 0x20000 3
        let ra := match ra with | some r => if configOk r then some r else none | none => none
        let rb := match rb with | some r => if configOk r then some r else none | none => none
        let pick : Option (Nat × Rec) :=
          match ra, rb with
          | some x, some y =>
            let takeB := decide (x.svn < y.svn) || (x.svn == y.svn && decide (x.seq < y.seq))
            some (if takeB != failed then (1, y) else (0, x))
          | some x, none => if failed then none else some (0, x)
          | none, some y => if failed then none else some (1, y)
          | none, none => none
        let s := if failed && ra.isSome && rb.isSome then s.count rSEC 2 else s
        match pick with
        | none => s.bootFail 3
        | some (slot, r) =>
          ((((s.extend 2 (sha256 r.image)).setSlot 1 slot).applyConfig r).nowRunning r).measureDebug.phaseDone 3

/-- Write the loop descriptors and the hold plan, and enable the loops (R627, R641, R643). -/
def State.loadDrive (s : State) (r : Rec) : State :=
  let block := fun (a n : Nat) => (r.body.drop a).take n
  let used := (List.range 64).filter (fun l => r.b (0x4000 * l) 4 != 0)
  let s := used.foldl (fun (s : State) l => s.sramWrite (descOff l) (block (0x4000 * l) 0x4000)) s
  let s := s.sramWrite 0x200000 (block 0x100000 0x10000)
  let s := (s.setRoles 0 0).setFlag kPLANSTAT 11 false
  let s := used.foldl (fun (s : State) l => s.loopCommand (BitVec.ofNat 32 (l + 2 ^ 8))) s
  (List.range 4).foldl (fun (s : State) c => effCanCfg c 1 (withFlag (s.rd (kCAN c 0)) 0 true) s) s

/-- Island: the Drive Image (R641). -/
def effBootIsland (failed : Bool) (s : State) : State :=
  if s.phaseReady 4 = false then s
  else
    match s.chooseSlot 0x01200000 0x01400000 0x00200000 4 failed with
    | (none, s) => s.bootFail 4
    | (some (slot, r), s) =>
      ((((s.extend 3 (sha256 (r.image.take 0x10000))).setSlot 2 slot).nowRunning r).loadDrive r).phaseDone 4

/-! ### Main domains -/

/-- The boot voltage of a rail (R633). -/
def State.bootVolts (s : State) (age : Option Rec) (r : Nat) : Nat :=
  let v := Nat.max (s.boot.cfgRails.getD r 0) (match age with | some a => Config.ageLastV a.body r | none => 0)
  Nat.max (s.fld (kRAIL r) 10 0) (Nat.min (s.fld (kRAIL r) 21 11) v)

/-- Main power: rails at their boot voltages, clocks locked, main domains up (R633, R641, R644). -/
def effBootMainPower (s : State) : State :=
  if s.phaseReady 5 = false ∨ s.flag kPSTAT 0 = false then s
  else
    let (age, s) := s.chooseCopy 0x01070000 0x01090000 0x20000 7
    let s := match age with | some (slot, _) => s.setSlot 5 slot | none => s
    let rails := (List.range 5).map (s.bootVolts (age.map (fun x => x.2)))
    let s := s.setBoot { s.boot with rails := rails }
    let s := (List.range 5).foldl (fun (s : State) r => s.setRail r (rails.getD r 0)) s
    ((s.setFlag kPSTAT 2 false).releaseMain).phaseDone 5

/-- Memory: LPDDR5X and HBM3E are trained. -/
def effBootMemory (s : State) : State := if s.phaseReady 6 then s.phaseDone 6 else s

/-- The digest of the restart image takes its locked registers (R90, R641). -/
def State.setRstHash (s : State) (d : List Byte) : State :=
  let s := s.setDigest (kRSTHASH 0) d
  { s with locks := (List.range 8).foldl (fun l i => if l.contains (kRSTHASH i) then l else kRSTHASH i :: l) s.locks }

/-- Image: the application image is copied, verified, measured and hashed (R641). -/
def effBootImage (failed : Bool) (s : State) : State :=
  if s.phaseReady 7 = false then s
  else
    let s := if s.boot.mainOnly then s.readReplay true else s
    match s.chooseSlot 0x01600000 0x07600000 0x06000000 5 failed with
    | (none, s) => s.bootFail 5
    | (some (slot, r), s) =>
      let img := r.image
      let s := s.heal ((List.range img.length).map (fun i => lpKey (Config.imageBase + i)))
      let s := (writeRun (fun s i b => s.writeKey (lpKey (Config.imageBase + i)) b) s 0 img).1
      let s := s.setBoot { s.boot with imageLen := img.length }
      ((((s.extend 4 (sha256 (img.take 0x10000))).setSlot 3 slot).setRstHash (sha256 img)).nowRunning r).phaseDone 7

/-! ### The boot self-test (R634, R637) -/

/-- A part that fails its boot self-test: region, unit (Linkous link, Plate or Archive bank) and physical part. -/
abbrev FailedPart := BitVec 6 × BitVec 10 × BitVec 10

def failedIn (fs : List FailedPart) (region unit p : Nat) : Bool :=
  fs.any (fun f => f.1.toNat == region && f.2.1.toNat == unit && f.2.2.toNat == p)

/-- Give a logical part its boot binding: its home part, else the lowest free part of its kind. -/
def SpareSet.bootBind (S : SpareSet) (s : State) (l : Nat) : State :=
  let p := if S.st s (S.home l) = 0 then some (S.home l) else S.spareFor s l
  match p with
  | some p =>
    let s : State := if S.region < 8 then s
      else { s with bootBind := Sparse.set bindHome s.bootBind (S.bindKey l) p }
    S.setAvail (S.bindTo s l p) l true
  | none =>
    let s := (S.setAvail s l false).setFlag (kSTAT S.region) 2 true
    let s := match S.lostBit with | some b => s.raise S.region b { index := l } | none => s
    s.postCause 8 (S.region == rDRIVE)

/-- States and bindings of one set after the self-test: parts that fail, or that the Ageing Record retires, are RETIRED;
logical parts whose home part works keep it, and spares are bound by ascending physical index. -/
def SpareSet.selfTest (S : SpareSet) (fs : List FailedPart) (retired : List (Nat × Nat)) (s : State) : State :=
  let bad := fun (p : Nat) => failedIn fs S.region S.unit p || retired.contains (S.region, p)
  let s := (List.range S.nphys).foldl (fun (s : State) p =>
    S.setSt s p (if bad p then 3 else 0)) s
  let homes := (List.range S.nlog).filter (fun l => S.st s (S.home l) == 0)
  let rest := (List.range S.nlog).filter (fun l => S.st s (S.home l) != 0)
  (homes ++ rest).foldl S.bootBind s

/-- Every set of spared parts but the application cores, whose clusters share their spares. -/
def bootSets : List SpareSet :=
  (List.range 8).map domeSpares ++ [solvSpares, driveSpares, cvuSpares, lnkSpares 0, lnkSpares 1]

/-- Application cores: all 26 states first, then the four clusters' bindings. -/
def State.selfTestCores (s : State) (fs : List FailedPart) (retired : List (Nat × Nat)) : State :=
  let bad := fun (p : Nat) =>
    (List.range 4).any (fun c => failedIn fs (rAPC0 + c) 0 p || retired.contains (rAPC0 + c, p))
  let S0 := apcSpares rAPC0
  let s := (List.range 26).foldl (fun (s : State) p => S0.setSt s p (if bad p then 3 else 0)) s
  let logical := (List.range 4).flatMap (fun c => (List.range 6).map (fun l => (apcSpares (rAPC0 + c), l)))
  let homes := logical.filter (fun x => x.1.st s (x.1.home x.2) == 0)
  let rest := logical.filter (fun x => x.1.st s (x.1.home x.2) != 0)
  (homes ++ rest).foldl (fun s x => x.1.bootBind s x.2) s

/-- Row groups: of each bank the lowest failed one is out of service in place of the spare (R207). -/
def State.selfTestRows (s : State) (fs : List FailedPart) (retired : List (Nat × Nat)) : State :=
  (List.range 512).foldl (fun (s : State) bank =>
    let bad := (List.range 17).filter (fun g => failedIn fs rPLATE bank g || retired.contains (rPLATE, bank * 17 + g))
    let out := bad.headD 16
    let dead := bad.foldl (fun m g => m + 2 ^ g) 0
    { s with plate := { s.plate with
      spareRow := Sparse.set (fun _ => 0) s.plate.spareRow bank (if out = 16 then 0 else out + 1)
      rgDead := Sparse.set (fun _ => 0) s.plate.rgDead bank dead } }) s

/-- Pseudo-channels: one that fails is LOST, any other GOOD (R637). -/
def State.selfTestPcs (s : State) (fs : List FailedPart) (retired : List (Nat × Nat)) : State :=
  (List.range 192).foldl (fun (s : State) pc =>
    let bad := failedIn fs (rHBM0 + pc / 32) 0 (pc % 32) || retired.contains (rHBM0 + pc / 32, pc % 32)
    s.setPcState pc (if bad then 2 else 0)) s

/-- Two-bit states packed into bytes, the first lowest. -/
def packStates : List Nat → List Byte
  | a :: b :: c :: d :: rest => BitVec.ofNat 8 (a + 4 * b + 16 * c + 64 * d) :: packStates rest
  | [a, b, c] => [BitVec.ofNat 8 (a + 4 * b + 16 * c)]
  | [a, b] => [BitVec.ofNat 8 (a + 4 * b)]
  | [a] => [BitVec.ofNat 8 a]
  | [] => []

/-- The body of the Repair Record (R634). -/
def State.repairBody (s : State) : List Byte :=
  let parts := fun (S : SpareSet) => (List.range S.nphys).map (S.st s)
  let rows := (List.range 512).flatMap (fun bank => (List.range 17).map (fun g =>
    let spare := Sparse.get (fun _ => 0) s.plate.spareRow bank
    if bitOf (Sparse.get (fun _ => 0) s.plate.rgDead bank) g then 3
    else if g = (if spare = 0 then 16 else spare - 1) then 0 else 1))
  let all := (List.range 8).flatMap (fun d => parts (domeSpares d)) ++ parts solvSpares ++ parts driveSpares ++
    parts (apcSpares rAPC0) ++ parts cvuSpares ++ rows ++ (List.range 192).map s.pcState ++ parts (lnkSpares 0) ++ parts (lnkSpares 1)
  let bs := packStates all
  bs ++ List.replicate ((64 - bs.length % 64) % 64) 0#8

/-- A record of SIGNER 2 over a body (R625, R626, R636). -/
def deviceRecord (type seq : Nat) (body : List Byte) : List Byte :=
  let head := leBytes 4 0x53524543 ++ leBytes 4 (type + 2 ^ 8 + 2 * 2 ^ 16) ++ leBytes 4 body.length ++ leBytes 4 0 ++
    leBytes 4 0 ++ leBytes 4 seq ++ devId ++ sha256 body ++ List.replicate 0x28 0#8
  head ++ hmac256 recordKey head ++ List.replicate 0x360 0#8 ++ body

/-- Self-test: every spared part is tested, the new Repair Record is written into the other copy and measured, and the
bindings are copied to the island (R637, R641, R646). -/
def effBootSelftest (fs : List FailedPart) (s : State) : State :=
  if s.phaseReady 8 = false then s
  else
    let (age, s) := s.chooseCopy 0x01070000 0x01090000 0x20000 7
    let retired := match age with | some (_, r) => Config.ageRetired r.body | none => []
    let (old, s) := s.chooseCopy 0x01050000 0x01060000 0x10000 6
    let s := match old with | some (slot, _) => s.setSlot 4 slot | none => s
    let s := bootSets.foldl (fun s S => S.selfTest fs retired s) s
    let s := ((s.selfTestCores fs retired).selfTestRows fs retired).selfTestPcs fs retired
    let (at_, seq) := match old with
      | some (0, r) => (0x01060000, r.seq + 1)
      | some (_, r) => (0x01050000, r.seq + 1)
      | none => (0x01050000, 1)
    let rec_ := deviceRecord 6 (seq % 2 ^ 32) s.repairBody
    ((s.flashWrite at_ rec_).extend 5 (sha256 rec_)).phaseDone 8

/-- Cluster: the cores are released into the image. -/
def effBootCluster (s : State) : State := if s.phaseReady 9 then s.phaseDone 9 else s

/-- DONE is written to SEC_BOOTCMD: boot ends (R641). The controller enters NORMAL, or DEGRADED where a latched cause
stands; a restart whose memory was lost goes on to READY instead (R611, log 70). -/
def effBootCmd (v : Word) (s : State) : State :=
  if flagOf v 0 = false ∨ s.phaseReady 10 = false then s
  else
    let s := (s.phaseDone 10).setFld kBOOTSTAT 3 0 0xF
    let s := s.setBoot { s.boot with mainOnly := false }
    if s.safe = ssRESTARTING then (s.setWatch { s.watch with seq := 5, bootEnded := true }).setPhase 6
    else
      let s := s.enterSafe (if s.watch.latched then ssDEGRADED else ssNORMAL)
      (s.planTimer true).planRestart

/-! ### Meanings -/

def execBootRom (pufDiff : Nat) (replayOk : Bool) (s : State) : Outcome := .next (effBootRom pufDiff replayOk s)
def execBootFirmware (failed : Bool) (s : State) : Outcome := .next (effBootFirmware failed s)
def execBootRecords (failed : Bool) (s : State) : Outcome := .next (effBootRecords failed s)
def execBootIsland (failed : Bool) (s : State) : Outcome := .next (effBootIsland failed s)
def execBootMainPower (s : State) : Outcome := .next (effBootMainPower s)
def execBootMemory (s : State) : Outcome := .next (effBootMemory s)
def execBootImage (failed : Bool) (s : State) : Outcome := .next (effBootImage failed s)
def execBootSelftest (parts : List FailedPart) (s : State) : Outcome := .next (effBootSelftest parts s)
def execBootCluster (s : State) : Outcome := .next (effBootCluster s)
def execRecoveryFrame (off : Word) (data : List Byte) (s : State) : Outcome := .next (effRecoveryFrame off.toNat data s)
def execRecoveryDone (s : State) : Outcome := .next (effRecoveryDone s)

end Sys2Proof.Machine
end

