-- ==== Sys2Proof/Machine/Csi.lean ====
section
/-! DEFINITION. Camera receivers (R655–R660, R676, R677) and the rings that cameras and Ethernet MACs write into. -/

namespace Sys2Proof.Machine

/-! ### Rings (R657–R659) -/

/-- The registers of a ring lie at its base: object, slot size, records, HEAD and STAT at +0x04 to +0x18 (R678). -/
def kCsiVc (vc : Nat) : Nat := rk rCSI 2 (0x100 + 0x20 * vc)
def kEthRing (ring : Nat) : Nat := rk rETH 3 (0x100 + 0x20 * ring)

/-- Is the ring full: next slot = HEAD + NSLOT modulo 256 (R659)? -/
def State.ringFull (s : State) (k : Nat) : Bool :=
  s.fld (k + 0x18) 7 0 == (s.fld (k + 0x14) 7 0 + s.fld (k + 0x04) 23 16) % 256

/-- What a frame record says beside its slot (R657). -/
structure FrameRec where
  fnum : Nat
  flags : Nat                    -- TRUNC, CRCERR, HDRFIX, OVF, NOFE from bit 0 up
  lines : Nat
  tfs : Nat
  tfe : Nat
  bytes : Nat

def FrameRec.image (r : FrameRec) (ph : Bool) : List Byte :=
  leBytes 4 (r.fnum % 65536 + (if ph then 2 ^ 16 else 0) + 2 ^ 17 * r.flags) ++ leBytes 4 r.lines ++ leBytes 8 r.tfs ++
  leBytes 8 r.tfe ++ leBytes 4 r.bytes ++ leBytes 4 0

/-- A frame takes the ring's next slot: its bytes go into the object, its record into the record ring, and the ring moves on.
`n` is how many frames have taken a slot before, so the slot is n mod NSLOT and the pass n / NSLOT (log 71). A refused write
ends the port's frame; a frozen port writes nothing (R536). -/
def State.ringWrite (s : State) (t : Itag) (k n : Nat) (data : List Byte) (r : FrameRec) : Bool × State :=
  if s.frozen.contains t then (false, s)
  else
    let nslot := Nat.max 1 (s.fld (k + 0x04) 23 16)
    let slot := n % nslot
    let put := match s.validObj (s.fld (k + 0x04) 15 0) [2, 3, 4] with
      | none => (Tx.error, s)
      | some o =>
        let off := slot * s.fld (k + 0x08) 27 0
        if data.isEmpty then (Tx.ok (), s)
        else if o.size < off + data.length then (Tx.error, s)
        else s.objTxWrite t o off data
    match put with
    | (.firewall, s) => (false, s.flushItag t)
    | (p, s) =>
      let r := match p with
        | .ok () => r
        | _ => { r with flags := Nat.lor r.flags 1, bytes := 0, lines := 0 }
      match s.txWrite (some t) (s.rd64 (k + 0x0C) + 32 * slot) (r.image (n / nslot % 2 == 0)) with
      | (.firewall, s) => (false, s.flushItag t)
      | (_, s) => (true, (s.setFld (k + 0x18) 7 0 ((s.fld (k + 0x18) 7 0 + 1) % 256)).addSat (k + 0x18) 31 8 1)

/-! ### Frames (R655–R660) -/

def csiItag (p : Nat) : Itag := BitVec.ofNat 12 (0x68 + p)
def kPORT (p : Nat) : Nat := rk rCSI 1 (0x100 + 4 * p)

/-- Does virtual channel `vc` of port `p` receive? An arriving packet is demand on the domain (log 71). -/
def State.csiOn (s : State) (p vc : Nat) : Bool :=
  !s.pdDown 31 && s.flag (kPORT p) 0 && s.flag (kCsiVc (16 * p + vc)) 0

def State.camFrame (s : State) (c : Nat) : Option CamFrame := Sparse.get (fun _ => none) s.csi.frames c
def State.setCam (s : State) (c : Nat) (f : Option CamFrame) : State :=
  { s with csi := { s.csi with frames := Sparse.set (fun _ => none) s.csi.frames c f } }

/-- Lines as far as `room` bytes take them: how many were written, at least in part, and their bytes. -/
def fitLines : Nat → List (List Byte) → Nat × List Byte
  | _, [] => (0, [])
  | room, l :: rest =>
    if room = 0 then (0, [])
    else
      let (n, bs) := fitLines (room - l.length) rest
      (n + 1, l.take room ++ bs)

/-- A frame ends: its lines, embedded ones first, go into its slot as far as SLOTSZ allows, and its record follows (R655,
R657, R658). -/
def State.endFrame (s : State) (p vc : Nat) (nofe : Bool) : State :=
  let c := 16 * p + vc
  match s.camFrame c with
  | none => s
  | some f =>
    let s := s.setCam c none
    if f.dropped then s
    else
      let k := kCsiVc c
      let lines := f.emb.reverse ++ f.pix.reverse
      let total := lines.foldl (fun n l => n + l.length) 0
      let size := s.fld (k + 0x08) 27 0
      let ovf := decide (size < total)
      let (n, data) := fitLines size lines
      let b := fun (x : Bool) (w : Nat) => if x then w else 0
      let r : FrameRec :=
        { fnum := f.fnum, flags := b (f.trunc || ovf || nofe) 1 + b f.crcErr 2 + b f.hdrFix 4 + b ovf 8 + b nofe 16,
          lines := n, tfs := f.tfs, tfe := s.now, bytes := data.length }
      let m := Sparse.get (fun _ => 0) s.csi.count c
      match s.ringWrite (csiItag p) k m data r with
      | (true, s) => { s with csi := { s.csi with count := Sparse.set (fun _ => 0) s.csi.count c (m + 1) } }
      | (false, s) => s

/-- A packet's header as the receiver sees it: usable, and taken from the second copy (R656, R677). -/
def State.header (s : State) (p : Nat) (h1 h2 : Bool) : Bool × Bool × State :=
  if s.injArmed rCSI 1 && s.fld (kEINJ rCSI) 3 2 == p then (false, false, s.injDone rCSI 1)
  else (h1 || h2, !h1 && h2, s)

/-- The packet of an open frame was lost to both header copies. -/
def State.lostPacket (s : State) (c : Nat) : State :=
  let s := s.count rCSI 1
  match s.camFrame c with | some f => s.setCam c (some { f with trunc := true }) | none => s

/-- Frame Start (R656, R658, R659). -/
def effFrameStart (p vc fnum : Nat) (h1 h2 : Bool) (s : State) : State :=
  if s.csiOn p vc = false then s
  else
    let c := 16 * p + vc
    let (ok, fix, s) := (s.demandPd 31).header p h1 h2
    if ok = false then s.count rCSI 1
    else
      let s := s.endFrame p vc true
      if s.ringFull (kCsiVc c) then (s.count rCSI 2).setCam c (some { fnum := fnum, tfs := s.now, dropped := true })
      else s.setCam c (some { fnum := fnum, tfs := s.now, hdrFix := fix })

/-- A long packet (R655, R656). -/
def effLongPacket (p vc dt : Nat) (h1 h2 crcOk : Bool) (data : List Byte) (s : State) : State :=
  if s.csiOn p vc = false then s
  else
    let c := 16 * p + vc
    let (ok, fix, s) := (s.demandPd 31).header p h1 h2
    let inj := s.injArmed rCSI 0 && s.fld (kEINJ rCSI) 3 2 == p
    let s := if inj then s.injDone rCSI 0 else s
    if ok = false then s.lostPacket c
    else
      let cfg := s.rd (kCsiVc c)
      let emb := dt == 0x12 && flagOf cfg 7
      if (dt == fieldOf cfg 6 1 || emb) = false then s.count rCSI 3
      else
        let bad := inj || !crcOk
        let s := if bad then s.count rCSI 0 else s
        match s.camFrame c with
        | none => s
        | some f =>
          let f := { f with crcErr := f.crcErr || bad, hdrFix := f.hdrFix || fix }
          s.setCam c (some (if emb then { f with emb := data :: f.emb } else { f with pix := data :: f.pix }))

/-- Frame End (R657). -/
def effCamFrameEnd (p vc : Nat) (h1 h2 : Bool) (s : State) : State :=
  if s.csiOn p vc = false then s
  else
    let (ok, fix, s) := (s.demandPd 31).header p h1 h2
    let c := 16 * p + vc
    if ok = false then s.lostPacket c
    else
      let s := match s.camFrame c with | some f => s.setCam c (some { f with hdrFix := f.hdrFix || fix }) | none => s
      s.endFrame p vc false

/-- A C-PHY link is lost (R676). -/
def effCphyLoss (s : State) : State := if s.pdDown 31 then s else s.count rCSI 4

/-- A write to a virtual channel's registers: OBJ, SLOTSZ and REC stay while it is enabled (R678), and disabling it ends what
it was receiving. -/
def effCsiVc (k : Nat) (t : Itag) (v : Word) (s : State) : State :=
  let c := (rkOff k - 0x100) / 0x20
  let o := (rkOff k - 0x100) % 0x20
  let on := s.flag (kCsiVc c) 0
  if o = 0 then
    let s := s.writeGeneric k t v
    if on && !s.flag (kCsiVc c) 0 then s.setCam c none else s
  else if on && decide (o < 0x14) then s.cfgErr rCSI t
  else s.writeGeneric k t v

/-- A write of CSI_PORTp_CFG. -/
def effCsiPort (k : Nat) (t : Itag) (v : Word) (s : State) : State :=
  let p := (rkOff k - 0x100) / 4
  let s := s.writeGeneric k t v
  if s.flag k 0 then s else (List.range 16).foldl (fun s vc => s.setCam (16 * p + vc) none) s

def execCsiFrameStart (port : BitVec 2) (vc : BitVec 4) (fnum : BitVec 16) (h1 h2 : Bool) (s : State) : Outcome :=
  .next (effFrameStart port.toNat vc.toNat fnum.toNat h1 h2 s)
def execCsiLongPacket (port : BitVec 2) (vc : BitVec 4) (dt : BitVec 6) (h1 h2 crcOk : Bool) (data : List Byte) (s : State) :
    Outcome := .next (effLongPacket port.toNat vc.toNat dt.toNat h1 h2 crcOk data s)
def execCsiFrameEnd (port : BitVec 2) (vc : BitVec 4) (h1 h2 : Bool) (s : State) : Outcome :=
  .next (effCamFrameEnd port.toNat vc.toNat h1 h2 s)
def execCphyLinkLoss (s : State) : Outcome := .next (effCphyLoss s)

end Sys2Proof.Machine
end

