-- ==== Sys2Proof/Machine/Eth.lean ====
section
/-! DEFINITION. Ethernet: reception through flow filters, gated transmission, gate control lists, and network time
(R661–R665, R676–R678). -/

namespace Sys2Proof.Machine

def kMAC (m off : Nat) : Nat := rk rETH 1 (0x100 + 0x20 * m + off)
def kPTPSTAT : Nat := rk rETH 1 0x200
def kPTPTOL : Nat := rk rETH 1 0x204
def kPTPOFS : Nat := rk rETH 1 0x208
def kFLTSEL : Nat := rk rETH 2 0x100

def ethItag (m : Nat) : Itag := BitVec.ofNat 12 (0x60 + m)
def State.setEth (s : State) (e : Eth) : State := { s with eth := e }
def State.macOn (s : State) (m : Nat) : Bool := !s.pdDown 31 && s.flag (kMAC m 0) 0

/-! ### Reception (R661) -/

def State.filterWords (s : State) (m f : Nat) : List Word :=
  (List.range 8).map (fun i => Sparse.get (fun _ => 0#32) s.eth.filters ((m * 32 + f) * 8 + i))

/-- The filter that takes a frame: the lowest that matches. -/
def State.flowFilter (s : State) (m : Nat) (data : List Byte) : Option Nat :=
  (List.range 32).find? (fun f => Config.filterTakes (s.filterWords m f) data)

/-- A frame has arrived whole; its first byte came `dur` ns ago. What FNUM holds of a frame no filter matched, and LINES, are
not stated (log 72). -/
def effEthRx (m : Nat) (data : List Byte) (fcsOk : Bool) (dur : Nat) (s : State) : State :=
  if s.macOn m = false ∨ 9216 < data.length then s
  else
    let s := s.demandPd 31
    let inj := s.injArmed rETH 0 && s.fld (kEINJ rETH) 4 2 == m
    let s := if inj then s.injDone rETH 0 else s
    if inj || !fcsOk then s.count rETH 0
    else
      let f := s.flowFilter m data
      let ring := 8 * m + (match f with | some f => (Config.filterRing (s.filterWords m f)).toNat | none => 0)
      let k := kEthRing ring
      if s.ringFull k then s.count rETH 1
      else
        let (i, s) := s.draw
        let (j, s) := s.draw
        let size := s.fld (k + 0x08) 27 0
        let ovf := decide (size < data.length)
        let d := data.take size
        let r : FrameRec :=
          { fnum := match f with | some f => f | none => (Config.freeWord i).toNat % 65536, flags := if ovf then 9 else 0,
            lines := (Config.freeWord j).toNat, tfs := s.now - dur, tfe := s.now, bytes := d.length }
        let n := Sparse.get (fun _ => 0) s.eth.count ring
        match s.ringWrite (ethItag m) k n d r with
        | (true, s) => s.setEth { s.eth with count := Sparse.set (fun _ => 0) s.eth.count ring (n + 1) }
        | (false, s) => s

/-! ### Network time (R664, R665) -/

/-- The MAC whose ROLE is SLAVE. -/
def State.slaveMac (s : State) : Option Nat := (List.range 6).find? (fun m => s.fld (kMAC m 0x04) 1 0 == 1)

/-- The instance's time now; with no SLAVE MAC it is the timebase. -/
def State.ptpNow (s : State) : Nat :=
  match s.slaveMac with
  | none => s.now
  | some _ => s.eth.ptpTime + (s.now - s.eth.ptpAt) * s.eth.ptpRate / 2 ^ 32

/-- 2^LOGSYNC seconds, in ns; the register holds LOGSYNC + 8. -/
def State.syncNs (s : State) (m : Nat) : Nat := 1000000000 * 2 ^ s.fld (kMAC m 0x04) 5 2 / 256

/-- The SLAVE port is no longer synchronised: counted, and the Meridian's reference is lost where it is this port (R48,
R665). -/
def State.unsync (s : State) (m : Nat) : State :=
  let was := s.flag kPTPSTAT 0
  let s := s.setEth { s.eth with good := 0 }
  if was then
    let s := (s.setFlag kPTPSTAT 0 false).count rETH 4
    if s.src = 5 ∧ s.fld kLOCKCFG 5 3 = m then s.refLost else s
  else s

/-- A Sync on the SLAVE MAC: `t1` is the time it carries for its departure. The offset is measured against it; how far the
instance's offset and rate then move is not stated (log 73). -/
def effPtpSync (m : Nat) (t1 : Nat) (s : State) : State :=
  if s.macOn m = false ∨ s.slaveMac ≠ some m then s
  else
    let d : Int := (Sparse.get (fun _ => none) s.eth.delay m).getD 0
    let ofs : Int := (s.ptpNow : Int) - ((t1 : Int) + d)
    let within := decide (ofs.natAbs ≤ s.fld kPTPTOL 15 0)
    let inTime := match s.eth.lastSync with | some t => decide (s.now ≤ t + 3 * s.syncNs m) | none => true
    let good := if within then (if inTime then Nat.min 4 (s.eth.good + 1) else 1) else 0
    let (i, s) := s.draw
    let (j, s) := s.draw
    let s := s.wr kPTPOFS (BitVec.ofNat 32 (patternOf 32 (clampInt (-2147483648) 2147483647 ofs)))
    let s := s.setEth { s.eth with ptpAt := s.now, ptpTime := (Config.freeDWord i).toNat, ptpRate := (Config.freeDWord j).toNat,
                                   lastSync := some s.now, good := good }
    if good = 4 ∧ s.eth.unsyncUntil ≤ s.now then s.setFlag kPTPSTAT 0 true
    else if within && inTime then s
    else (s.unsync m).setEth { (s.unsync m).eth with good := good }

/-- No Sync within 3 × 2^LOGSYNC s (R665). -/
def effSyncTimeout (s : State) : State :=
  match s.slaveMac, s.eth.lastSync with
  | some m, some t => if t + 3 * s.syncNs m < s.now ∧ s.pdDown 31 = false then s.unsync m else s
  | _, _ => s

/-- A Pdelay exchange with its four timestamps; `ok` tells whether it succeeded (R664, R676). -/
def effPdelay (m : Nat) (ok : Bool) (t1 t2 t3 t4 : Nat) (s : State) : State :=
  if s.macOn m = false then s
  else if ok then
    let d : Int := (((t4 : Int) - (t1 : Int)) - ((t3 : Int) - (t2 : Int))) / 2
    s.setEth { s.eth with delay := Sparse.set (fun _ => none) s.eth.delay m (some d) }
  else s.count rETH 5

/-- A MASTER sends the instance's time once per sync interval (R664). -/
def effSyncSend (m : Nat) (s : State) : State :=
  if s.macOn m && s.fld (kMAC m 0x04) 1 0 == 2 && passed s (Sparse.get (fun _ => none) s.eth.sent m) (s.syncNs m) then
    let s := s.setEth { s.eth with sent := Sparse.set (fun _ => none) s.eth.sent m (some s.now) }
    { s with out := .sync m s.ptpNow :: s.out }
  else s

/-- INJ_UNSYNC: unsynchronised for 100 ms (R677). -/
def State.injUnsync (s : State) : State :=
  let s := (s.injDone rETH 1).setEth { s.eth with unsyncUntil := 100000000 + s.now }
  match s.slaveMac with | some m => s.unsync m | none => s

/-! ### Gates and transmission (R662, R663) -/

/-- A list's gates within one cycle: closing offset and mask of each, cut at CYCLE; the last one holds to the end of the
cycle, and a list without intervals leaves every gate open (log 74). -/
def gateSpans (cycle : Nat) : Nat → List Gate → List (Nat × Nat)
  | _, [] => []
  | start, g :: rest =>
    if cycle ≤ start then []
    else if g.ivl = 0 then gateSpans cycle start rest
    else (Nat.min cycle (start + g.ivl), g.mask) :: gateSpans cycle (start + g.ivl) rest

/-- For how many ns from offset `o` a class's gate stays open, over at most the spans given. -/
def openFor (pcp o : Nat) : List (Nat × Nat) → Nat
  | [] => 0
  | (e, mask) :: rest =>
    if e ≤ o then openFor pcp o rest
    else if bitOf mask pcp then (e - o) + openFor pcp e rest else 0

/-- For how long the gate of a class stays open from now on: `none` for ever. -/
def State.gateOpen (s : State) (m pcp : Nat) : Option Nat :=
  let l := Sparse.get (fun _ => ({} : GateList)) s.eth.oper m
  let spans := gateSpans l.cycle 0 l.gates
  match spans.getLast? with
  | none => none
  | some (e, mask) =>
    let spans := if e < l.cycle then spans ++ [(l.cycle, mask)] else spans
    if spans.all (fun x => bitOf x.2 pcp) then none
    else
      let o := (s.ptpNow - l.base) % l.cycle
      let next := spans.map (fun x => (x.1 + l.cycle, x.2))
      some (openFor pcp o (spans ++ next))

/-- Line rate of a MAC in bits per 10 ns. -/
def State.lineRate (s : State) (m : Nat) : Nat :=
  match s.fld (kMAC m 0) 3 1 with | 0 => 250 | 1 => 100 | 2 => 50 | 3 => 25 | _ => 10

/-- Time of a frame on the line: its bytes with the preamble's 8 (log 74). -/
def State.frameNs (s : State) (m n : Nat) : Nat := ceilDiv ((n + 8) * 80) (s.lineRate m)

/-- May a class's frame start now? -/
def State.mayStart (s : State) (m : Nat) (f : TxFrame) : Bool :=
  match s.gateOpen m f.pcp with | none => true | some t => decide (s.frameNs m f.data.length ≤ t)

/-- The frames offered become ready; then, on a free line, the oldest frame of the highest class that has one and may start
is sent (R662). A frame that has waited for longer than one cycle counts once. -/
def effEthTx (m : Nat) (offer : List (Nat × List Byte)) (s : State) : State :=
  if s.macOn m = false then s
  else
    let s := s.demandPd 31
    let ready := Sparse.get (fun _ => []) s.eth.tx m ++
      offer.map (fun x => ({ pcp := x.1, data := x.2, since := s.now } : TxFrame))
    let cycle := (s.rd (kMAC m 0x14)).toNat
    let late := fun (f : TxFrame) => !f.counted && decide (f.since + cycle < s.now)
    let s := s.count rETH 2 (ready.filter late).length
    let ready := ready.map (fun f => { f with counted := f.counted || late f })
    let first := fun (c : Nat) => ready.find? (fun f => f.pcp == c)
    let best := if Sparse.get (fun _ => 0) s.eth.txUntil m ≤ s.now then
        [7, 6, 5, 4, 3, 2, 1, 0].findSome? (fun c => match first c with | some f => if s.mayStart m f then some f else none | none => none)
      else none
    match best with
    | none => s.setEth { s.eth with tx := Sparse.set (fun _ => []) s.eth.tx m ready }
    | some f =>
      let s := s.setEth { s.eth with tx := Sparse.set (fun _ => []) s.eth.tx m (ready.erase f),
                                     txUntil := Sparse.set (fun _ => 0) s.eth.txUntil m (s.now + s.frameNs m f.data.length) }
      { s with out := .eth m f.data :: s.out }

/-- SWAP: the administrative list takes over at the first cycle start at or after its base time; a base already past counts
forward by whole cycles (R663). -/
def State.gclSwap (s : State) (m : Nat) : State :=
  let base := s.rd64 (kMAC m 0x18)
  let cycle := (s.rd (kMAC m 0x14)).toNat
  let now := s.ptpNow
  let t := if now ≤ base then base else if cycle = 0 then now else base + ceilDiv (now - base) cycle * cycle
  s.setEth { s.eth with swapAt := Sparse.set (fun _ => none) s.eth.swapAt m (some t) }

/-- The swap's time has come. -/
def effGclActivate (m : Nat) (s : State) : State :=
  match Sparse.get (fun _ => none) s.eth.swapAt m with
  | none => s
  | some t =>
    if s.ptpNow < t ∨ s.pdDown 31 = true then s
    else
      let gates := (List.range 256).map (fun i => Sparse.get (fun _ => ({} : Gate)) s.eth.admin (256 * m + i))
      let l : GateList := { gates := gates, cycle := (s.rd (kMAC m 0x14)).toNat, base := t }
      s.setEth { s.eth with oper := Sparse.set (fun _ => ({} : GateList)) s.eth.oper m l,
                            swapAt := Sparse.set (fun _ => none) s.eth.swapAt m none }

/-! ### Register writes (R663, R665, R678) -/

/-- A write to a MAC's registers: `off` is the offset within the MAC's 32 bytes. -/
def effMacWrite (m off : Nat) (t : Itag) (v : Word) (s : State) : State :=
  let k := kMAC m off
  if off = 0x04 then
    if fieldOf v 1 0 = 1 ∧ (match s.slaveMac with | some x => x != m | none => false) = true then s.cfgErr rETH t
    else
      let was := s.slaveMac
      let s := s.writeGeneric k t v
      let s := match s.slaveMac with | some x => s.setFld kPTPSTAT 3 1 x | none => s.setFld kPTPSTAT 3 1 0
      if s.slaveMac = was then s
      else
        let s := match was with | some x => s.unsync x | none => s
        s.setEth { s.eth with ptpAt := s.now, ptpTime := s.now, ptpRate := 2 ^ 32, lastSync := none, good := 0 }
  else if off = 0x08 then
    let s := s.setFld k 7 0 (fieldOf v 7 0)
    if flagOf v 8 then s.gclSwap m else s
  else if off = 0x0C ∨ off = 0x10 then
    let i := 256 * m + s.fld (kMAC m 0x08) 7 0
    let g := Sparse.get (fun _ => ({} : Gate)) s.eth.admin i
    let put := fun (g : Gate) => s.setEth { s.eth with admin := Sparse.set (fun _ => ({} : Gate)) s.eth.admin i g }
    if off = 0x0C then put { g with mask := fieldOf v 7 0 }
    else if v.toNat = 0 ∨ 1000000000 < v.toNat then s.cfgErr rETH t
    else put { g with ivl := v.toNat }
  else s.writeGeneric k t v

/-- The administrative entry that INDEX names, as GCLDATA and GCLIVL show it. -/
def State.gclRead (s : State) (m off : Nat) : Word :=
  let g := Sparse.get (fun _ => ({} : Gate)) s.eth.admin (256 * m + s.fld (kMAC m 0x08) 7 0)
  BitVec.ofNat 32 (if off = 0x0C then g.mask else g.ivl)

/-- A write through the filter window: none while the MAC is enabled, and none for a MAC that does not exist. -/
def effFilterData (i : Nat) (t : Itag) (v : Word) (s : State) : State :=
  let sel := s.fld kFLTSEL 7 0
  if 6 ≤ sel / 32 then s
  else if s.flag (kMAC (sel / 32) 0) 0 then s.cfgErr rETH t
  else s.setEth { s.eth with filters := Sparse.set (fun _ => 0#32) s.eth.filters (sel * 8 + i) v }

def State.filterRead (s : State) (i : Nat) : Word :=
  let sel := s.fld kFLTSEL 7 0
  if 6 ≤ sel / 32 then 0#32 else Sparse.get (fun _ => 0#32) s.eth.filters (sel * 8 + i)

/-- A write to a receive ring: its object, slot size and records stay while its MAC is enabled. -/
def effEthRing (k : Nat) (t : Itag) (v : Word) (s : State) : State :=
  let ring := (rkOff k - 0x100) / 0x20
  let o := (rkOff k - 0x100) % 0x20
  if s.flag (kMAC (ring / 8) 0) 0 && decide (o < 0x14) then s.cfgErr rETH t else s.writeGeneric k t v

/-! ### Meanings -/

def execEthRxFrame (mac : BitVec 3) (data : List Byte) (fcsOk : Bool) (dur : Nat) (s : State) : Outcome :=
  if 6 ≤ mac.toNat then .refused (.illFormed "ETH_RX_FRAME") else .next (effEthRx mac.toNat data fcsOk dur s)
def execEthTxFrame (mac : BitVec 3) (offer : List (BitVec 3 × List Byte)) (s : State) : Outcome :=
  if 6 ≤ mac.toNat then .refused (.illFormed "ETH_TX_FRAME")
  else .next (effEthTx mac.toNat (offer.map (fun x => (x.1.toNat, x.2))) s)
def execGclActivate (mac : BitVec 3) (s : State) : Outcome :=
  if 6 ≤ mac.toNat then .refused (.illFormed "GCL_ACTIVATE") else .next (effGclActivate mac.toNat s)
def execPtpSync (mac : BitVec 3) (t1 : DWord) (s : State) : Outcome :=
  if 6 ≤ mac.toNat then .refused (.illFormed "PTP_SYNC") else .next (effPtpSync mac.toNat t1.toNat s)
def execPtpPdelay (mac : BitVec 3) (ok : Bool) (t1 t2 t3 t4 : DWord) (s : State) : Outcome :=
  if 6 ≤ mac.toNat then .refused (.illFormed "PTP_PDELAY")
  else .next (effPdelay mac.toNat ok t1.toNat t2.toNat t3.toNat t4.toNat s)
def execPtpSyncTimeout (s : State) : Outcome := .next (effSyncTimeout s)
def execPtpSyncSend (mac : BitVec 3) (s : State) : Outcome :=
  if 6 ≤ mac.toNat then .refused (.illFormed "PTP_SYNC_SEND") else .next (effSyncSend mac.toNat s)
def execEthPhyLinkLoss (mac : BitVec 3) (s : State) : Outcome :=
  if 6 ≤ mac.toNat then .refused (.illFormed "ETH_PHY_LINK_LOSS") else .next (if s.pdDown 31 then s else s.count rETH 3)

end Sys2Proof.Machine
end

