-- ==== Sys2Proof/Machine/Links.lean ====
section
/-! DEFINITION. Host links, Linkous links and collectives (R679–R704, R713–R715). What a peer or a host sends arrives as a
command with its data; what the module sends is in `State.out`. -/

namespace Sys2Proof.Machine

/-! ### USB4 and PCIe -/

def kUSBCFG (p : Nat) : Nat := rk rUSB 1 (0x100 + 0x10 * p)
def kUSBSTAT (p : Nat) : Nat := rk rUSB 1 (0x104 + 0x10 * p)
def kPCIESTAT : Nat := rk rPCIE 1 0x100

/-- Is a host link up (R684)? Ports 0 and 1 are USB4, port 2 is PCIe. -/
def State.hostUp (s : State) (port : Nat) : Bool :=
  if port < 2 then decide (2 ≤ s.fld (kUSBSTAT port) 1 0) else s.flag kPCIESTAT 7

/-- A link completes training: on USB4 at Gen 4 or Gen 3, on PCIe at a width (its log₂) and a speed (R679, R713, R715). -/
def effLinkUp (port : Nat) (gen4 : Bool) (width speed : Nat) (s : State) : State :=
  if s.pdState 30 ≠ 0 ∨ s.hostUp port = true then s
  else if port < 2 then
    if s.flag (kUSBCFG port) 0 = false then s
    else
      let fast := gen4 && s.flag (kUSBCFG port) 1
      let s := (s.setFld (kUSBSTAT port) 1 0 (if fast then 3 else 2)).setFlag (kUSBSTAT port) 2 true
      if fast then s else s.count rUSB 1
  else
    let s := ((s.setFld kPCIESTAT 3 1 width).setFld kPCIESTAT 6 4 speed).setFlag kPCIESTAT 7 true
    if width < 3 ∨ speed < 5 then s.count rPCIE 1 else s

/-- A host link goes down (R683). Requests received in full have entered the module and go on. -/
def effLinkDown (port : Nat) (s : State) : State :=
  if s.hostUp port = false then s
  else if port < 2 then ((s.setFld (kUSBSTAT port) 1 0 0).setFlag (kUSBSTAT port) 2 false).count rUSB 0
  else (s.setFld kPCIESTAT 7 1 0).count rPCIE 0

/-- An access to PCIE_CFGDATA, or to the device window of pages 8–15 (R687): in root complex mode it goes out to a device;
in endpoint mode reads return zero and writes set CFG_ERR. `v` is what is written, or what the device answers. -/
def State.rcAccess (s : State) (config write : Bool) (addr : Nat) (t : Itag) (v : Word) : Word × State :=
  if s.link.rcMode then (v, { s with out := .device config write addr (if write then v else 0#32) :: s.out })
  else if write then (0#32, s.cfgErr rPCIE t)
  else (0#32, s)

def effPcieCfg (write : Bool) (t : Itag) (v : Word) (s : State) : Word × State :=
  s.rcAccess true write (s.fld (rk rPCIE 2 0x100) 27 0) t v

/-- The next received TLP reports an uncorrectable error under INJ_AER (R714). -/
def State.aerInject (s : State) (t : Itag) : State :=
  if t = 0x52#12 ∧ s.injArmed rPCIE 0 = true then ((s.injDone rPCIE 0).count rPCIE 4).raise rPCIE 2 { itag := t, inj := true } else s

/-! ### Linkous links and groups -/

def kLNKCFG (l : Nat) : Nat := rk rLNK 1 (0x100 + 0x20 * l)
def kLNKSTAT (l : Nat) : Nat := rk rLNK 1 (0x104 + 0x20 * l)
def kWINOBJ (l : Nat) : Nat := rk rLNK 1 (0x110 + 0x20 * l)
def kGRP (g w : Nat) : Nat := rk rLNK 2 (0x100 + 0x10 * g + 4 * w)

def State.lnkUp (s : State) (l : Nat) : Bool := decide (2 ≤ s.fld (kLNKSTAT l) 1 0)
def State.lnkMode (s : State) (l : Nat) : Nat := s.fld (kLNKCFG l) 1 0
def State.grpP (s : State) (g : Nat) : Nat := s.fld (kGRP g 0) 17 0 + 1
def State.grpValid (s : State) (g : Nat) : Bool := s.flag (kGRP g 0) 31
def State.grpRank (s : State) (g : Nat) : Nat := s.fld (kGRP g 1) 17 0
def State.grpGid (s : State) (g : Nat) : Nat := s.fld (kGRP g 2) 15 0
def State.grpLinks (s : State) (g : Nat) : List Nat := (List.range 2).filter (fun l => flagOf (s.rd (kGRP g 2)) (16 + l))

def State.setColls (s : State) (cs : List Coll) : State := { s with link := { s.link with colls := cs } }
def State.dropColl (s : State) (c : Coll) : State :=
  let s := s.setColls (s.link.colls.filter (fun x => !(x.queue == c.queue && x.index == c.index)))
  s.setFld kINFLIGHT 14 0 (s.fld kINFLIGHT 14 0 - c.tiles)

/-- Collective operands (R696). -/
structure LnkArgs where
  group : Nat
  tq : Nat
  max : Bool
  fmt : Nat
  src : Nat
  dst : Nat
  srcOff : Nat
  dstOff : Nat
  bytes : Nat
  tmo : Nat
  root : Nat
  deriving DecidableEq, Repr

def Op.lnk (o : Op) : LnkArgs :=
  { group := o.fld 0x10 3 0, tq := o.fld 0x10 13 4, max := flagOf (o.word 4) 14, fmt := o.fld 0x10 18 15, src := o.fld 0x14 15 0,
    dst := o.fld 0x14 31 16, srcOff := o.addr 0x18, dstOff := o.addr 0x20, bytes := o.addr 0x28, tmo := (o.word 12).toNat,
    root := o.fld 0x34 17 0 }

/-- Are the reserved fields of the opcode zero? -/
def lnkReservedOk (o : Op) : Bool :=
  let z := fun (n : Nat) => (o.words.drop n).all (fun w => w == 0#32)
  match o.opcode with
  | 1 => o.fld 0x10 31 19 == 0 && z 13
  | 2 => o.fld 0x10 31 14 == 0 && o.fld 0x34 31 18 == 0 && z 14
  | 4 => o.fld 0x10 31 4 == 0 && ((o.words.drop 5).take 7).all (fun w => w == 0#32) && z 13
  | 5 => o.fld 0x10 31 14 == 0 && o.fld 0x14 31 16 == 0 && z 12
  | _ => true

/-- The form of an LNK descriptor (R696). -/
def State.lnkFormOk (s : State) (q : Nat) (o : Op) : Bool :=
  let a := o.lnk
  let data := o.opcode != 4
  lnkReservedOk o && s.grpValid a.group &&
  (!data || ((s.queue rTRANSIT a.tq).tenant == (s.queue rLNK q).tenant && a.bytes % 256 == 0 && (s.validObj a.src [2, 3, 4]).isSome)) &&
  (!(o.opcode == 1 || o.opcode == 2) || (s.validObj a.dst [2, 3, 4]).isSome) &&
  (o.opcode != 1 || a.fmt == 0 || (a.max && a.fmt == 1)) &&
  (o.opcode != 5 || (s.grpP a.group == 2 && (s.grpLinks a.group).any (fun l => s.lnkMode l == 1)))

/-- Do the ranges lie inside their objects (R696)? -/
def State.lnkRangeOk (s : State) (o : Op) : Bool :=
  let a := o.lnk
  let inObj := fun (h off : Nat) => match s.validObj h [2, 3, 4] with | some x => decide (off + a.bytes ≤ x.size) | none => false
  o.opcode == 4 || (inObj a.src a.srcOff && (o.opcode == 5 || inObj a.dst a.dstOff))

/-- Is an operation of the group in flight (R701, R715)? -/
def State.groupBusy (s : State) (g : Nat) : Bool :=
  s.queues.any (fun e => e.1 / 4096 == rLNK && e.2.ops.any (fun o =>
    o.started && o.status.isNone && !o.words.isEmpty && o.opcode != 3 && o.lnk.group == g))

/-- An earlier LNK step of the job has not completed (R701). -/
def State.lnkEarlier (s : State) (op : Op) : Bool :=
  s.queues.any (fun e => e.1 / 4096 == rLNK && e.2.ops.any (fun o => o.job == op.job && decide (o.step < op.step) && o.status.isNone))

/-- Credits for a transfer of a Transit queue on a link: it holds some, or takes a block of 64 (R694). -/
def State.takeCredits (s : State) (l q : Nat) : Bool × State :=
  let k := l * 1024 + q
  if Sparse.get (fun _ => 0) s.link.credits k ≠ 0 then (true, s)
  else
    let free := s.fld (kCREDFREE l) 13 0
    if free < 64 then
      (false, if s.link.creditWait.contains k then s
              else ({ s with link := { s.link with creditWait := k :: s.link.creditWait } } : State).count rLNK 5)
    else
      (true, { s.setFld (kCREDFREE l) 13 0 (free - 64) with link := { s.link with
        credits := Sparse.set (fun _ => 0) s.link.credits k 64, creditWait := s.link.creditWait.filter (fun x => x != k) } })

def State.takeAllCredits (s : State) (ls : List Nat) (q : Nat) : Bool × State :=
  ls.foldl (fun acc l => let (ok, s) := acc.2.takeCredits l q; (acc.1 && ok, s)) (true, s)

/-- Note the end of a Transit queue's transfers on the group's links. -/
def State.noteXfer (s : State) (ls : List Nat) (q : Nat) : State :=
  { s with link := { s.link with lastXfer := ls.foldl (fun m l => Sparse.set (fun _ => 0) m (l * 1024 + q) s.now) s.link.lastXfer } }

/-! ### The tree (R698) -/

/-- What a part says of the bytes `off … off + n − 1` of a rank at a level. -/
def Coll.part (c : Coll) (level rank off n : Nat) : Option (List Byte) :=
  c.parts.findSome? (fun p =>
    if p.level = level ∧ p.rank = rank ∧ p.off ≤ off ∧ off + n ≤ p.off + p.data.length then some ((p.data.drop (off - p.off)).take n) else none)

/-- Combine two elements: FP32 addition, or the maximum. -/
def lnkCombine (max : Bool) (n : Nat) (a b : List Byte) : List Byte :=
  let w := fun (x : List Byte) => BitVec.ofNat 32 (if n = 2 then 2 ^ 16 * leNat x else leNat x)
  let r := if max then (fmax (w a) (w b)).1 else (fadd (w a) (w b)).1
  leBytes n (if n = 2 then r.toNat / 2 ^ 16 else r.toNat)

/-- The value that the tree holds for a rank at a level, for the element at byte `off`, once the member can know it. -/
def Coll.value (c : Coll) (max : Bool) (p rank n off : Nat) : Nat → Nat → Option (List Byte)
  | 0, r => if r = rank then some ((c.own.drop off).take n) else c.part 0 r off n
  | k + 1, r =>
    match c.part (k + 1) r off n with
    | some v => some v
    | none =>
      let other := r + 2 ^ k
      if p ≤ other then c.value max p rank n off k r
      else
        match c.value max p rank n off k r, c.value max p rank n off k other with
        | some a, some b => some (lnkCombine max n a b)
        | _, _ => none

/-- Has a rank's arrival at a barrier been established (R696)? -/
def Coll.arrived (c : Coll) (p rank : Nat) : Nat → Nat → Bool
  | 0, r => r == rank || (c.part 0 r 0 0).isSome
  | k + 1, r => (c.part (k + 1) r 0 0).isSome || (c.arrived p rank k r && (decide (p ≤ r + 2 ^ k) || c.arrived p rank k (r + 2 ^ k)))

/-- ⌈log₂ P⌉. -/
def levelsOf (p : Nat) : Nat := if p ≤ 1 then 0 else Nat.log2 (p - 1) + 1

/-- All elements of a result, when every one is known. -/
def gatherElems (n : Nat) (f : Nat → Option (List Byte)) : Nat → Nat → Option (List Byte)
  | 0, _ => some []
  | k + 1, off =>
    match f off, gatherElems n f k (off + n) with
    | some a, some b => some (a ++ b)
    | _, _ => none

/-- What the member writes to DST, once it is known. -/
def State.collResult (s : State) (o : Op) (c : Coll) : Option (List Byte) :=
  let a := o.lnk
  let p := s.grpP a.group
  let rank := s.grpRank a.group
  match o.opcode with
  | 1 =>
    let n := if a.fmt = 1 then 2 else 4
    gatherElems n (fun off => c.value a.max p rank n off (levelsOf p) 0) (a.bytes / n) 0
  | 2 => if a.root = rank then some c.own else gatherElems 4 (fun off => c.part 0 a.root off 4) (a.bytes / 4) 0
  | 4 => if c.arrived p rank (levelsOf p) 0 then some [] else none
  | _ => some []

/-- Finish a collective whose result is known: it is written, and the group counts it. -/
def State.collTry (s : State) (c : Coll) : State :=
  match s.findOp rLNK c.queue c.index with
  | none => s.dropColl c
  | some o =>
    if o.status.isSome then s.dropColl c
    else
      match s.collResult o c with
      | none => s
      | some bs =>
        let a := o.lnk
        let s := (s.dropColl c).noteXfer (s.grpLinks a.group) a.tq
        let (res, s) := if o.opcode = 1 ∨ o.opcode = 2 then
            match s.validObj a.dst [2, 3, 4] with
            | some d => s.objTxWrite (s.queue rTRANSIT a.tq).itag d a.dstOff bs
            | none => (.error, s)
          else (.ok (), s)
        match res with
        | .ok _ => (s.addSat (kGRP a.group 3) 31 0 1).conclude rLNK c.queue c.index stDONE
        | tx => s.conclude rLNK c.queue c.index tx.status

/-- Send a PUT once a PAIR link of its group is up (R696). -/
def State.sendPut (s : State) (c : Coll) : State :=
  match s.findOp rLNK c.queue c.index with
  | none => s.dropColl c
  | some o =>
    match (s.grpLinks c.group).find? (fun l => s.lnkUp l && s.lnkMode l == 1) with
    | none => s
    | some l =>
      let s : State := { s.dropColl c with out := .put l o.lnk.dstOff c.own :: s.out }
      ((s.noteXfer (s.grpLinks c.group) o.lnk.tq).addSat (kGRP c.group 3) 31 0 1).conclude rLNK c.queue c.index stDONE

/-- Start an LNK operation (R696–R701). -/
def effLnkOp (opcode q : Nat) (s : State) : State :=
  match s.nextOp rLNK q with
  | none => s
  | some o =>
    let a := o.lnk
    if o.opcode ≠ opcode ∨ s.pick rLNK ≠ some q ∨ s.groupBusy a.group = true ∨ s.lnkEarlier o = true then s
    else if s.lnkFormOk q o = false then (s.start rLNK q o).conclude rLNK q o.index stREJ_FORMAT
    else if s.lnkRangeOk o = false then (s.start rLNK q o).conclude rLNK q o.index stREJ_LIMIT
    else
      let ls := s.grpLinks a.group
      let data := opcode ≠ 4
      if data ∧ 16384 ≤ s.fld kINFLIGHT 14 0 then s
      else
        let (ok, s) := if data then s.takeAllCredits ls a.tq else (true, s)
        if ok = false then s
        else
          let s := s.start rLNK q o
          let (own, s) := if data then
              match s.validObj a.src [2, 3, 4] with
              | some x => s.objTxRead (s.queue rTRANSIT a.tq).itag x a.srcOff a.bytes
              | none => (.error, s)
            else (.ok ([], false), s)
          match own with
          | .ok (bs, _) =>
            if opcode = 5 then
              let c : Coll := { queue := q, index := o.index, group := a.group, start := s.now, own := bs }
              (s.setColls (s.link.colls ++ [c])).sendPut c
            else
              let gid := s.grpGid a.group
              let mine := (s.link.early.filter (fun e => e.1 == gid)).map Prod.snd
              let c : Coll := { queue := q, index := o.index, group := a.group, start := s.now, own := bs, parts := mine,
                                tiles := if data then 1 else 0 }
              let s : State := { s with link := { s.link with early := s.link.early.filter (fun e => e.1 != gid) } }
              let s := (s.setColls (s.link.colls ++ [c])).addInflight c.tiles
              s.collTry c
          | tx => s.conclude rLNK q o.index tx.status

/-- End the operation of a group in flight with a stopping status: nothing of it is published (R692, R700). -/
def State.collFail (s : State) (c : Coll) (st : Nat) : State :=
  let tq := match s.findOp rLNK c.queue c.index with | some o => o.lnk.tq | none => 0
  ((s.noteXfer (s.grpLinks c.group) tq).dropColl c).conclude rLNK c.queue c.index st

def State.collOf (s : State) (gid : Nat) : Option Coll :=
  s.link.colls.find? (fun c => s.grpValid c.group && s.grpGid c.group == gid)

/-- A flit with an uncorrectable FEC word or a CRC failure arrives (R692): the operation it serves fails, and abort markers
go to the members it exchanges flits with. -/
def State.badFlit (s : State) (gid : Nat) (inj : Bool) : State :=
  let s := (s.count rLNK 1).raise rLNK 2 { inj := inj, detail := BitVec.ofNat 64 gid }
  match s.collOf gid with
  | some c => ({ s with out := .abortMarker gid :: s.out } : State).collFail c stERR_DATA
  | none => s

def effFlitUncorrectable (l gid : Nat) (s : State) : State := if s.lnkUp l then s.badFlit gid false else s

/-- A flit of a collective arrives (R698). -/
def effCollFlit (l gid level rank off : Nat) (data : List Byte) (s : State) : State :=
  if s.lnkUp l = false then s
  else if s.injArmed rLNK 0 = true ∧ s.fld (kEINJ rLNK) 2 2 = l then (s.injDone rLNK 0).badFlit gid true
  else
    let p : Part := { level := level, rank := rank, off := off, data := data }
    match s.collOf gid with
    | some c =>
      let c := { c with parts := p :: c.parts }
      (s.setColls (s.link.colls.map (fun x => if x.queue = c.queue ∧ x.index = c.index then c else x))).collTry c
    | none => { s with link := { s.link with early := s.link.early ++ [(gid, p)] } }

/-- TMO_US elapses (R700). -/
def effCollTimeout (q : Nat) (s : State) : State :=
  match s.link.colls.find? (fun c => c.queue == q) with
  | none => s
  | some c =>
    match s.findOp rLNK q c.index with
    | none => s
    | some o =>
      if o.opcode = 5 ∨ s.now < c.start + o.lnk.tmo * 1000 then s else (s.count rLNK 3).collFail c stERR_TIMEOUT_WCET

/-- An abort marker arrives (R700). -/
def effAbortMarker (gid : Nat) (s : State) : State :=
  let s := s.count rLNK 4
  match s.collOf gid with
  | some c => s.collFail c stERR_DATA
  | none => s

/-- A PUT from the peer (R693). -/
def effPeerPut (l off : Nat) (data : List Byte) (s : State) : State :=
  let t : Itag := BitVec.ofNat 12 (0x70 + l)
  if s.lnkUp l = false ∨ s.lnkMode l ≠ 1 ∨ s.frozen.contains t = true then s
  else
    match (if s.flag (kWINOBJ l) 16 then s.validObj (s.fld (kWINOBJ l) 15 0) [0, 1, 2, 3, 4] else none) with
    | none => s.count rLNK 7
    | some o =>
      if o.size < off + data.length then s.count rLNK 7
      else
        match s.objTxWrite t o off data with
        | (.firewall, s) => s.flushItag t
        | (_, s) => s

/-- A lane is suspect: a spare takes over, or the link goes on with 4 lanes (R690, R691). -/
def State.laneSuspect (s : State) (l lane : Nat) : State :=
  let (took, s) := (lnkSpares l).fault s lane
  if took then s
  else
    let s : State := { s with link := { s.link with halfLinks := l :: s.link.halfLinks } }
    if s.lnkUp l then s.setFld (kLNKSTAT l) 1 0 3 else s

def effLaneCe (l lane n : Nat) (s : State) : State :=
  if s.fld (rk rLNK 1 (0x10C + 0x20 * l)) 15 0 < n then (s.count rLNK 0 n).laneSuspect l lane else s

/-- INJ_LANE (R714). -/
def State.injLane (s : State) : State :=
  if s.injArmed rLNK 1 then (s.injDone rLNK 1).laneSuspect (s.fld (kEINJ rLNK) 2 2) (s.fld (kEINJ rLNK) 6 3) else s

/-- INJ_DOWN (R714). -/
def State.injUsbDown (s : State) : State :=
  if s.injArmed rUSB 0 then effLinkDown (s.fld (kEINJ rUSB) 1 1) (s.injDone rUSB 0) else s

/-- A Transit queue has had no transfer in flight on a link for 10 µs (R694). -/
def effCreditReturn (l q : Nat) (s : State) : State :=
  let busy := s.link.colls.any (fun c => match s.findOp rLNK c.queue c.index with
    | some o => o.opcode != 4 && o.lnk.tq == q && (s.grpLinks c.group).contains l
    | none => false)
  if busy = true ∨ Sparse.get (fun _ => 0) s.link.credits (l * 1024 + q) = 0 ∨
      s.now < Sparse.get (fun _ => 0) s.link.lastXfer (l * 1024 + q) + 10000 then s
  else s.dropCredits l q

/-- A write to a group entry (R695, R715). -/
def effGroupWrite (g w : Nat) (t : Itag) (v : Word) (s : State) : State :=
  if s.groupBusy g then s.cfgErr rLNK t
  else if w = 1 ∧ s.grpP g ≤ fieldOf v 17 0 then s.cfgErr rLNK t
  else s.writeGeneric (kGRP g w) t v

/-- A write to LNK_Ll_CFG has no effect while the link is up (R715). -/
def effLnkCfg (l : Nat) (t : Itag) (v : Word) (s : State) : State :=
  if s.lnkUp l then s.cfgErr rLNK t else s.writeGeneric (kLNKCFG l) t v

def effLnkLinkUp (l : Nat) (eight : Bool) (s : State) : State :=
  if s.lnkMode l = 0 ∨ s.pdState 30 ≠ 0 ∨ s.lnkUp l = true then s
  else
    let s := s.setFld (kLNKSTAT l) 1 0 (if eight && !s.link.halfLinks.contains l then 2 else 3)
    (s.link.colls.filter (fun c => match s.findOp rLNK c.queue c.index with | some o => o.opcode == 5 | none => false)).foldl
      (fun s c => s.sendPut c) s

def effLnkLinkDown (l : Nat) (s : State) : State := if s.lnkUp l then s.setFld (kLNKSTAT l) 1 0 0 else s

def execLinkUp (port : BitVec 2) (gen4 : Bool) (width : BitVec 2) (speed : BitVec 3) (s : State) : Outcome :=
  if 2 < port.toNat ∨ speed.toNat = 0 ∨ 5 < speed.toNat then .refused (.illFormed "LINK_UP")
  else .next (effLinkUp port.toNat gen4 width.toNat speed.toNat s)
def execLinkDown (port : BitVec 2) (s : State) : Outcome :=
  if 2 < port.toNat then .refused (.illFormed "LINK_DOWN") else .next (effLinkDown port.toNat s)
def execAllreduce (q : BitVec 6) (s : State) : Outcome := .next (effLnkOp 1 q.toNat s)
def execBcast (q : BitVec 6) (s : State) : Outcome := .next (effLnkOp 2 q.toNat s)
def execBarrier (q : BitVec 6) (s : State) : Outcome := .next (effLnkOp 4 q.toNat s)
def execPut (q : BitVec 6) (s : State) : Outcome := .next (effLnkOp 5 q.toNat s)
def execLnkNop (q : BitVec 6) (s : State) : Outcome := .next (effNop rLNK q.toNat s)
def execPeerPut (link : BitVec 1) (off : DWord) (data : List Byte) (s : State) : Outcome :=
  .next (effPeerPut link.toNat off.toNat data s)
def execCollectiveTimeout (q : BitVec 6) (s : State) : Outcome := .next (effCollTimeout q.toNat s)
def execAbortMarker (gid : BitVec 16) (s : State) : Outcome := .next (effAbortMarker gid.toNat s)
def execFlitUncorrectable (link : BitVec 1) (gid : BitVec 16) (s : State) : Outcome := .next (effFlitUncorrectable link.toNat gid.toNat s)
def execLaneCeThreshold (link : BitVec 1) (lane : BitVec 3) (count : BitVec 16) (s : State) : Outcome :=
  .next (effLaneCe link.toNat lane.toNat count.toNat s)
def execCreditReturn (link : BitVec 1) (q : BitVec 10) (s : State) : Outcome := .next (effCreditReturn link.toNat q.toNat s)
def execLnkLinkUp (link : BitVec 1) (eight : Bool) (s : State) : Outcome := .next (effLnkLinkUp link.toNat eight s)
def execLnkLinkDown (link : BitVec 1) (s : State) : Outcome := .next (effLnkLinkDown link.toNat s)
def execCollectiveFlitReceive (link : BitVec 1) (gid : BitVec 16) (level : BitVec 5) (rank : BitVec 18) (off : Nat) (data : List Byte)
    (s : State) : Outcome :=
  .next (effCollFlit link.toNat gid.toNat level.toNat rank.toNat off data s)

end Sys2Proof.Machine
end

