-- ==== Sys2Proof/Machine/Sec.lean ====
section
/-! DEFINITION. SEC: quotes, extends, anti-rollback commits and debug tokens (R640, R646–R653). -/

namespace Sys2Proof.Machine

/-- The next descriptor of a queue when SEC, which executes one at a time, is free and would take that queue (R392,
R647). -/
def State.secNext (s : State) (q opcode : Nat) : Option Op :=
  if s.inFlight rSEC then none
  else
    match s.nextOp rSEC q with
    | some o => if o.opcode = opcode ∧ s.pick rSEC = some q then some o else none
    | none => none

/-- The 384 bytes before the signature of a quote (R648). -/
def State.quoteBytes (s : State) (o : Op) : List Byte :=
  let mask := o.fld 0x38 7 0
  let nonce := (List.range 8).flatMap (fun i => leBytes 4 (o.word (4 + i)).toNat)
  let w0 := 1 + (if s.flag (rk rWATCH 1 0x110) 0 then 2 ^ 16 else 0) + 2 ^ 17 * s.safe
  leBytes 4 w0 ++ leBytes 4 mask ++ leBytes 8 s.boot.cold ++ leBytes 8 s.phase64.toNat ++ List.replicate 8 0#8 ++
  nonce ++ s.digestAt (kDEVID 0) ++
  (List.range 8).flatMap (fun i => if bitOf mask i then s.digestAt (kMEAS i 0) else List.replicate 32 0#8) ++
  List.replicate 32 0#8

/-- The signature takes 384 bytes. -/
def signature (msg : List Byte) : List Byte := (Config.rsaSign msg ++ List.replicate 384 0#8).take 384

/-- QUOTE (R647, R648, R652). -/
def effQuote (q : Nat) (s : State) : State :=
  match s.secNext q 1 with
  | none => s
  | some o =>
    let s := s.start rSEC q o
    let out := o.addr 0x30
    if out % 256 ≠ 0 ∨ o.fld 0x38 31 8 ≠ 0 ∨ o.word 15 ≠ 0#32 then s.finish rSEC q o.index stREJ_FORMAT
    else
      let inj := s.injArmed rSEC 2
      let s := if inj then s.injDone rSEC 2 else s
      if inj || s.flag kBOOTSTAT 14 || !s.flag kBOOTSTAT 15 then (s.count rSEC 6).conclude rSEC q o.index stREJ_LIMIT
      else
        let msg := s.quoteBytes o
        match s.txWrite (s.queueItag rSEC q) out (msg ++ signature msg) with
        | (.ok _, s) => s.conclude rSEC q o.index stDONE
        | (tx, s) => s.conclude rSEC q o.index tx.status

/-- EXTEND (R646, R647). -/
def effExtend (q : Nat) (s : State) : State :=
  match s.secNext q 2 with
  | none => s
  | some o =>
    let s := s.start rSEC q o
    let i := o.fld 0x10 2 0
    let zero := o.fld 0x10 31 3 == 0 && o.word 5 == 0#32 && (List.range 8).all (fun j => o.word (8 + j) == 0#32)
    if i < 6 ∨ zero = false then s.finish rSEC q o.index stREJ_FORMAT
    else
      match s.txRead (s.queueItag rSEC q) (o.addr 0x18) 32 (some (rSEC, q, o.index)) with
      | (.ok d, s) => (s.extend i d).conclude rSEC q o.index stDONE
      | (tx, s) => s.conclude rSEC q o.index tx.status

/-- NOP, in queue order (R647). -/
def effSecNop (q : Nat) (s : State) : State :=
  match s.secNext q 3 with
  | none => s
  | some _ => effNop rSEC q s

/-- A write of SEC_SVNCMD commits a counter (R640). -/
def effSvnCmd (v : Word) (t : Itag) (s : State) : State :=
  let c := fieldOf v 3 0
  let s := (s.setFld kSVNCMD 3 0 c).readReplay true
  match Sparse.get (fun _ => none) s.boot.running c with
  | none => s.cfgErr rSEC t
  | some svn =>
    if svn < (s.rd (kSVNCTR c)).toNat then s.cfgErr rSEC t
    else (s.setBoot { s.boot with svn := Sparse.set (fun _ => 0) s.boot.svn c svn }).wr (kSVNCTR c) (BitVec.ofNat 32 svn)

/-- The token in SEC's buffer is valid under the module's DEBUG (R649): a record of TYPE 2 layout, signed by the customer
key or the vendor root, that carries this boot's nonce and the module's DEVID. -/
def State.tokenOk (s : State) : Bool × State :=
  let bs := s.boot.tokenBuf
  let r : Rec := { hdr := bs.take 0x400, body := bs.drop 0x400 }
  let (inj, s) := s.sigFails
  let ok := !inj && decide (0x400 ≤ bs.length) && r.w 8 == r.body.length && r.formOk 2 && r.signed s.boot.custHash &&
    ((s.boot.debug == 1 && r.signer == 1) || (s.boot.debug == 2 && r.signer == 0)) &&
    r.body.take 32 == s.digestAt (kDBGNONCE 0) && (r.body.drop 0x20).take 32 == s.digestAt (kDEVID 0)
  (ok, if ok then s.count rSEC 0 else s.count rSEC 5)

/-- A write of SEC_DBGCMD: ACCEPT. -/
def effDbgCmd (v : Word) (s : State) : State :=
  if flagOf v 0 then
    let (ok, s) := s.tokenOk
    if ok then s.setBoot { s.boot with token := some s.boot.debug } else s
  else s

def execQuote (q : BitVec 6) (s : State) : Outcome := .next (effQuote q.toNat s)
def execExtend (q : BitVec 6) (s : State) : Outcome := .next (effExtend q.toNat s)
def execSecNop (q : BitVec 6) (s : State) : Outcome := .next (effSecNop q.toNat s)

end Sys2Proof.Machine
end

