-- ==== Sys2Proof/Machine/Window.lean ====
section
/-! DEFINITION. Self-test windows: how the Ephemeris opens and closes them, which part they test, and how a slice ends
(R66, R69, R192–R196, R207, R397, R502, R519, R583–R585, R689). -/

namespace Sys2Proof.Machine

def State.windows (s : State) (r : Nat) : Nat := Sparse.get (fun _ => 0) s.wins r

/-- Set the open windows of a region; BLK_STAT.WINDOW shows whether there is one (R91). -/
def State.setWindows (s : State) (r m : Nat) : State :=
  let s : State := { s with wins := Sparse.set (fun _ => 0) s.wins r m }
  s.setFlag (kSTAT r) 3 (m != 0)

/-- Is a logical part at a boundary between operations (R193, R397, R502, R519, R689)? -/
def State.partFree (s : State) (r l : Nat) : Bool :=
  if r < 8 then (s.dome r).run.isNone && (s.dome r).saved.isEmpty
  else if r = rSOLV then s.solv.run.isNone
  else if r = rDRIVE then decide (Sparse.get (fun _ => 0) s.drive.busy l ≤ 4 * s.now)
  else if r = rCVU then (Sparse.get (fun _ => {}) s.cvu.chans l).frame.isNone
  else true

/-! ### Row groups (R207, R583) -/

/-- Banks of the Plate Stores and the Archive. -/
def nBanks : Nat := 512
def State.rgSpare (s : State) (b : Nat) : Nat :=
  let x := Sparse.get (fun _ => 0) s.plate.spareRow b
  if x = 0 then 16 else x - 1
def State.rgTesting (s : State) (b : Nat) : Nat := Sparse.get (fun _ => 0) s.plate.testing b
def State.rgIsDead (s : State) (b g : Nat) : Bool := bitOf (Sparse.get (fun _ => 0) s.plate.rgDead b) g

/-- The next row group of a bank to give way to the spare: ascending from the spare, skipping retired ones. -/
def State.rgNext (s : State) (b : Nat) : Option Nat :=
  ((List.range 16).map (fun i => (s.rgSpare b + 1 + i) % 17)).find? (fun g => !s.rgIsDead b g)

/-- The spare row group of a bank takes over the next one, which enters TESTING; a bank without a spare stays. -/
def State.rgTake (s : State) (b : Nat) : State :=
  if s.rgTesting b ≠ 0 ∨ s.rgIsDead b (s.rgSpare b) = true then s
  else
    match s.rgNext b with
    | none => s
    | some g =>
      let s := s.count rPLATE 2
      { s with plate := { s.plate with
          testing := Sparse.set (fun _ => 0) s.plate.testing b (g + 1)
          spareRow := Sparse.set (fun _ => 0) s.plate.spareRow b (if g = 16 then 0 else g + 1) } }

/-- In an open window one row group of every bank is tested at once. -/
def State.rgBegin (s : State) : State :=
  if s.flag (kSTAT rPLATE) 3 = false ∨ s.plate.rgServed = true ∨ s.plate.rgSlice.isSome = true then s
  else
    let s := (List.range nBanks).foldl State.rgTake s
    { s with plate := { s.plate with rgSlice := some s.now, rgServed := true } }

/-- The slice of 0.05 ms ends; `failed` lists the banks whose row group failed, which retires it. -/
def State.rgEnd (s : State) (failed : List Nat) : State :=
  match s.plate.rgSlice with
  | none => s
  | some t =>
    if s.now < 50000 + t then s
    else
      let s := failed.foldl (fun (s : State) b =>
        if s.rgTesting b = 0 then s
        else { s with plate := { s.plate with
          rgDead := Sparse.set (fun _ => 0) s.plate.rgDead b
            (Nat.lor (Sparse.get (fun _ => 0) s.plate.rgDead b) (2 ^ (s.rgTesting b - 1))) } }) s
      { s with plate := { s.plate with rgSlice := none, testing := [] } }

/-! ### Windows -/

/-- A part left in TESTING starts its slice again in the window that opens (R196). -/
def SpareSet.resume (S : SpareSet) (s : State) : State :=
  let aux := S.aux s
  if aux.served = true ∨ aux.slice.isSome = true then s
  else
    match (List.range S.nphys).find? (S.canTest s) with
    | some p => S.startSlice s p
    | none => s

/-- Window `w` of region `r` opens; each window tests one freed part (R583). -/
def State.openWindow (s : State) (r w : Nat) : State :=
  if bitOf (s.windows r) w then s
  else
    let s := s.setWindows r (Nat.lor (s.windows r) (2 ^ w))
    let s : State := if r = rPLATE then { s with plate := { s.plate with rgServed := false } } else s
    let s := (spareSets r).foldl (fun s S => S.resume (S.setAux s { S.aux s with served := false })) s
    s.touch (regionPd r)

/-- The last open window of a region closes: slices in progress are aborted (R196). -/
def State.noWindow (s : State) (r : Nat) : State :=
  let s : State := if r = rPLATE then { s with plate := { s.plate with rgSlice := none } } else s
  ((spareSets r).foldl (fun s S => S.abort s) s).touch (regionPd r)

/-- Window `w` closes, or every window of the region when `all`. -/
def State.closeWindow (s : State) (r w : Nat) (all : Bool) : State :=
  let m := s.windows r
  let m' := if all then 0 else if bitOf m w then m - 2 ^ w else m
  if m = m' then s
  else
    let s := s.setWindows r m'
    if m' = 0 then s.noWindow r else s

/-- A window-open or a close that a protected interval has stopped or forced counts and is flagged (R585). -/
def State.protEvent (s : State) (r : Nat) : State :=
  (s.count rWATCH 6).raise rWATCH 19 { index := r }

/-- A due window-open action of region `r` takes effect (R66, R69, R585). -/
def effWindowOpen (r : Nat) (s : State) : State :=
  match s.takeDue (Action.isOpen r) with
  | none => s
  | some (d, s) =>
    match d.action with
    | .windowOpen _ w =>
      if s.dropsAt r then s.dropAction d.slot
      else
        let s := s.slotFired d.slot
        if s.isProtected r then s.protEvent r else s.openWindow r w
    | _ => s

/-- A due close of region `r` takes effect: an Ephemeris action, or the close that a protected interval forces, which
closes every window and which no slot owns. -/
def effWindowClose (r : Nat) (s : State) : State :=
  match s.takeDue (Action.isClose r) with
  | none => s
  | some (d, s) =>
    match d.action with
    | .windowClose _ w =>
      if 1024 ≤ d.slot then
        if s.flag (kSTAT r) 3 then (s.closeWindow r 0 true).protEvent r else s
      else if s.dropsAt r then s.dropAction d.slot
      else (s.slotFired d.slot).closeWindow r w false
    | _ => s

/-! ### Takeovers and slices -/

/-- A boundary between operations of one set of a region (R193); of a region with one set `unit` is 0. -/
def effTakeover (r u : Nat) (s : State) : State :=
  if s.pdDown (regionPd r) then s
  else if r = rPLATE then s.rgBegin
  else
    match (spareSets r).find? (fun S => S.unit == u) with
    | none => s
    | some S => S.boundary s (s.partFree r)

def effSliceEnd (r u : Nat) (pass : Bool) (banks : List Nat) (s : State) : State :=
  if r = rPLATE then (s.rgEnd (if pass then [] else banks)).touch (regionPd r)
  else
    match (spareSets r).find? (fun S => S.unit == u) with
    | none => s
    | some S => (S.sliceEnd s pass).touch (regionPd r)

/-! ### Meanings -/

/-- R193, R207, R397, R502, R519, R689. -/
def execSpareTakeover (region : BitVec 6) (unit : BitVec 2) (s : State) : Outcome :=
  .next (effTakeover region.toNat unit.toNat s)
/-- R192, R195. -/
def execTestSliceEnd (region : BitVec 6) (unit : BitVec 2) (pass : Bool) (banks : List (BitVec 9)) (s : State) : Outcome :=
  .next (effSliceEnd region.toNat unit.toNat pass (banks.map BitVec.toNat) s)
/-- R66, R195, R585. -/
def execWindowOpen (region : BitVec 6) (s : State) : Outcome := .next (effWindowOpen region.toNat s)
/-- R66, R196, R585. -/
def execWindowClose (region : BitVec 6) (s : State) : Outcome := .next (effWindowClose region.toNat s)

end Sys2Proof.Machine
end

