-- ==== Sys2Proof/Machine/RegWrite.lean ====
section
/-! DEFINITION. What a write to each register does, and what a read of it answers, once the access has passed its checks:
the page-0 header (R91–R100), the queue registers (R119) and each block's own registers. -/

namespace Sys2Proof.Machine

/-! ### The page-0 header -/

/-- Injections that act when they are written (R249, R588, R621, R677, R714). -/
def State.injectNow (s : State) (r : Nat) (t : Itag) : State :=
  if r = rPLATE then s.injEvict
  else if r = rLNK then s.injLane
  else if r = rUSB then s.injUsbDown
  else if r = rCAN then (if s.injArmed rCAN 1 then s.injBusoff else s)
  else if r = rETH then (if s.injArmed rETH 1 then (s.injDone rETH 1).injUnsync else s)
  else if r = rWATCH then
    let s := if s.injArmed rWATCH 2 then (s.injDone rWATCH 2).pairMismatch (s.fld (kEINJ rWATCH) 4 4) true else s
    if s.injArmed rWATCH 3 then
      let n := s.fld (kEINJ rWATCH) 8 5
      let s := s.injDone rWATCH 3
      if 12 ≤ n ∧ n ≤ 14 then s.cfgErr rWATCH t else s.postCause n (causeIsland n) none true
    else s
  else if r = rPWR then
    let s := if s.injArmed rPWR 0 then (s.injDone rPWR 0).dip (s.fld kVIN 15 0) (100000 + s.now) true else s
    if s.injArmed rPWR 1 then
      (s.injDone rPWR 1).setPwr { s.pwr with warnInjUntil := 10000000 + s.now }
    else s
  else s

/-- A write to BLK_EINJ: none without test rights (R96). -/
def effEinj (r : Nat) (t : Itag) (v : Word) (s : State) : State :=
  if s.testRights r = false then s.cfgErr r t else (s.writeGeneric (kEINJ r) t v).injectNow r t

/-- A write to BLK_CTRL; QUIESCE back at 0 releases recorded work (R92, R103, R104). -/
def effCtrl (r : Nat) (t : Itag) (v : Word) (s : State) : State :=
  let was := s.quiesced r
  let s := s.writeGeneric (kCTRL r) t v
  let s := if was && !s.quiesced r then s.unquiesce r else s
  s.showQuiesced r

def effHeader (r o k : Nat) (t : Itag) (v : Word) (s : State) : State :=
  if o = 0x010 then effCtrl r t v s
  else if o = 0x028 then effEinj r t v s
  else if o = 0x050 then s.frzWrite r t v
  else s.writeGeneric k t v

/-- A write to pages 11–15 of a block with queues (R119). A doorbell above QMAX is no register. -/
def effQueueReg (r p o k : Nat) (t : Itag) (v : Word) (s : State) : State :=
  if p = 11 then (if o = 0x008 then s.qcmdWrite r v else s.writeGeneric k t v)
  else
    let q := (p - 12) * 1024 + o / 4
    if q ≤ queueMax r then s.doorbell r q v t else s

/-! ### Blocks -/

/-- The value of a two-field limit: `hi:lo` of `v`, or what the register holds when `v` breaks the field's own limits. -/
def State.keptField (s : State) (k : Nat) (v : Word) (hi lo min max : Nat) : Nat :=
  let x := fieldOf v hi lo
  if min ≤ x ∧ x ≤ max then x else s.fld k hi lo

/-- WATCH_DISCFG: WIN lies from K to 256 (R589). -/
def effDiscfg (t : Itag) (v : Word) (s : State) : State :=
  let k := rk rWATCH 2 0x100
  if fieldOf v 14 6 < s.keptField k v 5 0 3 63 then
    (s.writeGeneric k t (withField v 14 6 (s.fld k 14 6))).cfgErr rWATCH t
  else s.writeGeneric k t v

/-- AGE_SLACK: RET lies from 0 to TGT (R622). -/
def effSlack (t : Itag) (v : Word) (s : State) : State :=
  let k := rk rAGE 1 0x104
  if s.keptField k v 9 0 20 500 < fieldOf v 29 20 then
    (s.writeGeneric k t (withField v 29 20 (s.fld k 29 20))).cfgErr rAGE t
  else s.writeGeneric k t v

/-- DRIVE pages 1–4 (R495, R479, R498, R507). -/
def effDriveReg (p o k : Nat) (t : Itag) (v : Word) (s : State) : State :=
  if p = 1 ∧ o = 0x110 then (if flagOf v 0 then s.fly else s)
  else if p = 1 ∧ o = 0x10C then
    if 60000 < fieldOf v 15 0 then s.cfgErr rDRIVE t else s.setAutoms (fieldOf v 15 0)
  else if p = 2 ∧ o = 0x100 then s.loopCommand v
  else if p = 3 ∧ 0x100 ≤ o ∧ o < 0x200 then
    let c := (o - 0x100) / 0x20
    if (o - 0x100) % 0x20 = 0 then effLogMode c t v s
    else if (o - 0x100) % 0x20 = 0x0C then effLogSize c t v s
    else s.writeGeneric k t v
  else if p = 4 ∧ o = 0x124 then driveSpares.subcmd s v
  else s.writeGeneric k t v

/-- WATCH pages 1–6 (R556, R558, R573, R589, R721). -/
def effWatchReg (p o k : Nat) (t : Itag) (v : Word) (s : State) : State :=
  if p = 1 ∧ o = 0x108 then effSsCmd v t s
  else if p = 1 ∧ o = 0x110 then
    let was := s.flag k 0
    let s := s.writeGeneric k t v
    if s.flag k 0 = was then s else s.depotChanged
  else if p = 2 ∧ o = 0x100 then effDiscfg t v s
  else if p = 4 then
    let s := s.writeGeneric k t v
    if o = 0x100 ∨ o = 0x104 then s.setWatch { s.watch with hbBase := s.now } else s
  else if p = 5 ∧ o = 0x104 then effNlrd v t s
  else if p = 6 ∧ (o = 0x100 ∨ o = 0x104) then effTrgrant (o == 0x104) v t s
  else s.writeGeneric k t v

/-- MERID pages 1–8 (R42, R52, R57–R63, R71). -/
def effMeridReg (p o k : Nat) (t : Itag) (v : Word) (s : State) : State :=
  if p = 1 ∧ o = 0 then effLockcfgWrite v t s
  else if p = 3 ∧ o < 0x100 ∧ o % 8 = 0 then effTrgCfg (o / 8) v t s
  else if 4 ≤ p ∧ p ≤ 7 then
    let n := (p - 4) * 256 + o / 16
    if o % 16 / 4 = 3 then effSlotCtl n v t s else effSlotWord n (o % 16 / 4) v t s
  else s.writeGeneric k t v

/-- PWR pages 1–3 (R595, R598, R601, R622). -/
def effPwrReg (p o k : Nat) (t : Itag) (v : Word) (s : State) : State :=
  if p = 1 ∧ o = 0x120 then effSleepCmd v s
  else if p = 2 ∧ o = 0x200 then effPdCmd v t s
  else if p = 2 ∧ 0x100 ≤ o ∧ o < 0x200 ∧ o % 8 = 0 then
    s.writeGeneric k t (if pdMayOff ((o - 0x100) / 8) then v else withFlag v 0 false)
  else s.writeGeneric k t v

/-- PCIE pages 1, 2 and 8–15 (R687). -/
def effPcieReg (p o k : Nat) (t : Itag) (v : Word) (s : State) : State :=
  if p = 2 ∧ o = 0x100 then (if s.link.rcMode then s.writeGeneric k t v else s.cfgErr rPCIE t)
  else if p = 2 ∧ o = 0x104 then (effPcieCfg true t v s).2
  else if 8 ≤ p then (s.rcAccess false true (s.rd64 (rk rPCIE 1 0x108) + 0x1000 * (p - 8) + o) t v).2
  else s.writeGeneric k t v

/-- ETH pages 1–3 (R661, R663, R678). -/
def effEthReg (p o k : Nat) (t : Itag) (v : Word) (s : State) : State :=
  if p = 1 ∧ 0x100 ≤ o ∧ o < 0x1C0 then effMacWrite ((o - 0x100) / 0x20) ((o - 0x100) % 0x20) t v s
  else if p = 2 ∧ 0x104 ≤ o ∧ o < 0x124 then effFilterData ((o - 0x104) / 4) t v s
  else if p = 3 ∧ 0x100 ≤ o ∧ o < 0x700 then effEthRing k t v s
  else s.writeGeneric k t v

/-- CAN pages 1–3 (R666–R668, R678). -/
def effCanReg (p o k : Nat) (t : Itag) (v : Word) (s : State) : State :=
  if p = 1 ∧ 0x100 ≤ o ∧ o < 0x240 then
    let c := (o - 0x100) / 0x20
    let w := (o - 0x100) % 0x20
    if w = 0 then effCanCfg c t v s
    else if w = 4 ∨ w = 8 then effBitTiming c (w == 8) t v s
    else s.writeGeneric k t v
  else if p = 2 ∧ 0x104 ≤ o then s.mbWrite o t v
  else s.writeGeneric k t v

/-- LNK pages 1 and 2 (R695, R715). -/
def effLnkReg (p o k : Nat) (t : Itag) (v : Word) (s : State) : State :=
  if p = 1 ∧ (o = 0x100 ∨ o = 0x120) then effLnkCfg ((o - 0x100) / 0x20) t v s
  else if p = 1 ∧ o = 0x1C0 then (lnkSpares (fieldOf v 8 8)).subcmd (s.setFlag k 8 (flagOf v 8)) v
  else if p = 2 ∧ 0x100 ≤ o ∧ o < 0x200 ∧ (o - 0x100) % 0x10 < 0x0C then
    effGroupWrite ((o - 0x100) / 0x10) ((o - 0x100) % 0x10 / 4) t v s
  else s.writeGeneric k t v

/-- USB page 1: a port that is disabled loses its link (log 75). -/
def effUsbReg (p o k : Nat) (t : Itag) (v : Word) (s : State) : State :=
  let s := s.writeGeneric k t v
  if p = 1 ∧ (o = 0x100 ∨ o = 0x110) ∧ s.flag k 0 = false then effLinkDown ((o - 0x100) / 0x10) s else s

/-- KVW pages 1–9 (R258, R280, R283, R295). -/
def effKvwReg (p o k : Nat) (t : Itag) (v : Word) (s : State) : State :=
  if p = 1 ∧ o = 0x100 then (s.writeGeneric k t v).showKvMode
  else if p = 1 ∧ o = 0x104 then (if flagOf v 0 then effKvFlush s else s)
  else if 2 ≤ p ∧ (o = 0x108 ∨ o = 0x11C ∨ o = 0x120 ∨ o = 0x124 ∨ o = 0x128) then s.kvPlaceWrite k t v
  else if 2 ≤ p ∧ o = 0x130 then effFinv (p - 2) v s
  else s.writeGeneric k t v

/-- AFU pages 1–3 (R443, R446, R458, R473). -/
def effAfuReg (p o k : Nat) (t : Itag) (v : Word) (s : State) : State :=
  if p = 1 ∧ 0x100 ≤ o ∧ o < 0x180 ∧ o % 8 = 0 then effStrCfg ((o - 0x100) / 8) t v s
  else if p = 2 ∧ 0x100 ≤ o ∧ o < 0x300 ∧ o % 16 = 0 then effSenCfg ((o - 0x100) / 16) t v s
  else if p = 2 ∧ 0x100 ≤ o ∧ o < 0x300 ∧ o % 16 = 4 then effSenPer ((o - 0x100) / 16) t v s
  else s.writeGeneric k t v

/-- CVU pages 1–3 (R509, R517, R523). -/
def effCvuReg (p o k : Nat) (t : Itag) (v : Word) (s : State) : State :=
  if p = 1 ∧ 0x100 ≤ o ∧ o < 0x300 ∧ o % 16 = 0 then effChCfg ((o - 0x100) / 16) t v s
  else if p = 2 ∧ 0x104 ≤ o ∧ o < 0x124 then effCtxData ((o - 0x104) / 4) t v s
  else if p = 3 ∧ o = 0x18C then cvuSpares.subcmd s v
  else s.writeGeneric k t v

/-- SEC pages 1–3 (R640, R641, R649). -/
def effSecReg (p o k : Nat) (t : Itag) (v : Word) (s : State) : State :=
  if p = 1 ∧ o = 0x104 then effBootCmd v s
  else if p = 1 ∧ o = 0x160 then effDbgCmd v s
  else if p = 3 ∧ o = 0x144 then effSvnCmd v t s
  else s.writeGeneric k t v

/-- The memories, the scheduler, the array, the planner and the rest: page-1 to page-8 registers with an effect of their
own (R203, R223, R229, R322, R359, R404, R442). -/
def effOtherReg (r p o k : Nat) (t : Itag) (v : Word) (s : State) : State :=
  if r < 8 then (if p = 4 ∧ o = 0x100 then (domeSpares r).subcmd s v else s.writeGeneric k t v)
  else if r = rPLATE then (if p = 1 ∧ 0x100 ≤ o ∧ o < 0x140 then effQuota ((o - 0x100) / 4) v t s else s.writeGeneric k t v)
  else if rHBM0 ≤ r ∧ r < rHBM0 + 6 then (if p = 1 ∧ o = 0x10C then effPcCmd (r - rHBM0) v s else s.writeGeneric k t v)
  else if r = rSCHED then
    if p = 4 ∧ 0x100 ≤ o ∧ o < 0x200 then effSemWrite ((o - 0x100) / 4) t v s
    else if p = 8 ∧ o = 0x110 then effCoelCmd v s
    else s.writeGeneric k t v
  else if r = rSOLV then (if p = 2 ∧ o = 0x180 then solvSpares.subcmd s v else s.writeGeneric k t v)
  else if r = rOCC then
    if p = 2 ∧ s.flag (kSTAT rOCC) 18 = true ∧ (regDef k).isSome = true then s.cfgErr rOCC t else s.writeGeneric k t v
  else if r = rFWL then (if p = 1 ∧ o = 0x114 then effFwlCmd v t s else s.writeGeneric k t v)
  else if r = rAGE then (if p = 1 ∧ o = 0x104 then effSlack t v s else s.writeGeneric k t v)
  else if r = rCSI then (if p = 1 then effCsiPort k t v s else if p = 2 then effCsiVc k t v s else s.writeGeneric k t v)
  else s.writeGeneric k t v

def effBlockReg (r p o k : Nat) (t : Itag) (v : Word) (s : State) : State :=
  if r = rKVW then effKvwReg p o k t v s
  else if r = rAFU then effAfuReg p o k t v s
  else if r = rDRIVE then effDriveReg p o k t v s
  else if r = rWATCH then effWatchReg p o k t v s
  else if r = rMERID then effMeridReg p o k t v s
  else if r = rCVU then effCvuReg p o k t v s
  else if r = rPWR then effPwrReg p o k t v s
  else if r = rSEC then effSecReg p o k t v s
  else if r = rUSB then effUsbReg p o k t v s
  else if r = rPCIE then effPcieReg p o k t v s
  else if r = rETH then effEthReg p o k t v s
  else if r = rCAN then effCanReg p o k t v s
  else if r = rLNK then effLnkReg p o k t v s
  else effOtherReg r p o k t v s

/-- The effect of a register write that has passed its checks. -/
def regEffect (s : State) (k : Nat) (t : Itag) (v : Word) : State :=
  let r := rkRegion k
  let p := rkPage k
  let o := rkOff k
  if p = 0 then effHeader r o k t v s
  else if hasQueues r && decide (11 ≤ p) then effQueueReg r p o k t v s
  else effBlockReg r p o k t v s

/-! ### Reads -/

/-- QSTAT0, QSTAT1 and the doorbells (R119). -/
def State.queueRead (s : State) (r p o k : Nat) : Word :=
  if p = 11 then
    if o = 0x014 ∨ o = 0x018 then
      let x := s.queue r (s.fld (rk r 11 0x010) 11 0)
      if queueMax r < s.fld (rk r 11 0x010) 11 0 then 0#32
      else if o = 0x014 then BitVec.ofNat 32 (x.head + 2 ^ 16 * x.tail)
      else BitVec.ofNat 32 (x.released + 2 ^ 16 * x.state.code + 2 ^ 19 * x.short)
    else s.rd k
  else
    let q := (p - 12) * 1024 + o / 4
    if q ≤ queueMax r then BitVec.ofNat 32 (s.queue r q).tail else 0#32

/-- Have all enabled sensor slots locked, so that the first plan cycle runs (R577, R580)? -/
def State.sensorsLocked (s : State) : Bool :=
  let on := (List.range 32).filter s.senOn
  !on.isEmpty && on.all (fun n => s.fld (kSEN n 2) 2 0 == 2)

/-- WATCH_SAFESTAT as it reads now: the Decide phase has given way to Quiesce 2 µs after the decision, and Re-lock to First
plan once the slots have locked (R577, R589). -/
def State.safestatNow (s : State) : Word :=
  let w := s.rd kSAFESTAT
  let ph := fieldOf w 6 3
  let ph := if ph = 1 ∧ s.watch.decision + 2000 ≤ s.now then 2 else if ph = 7 ∧ s.sensorsLocked = true then 8 else ph
  withField (withField w 6 3 ph) 11 8 (Nat.min 15 s.recentStarts.length)

/-- WATCH_NLSTAT (R558). -/
def State.nlstatNow (s : State) : Word :=
  BitVec.ofNat 32 ((if s.nlFull then 1 else 0) + s.log.input.length * 2 +
    (if s.log.last.any (fun e => e.2.isSome) then 256 else 0))

def State.watchRead (s : State) (p o k : Nat) : Option Word × State :=
  if p = 1 ∧ o = 0x100 then (some s.safestatNow, s)
  else if p = 5 ∧ o = 0x10C then (some s.nlstatNow, s)
  else if p = 5 ∧ 0x120 ≤ o ∧ o < 0x140 then
    let e := s.fld (rk rWATCH 5 0x110) 9 0
    s.readRecord e (Sparse.get (fun _ => none) s.log.ring e) ((o - 0x120) / 4)
  else if p = 5 ∧ 0x160 ≤ o ∧ o < 0x180 then
    let r := s.fld (rk rWATCH 5 0x140) 5 0
    s.readRecord (1024 + r) (s.lastSlot r) ((o - 0x160) / 4)
  else if p = 6 ∧ o = 0x110 then (some (BitVec.ofNat 32 s.rightsLeft), s)
  else (some (s.rd k), s)

/-- MERID_PHASE_LO reads the fraction and latches MERID_PHASE_HI (R83). -/
def State.meridRead (s : State) (p o k : Nat) : Option Word × State :=
  if p = 1 ∧ o = 0x010 then
    let ph := s.phase64
    (some (ph.setWidth 32), s.wr (rk rMERID 1 0x014) ((ph >>> 32).setWidth 32))
  else (some (s.rd k), s)

/-- PLATE_RGSTAT of the selected bank (R250). -/
def State.rgstat (s : State) : Word :=
  let b := s.fld (rk rPLATE 2 0x100) 8 0
  BitVec.ofNat 32 ((if s.rgIsDead b (s.rgSpare b) || decide (0 < s.rgTesting b) then 0 else 2 ^ s.rgSpare b) +
    (if 0 < s.rgTesting b then 2 ^ 17 else 0))

/-- What a device answers to a read that the host makes without PCIE_CFG_ACCESS is not stated. -/
def State.pcieRead (s : State) (p o k : Nat) : Option Word × State :=
  if s.link.rcMode then
    if p = 2 ∧ o = 0x104 then
      let (n, s) := s.draw
      let (w, s) := effPcieCfg false 0 (Config.freeWord n) s
      (some w, s)
    else if 8 ≤ p then
      let (n, s) := s.draw
      let (w, s) := s.rcAccess false false (s.rd64 (rk rPCIE 1 0x108) + 0x1000 * (p - 8) + o) 0 (Config.freeWord n)
      (some w, s)
    else (some (s.rd k), s)
  else if p = 2 ∨ 8 ≤ p then (some 0#32, s)
  else (some (s.rd k), s)

/-- What a register read answers; `none` is an error response (R720). -/
def regRead (s : State) (k : Nat) : Option Word × State :=
  let r := rkRegion k
  let p := rkPage k
  let o := rkOff k
  if p = 0 then
    let s := if o = 0x014 then s.showQuiesced r else s
    (some (s.rd k), s)
  else if hasQueues r && decide (11 ≤ p) then (some (s.queueRead r p o k), s)
  else if r = rWATCH then s.watchRead p o k
  else if r = rMERID then s.meridRead p o k
  else if r = rPCIE then s.pcieRead p o k
  else if r < 8 ∧ p = 3 ∧ o = 0x104 then
    (some (match (s.dome r).run with | some x => BitVec.ofNat 32 (x.cycles s.now) | none => s.rd k), s)
  else if r = rPLATE ∧ p = 2 ∧ o = 0x104 then (some s.rgstat, s)
  else if r = rTRANSIT ∧ p = 1 ∧ o = 0x10C then
    let s := s.dropDeadMoves
    (some (s.rd k), s)
  else if r = rSCHED then
    match s.schedRead p o with
    | (some w, s) => (some w, s)
    | (none, s) => (some (s.rd k), s)
  else if r = rSOLV then (some ((s.solvRead p o).getD (s.rd k)), s)
  else if r = rCVU ∧ p = 2 ∧ 0x104 ≤ o ∧ o < 0x124 then
    (some ((s.cvuCtx (s.fld (rk rCVU 2 0x100) 6 0)).w ((o - 0x104) / 4)), s)
  else if r = rPWR ∧ p = 2 ∧ 0x100 ≤ o ∧ o < 0x200 ∧ o % 8 = 4 then
    (some (withField (s.rd k) 22 3 (s.budget ((o - 0x104) / 8))), s)
  else if r = rAGE ∧ p = 2 ∧ o = 0x104 then (some s.monData, s)
  else if r = rCAN ∧ p = 2 ∧ 0x104 ≤ o then
    let (w, s) := s.mbRead o
    (some w, s)
  else if r = rETH ∧ p = 1 ∧ 0x100 ≤ o ∧ o < 0x1C0 ∧ ((o - 0x100) % 0x20 = 0x0C ∨ (o - 0x100) % 0x20 = 0x10) then
    (some (s.gclRead ((o - 0x100) / 0x20) ((o - 0x100) % 0x20)), s)
  else if r = rETH ∧ p = 2 ∧ 0x104 ≤ o ∧ o < 0x124 then (some (s.filterRead ((o - 0x104) / 4)), s)
  else (some (s.rd k), s)

/-! ### Accesses by initiators -/

/-- A register write of 32 bits. A TLP from PCIe may carry the injected error (R714). -/
def State.regWrite (s : State) (i : Initiator) (k : Nat) (v : Word) : State :=
  (s.aerInject i.itag).writeVia regEffect i k v

/-- A register read of 32 bits. -/
def State.regReadBy (s : State) (i : Initiator) (k : Nat) : State := (s.aerInject i.itag).readVia regRead i k

/-- The response of two halves: the data of both, and the status of the first that did not succeed. -/
def Response.join (a b : Response) : Response :=
  { status := if a.status = .ok then b.status else a.status, data := a.data ++ b.data }

/-- A register write of any width: 64 aligned bits are two accesses, the lower address first (R86). -/
def State.regWriteAny (s : State) (i : Initiator) (k bytes : Nat) (v : DWord) : State :=
  if regShapeOk k bytes = false then (s.aerInject i.itag).badShape i k true
  else if bytes = 4 then s.regWrite i k (v.setWidth 32)
  else
    let s := s.regWrite i k (v.setWidth 32)
    let a := s.resp
    let s := s.regWrite i (k + 4) ((v >>> 32).setWidth 32)
    { s with resp := a.join s.resp }

/-- A register read of any width. -/
def State.regReadAny (s : State) (i : Initiator) (k bytes : Nat) : State :=
  if regShapeOk k bytes = false then (s.aerInject i.itag).badShape i k false
  else if bytes = 4 then s.regReadBy i k
  else
    let s := s.regReadBy i k
    let a := s.resp
    let s := s.regReadBy i (k + 4)
    { s with resp := a.join s.resp }

end Sys2Proof.Machine
end

