-- ==== Sys2Proof/Machine/Complete.lean ====
section
/-! DEFINITION. Accesses to memory by initiators (R474, R479, R525, R566, R718), the completion of operations (R107, R115),
accesses that waited for a power domain (R88), and unfreezing (R99, R100, R537). -/

namespace Sys2Proof.Machine

/-! ### Memory accesses -/

/-- The first refusal among the addresses of a run. -/
def State.checkAll (s : State) (t : Itag) (write : Bool) : List Nat → (Verdict × Nat) × State
  | [] => ((.pass, 0), s)
  | a :: rest =>
    match s.checkSite t a (s.site a) write with
    | (.pass, s) => s.checkAll t write rest
    | (v, s) => ((v, a), s)

/-- Zero data of a refused read (R534). -/
def reqZeros : MemReq → List Byte
  | .read n => List.replicate n 0#8
  | .write _ => []

def reqBytes : MemReq → Nat
  | .read n => n
  | .write bs => bs.length

def reqWrite : MemReq → Bool
  | .read _ => false
  | .write _ => true

/-- Is the address in the active descriptor of a loop that is in RUN (R479)? -/
def State.runningDesc (s : State) (a : Nat) : Bool :=
  decide (0x00C0000000 ≤ a) && decide (a < 0x00C0200000) && decide (a % 0x8000 < 0x4000) &&
    s.loopState (a % 0x200000 / 0x8000) == 1

/-- The hand-off windows see what an initiator other than the OCC's SELECT writes to them (R474, R489). -/
def State.noteWindow (s : State) (t : Itag) (a n : Nat) : State :=
  if t ≠ 0x49#12 then s
  else if 0x00C0240000 ≤ a ∧ a < 0x00C0250000 then
    { s with drive := { s.drive with inRxp := Nat.max s.drive.inRxp (a + n - 0x00C0240000) } }
  else if 0x00C0250000 ≤ a ∧ a < 0x00C0260000 then
    { s with drive := { s.drive with inRxf := Nat.max s.drive.inRxf (a + n - 0x00C0250000) } }
  else s.noteHandOffWrite a n

/-- An access that has passed its checks and reached its target. -/
def State.memDo (s : State) (t : Itag) (a : Nat) : MemReq → State
  | .read n =>
    match s.txRead none a n with
    | (.ok bs, s) => s.respond .ok bs
    | (_, s) => s.respond .error (List.replicate n 0#8)
  | .write bs =>
    if s.runningDesc a then (s.cfgErr rDRIVE t).respond .ok
    else
      match s.txWrite none a bs with
      | (.ok _, s) => (s.noteWindow t a bs.length).respond .ok
      | (_, s) => s.respond .error

/-- A read or write of memory by an initiator: held while its ITAG is frozen, then the checks on the ITAG, on the 4 KiB
boundary and by the firewalls, then the power of the domains it reaches. A clock-gated or retained memory answers at once and
starts to wake. -/
def State.memAccess (s : State) (i : Initiator) (a : Nat) (q : MemReq) : State :=
  let t := i.itag
  let n := reqBytes q
  let s := s.aerInject t
  if s.frozen.contains t then
    ({ s with held := s.held ++ [Access.mk i (2 ^ 44 + a) (reqWrite q) 0#32] } : State).respond .held
  else
    match itagVerdict i with
    | .violation b bit => (s.offend t b bit a).respond .violation (reqZeros q)
    | _ =>
      if a / 4096 ≠ (a + n - 1) / 4096 then (s.offend t (siteBlock (s.site a)) 4 a).respond .violation (reqZeros q)
      else
        match s.checkAll t (reqWrite q) (checkPoints a n) with
        | ((.violation b bit, at_), s) => (s.offend t b bit at_).respond .violation (reqZeros q)
        | ((.mismatch, _), s) => s.respond .refused (reqZeros q)
        | ((.pass, _), s) =>
          let pds := (checkPoints a n).map (fun x => sitePd (s.site x))
          if pds.any s.pdDown then s.respond .error (reqZeros q)
          else (pds.foldl State.demandPd s).memDo t a q

/-- Any access of an initiator: register space obeys R86, the rest of the address space is memory. -/
def State.anyAccess (s : State) (i : Initiator) (a : Nat) (q : MemReq) : State :=
  match s.site a with
  | .regs k =>
    (match q with
     | .read n => s.regReadAny i k n
     | .write bs => s.regWriteAny i k bs.length (BitVec.ofNat 64 (leNat bs)))
  | _ => if reqBytes q = 0 then s.respond .ok else s.memAccess i a q

/-! ### Operations -/

/-- Engines let go of operations that a freeze or a stop has ended (R535). -/
def State.dropDead (s : State) (r : Nat) : State :=
  if r < 8 then s.dropDeadRun r
  else if r = rSOLV then (s.solvCut.solvDue).dropDeadSolve
  else if r = rOCC then s.dropDeadOcc
  else if r = rTRANSIT then s.dropDeadMoves
  else s

/-- What an engine still does as an operation finishes: its outcome is known and its time has come. -/
def State.completeOp (s : State) (r q : Nat) (o : Op) (st : Nat) : State :=
  if r < 8 then
    let mine := match (s.dome r).run with | some x => x.queue == q && x.index == o.index | none => false
    let s := if mine then s.completeRun r else s
    (match s.findOp r q o.index with
     | some o => s.finish r q o.index st o.result
     | none => s)
  else if r = rSOLV then
    if (match s.solv.run with | some x => x.queue == q && x.index == o.index | none => false) then s.solveComplete
    else s.finish r q o.index st o.result
  else if r = rOCC then s.occComplete q o
  else if r = rAFU then s.afuComplete q o
  else if r = rTRANSIT then (s.retireMove q o).finish r q o.index st o.result
  else s.finish r q o.index st o.result

/-- An operation finishes (R115). It has no effect on one that is still at work. -/
def effOpComplete (r q index : Nat) (s : State) : State :=
  let s := s.dropDead r
  match s.findOp r q index with
  | none => s
  | some o =>
    if o.status.isSome then s.flush r q
    else
      match o.outcome with
      | none => s
      | some st => if s.now < o.readyAt then s else s.completeOp r q o st

/-! ### Waking -/

/-- One access that waited takes effect (R88). It passed its checks when it was made. -/
def State.resumeAccess (s : State) (a : Access) : State :=
  if a.write then
    let s := regEffect s a.key a.ini.itag a.value
    { s with out := .completed a.ini.itag {} :: s.out }
  else
    match regRead s a.key with
    | (some w, s) => { s with out := .completed a.ini.itag { data := leBytes 4 w.toNat } :: s.out }
    | (none, s) => { s with out := .completed a.ini.itag { status := .error, data := leBytes 4 0 } :: s.out }

/-- A domain's exit completes, and the accesses that waited for it do, oldest first. -/
def effWakeDone (pd : Nat) (retErr : Bool) (s : State) : State :=
  let s := s.wakeDone pd retErr
  if s.pdState pd ≠ 0 then s
  else
    let mine := s.waiting.filter (fun a => s.keyPd a.key == pd)
    let s : State := { s with waiting := s.waiting.filter (fun a => s.keyPd a.key != pd) }
    mine.foldl State.resumeAccess s

/-! ### Unfreezing and doorbells -/

/-- 10 µs have passed since an unfreeze was armed (R100). -/
def effUnfreezeTimeout (r : Nat) (s : State) : State :=
  match Sparse.get (fun _ => none) s.armed r with
  | none => s
  | some a => if 10000 + a.time < s.now then s.cancelUnfreeze r a.by_ else s

/-- A released freeze takes effect once what passed has completed (R537). -/
def effUnfreeze (t : Itag) (s : State) : State :=
  if s.unfreezing.contains t && s.drained t then s.unfreeze t else s

/-- A due Ephemeris doorbell of a block takes effect (R66, R69, R104, R106). -/
def effDoorbellAction (r : Nat) (s : State) : State :=
  match s.takeDue (Action.isDoorbell r) with
  | none => s
  | some (d, s) =>
    match d.action with
    | .doorbell _ q n =>
      if s.dropsAt r then s.dropAction d.slot
      else (s.slotFired d.slot).ephDoorbell r q n (d.occ.setWidth 32)
    | _ => s

end Sys2Proof.Machine
end

