-- ==== Sys2Proof/Machine/Commands.lean ====
section
/-! DEFINITION. The commands that are register accesses, each over the one register write and read, and those that finish
what they began. A command that fixes a field of the register writes the rest of the word as given. -/

namespace Sys2Proof.Machine

/-- The word that an ARM, a doorbell or a command field spells. -/
def wordOf (n : Nat) : Word := BitVec.ofNat 32 n

/-! ### Plain accesses (R86–R90) -/

/-- R86, R90. -/
def execRegisterWrite (i : Initiator) (addr : BitVec 44) (bytes : Nat) (v : DWord) (s : State) : Outcome :=
  .next (match s.site addr.toNat with
    | .regs k => s.regWriteAny i k bytes v
    | _ => s.anyAccess i addr.toNat (.write (leBytes (Nat.min bytes 8) v.toNat)))
/-- R83, R86, R90, R119, R720. -/
def execRegisterRead (i : Initiator) (addr : BitVec 44) (bytes : Nat) (s : State) : Outcome :=
  .next (s.anyAccess i addr.toNat (.read bytes))
/-- R205, R474, R525, R566. -/
def execMemoryAccess (i : Initiator) (addr : BitVec 44) (req : MemReq) (s : State) : Outcome :=
  .next (s.anyAccess i addr.toNat req)

/-! ### The Meridian (R42, R52, R57–R63, R71) -/

def execMeridPeriodWrite (i : Initiator) (v : Word) (s : State) : Outcome := .next (s.regWrite i kPERIOD v)
def execLockcfgWrite (i : Initiator) (v : Word) (s : State) : Outcome := .next (s.regWrite i kLOCKCFG v)
def execSlotWordWrite (i : Initiator) (slot : BitVec 10) (w : SlotWord) (v : Word) (s : State) : Outcome :=
  .next (s.regWrite i (kSLOT slot.toNat (match w with | .phase => 0 | .rev => 1 | .act => 2)) v)
def execSlotArm (i : Initiator) (slot : BitVec 10) (v : Word) (s : State) : Outcome :=
  .next (s.regWrite i (kSLOT slot.toNat 3) (withFlag v 0 true))
def execSlotDisarm (i : Initiator) (slot : BitVec 10) (v : Word) (s : State) : Outcome :=
  .next (s.regWrite i (kSLOT slot.toNat 3) (withFlag v 0 false))
def execTrgCfgWrite (i : Initiator) (pin : BitVec 5) (v : Word) (s : State) : Outcome :=
  .next (s.regWrite i (kTRG pin.toNat 0) v)

/-! ### The page-0 header (R96, R99, R100, R103, R104, R537) -/

def execEinjWrite (i : Initiator) (region : BitVec 6) (v : Word) (s : State) : Outcome :=
  .next (s.regWrite i (kEINJ region.toNat) v)
def execQuiesceSet (i : Initiator) (region : BitVec 6) (v : Word) (s : State) : Outcome :=
  .next (s.regWrite i (kCTRL region.toNat) (withFlag v 0 true))
def execQuiesceClear (i : Initiator) (region : BitVec 6) (v : Word) (s : State) : Outcome :=
  .next (s.regWrite i (kCTRL region.toNat) (withFlag v 0 false))
def execUnfreezeArm (i : Initiator) (region : BitVec 6) (itag : Itag) (s : State) : Outcome :=
  .next (s.regWrite i (kFRZ region.toNat) (wordOf (2 ^ 12 + itag.toNat)))
def execUnfreezeRelease (i : Initiator) (region : BitVec 6) (itag : Itag) (s : State) : Outcome :=
  .next (s.regWrite i (kFRZ region.toNat) (wordOf (itag.toNat + 2 * 2 ^ 12)))
def execUnfreezeTimeout (region : BitVec 6) (s : State) : Outcome := .next (effUnfreezeTimeout region.toNat s)
def execUnfreezeEffect (itag : Itag) (s : State) : Outcome := .next (effUnfreeze itag s)

/-! ### Queues (R102–R109, R115) -/

def execDoorbellWrite (i : Initiator) (region : BitVec 6) (q : BitVec 12) (v : Word) (s : State) : Outcome :=
  .next (s.regWrite i (rk region.toNat (12 + q.toNat / 1024) (q.toNat % 1024 * 4)) v)
def execDoorbellAction (region : BitVec 6) (s : State) : Outcome := .next (effDoorbellAction region.toNat s)
def execQueueEnable (i : Initiator) (region : BitVec 6) (q : BitVec 12) (s : State) : Outcome :=
  .next (s.regWrite i (kQCMD region.toNat) (wordOf (2 ^ 12 + q.toNat)))
def execQueueDisable (i : Initiator) (region : BitVec 6) (q : BitVec 12) (s : State) : Outcome :=
  .next (s.regWrite i (kQCMD region.toNat) (wordOf (q.toNat + 2 * 2 ^ 12)))
def execQueueResume (i : Initiator) (region : BitVec 6) (q : BitVec 12) (newHead : BitVec 16) (s : State) : Outcome :=
  .next (s.regWrite i (kQCMD region.toNat) (wordOf (q.toNat + 3 * 2 ^ 12 + 2 ^ 16 * newHead.toNat)))
def execQcmdComplete (region : BitVec 6) (s : State) : Outcome := .next (s.qcmdDone region.toNat)
def execOperationComplete (region : BitVec 6) (q : BitVec 12) (index : BitVec 16) (s : State) : Outcome :=
  .next (effOpComplete region.toNat q.toNat index.toNat s)

/-! ### Memories, walkers and spares (R203, R223, R229, R258, R280, R283) -/

/-- The SUBCMD register of a region and its CMD field; `none` for a block that has none. -/
def subcmdOf (r : Nat) : Option (Nat × Nat × Nat) :=
  match spareSets r with
  | S :: _ => if S.kSub = 0 then none else some (S.kSub, S.subCmd)
  | [] => none

def execSubcmdTest (i : Initiator) (region : BitVec 6) (v : Word) (s : State) : Outcome :=
  match subcmdOf region.toNat with
  | some (k, hi, lo) => .next (s.regWrite i k (withField v hi lo 1))
  | none => .refused (.illFormed "SUBCMD_TEST")
def execSubcmdRetire (i : Initiator) (region : BitVec 6) (v : Word) (s : State) : Outcome :=
  match subcmdOf region.toNat with
  | some (k, hi, lo) => .next (s.regWrite i k (withField v hi lo 2))
  | none => .refused (.illFormed "SUBCMD_RETIRE")
def execQuotaWrite (i : Initiator) (tenant : BitVec 4) (v : Word) (s : State) : Outcome :=
  .next (s.regWrite i (rk rPLATE 1 (0x100 + 4 * tenant.toNat)) v)
def execPcRetireCmd (i : Initiator) (stack : BitVec 3) (v : Word) (s : State) : Outcome :=
  if 6 ≤ stack.toNat then .refused (.illFormed "PC_RETIRE_CMD")
  else .next (s.regWrite i (rk (rHBM0 + stack.toNat) 1 0x10C) (withField v 6 5 1))
def execFinderInvalidate (i : Initiator) (walker : BitVec 3) (v : Word) (s : State) : Outcome :=
  .next (s.regWrite i (kWK walker.toNat 0x130) (withFlag v 13 true))
def execKvFlush (i : Initiator) (v : Word) (s : State) : Outcome :=
  .next (s.regWrite i (rk rKVW 1 0x104) (withFlag v 0 true))
def execQaReqWrite (i : Initiator) (v : Word) (s : State) : Outcome := .next (s.regWrite i (rk rKVW 1 0x100) v)

/-! ### The scheduler (R36, R322, R324, R359) -/

def coelWord (entry : BitVec 10) (cmd : Nat) : Word := wordOf (entry.toNat + 2 ^ 12 * cmd)
def execCoelEvict (i : Initiator) (entry : BitVec 10) (s : State) : Outcome := .next (s.regWrite i (kCOEL 0x110) (coelWord entry 1))
def execCoelEvictHold (i : Initiator) (entry : BitVec 10) (s : State) : Outcome :=
  .next (s.regWrite i (kCOEL 0x110) (coelWord entry 2))
def execCoelRestore (i : Initiator) (entry : BitVec 10) (s : State) : Outcome := .next (s.regWrite i (kCOEL 0x110) (coelWord entry 3))
def execCoelRetry (i : Initiator) (entry : BitVec 10) (s : State) : Outcome := .next (s.regWrite i (kCOEL 0x110) (coelWord entry 4))
def execCoelDiscard (i : Initiator) (entry : BitVec 10) (s : State) : Outcome := .next (s.regWrite i (kCOEL 0x110) (coelWord entry 5))
def execSemAcquire (i : Initiator) (sem : BitVec 6) (job : BitVec 16) (s : State) : Outcome :=
  .next (s.regWrite i (kSEM sem.toNat) (wordOf (2 ^ 16 + job.toNat)))
def execSemRelease (i : Initiator) (sem : BitVec 6) (job : BitVec 16) (s : State) : Outcome :=
  .next (s.regWrite i (kSEM sem.toNat) (wordOf (job.toNat + 2 * 2 ^ 16)))
def execDepotModeWrite (i : Initiator) (v : Word) (s : State) : Outcome := .next (s.regWrite i (rk rWATCH 1 0x110) v)

/-! ### The Clock Drive and the check-value units (R479, R495, R498, R509, R517) -/

def loopWord (loop : BitVec 6) (cmd : Nat) : Word := wordOf (loop.toNat + cmd * 2 ^ 8)
def execLoopEnable (i : Initiator) (loop : BitVec 6) (s : State) : Outcome := .next (s.regWrite i kLCMD (loopWord loop 1))
def execLoopDisable (i : Initiator) (loop : BitVec 6) (s : State) : Outcome := .next (s.regWrite i kLCMD (loopWord loop 2))
def execLoopSwap (i : Initiator) (loop : BitVec 6) (s : State) : Outcome := .next (s.regWrite i kLCMD (loopWord loop 3))
def execLoopReset (i : Initiator) (loop : BitVec 6) (s : State) : Outcome := .next (s.regWrite i kLCMD (loopWord loop 4))
def execFly (i : Initiator) (v : Word) (s : State) : Outcome := .next (s.regWrite i (rk rDRIVE 1 0x110) (withFlag v 0 true))
def execLogbookModeWrite (i : Initiator) (ch : BitVec 3) (v : Word) (s : State) : Outcome := .next (s.regWrite i (kLB ch.toNat 0) v)
def execCvuContextWrite (i : Initiator) (word : BitVec 3) (v : Word) (s : State) : Outcome :=
  .next (s.regWrite i (rk rCVU 2 (0x104 + 4 * word.toNat)) v)
def execCvuChannelCfgWrite (i : Initiator) (ch : BitVec 5) (v : Word) (s : State) : Outcome := .next (s.regWrite i (kCH ch.toNat 0) v)

/-! ### The Night Watch (R555, R558, R567, R573, R574, R576, R590, R721) -/

def execNlrdWrite (i : Initiator) (v : Word) (s : State) : Outcome := .next (s.regWrite i kNLRD v)
def execTrgrantWrite (i : Initiator) (hi : Bool) (v : Word) (s : State) : Outcome :=
  .next (s.regWrite i (if hi then kTRGRANT + 4 else kTRGRANT) v)
def execFwlCommit (i : Initiator) (s : State) : Outcome := .next (s.regWrite i (rk rFWL 1 0x114) (wordOf 2))
def execFwlRead (i : Initiator) (s : State) : Outcome := .next (s.regWrite i (rk rFWL 1 0x114) (wordOf 1))
def execHeartbeatWrite (i : Initiator) (v : Word) (s : State) : Outcome := .next (s.regWrite i (rk rWATCH 4 0x100) v)
def kSSCMD : Nat := rk rWATCH 1 0x108
def execSscmdDegrade (i : Initiator) (s : State) : Outcome := .next (s.regWrite i kSSCMD (wordOf 1))
def execSscmdRestart (i : Initiator) (s : State) : Outcome := .next (s.regWrite i kSSCMD (wordOf 2))
def execSscmdHalt (i : Initiator) (s : State) : Outcome := .next (s.regWrite i kSSCMD (wordOf 3))
def execSscmdReady (i : Initiator) (s : State) : Outcome := .next (s.regWrite i kSSCMD (wordOf 4))
def execSscmdClear (i : Initiator) (s : State) : Outcome := .next (s.regWrite i kSSCMD (wordOf 5))

/-! ### Power, boot and security (R595, R597, R601, R640, R641, R649) -/

def execDomainWakeDone (pd : BitVec 5) (retErr : Bool) (s : State) : Outcome := .next (effWakeDone pd.toNat retErr s)
def execPdcmdWake (i : Initiator) (pd : BitVec 5) (s : State) : Outcome := .next (s.regWrite i kPDCMD (wordOf (pd.toNat + 2 ^ 5)))
def execSleep (i : Initiator) (s : State) : Outcome := .next (s.regWrite i (rk rPWR 1 0x120) (wordOf 1))
def execWake (i : Initiator) (s : State) : Outcome := .next (s.regWrite i (rk rPWR 1 0x120) (wordOf 2))
def execBootDone (i : Initiator) (s : State) : Outcome := .next (s.regWrite i (rk rSEC 1 0x104) (wordOf 1))
def execSvnCommit (i : Initiator) (ctr : BitVec 4) (s : State) : Outcome := .next (s.regWrite i kSVNCMD (wordOf ctr.toNat))
/-- The token has been placed in SEC's token buffer before the write. -/
def execDebugAccept (i : Initiator) (token : List Byte) (s : State) : Outcome :=
  .next ((s.setBoot { s.boot with tokenBuf := token }).regWrite i (rk rSEC 1 0x160) (wordOf 1))

/-! ### Interfaces and links (R663, R666–R668, R687, R695) -/

/-- INDEX keeps its value. -/
def execGclSwap (i : Initiator) (mac : BitVec 3) (s : State) : Outcome :=
  if 6 ≤ mac.toNat then .refused (.illFormed "GCL_SWAP")
  else .next (s.regWrite i (kMAC mac.toNat 0x08) (wordOf (s.fld (kMAC mac.toNat 0x08) 7 0 + 2 ^ 8)))
/-- TXREQ of the mailbox that CAN_MBSEL selects. -/
def execCanTxreq (i : Initiator) (v : Word) (s : State) : Outcome := .next (s.regWrite i (rk rCAN 2 0x104) (withFlag v 31 true))
def execCanBitTimingWrite (i : Initiator) (ch : BitVec 4) (isData : Bool) (v : Word) (s : State) : Outcome :=
  if 10 ≤ ch.toNat then .refused (.illFormed "CAN_BIT_TIMING_WRITE")
  else .next (s.regWrite i (kCAN ch.toNat (if isData then 8 else 4)) v)

/-- A write, or a read that the device answers with `v`. -/
def execPcieCfgAccess (i : Initiator) (write : Bool) (v : Word) (s : State) : Outcome :=
  .next (if write then s.regWrite i (rk rPCIE 2 0x104) v
    else (s.aerInject i.itag).readVia (fun s _ => let (w, s) := effPcieCfg false i.itag v s; (some w, s)) i (rk rPCIE 2 0x104))
def execGroupWrite (i : Initiator) (group : BitVec 4) (word : BitVec 2) (v : Word) (s : State) : Outcome :=
  .next (s.regWrite i (kGRP group.toNat word.toNat) v)

end Sys2Proof.Machine
end

