-- ==== Sys2Proof/Machine/Dispatch.lean ====
section
/-! DEFINITION. The dispatcher: one arm per command, each one direct call of its meaning. -/

namespace Sys2Proof.Machine

def exec (i : Instr) (s : State) : Host.Outcome State Fault Refusal :=
  match i with
  | .registerWrite ini addr bytes v => Sys2Proof.Machine.execRegisterWrite ini addr bytes v s
  | .phaseAdvance ns => Sys2Proof.Machine.execPhaseAdvance ns s
  | .meridPeriodWrite ini v => Sys2Proof.Machine.execMeridPeriodWrite ini v s
  | .lockcfgWrite ini v => Sys2Proof.Machine.execLockcfgWrite ini v s
  | .referenceEvent src => Sys2Proof.Machine.execReferenceEvent src s
  | .referenceTimeout => Sys2Proof.Machine.execReferenceTimeout s
  | .holdoverExpiry => Sys2Proof.Machine.execHoldoverExpiry s
  | .slotWordWrite ini slot w v => Sys2Proof.Machine.execSlotWordWrite ini slot w v s
  | .slotArm ini slot v => Sys2Proof.Machine.execSlotArm ini slot v s
  | .slotDisarm ini slot v => Sys2Proof.Machine.execSlotDisarm ini slot v s
  | .occurrenceDispatch slot => Sys2Proof.Machine.execOccurrenceDispatch slot s
  | .triggerAction pin => Sys2Proof.Machine.execTriggerAction pin s
  | .pulseEnd pin => Sys2Proof.Machine.execPulseEnd pin s
  | .vernierBroadcast off intact => Sys2Proof.Machine.execVernierBroadcast off intact s
  | .trgCfgWrite ini pin v => Sys2Proof.Machine.execTrgCfgWrite ini pin v s
  | .encoderTransition enc fwd both => Sys2Proof.Machine.execEncoderTransition enc fwd both s
  | .encoderIndex enc => Sys2Proof.Machine.execEncoderIndex enc s
  | .ssiSample enc data parity => Sys2Proof.Machine.execSsiSample enc data parity s
  | .einjWrite ini region v => Sys2Proof.Machine.execEinjWrite ini region v s
  | .quiesceSet ini region v => Sys2Proof.Machine.execQuiesceSet ini region v s
  | .quiesceClear ini region v => Sys2Proof.Machine.execQuiesceClear ini region v s
  | .unfreezeArm ini region itag => Sys2Proof.Machine.execUnfreezeArm ini region itag s
  | .unfreezeRelease ini region itag => Sys2Proof.Machine.execUnfreezeRelease ini region itag s
  | .unfreezeTimeout region => Sys2Proof.Machine.execUnfreezeTimeout region s
  | .unfreezeEffect itag => Sys2Proof.Machine.execUnfreezeEffect itag s
  | .doorbellWrite ini region q v => Sys2Proof.Machine.execDoorbellWrite ini region q v s
  | .doorbellAction region => Sys2Proof.Machine.execDoorbellAction region s
  | .queueEnable ini region q => Sys2Proof.Machine.execQueueEnable ini region q s
  | .queueDisable ini region q => Sys2Proof.Machine.execQueueDisable ini region q s
  | .queueResume ini region q newHead => Sys2Proof.Machine.execQueueResume ini region q newHead s
  | .qcmdComplete region => Sys2Proof.Machine.execQcmdComplete region s
  | .operationComplete region q index => Sys2Proof.Machine.execOperationComplete region q index s
  | .depotModeWrite ini v => Sys2Proof.Machine.execDepotModeWrite ini v s
  | .domeLoad dome q => Sys2Proof.Machine.execDomeLoad dome q s
  | .domeRun dome q => Sys2Proof.Machine.execDomeRun dome q s
  | .domeNop dome q => Sys2Proof.Machine.execDomeNop dome q s
  | .entryIssue dome lstage port => Sys2Proof.Machine.execEntryIssue dome lstage port s
  | .gatherSlotFree dome => Sys2Proof.Machine.execGatherSlotFree dome s
  | .runWcetExpiry dome => Sys2Proof.Machine.execRunWcetExpiry dome s
  | .stageFault dome lstage cause => Sys2Proof.Machine.execStageFault dome lstage cause s
  | .spareTakeover region unit => Sys2Proof.Machine.execSpareTakeover region unit s
  | .testSliceEnd region unit pass banks => Sys2Proof.Machine.execTestSliceEnd region unit pass banks s
  | .windowOpen region => Sys2Proof.Machine.execWindowOpen region s
  | .windowClose region => Sys2Proof.Machine.execWindowClose region s
  | .subcmdTest ini region v => Sys2Proof.Machine.execSubcmdTest ini region v s
  | .subcmdRetire ini region v => Sys2Proof.Machine.execSubcmdRetire ini region v s
  | .quotaWrite ini tenant v => Sys2Proof.Machine.execQuotaWrite ini tenant v s
  | .transitMove q => Sys2Proof.Machine.execTransitMove q s
  | .transitNop q => Sys2Proof.Machine.execTransitNop q s
  | .alloc q => Sys2Proof.Machine.execAlloc q s
  | .free q => Sys2Proof.Machine.execFree q s
  | .allocResume => Sys2Proof.Machine.execAllocResume s
  | .poolReleaseResume => Sys2Proof.Machine.execPoolReleaseResume s
  | .readaroundTimeout pc => Sys2Proof.Machine.execReadaroundTimeout pc s
  | .reread q => Sys2Proof.Machine.execReread q s
  | .pcCeThreshold pc count => Sys2Proof.Machine.execPcCeThreshold pc count s
  | .pcSuspectExpiry pc => Sys2Proof.Machine.execPcSuspectExpiry pc s
  | .pcRetireCmd ini stack v => Sys2Proof.Machine.execPcRetireCmd ini stack v s
  | .finderInvalidate ini walker v => Sys2Proof.Machine.execFinderInvalidate ini walker v s
  | .finderInvalidateDone walker => Sys2Proof.Machine.execFinderInvalidateDone walker s
  | .kvFlush ini v => Sys2Proof.Machine.execKvFlush ini v s
  | .qaReqWrite ini v => Sys2Proof.Machine.execQaReqWrite ini v s
  | .coelServe => Sys2Proof.Machine.execCoelServe s
  | .coelResume => Sys2Proof.Machine.execCoelResume s
  | .swapoutComplete => Sys2Proof.Machine.execSwapoutComplete s
  | .swapinComplete => Sys2Proof.Machine.execSwapinComplete s
  | .coelEvict ini entry => Sys2Proof.Machine.execCoelEvict ini entry s
  | .coelEvictHold ini entry => Sys2Proof.Machine.execCoelEvictHold ini entry s
  | .coelRestore ini entry => Sys2Proof.Machine.execCoelRestore ini entry s
  | .coelRetry ini entry => Sys2Proof.Machine.execCoelRetry ini entry s
  | .coelDiscard ini entry => Sys2Proof.Machine.execCoelDiscard ini entry s
  | .admitJob => Sys2Proof.Machine.execAdmitJob s
  | .retire => Sys2Proof.Machine.execRetire s
  | .schedNop q => Sys2Proof.Machine.execSchedNop q s
  | .join => Sys2Proof.Machine.execJoin s
  | .leave => Sys2Proof.Machine.execLeave s
  | .step sq => Sys2Proof.Machine.execStep sq s
  | .stepOpen => Sys2Proof.Machine.execStepOpen s
  | .stepRelease => Sys2Proof.Machine.execStepRelease s
  | .stepClose sq => Sys2Proof.Machine.execStepClose sq s
  | .stepWcetExpiry sq => Sys2Proof.Machine.execStepWcetExpiry sq s
  | .preemptRequest sq => Sys2Proof.Machine.execPreemptRequest sq s
  | .preemptPoint sq => Sys2Proof.Machine.execPreemptPoint sq s
  | .saveComplete sq dome live => Sys2Proof.Machine.execSaveComplete sq dome live s
  | .restoreStart sq => Sys2Proof.Machine.execRestoreStart sq s
  | .restoreComplete sq dome => Sys2Proof.Machine.execRestoreComplete sq dome s
  | .semAcquire ini sem job => Sys2Proof.Machine.execSemAcquire ini sem job s
  | .semRelease ini sem job => Sys2Proof.Machine.execSemRelease ini sem job s
  | .semOverrun sem => Sys2Proof.Machine.execSemOverrun sem s
  | .solvLoad q => Sys2Proof.Machine.execSolvLoad q s
  | .solvFree q => Sys2Proof.Machine.execSolvFree q s
  | .solvNop q => Sys2Proof.Machine.execSolvNop q s
  | .solve q => Sys2Proof.Machine.execSolve q s
  | .solveRefReady q => Sys2Proof.Machine.execSolveRefReady q s
  | .solveDeadline => Sys2Proof.Machine.execSolveDeadline s
  | .solveWcetExpiry => Sys2Proof.Machine.execSolveWcetExpiry s
  | .laneFault lane => Sys2Proof.Machine.execLaneFault lane s
  | .occInstall q => Sys2Proof.Machine.execOccInstall q s
  | .occBody q => Sys2Proof.Machine.execOccBody q s
  | .occNop q => Sys2Proof.Machine.execOccNop q s
  | .check q => Sys2Proof.Machine.execCheck q s
  | .checkDeadline => Sys2Proof.Machine.execCheckDeadline s
  | .select q => Sys2Proof.Machine.execSelect q s
  | .seed q => Sys2Proof.Machine.execSeed q s
  | .occWcetExpiry => Sys2Proof.Machine.execOccWcetExpiry s
  | .handoffReport => Sys2Proof.Machine.execHandoffReport s
  | .sensorSample sensor ts => Sys2Proof.Machine.execSensorSample sensor ts s
  | .sensorRefEvent sensor ts => Sys2Proof.Machine.execSensorRefEvent sensor ts s
  | .sensorSilentTimeout sensor => Sys2Proof.Machine.execSensorSilentTimeout sensor s
  | .afuIssue stream => Sys2Proof.Machine.execAfuIssue stream s
  | .afuContrib q => Sys2Proof.Machine.execAfuContrib q s
  | .afuNop q => Sys2Proof.Machine.execAfuNop q s
  | .fusionDeadline => Sys2Proof.Machine.execFusionDeadline s
  | .egoPoseTick => Sys2Proof.Machine.execEgoPoseTick s
  | .egoUpdate source points eig => Sys2Proof.Machine.execEgoUpdate source points eig s
  | .egoLostTimeout => Sys2Proof.Machine.execEgoLostTimeout s
  | .l1Frame sensor => Sys2Proof.Machine.execL1Frame sensor s
  | .lidarInstantMove sensor => Sys2Proof.Machine.execLidarInstantMove sensor s
  | .sampleAction => Sys2Proof.Machine.execSampleAction s
  | .sampleExecute core => Sys2Proof.Machine.execSampleExecute core s
  | .driveCoreMismatch core => Sys2Proof.Machine.execDriveCoreMismatch core s
  | .loopEnable ini loop => Sys2Proof.Machine.execLoopEnable ini loop s
  | .loopDisable ini loop => Sys2Proof.Machine.execLoopDisable ini loop s
  | .loopSwap ini loop => Sys2Proof.Machine.execLoopSwap ini loop s
  | .loopReset ini loop => Sys2Proof.Machine.execLoopReset ini loop s
  | .handoffRecord => Sys2Proof.Machine.execHandoffRecord s
  | .handoffVerdict ch => Sys2Proof.Machine.execHandoffVerdict ch s
  | .switch => Sys2Proof.Machine.execSwitch s
  | .dump => Sys2Proof.Machine.execDump s
  | .driveNop q => Sys2Proof.Machine.execDriveNop q s
  | .handoffTimeout => Sys2Proof.Machine.execHandoffTimeout s
  | .fly ini v => Sys2Proof.Machine.execFly ini v s
  | .autoFly => Sys2Proof.Machine.execAutoFly s
  | .logbookModeWrite ini ch v => Sys2Proof.Machine.execLogbookModeWrite ini ch v s
  | .cvuFrameEnd ch ctx data ending => Sys2Proof.Machine.execCvuFrameEnd ch ctx data ending s
  | .cvuContextAdvance ch => Sys2Proof.Machine.execCvuContextAdvance ch s
  | .cvuContextWrite ini word v => Sys2Proof.Machine.execCvuContextWrite ini word v s
  | .cvuChannelCfgWrite ini ch v => Sys2Proof.Machine.execCvuChannelCfgWrite ini ch v s
  | .nightLogReport src code inj itag ecnt detail queue index => Sys2Proof.Machine.execNightLogReport src code inj itag ecnt detail queue index s
  | .nightLogWrite => Sys2Proof.Machine.execNightLogWrite s
  | .lastslotWrite => Sys2Proof.Machine.execLastslotWrite s
  | .nlrdWrite ini v => Sys2Proof.Machine.execNlrdWrite ini v s
  | .trgrantWrite ini hi v => Sys2Proof.Machine.execTrgrantWrite ini hi v s
  | .testRightsExpiry => Sys2Proof.Machine.execTestRightsExpiry s
  | .fwlCommit ini => Sys2Proof.Machine.execFwlCommit ini s
  | .fwlRead ini => Sys2Proof.Machine.execFwlRead ini s
  | .checkerVerdict => Sys2Proof.Machine.execCheckerVerdict s
  | .safeCause => Sys2Proof.Machine.execSafeCause s
  | .noplanTimeout => Sys2Proof.Machine.execNoplanTimeout s
  | .heartbeatWrite ini v => Sys2Proof.Machine.execHeartbeatWrite ini v s
  | .heartbeatTimeout => Sys2Proof.Machine.execHeartbeatTimeout s
  | .recovTimeout => Sys2Proof.Machine.execRecovTimeout s
  | .sscmdDegrade ini => Sys2Proof.Machine.execSscmdDegrade ini s
  | .sscmdRestart ini => Sys2Proof.Machine.execSscmdRestart ini s
  | .sscmdHalt ini => Sys2Proof.Machine.execSscmdHalt ini s
  | .sscmdReady ini => Sys2Proof.Machine.execSscmdReady ini s
  | .sscmdClear ini => Sys2Proof.Machine.execSscmdClear ini s
  | .restartQuiesce => Sys2Proof.Machine.execRestartQuiesce s
  | .restartHold => Sys2Proof.Machine.execRestartHold s
  | .restartRelease => Sys2Proof.Machine.execRestartRelease s
  | .restartImageCheck => Sys2Proof.Machine.execRestartImageCheck s
  | .pairMismatch pair => Sys2Proof.Machine.execPairMismatch pair s
  | .pairRestartDone pair => Sys2Proof.Machine.execPairRestartDone pair s
  | .nwAliveToggle => Sys2Proof.Machine.execNwAliveToggle s
  | .protIntervalStart k => Sys2Proof.Machine.execProtIntervalStart k s
  | .clkgateEntry pd => Sys2Proof.Machine.execClkgateEntry pd s
  | .retentionEntry pd => Sys2Proof.Machine.execRetentionEntry pd s
  | .offEntry pd => Sys2Proof.Machine.execOffEntry pd s
  | .domainWake pd => Sys2Proof.Machine.execDomainWake pd s
  | .domainWakeDone pd retErr => Sys2Proof.Machine.execDomainWakeDone pd retErr s
  | .prewake pd => Sys2Proof.Machine.execPrewake pd s
  | .pdcmdWake ini pd => Sys2Proof.Machine.execPdcmdWake ini pd s
  | .sleep ini => Sys2Proof.Machine.execSleep ini s
  | .wake ini => Sys2Proof.Machine.execWake ini s
  | .powerEstimate p => Sys2Proof.Machine.execPowerEstimate p s
  | .thermalSample temps => Sys2Proof.Machine.execThermalSample temps s
  | .supplyDip mv => Sys2Proof.Machine.execSupplyDip mv s
  | .supplyRecover mv => Sys2Proof.Machine.execSupplyRecover mv s
  | .brownout mv => Sys2Proof.Machine.execBrownout mv s
  | .memlost mv => Sys2Proof.Machine.execMemlost mv s
  | .brownoutRecover mv => Sys2Proof.Machine.execBrownoutRecover mv s
  | .standbyLoss => Sys2Proof.Machine.execStandbyLoss s
  | .ageRead readings => Sys2Proof.Machine.execAgeRead readings s
  | .bootRom pufDiff replayOk => Sys2Proof.Machine.execBootRom pufDiff replayOk s
  | .bootFirmware failed => Sys2Proof.Machine.execBootFirmware failed s
  | .bootRecords failed => Sys2Proof.Machine.execBootRecords failed s
  | .bootIsland failed => Sys2Proof.Machine.execBootIsland failed s
  | .bootMainPower => Sys2Proof.Machine.execBootMainPower s
  | .bootMemory => Sys2Proof.Machine.execBootMemory s
  | .bootImage failed => Sys2Proof.Machine.execBootImage failed s
  | .bootSelftest parts => Sys2Proof.Machine.execBootSelftest parts s
  | .bootCluster => Sys2Proof.Machine.execBootCluster s
  | .bootDone ini => Sys2Proof.Machine.execBootDone ini s
  | .svnCommit ini ctr => Sys2Proof.Machine.execSvnCommit ini ctr s
  | .quote q => Sys2Proof.Machine.execQuote q s
  | .extend q => Sys2Proof.Machine.execExtend q s
  | .secNop q => Sys2Proof.Machine.execSecNop q s
  | .debugAccept ini token => Sys2Proof.Machine.execDebugAccept ini token s
  | .recoveryFrame off data => Sys2Proof.Machine.execRecoveryFrame off data s
  | .recoveryDone => Sys2Proof.Machine.execRecoveryDone s
  | .csiFrameStart port vc fnum h1 h2 => Sys2Proof.Machine.execCsiFrameStart port vc fnum h1 h2 s
  | .csiLongPacket port vc dt h1 h2 crcOk data => Sys2Proof.Machine.execCsiLongPacket port vc dt h1 h2 crcOk data s
  | .csiFrameEnd port vc h1 h2 => Sys2Proof.Machine.execCsiFrameEnd port vc h1 h2 s
  | .ethRxFrame mac data fcsOk dur => Sys2Proof.Machine.execEthRxFrame mac data fcsOk dur s
  | .ethTxFrame mac offer => Sys2Proof.Machine.execEthTxFrame mac offer s
  | .gclSwap ini mac => Sys2Proof.Machine.execGclSwap ini mac s
  | .gclActivate mac => Sys2Proof.Machine.execGclActivate mac s
  | .ptpSync mac t1 => Sys2Proof.Machine.execPtpSync mac t1 s
  | .ptpPdelay mac ok t1 t2 t3 t4 => Sys2Proof.Machine.execPtpPdelay mac ok t1 t2 t3 t4 s
  | .ptpSyncTimeout => Sys2Proof.Machine.execPtpSyncTimeout s
  | .canTxreq ini v => Sys2Proof.Machine.execCanTxreq ini v s
  | .canTxFrame ch => Sys2Proof.Machine.execCanTxFrame ch s
  | .canTxEnd ch result => Sys2Proof.Machine.execCanTxEnd ch result s
  | .canRxFrame ch ext id data good => Sys2Proof.Machine.execCanRxFrame ch ext id data good s
  | .canBusoffRecover ch => Sys2Proof.Machine.execCanBusoffRecover ch s
  | .canLockstepMismatch ch => Sys2Proof.Machine.execCanLockstepMismatch ch s
  | .canBitTimingWrite ini ch isData v => Sys2Proof.Machine.execCanBitTimingWrite ini ch isData v s
  | .spiDataReady cs => Sys2Proof.Machine.execSpiDataReady cs s
  | .linkUp port gen4 width speed => Sys2Proof.Machine.execLinkUp port gen4 width speed s
  | .linkDown port => Sys2Proof.Machine.execLinkDown port s
  | .pcieCfgAccess ini write v => Sys2Proof.Machine.execPcieCfgAccess ini write v s
  | .allreduce q => Sys2Proof.Machine.execAllreduce q s
  | .bcast q => Sys2Proof.Machine.execBcast q s
  | .barrier q => Sys2Proof.Machine.execBarrier q s
  | .put q => Sys2Proof.Machine.execPut q s
  | .lnkNop q => Sys2Proof.Machine.execLnkNop q s
  | .peerPut link off data => Sys2Proof.Machine.execPeerPut link off data s
  | .collectiveTimeout q => Sys2Proof.Machine.execCollectiveTimeout q s
  | .abortMarker gid => Sys2Proof.Machine.execAbortMarker gid s
  | .flitUncorrectable link gid => Sys2Proof.Machine.execFlitUncorrectable link gid s
  | .laneCeThreshold link lane count => Sys2Proof.Machine.execLaneCeThreshold link lane count s
  | .creditReturn link q => Sys2Proof.Machine.execCreditReturn link q s
  | .groupWrite ini group word v => Sys2Proof.Machine.execGroupWrite ini group word v s
  | .memoryAccess ini addr req => Sys2Proof.Machine.execMemoryAccess ini addr req s
  | .registerRead ini addr bytes => Sys2Proof.Machine.execRegisterRead ini addr bytes s
  | .frameWindowExpiry sensor => Sys2Proof.Machine.execFrameWindowExpiry sensor s
  | .egoUpdateAgeTimeout => Sys2Proof.Machine.execEgoUpdateAgeTimeout s
  | .patrolScrub mem corrected bad => Sys2Proof.Machine.execPatrolScrub mem corrected bad s
  | .pmicFault => Sys2Proof.Machine.execPmicFault s
  | .hbmThermalAlert stack => Sys2Proof.Machine.execHbmThermalAlert stack s
  | .ethPhyLinkLoss mac => Sys2Proof.Machine.execEthPhyLinkLoss mac s
  | .cphyLinkLoss => Sys2Proof.Machine.execCphyLinkLoss s
  | .ptpSyncSend mac => Sys2Proof.Machine.execPtpSyncSend mac s
  | .fwlCommandDone => Sys2Proof.Machine.execFwlCommandDone s
  | .pairHeartbeatCheck => Sys2Proof.Machine.execPairHeartbeatCheck s
  | .lnkLinkUp link eight => Sys2Proof.Machine.execLnkLinkUp link eight s
  | .lnkLinkDown link => Sys2Proof.Machine.execLnkLinkDown link s
  | .collectiveFlitReceive link gid level rank off data => Sys2Proof.Machine.execCollectiveFlitReceive link gid level rank off data s

end Sys2Proof.Machine
end

