-- ==== Sys2Proof/Safety.lean ====
section
/-! DEFINITION. What a sound state is (every table of the state in its one canonical form, so that states that hold the
same contents are equal data), and when a register access passes every check, in the terms the statements use. -/

namespace Sys2Proof.Machine

/-- Memory in canonical form: keys strictly rising, and no byte listed that an unlisted key would read as. -/
abbrev Memory.wf (m : Sparse Byte) : Bool := Sparse.wf memReset m

/-- Registers in canonical form: no register is listed that holds its reset value. -/
abbrev Registers.wf (m : Sparse Word) : Bool := Sparse.wf regReset m

/-- Every table of the state is in canonical form. -/
def State.Canonical (s : State) : Prop :=
  Registers.wf s.regs = true ∧ Memory.wf s.mem = true ∧
  Sparse.wf (fun _ => ({} : Queue)) s.queues = true ∧ Sparse.wf (fun _ => (none : Option QCmd)) s.qcmds = true ∧
  Sparse.wf (fun _ => (none : Option ArmedUnfreeze)) s.armed = true ∧ Sparse.wf (fun _ => ({} : SpareSt)) s.spares = true ∧
  Sparse.wf (fun _ => 0) s.wins = true ∧ Sparse.wf bindHome s.bind = true ∧ Sparse.wf bindHome s.bootBind = true ∧
  Sparse.wf bindStDflt s.bindSt = true ∧ Sparse.wf (fun _ => ({} : Dome)) s.domes = true ∧
  Sparse.wf (fun _ => ({} : Walker)) s.walkers = true ∧ Sparse.wf (fun _ => (none : Option Nat)) s.spiUntil = true ∧
  Sparse.wf (fun _ => (none : Option Nat)) s.seeds = true

/-- A register access of initiator `i` passes the checks of its transaction: its ITAG is not frozen, is allocated, its own
and in service (R525, R536), the page exists, the region's firewall permits it (R566) and no check is being injected; the
register's domain is ACTIVE (R595). -/
structure State.Passes (s : State) (i : Initiator) (k : Nat) (write : Bool) : Prop where
  notFrozen : i.itag ∉ s.frozen
  itag : itagVerdict i = .pass
  region : rkRegion k < 40
  page : pageExists (rkRegion k) (rkPage k) = true
  allowed : s.fwPermits (rkRegion k) i.itag.toNat (regAddr k) write = true
  noFwInj : s.injArmed rFWL 0 = false ∧ s.injArmed rFWL 1 = false ∧ s.injArmed rFWL 2 = false
  noTlpInj : i.itag = 0x52#12 → s.injArmed rPCIE 0 = false
  domain : s.pdState (s.keyPd k) = 0

/-- A register write of `v` takes effect: it passes the checks, and its ITAG may write the register and every field that
the write changes (R90). -/
structure State.Reaches (s : State) (i : Initiator) (k : Nat) (v : Word) : Prop where
  passes : s.Passes i k true
  mayWrite : s.mayWrite k i.itag.toNat = true
  fields : s.changesOwned k i.itag.toNat v = false

/-- An access of initiator `i` to `n` bytes of memory from `a` on passes the checks of its transaction: its ITAG is not
frozen and passes R525, the bytes lie in one 4 KiB page outside register space, every firewall on the way permits them, no
check is being injected, and the domains of the memories are ACTIVE. -/
structure State.MemPasses (s : State) (i : Initiator) (a n : Nat) (write : Bool) : Prop where
  some : 0 < n
  notFrozen : i.itag ∉ s.frozen
  itag : itagVerdict i = .pass
  onePage : a / 4096 = (a + n - 1) / 4096
  memory : ∀ k, s.site a ≠ .regs k
  allowed : s.checkAll i.itag write (checkPoints a n) = ((.pass, 0), s)
  noTlpInj : i.itag = 0x52#12 → s.injArmed rPCIE 0 = false
  domains : ∀ x ∈ checkPoints a n, s.pdState (sitePd (s.site x)) = 0

/-- The registers in which an event of block `r` is recorded: BLK_ESTAT, BLK_EFIRST, the Night Watch's count of the
block's reports, and the counts of reports dropped. -/
def eventKeys (r : Nat) : List Nat :=
  [kESTAT r, kEFIRST r, rk rWATCH 7 (0x600 + 4 * r), rk rWATCH 5 0x108, rk rWATCH 7 (0x700 + 4 * r)]

/-- The registers in which BLK_ECNTk of block `r` counts. -/
def countKeys (r k : Nat) : List Nat := [kECNT r k, rk rWATCH 7 (0x100 + 0x20 * r + 4 * k)]

end Sys2Proof.Machine
end

