-- ==== Sys2Proof/WellFormed.lean ====
section
/-! DEFINITION. Which commands name an instance that the module has: a clock domain, MAC, CAN channel, HBM stack,
pseudo-channel or region of the spec's list. A command that does not is no event of this hardware; its meaning refuses it. -/

namespace Sys2Proof

/-- The regions that have a SUBCMD register: the Domes (R203), SOLV (R404), DRIVE, CVU and LNK. -/
def hasSubcmd (region : Nat) : Bool := decide (region < 8) || region == 23 || region == 26 || region == 29 || region == 39

/-- A byte that patrol scrubbing reaches: of pseudo-channel data of HBM stack 0–5, or of Vault memory (6) (R204, R224). -/
def scrubbed (mem : Nat) : Option (BitVec 44) → Bool
  | none => decide (mem ≤ 6)
  | some a =>
    if mem < 6 then decide (a.toNat / 2 ^ 30 < 32) && decide (a.toNat % 2 ^ 30 < 0x30000000)
    else mem == 6 && decide (a.toNat < 120 * 2 ^ 30)

/-- Does the command name instances that exist? -/
def Instr.wellFormed (i : Instr) : Bool :=
  match i with
  | .registerWrite _ _ _ _ => true
  | .phaseAdvance _ => true
  | .meridPeriodWrite _ _ => true
  | .lockcfgWrite _ _ => true
  | .referenceEvent _ => true
  | .referenceTimeout => true
  | .holdoverExpiry => true
  | .slotWordWrite _ _ _ _ => true
  | .slotArm _ _ _ => true
  | .slotDisarm _ _ _ => true
  | .occurrenceDispatch _ => true
  | .triggerAction _ => true
  | .pulseEnd _ => true
  | .vernierBroadcast _ _ => true
  | .trgCfgWrite _ _ _ => true
  | .encoderTransition _ _ _ => true
  | .encoderIndex _ => true
  | .ssiSample _ _ _ => true
  | .einjWrite _ _ _ => true
  | .quiesceSet _ _ _ => true
  | .quiesceClear _ _ _ => true
  | .unfreezeArm _ _ _ => true
  | .unfreezeRelease _ _ _ => true
  | .unfreezeTimeout _ => true
  | .unfreezeEffect _ => true
  | .doorbellWrite _ _ _ _ => true
  | .doorbellAction _ => true
  | .queueEnable _ _ _ => true
  | .queueDisable _ _ _ => true
  | .queueResume _ _ _ _ => true
  | .qcmdComplete _ => true
  | .operationComplete _ _ _ => true
  | .depotModeWrite _ _ => true
  | .domeLoad _ _ => true
  | .domeRun _ _ => true
  | .domeNop _ _ => true
  | .entryIssue _ _ _ => true
  | .gatherSlotFree _ => true
  | .runWcetExpiry _ => true
  | .stageFault _ _ _ => true
  | .spareTakeover _ _ => true
  | .testSliceEnd _ _ _ _ => true
  | .windowOpen _ => true
  | .windowClose _ => true
  | .subcmdTest _ region _ => hasSubcmd region.toNat
  | .subcmdRetire _ region _ => hasSubcmd region.toNat
  | .quotaWrite _ _ _ => true
  | .transitMove _ => true
  | .transitNop _ => true
  | .alloc _ => true
  | .free _ => true
  | .allocResume => true
  | .poolReleaseResume => true
  | .readaroundTimeout pc => decide (pc.toNat < 192)
  | .reread _ => true
  | .pcCeThreshold pc _ => decide (pc.toNat < 192)
  | .pcSuspectExpiry pc => decide (pc.toNat < 192)
  | .pcRetireCmd _ stack _ => decide (stack.toNat < 6)
  | .finderInvalidate _ _ _ => true
  | .finderInvalidateDone _ => true
  | .kvFlush _ _ => true
  | .qaReqWrite _ _ => true
  | .coelServe => true
  | .coelResume => true
  | .swapoutComplete => true
  | .swapinComplete => true
  | .coelEvict _ _ => true
  | .coelEvictHold _ _ => true
  | .coelRestore _ _ => true
  | .coelRetry _ _ => true
  | .coelDiscard _ _ => true
  | .admitJob => true
  | .retire => true
  | .schedNop _ => true
  | .join => true
  | .leave => true
  | .step _ => true
  | .stepOpen => true
  | .stepRelease => true
  | .stepClose _ => true
  | .stepWcetExpiry _ => true
  | .preemptRequest _ => true
  | .preemptPoint _ => true
  | .saveComplete _ _ _ => true
  | .restoreStart _ => true
  | .restoreComplete _ _ => true
  | .semAcquire _ _ _ => true
  | .semRelease _ _ _ => true
  | .semOverrun _ => true
  | .solvLoad _ => true
  | .solvFree _ => true
  | .solvNop _ => true
  | .solve _ => true
  | .solveRefReady _ => true
  | .solveDeadline => true
  | .solveWcetExpiry => true
  | .laneFault _ => true
  | .occInstall _ => true
  | .occBody _ => true
  | .occNop _ => true
  | .check _ => true
  | .checkDeadline => true
  | .select _ => true
  | .seed _ => true
  | .occWcetExpiry => true
  | .handoffReport => true
  | .sensorSample _ _ => true
  | .sensorRefEvent _ _ => true
  | .sensorSilentTimeout _ => true
  | .afuIssue _ => true
  | .afuContrib _ => true
  | .afuNop _ => true
  | .fusionDeadline => true
  | .egoPoseTick => true
  | .egoUpdate _ _ _ => true
  | .egoLostTimeout => true
  | .l1Frame _ => true
  | .lidarInstantMove _ => true
  | .sampleAction => true
  | .sampleExecute _ => true
  | .driveCoreMismatch _ => true
  | .loopEnable _ _ => true
  | .loopDisable _ _ => true
  | .loopSwap _ _ => true
  | .loopReset _ _ => true
  | .handoffRecord => true
  | .handoffVerdict _ => true
  | .switch => true
  | .dump => true
  | .driveNop _ => true
  | .handoffTimeout => true
  | .fly _ _ => true
  | .autoFly => true
  | .logbookModeWrite _ _ _ => true
  | .cvuFrameEnd _ _ _ ending => decide (ending.toNat < 3)
  | .cvuContextAdvance _ => true
  | .cvuContextWrite _ _ _ => true
  | .cvuChannelCfgWrite _ _ _ => true
  | .nightLogReport src _ _ _ _ _ _ _ => decide (src.toNat < 40)
  | .nightLogWrite => true
  | .lastslotWrite => true
  | .nlrdWrite _ _ => true
  | .trgrantWrite _ _ _ => true
  | .testRightsExpiry => true
  | .fwlCommit _ => true
  | .fwlRead _ => true
  | .checkerVerdict => true
  | .safeCause => true
  | .noplanTimeout => true
  | .heartbeatWrite _ _ => true
  | .heartbeatTimeout => true
  | .recovTimeout => true
  | .sscmdDegrade _ => true
  | .sscmdRestart _ => true
  | .sscmdHalt _ => true
  | .sscmdReady _ => true
  | .sscmdClear _ => true
  | .restartQuiesce => true
  | .restartHold => true
  | .restartRelease => true
  | .restartImageCheck => true
  | .pairMismatch _ => true
  | .pairRestartDone _ => true
  | .nwAliveToggle => true
  | .protIntervalStart _ => true
  | .clkgateEntry _ => true
  | .retentionEntry _ => true
  | .offEntry _ => true
  | .domainWake _ => true
  | .domainWakeDone _ _ => true
  | .prewake _ => true
  | .pdcmdWake _ _ => true
  | .sleep _ => true
  | .wake _ => true
  | .powerEstimate _ => true
  | .thermalSample _ => true
  | .supplyDip _ => true
  | .supplyRecover _ => true
  | .brownout _ => true
  | .memlost _ => true
  | .brownoutRecover _ => true
  | .standbyLoss => true
  | .ageRead _ => true
  | .bootRom _ _ => true
  | .bootFirmware _ => true
  | .bootRecords _ => true
  | .bootIsland _ => true
  | .bootMainPower => true
  | .bootMemory => true
  | .bootImage _ => true
  | .bootSelftest _ => true
  | .bootCluster => true
  | .bootDone _ => true
  | .svnCommit _ _ => true
  | .quote _ => true
  | .extend _ => true
  | .secNop _ => true
  | .debugAccept _ _ => true
  | .recoveryFrame _ _ => true
  | .recoveryDone => true
  | .csiFrameStart _ _ _ _ _ => true
  | .csiLongPacket _ _ _ _ _ _ _ => true
  | .csiFrameEnd _ _ _ _ => true
  | .ethRxFrame mac _ _ _ => decide (mac.toNat < 6)
  | .ethTxFrame mac _ => decide (mac.toNat < 6)
  | .gclSwap _ mac => decide (mac.toNat < 6)
  | .gclActivate mac => decide (mac.toNat < 6)
  | .ptpSync mac _ => decide (mac.toNat < 6)
  | .ptpPdelay mac _ _ _ _ _ => decide (mac.toNat < 6)
  | .ptpSyncTimeout => true
  | .canTxreq _ _ => true
  | .canTxFrame ch => decide (ch.toNat < 10)
  | .canTxEnd ch _ => decide (ch.toNat < 10)
  | .canRxFrame ch _ _ data _ => decide (ch.toNat < 10) && decide (data.length ≤ if ch.toNat < 8 then 64 else 2048)
  | .canBusoffRecover ch => decide (ch.toNat < 10)
  | .canLockstepMismatch _ => true
  | .canBitTimingWrite _ ch _ _ => decide (ch.toNat < 10)
  | .spiDataReady _ => true
  | .linkUp port _ _ speed => decide (port.toNat < 3) && decide (1 ≤ speed.toNat) && decide (speed.toNat ≤ 5)
  | .linkDown port => decide (port.toNat < 3)
  | .pcieCfgAccess _ _ _ => true
  | .allreduce _ => true
  | .bcast _ => true
  | .barrier _ => true
  | .put _ => true
  | .lnkNop _ => true
  | .peerPut _ _ _ => true
  | .collectiveTimeout _ => true
  | .abortMarker _ => true
  | .flitUncorrectable _ _ => true
  | .laneCeThreshold _ _ _ => true
  | .creditReturn _ _ => true
  | .groupWrite _ _ _ _ => true
  | .memoryAccess _ _ _ => true
  | .registerRead _ _ _ => true
  | .frameWindowExpiry _ => true
  | .egoUpdateAgeTimeout => true
  | .patrolScrub mem _ bad => scrubbed mem.toNat bad
  | .pmicFault => true
  | .hbmThermalAlert stack => decide (stack.toNat < 6)
  | .ethPhyLinkLoss mac => decide (mac.toNat < 6)
  | .cphyLinkLoss => true
  | .ptpSyncSend mac => decide (mac.toNat < 6)
  | .fwlCommandDone => true
  | .pairHeartbeatCheck => true
  | .lnkLinkUp _ _ => true
  | .lnkLinkDown _ => true
  | .collectiveFlitReceive _ _ _ _ _ _ => true

end Sys2Proof
end

