-- ==== Sys2Proof/Certificates/Slice0/Obligations.lean ====
section
/-! DEFINITION. What is to be proved of the model: statements of the spec's numbered rules, command by command, and of the
machine as a whole. A statement whose docstring names no rule, or a log entry, is the model's own. A hypothesis `Reaches`
says that a register write passes every check of its transaction. -/

open Sys2Proof Sys2Proof.Machine

/-- R74, R75: a quadrature input counts a valid transition, up or down by DIR, and changes nothing else; when both lines
change it counts no position, sets ERR.ILLEGAL and counts in BLK_ECNT6. (The input is not the selected reference, and no
transition error is being injected.) R76, R78: an index pulse of a quadrature input with index whose count since the last
one equals CPR stores the phase in the stamp registers and takes the present position as POS_index; it changes nothing
else. R77, R78: an SSI sample whose parity is right (or not checked) gives POS its data bits, decoded from Gray code where
CFG says so, and stamps the phase; a sample whose parity fails is discarded, sets ERR.PARITY and counts in BLK_ECNT6. -/
def Obligations.EncoderInputs : Prop :=
  (∀ (s : State) (enc : BitVec 2) (fwd both : Bool), s.Canonical →
     (s.fld (kENC enc.toNat 0) 1 0 = 1 ∨ s.fld (kENC enc.toNat 0) 1 0 = 2) → s.injArmed rMERID 0 = false →
     s.src ≠ enc.toNat + 1 →
     ∃ t, exec (.encoderTransition enc fwd both) s = .next t ∧ (∃ regs_, t = { s with regs := regs_ }) ∧
       (both = false →
         t.rd (kENC enc.toNat 8) =
           (if fwd = s.flag (kENC enc.toNat 0) 2 then s.rd (kENC enc.toNat 8) - 1#32 else s.rd (kENC enc.toNat 8) + 1#32) ∧
         ∀ k, k ≠ kENC enc.toNat 8 → t.rd k = s.rd k) ∧
       (both = true →
         t.flag (kENC enc.toNat 0x14) 0 = true ∧
         t.fld (kECNT rMERID 6) 15 0 = satAdd 0xFFFF (s.fld (kECNT rMERID 6) 15 0) 1 ∧
         ∀ k, k ∉ kENC enc.toNat 0x14 :: countKeys rMERID 6 → t.rd k = s.rd k)) ∧
  (∀ (s : State) (enc : BitVec 2), s.Canonical → s.fld (kENC enc.toNat 0) 1 0 = 2 →
     (enc.toNat ∈ s.merid.seenIndex →
       (s.rd (kENC enc.toNat 8) - Sparse.get (fun _ => 0#32) s.merid.posIndex enc.toNat).toInt.natAbs =
         (s.rd (kENC enc.toNat 4)).toNat) →
     ∃ t, exec (.encoderIndex enc) s = .next t ∧
       t.rd64 (kENC enc.toNat 0x0C) = s.phase64.toNat ∧
       t.merid.posIndex = Sparse.set (fun _ => 0#32) s.merid.posIndex enc.toNat (s.rd (kENC enc.toNat 8)) ∧
       enc.toNat ∈ t.merid.seenIndex ∧
       (∀ k, k ∉ [kENC enc.toNat 0x0C, kENC enc.toNat 0x0C + 4] → t.rd k = s.rd k) ∧
       ∃ regs_ pos_ seen_, t = { s with regs := regs_, merid := { s.merid with posIndex := pos_, seenIndex := seen_ } }) ∧
  (∀ (s : State) (enc : BitVec 2) (data : Word) (parity : Bool), s.Canonical → s.fld (kENC enc.toNat 0) 1 0 = 3 →
     s.src ≠ enc.toNat + 1 →
     ∃ t, exec (.ssiSample enc data parity) s = .next t ∧ (∃ regs_, t = { s with regs := regs_ }) ∧
       (s.flag (kENC enc.toNat 0) 15 = false →
         t.rd (kENC enc.toNat 8) = BitVec.ofNat 32
           (if s.flag (kENC enc.toNat 0) 14
             then grayNat (s.fld (kENC enc.toNat 0) 13 8) (data.toNat % 2 ^ s.fld (kENC enc.toNat 0) 13 8)
             else data.toNat % 2 ^ s.fld (kENC enc.toNat 0) 13 8) ∧
         t.rd64 (kENC enc.toNat 0x0C) = s.phase64.toNat ∧
         ∀ k, k ∉ [kENC enc.toNat 8, kENC enc.toNat 0x0C, kENC enc.toNat 0x0C + 4] → t.rd k = s.rd k) ∧
       (s.flag (kENC enc.toNat 0) 15 = true →
         ((List.range 32).foldl (fun a i => a + if bitOf (data.toNat % 2 ^ s.fld (kENC enc.toNat 0) 13 8) i then 1 else 0)
           (if parity then 1 else 0)) % 2 = 1 →
         t.flag (kENC enc.toNat 0x14) 2 = true ∧
         t.fld (kECNT rMERID 6) 15 0 = satAdd 0xFFFF (s.fld (kECNT rMERID 6) 15 0) 1 ∧
         ∀ k, k ∉ kENC enc.toNat 0x14 :: countKeys rMERID 6 → t.rd k = s.rd k))

/-- R38: each nanosecond the phase advances by MERID_INCR, modulo the 96 bits it is kept in; the timebase count advances
with it. Outside FREE, and in FREE once MERID_INCR has the value of MERID_PERIOD, nothing else changes but the AFU
vernier's log of the phase. R68: a broadcast that finds one vernier more than 1 ns away, every other aligned and every
domain's clock running, marks that domain: its MERID_VERN_ALIGN bit clears, its MERID_VERN_ERR bit sets and BLK_ECNT4
counts. -/
def Obligations.PhaseAndVerniers : Prop :=
  (∀ (s : State) (ns : Nat), (s.lock ≠ lkFREE ∨ s.incr = s.nominalIncr) →
     ∃ log_, exec (.phaseAdvance ns) s = .next
       { s with now := s.now + ns, phase := s.phase + BitVec.ofNat 96 (s.incr * ns), afu := { s.afu with phaseLog := log_ } }) ∧
  (∀ (s : State) (cd : Nat), s.Canonical → 1 ≤ cd → cd ≤ 27 → s.merid.lastBroadcast = none → s.merid.misaligned = 0 →
     s.injArmed rMERID 2 = false →
     (∀ i, 1 ≤ i → i ≤ 27 → s.cdDown i = false ∧ s.flag kVALIGN i = true) →
     exec (.vernierBroadcast (BitVec.ofNat 28 (2 ^ cd)) (BitVec.allOnes 28)) s = .next
       ((({ s with merid := { s.merid with lastBroadcast := some s.now, misaligned := BitVec.ofNat 28 (2 ^ cd) } }.setFlag
         kVALIGN cd false).setFlag kVERR cd true).count rMERID 4))

/-- R45, R49–R51, R574: the moves of the lock state. A valid synchronisation of the selected MAC in FREE, HOLDOVER or
UNLOCKED gives ACQUIRE and shows the phase error; a LOCKED Meridian whose encoder reference stays away 1.5 times its
interval goes to HOLDOVER, and after MERID_HOLDMAX ms there to UNLOCKED, which raises cause 9. The last two set LOCKLOSS.
R52: a permitted write that gives MERID_LOCKCFG.SRC the value 0 in a locked state makes the state FREE; one that gives it
another source keeps FREE, HOLDOVER and UNLOCKED, makes LOCKED HOLDOVER and ACQUIRE UNLOCKED. MERID_RATE is 0 after it
(R49). The phase and memory stay. -/
def Obligations.LockStates : Prop :=
  (∀ (s : State), s.Canonical →
     (∀ (m : BitVec 3) (t1 : DWord), s.injArmed rMERID 1 = false → s.src = 5 → s.fld kLOCKCFG 5 3 = m.toNat →
       s.merid.leftFree = false → (s.lock = lkFREE ∨ s.lock = lkHOLDOVER ∨ s.lock = lkUNLOCKED) →
       ∃ t, exec (.referenceEvent (.gptp m t1)) s = .next t ∧ t.lock = lkACQUIRE ∧ t.merid.lastRef = some s.now ∧
         t.rd kPERR = BitVec.ofInt 32 (signedOf 32 (2 ^ 32 + (s.ptpFraction t1).1 - s.phase64.toNat % 2 ^ 32)) ∧
         t.phase = s.phase ∧ t.mem = s.mem ∧ t.queues = s.queues) ∧
     (s.lock = lkLOCKED → 1 ≤ s.src → s.src ≤ 4 →
       3 * (if (s.rd kRATE).toNat = 0 then (s.rd kPERIOD).toNat else (s.rd kRATE).toNat) ≤
         2 * (s.now - s.merid.lastRef.getD s.merid.refSince) →
       ∃ t, exec .referenceTimeout s = .next t ∧ t.lock = lkHOLDOVER ∧ t.flag (kESTAT rMERID) 16 = true ∧
         t.watch = s.watch ∧ t.phase = s.phase ∧
         ∀ k, k ∉ kLOCKSTAT :: (countKeys rMERID 0 ++ eventKeys rMERID) → t.rd k = s.rd k) ∧
     (s.lock = lkHOLDOVER → 1000000 * s.fld kHOLDMAX 15 0 ≤ s.now - s.merid.stateSince →
       ∃ t, exec .holdoverExpiry s = .next t ∧ t.lock = lkUNLOCKED ∧ t.flag (kESTAT rMERID) 16 = true ∧
         t.watch = { s.watch with causes := s.watch.causes ++ [{ num := 9, island := true }] } ∧ t.phase = s.phase ∧
         ∀ k, k ∉ kLOCKSTAT :: (countKeys rMERID 0 ++ eventKeys rMERID) → t.rd k = s.rd k)) ∧
  (∀ (s : State) (i : Initiator) (v : Word), s.Canonical → s.Reaches i kLOCKCFG v → fieldOf v 2 0 ≤ 5 →
     s.src ≠ fieldOf v 2 0 →
     ∃ t, exec (.lockcfgWrite i v) s = .next t ∧ t.src = fieldOf v 2 0 ∧ t.rd kRATE = 0#32 ∧ t.phase = s.phase ∧ t.mem = s.mem ∧
       t.merid.lastRef = none ∧
       t.lock = (if fieldOf v 2 0 = 0 then lkFREE else if s.lock = lkLOCKED then lkHOLDOVER
         else if s.lock = lkACQUIRE then lkUNLOCKED else s.lock) ∧
       ∀ k, k ∉ kLOCKCFG :: kRATE :: kLOCKSTAT :: (countKeys rMERID 0 ++ eventKeys rMERID) → t.rd k = s.rd k)

/-- R60, R65, R66, R72: an armed one-shot slot is dispatched 320 ns before its match with the time of its effect; a
set-high trigger action of an enabled pin ends a pulse, sets the level and counts as the slot's occurrence; a pulse's end
returns the pin to the pulse's idle level. Nothing else changes. (Readings of the model: logs 19, 42.) -/
def Obligations.SlotsFire : Prop :=
  ∀ (s : State),
    (∀ (slot : BitVec 10) (p : DWord) (ns : Nat), (s.slotAux slot.toNat).next = some p → s.untilMatch p = some ns → ns ≤ 320 →
      s.slotArmed slot.toNat = true → s.slotRecurring slot.toNat = false → s.slotEcc slot.toNat = false →
      s.slotAction slot.toNat ≠ .none →
      ∃ afu_, exec (.occurrenceDispatch slot) s = .next
        { s with afu := afu_, merid := { s.merid with
            slots := Sparse.set (fun _ => {}) s.merid.slots slot.toNat { s.slotAux slot.toNat with next := none },
            flying := insertFlying
              ⟨slot.toNat, s.slotAction slot.toNat, s.now + ns + actionDelay (s.slotAction slot.toNat), p⟩ s.merid.flying } }) ∧
    (∀ (pin : BitVec 5) (d : Dispatched) (s' : State),
      s.takeDue (Action.isTrigger pin.toNat) = some (d, s') →
      d.action = .trigger pin.toNat 1 → s.flag (kTRG pin.toNat 0) 0 = true →
      exec (.triggerAction pin) s = .next
        ((((s'.trgConflict pin.toNat d.due).setLevel pin.toNat true).setPulse pin.toNat none).slotFired d.slot)) ∧
    (∀ (pin : BitVec 5) (e : Nat) (lvl : Bool), Sparse.get (fun _ => none) s.merid.pulse pin.toNat = some (e, lvl) → e ≤ s.now →
      exec (.pulseEnd pin) s = .next { s with merid := { s.merid with
        level := (if lvl then s.merid.level ||| BitVec.ofNat 32 (2 ^ pin.toNat)
          else s.merid.level &&& ~~~ BitVec.ofNat 32 (2 ^ pin.toNat)),
        pulse := Sparse.set (fun _ => none) s.merid.pulse pin.toNat none } })

/-- R42: a permitted write of MERID_PERIOD stores a value of 25,000,000–200,000,000 ns; any other value leaves the
register as it was and sets CFG_ERR with the writer's ITAG. -/
def Obligations.PeriodWrites : Prop :=
  ∀ (s : State) (i : Initiator) (v : Word), s.Canonical → s.Reaches i kPERIOD v →
    (25000000 ≤ v.toNat → v.toNat ≤ 200000000 →
      exec (.meridPeriodWrite i v) s = .next ((s.wr kPERIOD v).respond .ok)) ∧
    (v.toNat < 25000000 ∨ 200000000 < v.toNat →
      exec (.meridPeriodWrite i v) s = .next ((s.cfgErr rMERID i.itag).respond .ok) ∧
      (s.cfgErr rMERID i.itag).flag (kESTAT rMERID) 0 = true ∧
      ∀ k, k ∉ eventKeys rMERID → (s.cfgErr rMERID i.itag).rd k = s.rd k)

/-- R59: a permitted write to the PHASE, REV or ACT word of a slot stores the word while the slot is not armed; while it
is armed the write has no effect but CFG_ERR. (A slot that was DISABLED by an error counts the words rewritten, R80.) R57,
R61–R63: a write that sets ARM on a one-shot slot with an action its owner may take, whose match lies 320 ns away or more,
arms it: ARM 1, STATUS ARMED, LASTOCC 0, OWNER and MODE as written; nearer than that STATUS reads LATE, ARM 0, and
BLK_ECNT1 counts. A write that clears ARM of an ARMED or FIRED slot sets STATUS to IDLE and no occurrence is left. -/
def Obligations.SlotWrites : Prop :=
  (∀ (s : State) (i : Initiator) (slot : BitVec 10) (w : SlotWord) (v : Word) (j : Nat),
     (w = .phase → j = 0) → (w = .rev → j = 1) → (w = .act → j = 2) → s.Reaches i (kSLOT slot.toNat j) v →
     (s.slotArmed slot.toNat = false → s.slotStatus slot.toNat ≠ ssDISABLED →
       exec (.slotWordWrite i slot w v) s = .next ((s.wr (kSLOT slot.toNat j) v).respond .ok)) ∧
     (s.slotArmed slot.toNat = true →
       exec (.slotWordWrite i slot w v) s = .next ((s.cfgErr rMERID i.itag).respond .ok))) ∧
  (∀ (s : State) (i : Initiator) (slot : BitVec 10) (v : Word) (p : DWord),
     s.Canonical → s.slotEcc slot.toNat = false → flagOf v 1 = false →
     p = ((s.rd (kSLOT slot.toNat 1)).setWidth 64 <<< 32) ||| (s.rd (kSLOT slot.toNat 0)).setWidth 64 →
     (s.Reaches i (kSLOT slot.toNat 3) (withFlag v 0 true) → s.slotArmed slot.toNat = false →
       s.slotStatus slot.toNat ≠ ssDISABLED →
       (((s.setFld (kSLOT slot.toNat 3) 13 2 (fieldOf v 13 2)).setFlag (kSLOT slot.toNat 3) 1 false).armAllowed slot.toNat) = true →
       ((∃ ns, s.untilMatch p = some ns ∧ 320 ≤ ns) →
         ∃ t, exec (.slotArm i slot v) s = .next t ∧ t.slotArmed slot.toNat = true ∧ t.slotStatus slot.toNat = ssARMED ∧
           t.fld (kSLOT slot.toNat 3) 31 20 = 0 ∧ t.slotOwner slot.toNat = fieldOf v 13 2 ∧ t.slotRecurring slot.toNat = false ∧
           t.merid = { s.merid with slots := Sparse.set (fun _ => {}) s.merid.slots slot.toNat { next := some p } } ∧
           (∀ k, k ≠ kSLOT slot.toNat 3 → t.rd k = s.rd k) ∧ t.mem = s.mem) ∧
       ((∀ ns, s.untilMatch p = some ns → ns < 320) →
         ∃ t, exec (.slotArm i slot v) s = .next t ∧ t.slotArmed slot.toNat = false ∧ t.slotStatus slot.toNat = ssLATE ∧
           t.fld (kECNT rMERID 1) 15 0 = satAdd 0xFFFF (s.fld (kECNT rMERID 1) 15 0) 1 ∧ t.mem = s.mem ∧
           ∀ k, k ∉ kSLOT slot.toNat 3 :: (countKeys rMERID 1 ++ eventKeys rMERID) → t.rd k = s.rd k)) ∧
     (s.Reaches i (kSLOT slot.toNat 3) (withFlag v 0 false) →
       s.slotStatus slot.toNat = ssARMED ∨ s.slotStatus slot.toNat = ssFIRED →
       ∃ t, exec (.slotDisarm i slot v) s = .next t ∧ t.slotArmed slot.toNat = false ∧ t.slotStatus slot.toNat = ssIDLE ∧
         t.slotOwner slot.toNat = fieldOf v 13 2 ∧
         t.merid = { s.merid with
           slots := Sparse.set (fun _ => {}) s.merid.slots slot.toNat { s.slotAux slot.toNat with next := none } } ∧
         (∀ k, k ≠ kSLOT slot.toNat 3 → t.rd k = s.rd k) ∧ t.mem = s.mem))

/-- R71: a permitted write that sets EN of a trigger output puts the pin at the level IDLE; one that clears EN leaves it
undriven; one that keeps EN does not move the pin. -/
def Obligations.TriggerOutputs : Prop :=
  ∀ (s : State) (i : Initiator) (pin : BitVec 5) (v : Word), s.Canonical → s.Reaches i (kTRG pin.toNat 0) v →
    (flagOf v 0 = s.flag (kTRG pin.toNat 0) 0 →
      exec (.trgCfgWrite i pin v) s = .next ((s.writeGeneric (kTRG pin.toNat 0) i.itag v).respond .ok)) ∧
    (flagOf v 0 = true → s.flag (kTRG pin.toNat 0) 0 = false →
      exec (.trgCfgWrite i pin v) s = .next
        ((((s.writeGeneric (kTRG pin.toNat 0) i.itag v).setLevel pin.toNat (flagOf v 1)).setPulse pin.toNat none).respond .ok)) ∧
    (flagOf v 0 = false → s.flag (kTRG pin.toNat 0) 0 = true →
      exec (.trgCfgWrite i pin v) s = .next
        ((((s.writeGeneric (kTRG pin.toNat 0) i.itag v).setLevel pin.toNat false).setPulse pin.toNat none).respond .ok))

/-- R96: a permitted write of BLK_EINJ without test rights has no effect but CFG_ERR; with them it arms the injections it
names, and those that act at once act. R92, R91: a write of BLK_CTRL sets QUIESCE, and BLK_STAT.QUIESCED reads 1 once no
operation of the block is in flight; when QUIESCE returns to 0 the recorded work is released (R104). -/
def Obligations.HeaderWrites : Prop :=
  ∀ (s : State) (i : Initiator) (region : BitVec 6) (v : Word), s.Canonical →
    (s.Reaches i (kEINJ region.toNat) v → s.testRights region.toNat = false →
      exec (.einjWrite i region v) s = .next (((s.touch (regionPd region.toNat)).cfgErr region.toNat i.itag).respond .ok)) ∧
    (s.Reaches i (kEINJ region.toNat) v → s.testRights region.toNat = true →
      exec (.einjWrite i region v) s = .next
        ((((s.touch (regionPd region.toNat)).writeGeneric (kEINJ region.toNat) i.itag v).injectNow region.toNat i.itag).respond .ok)) ∧
    (s.Reaches i (kCTRL region.toNat) (withFlag v 0 true) →
      ∃ t, exec (.quiesceSet i region v) s = .next t ∧ t.quiesced region.toNat = true ∧
        t = (((s.touch (regionPd region.toNat)).writeGeneric (kCTRL region.toNat) i.itag (withFlag v 0 true)).showQuiesced
          region.toNat).respond .ok) ∧
    (s.Reaches i (kCTRL region.toNat) (withFlag v 0 false) → s.quiesced region.toNat = true →
      exec (.quiesceClear i region v) s = .next
        (((((s.touch (regionPd region.toNat)).writeGeneric (kCTRL region.toNat) i.itag (withFlag v 0 false)).unquiesce
          region.toNat).showQuiesced region.toNat).respond .ok)) ∧
    (s.Reaches i (kCTRL region.toNat) (withFlag v 0 false) → s.quiesced region.toNat = false →
      exec (.quiesceClear i region v) s = .next
        ((((s.touch (regionPd region.toNat)).writeGeneric (kCTRL region.toNat) i.itag (withFlag v 0 false)).showQuiesced
          region.toNat).respond .ok))

/-- R99, R100, R537: the two writes of an unfreeze. The first arms it for a frozen ITAG homed in the block; the second,
from the same initiator for the same ITAG within 10 µs, releases it; 10 µs without the second cancel it with CFG_ERR. Once
what passed has completed, the release takes effect: the ITAG is no longer frozen and its held requests end with errors.
-/
def Obligations.UnfreezeInTwoWrites : Prop :=
  ∀ (s : State) (i : Initiator) (region : BitVec 6) (itag : Itag) (a : ArmedUnfreeze),
    (s.Reaches i (kFRZ region.toNat) (wordOf (2 ^ 12 + itag.toNat)) →
      Sparse.get (fun _ => none) s.armed region.toNat = none → homeBlock itag.toNat = some region.toNat → itag ∈ s.frozen →
      exec (.unfreezeArm i region itag) s = .next
        ((({ s.touch (regionPd region.toNat) with
            armed := Sparse.set (fun _ => none) s.armed region.toNat (some ⟨i.itag, itag, s.now⟩) }).setFlag
          (kFRZ region.toNat) 15 true).respond .ok)) ∧
    (s.Reaches i (kFRZ region.toNat) (wordOf (itag.toNat + 2 * 2 ^ 12)) →
      Sparse.get (fun _ => none) s.armed region.toNat = some a → a.by_ = i.itag → a.named = itag → s.now ≤ 10000 + a.time →
      exec (.unfreezeRelease i region itag) s = .next
        ({ ({ s.touch (regionPd region.toNat) with armed := Sparse.set (fun _ => none) s.armed region.toNat none }).setFlag
            (kFRZ region.toNat) 15 false with unfreezing := itag :: s.unfreezing }.respond .ok)) ∧
    (Sparse.get (fun _ => none) s.armed region.toNat = some a → 10000 + a.time < s.now →
      exec (.unfreezeTimeout region) s = .next
        ((({ s with armed := Sparse.set (fun _ => none) s.armed region.toNat none }).setFlag (kFRZ region.toNat) 15 false).cfgErr
          region.toNat a.by_)) ∧
    (itag ∈ s.unfreezing → s.drained itag = true →
      ∃ t, exec (.unfreezeEffect itag) s = .next t ∧ t.frozen = s.frozen.filter (fun x => x != itag) ∧
        t.unfreezing = s.unfreezing.filter (fun x => x != itag) ∧ t.held = s.held.filter (fun h => h.ini.itag != itag) ∧
        t.out = List.replicate (s.held.filter (fun h => h.ini.itag == itag)).length (Out.errorResponse itag) ++ s.out ∧
        t.mem = s.mem ∧ t.now = s.now ∧
        (homeBlock itag.toNat = none → t.regs = s.regs))

/-- R103, R105: a permitted doorbell write of value v sets TAIL to v bits 15:0 and, on an ungated ACTIVE queue of a block
that is not quiesced, releases the work up to it; one past the ring, below RELEASED or on a DISABLED queue changes neither
TAIL nor RELEASED and sets CFG_ERR. R66, R69, R106: a due Ephemeris doorbell reaches its queue, or is dropped where its
block takes none. -/
def Obligations.Doorbells : Prop :=
  ∀ (s : State) (i : Initiator) (region : BitVec 6) (q : BitVec 12) (v : Word) (x : Queue) (n : Nat),
    (s.Reaches i (rk region.toNat (12 + q.toNat / 1024) (q.toNat % 1024 * 4)) v → hasQueues region.toNat = true →
      q.toNat ≤ queueMax region.toNat → x = s.queue region.toNat q.toNat → n = v.toNat % 65536 →
      (x.state ≠ .disabled → Machine.dist x.head n ≤ 2 ^ x.sizeLog2 → Machine.dist x.head x.released ≤ Machine.dist x.head n →
        (x.state = .active → x.gated = false → s.quiesced region.toNat = false →
          exec (.doorbellWrite i region q v) s = .next
            ((((s.touch (regionPd region.toNat)).setQueue region.toNat q.toNat { x with tail := n }).releaseTo
              region.toNat q.toNat n).respond .ok)) ∧
        (x.state ≠ .active ∨ x.gated = true ∨ s.quiesced region.toNat = true →
          exec (.doorbellWrite i region q v) s = .next
            (((s.touch (regionPd region.toNat)).setQueue region.toNat q.toNat { x with tail := n }).respond .ok))) ∧
      (x.state = .disabled ∨ 2 ^ x.sizeLog2 < Machine.dist x.head n ∨ Machine.dist x.head n < Machine.dist x.head x.released →
        exec (.doorbellWrite i region q v) s = .next
          (((s.touch (regionPd region.toNat)).cfgErr region.toNat i.itag).respond .ok))) ∧
    (∀ (d : Dispatched) (s' : State) (qq dbinc : Nat),
      s.takeDue (Action.isDoorbell region.toNat) = some (d, s') →
      d.action = .doorbell region.toNat qq dbinc →
      (s'.dropsAt region.toNat = false →
        exec (.doorbellAction region) s = .next
          ((s'.slotFired d.slot).ephDoorbell region.toNat qq dbinc (d.occ.setWidth 32))) ∧
      (s'.dropsAt region.toNat = true → exec (.doorbellAction region) s = .next (s'.dropAction d.slot)))

/-- R109: a QCMD command acts on its queue when it is written while none is in progress, and QCMD_STAT reads BUSY until
the command completes and reports its outcome. ENABLE takes the context over and starts an empty ACTIVE queue at index 0
(R102); DISABLE ends a STOPPED queue with HEAD and EXEC at RELEASED; RESUME of a STOPPED queue starts it at NEWHEAD
(R108). (Readings of the model: log 18.) -/
def Obligations.QueueCommands : Prop :=
  ∀ (s s₀ : State) (i : Initiator) (region : BitVec 6) (q : BitVec 12) (newHead : BitVec 16) (w : Word) (done : State → Nat → Nat → State),
    hasQueues region.toNat = true → q.toNat ≤ queueMax region.toNat → Sparse.get (fun _ => none) s.qcmds region.toNat = none →
    s₀ = (s.touch (regionPd region.toNat)).wr (kQCMD region.toNat) w → s.Reaches i (kQCMD region.toNat) w →
    done = (fun u cmd out => (({ u with
        qcmds := Sparse.set (fun _ => none) u.qcmds region.toNat (some ⟨q.toNat, cmd, out⟩) }).setFld
      (kQSTAT region.toNat) 2 0 1).respond .ok) →
    (w = wordOf (2 ^ 12 + q.toNat) → (s.queue region.toNat q.toNat).state = .disabled →
      ∀ (c : Context) (u : State), s₀.readContext region.toNat q.toNat = (some c, u) →
        exec (.queueEnable i region q) s = .next (done (u.setQueue region.toNat q.toNat
          { (u.queue region.toNat q.toNat).withContext c with
            state := .active, tail := 0, released := 0, exec := 0, head := 0, ops := [], failed := [] }) 1 0)) ∧
    (w = wordOf (q.toNat + 2 * 2 ^ 12) → (s.queue region.toNat q.toNat).state = .stopped →
      exec (.queueDisable i region q) s = .next (done (s₀.setQueue region.toNat q.toNat
        { s.queue region.toNat q.toNat with
          state := .disabled, head := (s.queue region.toNat q.toNat).released,
          exec := (s.queue region.toNat q.toNat).released, ops := [] }) 2 0)) ∧
    (w = wordOf (q.toNat + 3 * 2 ^ 12 + 2 ^ 16 * newHead.toNat) → (s.queue region.toNat q.toNat).state = .stopped →
      (Machine.dist (s.queue region.toNat q.toNat).head newHead.toNat ≤
          Machine.dist (s.queue region.toNat q.toNat).head (s.queue region.toNat q.toNat).tail →
        ∀ (c : Context) (u : State), s₀.readContext region.toNat q.toNat = (some c, u) →
          exec (.queueResume i region q newHead) s = .next (done (s₀.qResume region.toNat q.toNat newHead.toNat).2 3 0) ∧
          (s₀.qResume region.toNat q.toNat newHead.toNat).1 = 0) ∧
      (Machine.dist (s.queue region.toNat q.toNat).head (s.queue region.toNat q.toNat).tail <
          Machine.dist (s.queue region.toNat q.toNat).head newHead.toNat →
        exec (.queueResume i region q newHead) s = .next (done s₀ 3 3)))

/-- R109: when the command in progress completes, QCMD_STAT reports its outcome. R107, R115: an operation that has a
status as the only one of its queue gets its completion record and leaves the queue; one whose work is done finishes with
the outcome the engine gave it once its time has come. -/
def Obligations.QueuesComplete : Prop :=
  ∀ (s : State) (region : BitVec 6), s.Canonical →
    (∀ c, Sparse.get (fun _ => none) s.qcmds region.toNat = some c →
      exec (.qcmdComplete region) s = .next
        (({ s with qcmds := Sparse.set (fun _ => none) s.qcmds region.toNat none }).setFld (kQSTAT region.toNat) 2 0 c.outcome)) ∧
    (∀ (q : BitVec 12) (o : Op) (st : Nat), region.toNat ∈ [rSCHED, rDRIVE, rLNK, rSEC] →
      (s.queue region.toNat q.toNat).ops = [o] → o.index < 65536 →
      (o.status = some st → stops st = false →
        ((s.writeRecord region.toNat q.toNat o st).queue region.toNat q.toNat).state = .active →
        ∃ t, exec (.operationComplete region q (BitVec.ofNat 16 o.index)) s = .next t ∧
          t = ((s.writeRecord region.toNat q.toNat o st).setQueue region.toNat q.toNat
            { (s.writeRecord region.toNat q.toNat o st).queue region.toNat q.toNat with
              ops := [], head := idx (o.index + 1) })) ∧
      (o.status = none → o.outcome = some st → o.readyAt ≤ s.now →
        exec (.operationComplete region q (BitVec.ofNat 16 o.index)) s = .next
          (s.finish region.toNat q.toNat o.index st o.result)))

/-- R36, R361: a permitted write that changes depot mode takes it over and ends what depot mode allowed; one that keeps it
changes nothing else. -/
def Obligations.DepotMode : Prop :=
  ∀ (s : State) (i : Initiator) (v : Word), s.Canonical → s.Reaches i (rk rWATCH 1 0x110) v →
    (flagOf v 0 = s.flag (rk rWATCH 1 0x110) 0 →
      exec (.depotModeWrite i v) s = .next ((s.writeGeneric (rk rWATCH 1 0x110) i.itag v).respond .ok)) ∧
    (flagOf v 0 ≠ s.flag (rk rWATCH 1 0x110) 0 →
      exec (.depotModeWrite i v) s = .next (((s.writeGeneric (rk rWATCH 1 0x110) i.itag v).depotChanged).respond .ok))

/-- R173, R174: the LOAD at the front of the queue that the Dome takes next reads a well-formed map whose stages are in
service into its slot, shows it in TMSLOT and BLK_STAT, and finishes DONE 480 cycles later. R175, R177, R178: the RUN
there takes the schedule's entries and the map that its ID names, PLAN and WCET as given, from a free Dome, and is not
finished. -/
def Obligations.DomesTakeWork : Prop :=
  ∀ (s u : State) (dome : BitVec 3) (q : BitVec 6) (o : Op) (bs : List Byte),
    s.Canonical → s.nextOp dome.toNat q.toNat = some o → s.pick dome.toNat = some q.toNat →
    (o.opcode = 1 → (s.dome dome.toNat).usesSlot (o.fld 0x18 1 0) = false → o.addr 0x10 % 64 = 0 →
      (s.start dome.toNat q.toNat o).txRead (some (domeItag dome.toNat)) (o.addr 0x10) 2048
        (some (dome.toNat, q.toNat, o.index)) = (.ok bs, u) →
      TrainMap.formatOk (wordsOf bs) bs = true →
      (∀ l, l < 15 → TrainMap.used (wordsOf bs) l = true → (domeSpares dome.toNat).avail u l = true) →
      (∀ x ∈ TrainMap.contexts (wordsOf bs), (TrainMap.ent (wordsOf bs) x.1 x.2).isScan = true →
        (TrainMap.ent (wordsOf bs) x.1 x.2).scanLimit = true) →
      exec (.domeLoad dome q) s = .next
        ((((u.setDome dome.toNat { u.dome dome.toNat with
            maps := Sparse.set (fun _ => []) (u.dome dome.toNat).maps (o.fld 0x18 1 0) (wordsOf bs) }).wr
          (kTMSLOT dome.toNat (o.fld 0x18 1 0)) (BitVec.ofNat 32 (2 ^ 16 + TrainMap.id (wordsOf bs)))).setFlag
          (kSTAT dome.toNat) (18 + o.fld 0x18 1 0) true).conclude dome.toNat q.toNat o.index stDONE 0 (cyclesNs 480))) ∧
    (o.opcode = 2 → (s.dome dome.toNat).run = none → s.earlierStep dome.toNat o 2 = false →
      s.relaxedChoice dome.toNat q.toNat = false → u.injArmed dome.toNat 4 = false →
      o.addr 0x10 % 32 = 0 → o.fld 0x18 31 24 = 0 → o.fld 0x1C 31 16 = 0 → o.fld 0x18 23 0 ≠ 0 →
      (o.word 8).toNat ≤ (o.word 9).toNat → (o.words.drop 10).all (fun w => w == 0#32) = true →
      ∀ (slot : Nat) (m : TrainMap),
        (s.dome dome.toNat).maps.find? (fun m => TrainMap.id m.2 == o.fld 0x1C 15 0) = some (slot, m) →
        (∀ l, l < 15 → m.used l = true → (domeSpares dome.toNat).avail s l = true) →
        (s.start dome.toNat q.toNat o).txRead (some (domeItag dome.toNat)) (o.addr 0x10) (32 * o.fld 0x18 23 0)
          (some (dome.toNat, q.toNat, o.index)) = (.ok bs, u) →
        (SEnt.many (o.fld 0x18 23 0) bs).all (fun e => e.ok m) = true →
        ∃ t regs_, exec (.domeRun dome q) s = .next t ∧
          t = { u with regs := regs_, domes := Sparse.set (fun _ => {}) u.domes dome.toNat { u.dome dome.toNat with
            run := some ⟨q.toNat, o.index, m, slot, (o.word 8).toNat, (o.word 9).toNat, u.now, none, none, 0,
              SEnt.many (o.fld 0x18 23 0) bs, [], [], [], [], 0, 0, false, false, false, false, false, [], [], false⟩ } } ∧
          t.rd (kRUNPLAN dome.toNat) = o.word 8 ∧ t.rd (kRUNWCET dome.toNat) = o.word 9 ∧ t.rd (kRUNCYC dome.toNat) = 0#32)

/-- R178, R179, R184: an output entry of a running Dome issues when its cycle has come and the entry before it has
finished: its addresses join those of the stage, and the stages fire. R268: when a gather slot frees, the stages fire that
can, and a RUN with nothing left to do is concluded. R185: a RUN past WCET_CYC ends with ERR_TIMEOUT_WCET, counted in
BLK_ECNT5. R197, R199: a stage fault counts, sets its flag and takes a spare. (Readings of the model: log 36.) -/
def Obligations.DomesAtWork : Prop :=
  ∀ (s : State) (dome : BitVec 3) (r : DomeRun),
    ((s.dome dome.toNat).run = some r → (∃ o, s.findOp dome.toNat r.queue r.index = some o ∧ o.status = none) →
      (∀ (l : BitVec 4) (e : SEnt), r.paused = none → r.finished = false → r.retried = false →
        l.toNat ≠ 14 → (∀ b, b < 5 → s.injArmed dome.toNat b = false) → r.first ≠ none →
        (r.ents.filter (fun e => e.lstage == l.toNat && e.port == 3)).find? (fun e => e.doneAt.isNone) = some e →
        (∀ x ∈ r.ents, x.lstage = l.toNat → x.port = 3 → ∀ t, x.doneAt = some t →
          t ≤ s.now ∧ cyclesIn (t - r.start - r.pausedFor) ≤ e.tplan) →
        r.planCycle s.now = e.tplan → e.dep = false →
        (∀ i, i < e.count → s.scheduleAddrOk dome.toNat (s.queue dome.toNat r.queue).tenant (e.addr + i * e.stride) 64 = true) →
        s.Canonical →
        exec (.entryIssue dome l 3) s = .next
          ((s.setRun dome.toNat (some { r with
            outAt := Sparse.set (fun _ => []) r.outAt l.toNat (Sparse.get (fun _ => []) r.outAt l.toNat ++
              ((List.range e.count).map (fun i => e.addr + i * e.stride)).map (fun a => (e.ctx, a))),
            ents := r.ents.map (fun x => if x = e then { x with doneAt := some (s.now + cyclesNs 1) } else x) })).runOn
              dome.toNat)) ∧
      (r.paused = none → r.finished = false →
        (∀ u, s.fireNext dome.toNat r.allIssued = some (none, u) →
          exec (.gatherSlotFree dome) s = .next (State.settle dome.toNat (r.fuel - 1) u)) ∧
        (s.fireNext dome.toNat r.allIssued = none → r.gw = [] → r.idle = true →
          exec (.gatherSlotFree dome) s = .next ((s.setRun dome.toNat (some { r with finished := true })).conclude dome.toNat
            r.queue r.index (if r.empty then stNUM_EMPTY else stDONE)))) ∧
      (r.first ≠ none → r.paused = none → r.finished = false → r.wcet < r.cycles s.now →
        exec (.runWcetExpiry dome) s = .next
          (((s.count dome.toNat 5).raise dome.toNat 18 { inj := r.injWcet, queue := r.queue, index := r.index }).endRun
            dome.toNat stERR_TIMEOUT_WCET))) ∧
    (∀ (l : BitVec 4), l.toNat < 15 → (s.dome dome.toNat).run = none →
      exec (.stageFault dome l 0) s = .next
        ((domeSpares dome.toNat).fault ((s.count dome.toNat 3).raise dome.toNat 16 { detail := BitVec.ofNat 64 l.toNat })
          l.toNat).2 ∧
      exec (.stageFault dome l 1) s = .next
        ((domeSpares dome.toNat).fault ((s.count dome.toNat 1).raise dome.toNat 2 { detail := BitVec.ofNat 64 l.toNat })
          l.toNat).2 ∧
      exec (.stageFault dome l 2) s = .next
        ((domeSpares dome.toNat).fault ((s.count dome.toNat 2 3).raise dome.toNat 17 { detail := BitVec.ofNat 64 l.toNat })
          l.toNat).2)

/-- R192–R196: in an open window that has tested no part, a boundary between operations frees the next part of the
rotation: a spare takes over its logical part, and its test slice starts. When a slice has lasted its length, a part that
passed is SPARE and one that failed RETIRED, counted and flagged where the block has a flag for it. (Readings of the
model: log 76.) -/
def Obligations.PartsRotate : Prop :=
  ∀ (s : State) (region : BitVec 6) (unit : BitVec 2) (S : SpareSet), s.Canonical →
    (spareSets region.toNat).find? (fun S => S.unit == unit.toNat) = some S →
    (∀ (l : Nat) (u : State), s.pdDown (regionPd region.toNat) = false → (S.aux s).suspects = [] → (S.aux s).wantRetire = none →
      (S.aux s).wantTest = none → (S.aux s).served = false → (S.aux s).slice = none → s.flag (kSTAT S.region) 3 = true →
      (∀ p, p < S.nphys → S.canTest s p = false) → S.rotEnabled s = true → S.nextRot s = some l →
      s.partFree region.toNat l = true → S.move s l 2 = some u →
      exec (.spareTakeover region unit) s = .next (S.startSlice (S.advanceRot u l) (S.phys s l))) ∧
    (∀ (p t0 : Nat) (banks : List (BitVec 9)) (u : State), (S.aux s).slice = some (p, t0) → t0 + S.slice p ≤ s.now →
      (S.aux s).wantRetire = none → u = S.showTest (S.setAux s { S.aux s with slice := none }) →
      exec (.testSliceEnd region unit true banks) s = .next
        ((if S.kSubstat = 0 then S.setSt u p 0 else (S.setSt u p 0).setFlag S.kSubstat (S.testHi + 1) true).touch
          (regionPd region.toNat)) ∧
      (S.failBit = none →
        exec (.testSliceEnd region unit false banks) s = .next
          (((if S.kSubstat = 0 then S.setSt u p 3 else (S.setSt u p 3).setFlag S.kSubstat (S.testHi + 2) true).countOpt
            S.region S.cntTest).touch (regionPd region.toNat))) ∧
      (∀ b, S.failBit = some b →
        exec (.testSliceEnd region unit false banks) s = .next
          ((((if S.kSubstat = 0 then S.setSt u p 3 else (S.setSt u p 3).setFlag S.kSubstat (S.testHi + 2) true).countOpt
            S.region S.cntTest).raise S.region b { index := p }).touch (regionPd region.toNat))))

/-- R66, R69, R583, R585: a due window action of the Ephemeris takes effect at its region: it opens or closes the window
it names and counts as its slot's occurrence; in a protected interval an open is stopped, counted and flagged; where the
region takes no action it is dropped. A close that a protected interval forces closes every window. (Readings of the
model: logs 76, 80.) -/
def Obligations.WindowsOpenAndClose : Prop :=
  ∀ (s s' : State) (region : BitVec 6) (d : Dispatched) (w : Nat),
    (s.takeDue (Action.isOpen region.toNat) = some (d, s') →
      d.action = .windowOpen region.toNat w →
      (s'.dropsAt region.toNat = true → exec (.windowOpen region) s = .next (s'.dropAction d.slot)) ∧
      (s'.dropsAt region.toNat = false → (s'.slotFired d.slot).isProtected region.toNat = true →
        exec (.windowOpen region) s = .next
          (((s'.slotFired d.slot).count rWATCH 6).raise rWATCH 19 { index := region.toNat })) ∧
      (s'.dropsAt region.toNat = false → (s'.slotFired d.slot).isProtected region.toNat = false →
        bitOf (s'.windows region.toNat) w = false → spareSets region.toNat = [] → region.toNat ≠ rPLATE →
        exec (.windowOpen region) s = .next
          (((s'.slotFired d.slot).setWindows region.toNat (Nat.lor (s'.windows region.toNat) (2 ^ w))).touch
            (regionPd region.toNat))) ∧
      (s'.dropsAt region.toNat = false → (s'.slotFired d.slot).isProtected region.toNat = false →
        exec (.windowOpen region) s = .next ((s'.slotFired d.slot).openWindow region.toNat w))) ∧
    (s.takeDue (Action.isClose region.toNat) = some (d, s') →
      d.action = .windowClose region.toNat w →
      (d.slot < 1024 → s'.dropsAt region.toNat = true → exec (.windowClose region) s = .next (s'.dropAction d.slot)) ∧
      (d.slot < 1024 → s'.dropsAt region.toNat = false →
        exec (.windowClose region) s = .next ((s'.slotFired d.slot).closeWindow region.toNat w false)) ∧
      (1024 ≤ d.slot → s'.flag (kSTAT region.toNat) 3 = true →
        exec (.windowClose region) s = .next
          (((s'.closeWindow region.toNat 0 true).count rWATCH 6).raise rWATCH 19 { index := region.toNat })))

/-- R203: a permitted write of SUBCMD stores its fields, and the command it carries waits for its part's boundary with the
result BUSY (1): TEST of a logical part that has a spare, RETIRE of a physical part that is bound to none or has a spare
to follow it. Linkous stores the LINK bit of the word too and takes the command for that link (R715). -/
def Obligations.SubcommandsWait : Prop :=
  ∀ (s u₀ u : State) (i : Initiator) (region : BitVec 6) (v w : Word) (S : SpareSet),
    ((spareSets region.toNat = [S] ∧ u₀ = s.touch (regionPd region.toNat)) ∨
      (region.toNat = rLNK ∧ S = lnkSpares (fieldOf w 8 8) ∧
        u₀ = (s.touch (regionPd rLNK)).setFlag S.kSub 8 (flagOf w 8))) → S.kSub ≠ 0 →
    u = (u₀.setFld S.kSub S.subPhys.1 S.subPhys.2 (fieldOf w S.subPhys.1 S.subPhys.2)).setFld
      S.kSub S.subLog.1 S.subLog.2 (fieldOf w S.subLog.1 S.subLog.2) → s.Reaches i S.kSub w →
    (w = withField v S.subCmd.1 S.subCmd.2 1 →
      (fieldOf w S.subLog.1 S.subLog.2 < S.nlog → (S.spareFor u (fieldOf w S.subLog.1 S.subLog.2)).isSome = true →
        S.avail u (fieldOf w S.subLog.1 S.subLog.2) = true →
        exec (.subcmdTest i region v) s = .next
          ((S.result (S.setAux u { S.aux u with wantTest := some (fieldOf w S.subLog.1 S.subLog.2) }) 1).respond .ok)) ∧
      (fieldOf w S.subLog.1 S.subLog.2 < S.nlog → (S.spareFor u (fieldOf w S.subLog.1 S.subLog.2)) = none →
        exec (.subcmdTest i region v) s = .next ((S.result u 2).respond .ok)) ∧
      (S.nlog ≤ fieldOf w S.subLog.1 S.subLog.2 → exec (.subcmdTest i region v) s = .next ((S.result u 3).respond .ok))) ∧
    (w = withField v S.subCmd.1 S.subCmd.2 2 →
      (fieldOf w S.subPhys.1 S.subPhys.2 < S.nphys →
        (∀ l, l < S.nlog → S.phys u l = fieldOf w S.subPhys.1 S.subPhys.2 → (S.spareFor u l).isSome = true) →
        exec (.subcmdRetire i region v) s = .next
          ((S.result (S.setAux u { S.aux u with wantRetire := some (fieldOf w S.subPhys.1 S.subPhys.2) }) 1).respond .ok)) ∧
      (fieldOf w S.subPhys.1 S.subPhys.2 < S.nphys →
        (∃ l, (List.range S.nlog).find? (fun l => S.phys u l == fieldOf w S.subPhys.1 S.subPhys.2 &&
          S.st u (fieldOf w S.subPhys.1 S.subPhys.2) == 1) = some l ∧ S.spareFor u l = none) →
        exec (.subcmdRetire i region v) s = .next ((S.result u 2).respond .ok)) ∧
      (S.nphys ≤ fieldOf w S.subPhys.1 S.subPhys.2 → exec (.subcmdRetire i region v) s = .next ((S.result u 3).respond .ok)))

/-- R229: a permitted write of PLATE_QUOTAt takes effect when the quotas then sum to 16,384 or fewer lines and it is not
below what the tenant holds; else it only sets CFG_ERR. R230: an ALLOC of a held object whose lines are free and fit the
quota maps them and concludes DONE, above the quota REJ_CAPACITY; without room it waits and counts, and a slot that
unlocks lets the oldest try again. A FREE unmaps the object's lines. -/
def Obligations.ArchivePool : Prop :=
  ∀ (s : State),
    (∀ (i : Initiator) (n : BitVec 4) (v : Word), s.Reaches i (kQUOTA n.toNat) v →
      ((List.range 16).foldl (fun a j => a + (if j = n.toNat then fieldOf v 14 0 else s.fld (kQUOTA j) 14 0)) 0 ≤ 16384 →
        s.fld (kHELD n.toNat) 14 0 ≤ fieldOf v 14 0 →
        exec (.quotaWrite i n v) s = .next (((s.touch 12).setFld (kQUOTA n.toNat) 14 0 (fieldOf v 14 0)).respond .ok)) ∧
      (16384 < (List.range 16).foldl (fun a j => a + (if j = n.toNat then fieldOf v 14 0 else s.fld (kQUOTA j) 14 0)) 0 ∨
          fieldOf v 14 0 < s.fld (kHELD n.toNat) 14 0 →
        exec (.quotaWrite i n v) s = .next (((s.touch 12).cfgErr rPLATE i.itag).respond .ok))) ∧
    (∀ (q : BitVec 10) (u : State) (op : Op) (o : Obj), s.dropDeadMoves.nextOp rTRANSIT q.toNat = some op → op.opcode = 4 →
      s.dropDeadMoves.pick rTRANSIT = some q.toNat → u = s.dropDeadMoves.start rTRANSIT q.toNat op → u.heldObj op = some o →
      u.linesFree o = true →
      (u.fld (kQUOTA o.tenant) 14 0 < u.fld (kHELD o.tenant) 14 0 + allocLines o →
        exec (.alloc q) s = .next (u.conclude rTRANSIT q.toNat op.index stREJ_CAPACITY)) ∧
      (u.fld (kHELD o.tenant) 14 0 + allocLines o ≤ u.fld (kQUOTA o.tenant) 14 0 →
        (∀ w, State.makeRoom o.tenant true (allocLines o) (u.plate.slots.length + 1) u = (true, w) →
          exec (.alloc q) s = .next ((w.mapLines o).conclude rTRANSIT q.toNat op.index stDONE)) ∧
        (u.allocate o = none →
          exec (.alloc q) s = .next ({ u with plate := { u.plate with
            allocs := u.plate.allocs ++ [HeldAlloc.mk q.toNat op.index o.handle] } }.count rPLATE 4)))) ∧
    (∀ (h : HeldAlloc) (rest : List HeldAlloc) (op : Op) (o : Obj) (w : State), s.dropDeadMoves.plate.allocs = h :: rest →
      s.dropDeadMoves.findOp rTRANSIT h.queue h.index = some op → op.status = none →
      s.dropDeadMoves.objEntry h.handle = some o → s.dropDeadMoves.allocate o = some w →
      exec .allocResume s = .next
        ({ w with plate := { w.plate with allocs := rest } }.conclude rTRANSIT h.queue h.index stDONE)) ∧
    (∀ (q : BitVec 10) (u : State) (op : Op) (o : Obj) (mine : Nat), s.nextOp rTRANSIT q.toNat = some op → op.opcode = 5 →
      s.pick rTRANSIT = some q.toNat → u = s.start rTRANSIT q.toNat op → u.heldObj op = some o →
      mine = (u.plate.lines.filter (fun e => e.2 == o.handle + 1)).length →
      ∃ t regs_, exec (.free q) s = .next (t.conclude rTRANSIT q.toNat op.index stDONE) ∧
        t = ({ u with regs := regs_, plate := { u.plate with
          lines := u.plate.lines.filter (fun e => e.2 != o.handle + 1) } }).setRes o.handle false ∧
        (s.Canonical → o.tenant < 16 →
          t.fld (kHELD o.tenant) 14 0 = (u.fld (kHELD o.tenant) 14 0 - mine) % 2 ^ 15 ∧
          ∀ k, k ∉ [kUSE o.tenant, kPFREE, kHELD o.tenant] → t.rd k = s.rd k))

/-- R237, R238, R241, R242: a MOVE of well-formed operands that the pool has room for first checks every tile, then copies
them in order, and concludes DONE with its RESULT; one that the pool has no room for stalls, counted. A NOP concludes DONE
once no earlier step is outstanding. R228: 100 ns after an uncorrected read the MOVE runs on from the tile it saved, that
read being its second. R238: releases go on once the pool has room. (Readings of the model: logs 9, 36.) -/
def Obligations.TransitMoves : Prop :=
  ∀ (s : State) (q : BitVec 10) (op : Op),
    (∀ (x y : Obj) (u v w z : State) (j k : Nat) (m m' : MoveAcc), s.dropDeadMoves.nextOp rTRANSIT q.toNat = some op →
      op.opcode = 1 → s.dropDeadMoves.pick rTRANSIT = some q.toNat → s.dropDeadMoves.plate.stalled = false →
      s.dropDeadMoves.stepBlocked op = false → 1 ≤ op.move.count → op.move.count ≤ 256 →
      (s.dropDeadMoves.fld kINFLIGHT 14 0 + op.move.count ≤ 16384 → s.dropDeadMoves.relaxedChoice rTRANSIT q.toNat = false →
        u = s.dropDeadMoves.start rTRANSIT q.toNat op → u.validObj op.move.src [0, 1, 2, 3, 4] = some x →
        u.validObj op.move.dst [0, 1, 2, 3, 4] = some y → moveFormatOk op.move op x y = true →
        v = (u.addInflight op.move.count).mapOp rTRANSIT q.toNat op.index (fun o => { o with tiles := op.move.count }) →
        v.validObj op.move.src [0, 1, 2, 3, 4] = some x → v.validObj op.move.dst [0, 1, 2, 3, 4] = some y →
        State.moveChecks q.toNat op.index (v.queue rTRANSIT q.toNat).itag op.move x y op.move.count 0 (accFlags op.result) v =
          (.ok, j, m, w) →
        State.moveTiles q.toNat op.index (v.queue rTRANSIT q.toNat).itag op.move x y op.move.count 0 (accFlags op.result) w =
          (.ok, k, m', z) →
        exec (.transitMove q) s = .next (z.conclude rTRANSIT q.toNat op.index stDONE
          ({ m' with tiles := op.move.count } : MoveAcc).result)) ∧
      (16384 < s.dropDeadMoves.fld kINFLIGHT 14 0 + op.move.count →
        exec (.transitMove q) s = .next
          ({ s.dropDeadMoves with plate := { s.dropDeadMoves.plate with stalled := true } }.count rTRANSIT 5))) ∧
    (s.nextOp rTRANSIT q.toNat = some op → op.opcode = 3 → s.pick rTRANSIT = some q.toNat → s.stepBlocked op = false →
      exec (.transitNop q) s = .next ((s.start rTRANSIT q.toNat op).conclude rTRANSIT q.toNat op.index stDONE)) ∧
    (∀ (due k : Nat), (s.queue rTRANSIT q.toNat).ops.find? (fun o => o.reread.isSome && o.status.isNone) = some op →
      op.reread = some (due, k) → due ≤ s.now →
      exec (.reread q) s = .next ((s.mapOp rTRANSIT q.toNat op.index (fun o => { o with reread := none })).runMove q.toNat op
        (bitsOf op.result.toNat 40 32) (some k))) ∧
    (s.dropDeadMoves.pick rTRANSIT = some q.toNat → s.dropDeadMoves.nextOp rTRANSIT q.toNat = some op →
      s.dropDeadMoves.fld kINFLIGHT 14 0 + op.move.count ≤ 16384 →
      exec .poolReleaseResume s = .next
        { s.dropDeadMoves with plate := { s.dropDeadMoves.plate with stalled := false } })

/-- R221, R223, R227, R531: what becomes of a pseudo-channel. A read-around counts. More corrected errors in a second than
CETHR make a HEALTHY one SUSPECT, counted, flagged and recorded; 60 s without a breach make it HEALTHY again. A RETIRE
command makes it LOST. The patrol scrub counts what it corrects and marks the uncorrectable code word it meets; a thermal
alert of a stack counts. (Readings of the model: log 10.) -/
def Obligations.PseudoChannelHealth : Prop :=
  ∀ (s : State), s.Canonical →
    (∀ (pc : BitVec 8), pc.toNat < 192 →
      ((∃ e ∈ s.queues, e.1 / 4096 = rTRANSIT ∧ ∃ o ∈ e.2.ops, o.opcode = 1 ∧ o.started = true ∧ o.status = none ∧
          ∃ x, s.objEntry o.move.src = some x ∧ x.cls = 2) → s.pcState pc.toNat ≠ 2 →
        exec (.readaroundTimeout pc) s = .next ((s.addSat kRACNT 31 0 1).count (rHBM0 + pc.toNat / 32) 5)) ∧
      (∀ (n : BitVec 16), s.fld (rk (rHBM0 + pc.toNat / 32) 1 0x108) 15 0 < n.toNat → s.pcState pc.toNat = 0 →
        ∃ t, exec (.pcCeThreshold pc n) s = .next t ∧ t.pcState pc.toNat = 1 ∧
          t.plate.suspectAt = Sparse.set (fun _ => none) s.plate.suspectAt pc.toNat (some s.now) ∧
          t.flag (kESTAT (rHBM0 + pc.toNat / 32)) 1 = true ∧ t.mem = s.mem ∧
          t.fld (kECNT (rHBM0 + pc.toNat / 32) 0) 15 0 = satAdd 0xFFFF (s.fld (kECNT (rHBM0 + pc.toNat / 32) 0) 15 0) n.toNat ∧
          t.fld (kECNT (rHBM0 + pc.toNat / 32) 2) 15 0 = satAdd 0xFFFF (s.fld (kECNT (rHBM0 + pc.toNat / 32) 2) 15 0) 1) ∧
      (∀ t0, Sparse.get (fun _ => none) s.plate.suspectAt pc.toNat = some t0 → s.pcState pc.toNat = 1 → 60000000000 + t0 ≤ s.now →
        exec (.pcSuspectExpiry pc) s = .next ((s.setPcState pc.toNat 0).setSuspect pc.toNat none))) ∧
    (∀ (i : Initiator) (stack : BitVec 3) (v : Word), stack.toNat < 6 →
      s.Reaches i (rk (rHBM0 + stack.toNat) 1 0x10C) (withField v 6 5 1) → s.pcState (32 * stack.toNat + fieldOf v 4 0) ≠ 2 →
      ∃ t, exec (.pcRetireCmd i stack v) s = .next t ∧ t.pcState (32 * stack.toNat + fieldOf v 4 0) = 2 ∧
        t.fld (kECNT (rHBM0 + stack.toNat) 3) 15 0 = satAdd 0xFFFF (s.fld (kECNT (rHBM0 + stack.toNat) 3) 15 0) 1 ∧ t.mem = s.mem) ∧
    (∀ (mem : BitVec 3) (n : BitVec 16) (r : Nat), r = (if mem.toNat < 6 then rHBM0 + mem.toNat else rLPDDR) → mem.toNat ≤ 6 →
      s.pdDown (regionPd r) = false →
      (n.toNat ≠ 0 → exec (.patrolScrub mem n none) s = .next ((s.count r 0 n.toNat).raise r 1)) ∧
      (∀ (a : BitVec 44), mem.toNat < 6 → a.toNat / 2 ^ 30 < 32 → a.toNat % 2 ^ 30 < 0x30000000 →
        s.pcState (32 * mem.toNat + a.toNat / 2 ^ 30) = 0 →
        wordStart (hbmKey (32 * mem.toNat + a.toNat / 2 ^ 30) (a.toNat % 2 ^ 30)) ∉ s.badWords →
        exec (.patrolScrub mem 0#16 (some a)) s = .next
          (({ s with badWords := wordStart (hbmKey (32 * mem.toNat + a.toNat / 2 ^ 30) (a.toNat % 2 ^ 30)) :: s.badWords }.count
            r 1).raise r 2 { detail := BitVec.ofNat 64 a.toNat }))) ∧
    (∀ (stack : BitVec 3), stack.toNat < 6 → exec (.hbmThermalAlert stack) s = .next (s.count (rHBM0 + stack.toNat) 6))

/-- R258: a permitted write of KVW_WnFINV with VALID starts the invalidation of the sequence it names, or of every line;
when it finishes the lines are gone from that walker's Finder and DONE reads 1. R283: KVW_FLUSH flushes every staged page,
walker by walker. R280: KVW_MODE takes the request over and shows what is in force. -/
def Obligations.WalkerCommands : Prop :=
  ∀ (s u : State) (i : Initiator) (walker : BitVec 3) (v : Word), u = s.touch (regionPd rKVW) →
    (s.Reaches i (kWK walker.toNat 0x130) (withFlag v 13 true) → (s.walker walker.toNat).finv = none →
      exec (.finderInvalidate i walker v) s = .next
        ((((((u.setFld (kWK walker.toNat 0x130) 11 0 (fieldOf v 11 0)).setFlag (kWK walker.toNat 0x130) 12 (flagOf v 12)).setWalker
          walker.toNat { s.walker walker.toNat with finv := some (fieldOf v 11 0, flagOf v 12) }).setFlag
          (kWK walker.toNat 0x130) 13 true).setFlag (kWK walker.toNat 0x130) 14 false).respond .ok)) ∧
    (∀ q all, (s.walker walker.toNat).finv = some (q, all) →
      exec (.finderInvalidateDone walker) s = .next
        (((s.setWalker walker.toNat { s.walker walker.toNat with
            finv := none,
            finder := (s.walker walker.toNat).finder.filter (fun l => !all && l.seq != q) }).setFlag
          (kWK walker.toNat 0x130) 13 false).setFlag (kWK walker.toNat 0x130) 14 true)) ∧
    (s.Reaches i (rk rKVW 1 0x104) (withFlag v 0 true) →
      exec (.kvFlush i v) s = .next
        ((((List.range 8).foldl (fun s n => (s.walker n).staged.foldl (fun s x => s.kvFlushPage n x) s) u).showKvMode).respond .ok)) ∧
    (s.Reaches i (rk rKVW 1 0x100) v →
      exec (.qaReqWrite i v) s = .next (((u.writeGeneric (rk rKVW 1 0x100) i.itag v).showKvMode).respond .ok))

/-- R318–R321: an enabled Coelostat with no swap in flight serves the first job that waits on residency: the AWAY entry of
lowest FRAME comes in when its frame is free. It carries out the first EVICT whose job has no released step left. When the
MOVE of a swap is visible and its time has come, the entry is AWAY or RESIDENT and clean. (Readings of the model: logs 11,
37, 38.) -/
def Obligations.SwapsGoInAndOut : Prop :=
  ∀ (s : State) (n : Nat) (e : CoelEnt), s.coelEnt n = some e →
    (s.coelOn = true → s.sched.swap = none →
      (∀ (j : Job) (js : List Job) (es : List (Nat × CoelEnt)),
        s.jobOrder (fun j => s.readyButResidency j && !s.resident j.r.job) = j :: js →
        (s.coelTable.filter (fun x => x.2.job == j.r.job && x.2.state != 2)).foldr insertFrame [] = (n, e) :: es →
        e.hold = false → e.state = 0 → s.frameBusy e.frame = false →
        s.coelTable.find? (fun x => x.2.frame == e.frame && x.2.state == 2) = none →
        exec .coelServe s = .next (s.coelMove n e false).coelClock) ∧
      (s.sched.evict.find? (fun i => (s.coelEnt i).elim false (fun e => !s.jobBusy e.job)) = some n → e.state = 2 →
        exec .coelResume s = .next (s.coelOut n e).coelServe.coelResult.coelClock)) ∧
    (∀ (m : Swap), s.sched.swap = some m → m.entry = n → (s.queue rTRANSIT s.coelQueue).failed.all (fun f => f.1 != m.index) = true →
      s.opVisible rTRANSIT s.coelQueue m.index = true →
      (m.out = true → m.at_ + 1000 + ceilDiv m.size 640 ≤ s.now →
        ∃ u, u = (({ s with sched := { s.sched with swap := none } }.setFlag kCOELSTAT 13 false).coelPut n 0 e.dirty e.step) ∧
          exec .swapoutComplete s = .next
            ({ u with sched := { u.sched with evict := u.sched.evict.filter (fun i => i != n) } }.coelResult.coelClock)) ∧
      (m.out = false → m.at_ + 1000 + ceilDiv m.size 1280 ≤ s.now →
        ∃ u, u = (({ s with sched := { s.sched with swap := none } }.setFlag kCOELSTAT 13 false).coelPut n 2 false e.step) ∧
          exec .swapinComplete s = .next
            ({ u with sched := { u.sched with jobs := u.sched.jobs.map (fun (k : Nat × Option Job) =>
              (k.1, k.2.map (fun (j : Job) => if j.r.job = e.job then { j with residentAt := u.now } else j))) } }.coelResult.coelClock)))

/-- R322, R324, R329: a permitted command of SCHED_COEL_CMD on an entry of the table. EVICT and EVICT_HOLD of a RESIDENT
one queue its eviction and read BUSY until it is carried out, the latter with HOLD set; RESTORE clears HOLD; RETRY of an
entry in FAULT repeats its MOVE; DISCARD makes it RESIDENT and DIRTY with its bytes unspecified. On an entry in another
state EVICT, EVICT_HOLD, RETRY and DISCARD read BADSTATE; above the table every command reads BADENTRY. (Readings of the
model: log 11.) -/
def Obligations.CoelostatCommands : Prop :=
  ∀ (s u : State) (i : Initiator) (entry : BitVec 10) (c : Nat), s.Reaches i (kCOEL 0x110) (coelWord entry c) →
    u = (s.touch (regionPd rSCHED)).setFld (kCOEL 0x110) 9 0 entry.toNat → 1 ≤ c → c ≤ 5 →
    (entry.toNat < u.coelCount → ∀ e, u.coelEnt entry.toNat = some e →
      (e.valid = true → e.state = 2 →
        (c = 1 → exec (.coelEvict i entry) s = .next
          (({ u with sched := { u.sched with evict := u.sched.evict ++ [entry.toNat] } }.setFld kCOELSTAT 2 0
            1).coelEvictNext.coelResult.respond .ok)) ∧
        (c = 2 → ∃ w, w = u.coelHold entry.toNat true ∧ exec (.coelEvictHold i entry) s = .next
          (({ w with sched := { w.sched with evict := w.sched.evict ++ [entry.toNat] } }.setFld kCOELSTAT 2 0
            1).coelEvictNext.coelResult.respond .ok))) ∧
      (c = 3 → exec (.coelRestore i entry) s = .next
        (((u.coelHold entry.toNat false).setFld kCOELSTAT 2 0 0).coelServe.coelClock.respond .ok)) ∧
      (e.valid = true → e.state = 4 →
        (c = 4 → u.sched.swap = none → (u.queue rTRANSIT u.coelQueue).state = .active →
          exec (.coelRetry i entry) s = .next
            (((u.setFld kCOELSTAT 2 0 0).coelMove entry.toNat e
              ((Sparse.get (fun _ => none) u.sched.failedOut entry.toNat).getD false)).respond .ok)) ∧
        (c = 5 → ∀ o, (u.coelPut entry.toNat 2 true e.step).validObj e.frame [0] = some o →
          ∃ w, w = (u.coelPut entry.toNat 2 true e.step).scramble ((List.range o.size).map (fun k => o.loc + k)) ∧
            exec (.coelDiscard i entry) s = .next
              (({ w with sched := { w.sched with
                failedOut := Sparse.set (fun _ => none) w.sched.failedOut entry.toNat none } }.setFld kCOELSTAT 2 0
                0).coelClock.respond .ok))) ∧
      (e.state ≠ 2 → e.state ≠ 4 →
        (c = 1 → exec (.coelEvict i entry) s = .next ((u.setFld kCOELSTAT 2 0 3).respond .ok)) ∧
        (c = 2 → exec (.coelEvictHold i entry) s = .next ((u.setFld kCOELSTAT 2 0 3).respond .ok)) ∧
        (c = 4 → exec (.coelRetry i entry) s = .next ((u.setFld kCOELSTAT 2 0 3).respond .ok)) ∧
        (c = 5 → exec (.coelDiscard i entry) s = .next ((u.setFld kCOELSTAT 2 0 3).respond .ok)))) ∧
    (u.coelCount ≤ entry.toNat →
      (c = 1 → exec (.coelEvict i entry) s = .next ((u.setFld kCOELSTAT 2 0 2).respond .ok)) ∧
      (c = 2 → exec (.coelEvictHold i entry) s = .next ((u.setFld kCOELSTAT 2 0 2).respond .ok)) ∧
      (c = 3 → exec (.coelRestore i entry) s = .next ((u.setFld kCOELSTAT 2 0 2).respond .ok)) ∧
      (c = 4 → exec (.coelRetry i entry) s = .next ((u.setFld kCOELSTAT 2 0 2).respond .ok)) ∧
      (c = 5 → exec (.coelDiscard i entry) s = .next ((u.setFld kCOELSTAT 2 0 2).respond .ok)))

/-- R332: an ADMIT whose record passes every check admits the job, with its seed, and completes DONE; one that fails a
check counts in BLK_ECNT7 and completes with that check's status. R330: a RETIRE of a job without an open step releases
what it holds; of an unknown job it completes DONE. R336: a JOIN of a serving job takes the lowest free entry for the row,
and a LEAVE marks it; a LEAVE of no row sets CFG_ERR. (Readings of the model: log 15.) -/
def Obligations.JobsAndRows : Prop :=
  ∀ (s u : State) (o : Op), u = s.start rSCHED 0 o →
    (s.control 1 = some o → o.addr 0x10 % 128 = 0 → ∀ (bs : List Byte) (w : State),
      u.txRead (u.queueItag rSCHED 0) (o.addr 0x10) 128 (some (rSCHED, 0, o.index)) = (.ok bs, w) →
      (w.admitCheck bs (JobRec.ofBytes bs) = stDONE →
        exec .admitJob s = .next
          ((((w.setJob (JobRec.ofBytes bs).sq (some { r := JobRec.ofBytes bs })).setSeed (JobRec.ofBytes bs).job
            (some (JobRec.ofBytes bs).seed)).showLoads).finish rSCHED 0 o.index stDONE)) ∧
      (w.admitCheck bs (JobRec.ofBytes bs) ≠ stDONE →
        exec .admitJob s = .next ((w.count rSCHED 7).finish rSCHED 0 o.index (w.admitCheck bs (JobRec.ofBytes bs))))) ∧
    (s.control 2 = some o →
      (∀ j, u.jobBy (o.fld 0x10 15 0) = some j → j.step = none →
        exec .retire s = .next ((u.retireJob j).finish rSCHED 0 o.index stDONE)) ∧
      (u.jobBy (o.fld 0x10 15 0) = none → exec .retire s = .next (u.finish rSCHED 0 o.index stDONE))) ∧
    (s.control 4 = some o → ∀ (j : Job) (i : Nat), u.jobBy (o.fld 0x10 15 0) = some j → j.r.serve = true →
      (List.range 4096).find? (fun i => (u.alm i).state == 0) = some i →
      o.fld 0x14 16 0 ≤ o.fld 0x18 16 0 → o.fld 0x18 16 0 ≤ o.fld 0x1C 16 0 → o.fld 0x14 16 0 < o.fld 0x1C 16 0 →
      o.fld 0x1C 16 0 ≤ 65536 →
      exec .join s = .next
        (((List.range 8).foldl (fun (s : State) d => if bitOf j.r.domes d then s.finderDrop d i else s)
          (({ u with sched := { u.sched with jseq := (u.sched.jseq + 1) % 2 ^ 32 } }).setAlm i
            { state := 1, job := j.r.job, len := o.fld 0x14 16 0, plen := o.fld 0x18 16 0, lmax := o.fld 0x1C 16 0,
              jseq := u.sched.jseq })).finish rSCHED 0 o.index stDONE (BitVec.ofNat 64 i))) ∧
    (s.control 5 = some o →
      ((u.alm (o.fld 0x10 11 0)).state ≠ 0 → (u.jobBy (u.alm (o.fld 0x10 11 0)).job).isSome = true →
        exec .leave s = .next
          ((u.setAlm (o.fld 0x10 11 0) { u.alm (o.fld 0x10 11 0) with leave := true }).finish rSCHED 0 o.index stDONE)) ∧
      ((u.alm (o.fld 0x10 11 0)).state = 0 → exec .leave s = .next ((u.cfgErr rSCHED).finish rSCHED 0 o.index stDONE)))

/-- R331, R343: a STEP whose number follows the job's last becomes its candidate, any other completes REJ_FORMAT. R345,
R346–R350: the step that the scheduler chooses goes through the boundary, its reticle is read, rows are parked while it
costs too much, and it is opened; when every write of the builder is visible its doorbells are written. (Readings of the
model: logs 39, 40.) -/
def Obligations.StepsOpen : Prop :=
  ∀ (s : State),
    (∀ (sq : BitVec 6) (j : Job) (o : Op), s.jobAt sq.toNat = some j → s.nextOp rSCHED sq.toNat = some o → o.opcode = 0x10 →
      j.cand = none → j.step = none →
      (o.step = j.lastStep + 1 →
        exec (.step sq) s = .next
          (((s.start rSCHED sq.toNat o).setJob sq.toNat (some { j with cand := some (o.index, s.now) })).coelClock)) ∧
      (o.step ≠ j.lastStep + 1 →
        exec (.step sq) s = .next ((s.start rSCHED sq.toNat o).finish rSCHED sq.toNat o.index stREJ_FORMAT))) ∧
    (∀ (j : Job) (p : Op) (index t0 : Nat) (u w : State) (b : Opening) (its : List RetItem),
      s.jobs.any Job.building = false → s.stepChoice = some (j, false) → j.cand = some (index, t0) →
      s.coelClock.findOp rSCHED j.r.sq index = some p →
      u = (s.coelClock.almOf j.r.job).foldl (fun s x => s.almInject x.1) s.coelClock →
      (u.almOf j.r.job).any (fun x => x.2.fault) = false → b = ({ s := u } : Opening).boundary j.r index p.step →
      State.readReticle b.s j.r.sq index j.r.nitems j.r.reticle [] = (.ok its, w) →
      ∀ (f : Opening), f = Opening.fitCost j.r its (s.coelClock.almOf j.r.job).length ((s.coelClock.almOf j.r.job).length + 1)
        { b with s := w } →
      (∀ i ∈ its, i.kind = 1 → ∃ l, i.emits (f.s.rowsOf j.r) = some l ∧ l.length ≤ 65535 ∧ (i.gwkind = 0 → l.length ≤ 16384)) →
      exec .stepOpen s = .next (f.open_ j.r index p.step (b.s.flag kKVMODE 0) (f.s.rowsOf j.r) its
        (stepSize its (f.s.rowsOf j.r) (s.coelClock.almOf j.r.job).length f.wrote))) ∧
    (∀ (j : Job) (o : OpenStep) (u w : State) (r q : Nat),
      s.jobs.find? Job.building = some j → j.step = some o →
      u = ((s.setJob j.r.sq (some { j with step := some { o with released := true } })).setFlag (kSTAT rSCHED) 16 false).coelDirty
        j.r.job o.number →
      (o.descs.map (fun d => (d.1, d.2.1))).eraseDups = [(r, q)] →
      u.gate { itag := u.builder } (kDOORBELL r q) true (BitVec.ofNat 32 (idx ((u.queue r q).tail + o.descs.length))) = (.ok, w) →
      exec .stepRelease s = .next (w.doorbell r q (BitVec.ofNat 32 (idx ((u.queue r q).tail + o.descs.length))) w.builder))

/-- R352, R353: a released step all of whose records are visible, none with a stopping status, closes: its rows are longer
by what they appended, it is the job's last step, and its STEP completes with its RESULT. R354: a step past WSTEP expires,
counted in BLK_ECNT2 and flagged. (Readings of the model: log 15.) -/
def Obligations.StepsClose : Prop :=
  ∀ (s : State) (sq : BitVec 6) (j : Job) (o : OpenStep), s.jobAt sq.toNat = some j → j.step = some o →
    (∀ (u w : State), o.released = true → o.expired = false → o.qam = false → o.descs.all (fun d => s.recordDone d) = true →
      s.stepStatus o = 0 → (∃ p, s.findOp rSCHED sq.toNat o.index = some p ∧ p.dl = false) →
      u = o.rows.foldl (fun s x => if (s.alm x.1).state = 0 then s
        else s.setAlm x.1 { s.alm x.1 with len := (s.alm x.1).len + x.2 }) s →
      w = (((({ u with openQam0 := u.openQam0 - 1 }).setJob sq.toNat (some { j with
          step := none, lastStep := o.number, closed := o.number,
          suspended := j.r.train && !u.flag (rk rWATCH 1 0x110) 0 })).showKvMode).setFlag (kSTAT rSCHED) 16 false).finish rSCHED
        sq.toNat o.index stDONE (stepResult (u.stepCycles j o) o.rows.length o.joined o.gone o.preempted o.parked) →
      (w.queue rSCHED 0).ops.all (fun p => p.opcode != 2) = true →
      exec (.stepClose sq) s = .next w) ∧
    (o.expired = false → o.wstep < s.stepCycles j o → s.injArmed rSCHED 2 = false →
      exec (.stepWcetExpiry sq) s = .next
        (((s.setJob sq.toNat (some { j with step := some { o with expired := true } })).count rSCHED 2).raise rSCHED 16
          { queue := sq.toNat, index := o.index }))

/-- R355–R358: a job without a semaphore whose Dome a released step of higher PRIO wants is asked to give way; when its
Transit and LNK operations are done its RUNs pause and are saved; when every Dome is saved the job is saved, and its Domes
are free; when they are free again it is restored and goes on, the time left out of its watchdogs. (Readings of the model:
log 15.) -/
def Obligations.JobsGiveWay : Prop :=
  ∀ (s : State) (sq : BitVec 6) (j : Job), s.jobAt sq.toNat = some j →
    (j.pre = none → j.step ≠ none → s.holdsSem j.r.job = false → s.wanted j.r = true →
      exec (.preemptRequest sq) s = .next ((s.setJob sq.toNat (some { j with pre := some ⟨1, s.now, 0, [], []⟩ })).count rSCHED 6)) ∧
    (∀ p, j.pre = some p →
      (p.stage = 1 →
        (∀ k, k < j.r.ntq → ∀ o ∈ (s.queue rTRANSIT (j.r.tq + k)).ops, o.started = true → o.status.isSome = true) →
        (∀ e ∈ s.queues, e.1 / 4096 = rLNK → ∀ o ∈ e.2.ops, o.started = true → o.status = none → o.job ≠ j.r.job) →
        ∀ ds u, ds = s.runDomes j.r → u = ds.foldl State.pauseRun s →
        (ds ≠ [] → exec (.preemptPoint sq) s = .next (u.setJob sq.toNat (some { j with
          step := j.step.map (fun o => { o with preempted := true }), pre := some ⟨2, u.now, u.now, ds, []⟩ }))) ∧
        (ds = [] → exec (.preemptPoint sq) s = .next (((u.setJob sq.toNat (some { j with
          step := j.step.map (fun o => { o with preempted := true }), pre := some ⟨3, u.now, u.now, ds, []⟩ })).dropJobCredits
            j.r).setFlag (kSTAT rSCHED) 17 true))) ∧
      (∀ (d : BitVec 3) (live : Word) (r : DomeRun) (u : State), (s.dome d.toNat).run = some r → p.stage = 2 → p.left = [d.toNat] →
        stageState r.map r.scan ≤ live.toNat → live.toNat ≤ j.r.liveMax → p.since + saveNs live.toNat ≤ s.now →
        s.validObj j.r.saveObj [2, 3] = none →
        u = (s.setDome d.toNat { s.dome d.toNat with run := none, saved := r :: (s.dome d.toNat).saved }).showRun d.toNat →
        u.validObj j.r.saveObj [2, 3] = none →
        exec (.saveComplete sq d live) s = .next
          (((u.setJob sq.toNat (some { j with pre := some { p with
            left := [], live := Sparse.set (fun _ => 0) p.live d.toNat live.toNat, stage := 3, since := u.now } })).dropJobCredits
              j.r).setFlag (kSTAT rSCHED) 17 true)) ∧
      (∀ ds, ds = (List.range 8).filter (fun d => bitOf j.r.domes d && (s.dome d).saved.any (fun x => x.queue == j.r.dq)) →
        p.stage = 3 → s.restoreBlocked j.r ds = false →
        exec (.restoreStart sq) s = .next
          (s.setJob sq.toNat (some { j with pre := some { p with stage := 4, since := s.now, left := ds } }))) ∧
      (∀ (d : BitVec 3) (r : DomeRun), p.stage = 4 → p.left = [d.toNat] →
        p.since + saveNs (Sparse.get (fun _ => 0) p.live d.toNat) ≤ s.now →
        (s.dome d.toNat).saved.find? (fun r => r.queue == j.r.dq) = some r →
        exec (.restoreComplete sq d) s = .next
          (((s.setDome d.toNat { s.dome d.toNat with
              run := some (r.resume s.now),
              saved := (s.dome d.toNat).saved.filter (fun y => y.queue != j.r.dq) }).showRun d.toNat).endPreempt
            sq.toNat j { p with left := [] })))

/-- R359: an acquire of a free semaphore by a job that is not pre-empted takes it; of a held one it sets DENIED. A release
by its holder frees it, by any other job it sets CFG_ERR. A hold past SEMHOLD is reported once. -/
def Obligations.Semaphores : Prop :=
  ∀ (s u : State) (i : Initiator) (sem : BitVec 6) (job : BitVec 16), u = s.touch (regionPd rSCHED) →
    (s.Reaches i (kSEM sem.toNat) (wordOf (2 ^ 16 + job.toNat)) →
      (s.sem sem.toNat = none → (∀ j, s.jobBy job.toNat = some j → j.pre = none ∧ j.suspended = false) →
        exec (.semAcquire i sem job) s = .next
          (((u.setSem sem.toNat (some { job := job.toNat, since := s.now })).setFlag (kSEM sem.toNat) 19 false).respond .ok)) ∧
      (s.sem sem.toNat ≠ none → exec (.semAcquire i sem job) s = .next ((u.setFlag (kSEM sem.toNat) 19 true).respond .ok))) ∧
    (s.Reaches i (kSEM sem.toNat) (wordOf (job.toNat + 2 * 2 ^ 16)) →
      (∀ m, s.sem sem.toNat = some m →
        (m.job = job.toNat → s.injArmed rSCHED 3 = false → s.jobBy job.toNat = none →
          exec (.semRelease i sem job) s = .next ((u.setSem sem.toNat none).respond .ok)) ∧
        (m.job ≠ job.toNat → exec (.semRelease i sem job) s = .next ((u.cfgErr rSCHED i.itag).respond .ok))) ∧
      (s.sem sem.toNat = none → exec (.semRelease i sem job) s = .next ((u.cfgErr rSCHED i.itag).respond .ok))) ∧
    (∀ (m : Sem) (j : Job), s.sem sem.toNat = some m → s.jobBy m.job = some j → m.told = false →
      j.r.semhold < cyclesIn (s.now - m.since) →
      exec (.semOverrun sem) s = .next
        (((s.setSem sem.toNat (some { m with told := true })).count rSCHED 3).raise rSCHED 17
          { detail := BitVec.ofNat 64 m.job, always := true }))

/-- R370, R372: a LOAD whose image is well formed, all finite, for a lane in service with room, loads its context for the
queue's tenant; a queue whose image fails the checks of its header ends REJ_FORMAT. R373: a FREE by the context's own
tenant, or of no context, empties the slot. -/
def Obligations.SolvContexts : Prop :=
  ∀ (s u w : State) (q : BitVec 6) (o : Op) (h bs : List Byte) (key : Nat),
    u = s.solvStart q.toNat o → key = solvKey (o.fld 0x10 7 0) (o.fld 0x10 10 8) → o.fld 0x10 31 11 = 0 →
    (∀ c, u.solvCtx key = some c → c.tenant = (u.queue rSOLV q.toNat).tenant) →
    (s.solvNext q.toNat 1 = some o → o.addr 0x18 % 64 = 0 → o.word 5 = 0#32 →
      (o.words.drop 8).any (fun w => w != 0#32) = false →
      u.txRead (some 0x48) (o.addr 0x18) 64 (some (rSOLV, q.toNat, o.index)) = (.ok h, w) →
      (solvHeader (wordsOf h) = none →
        exec (.solvLoad q) s = .next (w.conclude rSOLV q.toNat o.index stREJ_FORMAT)) ∧
      (∀ (c : SolvCtx) (e len : Nat) (t : State), solvHeader (wordsOf h) = some c → e = packedLen c.n c.w → len = 4 * (e + 2 * c.n) →
        w.txRead (some 0x48) (o.addr 0x18 + 64) len (some (rSOLV, q.toNat, o.index)) = (.ok bs, t) →
        allFin (wordsOf bs) = true → solvSpares.avail t (o.fld 0x10 7 0) = true → t.solvCtx key = none →
        ctxBytes c.n c.w ≤ t.laneFree (o.fld 0x10 7 0) →
        exec (.solvLoad q) s = .next
          ((t.setSolvCtx key (some { c with
            tenant := (u.queue rSOLV q.toNat).tenant,
            ks := (wordsOf bs).take e, bs := ((wordsOf bs).drop e).take c.n, xs := (wordsOf bs).drop (e + c.n) })).conclude
              rSOLV q.toNat o.index stDONE 0 (solvNs (240 + ceilDiv (ceilDiv (64 + len) 64 * 64) 16))))) ∧
    (s.solvNext q.toNat 2 = some o → (o.words.drop 5).any (fun w => w != 0#32) = false →
      exec (.solvFree q) s = .next ((u.setSolvCtx key none).conclude rSOLV q.toNat o.index stDONE))

/-- R376, R384: a SOLVE with its words, problems and lanes in order reads its deltas and runs its problems, and its status
comes when they end; a deterministic job's SOLVE with a reference waits for the step that supplies it and starts when that
closes. R385: the deadline cuts the problems at the cycle of its phase. R393: a SOLVE past its WCET is given up with
ERR_TIMEOUT_WCET. R398, R399: a lane fault is counted and flagged; a spare takes the lane, or it is withdrawn and answered
by cause 8. (Readings of the model: logs 44, 45, 46, 47.) -/
def Obligations.SolvesRun : Prop :=
  ∀ (s : State) (q : BitVec 6),
    (∀ (u w : State) (o : Op) (bs : List Byte) (ps ds : List SolvProb) (useRef : Bool), s.solvNext q.toNat 0x10 = some o →
      solveWordsOk o = true → flagOf (o.word 7) 16 = useRef → (useRef = true → s.refClosed o = true ∧ s.isDet o.job = true) →
      (s.solvStart q.toNat o).txRead (some 0x48) (o.addr 0x10) (32 * (o.fld 0x18 9 0 + 1)) (some (rSOLV, q.toNat, o.index)) =
        (.ok bs, u) →
      (s.solvStart q.toNat o).isDet o.job = s.isDet o.job → u.refClosed o = s.refClosed o →
      ps = probsOf (o.fld 0x18 9 0 + 1) bs → u.solveForm o ps ((s.solvStart q.toNat o).queue rSOLV q.toNat).tenant = true →
      ps.any (fun p => decide (16384 < p.ndelta) || decide (16384 < p.nref) || !solvSpares.avail u p.lane) = false →
      State.readDeltas useRef (rSOLV, q.toNat, o.index) ps u = (ds, false, w) → (∀ b, b < 5 → w.injArmed rSOLV b = false) →
      ∀ (t : State), t = ((((w.setSolvRun ⟨q.toNat, o.index, ((s.solvStart q.toNat o).queue rSOLV q.toNat).tenant, w.now, false,
          (o.word 9).toNat, false, ds, none, [], none, none⟩).setFlag (kSTAT rSOLV) 16 true).conclude rSOLV q.toNat o.index
            stDONE).solvCut).solvDue →
        t.injArmed rSOLV 2 = false →
        exec (.solve q) s = .next t ∧ (useRef = true → exec (.solveRefReady q) s = .next t)) ∧
    (∀ (o : Op), s.solvNext q.toNat 0x10 = some o → s.solveWaits o = true → exec (.solve q) s = .next s) ∧
    (∀ (r : SolvRun) (o : Op), s.solv.run = some r → s.findOp rSOLV r.queue r.index = some o → r.cut = none →
      (o.dl = true → s.reached o.deadline = true → s.incr ≠ 0 →
        exec .solveDeadline s = .next (s.setSolvRun { r with
          cut := some (solvCyc (s.now - r.start - (s.phase - (o.deadline.setWidth 96 <<< 32)).toNat / s.incr)) }).solvDue) ∧
      (o.dl = false → ∀ a, r.abortAt (s.solvRunAll r) = some (a, stERR_TIMEOUT_WCET) → a < solvCyc (s.now - r.start) →
        exec .solveWcetExpiry s = .next (s.solvGiveUp r a stERR_TIMEOUT_WCET))) ∧
    (∀ (lane : BitVec 8) (u : State), s.solv.run = none → u = (s.count rSOLV 2).raise rSOLV 16 { index := lane.toNat } →
      (u.flag (kCTRL rSOLV) 17 = true → (solvSpares.fault u lane.toNat).2.solv.run = none →
        exec (.laneFault lane) s = .next (solvSpares.fault u lane.toNat).2) ∧
      (u.flag (kCTRL rSOLV) 17 = false → ∀ t,
        t = ((((solvSpares.setAvail (solvSpares.setSt u (solvSpares.phys u lane.toNat) 2) lane.toNat false).setFlag
          (kSTAT rSOLV) 2 true).raise rSOLV 17 { index := lane.toNat }).postCause 8 false) → t.solv.run = none →
        exec (.laneFault lane) s = .next t))

/-- R408, R409: an INSTALL of a well-formed image takes a free Chart slot and becomes current 1,200 cycles and one for
every eight nodes later; a malformed one is counted, flagged and ends REJ_FORMAT. R411: a BODY of a well-formed image
loads the model that it names. R437: a SEED samples the held plan at its times, a time past the plan's end degrading it,
and without a plan ends NO_PATH. (Readings of the model: log 59.) -/
def Obligations.ChartsAndBodies : Prop :=
  ∀ (s u v : State) (q : BitVec 6) (o : Op), u = s.dropDeadOcc → v = u.occStart q.toNat o →
    (∀ (k n : Nat) (h bs : List Byte) (w t : State), u.occNext q.toNat 1 = some o →
      (List.range 3).find? (fun k => (u.slot_ k).st == 0) = some k → o.addr 0x18 % 64 = 0 → o.word 4 = 0#32 → o.word 5 = 0#32 →
      zeroWords o 8 = true →
      v.txRead (some 0x49) (o.addr 0x18) 64 (some (rOCC, q.toNat, o.index)) = (.ok h, w) →
      n = bitsOf (leNat ((h.drop 4).take 4)) 20 0 → 0 < n → n ≤ 1048576 →
      w.txRead (some 0x49) (o.addr 0x18) (0x1044 + 16 * n) (some (rOCC, q.toNat, o.index)) = (.ok bs, t) →
      (chartOf n bs = none →
        exec (.occInstall q) s = .next (((t.count rOCC 2).raise rOCC 16 { queue := q.toNat, index := o.index }).conclude rOCC
          q.toNat o.index stREJ_FORMAT 0 (occNs (1200 + ceilDiv n 8)))) ∧
      (∀ c x, chartOf n bs = some c →
        x = (t.setSlot_ k { st := 1 }).conclude rOCC q.toNat o.index stDONE 0 (occNs (1200 + ceilDiv n 8)) →
        exec (.occInstall q) s = .next
          (State.showOcc { x with occ := { x.occ with load := some ⟨q.toNat, o.index, k, c⟩ } }))) ∧
    (∀ (h bs : List Byte) (w t x : State), u.occNext q.toNat 2 = some o → o.addr 0x18 % 64 = 0 → o.fld 0x10 31 3 = 0 →
      o.word 5 = 0#32 → zeroWords o 8 = true →
      v.txRead (some 0x49) (o.addr 0x18) 64 (some (rOCC, q.toNat, o.index)) = (.ok h, w) →
      w.txRead (some 0x49) (o.addr 0x18) (64 + 32 * (bitsOf (leNat (h.take 4)) 3 0 + 1)) (some (rOCC, q.toNat, o.index)) =
        (.ok bs, t) →
      bodyStatus bs = 0 → x = t.conclude rOCC q.toNat o.index stDONE →
      exec (.occBody q) s = .next (x.setOccRun
        ⟨q.toNat, o.index, x.now, 100, 0, none, 0, none, 0, [], 0, 0, some (o.fld 0x10 2 0, bodyOf bs), none, none⟩)) ∧
    (u.occNext q.toNat 0x12 = some o → o.addr 0x10 % 16 = 0 → o.fld 0x18 31 6 = 0 → zeroWords o 10 = true →
      (v.occ.plan = none →
        exec (.seed q) s = .next (v.conclude rOCC q.toNat o.index stNO_PATH 0 (occNs (100 + 2 * (o.fld 0x18 5 0 + 1))))) ∧
      (∀ (p : Traj) (times : List Nat) (x : State), v.occ.plan = some p →
        times = (List.range (o.fld 0x18 5 0 + 1)).map (fun k => o.addr 0x20 + k * (o.word 7).toNat) →
        x = v.conclude rOCC q.toNat o.index
          (if times.any (fun t => decide (cEnd p.words < t)) then stDONE_DEGRADED else stDONE) →
        exec (.seed q) s = .next (x.setOccRun
          ⟨q.toNat, o.index, x.now, 100 + 2 * (o.fld 0x18 5 0 + 1), 0, none, 0, none, 0, [], 0, 0, none,
            some (o.addr 0x10, times.flatMap (fun t => bytesOf [(poseAt p.words p.knots t).x.1, (poseAt p.words p.knots t).y.1,
              (poseAt p.words p.knots t).yaw.1, 0#32])), none⟩)))

/-- R421–R424: a CHECK tests its candidates against the current Chart with the bodies they name, and without a Chart
reports each as NOEPOCH. R425: its deadline cuts it at the cycle of its phase. R430–R433: a SELECT with a fresh, clear
best plan and fall-back sends both, kind 0, DONE; without a Chart it sends nothing, kind 3, NO_PATH. R429: a SELECT past
its watchdog ends ERR_TIMEOUT_WCET. R434–R436: an accepted hand-off is adopted and completes its SELECT; a refused one is
counted and flagged. (Readings of the model: logs 56, 57, 58.) -/
def Obligations.ChecksAndSelects : Prop :=
  ∀ (s : State),
    (∀ (u v w x y : State) (q : BitVec 6) (o : Op) (bs : List Byte) (recs ks : List (List Word)), u = s.dropDeadOcc →
      u.occNext q.toNat 0x10 = some o → checkOk o = true → v = u.occStart q.toNat o →
      v.txRead (some 0x49) (o.addr 0x10) (64 * (o.fld 0x18 10 0 + 1)) (some (rOCC, q.toNat, o.index)) = (.ok bs, w) →
      recs = splitRecs (o.fld 0x18 10 0 + 1) (wordsOf bs) →
      recs.all (fun r => candOk r && (w.bodyModel (cFld r 0 14 12)).isSome) = true →
      distinct (recs.map (fun r => cFld r 0 10 0)) = true → State.readKnots (rOCC, q.toNat, o.index) recs w = (.ok ks, x) →
      y = x.conclude rOCC q.toNat o.index stDONE → (∀ b, b < 5 → x.injArmed rOCC b = false) →
      (x.curSlot = none →
        exec (.check q) s = .next (y.setOccRun
          ⟨q.toNat, o.index, x.now, 200 + 2 * (o.fld 0x18 10 0 + 1), (o.word 10).toNat, none, 0, none, 0,
            recs.map (fun r => ({ words := r, noepoch := true } : CandOut)), 0, 0, none, none, none⟩).occCut) ∧
      (∀ (k : Nat) (ch : Chart) (outs : List CandOut), x.curSlot = some k → (x.slot_ k).chart = some ch →
        outs = (testAll ch x.bodies (o.fld 0x1C 12 0) (recs.zip ks) false).1 →
        exec (.check q) s = .next (y.setOccRun
          ⟨q.toNat, o.index, x.now, 200 + 2 * (o.fld 0x18 10 0 + 1) + testCycles (outs.foldl (fun a c => a + c.tests) 0)
            (outs.foldl (fun a c => a + c.placed) 0), (o.word 10).toNat, some k, (x.slot_ k).epoch, none, 0, outs, 0, 0, none,
            none, none⟩).occCut)) ∧
    (∀ (r : OccRun) (o : Op), s.occ.run = some r → s.findOp rOCC r.queue r.index = some o →
      (o.opcode = 0x10 → o.dl = true → r.cut = none → s.reached o.deadline = true → s.incr ≠ 0 →
        exec .checkDeadline s = .next (s.setOccRun { r with
          cut := some ((s.now - r.start - (s.phase - (o.deadline.setWidth 96 <<< 32)).toNat / s.incr) / 2) })) ∧
      (∀ (c : Choice), o.opcode = 0x11 → r.body = none → r.write = none → r.choice = some c → r.cut = none → s.occ.load = none →
        s.dropDeadOcc = s → r.wcet ≠ 0 → r.wcet < r.cycles + r.slow → r.start + occNs r.wcet < s.now →
        exec .occWcetExpiry s = .next
          ((((s.occCounts r.tests r.tcaps).count rOCC 6).occEndRun.showOcc).finish rOCC r.queue r.index stERR_TIMEOUT_WCET))) ∧
    (∀ (u v x : State) (q : BitVec 6) (o : Op), u = s.dropDeadOcc → u.occNext q.toNat 0x11 = some o → selectOk o = true →
      v = u.occStart q.toNat o →
      (v.curSlot = none → v.injArmed rOCC 3 = false → x = v.conclude rOCC q.toNat o.index stDONE →
        exec (.select q) s = .next (x.setOccRun
          ⟨q.toNat, o.index, x.now, 506, (o.word 7).toNat, none, 0, none, 0, [], 0, 0, none, none,
            some ⟨3, none, none, [], [], stNO_PATH, handOffRecord 3 stNO_PATH 0 o.step (o.word 5).toNat none none,
              BitVec.ofNat 64 (0x7FF + 0x7FF * 2 ^ 11 + (3 + (if v.occ.missed.contains o.step then 4 else 0) + 16) * 2 ^ 32)⟩⟩)) ∧
      (∀ (k : Nat) (ch : Chart) (e f : OccEntry) (es fs : List OccEntry) (b1 b2 b3 b4 : List Byte) (w1 w2 w3 w4 : State) (p g : Traj),
        v.curSlot = some k → (v.slot_ k).chart = some ch → v.eligible o.step false = e :: es → w1.eligible o.step true = f :: fs →
        e.epoch = (v.slot_ k).epoch → f.epoch = (v.slot_ k).epoch → (∀ b, b < 5 → w4.injArmed rOCC b = false) →
        v.injArmed rOCC 3 = false → w2.injArmed rOCC 3 = false →
        v.txRead (some 0x49) (cAddr e.words 8) (16 * cNk e.words) (some (rOCC, q.toNat, o.index)) = (.ok b1, w1) →
        w1.txRead (some 0x49) (cAddr f.words 8) (16 * cNk f.words) (some (rOCC, q.toNat, o.index)) = (.ok b2, w2) →
        p = ⟨e.words, wordsOf b1, (v.slot_ k).epoch⟩ → g = ⟨f.words, wordsOf b2, (v.slot_ k).epoch⟩ →
        w2.readBlock (some p) (rOCC, q.toNat, o.index) = (.ok b3, w3) → w3.readBlock (some g) (rOCC, q.toNat, o.index) = (.ok b4, w4) →
        x = w4.conclude rOCC q.toNat o.index stDONE →
        exec (.select q) s = .next (x.setOccRun
          ⟨q.toNat, o.index, x.now, 506 + ceilDiv (b3.length + b4.length) 128, (o.word 7).toNat, some k, (v.slot_ k).epoch, none, 0,
            [], 0, 0, none, none,
            some ⟨0, some p, some g, b3, b4, stDONE,
              handOffRecord 0 stDONE (v.slot_ k).epoch o.step (o.word 5).toNat (some p) (some g),
              BitVec.ofNat 64 (p.cid + g.cid * 2 ^ 11 + (if w4.occ.missed.contains o.step then 4 else 0) * 2 ^ 32)⟩⟩))) ∧
    (∀ (w : OccWait) (rep : Nat) (u : State), s.drive.report = some rep → s.occ.wait = some w →
      u = { s with drive := { s.drive with report := none }, occ := { s.occ with wait := none } } →
      (rep = 0 → w.choice.status = stDONE →
        exec .handoffReport s = .next ((u.adopt w.choice).showOcc.finish rOCC w.queue w.index stDONE w.choice.result)) ∧
      (rep = 1 → exec .handoffReport s = .next
        ((((u.count rOCC 7).raise rOCC 19 { queue := w.queue, index := w.index }).showOcc).finish rOCC w.queue w.index stERR_DATA
          w.choice.result)))

/-- R173, R347, R374, R410, R457, R478, R647: a NOP that its queue may start next (of the checker and of the Security
part: that the engine takes next) completes DONE, and does nothing else. -/
def Obligations.NopsComplete : Prop :=
  ∀ (s : State) (q : BitVec 6) (o : Op), o.opcode = 3 →
    (∀ (dome : BitVec 3), s.nextOp dome.toNat q.toNat = some o →
      exec (.domeNop dome q) s = .next ((s.start dome.toNat q.toNat o).finish dome.toNat q.toNat o.index stDONE)) ∧
    (s.nextOp rSCHED q.toNat = some o →
      exec (.schedNop q) s = .next ((s.start rSCHED q.toNat o).finish rSCHED q.toNat o.index stDONE)) ∧
    (s.nextOp rSOLV q.toNat = some o →
      exec (.solvNop q) s = .next ((s.start rSOLV q.toNat o).finish rSOLV q.toNat o.index stDONE)) ∧
    (∀ (m : BitVec 5), s.nextOp rAFU m.toNat = some o →
      exec (.afuNop m) s = .next ((s.start rAFU m.toNat o).finish rAFU m.toNat o.index stDONE)) ∧
    (∀ (d : BitVec 1), s.nextOp rDRIVE d.toNat = some o →
      exec (.driveNop d) s = .next ((s.start rDRIVE d.toNat o).finish rDRIVE d.toNat o.index stDONE)) ∧
    (s.nextOp rLNK q.toNat = some o →
      exec (.lnkNop q) s = .next ((s.start rLNK q.toNat o).finish rLNK q.toNat o.index stDONE)) ∧
    (s.nextOp rSEC q.toNat = some o → s.inFlight rSEC = false → s.pick rSEC = some q.toNat →
      exec (.secNop q) s = .next ((s.start rSEC q.toNat o).finish rSEC q.toNat o.index stDONE)) ∧
    (s.dropDeadOcc.occNext q.toNat 3 = some o →
      exec (.occNop q) s = .next ((s.dropDeadOcc.occStart q.toNat o).finish rOCC q.toNat o.index stDONE))

/-- R446: a sample of a SILENT sensor brings it to ACQUIRE, and four periods without one take it to SILENT, counted in
BLK_ECNT4. R444: a camera's frame start pairs with the oldest trigger in whose window it lies, or is counted as unpaired.
R445: the first reference event of a sensor bases its map on its trigger 3 ns after the match. R462, R463: a paired frame
is published, and a trigger whose window has passed without one publishes a NOP; a lidar's points are published once for
each instant. (Readings of the model: logs 61, 62, 63.) -/
def Obligations.SensorsFollow : Prop :=
  ∀ (s : State) (n : BitVec 5) (ts : DWord), s.senOn n.toNat = true →
    (s.pdDown (regionPd rAFU) = false → ∀ u, u = s.putSen n.toNat { s.sen n.toNat with lastSample := s.now } →
      (u.senState n.toNat = 4 → exec (.sensorSample n ts) s = .next (u.setSen n.toNat 1)) ∧
      (u.senState n.toNat = 1 → 3 ≤ s.senKind n.toNat → exec (.sensorSample n ts) s = .next (u.setSen n.toNat 2)) ∧
      (u.senState n.toNat = 2 → s.senKind n.toNat = 1 →
        (∀ fs, pairFrame u.now (u.sen n.toNat).fwin 0 (u.sen n.toNat).frames = some fs →
          exec (.sensorSample n ts) s = .next (u.putSen n.toNat { u.sen n.toNat with frames := fs })) ∧
        (pairFrame u.now (u.sen n.toNat).fwin 0 (u.sen n.toNat).frames = none →
          exec (.sensorSample n ts) s = .next (u.addSat (kSEN n.toNat 2) 15 3 1)))) ∧
    (∀ (m : Nat) (rest : List Nat) (z : Int), (s.sen n.toNat).refs = m :: rest → (s.sen n.toNat).ref = none → m ≤ s.now →
      (s.senState n.toNat = 1 ∨ s.senState n.toNat = 2 ∨ s.senState n.toNat = 3) → s.injArmed rAFU 3 = false →
      (s.sen n.toNat).map ts.toNat = some z →
      exec (.sensorRefEvent n ts) s = .next (s.putSen n.toNat { s.sen n.toNat with
        refs := rest, ref := some (ts.toNat, m + 3), mapTs := ts.toNat, mapT := ((m + 3 : Nat) : Int), num := 1, den := 1 })) ∧
    (s.senState n.toNat = 2 ∨ s.senState n.toNat = 3 → (s.sen n.toNat).lastSample + 4 * s.senPer n.toNat ≤ s.now →
      exec (.sensorSilentTimeout n) s = .next ((s.setSen n.toNat 4).count rAFU 4)) ∧
    (∀ (m : Nat) (capt : Option Nat) (rest : List (Nat × Option Nat)), s.senKind n.toNat = 1 →
      (s.sen n.toNat).frames = (m, capt) :: rest →
      (capt.isSome = true → exec (.l1Frame n) s = .next
        ((s.putSen n.toNat { s.sen n.toNat with frames := rest }).l1Publish n.toNat true)) ∧
      (capt = none → m + (s.sen n.toNat).fwin < s.now → exec (.frameWindowExpiry n) s = .next
        ((s.putSen n.toNat { s.sen n.toNat with frames := rest }).l1Publish n.toNat false))) ∧
    (∀ (b : Bound) (t : Nat), s.senKind n.toNat = 2 → (s.senState n.toNat = 2 ∨ s.senState n.toNat = 3) →
      (s.str (s.senStream n.toNat)).bound.find? (fun b => some b.phase != (s.sen n.toNat).moved) = some b →
      s.timeOf b.phase = some t → (s.sen n.toNat).points.any (fun p => decide (t < p)) = true →
      exec (.lidarInstantMove n) s = .next
        ((s.putSen n.toNat { s.sen n.toNat with moved := some b.phase }).l1Publish n.toNat true))

/-- R449: an ISSUE is bound to its stream's next instant, or misses its deadline. R451, R453: a CONTRIB of a locked sensor
in time binds to the first instant that its capture reaches. R460: the ego's quality follows its inputs, and LOST is
counted, flagged and answered by cause 6. R461: a pose a millisecond. R450, R457: the fusion deadline issues the first
instant whose phase has come, and one without an instant is counted. (Readings of the model: logs 60, 63, 64, 66.) -/
def Obligations.FusionInstants : Prop :=
  ∀ (s : State),
    (∀ (m : BitVec 4) (o : Op) (u v : State) (p : DWord) (t : Nat), s.nextOp rAFU m.toNat = some o → o.opcode = 1 →
      s.flag (kSTR m.toNat) 17 = true → (s.str m.toNat).bound = [] → o.addr 0x10 % 128 = 0 → o.addr 0x18 % 64 = 0 →
      o.addr 0x20 % 64 = 0 → zeroWords o 10 = true → u = s.start rAFU m.toNat o →
      p = BitVec.ofNat 64 (u.instantAfter m.toNat
        ((s.str m.toNat).last.elim u.phase64.toNat BitVec.toNat)) →
      v = u.putStr m.toNat { s.str m.toNat with last := some p } → v.timeOf p = some t →
      (v.now ≤ t + v.agemax m.toNat → exec (.afuIssue m) s = .next (v.putStr m.toNat { v.str m.toNat with
        bound := [⟨m.toNat, o.index, p, o.addr 0x10, o.addr 0x18, o.addr 0x20, []⟩] })) ∧
      (t + v.agemax m.toNat < v.now →
        exec (.afuIssue m) s = .next ((v.count rAFU 3).finish rAFU m.toNat o.index stMISS_DEADLINE))) ∧
    (∀ (q : BitVec 4) (o : Op) (n m : Nat) (b : Bound) (bs : List Byte) (t : Nat) (u v : State),
      s.nextOp rAFU (16 + q.toNat) = some o → o.opcode = 2 → contribOk o = true → n = o.fld 0x10 4 0 → m = s.senStream n →
      o.fld 0x10 6 5 = 0 → s.senState n = 2 → s.injArmed rAFU 2 = false → (s.str m).bound = [b] → s.timeOf b.phase = some t →
      o.addr 0x18 ≤ t + 1000 →
      (∀ t', s.timeOf (BitVec.ofNat 64 (s.instantBefore m b.phase.toNat)) = some t' → t' + 1000 < o.addr 0x18) →
      u = (s.start rAFU (16 + q.toNat) o).egoRefresh → (s.start rAFU (16 + q.toNat) o).timeOf b.phase = some t →
      t ≤ o.addr 0x18 + u.agemax m → u.inTable (o.addr 0x18) = true → o.fld 0x14 12 0 ≠ 0 →
      u.txRead (some 0x4A) (o.addr 0x20) (48 * o.fld 0x14 12 0) (some (rAFU, 16 + q.toNat, o.index)) = (.ok bs, v) →
      exec (.afuContrib q) s = .next
        ((v.bindContrib m b ⟨n, 0, o.addr 0x18, false, bs⟩).conclude rAFU (16 + q.toNat) o.index stDONE)) ∧
    (s.pdDown (regionPd rAFU) = false →
      (∀ p ps, s.afu.poses = p :: ps → p.time + 1000000 ≤ s.now →
        exec .egoPoseTick s = .next { (s.drawWords 11).2 with afu := { (s.drawWords 11).2.afu with
          poses := ⟨(s.drawWords 11).2.now, (s.drawWords 11).1⟩ :: (s.drawWords 11).2.afu.poses.take 4095 } }) ∧
      (∀ (points : Nat) (eig : Word) (u : State), u = s.egoRefresh →
        exec (.egoUpdate 0 points eig) s = .next (State.egoRefresh { u with afu := { u.afu with lastImu := some u.now } }) ∧
        exec (.egoUpdate 2 points eig) s = .next (State.egoRefresh { u with afu := { u.afu with lastFix := some u.now } }) ∧
        exec (.egoUpdate 3 points eig) s = .next (State.egoRefresh { u with afu := { u.afu with lastWheel := some u.now } }) ∧
        (u.injArmed rAFU 5 = false → points < 500 →
          exec (.egoUpdate 1 points eig) s = .next (u.addSat (rk rAFU 1 0x19C) 31 16 1).egoRefresh)) ∧
      (∀ u, recent s s.afu.lastImu 20000000 = false →
        u = State.setFld { s with afu := { s.afu with inertialSince := none } } (kSTAT rAFU) 18 16 3 →
        (s.egoq ≠ 3 →
          exec .egoLostTimeout s = .next (((u.count rAFU 7).raise rAFU 18 { always := true }).postCause 6 false) ∧
          exec .egoUpdateAgeTimeout s = .next (((u.count rAFU 7).raise rAFU 18 { always := true }).postCause 6 false)) ∧
        (s.egoq = 3 → exec .egoLostTimeout s = .next u ∧ exec .egoUpdateAgeTimeout s = .next u))) ∧
    (∀ (d : Dispatched) (u : State) (m : Nat), s.takeDue Action.isFusion = some (d, u) → d.action = .fusion m →
      (u.dropsAt rAFU = true → exec .fusionDeadline s = .next (u.dropAction d.slot)) ∧
      (u.dropsAt rAFU = false → (u.slotFired d.slot).dueInstant m d = none →
        exec .fusionDeadline s = .next ((u.slotFired d.slot).addSat (kSTR m) 31 18 1)) ∧
      (u.dropsAt rAFU = false → ∀ (b : Bound) (v w x y : State) (t : Nat), (u.slotFired d.slot).dueInstant m d = some b →
        v = (u.slotFired d.slot).lidarMoves m b → v.opAlive rAFU m b.index = true → w = v.egoRefresh → w.timeOf b.phase = some t →
        (w.gather m t b).2.1 = [] → w.flag (rk rAFU 3 0x100) 0 = false → w.injArmed rAFU 0 = false → w.injArmed rAFU 1 = false →
        x = w.unbindInstant m b → (w.gather m t b).1 = [] →
        y = x.trackStep t false [] →
        exec .fusionDeadline s = .next (y.issueOut m b t (w.listed m b [] (w.gather m t b).2.2) ⟨false, false, false, 0, false⟩
          (x.gridBytes m t []).1 ((x.gridBytes m t []).2 ||| 0))))

/-- R482, R486: a sample action reads its loop's sensors and joins its core's queue; one too early is counted in
BLK_ECNT3. R480, R481, R484: a sample that its core runs steps the loop from its state and inputs; x̂, z and u are
written, and it is logged. R503: a core mismatch is counted and flagged, and a spare runs the sample again. R479: a
command to DRIVE_LCMD enables a loop whose descriptor is well formed, disables one that is enabled, arms a SWAP to a
well-formed shadow and resets a loop in FAULT; one that does not fit the loop's state has result 3. (Readings of the
model: logs 50, 51, 53.) -/
def Obligations.LoopsSample : Prop :=
  ∀ (s : State),
    (∀ (d : Dispatched) (u : State) (l : Nat), s.takeDue Action.isSample = some (d, u) → d.action = .sample l →
      (u.dropsAt rDRIVE = true → exec .sampleAction s = .next (u.dropAction d.slot)) ∧
      (u.dropsAt rDRIVE = false → (u.slotFired d.slot).loopState l ≠ 0 →
        ((u.slotFired d.slot).sampleEarly l (d.due - 10) = true →
          exec .sampleAction s = .next ((u.slotFired d.slot).count rDRIVE 3)) ∧
        (∀ (x : LoopDesc) (y : List Word) (stale : Bool) (v w : State), (u.slotFired d.slot).sampleEarly l (d.due - 10) = false →
          ((u.slotFired d.slot).aux l).swap = false → (u.slotFired d.slot).loopDesc l = some x →
          State.snapAll l x (List.range x.ny) (u.slotFired d.slot) = (y, stale, v) →
          w = v.setAux l { v.aux l with lastMatch := some (d.due - 10), errs := v.encErrs } →
          exec .sampleAction s = .next
            (w.setCoreQueue x.core (insertSample ⟨l, d.slot, d.due, y, stale⟩ (w.coreQueue x.core)))))) ∧
    (∀ (core : BitVec 2) (x : Sample) (rest : List Sample) (d : LoopDesc) (u : State), s.coreQueue core.toNat = x :: rest →
      x.due ≤ s.now → Sparse.get (fun _ => 0) s.drive.busy core.toNat ≤ 4 * s.now → u = s.setCoreQueue core.toNat rest →
      u.loopState x.loop = 1 → (∀ b, b < 5 → u.injArmed rDRIVE b = false) → (u.aux x.loop).swap = false → u.loopDesc x.loop = some d →
      (∀ (st : List Word) (v w : State) (n b : Nat) (o : SampleOut), d.refsrc ≠ 1 → u.sramWords (stateOff x.loop) 49 = some st →
        o = d.step (st.take d.nx) ((st.drop 24).take d.ni) x.y ((List.range d.nr).map (fun i => d.v 0x300 i)) →
        n = (st.getD 48 0#32).toNat → n % d.outdiv ≠ 0 → x.stale = false → o.finite = true →
        b = Nat.max (4 * x.due) (Sparse.get (fun _ => 0) u.drive.busy core.toNat) →
        v = { u with drive := { u.drive with busy := Sparse.set (fun _ => 0) u.drive.busy core.toNat (b + 5 * d.ttotal + 0) } } →
        w = (((v.setAux x.loop { v.aux x.loop with staleRun := 0 }).sramWrite (stateOff x.loop) (bytesOf o.xn)).sramWrite
          (stateOff x.loop + 0x60) (bytesOf o.zn)).sramWrite (stateOff x.loop + 0x90) (bytesOf o.u) →
        ∀ (lat : Nat) (z : State), lat = b + 5 * d.tu - 4 * (x.due - 10) →
          z = w.endSample x.loop n lat d.latmax true false (o.sat.any id) → v.injArmed rDRIVE 3 = false →
          exec (.sampleExecute core) s = .next (z.logAll ⟨x.loop, x.due - 10, n,
            flagsOf (o.sat.any id) (o.hold.any id) false (z.loopState x.loop == 2) (d.latmax != 0 && decide (4 * d.latmax < lat))
              (z.flag kPLANSTAT 8) false false,
            maskOf o.sat, maskOf o.hold, Nat.min 255 (lat / 40),
            [st.take d.nx, o.e, (st.drop 24).take d.ni, o.upre, o.u, (List.range d.nr).map (fun i => d.v 0x300 i), x.y], o.e⟩)) ∧
      (∀ (ok : Bool) (v : State), driveSpares.fault ((u.count rDRIVE 2).raise rDRIVE 19 { index := core.toNat }) core.toNat = (ok, v) →
        (ok = true → exec (.driveCoreMismatch core) s = .next (v.runSample core.toNat d x true)) ∧
        (ok = false → exec (.driveCoreMismatch core) s = .next ((v.faultCore core.toNat).faultSample d x)))) ∧
    (∀ (i : Initiator) (loop : BitVec 6) (u : State),
      u = (s.touch (regionPd rDRIVE)).wr kLCMD (BitVec.ofNat 32 loop.toNat) →
      (∀ d, s.Reaches i kLCMD (loopWord loop 1) → u.loopState loop.toNat = 0 → u.loopDesc loop.toNat = some d →
        (d.ok = true → exec (.loopEnable i loop) s = .next
          (((u.startLoop loop.toNat d true).setFld kLCMDSTAT 2 0 0).respond .ok)) ∧
        (d.ok = false → exec (.loopEnable i loop) s = .next ((u.setFld kLCMDSTAT 2 0 2).respond .ok))) ∧
      (s.Reaches i kLCMD (loopWord loop 2) →
        (u.loopState loop.toNat ≠ 0 → exec (.loopDisable i loop) s = .next
          ((((u.setFld (kLSTAT loop.toNat) 1 0 0).setAux loop.toNat { u.aux loop.toNat with swap := false, lastMatch := none }).setFld
            kLCMDSTAT 2 0 0).respond .ok)) ∧
        (u.loopState loop.toNat = 0 → exec (.loopDisable i loop) s = .next ((u.setFld kLCMDSTAT 2 0 3).respond .ok))) ∧
      (∀ d, s.Reaches i kLCMD (loopWord loop 3) → u.loopState loop.toNat ≠ 0 → u.shadowDesc loop.toNat = some d → d.ok = true →
        (u.swapBadCols d = false → exec (.loopSwap i loop) s = .next
          (((u.setAux loop.toNat { u.aux loop.toNat with swap := true }).setFld kLCMDSTAT 2 0 0).respond .ok)) ∧
        (u.swapBadCols d = true → exec (.loopSwap i loop) s = .next ((u.setFld kLCMDSTAT 2 0 4).respond .ok))) ∧
      (s.Reaches i kLCMD (loopWord loop 4) →
        (∀ d, u.loopState loop.toNat = 2 → u.loopDesc loop.toNat = some d → exec (.loopReset i loop) s = .next
          (((u.startLoop loop.toNat d false).setFld kLCMDSTAT 2 0 0).respond .ok)) ∧
        (u.loopState loop.toNat ≠ 2 → exec (.loopReset i loop) s = .next ((u.setFld kLCMDSTAT 2 0 3).respond .ok))))

/-- R489: a hand-off record that has arrived becomes the pending hand-off when its form is right, its channels having
captured it, and the verdict of the channel in DRIVE_HOCVU passes it. R492: a SWITCH of the pending, passed hand-off of
its step and occurrence accepts it and completes DONE; without one it completes DONE_PREV. R494: a hand-off older than
HOTMO is rejected as late. R495: FLY, and AUTOMS without an accepted SWITCH, fly the fall-back, once for each lapse.
(Readings of the model: log 52.) -/
def Obligations.HandOffs : Prop :=
  ∀ (s : State),
    (s.drive.arrived = true → ∀ (u v : State) (bs : List Byte), u = (List.range 32).foldl (fun s n => s.captureFrame n) s →
      State.sramRead { u with drive := { u.drive with arrived := false } } 0x260000 64 = some bs →
      v = (State.setHandOff { u with drive := { u.drive with arrived := false } }
          (some ⟨bitsOf (leNat ((bs.drop 0).take 4)) 1 0, bitOf (leNat ((bs.drop 0).take 4)) 2, bitOf (leNat ((bs.drop 0).take 4)) 3,
            leNat ((bs.drop 8).take 4), leNat ((bs.drop 0x0C).take 4), u.now, false⟩)).wr (rk rDRIVE 1 0x108)
          (BitVec.ofNat 32 (leNat ((bs.drop 8).take 4))) →
      v.handOffOk bs = true →
      exec .handoffRecord s = .next { v with drive := { v.drive with inRxp := 0, inRxf := 0 } }) ∧
    (∀ (ch : BitVec 5) (f : CvuFrame) (c : Nat) (u : State), (s.cvuChan ch.toNat).frame = some f →
      (∀ b, b < 3 → s.cvuInj ch.toNat b = false) → c = s.fld (kCH ch.toNat 4) 8 2 →
      u = (s.deliver ch.toNat c f.cause (Sparse.get (fun _ => 0) (s.cvuChan ch.toNat).counts c) f.value false).afterVerdict ch.toNat c →
      (u.fld (rk rDRIVE 1 0x114) 4 0 ≠ ch.toNat → exec (.handoffVerdict ch) s = .next u) ∧
      (u.fld (rk rDRIVE 1 0x114) 4 0 = ch.toNat → ∀ h, u.drive.ho = some h → h.passed = false → u.injArmed rDRIVE 4 = false →
        (f.cause = 0 → exec (.handoffVerdict ch) s = .next (u.setHandOff (some { h with passed := true }))) ∧
        (f.cause ≠ 0 → exec (.handoffVerdict ch) s = .next (u.rejectHandOff 1 true)))) ∧
    (∀ (o : Op) (u : State), s.nextOp rDRIVE 0 = some o → o.opcode = 1 → u = s.start rDRIVE 0 o →
      (u.drive.ho = none → exec .switch s = .next (u.finish rDRIVE 0 o.index stDONE_PREV)) ∧
      (∀ h, u.drive.ho = some h →
        (h.step = o.step → h.switch = o.occ.toNat → h.passed = true →
          exec .switch s = .next ((u.acceptHandOff h).finish rDRIVE 0 o.index stDONE (BitVec.ofNat 64 (h.kind + 4)))) ∧
        (h.passed = false → h.step ≤ o.step →
          exec .switch s = .next ((u.rejectHandOff 2 true).finish rDRIVE 0 o.index stDONE_PREV (BitVec.ofNat 64 h.kind))))) ∧
    (∀ h, s.drive.ho = some h → h.since + 1000000 * s.fld (rk rDRIVE 1 0x118) 15 0 ≤ s.now →
      exec .handoffTimeout s = .next (s.rejectHandOff 2 false)) ∧
    (∀ (i : Initiator) (v : Word), s.Reaches i (rk rDRIVE 1 0x110) (withFlag v 0 true) →
      exec (.fly i v) s = .next ((s.touch (regionPd rDRIVE)).fly.respond .ok)) ∧
    (s.fld kFBCFG 15 0 ≠ 0 →
      (s.drive.autoDone = true → exec .autoFly s = .next s) ∧
      (s.drive.autoDone = false → s.drive.autoBase + 1000000 * s.fld kFBCFG 15 0 ≤ s.now →
        exec .autoFly s = .next (State.fly { s with drive := { s.drive with autoDone := true } })))

/-- R511–R516: a complete frame of the context whose turn it is gets the verdict that its check value gives against the
expected one, and the channel passes to its next context 40 ns later. R509: a context word in range is written while no
channel in service names the context. R517: a channel's configuration starts it at its first context. R501: a DUMP ends a
recording and puts the records out. R498: a MODE that is not reserved and does not overlap another channel's arms the
channel. (Readings of the model: logs 54, 55.) -/
def Obligations.VerdictsAndLogbook : Prop :=
  ∀ (s : State) (ch : BitVec 5),
    (∀ (ctx : BitVec 7) (data : List Byte) (v : Nat), s.pdDown (regionPd rCVU) = false → s.cvuOn ch.toNat = true →
      s.cvuNames ch.toNat ctx.toNat = true → cvuSpares.avail s ch.toNat = true → (s.cvuCtx ctx.toNat).mode = 0 →
      s.fld (kCH ch.toNat 4) 1 0 = 1 → s.fld (kCH ch.toNat 4) 8 2 = ctx.toNat → (∀ b, b < 3 → s.cvuInj ch.toNat b = false) →
      (s.cvuCtx ctx.toNat).bad = false → (s.cvuCtx ctx.toNat).len = data.length → (s.cvuCtx ctx.toNat).expsrc = 0 →
      v = checkValue (s.cvuCtx ctx.toNat).alg data →
      exec (.cvuFrameEnd ch ctx data 0) s = .next
        ((s.deliver ch.toNat ctx.toNat
          (if v = (s.cvuCtx ctx.toNat).expect % 2 ^ (if (s.cvuCtx ctx.toNat).alg = 1 then 64 else 32) then 0 else 6)
          (Sparse.get (fun _ => 0) (s.cvuChan ch.toNat).counts ctx.toNat) v false).afterVerdict ch.toNat ctx.toNat)) ∧
    (∀ v, v = s.rd (kCH ch.toNat 0) → s.fld (kCH ch.toNat 4) 1 0 = 2 → (s.cvuChan ch.toNat).verdictAt + 40 ≤ s.now →
      exec (.cvuContextAdvance ch) s = .next
        ((s.setFld (kCH ch.toNat 4) 8 2 (cfgFirst v + (s.fld (kCH ch.toNat 4) 8 2 - cfgFirst v + 1) % cfgCount v)).setFld
          (kCH ch.toNat 4) 1 0 1)) ∧
    (∀ (i : Initiator) (word : BitVec 3) (v : Word) (u : State) (c : Nat), s.Reaches i (rk rCVU 2 (0x104 + 4 * word.toNat)) v →
      u = s.touch (regionPd rCVU) → c = u.fld kCTXSEL 6 0 →
      (ctxWordOk word.toNat v = true → (List.range 32).any (fun n => u.cvuNames n c) = false →
        exec (.cvuContextWrite i word v) s = .next
          ((u.setCvuCtx c { ws := (u.cvuCtx c).ws.set word.toNat v, bad := false }).respond .ok)) ∧
      (ctxWordOk word.toNat v = false ∨ (List.range 32).any (fun n => u.cvuNames n c) = true →
        exec (.cvuContextWrite i word v) s = .next ((u.cfgErr rCVU i.itag).respond .ok))) ∧
    (∀ (i : Initiator) (v : Word) (u : State), s.Reaches i (kCH ch.toNat 0) v → u = s.touch (regionPd rCVU) →
      cfgFirst v + (cfgCount v - 1) ≤ 127 → flagOf v 0 = true → flagOf (u.rd (kCH ch.toNat 0)) 0 = false →
      ((List.range (cfgCount v)).map (fun i => u.cvuCtx (cfgFirst v + i))).all
        (fun c => c.runnable && (c.mode != 2 || cfgCount v == 1)) = true →
      exec (.cvuChannelCfgWrite i ch v) s = .next
        (((((u.writeGeneric (kCH ch.toNat 0) i.itag v).setCvuChan ch.toNat {}).setFld (kCH ch.toNat 4) 8 2 (cfgFirst v)).setFld
          (kCH ch.toNat 4) 1 0 1).respond .ok)) ∧
    (∀ (o : Op) (u w : State) (c n : Nat), s.nextOp rDRIVE 1 = some o → o.opcode = 2 → o.fld 0x10 31 3 = 0 → c = o.fld 0x10 2 0 →
      o.addr 0x18 % 64 = 0 → o.word 5 = 0#32 → (o.words.drop 8).any (fun w => w != 0#32) = false →
      u = (if (s.start rDRIVE 1 o).fld (kLB c 0x18) 1 0 = 1 ∨ (s.start rDRIVE 1 o).fld (kLB c 0x18) 1 0 = 2
        then (s.start rDRIVE 1 o).setFld (kLB c 0x18) 1 0 3 else s.start rDRIVE 1 o) →
      State.dumpRecs 1 o (o.addr 0x18) (u.logChan c).recs 0 u = (.ok n, w) →
      exec .dump s = .next (w.conclude rDRIVE 1 o.index stDONE (BitVec.ofNat 64 n))) ∧
    (∀ (i : Initiator) (c : BitVec 3) (v : Word) (u : State), s.Reaches i (kLB c.toNat 0) v → u = s.touch (regionPd rDRIVE) →
      (fieldOf v 14 13 = 3 → exec (.logbookModeWrite i c v) s = .next ((u.cfgErr rDRIVE i.itag).respond .ok)) ∧
      (fieldOf v 14 13 = 0 → exec (.logbookModeWrite i c v) s = .next
        (((u.writeGeneric (kLB c.toNat 0) i.itag v).setFld (kLB c.toNat 0x18) 1 0 0).respond .ok)) ∧
      (∀ w, fieldOf v 14 13 ≠ 3 → fieldOf v 14 13 ≠ 0 →
        (List.range 8).any (fun b => b != c.toNat && u.fld (kLB b 0) 14 13 != 0 && u.logOverlap c.toNat b) = false →
        w = (u.writeGeneric (kLB c.toNat 0) i.itag v).setFld (kLB c.toNat 0x18) 2 0 1 →
        exec (.logbookModeWrite i c v) s = .next
          (((w.setFld (kLB c.toNat 0x1C) 20 0 (w.fld (kLB c.toNat 8) 20 0)).setLogChan c.toNat {}).respond .ok)))

/-- R547, R548: a report is numbered at its source and joins the input queue, at most 64. R549: 50 ns after the last write
the oldest report goes into ring entry NLWR mod 1,024. R550: into a full ring it is dropped instead. R551: a source's
last-slot record is written, with LASTOF, as soon as the ring has a free entry. R558: NLRD takes a value between its own
and NLWR. R555, R556: a write of a grant word starts the time, drops the injections of the regions it takes the right
from, and at WATCH_TRTMO every grant goes. R567, R590: an FWL command is carried out when it completes, and one to a
locked descriptor is refused. (Readings of the model: log 20.) -/
def Obligations.NightLogAndRights : Prop :=
  ∀ (s : State),
    (∀ (src : BitVec 6) (code : BitVec 5) (inj : Bool) (itag : Itag) (ecnt : BitVec 4) (detail : DWord) (queue index : BitVec 16)
      (n : Nat) (u : State), src.toNat < 40 → n = Sparse.get (fun _ => 0) s.log.seq src.toNat →
      u = { s.addSat (rk rWATCH 7 (0x600 + 4 * src.toNat)) 31 0 1 with
        log := { (s.addSat (rk rWATCH 7 (0x600 + 4 * src.toNat)) 31 0 1).log with
          seq := Sparse.set (fun _ => 0) s.log.seq src.toNat (n + 1) } } →
      (s.log.input.length < 64 →
        exec (.nightLogReport src code inj itag ecnt detail queue index) s = .next { u with log := { u.log with
          input := s.log.input ++ [⟨src.toNat, code.toNat, inj, false, itag, ecnt.toNat, n, s.phase64, detail, queue.toNat,
            index.toNat⟩] } }) ∧
      (64 ≤ s.log.input.length →
        exec (.nightLogReport src code inj itag ecnt detail queue index) s = .next (u.dropReport
          ⟨src.toNat, code.toNat, inj, false, itag, ecnt.toNat, n, s.phase64, detail, queue.toNat, index.toNat⟩))) ∧
    (∀ (r : Report) (rest : List Report) (u : State), s.log.input = r :: rest → u = { s with log := { s.log with input := rest } } →
      (s.nlFull = true → exec .nightLogWrite s = .next (u.dropReport r)) ∧
      (s.nlFull = false → s.lastSlot r.src = none → s.nlReady = true →
        exec .nightLogWrite s = .next (State.wr { s with
          log := { s.log with
            input := rest, lastWrite := some s.now,
            ring := Sparse.set (fun _ => none) s.log.ring ((s.rd kNLWR).toNat % 1024) (some r) },
          watch := { s.watch with badRecords := s.watch.badRecords.filter (fun x => x != (s.rd kNLWR).toNat % 1024) } }
          kNLWR (s.rd kNLWR + 1)))) ∧
    (∀ l, s.nextLast = some l → s.nlFull = false → s.nlReady = true → exec .lastslotWrite s = .next (State.wr { s with
      log := { s.log with
        last := Sparse.set (fun _ => none) s.log.last l.src none, lastWrite := some s.now,
        ring := Sparse.set (fun _ => none) s.log.ring ((s.rd kNLWR).toNat % 1024) (some { l with lastOf := true }) },
      watch := { s.watch with
        badRecords := (s.watch.badRecords.filter (fun x => x != 1024 + l.src)).filter (fun x => x != (s.rd kNLWR).toNat % 1024) } }
      kNLWR (s.rd kNLWR + 1))) ∧
    (∀ (i : Initiator) (v : Word) (u : State), u = s.touch (regionPd rWATCH) →
      (s.Reaches i kNLRD v →
        ((u.rd kNLRD).toNat ≤ v.toNat → v.toNat ≤ (u.rd kNLWR).toNat →
          exec (.nlrdWrite i v) s = .next ((u.wr kNLRD v).respond .ok)) ∧
        (v.toNat < (u.rd kNLRD).toNat ∨ (u.rd kNLWR).toNat < v.toNat →
          exec (.nlrdWrite i v) s = .next ((u.cfgErr rWATCH i.itag).respond .ok))) ∧
      (∀ (hi : Bool) (k : Nat) (w : State), k = (if hi then kTRGRANT + 4 else kTRGRANT) → s.Reaches i k v →
        w = u.writeGeneric k i.itag v → v ≠ 0#32 → ∀ x, x = State.count { w with watch := { w.watch with trTime := s.now } } rWATCH 7 →
        exec (.trgrantWrite i hi v) s = .next
          ((((List.range 40).foldl (fun a r => if u.testRights r && !x.testRights r then a.wr (kEINJ r) (regReset (kEINJ r)) else a)
            x)).respond .ok))) ∧
    (s.rd kTRGRANT ≠ 0#32 ∨ s.rd (kTRGRANT + 4) ≠ 0#32 → s.watch.trTime + 1000000 * s.fld kTRTMO 15 0 ≤ s.now →
      ∀ x, x = (s.wr kTRGRANT 0#32).wr (kTRGRANT + 4) 0#32 →
      exec .testRightsExpiry s = .next
        ((List.range 40).foldl (fun a r => if s.testRights r && !x.testRights r then a.wr (kEINJ r) (regReset (kEINJ r)) else a) x)) ∧
    (∀ (i : Initiator) (u : State) (slot : Nat) (d : FwDesc), u = s.touch (regionPd rFWL) → u.fwl.busy = none →
      u.fld kDSEL 5 0 ≤ 55 → slot = u.fld kDSEL 5 0 * 64 + u.fld kDSEL 11 6 →
      d = ⟨u.rd (kDDATA 0), u.rd (kDDATA 1), u.rd (kDDATA 2)⟩ →
      (s.Reaches i (rk rFWL 1 0x114) (wordOf 1) →
        exec (.fwlRead i) s = .next (State.respond { u.setFld kDSTAT 2 0 1 with
          fwl := { u.fwl with busy := some ⟨false, slot, d, 0⟩ } } .ok)) ∧
      (s.Reaches i (rk rFWL 1 0x114) (wordOf 2) → (Sparse.get (fun _ => {}) u.fwl.desc slot).lock = true → isPair i.itag.toNat = false →
        exec (.fwlCommit i) s = .next (State.respond { (u.count rFWL 5).setFld kDSTAT 2 0 1 with
          fwl := { u.fwl with busy := some ⟨true, slot, d, 2⟩ } } .ok)) ∧
      (s.Reaches i (rk rFWL 1 0x114) (wordOf 2) → (Sparse.get (fun _ => {}) u.fwl.desc slot).lock = false →
        fieldOf d.w2 31 28 = 0 → u.rd (kDDATA 3) = 0#32 → d.base.toNat ≤ d.last.toNat →
        exec (.fwlCommit i) s = .next (State.respond { u.setFld kDSTAT 2 0 1 with
          fwl := { u.fwl with busy := some ⟨true, slot, d, 0⟩ } } .ok))) ∧
    (∀ (slot : Nat) (d : FwDesc),
      (s.fwl.busy = some ⟨true, slot, d, 0⟩ → exec .fwlCommandDone s = .next { (s.setFld kDSTAT 2 0 0).count rFWL 4 with
        fwl := { s.fwl with
          busy := none, desc := Sparse.set (fun _ => {}) s.fwl.desc slot d, bad := s.fwl.bad.filter (fun x => x != slot) } }) ∧
      (s.fwl.busy = some ⟨false, slot, d, 0⟩ → ∀ f, f = Sparse.get (fun _ => {}) s.fwl.desc slot →
        exec .fwlCommandDone s = .next ((((State.wr { s.setFld kDSTAT 2 0 0 with fwl := { s.fwl with busy := none } }
          (kDDATA 0) f.base).wr (kDDATA 1) f.last).wr (kDDATA 2) f.w2).wr (kDDATA 3) 0#32)))

/-- R571–R573: a verdict joins the window; K disagreements raise cause 0, and enough clean ones end DEGRADED. R574, R575:
a pending cause is taken: logged, shown, and acted on as WATCH_ACT says, or as its own rule fixes. R574, R721: NOPLAN, the
heartbeat and recovery time-outs raise causes 4, 5 and 11. R573, R576: the commands of WATCH_SSCMD. (Readings of the
model: log 8.) -/
def Obligations.SafeStateController : Prop :=
  ∀ (s : State),
    (∀ (bad : Bool) (instant d n : Nat) (rest : List (Bool × Nat × Nat)) (u : State),
      s.watch.comparisons = (bad, instant, d) :: rest →
      n = ((((bad :: s.watch.verdicts).take 256).take (s.fld kDISCFG 14 6)).filter id).length →
      u = (s.setWatch { s.watch with
          comparisons := rest, verdicts := (bad :: s.watch.verdicts).take 256, clean := if bad then 0 else s.watch.clean + 1 }).wr
        kDISSTAT (BitVec.ofNat 32 (n + (if bad then 2 ^ 9 else 0) +
          (if bad && ((bad :: s.watch.verdicts).take 256).getD 1 false then 2 ^ 10 else 0) + instant % 2 ^ 21 * 2 ^ 11)) →
      (bad = true → ∀ w, w = (u.count rWATCH 5).raise rWATCH 18 { detail := BitVec.ofNat 64 instant } → w.fld kDISCFG 5 0 ≤ n →
        exec .checkerVerdict s = .next (w.postCause 0 false)) ∧
      (bad = false → n < u.fld kDISCFG 5 0 →
        (u.safe = ssDEGRADED → s.watch.latched = false → u.rd kCHKSTRM ≠ 0#32 → u.fld kDISCFG 22 15 ≤ s.watch.clean + 1 →
          exec .checkerVerdict s = .next (u.enterSafe ssNORMAL)) ∧
        (u.safe ≠ ssDEGRADED → exec .checkerVerdict s = .next u))) ∧
    (∀ (c : Cause) (u v : State), s.worstCause = some c → u = s.setWatch { s.watch with causes := s.watch.causes.erase c } →
      (u.safe = ssRECOVERING → c.num = 3 ∨ c.num = 4 → exec .safeCause s = .next u) ∧
      (u.safe = ssRESTARTING → c.island = false → exec .safeCause s = .next (u.setFlag kSSCAUSE c.num true)) ∧
      (u.safe = ssNORMAL → c.num ≠ 7 → ∀ (act : Nat), act = (u.setFlag kSSCAUSE c.num true).actOf c → act ≠ 0 →
        v = ((((u.setFlag kSSCAUSE c.num true).setFld kSSCAUSE 19 16 c.num).raise rWATCH 16
          { always := true, inj := c.inj, detail := BitVec.ofNat 64 c.num })).count rWATCH 3 → v.safe = ssNORMAL →
        (act = 1 → exec .safeCause s = .next (v.enterSafe ssDEGRADED)) ∧
        (act = 2 → v.recentStarts.length < v.fld kRSTCFG 3 0 → exec .safeCause s = .next v.beginRestart) ∧
        (act = 2 → v.fld kRSTCFG 3 0 ≤ v.recentStarts.length → exec .safeCause s = .next v.haltMain) ∧
        (act = 3 → exec .safeCause s = .next v.haltMain))) ∧
    (s.watch.planPaused = false → s.watch.planBase + 1000000 * s.fld kCAUSECFG 23 8 ≤ s.now →
      exec .noplanTimeout s = .next ((s.setWatch { s.watch with planBase := s.now }).postCause 4 true)) ∧
    (s.fld kHBTMO 15 0 ≠ 0 → s.watch.hbBase + 1000000 * s.fld kHBTMO 15 0 ≤ s.now →
      exec .heartbeatTimeout s = .next ((s.setWatch { s.watch with hbBase := s.now }).postCause 5 false)) ∧
    (s.safe = ssRESTARTING ∨ s.safe = ssRECOVERING → s.watch.recovDone = false →
      s.watch.decision + 1000000 * s.fld kRSTCFG 15 4 ≤ s.now →
      exec .recovTimeout s = .next ((s.setWatch { s.watch with recovDone := true }).postCause 11 true)) ∧
    (∀ (i : Initiator) (u : State), u = s.touch (regionPd rWATCH) →
      (∀ v w, s.Reaches i (rk rWATCH 4 0x100) v → w = u.writeGeneric (rk rWATCH 4 0x100) i.itag v →
        exec (.heartbeatWrite i v) s = .next ((w.setWatch { w.watch with hbBase := w.now }).respond .ok)) ∧
      (s.Reaches i kSSCMD (wordOf 1) → exec (.sscmdDegrade i) s = .next ((u.postCause 15 true (some 1)).respond .ok)) ∧
      (s.Reaches i kSSCMD (wordOf 2) → exec (.sscmdRestart i) s = .next ((u.postCause 15 true (some 2)).respond .ok)) ∧
      (s.Reaches i kSSCMD (wordOf 3) → exec (.sscmdHalt i) s = .next ((u.postCause 15 true (some 3)).respond .ok)) ∧
      (s.Reaches i kSSCMD (wordOf 4) →
        (u.safe = ssRESTARTING → u.watch.bootEnded = true → exec (.sscmdReady i) s = .next
          ((((u.setWatch { u.watch with hbBase := u.now, seq := 0 }).enterSafe ssRECOVERING).setPhase 7).respond .ok)) ∧
        (u.safe ≠ ssRESTARTING ∨ u.watch.bootEnded = false →
          exec (.sscmdReady i) s = .next ((u.cfgErr rWATCH i.itag).respond .ok))) ∧
      (s.Reaches i kSSCMD (wordOf 5) →
        (u.safe = ssDEGRADED → u.watch.latched = false → exec (.sscmdClear i) s = .next ((u.enterSafe ssNORMAL).respond .ok)) ∧
        (u.safe ≠ ssDEGRADED ∨ u.watch.latched = true → exec (.sscmdClear i) s = .next (u.respond .ok))))

/-- R577: the restart sequencer's quiesce, hold and release follow each other, each with its phase; the main domains are
held and reset, and released with their clocks locked unless their memories were lost. R581: the image check passes to
phase 6 when the digest is WATCH_RSTHASH's, and halts otherwise. R582: a mismatching pair is taken out, with both out the
machine halts, and a pair restarted from ROM is back in service; the check of heartbeats itself changes nothing. R560:
NW_ALIVE toggles each millisecond. R585: a protected interval closes, once a revolution, the open windows that it covers.
(Readings of the model: logs 29, 68, 80, 81.) -/
def Obligations.RestartAndPairs : Prop :=
  ∀ (s : State),
    (s.watch.seq = 1 → s.safe = ssRESTARTING →
      exec .restartQuiesce s = .next ((s.setWatch { s.watch with seq := 2 }).setPhase 3)) ∧
    (s.watch.seq = 2 → ∀ u, u = s.holdMain → u.safe = ssRESTARTING →
      exec .restartHold s = .next ((u.setWatch { u.watch with seq := 3 }).setPhase 4)) ∧
    (s.watch.seq = 3 → s.safe = ssRESTARTING → s.pwr.brown = false → ∀ u, u = ((s.zeroMeas 6).zeroMeas 7).setPhase 5 →
      (u.flag (rk rPWR 1 0x104) 2 = false → exec .restartRelease s = .next ((u.setWatch { u.watch with seq := 4 }).releaseMain)) ∧
      (u.flag (rk rPWR 1 0x104) 2 = true → exec .restartRelease s = .next ((u.setWatch { u.watch with seq := 4 }).startMainBoot))) ∧
    (s.watch.seq = 4 → s.safe = ssRESTARTING → s.boot.mainOnly = false → s.injArmed rSEC 0 = false →
      (∀ bs, s.restartImage = some bs → sha256 bs = s.rstHash →
        exec .restartImageCheck s = .next ((s.setWatch { s.watch with seq := 5, bootEnded := true }).setPhase 6)) ∧
      (∀ bs, s.restartImage = some bs → sha256 bs ≠ s.rstHash → exec .restartImageCheck s = .next s.haltMain) ∧
      (s.restartImage = none → exec .restartImageCheck s = .next s.haltMain)) ∧
    (∀ (pair : BitVec 1) (u v : State), u = (s.count rWATCH 2).raise rWATCH 17 { index := pair.toNat } →
      v = (u.setFlag kSAFESTAT (12 + pair.toNat) false).setWatch { u.watch with
        pairOut := Sparse.set (fun _ => none) u.watch.pairOut pair.toNat (some u.now) } →
      (u.pairIn pair.toNat = false → exec (.pairMismatch pair) s = .next u) ∧
      (u.pairIn pair.toNat = true → v.pairIn 0 = true ∨ v.pairIn 1 = true → exec (.pairMismatch pair) s = .next v) ∧
      (u.pairIn pair.toNat = true → v.pairIn 0 = false → v.pairIn 1 = false → v.safe ≠ ssHALTED →
        exec (.pairMismatch pair) s = .next v.haltMain)) ∧
    (∀ (pair : BitVec 1) (t : Nat), Sparse.get (fun _ => none) s.watch.pairOut pair.toNat = some t →
      exec (.pairRestartDone pair) s = .next ((s.setWatch { s.watch with
        pairOut := Sparse.set (fun _ => none) s.watch.pairOut pair.toNat none }).setFlag kSAFESTAT (12 + pair.toNat) true)) ∧
    (s.pairIn 0 = true ∨ s.pairIn 1 = true → s.watch.aliveAt + 1000000 ≤ s.now →
      exec .nwAliveToggle s = .next (s.setWatch { s.watch with alive := !s.watch.alive, aliveAt := s.now })) ∧
    exec .pairHeartbeatCheck s = .next s ∧
    (∀ (k : BitVec 4) (rev : Nat), s.protNow k.toNat = true →
      rev = ((s.phase64 - (s.rd (kPROT k.toNat 0)).setWidth 64) >>> 32).toNat + 1 →
      (Sparse.get (fun _ => 0) s.watch.protDone k.toNat = rev → exec (.protIntervalStart k) s = .next s) ∧
      (Sparse.get (fun _ => 0) s.watch.protDone k.toNat ≠ rev →
        exec (.protIntervalStart k) s = .next { s with
          watch := { s.watch with protDone := Sparse.set (fun _ => 0) s.watch.protDone k.toNat rev },
          merid := { s.merid with flying := (List.range 40).foldl (fun f r =>
            if s.protCovers k.toNat r && s.flag (kSTAT r) 3 && hasSpares r then
              insertFlying ⟨1024 + k.toNat, .windowClose r 0, s.now + 100, 0⟩ f else f) s.merid.flying } }))

/-- R594, R591: an idle domain whose budget and next action allow it goes one state deeper, never to a state its row of
the table of domains excludes. R595: demand on a gated or retained domain, or PWR_PDCMD, starts its exit. R596: an
occurrence that is near starts a pre-wake, counted in BLK_ECNT5. R597, R620: an exit that is complete leaves the domain
ACTIVE, a retention state error restarting it. R601: SLEEP turns the main domains off and drops their memories, WAKE
starts their boot. (Readings of the model: log 19.) -/
def Obligations.DomainsSleepAndWake : Prop :=
  ∀ (s : State) (pd : BitVec 5),
    (s.pdIdle pd.toNat = true → s.noGate pd.toNat = false →
      (pdMayGate pd.toNat = true → s.pdState pd.toNat = 0 → 1 ≤ s.budget pd.toNat → s.fitsAimed pd.toNat 200 = true →
        Sparse.get (fun _ => 0) s.pwr.idleFrom pd.toNat + 1000 ≤ s.now → exec (.clkgateEntry pd) s = .next (s.setPd pd.toNat 1)) ∧
      (pdMayRetain pd.toNat = true → s.pdState pd.toNat = 1 → 40 ≤ s.budget pd.toNat → s.fitsAimed pd.toNat 40000 = true →
        Sparse.get (fun _ => 0) s.pwr.idleFrom pd.toNat + 200000 ≤ s.now → exec (.retentionEntry pd) s = .next (s.setPd pd.toNat 2)) ∧
      (pdMayOff pd.toNat = true → s.flag (kPdCfg pd.toNat) 0 = true → s.pdState pd.toNat = 2 →
        pdOffExit pd.toNat ≤ s.budget pd.toNat * 1000 → s.fitsAimed pd.toNat (pdOffExit pd.toNat) = true →
        Sparse.get (fun _ => 0) s.pwr.idleFrom pd.toNat + 1000000 * s.fld (kPdCfg pd.toNat) 16 1 ≤ s.now →
        exec (.offEntry pd) s = .next ((s.resetPd pd.toNat).setPd pd.toNat 3))) ∧
    (pdMayGate pd.toNat = false → exec (.clkgateEntry pd) s = .next s) ∧
    (pdMayRetain pd.toNat = false → exec (.retentionEntry pd) s = .next s) ∧
    (pdMayOff pd.toNat = false → exec (.offEntry pd) s = .next s) ∧
    (s.pdIdle pd.toNat = false →
      ((s.touch pd.toNat).pdState pd.toNat = 1 → s.pdState pd.toNat = 1 →
        exec (.domainWake pd) s = .next ((s.touch pd.toNat).startExit pd.toNat 200)) ∧
      ((s.touch pd.toNat).pdState pd.toNat = 2 → s.pdState pd.toNat = 2 →
        exec (.domainWake pd) s = .next ((s.touch pd.toNat).startExit pd.toNat 40000))) ∧
    (∀ lat t, s.exitLatency pd.toNat = some lat → s.nextAimed pd.toNat = some t → t ≤ lat + 1000 →
      exec (.prewake pd) s = .next ((s.startExit pd.toNat lat).count rPWR 5)) ∧
    (∀ (retErr : Bool) (t : Nat) (u v : State), Sparse.get (fun _ => none) s.pwr.wakeAt pd.toNat = some t → t ≤ s.now →
      s.pdState pd.toNat = 5 → s.injArmed rPWR 2 = false →
      u = s.setPwr { s.pwr with
        wakeAt := Sparse.set (fun _ => none) s.pwr.wakeAt pd.toNat none,
        wakeFrom := Sparse.set (fun _ => 0) s.pwr.wakeFrom pd.toNat 0 } →
      v = (if Sparse.get (fun _ => 0) s.pwr.wakeFrom pd.toNat = 2 ∧ retErr = true
        then ((u.count rPWR 6).resetPd pd.toNat).dropPdMem pd.toNat else u) →
      (∀ a ∈ ((v.setPd pd.toNat 0).touch pd.toNat).waiting, ((v.setPd pd.toNat 0).touch pd.toNat).keyPd a.key ≠ pd.toNat) →
      ((v.setPd pd.toNat 0).touch pd.toNat).pdState pd.toNat = 0 →
      exec (.domainWakeDone pd retErr) s = .next ((v.setPd pd.toNat 0).touch pd.toNat)) ∧
    (∀ (i : Initiator) (u v : State), u = s.touch (regionPd rPWR) →
      (s.Reaches i kPDCMD (wordOf (pd.toNat + 2 ^ 5)) → v = u.setFld kPDCMD 4 0 pd.toNat →
        (pd.toNat < 4 → exec (.pdcmdWake i pd) s = .next ((v.cfgErr rPWR i.itag).respond .ok)) ∧
        (4 ≤ pd.toNat →
          (∀ lat, v.exitLatency pd.toNat = some lat →
            exec (.pdcmdWake i pd) s = .next ((v.startExit pd.toNat lat).respond .ok)) ∧
          (v.exitLatency pd.toNat = none → exec (.pdcmdWake i pd) s = .next (v.respond .ok)))) ∧
      (s.Reaches i (rk rPWR 1 0x120) (wordOf 1) →
        v = (mainPds.reverse.foldl (fun s pd => (s.resetPd pd).setPd pd 3) u).dropMem isHbmLpddrKey →
        exec (.sleep i) s = .next ((v.setPwr { v.pwr with sleeping := true, wakeAt := [], wakeFrom := [] }).respond .ok)) ∧
      (s.Reaches i (rk rPWR 1 0x120) (wordOf 2) →
        (u.pwr.sleeping = true →
          exec (.wake i) s = .next (((u.setPwr { u.pwr with sleeping := false }).startMainBoot).respond .ok)) ∧
        (u.pwr.sleeping = false → exec (.wake i) s = .next (u.respond .ok))))

/-- R604: an estimate above the limit lowers the power ceiling, ten in a row well below it raise it, once a millisecond.
R605: a reading warm, critical or at the trip is counted, flagged and answered, and moves the thermal ceiling. R607–R611:
a dip, a brownout, the loss of memory and the recoveries. R612: a power-management fault. R599: the loss of the standby
input leaves the machine as State.reset has it, but for the flash and its replay area. R613: AGE reads its monitors every
10 ms. (Readings of the model: logs 25, 26.) -/
def Obligations.PowerEvents : Prop :=
  ∀ (s : State) (mv : BitVec 16),
    (passed s s.pwr.estAt 1000000 = true → ∀ u, u = (s.setFld kPEST 15 0 mv.toNat).setPwr { s.pwr with estAt := some s.now } →
      (u.fld kPLIM 8 0 * 10 < mv.toNat → u.ceiling 0 ≠ 8 →
        exec (.powerEstimate mv) s = .next ((u.setPwr { u.pwr with lowFor := 0 }).setCeiling 0 (Nat.max 2 (u.ceiling 0 - 1)))) ∧
      (100 * mv.toNat < 95 * (u.fld kPLIM 8 0 * 10) →
        (9 ≤ u.pwr.lowFor → exec (.powerEstimate mv) s = .next
          ((u.setPwr { u.pwr with lowFor := u.pwr.lowFor + 1 }).setCeiling 0 (Nat.min 8 (u.ceiling 0 + 1)))) ∧
        (u.pwr.lowFor < 9 → exec (.powerEstimate mv) s = .next (u.setPwr { u.pwr with lowFor := u.pwr.lowFor + 1 })))) ∧
    (∀ (temps : List (BitVec 8)) (t : Nat) (u : State), passed s s.pwr.sampleAt 100000 = true → s.pwr.warnInjUntil ≤ s.now →
      t = (temps.map BitVec.toNat).foldl Nat.max 0 →
      u = (s.setFld kTJMAX 7 0 t).setPwr { s.pwr with
        sampleAt := some s.now, warm := decide (s.fld kTCFG 6 0 ≤ t), crit := decide (105 ≤ t), trip := decide (115 ≤ t) } →
      (t < s.fld kTCFG 6 0 → s.fld kTCFG 6 0 ≤ t + 5 → t < 105 → exec (.thermalSample temps) s = .next u) ∧
      (s.fld kTCFG 6 0 ≤ t → t < 105 → s.pwr.warm = false → ∀ v, v = (u.count rPWR 2).raise rPWR 18 →
        exec (.thermalSample temps) s = .next (v.thermalStep (Nat.max 2 (v.ceiling 1 - 1)))) ∧
      (s.fld kTCFG 6 0 ≤ t → 105 ≤ t → t < 115 → s.pwr.warm = true → s.pwr.crit = false →
        exec (.thermalSample temps) s = .next ((((u.count rPWR 3).raise rPWR 19).postCause 10 true).setCeiling 1 2)) ∧
      (s.fld kTCFG 6 0 ≤ t → 115 ≤ t → s.pwr.warm = true → s.pwr.crit = true → s.pwr.trip = false →
        exec (.thermalSample temps) s = .next ((u.postCause 10 true (some 3)).setCeiling 1 2))) ∧
    (9000 ≤ mv.toNat → mv.toNat < 10200 →
      exec (.supplyDip mv) s = .next
        ((((s.inputLow mv.toNat s.now).setCeiling 2 2).count rPWR 0).raise rPWR 16 { always := true })) ∧
    (10200 ≤ mv.toNat → s.pwr.supplyFrom + 1000000 ≤ s.now →
      exec (.supplyRecover mv) s = .next
        ((((s.setFld kVIN 15 0 mv.toNat).setFlag kPSTAT 1 false).setFlag kPSTAT 0 true).setCeiling 2 8) ∧
      (s.pwr.brown = true → ∀ u, u = (((s.setFld kVIN 15 0 mv.toNat).setFlag kPSTAT 1 false).setFlag kPSTAT 0 true).setCeiling 2 8 →
        exec (.brownoutRecover mv) s = .next ((u.setPwr { u.pwr with brown := false }).postCause 10 true (some 2)))) ∧
    (mv.toNat < 9000 → ∀ u v, u = (s.inputLow mv.toNat s.now).fly →
      v = u.setWatch { u.watch with seq := if u.watch.seq = 3 then 3 else 1, bootEnded := false } →
      exec (.brownout mv) s = .next (((v.setPwr { v.pwr with brown := true }).count rPWR 1).raise rPWR 17)) ∧
    (mv.toNat < 8000 →
      exec (.memlost mv) s = .next (((s.inputLow mv.toNat s.now).setFlag kPSTAT 2 true).dropMem isHbmLpddrKey)) ∧
    exec .pmicFault s = .next ((s.count rPWR 7).raise rPWR 21) ∧
    (s.Canonical → ∃ m : Sparse Byte, exec .standbyLoss s = .next { State.reset with
        mem := m, badWords := s.badWords.filter (fun k => decide (flashKey 0 ≤ k) && decide (k < flashKey 0x10000000)),
        boot := { svn := s.boot.svn, cold := s.boot.cold, token := s.boot.token, erased := s.boot.erased },
        free := s.free, pending := s.pending } ∧
      ∀ k, Sparse.get memReset m k =
        if flashKey 0 ≤ k ∧ k < flashKey 0x10000000 then Sparse.get memReset s.mem k else memReset k) ∧
    (∀ readings : List (Option (BitVec 16)), s.pdDown 29 = true ∨ passed s s.age.readAt 10000000 = false →
      exec (.ageRead readings) s = .next s) ∧
    (∀ (readings : List (Option (BitVec 16))) (u v : State) (vs : List (Nat × Int)), s.pdDown 29 = false →
      passed s s.age.readAt 10000000 = true → u = s.setAge { s.age with readAt := some s.now } →
      (List.range 1024).foldl (fun (acc : List (Nat × Int) × State) i =>
        if acc.2.monActive i then
          ((acc.2.readMonitor i ((readings.getD i none).map BitVec.toInt)).1.elim acc.1 (fun v => (i, v) :: acc.1),
            (acc.2.readMonitor i ((readings.getD i none).map BitVec.toInt)).2)
        else acc) ([], u) = (vs, v) → v.flag kAGECTRL 0 = false →
      exec (.ageRead readings) s = .next ((List.range 5).foldl (fun (t : State) r =>
        (((vs.reverse.filter (fun x => monRail x.1 == r && v.counts x.1)).map (fun x => x.2)).min?).elim t
          (fun m => t.setFld (kVNOW r) 26 11 (patternOf 16 m))) v))

/-- R641: a phase of the boot sequence that is not the next does nothing. ROM (R628, R638, R650): the count of cold boots,
the nonce, the PUF and the device's identity. Firmware (R642): the chosen image is measured and runs, or the recovery port
waits. Records, Island, Main power (R633), Memory, Image, Self-test (R634, R637) and Cluster each do their work and pass
on; DONE ends the boot in NORMAL, or DEGRADED where a cause is latched. R712: recovery frames go to flash, and a valid
image then boots. (Readings of the model: logs 27, 28, 70.) -/
def Obligations.BootPhases : Prop :=
  ∀ (s : State) (failed : Bool) (parts : List FailedPart),
    (∀ (pufDiff : Nat) (replayOk : Bool), s.phaseReady 1 = false → exec (.bootRom pufDiff replayOk) s = .next s) ∧
    (s.phaseReady 2 = false → exec (.bootFirmware failed) s = .next s) ∧
    (s.phaseReady 3 = false → exec (.bootRecords failed) s = .next s) ∧
    (s.phaseReady 4 = false → exec (.bootIsland failed) s = .next s) ∧
    (s.phaseReady 7 = false → exec (.bootImage failed) s = .next s) ∧
    (s.phaseReady 8 = false → exec (.bootSelftest parts) s = .next s) ∧
    (∀ (pufDiff : Nat) (replayOk : Bool) (u v w : State), s.phaseReady 1 = true →
      u = s.setBoot { s.boot with cold := s.boot.cold + 1 } →
      v = (u.wr kBOOTCNT (BitVec.ofNat 32 u.boot.cold)).readReplay replayOk → v.flag (kESTAT rSEC) 16 = false →
      w = (List.range 8).foldl (fun (s : State) i => s.draw.2.wr (kDBGNONCE i) (Config.freeWord s.draw.1)) v →
      (1536 < pufDiff ∨ w.boot.erased = true → exec (.bootRom pufDiff replayOk) s = .next ((w.phaseDone 1).bootFail 6)) ∧
      (pufDiff ≤ 768 → w.boot.erased = false → ∀ x, x = ((w.setDigest (kDEVID 0) devId).setFlag kBOOTSTAT 14
          (w.setDigest (kDEVID 0) devId).boot.token.isSome).setFlag kBOOTSTAT 15 (!(w.setDigest (kDEVID 0) devId).boot.token.isSome) →
        exec (.bootRom pufDiff replayOk) s = .next
          ((x.setBoot { x.boot with token := none, erased := x.boot.token == some 2 }).phaseDone 1))) ∧
    (∀ (slot : Nat) (r : Rec) (u : State), s.phaseReady 2 = true →
      (s.chooseSlot 0 0x00800000 0x00800000 1 failed = (some (slot, r), u) →
        exec (.bootFirmware failed) s = .next
          (((((u.extend 0 (sha256 r.image)).setSlot 0 slot).pairDescriptors).nowRunning r).phaseDone 2)) ∧
      (s.chooseSlot 0 0x00800000 0x00800000 1 failed = (none, u) → u.fld kBOOTSTAT 13 10 ≠ 0 → ∀ v,
        v = (u.raise rSEC 17 { detail := 1 }).holdMain →
        exec (.bootFirmware failed) s = .next { v with
          boot := { v.boot with recovery := true }, watch := { v.watch with halt := true } })) ∧
    (s.phaseReady 3 = true → ∀ (u : State),
      (s.validRec 0x01000000 0x10000 2 = (none, u) → exec (.bootRecords failed) s = .next (u.bootFail 2)) ∧
      (∀ (p a : Rec) (v w x : State), s.validRec 0x01000000 0x10000 2 = (some p, u) → provisionOk p = true →
        v = (u.extend 1 (sha256 p.image)).setBoot { (u.extend 1 (sha256 p.image)).boot with
          custHash := p.body.take 32, debug := bitsOf (p.b 0x40 4) 1 0 } →
        v.validRec 0x01010000 0x20000 3 = (some a, w) → configOk a = true → w.validRec 0x01030000 0x20000 3 = (none, x) →
        (failed = false → exec (.bootRecords failed) s = .next
          (((((x.extend 2 (sha256 a.image)).setSlot 1 0).applyConfig a).nowRunning a).measureDebug.phaseDone 3)) ∧
        (failed = true → exec (.bootRecords failed) s = .next (x.bootFail 3)))) ∧
    (s.phaseReady 4 = true → ∀ (slot : Nat) (r : Rec) (u : State),
      (s.chooseSlot 0x01200000 0x01400000 0x00200000 4 failed = (none, u) → exec (.bootIsland failed) s = .next (u.bootFail 4)) ∧
      (s.chooseSlot 0x01200000 0x01400000 0x00200000 4 failed = (some (slot, r), u) → exec (.bootIsland failed) s = .next
        (((((u.extend 3 (sha256 (r.image.take 0x10000))).setSlot 2 slot).nowRunning r).loadDrive r).phaseDone 4))) ∧
    (s.phaseReady 5 = false ∨ s.flag kPSTAT 0 = false → exec .bootMainPower s = .next s) ∧
    (s.phaseReady 5 = true → s.flag kPSTAT 0 = true → ∀ (u : State) (vs : List Nat),
      s.chooseCopy 0x01070000 0x01090000 0x20000 7 = (none, u) → vs = (List.range 5).map (u.bootVolts none) →
      exec .bootMainPower s = .next (((((List.range 5).foldl (fun (s : State) r => s.setRail r (vs.getD r 0))
        (u.setBoot { u.boot with rails := vs })).setFlag kPSTAT 2 false).releaseMain).phaseDone 5)) ∧
    exec .bootMemory s = .next (if s.phaseReady 6 then s.phaseDone 6 else s) ∧
    (s.phaseReady 7 = true → s.boot.mainOnly = false → ∀ (slot : Nat) (r : Rec) (u v : State),
      (s.chooseSlot 0x01600000 0x07600000 0x06000000 5 failed = (none, u) → exec (.bootImage failed) s = .next (u.bootFail 5)) ∧
      (s.chooseSlot 0x01600000 0x07600000 0x06000000 5 failed = (some (slot, r), u) →
        v = (writeRun (fun s i b => s.writeKey (lpKey (Config.imageBase + i)) b)
          (u.heal ((List.range r.image.length).map (fun i => lpKey (Config.imageBase + i)))) 0 r.image).1 →
        exec (.bootImage failed) s = .next
          ((((((v.setBoot { v.boot with imageLen := r.image.length }).extend 4 (sha256 (r.image.take 0x10000))).setSlot 3 slot).setRstHash
            (sha256 r.image)).nowRunning r).phaseDone 7))) ∧
    (s.phaseReady 8 = true → ∀ (u v w : State) (rec_ : List Byte), s.chooseCopy 0x01070000 0x01090000 0x20000 7 = (none, u) →
      u.chooseCopy 0x01050000 0x01060000 0x10000 6 = (none, v) →
      w = (((bootSets.foldl (fun s S => S.selfTest parts [] s) v).selfTestCores parts []).selfTestRows parts []).selfTestPcs
        parts [] → rec_ = deviceRecord 6 1 w.repairBody →
      exec (.bootSelftest parts) s = .next (((w.flashWrite 0x01050000 rec_).extend 5 (sha256 rec_)).phaseDone 8)) ∧
    exec .bootCluster s = .next (if s.phaseReady 9 then s.phaseDone 9 else s) ∧
    (∀ (i : Initiator) (u v : State), s.Reaches i (rk rSEC 1 0x104) (wordOf 1) → u = s.touch (regionPd rSEC) →
      (u.phaseReady 10 = false → exec (.bootDone i) s = .next (u.respond .ok)) ∧
      (u.phaseReady 10 = true → v = ((u.phaseDone 10).setFld kBOOTSTAT 3 0 0xF).setBoot
          { ((u.phaseDone 10).setFld kBOOTSTAT 3 0 0xF).boot with mainOnly := false } →
        (v.safe ≠ ssRESTARTING → exec (.bootDone i) s = .next
          ((((v.enterSafe (if v.watch.latched then ssDEGRADED else ssNORMAL)).planTimer true).planRestart).respond .ok)) ∧
        (v.safe = ssRESTARTING → exec (.bootDone i) s = .next
          (((v.setWatch { v.watch with seq := 5, bootEnded := true }).setPhase 6).respond .ok)))) ∧
    (∀ (off : Word) (data : List Byte),
      (s.boot.recovery = true → data.length = 256 → off.toNat + 256 ≤ 0x00800000 →
        exec (.recoveryFrame off data) s = .next (s.flashWrite off.toNat data)) ∧
      (s.boot.recovery = false → exec (.recoveryFrame off data) s = .next s)) ∧
    (∀ (r : Rec) (u : State), s.boot.recovery = true →
      (s.validRec 0 0x00800000 1 = (none, u) → exec .recoveryDone s = .next u) ∧
      (s.validRec 0 0x00800000 1 = (some r, u) → exec .recoveryDone s = .next
        ((State.setFld { u with boot := { u.boot with recovery := false }, watch := { u.watch with halt := false } }
          kBOOTSTAT 13 10 0).runFirmware 0 r)))

/-- R647, R648: a QUOTE writes its message and signature, and after a debug token or without a closed module ends
REJ_LIMIT, counted in BLK_ECNT6. R646: an EXTEND of MEAS6 or MEAS7 hashes what it reads into it; of any other it ends
REJ_FORMAT. R640: a commit raises a counter to the version that runs, and never lowers it. R649: a valid token is
accepted, any other counted. (Readings of the model: logs 27, 68.) -/
def Obligations.SecurityEngine : Prop :=
  ∀ (s : State) (q : BitVec 6) (o : Op) (u : State), u = s.start rSEC q.toNat o →
    (s.secNext q.toNat 1 = some o →
      (o.addr 0x30 % 256 ≠ 0 ∨ o.fld 0x38 31 8 ≠ 0 ∨ o.word 15 ≠ 0#32 →
        exec (.quote q) s = .next (u.finish rSEC q.toNat o.index stREJ_FORMAT)) ∧
      (o.addr 0x30 % 256 = 0 → o.fld 0x38 31 8 = 0 → o.word 15 = 0#32 → u.injArmed rSEC 2 = false →
        (u.flag kBOOTSTAT 14 = true ∨ u.flag kBOOTSTAT 15 = false →
          exec (.quote q) s = .next ((u.count rSEC 6).conclude rSEC q.toNat o.index stREJ_LIMIT)) ∧
        (∀ w, u.flag kBOOTSTAT 14 = false → u.flag kBOOTSTAT 15 = true →
          u.txWrite (u.queueItag rSEC q.toNat) (o.addr 0x30) (u.quoteBytes o ++ signature (u.quoteBytes o)) = (.ok (), w) →
          exec (.quote q) s = .next (w.conclude rSEC q.toNat o.index stDONE)))) ∧
    (s.secNext q.toNat 2 = some o →
      (o.fld 0x10 2 0 < 6 → exec (.extend q) s = .next (u.finish rSEC q.toNat o.index stREJ_FORMAT)) ∧
      (∀ d w, 6 ≤ o.fld 0x10 2 0 → o.fld 0x10 31 3 = 0 → o.word 5 = 0#32 → (∀ j, j < 8 → o.word (8 + j) = 0#32) →
        u.txRead (u.queueItag rSEC q.toNat) (o.addr 0x18) 32 (some (rSEC, q.toNat, o.index)) = (.ok d, w) →
        exec (.extend q) s = .next ((w.extend (o.fld 0x10 2 0) d).conclude rSEC q.toNat o.index stDONE))) ∧
    (∀ (i : Initiator) (ctr : BitVec 4) (w : State), s.Reaches i kSVNCMD (wordOf ctr.toNat) →
      w = ((s.touch (regionPd rSEC)).setFld kSVNCMD 3 0 ctr.toNat).readReplay true →
      (Sparse.get (fun _ => none) w.boot.running ctr.toNat = none →
        exec (.svnCommit i ctr) s = .next ((w.cfgErr rSEC i.itag).respond .ok)) ∧
      (∀ svn, Sparse.get (fun _ => none) w.boot.running ctr.toNat = some svn →
        (svn < (w.rd (kSVNCTR ctr.toNat)).toNat → exec (.svnCommit i ctr) s = .next ((w.cfgErr rSEC i.itag).respond .ok)) ∧
        ((w.rd (kSVNCTR ctr.toNat)).toNat ≤ svn → exec (.svnCommit i ctr) s = .next
          (((w.setBoot { w.boot with svn := Sparse.set (fun _ => 0) w.boot.svn ctr.toNat svn }).wr (kSVNCTR ctr.toNat)
            (BitVec.ofNat 32 svn)).respond .ok)))) ∧
    (∀ (i : Initiator) (token : List Byte) (t w : State) (ok : Bool), t = s.setBoot { s.boot with tokenBuf := token } →
      t.Reaches i (rk rSEC 1 0x160) (wordOf 1) → (t.touch (regionPd rSEC)).tokenOk = (ok, w) →
      (ok = true → exec (.debugAccept i token) s = .next ((w.setBoot { w.boot with token := some w.boot.debug }).respond .ok)) ∧
      (ok = false → exec (.debugAccept i token) s = .next (w.respond .ok)))

/-- R655–R659: a Frame Start opens a virtual channel's frame, dropped and counted where its ring is full; a long packet of
a received type joins it, any other is counted; a Frame End writes it to the ring. R676: a lost C-PHY link is counted.
R661: a received frame goes to the ring of the filter that takes it, or is counted. R662: on a free line the frame of the
highest class that may start is sent. R663: SWAP sets the administrative list's time, and the list becomes operative when
it comes. (Readings of the model: logs 71, 72, 74.) -/
def Obligations.CamerasAndEthernet : Prop :=
  ∀ (s : State),
    (∀ (port : BitVec 2) (vc : BitVec 4) (h1 h2 : Bool) (u : State) (c : Nat), s.csiOn port.toNat vc.toNat = true →
      u = s.demandPd 31 → c = 16 * port.toNat + vc.toNat → u.injArmed rCSI 0 = false → u.injArmed rCSI 1 = false →
      (∀ (fnum : BitVec 16),
        (h1 = false → h2 = false → exec (.csiFrameStart port vc fnum h1 h2) s = .next (u.count rCSI 1)) ∧
        (h1 = true ∨ h2 = true → u.camFrame c = none →
          (u.ringFull (kCsiVc c) = true → exec (.csiFrameStart port vc fnum h1 h2) s = .next
            ((u.count rCSI 2).setCam c (some { fnum := fnum.toNat, tfs := u.now, dropped := true }))) ∧
          (u.ringFull (kCsiVc c) = false → exec (.csiFrameStart port vc fnum h1 h2) s = .next
            (u.setCam c (some { fnum := fnum.toNat, tfs := u.now, hdrFix := !h1 && h2 }))))) ∧
      (∀ (dt : BitVec 6) (data : List Byte) (f : CamFrame), h1 = true ∨ h2 = true → u.camFrame c = some f →
        (dt.toNat = fieldOf (u.rd (kCsiVc c)) 6 1 → dt.toNat ≠ 0x12 →
          exec (.csiLongPacket port vc dt h1 h2 true data) s = .next (u.setCam c (some { f with
            hdrFix := f.hdrFix || (!h1 && h2), pix := data :: f.pix })) ∧
          exec (.csiLongPacket port vc dt h1 h2 false data) s = .next ((u.count rCSI 0).setCam c (some { f with
            crcErr := true, hdrFix := f.hdrFix || (!h1 && h2), pix := data :: f.pix }))) ∧
        (∀ ok, dt.toNat ≠ fieldOf (u.rd (kCsiVc c)) 6 1 → dt.toNat ≠ 0x12 ∨ flagOf (u.rd (kCsiVc c)) 7 = false →
          exec (.csiLongPacket port vc dt h1 h2 ok data) s = .next (u.count rCSI 3))) ∧
      (∀ (f : CamFrame), h1 = true ∨ h2 = true → u.camFrame c = some f →
        exec (.csiFrameEnd port vc h1 h2) s = .next
          ((u.setCam c (some { f with hdrFix := f.hdrFix || (!h1 && h2) })).endFrame port.toNat vc.toNat false))) ∧
    (s.pdDown 31 = false → exec .cphyLinkLoss s = .next (s.count rCSI 4)) ∧
    (∀ (mac : BitVec 3), mac.toNat < 6 →
      (s.pdDown 31 = false → exec (.ethPhyLinkLoss mac) s = .next (s.count rETH 3)) ∧
      (∀ (data : List Byte) (dur : Nat) (u : State), s.macOn mac.toNat = true → data.length ≤ 9216 → u = s.demandPd 31 →
        u.injArmed rETH 0 = false →
        exec (.ethRxFrame mac data false dur) s = .next (u.count rETH 0) ∧
        (∀ (f : Nat) (k ring size : Nat) (ok : Bool) (w : State), u.flowFilter mac.toNat data = some f →
          ring = 8 * mac.toNat + (Config.filterRing (u.filterWords mac.toNat f)).toNat → k = kEthRing ring →
          (u.ringFull k = true → exec (.ethRxFrame mac data true dur) s = .next (u.count rETH 1)) ∧
          (u.ringFull k = false → size = u.fld (k + 0x08) 27 0 →
            State.ringWrite { u with free := u.free + 2 } (ethItag mac.toNat) k (Sparse.get (fun _ => 0) u.eth.count ring)
              (data.take size)
              ⟨f, if size < data.length then 9 else 0, (Config.freeWord (u.free + 1)).toNat, u.now - dur, u.now,
                (data.take size).length⟩ = (ok, w) →
            (ok = true → exec (.ethRxFrame mac data true dur) s = .next (w.setEth { w.eth with
              count := Sparse.set (fun _ => 0) w.eth.count ring (Sparse.get (fun _ => 0) u.eth.count ring + 1) })) ∧
            (ok = false → exec (.ethRxFrame mac data true dur) s = .next w)))) ∧
      (∀ (pcp : BitVec 3) (data : List Byte) (u w : State), s.macOn mac.toNat = true → u = (s.demandPd 31).count rETH 2 0 →
        Sparse.get (fun _ => []) (s.demandPd 31).eth.tx mac.toNat = [] →
        (u.now < Sparse.get (fun _ => 0) u.eth.txUntil mac.toNat →
          exec (.ethTxFrame mac [(pcp, data)]) s = .next (u.setEth { u.eth with
            tx := Sparse.set (fun _ => []) u.eth.tx mac.toNat [⟨pcp.toNat, data, u.now, false⟩] })) ∧
        (Sparse.get (fun _ => 0) u.eth.txUntil mac.toNat ≤ u.now → u.mayStart mac.toNat ⟨pcp.toNat, data, u.now, false⟩ = true →
          w = u.setEth { u.eth with
            tx := Sparse.set (fun _ => []) u.eth.tx mac.toNat [],
            txUntil := Sparse.set (fun _ => 0) u.eth.txUntil mac.toNat (u.now + u.frameNs mac.toNat data.length) } →
          exec (.ethTxFrame mac [(pcp, data)]) s = .next { w with out := .eth mac.toNat data :: w.out })) ∧
      (∀ (i : Initiator) (u : State) (base cycle : Nat), u = (s.touch 31).setFld (kMAC mac.toNat 0x08) 7 0 (s.fld (kMAC mac.toNat 0x08) 7 0) →
        s.Reaches i (kMAC mac.toNat 0x08) (wordOf (s.fld (kMAC mac.toNat 0x08) 7 0 + 2 ^ 8)) → base = u.rd64 (kMAC mac.toNat 0x18) →
        cycle = (u.rd (kMAC mac.toNat 0x14)).toNat → cycle ≠ 0 →
        exec (.gclSwap i mac) s = .next ((u.setEth { u.eth with
          swapAt := Sparse.set (fun _ => none) u.eth.swapAt mac.toNat (some (if u.ptpNow ≤ base then base else base + ceilDiv (u.ptpNow - base) cycle * cycle)) }).respond .ok)) ∧
      (∀ t, Sparse.get (fun _ => none) s.eth.swapAt mac.toNat = some t →
        (t ≤ s.ptpNow → s.pdDown 31 = false → exec (.gclActivate mac) s = .next (s.setEth { s.eth with
          oper := Sparse.set (fun _ => ({} : GateList)) s.eth.oper mac.toNat
            ⟨(List.range 256).map (fun i => Sparse.get (fun _ => ({} : Gate)) s.eth.admin (256 * mac.toNat + i)),
              (s.rd (kMAC mac.toNat 0x14)).toNat, t⟩,
          swapAt := Sparse.set (fun _ => none) s.eth.swapAt mac.toNat none })) ∧
        (s.ptpNow < t → exec (.gclActivate mac) s = .next s)))

/-- R664, R665: a Sync on the SLAVE port sets the measured offset and counts towards synchronisation, four in tolerance
and in time synchronising the port; three sync intervals without one lose it. A Pdelay exchange gives the path's delay, or
is counted. A MASTER sends the instance's time once an interval. R666: a bit timing in range is written while its channel
is off. R667, R668: a mailbox with TXREQ becomes pending, and the one of highest priority is sent on an idle bus.
R669–R672: what a frame's end or arrival does to the error counters, the states and the mailboxes. R675: a data-ready edge
starts a read or is counted. (Readings of the model: logs 48, 49, 73.) -/
def Obligations.NetworkTimeAndCan : Prop :=
  ∀ (s : State),
    (∀ (mac : BitVec 3), mac.toNat < 6 → s.macOn mac.toNat = true →
      (∀ (t1 : DWord) (ofs : Int) (good : Nat) (u : State), s.slaveMac = some mac.toNat →
        ofs = (s.ptpNow : Int) - ((t1.toNat : Int) + (Sparse.get (fun _ => none) s.eth.delay mac.toNat).getD 0) →
        ofs.natAbs ≤ s.fld kPTPTOL 15 0 → (∀ t, s.eth.lastSync = some t → s.now ≤ t + 3 * s.syncNs mac.toNat) →
        good = Nat.min 4 (s.eth.good + 1) →
        u = State.setEth (State.wr { s with free := s.free + 2 } kPTPOFS
            (BitVec.ofNat 32 (patternOf 32 (clampInt (-2147483648) 2147483647 ofs)))) { s.eth with
          ptpAt := s.now, ptpTime := (Config.freeDWord s.free).toNat, ptpRate := (Config.freeDWord (s.free + 1)).toNat,
          lastSync := some s.now, good := good } →
        (good = 4 → s.eth.unsyncUntil ≤ s.now → exec (.ptpSync mac t1) s = .next (u.setFlag kPTPSTAT 0 true)) ∧
        (good ≠ 4 → exec (.ptpSync mac t1) s = .next u)) ∧
      (∀ (t1 t2 t3 t4 : DWord),
        exec (.ptpPdelay mac true t1 t2 t3 t4) s = .next (s.setEth { s.eth with
          delay := Sparse.set (fun _ => none) s.eth.delay mac.toNat
              (some ((((t4.toNat : Int) - (t1.toNat : Int)) - ((t3.toNat : Int) - (t2.toNat : Int))) / 2)) }) ∧
        exec (.ptpPdelay mac false t1 t2 t3 t4) s = .next (s.count rETH 5)) ∧
      (s.fld (kMAC mac.toNat 0x04) 1 0 = 2 →
        passed s (Sparse.get (fun _ => none) s.eth.sent mac.toNat) (s.syncNs mac.toNat) = true →
        exec (.ptpSyncSend mac) s = .next { s.setEth { s.eth with
          sent := Sparse.set (fun _ => none) s.eth.sent mac.toNat (some s.now) } with
          out := .sync mac.toNat (State.ptpNow (s.setEth { s.eth with
            sent := Sparse.set (fun _ => none) s.eth.sent mac.toNat (some s.now) })) :: s.out })) ∧
    (∀ m t, s.slaveMac = some m → s.eth.lastSync = some t →
      (t + 3 * s.syncNs m < s.now → s.pdDown 31 = false → exec .ptpSyncTimeout s = .next (s.unsync m)) ∧
      (s.now ≤ t + 3 * s.syncNs m → exec .ptpSyncTimeout s = .next s)) ∧
    (∀ (ch : BitVec 4) (n : Nat), ch.toNat < 10 → n = ch.toNat →
      (s.canOn n = true → s.pdDown (canPd n) = false →
        (∀ (m : Nat) (b : Mailbox), s.flag (kCAN n 0) 5 = false → s.onBus n = none → s.canNext n = some m →
          s.injArmed rCAN 0 = false → b = s.box (boxKey n false m) → b.pending = true →
          exec (.canTxFrame ch) s = .next (s.setBus n (some ⟨m, b.len, b.data⟩))) ∧
        (∀ (ext : Bool) (id : BitVec 29) (data : List Byte), data.length ≤ boxBytes n →
          exec (.canRxFrame ch ext id data false) s = .next (s.canErrors n (s.tec n) (s.rec_ n + 1)) ∧
          (∀ (u : State) (m : Nat) (b : Mailbox), s.rec_ n ≤ 127 → u = s.canErrors n (s.tec n) (s.rec_ n - 1) →
            (List.range (boxCount n)).find? (fun m => (u.box (boxKey n true m)).ide == ext &&
              Nat.land (Nat.xor (u.box (boxKey n true m)).id id.toNat) (u.box (boxKey n true m)).mask.toNat == 0) = some m →
            b = u.box (boxKey n true m) → b.unread = false →
            exec (.canRxFrame ch ext id data true) s = .next (u.setBox (boxKey n true m) { b with
              data := spreadBytes data, len := data.length, stamp := BitVec.ofNat 64 u.now, unread := true,
              count := b.count + 1 })))) ∧
      (∀ (f : BusFrame) (u : State) (b : Mailbox), s.onBus n = some f → u = s.setBus n none → b = u.box (boxKey n false f.mb) →
        (∀ w, w = u.setBox (boxKey n false f.mb) { b with pending := b.again, again := false } →
          exec (.canTxEnd ch 0) s = .next (w.canErrors n (w.tec n - 1) (w.rec_ n))) ∧
        (u.flag (kCAN n 0) 3 = false → ∀ w, w = u.setBox (boxKey n false f.mb) { b with pending := true, again := false } →
          exec (.canTxEnd ch 1) s = .next w ∧
          exec (.canTxEnd ch 2) s = .next ((w.count rCAN 2).canErrors n ((w.count rCAN 2).tec n + 8) ((w.count rCAN 2).rec_ n)) ∧
          (n < 4 → ∀ x, x = (w.raise rCAN 17 { index := n }).count rCAN 2 →
            exec (.canTxEnd ch 3) s = .next (x.canErrors n (x.tec n + 8) (x.rec_ n))))) ∧
      (s.canState n = 2 → s.flag (kCAN n 0) 4 = true → s.flag (kCAN n 0) 0 = true →
        exec (.canBusoffRecover ch) s = .next (s.wr (kCAN n 0x0C) 0#32)) ∧
      (∀ (i : Initiator) (isData : Bool) (v : Word) (k : Nat) (u : State), k = kCAN n (if isData then 8 else 4) → s.Reaches i k v →
        u = s.touch (s.keyPd k) →
        (u.flag (kCAN n 0) 0 = true → exec (.canBitTimingWrite i ch isData v) s = .next ((u.cfgErr rCAN i.itag).respond .ok)) ∧
        (u.flag (kCAN n 0) 0 = false → (isData = true → (if n < 8 then 10 else 8) ≤ dataCycles v) →
          (isData = false → n < 8 → 80 ≤ nomCycles v ∧ nomCycles v ≤ 640) →
          exec (.canBitTimingWrite i ch isData v) s = .next ((u.writeGeneric k i.itag v).respond .ok)))) ∧
    (∀ (ch : BitVec 2), s.flag (kCAN ch.toNat 0) 0 = true → s.canState ch.toNat ≠ 3 →
      exec (.canLockstepMismatch ch) s = .next
        ((((s.setBus ch.toNat none).setFld (kCAN ch.toNat 0x0C) 17 16 3).raise rCAN 16
          { always := true, index := ch.toNat }).count rCAN 6)) ∧
    (∀ (i : Initiator) (v : Word) (c m : Nat) (u : State) (b : Mailbox), s.Reaches i (rk rCAN 2 0x104) (withFlag v 31 true) →
      u = s.touch (s.keyPd (rk rCAN 2 0x104)) → u.mbSel = some (c, false, m) →
      b = { u.box (boxKey c false m) with ctl := withFlag (withFlag v 31 true) 31 false } →
      (hostOwns c b = true → u.onBus c = none →
        exec (.canTxreq i v) s = .next ((u.setBox (boxKey c false m) { b with pending := true }).respond .ok)) ∧
      (hostOwns c b = false →
        exec (.canTxreq i v) s = .next (((u.setBox (boxKey c false m) b).count rCAN 5).respond .ok))) ∧
    (∀ (cs : BitVec 3),
      (∀ t, Sparse.get (fun _ => none) s.spiUntil cs.toNat = some t → s.now < t →
        exec (.spiDataReady cs) s = .next (s.count rCAN 7)) ∧
      (Sparse.get (fun _ => none) s.spiUntil cs.toNat = none → exec (.spiDataReady cs) s = .next { s with
        spiUntil := Sparse.set (fun _ => none) s.spiUntil cs.toNat (some (s.now + s.spiNs cs.toNat)) }))

/-- R679, R713, R715: a link that completes training shows its generation, width and speed, a slower one counted. R683: a
link that goes down is counted. R687: in root complex mode PCIE_CFGDATA goes out to the device; in endpoint mode a read
returns zero and a write sets CFG_ERR. R690, R691: a lane over its threshold counts its errors, and a spare takes it or
four lanes are left. R693: a PUT from the peer is written into the window's object, or counted. R694: credits return 10 µs
after their last transfer. R695: a group entry is written while no operation of the group is in flight. (Readings of the
model: logs 16, 75, 78.) -/
def Obligations.LinksUpAndDown : Prop :=
  ∀ (s : State),
    (∀ (port : BitVec 2) (gen4 : Bool) (width : BitVec 2) (speed : BitVec 3), port.toNat ≤ 2 → speed.toNat ≠ 0 → speed.toNat ≤ 5 →
      s.pdState 30 = 0 → s.hostUp port.toNat = false →
      (port.toNat < 2 → s.flag (kUSBCFG port.toNat) 0 = true →
        (gen4 = true → s.flag (kUSBCFG port.toNat) 1 = true → exec (.linkUp port gen4 width speed) s = .next
          ((s.setFld (kUSBSTAT port.toNat) 1 0 3).setFlag (kUSBSTAT port.toNat) 2 true)) ∧
        (gen4 = false ∨ s.flag (kUSBCFG port.toNat) 1 = false → exec (.linkUp port gen4 width speed) s = .next
          (((s.setFld (kUSBSTAT port.toNat) 1 0 2).setFlag (kUSBSTAT port.toNat) 2 true).count rUSB 1))) ∧
      (port.toNat = 2 → ∀ u, u = ((s.setFld kPCIESTAT 3 1 width.toNat).setFld kPCIESTAT 6 4 speed.toNat).setFlag kPCIESTAT 7 true →
        (width.toNat = 3 → speed.toNat = 5 → exec (.linkUp port gen4 width speed) s = .next u) ∧
        (width.toNat < 3 ∨ speed.toNat < 5 → exec (.linkUp port gen4 width speed) s = .next (u.count rPCIE 1)))) ∧
    (∀ (port : BitVec 2), port.toNat ≤ 2 → s.hostUp port.toNat = true →
      (port.toNat < 2 → exec (.linkDown port) s = .next
        (((s.setFld (kUSBSTAT port.toNat) 1 0 0).setFlag (kUSBSTAT port.toNat) 2 false).count rUSB 0)) ∧
      (port.toNat = 2 → exec (.linkDown port) s = .next ((s.setFld kPCIESTAT 7 1 0).count rPCIE 0))) ∧
    (∀ (i : Initiator) (v : Word) (u : State), u = s.touch 30 →
      (s.Reaches i (rk rPCIE 2 0x104) v →
        (u.link.rcMode = true → exec (.pcieCfgAccess i true v) s = .next (State.respond { u with
          out := .device true true (u.fld (rk rPCIE 2 0x100) 27 0) v :: u.out } .ok)) ∧
        (u.link.rcMode = false → exec (.pcieCfgAccess i true v) s = .next ((u.cfgErr rPCIE i.itag).respond .ok))) ∧
      (s.Passes i (rk rPCIE 2 0x104) false →
        (u.link.rcMode = true → exec (.pcieCfgAccess i false v) s = .next (State.respond { u with
          out := .device true false (u.fld (rk rPCIE 2 0x100) 27 0) 0#32 :: u.out } .ok (leBytes 4 v.toNat))) ∧
        (u.link.rcMode = false → exec (.pcieCfgAccess i false v) s = .next (u.respond .ok (leBytes 4 0))))) ∧
    (∀ (link : BitVec 1),
      (∀ (lane : BitVec 3) (count : BitVec 16) (took : Bool) (u : State),
        s.fld (rk rLNK 1 (0x10C + 0x20 * link.toNat)) 15 0 < count.toNat →
        (lnkSpares link.toNat).fault (s.count rLNK 0 count.toNat) lane.toNat = (took, u) →
        (took = true → exec (.laneCeThreshold link lane count) s = .next u) ∧
        (took = false → u.lnkUp link.toNat = false → exec (.laneCeThreshold link lane count) s = .next { u with
          link := { u.link with halfLinks := link.toNat :: u.link.halfLinks } }) ∧
        (took = false → u.lnkUp link.toNat = true → exec (.laneCeThreshold link lane count) s = .next
          (State.setFld { u with link := { u.link with halfLinks := link.toNat :: u.link.halfLinks } } (kLNKSTAT link.toNat) 1 0 3))) ∧
      (∀ (off : DWord) (data : List Byte) (o : Obj) (u : State), s.lnkUp link.toNat = true → s.lnkMode link.toNat = 1 →
        BitVec.ofNat 12 (0x70 + link.toNat) ∉ s.frozen → s.flag (kWINOBJ link.toNat) 16 = true →
        s.validObj (s.fld (kWINOBJ link.toNat) 15 0) [0, 1, 2, 3, 4] = some o →
        (o.size < off.toNat + data.length → exec (.peerPut link off data) s = .next (s.count rLNK 7)) ∧
        (off.toNat + data.length ≤ o.size → s.objTxWrite (BitVec.ofNat 12 (0x70 + link.toNat)) o off.toNat data = (.ok (), u) →
          exec (.peerPut link off data) s = .next u)) ∧
      (∀ (q : BitVec 10), s.link.colls = [] → Sparse.get (fun _ => 0) s.link.credits (link.toNat * 1024 + q.toNat) ≠ 0 →
        Sparse.get (fun _ => 0) s.link.lastXfer (link.toNat * 1024 + q.toNat) + 10000 ≤ s.now →
        exec (.creditReturn link q) s = .next (s.dropCredits link.toNat q.toNat)) ∧
      (∀ (eight : Bool), s.lnkMode link.toNat ≠ 0 → s.pdState 30 = 0 → s.lnkUp link.toNat = false → s.link.colls = [] →
        exec (.lnkLinkUp link eight) s = .next
          (s.setFld (kLNKSTAT link.toNat) 1 0 (if eight && !s.link.halfLinks.contains link.toNat then 2 else 3))) ∧
      (s.lnkUp link.toNat = true → exec (.lnkLinkDown link) s = .next (s.setFld (kLNKSTAT link.toNat) 1 0 0))) ∧
    (∀ (i : Initiator) (group : BitVec 4) (word : BitVec 2) (v : Word) (u : State), u = s.touch (regionPd rLNK) →
      s.Reaches i (kGRP group.toNat word.toNat) v →
      (u.groupBusy group.toNat = true → exec (.groupWrite i group word v) s = .next ((u.cfgErr rLNK i.itag).respond .ok)) ∧
      (u.groupBusy group.toNat = false →
        (word.toNat = 1 → u.grpP group.toNat ≤ fieldOf v 17 0 →
          exec (.groupWrite i group word v) s = .next ((u.cfgErr rLNK i.itag).respond .ok)) ∧
        (word.toNat ≠ 1 ∨ fieldOf v 17 0 < u.grpP group.toNat →
          exec (.groupWrite i group word v) s = .next ((u.writeGeneric (kGRP group.toNat word.toNat) i.itag v).respond .ok))))

/-- R696–R699: an operation of a valid form and range, with its credits, reads its source and joins the collectives in
flight; a BARRIER or ALLREDUCE of one member completes at once, a BCAST's root writes its data. A PUT goes out when a link
of its group is up. R692: a bad flit and R700: a time-out or an abort marker end the operation they meet with a stopping
status, counted. R698: a flit of a collective is kept as a part of it, or until it starts. (Readings of the model: logs
16, 43.) -/
def Obligations.CollectivesRun : Prop :=
  ∀ (s : State) (q : BitVec 6),
    (∀ (o : Op), s.nextOp rLNK q.toNat = some o → s.pick rLNK = some q.toNat → s.groupBusy o.lnk.group = false →
      s.lnkEarlier o = false →
      (s.lnkFormOk q.toNat o = false → ∀ t, t = (s.start rLNK q.toNat o).conclude rLNK q.toNat o.index stREJ_FORMAT →
        (o.opcode = 1 → exec (.allreduce q) s = .next t) ∧ (o.opcode = 2 → exec (.bcast q) s = .next t) ∧
        (o.opcode = 4 → exec (.barrier q) s = .next t) ∧ (o.opcode = 5 → exec (.put q) s = .next t)) ∧
      (s.lnkFormOk q.toNat o = true → s.lnkRangeOk o = true →
        (∀ (u v : State) (c : Coll) (p : Op), o.opcode = 4 → s.grpP o.lnk.group = 1 → s.grpRank o.lnk.group = 0 →
          s.link.early = [] → s.link.colls = [] → u = s.start rLNK q.toNat o → c = ⟨q.toNat, o.index, o.lnk.group, u.now, [], [], 0⟩ →
          v = (u.setColls [c]).addInflight 0 → v.findOp rLNK q.toNat o.index = some p → p.status = none → p.lnk = o.lnk →
          p.opcode = 4 →
          exec (.barrier q) s = .next ((((v.dropColl c).noteXfer (v.grpLinks o.lnk.group) o.lnk.tq).addSat (kGRP o.lnk.group 3)
            31 0 1).conclude rLNK q.toNat o.index stDONE)) ∧
        (∀ (u v w : State) (x : Obj) (bs : List Byte) (n : Bool) (y : State), s.fld kINFLIGHT 14 0 < 16384 →
          s.takeAllCredits (s.grpLinks o.lnk.group) o.lnk.tq = (true, u) → v = u.start rLNK q.toNat o →
          v.validObj o.lnk.src [2, 3, 4] = some x →
          v.objTxRead (v.queue rTRANSIT o.lnk.tq).itag x o.lnk.srcOff o.lnk.bytes = (.ok (bs, n), w) →
          (∀ (c : Coll) (p : Op), w.link.early = [] → c = ⟨q.toNat, o.index, o.lnk.group, w.now, bs, [], 1⟩ →
            y = (w.setColls (w.link.colls ++ [c])).addInflight 1 → y.findOp rLNK q.toNat o.index = some p → p.status = none →
            p.lnk = o.lnk → p.opcode = o.opcode →
            (y.collResult p c = none →
              (o.opcode = 1 → exec (.allreduce q) s = .next y) ∧ (o.opcode = 2 → exec (.bcast q) s = .next y)) ∧
            (∀ (out : List Byte) (d : Obj) (z t : State), y.collResult p c = some out → y.validObj o.lnk.dst [2, 3, 4] = some d →
              ((y.dropColl c).noteXfer (y.grpLinks o.lnk.group) o.lnk.tq).validObj o.lnk.dst [2, 3, 4] = some d →
              State.objTxWrite ((y.dropColl c).noteXfer (y.grpLinks o.lnk.group) o.lnk.tq) (y.queue rTRANSIT o.lnk.tq).itag d
                o.lnk.dstOff out = (.ok (), z) →
              t = (z.addSat (kGRP o.lnk.group 3) 31 0 1).conclude rLNK q.toNat o.index stDONE →
              (o.opcode = 1 → exec (.allreduce q) s = .next t) ∧ (o.opcode = 2 → exec (.bcast q) s = .next t))) ∧
          (∀ (c : Coll) (p : Op), o.opcode = 5 → c = ⟨q.toNat, o.index, o.lnk.group, w.now, bs, [], 0⟩ →
            y = w.setColls (w.link.colls ++ [c]) → y.findOp rLNK q.toNat o.index = some p → p.lnk = o.lnk →
            ((y.grpLinks o.lnk.group).find? (fun l => y.lnkUp l && y.lnkMode l == 1) = none → exec (.put q) s = .next y) ∧
            (∀ l, (y.grpLinks o.lnk.group).find? (fun l => y.lnkUp l && y.lnkMode l == 1) = some l →
              exec (.put q) s = .next (((State.noteXfer { y.dropColl c with out := .put l o.lnk.dstOff bs :: y.out }
                ((State.grpLinks { y.dropColl c with out := .put l o.lnk.dstOff bs :: y.out }) o.lnk.group) o.lnk.tq).addSat
                  (kGRP o.lnk.group 3) 31 0 1).conclude rLNK q.toNat o.index stDONE)))))) ∧
    (∀ (c : Coll) (o : Op), s.link.colls.find? (fun c => c.queue == q.toNat) = some c → s.findOp rLNK q.toNat c.index = some o →
      o.opcode ≠ 5 →
      (c.start + o.lnk.tmo * 1000 ≤ s.now →
        exec (.collectiveTimeout q) s = .next ((s.count rLNK 3).collFail c stERR_TIMEOUT_WCET)) ∧
      (s.now < c.start + o.lnk.tmo * 1000 → exec (.collectiveTimeout q) s = .next s)) ∧
    (∀ (gid : BitVec 16) (u : State), u = s.count rLNK 4 →
      (u.collOf gid.toNat = none → exec (.abortMarker gid) s = .next u) ∧
      (∀ c, u.collOf gid.toNat = some c → exec (.abortMarker gid) s = .next (u.collFail c stERR_DATA))) ∧
    (∀ (link : BitVec 1) (gid : BitVec 16), s.lnkUp link.toNat = true →
      (∀ (u : State), u = (s.count rLNK 1).raise rLNK 2 { detail := BitVec.ofNat 64 gid.toNat } →
        (u.collOf gid.toNat = none → exec (.flitUncorrectable link gid) s = .next u) ∧
        (∀ c, u.collOf gid.toNat = some c → exec (.flitUncorrectable link gid) s = .next
          (State.collFail { u with out := .abortMarker gid.toNat :: u.out } c stERR_DATA))) ∧
      (∀ (level : BitVec 5) (rank : BitVec 18) (off : Nat) (data : List Byte), s.injArmed rLNK 0 = false →
        (s.collOf gid.toNat = none → exec (.collectiveFlitReceive link gid level rank off data) s = .next { s with
          link := { s.link with early := s.link.early ++ [(gid.toNat, ⟨level.toNat, rank.toNat, off, data⟩)] } }) ∧
        (∀ c d, s.collOf gid.toNat = some c → d = { c with parts := ⟨level.toNat, rank.toNat, off, data⟩ :: c.parts } →
          exec (.collectiveFlitReceive link gid level rank off data) s = .next
            ((s.setColls (s.link.colls.map (fun x => if x.queue = d.queue ∧ x.index = d.index then d else x))).collTry d))))

/-- R86: a register is written and read by a naturally aligned access of 32 bits; an aligned access of 64 bits is the
access at the lower address followed by the one at the higher; any other width or alignment, of an initiator that passes
the checks before it, is a protocol violation of the region's block. -/
def Obligations.AccessWidths : Prop :=
  ∀ (s : State) (i : Initiator) (addr : BitVec 44) (k bytes : Nat) (v : DWord), s.site addr.toNat = .regs k →
    (bytes = 4 → k % 4 = 0 →
      exec (.registerWrite i addr bytes v) s = .next (s.regWrite i k (v.setWidth 32)) ∧
      exec (.registerRead i addr bytes) s = .next (s.regReadBy i k)) ∧
    (bytes = 8 → k % 8 = 0 →
      (∃ resp_, exec (.registerWrite i addr bytes v) s = .next
        { (s.regWrite i k (v.setWidth 32)).regWrite i (k + 4) ((v >>> 32).setWidth 32) with resp := resp_ }) ∧
      ∃ resp_, exec (.registerRead i addr bytes) s = .next { (s.regReadBy i k).regReadBy i (k + 4) with resp := resp_ }) ∧
    (¬(bytes = 4 ∧ k % 4 = 0) → ¬(bytes = 8 ∧ k % 8 = 0) → i.itag ∉ s.frozen → itagVerdict i = .pass →
      s.aerInject i.itag = s →
      exec (.registerWrite i addr bytes v) s = .next
        ((s.offend i.itag (siteBlock (.regs k)) 4 (regAddr k)).respond .violation []) ∧
      exec (.registerRead i addr bytes) s = .next
        ((s.offend i.itag (siteBlock (.regs k)) 4 (regAddr k)).respond .violation (leBytes 4 0)))

/-- R90: a permitted write of a register that has no rule of its own (the page-0 header but BLK_CTRL, BLK_EINJ and
BLK_FRZ; the registers of the Transit Engine, LPDDR and the application clusters) acts field by field: RO keeps its value,
W1C clears and W1S sets the bits written as 1, RW takes the value written; a value outside the field's limits leaves it
and sets CFG_ERR, and a locked RWL field stays. Every other register is unchanged, but for those that record the CFG_ERR.
(Readings of the model: logs 17, 87.) -/
def Obligations.RegisterWrites : Prop :=
  ∀ (s : State) (i : Initiator) (addr : BitVec 44) (v : DWord) (k : Nat) (d : RDef),
    s.Canonical → s.site addr.toNat = .regs k → k % 4 = 0 → s.Reaches i k (v.setWidth 32) → regDef k = some d →
    ((rkPage k = 0 ∧ rkOff k ∉ [0x010, 0x028, 0x050]) ∨
      (rkPage k < 11 ∧ rkRegion k ∈ [rTRANSIT, rLPDDR, rAPC0, rAPC0 + 1, rAPC0 + 2, rAPC0 + 3])) →
    ∃ t, exec (.registerWrite i addr 4 v) s = .next t ∧ t.resp = { status := .ok } ∧ t.mem = s.mem ∧ t.queues = s.queues ∧
      (∀ f ∈ d.fields,
        (f.acc = .ro → t.fld k f.hi f.lo = s.fld k f.hi f.lo) ∧
        (f.acc = .w1c → t.fld k f.hi f.lo =
          Nat.land (s.fld k f.hi f.lo) (Nat.xor (fieldOf (v.setWidth 32) f.hi f.lo) (2 ^ (f.hi + 1 - f.lo) - 1))) ∧
        (f.acc = .w1s → t.fld k f.hi f.lo = Nat.lor (s.fld k f.hi f.lo) (fieldOf (v.setWidth 32) f.hi f.lo)) ∧
        (f.acc = .rw → t.fld k f.hi f.lo =
          if f.accepts (fieldOf (v.setWidth 32) f.hi f.lo) then fieldOf (v.setWidth 32) f.hi f.lo else s.fld k f.hi f.lo) ∧
        (f.acc = .rw → f.accepts (fieldOf (v.setWidth 32) f.hi f.lo) = false → t.flag (kESTAT (rkRegion k)) 0 = true) ∧
        (f.acc = .rwl → k ∈ s.locks → t.fld k f.hi f.lo = s.fld k f.hi f.lo) ∧
        (f.acc = .rwl → k ∉ s.locks → (∀ g ∈ d.fields, g.acc ≠ .rw) →
          t.fld k f.hi f.lo = fieldOf (v.setWidth 32) f.hi f.lo ∧ k ∈ t.locks)) ∧
      (∀ j, j ∉ k :: eventKeys (rkRegion k) → t.rd j = s.rd j) ∧
      ((∀ f ∈ d.fields, (f.acc = .rw → f.accepts (fieldOf (v.setWidth 32) f.hi f.lo) = true) ∧ f.acc ≠ .rwl) →
        ∀ j, j ≠ k → t.rd j = s.rd j)

/-- R83, R87, R89, R90: a read that passes its checks answers the register's value and changes nothing but the idle time
of the domain it reached: of a page-0 register other than BLK_STAT the stored word; of MERID_PHASE_LO the phase's low
word, which latches MERID_PHASE_HI. -/
def Obligations.RegisterReads : Prop :=
  ∀ (s : State) (i : Initiator) (addr : BitVec 44) (k : Nat), s.site addr.toNat = .regs k → k % 4 = 0 → s.Passes i k false →
    (rkPage k = 0 → rkOff k ≠ 0x014 →
      exec (.registerRead i addr 4) s = .next ((s.touch (s.keyPd k)).respond .ok (leBytes 4 (s.rd k).toNat))) ∧
    (k = rk rMERID 1 0x010 →
      exec (.registerRead i addr 4) s = .next
        ((s.wr (rk rMERID 1 0x014) ((s.phase64 >>> 32).setWidth 32)).respond .ok (leBytes 4 (s.phase64.setWidth 32).toNat))) ∧
    (∀ w u, regRead (s.touch (s.keyPd k)) k = (some w, u) →
      exec (.registerRead i addr 4) s = .next (u.respond .ok (leBytes 4 w.toNat)))

/-- R87–R90, R525, R534, R536, R718: what stops a register access, in the order in which it is checked. A frozen ITAG's
access is held; an ITAG that is not allocated, not the initiator's own or not in service is FWL's protocol violation; an
unassigned region or page, a refusal by the firewall or by the register's named writers is a firewall violation; a domain
that is OFF or HELD gives an error response; a gated or retained one wakes, and the access waits. (Readings of the model:
log 83.) -/
def Obligations.AccessChecks : Prop :=
  ∀ (s : State) (i : Initiator) (addr : BitVec 44) (k : Nat) (v : DWord),
    s.site addr.toNat = .regs k → k % 4 = 0 → s.aerInject i.itag = s → s.injArmed rFWL 0 = false → s.injArmed rFWL 1 = false →
    s.injArmed rFWL 2 = false →
    (i.itag ∈ s.frozen →
      exec (.registerWrite i addr 4 v) s = .next
        (State.respond { s with held := s.held ++ [⟨i, k, true, v.setWidth 32⟩] } .held) ∧
      exec (.registerRead i addr 4) s = .next (State.respond { s with held := s.held ++ [⟨i, k, false, 0#32⟩] } .held)) ∧
    (i.itag ∉ s.frozen → (itagAllocated i.itag.toNat && i.owns && i.inService) = false →
      exec (.registerWrite i addr 4 v) s = .next ((s.offend i.itag rFWL 4 (regAddr k)).respond .violation)) ∧
    (i.itag ∉ s.frozen → (itagAllocated i.itag.toNat && i.owns && i.inService) = true →
      (40 ≤ rkRegion k →
        exec (.registerWrite i addr 4 v) s = .next ((s.offend i.itag rFWL 3 (regAddr k)).respond .violation) ∧
        exec (.registerRead i addr 4) s = .next ((s.offend i.itag rFWL 3 (regAddr k)).respond .violation (leBytes 4 0))) ∧
      (rkRegion k < 40 → (pageExists (rkRegion k) (rkPage k) && s.fwPermits (rkRegion k) i.itag.toNat (regAddr k) true) = false →
        exec (.registerWrite i addr 4 v) s = .next ((s.offend i.itag (rkRegion k) 3 (regAddr k)).respond .violation)) ∧
      (rkRegion k < 40 → (pageExists (rkRegion k) (rkPage k) && s.fwPermits (rkRegion k) i.itag.toNat (regAddr k) true) = true →
        ((s.mayWrite k i.itag.toNat && !s.changesOwned k i.itag.toNat (v.setWidth 32)) = false →
          exec (.registerWrite i addr 4 v) s = .next ((s.offend i.itag (rkRegion k) 3 (regAddr k)).respond .violation)) ∧
        ((s.mayWrite k i.itag.toNat && !s.changesOwned k i.itag.toNat (v.setWidth 32)) = true →
          (s.pdDown (s.keyPd k) = true → exec (.registerWrite i addr 4 v) s = .next (s.respond .error)) ∧
          (s.pdState (s.keyPd k) = 1 ∨ s.pdState (s.keyPd k) = 2 →
            exec (.registerWrite i addr 4 v) s = .next
              (State.respond { s.demandPd (s.keyPd k) with
                waiting := (s.demandPd (s.keyPd k)).waiting ++ [⟨i, k, true, v.setWidth 32⟩] } .waiting)))))

/-- R205, R474, R479: a memory access that passes its checks: a read of the Plate Store or of the Clock Drive's
descriptors and plan buffers answers the bytes addressed, and a write of the Plate Store or of the loop descriptors gives
each byte addressed its new value and leaves every other byte. A write to the active descriptor of a loop in RUN is
discarded and sets CFG_ERR. (Readings of the model: log 77.) -/
def Obligations.MemoryAccesses : Prop :=
  ∀ (s : State) (i : Initiator) (addr : BitVec 44), s.Canonical → s.badWords = [] →
    (∀ n u, s.MemPasses i addr.toNat n false → u.memInjects ((checkPoints addr.toNat n).map u.site) = (false, u) →
      u = ((checkPoints addr.toNat n).map (fun x => sitePd (s.site x))).foldl State.touch s →
      ((0xE0000000 ≤ addr.toNat ∧ addr.toNat < 0xF0000000) ∨ (0xC0000000 ≤ addr.toNat ∧ addr.toNat < 0xC0240000)) →
      exec (.memoryAccess i addr (.read n)) s = .next
        (u.respond .ok ((List.range n).map (fun j => Sparse.get memReset s.mem (addr.toNat + j))))) ∧
    (∀ bs u, s.MemPasses i addr.toNat bs.length true →
      u = ((checkPoints addr.toNat bs.length).map (fun x => sitePd (s.site x))).foldl State.touch s →
      ((0xE0000000 ≤ addr.toNat ∧ addr.toNat < 0xF0000000) ∨ (0xC0000000 ≤ addr.toNat ∧ addr.toNat < 0xC0240000)) →
      (s.runningDesc addr.toNat = false →
        ∃ mem_, exec (.memoryAccess i addr (.write bs)) s = .next (State.respond { u with mem := mem_ } .ok) ∧
          ∀ a, Sparse.get memReset mem_ a =
            if addr.toNat ≤ a then bs.getD (a - addr.toNat) (Sparse.get memReset s.mem a) else Sparse.get memReset s.mem a) ∧
      (s.runningDesc addr.toNat = true →
        exec (.memoryAccess i addr (.write bs)) s = .next ((u.cfgErr rDRIVE i.itag).respond .ok)))

/-- The queue of waiting commands: a step runs the command at its front on the state with the queue's rest; with none
waiting the block idles (the model's choice, log 2). -/
def Obligations.StepRunsFrontCommand : Prop :=
  ∀ (s : State), (∀ (c : Instr) (rest : List Instr), s.pending = c :: rest → step s = exec c (s.withPending rest)) ∧
    (s.pending = [] → step s = .next s)

/-- R38, R50, R83, R85, R91, R107: what power-on leaves. Every block's BLK_ID reads its region, its type, its instance and
the die, and BLK_VER reads 0x0000_0100; no work queue is enabled, no ITAG is frozen and nothing waits; the Meridian is in
FREE at the nominal increment of MERID_PERIOD 100,000,000 ns with phase 0; every register reads its reset value. (Readings
of the model: logs 22, 82.) -/
def Obligations.ResetValues : Prop :=
  (∀ k, State.reset.rd k = regReset k) ∧
  (∀ r, r < 40 → State.reset.fld (rk r 0 0) 5 0 = r ∧ State.reset.fld (rk r 0 0) 31 16 = 9 ∧
    State.reset.rd (rk r 0 4) = 0x100#32 ∧ State.reset.fld (rk r 0 0) 11 6 =
      [1, 1, 1, 1, 1, 1, 1, 1, 2, 3, 4, 4, 4, 4, 4, 4, 5, 6, 6, 6, 6, 7, 8, 9, 10, 11, 12, 13, 14, 15, 16, 17, 18, 19, 20, 21,
        22, 23, 24, 25].getD r 0) ∧
  State.reset.rd kPERIOD = 100000000#32 ∧ State.reset.lock = lkFREE ∧ State.reset.phase = 0 ∧
  State.reset.incr = State.reset.nominalIncr ∧ State.reset.rd kSLEWMAX = 2000#32 ∧ State.reset.fld kHOLDMAX 15 0 = 2000 ∧
  (∀ r q, (State.reset.queue r q).state = .disabled) ∧ State.reset.frozen = [] ∧ State.reset.held = [] ∧
  State.reset.waiting = [] ∧ State.reset.pending = [] ∧ State.reset.mem = [] ∧ State.reset.Canonical

/-- Every command completes: from every state whose front command names instances that exist, a step answers a next state
with the queue's rest, and only the passing of time and the loss of the standby input change the timebase count. A command
that names an instance the module lacks is refused under its own name. No step ends in a fault. -/
def Obligations.CommandsComplete : Prop :=
  ∀ (s : State) (c : Instr) (rest : List Instr), s.pending = c :: rest →
    (c.wellFormed = true → ∃ t, step s = .next t ∧ t.pending = rest ∧
      (∀ ns, c = .phaseAdvance ns → t.now = s.now + ns) ∧ (c = .standbyLoss → t.now = 0) ∧
      ((∀ ns, c ≠ .phaseAdvance ns) → c ≠ .standbyLoss → t.now = s.now)) ∧
    (c.wellFormed = false → ∃ name, step s = .refused (.illFormed name))

/-- Every step keeps every table of the state in its one canonical form, memory and registers among them, so that states
with the same contents are equal data. -/
def Obligations.StepsKeepCanonical : Prop :=
  ∀ (s t : State), s.Canonical → step s = .next t → t.Canonical
end

