-- ==== Sys2Proof/Laws/Sparse.lean ====
section
/-! SUPPORT. Finite maps: reading after writing, and that every update keeps the canonical form. -/

set_option Elab.async false

namespace Sys2Proof.Machine

variable {α : Type}

@[simp] theorem Sparse.get_nil (d : Nat → α) (k : Nat) : Sparse.get d [] k = d k := rfl

/-- A lower bound may be weakened. -/
theorem Sparse.rising_weaken {lo lo' : Nat} {m : Sparse α} (h : lo' ≤ lo) (hm : Sparse.rising (some lo) m = true) :
    Sparse.rising (some lo') m = true := by
  cases m with
  | nil => rfl
  | cons e rest =>
    simp only [Sparse.rising, Bool.and_eq_true, decide_eq_true_eq] at hm ⊢
    exact ⟨by omega, hm.2⟩

theorem Sparse.rising_none {lo : Option Nat} {m : Sparse α} (h : Sparse.rising lo m = true) : Sparse.rising none m = true := by
  cases lo with
  | none => exact h
  | some lo =>
    cases m with
    | nil => rfl
    | cons e rest => simp only [Sparse.rising, Bool.and_eq_true] at h; exact h.2

/-- Below the first key nothing is listed. -/
theorem Sparse.get_below (d : Nat → α) {m : Sparse α} {lo k : Nat} (hm : Sparse.rising (some lo) m = true) (hk : k ≤ lo) :
    Sparse.get d m k = d k := by
  induction m generalizing lo with
  | nil => rfl
  | cons e rest ih =>
    simp only [Sparse.rising, Bool.and_eq_true, decide_eq_true_eq] at hm
    have hne : e.1 ≠ k := by omega
    simp only [Sparse.get, hne, if_false]
    exact ih hm.2 (by omega)

theorem Sparse.get_erase_ne (d : Nat → α) (m : Sparse α) {j k : Nat} (h : j ≠ k) :
    Sparse.get d (Sparse.erase m k) j = Sparse.get d m j := by
  induction m with
  | nil => rfl
  | cons e rest ih =>
    simp only [Sparse.erase]
    split
    · next he => simp [Sparse.get, show e.1 ≠ j by omega]
    · simp only [Sparse.get, ih]

theorem Sparse.get_insert_ne (d : Nat → α) (m : Sparse α) {j k : Nat} (v : α) (h : j ≠ k) :
    Sparse.get d (Sparse.insert m k v) j = Sparse.get d m j := by
  induction m with
  | nil => simp [Sparse.insert, Sparse.get, h.symm]
  | cons e rest ih =>
    simp only [Sparse.insert]
    split
    · simp [Sparse.get, h.symm]
    · split
      · next he => subst he; simp [Sparse.get, h.symm]
      · simp only [Sparse.get, ih]

theorem Sparse.get_insert_self (d : Nat → α) (m : Sparse α) (k : Nat) (v : α) :
    Sparse.get d (Sparse.insert m k v) k = v := by
  induction m with
  | nil => simp [Sparse.insert, Sparse.get]
  | cons e rest ih =>
    simp only [Sparse.insert]
    split
    · simp [Sparse.get]
    · split
      · simp [Sparse.get]
      · next hne => simp [Sparse.get, show e.1 ≠ k by omega, ih]

theorem Sparse.get_erase_self (d : Nat → α) {m : Sparse α} (k : Nat) {lo : Option Nat} (hm : Sparse.rising lo m = true) :
    Sparse.get d (Sparse.erase m k) k = d k := by
  induction m generalizing lo with
  | nil => rfl
  | cons e rest ih =>
    have hr : Sparse.rising (some e.1) rest = true := by
      cases lo with
      | none => exact hm
      | some lo => simp only [Sparse.rising, Bool.and_eq_true] at hm; exact hm.2
    simp only [Sparse.erase]
    split
    · next he => exact Sparse.get_below d hr (by omega)
    · next he => simp only [Sparse.get, he, if_false]; exact ih hr

/-- A write leaves every other key alone. -/
theorem Sparse.get_set_ne [DecidableEq α] (d : Nat → α) (m : Sparse α) {j k : Nat} (v : α) (h : j ≠ k) :
    Sparse.get d (Sparse.set d m k v) j = Sparse.get d m j := by
  unfold Sparse.set
  split
  · exact Sparse.get_erase_ne d m h
  · exact Sparse.get_insert_ne d m v h

/-- A read after a write to the same key gives the value written. -/
theorem Sparse.get_set_self [DecidableEq α] (d : Nat → α) {m : Sparse α} (k : Nat) (v : α) (hm : Sparse.wf d m = true) :
    Sparse.get d (Sparse.set d m k v) k = v := by
  simp only [Sparse.wf, Bool.and_eq_true] at hm
  unfold Sparse.set
  split
  · next h => rw [Sparse.get_erase_self d k hm.1, h]
  · exact Sparse.get_insert_self d m k v

theorem Sparse.rising_erase {lo : Option Nat} {m : Sparse α} (k : Nat) (h : Sparse.rising lo m = true) :
    Sparse.rising lo (Sparse.erase m k) = true := by
  induction m generalizing lo with
  | nil => exact h
  | cons e rest ih =>
    have hr : Sparse.rising (some e.1) rest = true := by
      cases lo with
      | none => exact h
      | some lo => simp only [Sparse.rising, Bool.and_eq_true] at h; exact h.2
    simp only [Sparse.erase]
    cases lo with
    | none =>
      split
      · exact Sparse.rising_none hr
      · exact ih hr
    | some lo =>
      simp only [Sparse.rising, Bool.and_eq_true, decide_eq_true_eq] at h
      split
      · exact Sparse.rising_weaken (by omega) hr
      · simp only [Sparse.rising, Bool.and_eq_true, decide_eq_true_eq]; exact ⟨h.1, ih hr⟩

theorem Sparse.rising_insert {lo : Option Nat} {m : Sparse α} (k : Nat) (v : α) (h : Sparse.rising lo m = true)
    (hk : ∀ l, lo = some l → l < k) : Sparse.rising lo (Sparse.insert m k v) = true := by
  induction m generalizing lo with
  | nil =>
    cases lo with
    | none => rfl
    | some lo => simp [Sparse.insert, Sparse.rising, hk lo rfl]
  | cons e rest ih =>
    have hr : Sparse.rising (some e.1) rest = true := by
      cases lo with
      | none => exact h
      | some lo => simp only [Sparse.rising, Bool.and_eq_true] at h; exact h.2
    simp only [Sparse.insert]
    split
    · next hlt =>
      have hb : Sparse.rising (some k) ((e.1, e.2) :: rest) = true := by
        simp only [Sparse.rising, Bool.and_eq_true, decide_eq_true_eq]; exact ⟨hlt, hr⟩
      cases lo with
      | none => exact hb
      | some lo => simp only [Sparse.rising, Bool.and_eq_true, decide_eq_true_eq]; exact ⟨hk lo rfl, hlt, hr⟩
    · split
      · next heq =>
        subst heq
        cases lo with
        | none => exact hr
        | some lo => simp only [Sparse.rising, Bool.and_eq_true, decide_eq_true_eq]; exact ⟨hk lo rfl, hr⟩
      · next hge hne =>
        have hi := ih (lo := some e.1) hr (fun l hl => by cases hl; omega)
        cases lo with
        | none => exact hi
        | some lo =>
          simp only [Sparse.rising, Bool.and_eq_true, decide_eq_true_eq] at h ⊢
          exact ⟨h.1, hi⟩

theorem Sparse.mem_erase {m : Sparse α} {k : Nat} {e : Nat × α} (h : e ∈ Sparse.erase m k) : e ∈ m := by
  induction m with
  | nil => exact h
  | cons f rest ih =>
    simp only [Sparse.erase] at h
    split at h
    · exact List.mem_cons_of_mem _ h
    · cases h with
      | head => exact List.mem_cons_self
      | tail _ h => exact List.mem_cons_of_mem _ (ih h)

theorem Sparse.mem_insert {m : Sparse α} {k : Nat} {v : α} {e : Nat × α} (h : e ∈ Sparse.insert m k v) :
    e = (k, v) ∨ e ∈ m := by
  induction m with
  | nil => simp only [Sparse.insert, List.mem_singleton] at h; exact .inl h
  | cons f rest ih =>
    simp only [Sparse.insert] at h
    split at h
    · simpa using h
    · split at h
      · cases h with
        | head => exact .inl rfl
        | tail _ h => exact .inr (List.mem_cons_of_mem _ h)
      · cases h with
        | head => exact .inr List.mem_cons_self
        | tail _ h =>
          rcases ih h with rfl | h
          · exact .inl rfl
          · exact .inr (List.mem_cons_of_mem _ h)

/-- A write keeps the canonical form. -/
theorem Sparse.wf_set [DecidableEq α] (d : Nat → α) {m : Sparse α} (k : Nat) (v : α) (hm : Sparse.wf d m = true) :
    Sparse.wf d (Sparse.set d m k v) = true := by
  simp only [Sparse.wf, Bool.and_eq_true, List.all_eq_true, decide_eq_true_eq] at hm ⊢
  unfold Sparse.set
  split
  · exact ⟨Sparse.rising_erase k hm.1, fun e he => hm.2 e (Sparse.mem_erase he)⟩
  · next hv =>
    refine ⟨Sparse.rising_insert k v hm.1 (fun l hl => by cases hl), fun e he => ?_⟩
    rcases Sparse.mem_insert he with rfl | he
    · exact hv
    · exact hm.2 e he

theorem Sparse.rising_filter {lo : Option Nat} {m : Sparse α} (p : Nat × α → Bool) (h : Sparse.rising lo m = true) :
    Sparse.rising lo (m.filter p) = true := by
  induction m generalizing lo with
  | nil => exact h
  | cons e rest ih =>
    have hr : Sparse.rising (some e.1) rest = true := by
      cases lo with
      | none => exact h
      | some lo => simp only [Sparse.rising, Bool.and_eq_true] at h; exact h.2
    simp only [List.filter_cons]
    split
    · cases lo with
      | none => exact ih hr
      | some lo =>
        simp only [Sparse.rising, Bool.and_eq_true, decide_eq_true_eq] at h ⊢
        exact ⟨h.1, ih hr⟩
    · cases lo with
      | none => exact Sparse.rising_none (ih hr)
      | some lo =>
        simp only [Sparse.rising, Bool.and_eq_true, decide_eq_true_eq] at h
        exact Sparse.rising_weaken (by omega) (ih hr)

/-- Dropping entries keeps the canonical form. -/
theorem Sparse.wf_filter [DecidableEq α] (d : Nat → α) {m : Sparse α} (p : Nat × α → Bool) (hm : Sparse.wf d m = true) :
    Sparse.wf d (m.filter p) = true := by
  simp only [Sparse.wf, Bool.and_eq_true, List.all_eq_true, decide_eq_true_eq] at hm ⊢
  exact ⟨Sparse.rising_filter p hm.1, fun e he => hm.2 e (List.mem_of_mem_filter he)⟩

theorem Sparse.wf_restrict [DecidableEq α] (d : Nat → α) {m : Sparse α} (p : Nat → Bool) (hm : Sparse.wf d m = true) :
    Sparse.wf d (Sparse.restrict p m) = true := Sparse.wf_filter d _ hm

end Sys2Proof.Machine
end

