-- ==== Sys2Proof/Laws/Kept.lean ====
section
/-! SUPPORT. What every operation of the block keeps: the queue of waiting commands, the timebase count, and the canonical
form of every table of the state. `Kept s₀ s` says so of a state `s` reached from `s₀`; here are the rules that carry it
through updates, branches and folds. -/

set_option Elab.async false

namespace Sys2Proof.Machine

/-- `s` is reached from `s₀` without touching the queue or the timebase count, and its tables are canonical if those of
`s₀` were. -/
def Kept (s₀ s : State) : Prop := s.pending = s₀.pending ∧ s.now = s₀.now ∧ (s₀.Canonical → s.Canonical)

theorem Kept.refl (s : State) : Kept s s := ⟨rfl, rfl, id⟩

/-- A pair's state is kept where the pair is known. -/
theorem Kept.of_snd {α : Type} {s₀ t : State} {p : α × State} {a : α} (e : p = (a, t)) (h : Kept s₀ p.2) : Kept s₀ t := by
  subst e; exact h

theorem Kept.of_fst {α : Type} {s₀ t : State} {p : State × α} {a : α} (e : p = (t, a)) (h : Kept s₀ p.1) : Kept s₀ t := by
  subst e; exact h

theorem Kept.of_snd2 {α β : Type} {s₀ t : State} {p : α × β × State} {a : α} {b : β} (e : p = (a, b, t))
    (h : Kept s₀ p.2.2) : Kept s₀ t := by
  subst e; exact h

theorem Kept.of_snd3 {α β γ : Type} {s₀ t : State} {p : α × β × γ × State} {a : α} {b : β} {c : γ} (e : p = (a, b, c, t))
    (h : Kept s₀ p.2.2.2) : Kept s₀ t := by
  subst e; exact h

theorem Kept.of_fst2 {α β : Type} {s₀ t : State} {p : (α × State) × β} {a : α} {b : β} (e : p = ((a, t), b))
    (h : Kept s₀ p.1.2) : Kept s₀ t := by
  subst e; exact h

theorem Kept.ite {s₀ a b : State} {c : Prop} {d : Decidable c} (ha : c → Kept s₀ a) (hb : ¬c → Kept s₀ b) :
    Kept s₀ (if c then a else b) := by
  split
  · exact ha ‹_›
  · exact hb ‹_›

theorem Kept.ite_snd {α : Type} {s₀ : State} {a b : α × State} {c : Prop} {d : Decidable c} (ha : Kept s₀ a.2)
    (hb : Kept s₀ b.2) : Kept s₀ (if c then a else b).2 := by
  split
  · exact ha
  · exact hb

/-- A fold of a kept operation. -/
theorem Kept.foldl {α : Type} {s₀ s : State} {f : State → α → State} {l : List α} (hs : Kept s₀ s)
    (hf : ∀ s a, Kept s₀ s → Kept s₀ (f s a)) : Kept s₀ (l.foldl f s) := by
  induction l generalizing s with
  | nil => exact hs
  | cons x xs ih => exact ih (hf s x hs)

/-- A fold whose accumulator carries more than the state. -/
theorem Kept.foldl_snd {α β : Type} {s₀ : State} {f : β × State → α → β × State} {l : List α} {p : β × State}
    (hs : Kept s₀ p.2) (hf : ∀ p a, Kept s₀ p.2 → Kept s₀ (f p a).2) : Kept s₀ (l.foldl f p).2 := by
  induction l generalizing p with
  | nil => exact hs
  | cons x xs ih => exact ih (hf p x hs)

theorem Kept.foldl_fst {α β : Type} {s₀ : State} {f : State × β → α → State × β} {l : List α} {p : State × β}
    (hs : Kept s₀ p.1) (hf : ∀ p a, Kept s₀ p.1 → Kept s₀ (f p a).1) : Kept s₀ (l.foldl f p).1 := by
  induction l generalizing p with
  | nil => exact hs
  | cons x xs ih => exact ih (hf p x hs)

/-- An update of fields that are neither tables nor the queue nor the timebase count. -/
theorem Kept.update_iff {s₀ s : State}
    {phase_ : BitVec 96} {badWords_ : List Nat} {locks_ : List Nat} {frozen_ : List Itag} {held_ : List Access} {waiting_ : List Access} {unfreezing_ : List Itag} {log_ : NightLog} {fwl_ : Fwl} {merid_ : Merid}
    {watch_ : Watch} {pwr_ : Pwr} {plate_ : Plate} {sched_ : Sched} {link_ : Link} {solv_ : Solv} {cvu_ : Cvu}
    {can_ : Can} {openQam0_ : Nat} {openQam1_ : Nat} {drive_ : Drive} {occ_ : Occ} {afu_ : Afu} {boot_ : Boot}
    {age_ : Age} {csi_ : Csi} {eth_ : Eth} {resp_ : Response} {out_ : List Out} {free_ : Nat}
    : Kept s₀
      { now := s.now, phase := phase_, regs := s.regs, mem := s.mem, badWords := badWords_, locks := locks_,
        queues := s.queues, qcmds := s.qcmds, frozen := frozen_, held := held_, waiting := waiting_, armed := s.armed, unfreezing := unfreezing_, log := log_, fwl := fwl_, merid := merid_, watch := watch_, pwr := pwr_, plate := plate_, spares := s.spares, wins := s.wins, bind := s.bind, bootBind := s.bootBind,
        bindSt := s.bindSt, domes := s.domes, walkers := s.walkers, sched := sched_, link := link_, solv :=
        solv_, cvu := cvu_, can := can_, spiUntil := s.spiUntil, seeds := s.seeds, openQam0 := openQam0_,
        openQam1 := openQam1_, drive := drive_, occ := occ_, afu := afu_, boot := boot_, age := age_, csi :=
        csi_, eth := eth_, resp := resp_, out := out_, free := free_, pending := s.pending } ↔ Kept s₀ s := Iff.rfl

/-- `Kept` for a state that differs from `s` in its tables (and in fields that do not matter). -/
def KeptTables (s₀ s : State)
    (regs_ : Sparse Word) (mem_ : Sparse Byte) (queues_ : Sparse Queue) (qcmds_ : Sparse (Option QCmd))
    (armed_ : Sparse (Option ArmedUnfreeze)) (spares_ : Sparse SpareSt) (wins_ : Sparse Nat)
    (bind_ : Sparse Nat) (bootBind_ : Sparse Nat) (bindSt_ : Sparse Nat) (domes_ : Sparse Dome)
    (walkers_ : Sparse Walker) (spiUntil_ : Sparse (Option Nat)) (seeds_ : Sparse (Option Nat)) : Prop :=
  Kept s₀ { s with
    regs := regs_, mem := mem_, queues := queues_, qcmds := qcmds_, armed := armed_, spares := spares_,
    wins := wins_, bind := bind_, bootBind := bootBind_, bindSt := bindSt_, domes := domes_,
    walkers := walkers_, spiUntil := spiUntil_, seeds := seeds_ }

theorem Kept.tables_iff {s₀ s : State}
    {phase_ : BitVec 96} {regs_ : Sparse Word} {mem_ : Sparse Byte} {badWords_ : List Nat} {locks_ : List Nat}
    {queues_ : Sparse Queue} {qcmds_ : Sparse (Option QCmd)} {frozen_ : List Itag} {held_ : List Access}
    {waiting_ : List Access} {armed_ : Sparse (Option ArmedUnfreeze)} {unfreezing_ : List Itag}
    {log_ : NightLog} {fwl_ : Fwl} {merid_ : Merid} {watch_ : Watch} {pwr_ : Pwr} {plate_ : Plate}
    {spares_ : Sparse SpareSt} {wins_ : Sparse Nat} {bind_ : Sparse Nat} {bootBind_ : Sparse Nat}
    {bindSt_ : Sparse Nat} {domes_ : Sparse Dome} {walkers_ : Sparse Walker} {sched_ : Sched} {link_ : Link}
    {solv_ : Solv} {cvu_ : Cvu} {can_ : Can} {spiUntil_ : Sparse (Option Nat)} {seeds_ : Sparse (Option Nat)}
    {openQam0_ : Nat} {openQam1_ : Nat} {drive_ : Drive} {occ_ : Occ} {afu_ : Afu} {boot_ : Boot} {age_ : Age}
    {csi_ : Csi} {eth_ : Eth} {resp_ : Response} {out_ : List Out} {free_ : Nat}
    : Kept s₀
      { now := s.now, phase := phase_, regs := regs_, mem := mem_, badWords := badWords_, locks := locks_,
        queues := queues_, qcmds := qcmds_, frozen := frozen_, held := held_, waiting := waiting_,
        armed := armed_, unfreezing := unfreezing_, log := log_, fwl := fwl_, merid := merid_, watch := watch_,
        pwr := pwr_, plate := plate_, spares := spares_, wins := wins_, bind := bind_, bootBind := bootBind_,
        bindSt := bindSt_, domes := domes_, walkers := walkers_, sched := sched_, link := link_, solv := solv_,
        cvu := cvu_, can := can_, spiUntil := spiUntil_, seeds := seeds_, openQam0 := openQam0_,
        openQam1 := openQam1_, drive := drive_, occ := occ_, afu := afu_, boot := boot_, age := age_, csi := csi_,
        eth := eth_, resp := resp_, out := out_, free := free_, pending := s.pending }
      ↔ KeptTables s₀ s regs_ mem_ queues_ qcmds_ armed_ spares_ wins_ bind_ bootBind_ bindSt_ domes_ walkers_ spiUntil_ seeds_ := Iff.rfl

/-- Each table keeps its canonical form. -/
theorem KeptTables.intro {s₀ s : State}
    {regs_ : Sparse Word} {mem_ : Sparse Byte} {queues_ : Sparse Queue} {qcmds_ : Sparse (Option QCmd)}
    {armed_ : Sparse (Option ArmedUnfreeze)} {spares_ : Sparse SpareSt} {wins_ : Sparse Nat}
    {bind_ : Sparse Nat} {bootBind_ : Sparse Nat} {bindSt_ : Sparse Nat} {domes_ : Sparse Dome}
    {walkers_ : Sparse Walker} {spiUntil_ : Sparse (Option Nat)} {seeds_ : Sparse (Option Nat)}
    (h : Kept s₀ s)
    (h_regs : Sparse.wf regReset s.regs = true → Sparse.wf regReset regs_ = true)
    (h_mem : Sparse.wf memReset s.mem = true → Sparse.wf memReset mem_ = true)
    (h_queues : Sparse.wf (fun _ => ({} : Queue)) s.queues = true → Sparse.wf (fun _ => ({} : Queue)) queues_ = true)
    (h_qcmds : Sparse.wf (fun _ => (none : Option QCmd)) s.qcmds = true → Sparse.wf (fun _ => (none : Option QCmd)) qcmds_ = true)
    (h_armed : Sparse.wf (fun _ => (none : Option ArmedUnfreeze)) s.armed = true → Sparse.wf (fun _ => (none : Option ArmedUnfreeze)) armed_ = true)
    (h_spares : Sparse.wf (fun _ => ({} : SpareSt)) s.spares = true → Sparse.wf (fun _ => ({} : SpareSt)) spares_ = true)
    (h_wins : Sparse.wf (fun _ => 0) s.wins = true → Sparse.wf (fun _ => 0) wins_ = true)
    (h_bind : Sparse.wf bindHome s.bind = true → Sparse.wf bindHome bind_ = true)
    (h_bootBind : Sparse.wf bindHome s.bootBind = true → Sparse.wf bindHome bootBind_ = true)
    (h_bindSt : Sparse.wf bindStDflt s.bindSt = true → Sparse.wf bindStDflt bindSt_ = true)
    (h_domes : Sparse.wf (fun _ => ({} : Dome)) s.domes = true → Sparse.wf (fun _ => ({} : Dome)) domes_ = true)
    (h_walkers : Sparse.wf (fun _ => ({} : Walker)) s.walkers = true → Sparse.wf (fun _ => ({} : Walker)) walkers_ = true)
    (h_spiUntil : Sparse.wf (fun _ => (none : Option Nat)) s.spiUntil = true → Sparse.wf (fun _ => (none : Option Nat)) spiUntil_ = true)
    (h_seeds : Sparse.wf (fun _ => (none : Option Nat)) s.seeds = true → Sparse.wf (fun _ => (none : Option Nat)) seeds_ = true) :
    KeptTables s₀ s regs_ mem_ queues_ qcmds_ armed_ spares_ wins_ bind_ bootBind_ bindSt_ domes_ walkers_ spiUntil_ seeds_ :=
  ⟨h.1, h.2.1, fun hc => by
    obtain ⟨c0, c1, c2, c3, c4, c5, c6, c7, c8, c9, c10, c11, c12, c13⟩ := h.2.2 hc
    exact ⟨h_regs c0, h_mem c1, h_queues c2, h_qcmds c3, h_armed c4, h_spares c5, h_wins c6, h_bind c7, h_bootBind c8, h_bindSt c9, h_domes c10, h_walkers c11, h_spiUntil c12, h_seeds c13⟩⟩

/-- `Kept` for an operation that may not happen. -/
structure KeptOpt (s₀ : State) (o : Option State) : Prop where
  out : ∀ t, o = some t → Kept s₀ t

/-- `Kept` for an operation that may not happen and answers more than the state. -/
structure KeptOpt₂ {α : Type} (s₀ : State) (o : Option (α × State)) : Prop where
  out : ∀ a t, o = some (a, t) → Kept s₀ t

theorem KeptOpt.none {s₀ : State} : KeptOpt s₀ none := ⟨fun _ h => nomatch h⟩
theorem KeptOpt₂.none {α : Type} {s₀ : State} : KeptOpt₂ s₀ (none : Option (α × State)) := ⟨fun _ _ h => nomatch h⟩

theorem KeptOpt.some {s₀ s : State} (h : Kept s₀ s) : KeptOpt s₀ (some s) := ⟨fun _ e => Option.some.inj e ▸ h⟩
theorem KeptOpt₂.some {α : Type} {s₀ : State} {p : α × State} (h : Kept s₀ p.2) : KeptOpt₂ s₀ (some p) := ⟨fun _ _ e => by
  cases e; exact h⟩

theorem KeptOpt.elim {s₀ t : State} {o : Option State} (e : o = Option.some t) (h : KeptOpt s₀ o) : Kept s₀ t := h.out t e
theorem KeptOpt₂.elim {α : Type} {s₀ t : State} {o : Option (α × State)} {a : α} (e : o = Option.some (a, t))
    (h : KeptOpt₂ s₀ o) : Kept s₀ t := h.out a t e
theorem KeptOpt₂.elim' {α : Type} {s₀ : State} {o : Option (α × State)} {p : α × State} (e : o = Option.some p)
    (h : KeptOpt₂ s₀ o) : Kept s₀ p.2 := h.out p.1 p.2 e

theorem KeptOpt.getD {s₀ s : State} {o : Option State} (hs : Kept s₀ s) (h : KeptOpt s₀ o) : Kept s₀ (o.getD s) := by
  cases o with
  | none => exact hs
  | some t => exact h.out t rfl

theorem KeptOpt.findSome {α : Type} {s₀ : State} {l : List α} {f : α → Option State} (h : ∀ a, KeptOpt s₀ (f a)) :
    KeptOpt s₀ (l.findSome? f) := ⟨fun t e => by
  obtain ⟨a, _, ha⟩ := List.exists_of_findSome?_eq_some e; exact (h a).out t ha⟩
theorem KeptOpt₂.findSome {α β : Type} {s₀ : State} {l : List α} {f : α → Option (β × State)} (h : ∀ a, KeptOpt₂ s₀ (f a)) :
    KeptOpt₂ s₀ (l.findSome? f) := ⟨fun b t e => by
  obtain ⟨a, _, ha⟩ := List.exists_of_findSome?_eq_some e; exact (h a).out b t ha⟩

theorem KeptOpt.andThen {s₀ : State} {o : Option State} {f : State → Option State} (h : KeptOpt s₀ o)
    (hf : ∀ s, Kept s₀ s → KeptOpt s₀ (f s)) : KeptOpt s₀ (o.bind f) := by
  cases o with
  | none => exact KeptOpt.none
  | some t => exact hf t (h.out t rfl)
theorem KeptOpt.bind {α : Type} {s₀ : State} {o : Option α} {f : α → Option State} (hf : ∀ a, KeptOpt s₀ (f a)) :
    KeptOpt s₀ (o.bind f) := by
  cases o with
  | none => exact KeptOpt.none
  | some a => exact hf a

end Sys2Proof.Machine
end

