-- ==== Sys2Proof/Laws/KeptFlags.lean ====
section
/-! SUPPORT. What the operations of Machine/Flags.lean keep: the queue of commands, the timebase count and the canonical form of
every table. -/

set_option Elab.async false

set_option linter.tactic.unusedName false

namespace Sys2Proof.Machine

theorem State.wr_kept {s₀ : State} (s : State) (k : Nat) (w : Word) (h : Kept s₀ s) :
    Kept s₀ (State.wr s k w) := by
  unfold State.wr
  repeat' (first
    | with_reducible assumption
    | (with_reducible apply Kept.ite)
    | (intro _)
    | (with_reducible refine Kept.of_snd (by assumption) ?_)
    | (with_reducible refine Kept.of_snd2 (by assumption) ?_)
    | (with_reducible refine Kept.of_snd3 (by assumption) ?_)
    | (with_reducible refine Kept.of_fst (by assumption) ?_)
    | (with_reducible refine Kept.of_fst2 (by assumption) ?_)
    | (simp only [Kept.update_iff])
    | (simp only [Kept.tables_iff]; apply KeptTables.intro <;> first | with_reducible assumption | with_reducible refine Kept.of_snd (by assumption) ?_ | with_reducible refine Kept.of_snd2 (by assumption) ?_ | with_reducible refine Kept.of_snd3 (by assumption) ?_ | with_reducible refine Kept.of_fst (by assumption) ?_ | with_reducible refine Kept.of_fst2 (by assumption) ?_ | exact id | exact fun _ => rfl | (intro hw; first | exact Sparse.wf_set _ _ _ hw | exact Sparse.wf_restrict _ _ hw | exact Sparse.wf_filter _ _ hw)))

theorem State.setFld_kept {s₀ : State} (s : State) (k hi lo v : Nat) (h : Kept s₀ s) :
    Kept s₀ (State.setFld s k hi lo v) := by
  unfold State.setFld
  repeat' (first
    | with_reducible assumption
    | (with_reducible apply State.wr_kept))

theorem State.setFlag_kept {s₀ : State} (s : State) (k i : Nat) (b : Bool) (h : Kept s₀ s) :
    Kept s₀ (State.setFlag s k i b) := by
  unfold State.setFlag
  repeat' (first
    | with_reducible assumption
    | (with_reducible apply State.wr_kept))

theorem State.addSat_kept {s₀ : State} (s : State) (k hi lo n : Nat) (h : Kept s₀ s) :
    Kept s₀ (State.addSat s k hi lo n) := by
  unfold State.addSat
  repeat' (first
    | with_reducible assumption
    | (with_reducible apply State.setFld_kept))

theorem State.wr64_kept {s₀ : State} (s : State) (k v : Nat) (h : Kept s₀ s) :
    Kept s₀ (State.wr64 s k v) := by
  unfold State.wr64
  repeat' (first
    | with_reducible assumption
    | (with_reducible apply State.wr_kept))

theorem State.count_kept {s₀ : State} (s : State) (r k : Nat) (n : Nat) (h : Kept s₀ s) :
    Kept s₀ (State.count s r k n) := by
  unfold State.count
  repeat' (first
    | with_reducible assumption
    | (with_reducible apply State.addSat_kept))

theorem State.countTcc_kept {s₀ : State} (s : State) (r : Nat) (h : Kept s₀ s) :
    Kept s₀ (State.countTcc s r) := by
  unfold State.countTcc
  repeat' (first
    | with_reducible assumption
    | (with_reducible apply State.addSat_kept))

theorem State.dropReport_kept {s₀ : State} (s : State) (rep : Report) (h : Kept s₀ s) :
    Kept s₀ (State.dropReport s rep) := by
  unfold State.dropReport
  repeat' (first
    | with_reducible assumption
    | (with_reducible apply State.addSat_kept)
    | (with_reducible apply Kept.ite)
    | (intro _)
    | (with_reducible refine Kept.of_snd (by assumption) ?_)
    | (with_reducible refine Kept.of_snd2 (by assumption) ?_)
    | (with_reducible refine Kept.of_snd3 (by assumption) ?_)
    | (with_reducible refine Kept.of_fst (by assumption) ?_)
    | (with_reducible refine Kept.of_fst2 (by assumption) ?_)
    | (simp only [Kept.update_iff])
    | (simp only [Kept.tables_iff]; apply KeptTables.intro <;> first | with_reducible assumption | with_reducible refine Kept.of_snd (by assumption) ?_ | with_reducible refine Kept.of_snd2 (by assumption) ?_ | with_reducible refine Kept.of_snd3 (by assumption) ?_ | with_reducible refine Kept.of_fst (by assumption) ?_ | with_reducible refine Kept.of_fst2 (by assumption) ?_ | exact id | exact fun _ => rfl | (intro hw; first | exact Sparse.wf_set _ _ _ hw | exact Sparse.wf_restrict _ _ hw | exact Sparse.wf_filter _ _ hw))
    | split)

theorem State.report_kept {s₀ : State} (s : State) (rep : Report) (h : Kept s₀ s) :
    Kept s₀ (State.report s rep) := by
  unfold State.report
  repeat' (first
    | with_reducible assumption
    | (with_reducible apply State.addSat_kept)
    | (with_reducible apply State.dropReport_kept)
    | (with_reducible apply Kept.ite)
    | (intro _)
    | (with_reducible refine Kept.of_snd (by assumption) ?_)
    | (with_reducible refine Kept.of_snd2 (by assumption) ?_)
    | (with_reducible refine Kept.of_snd3 (by assumption) ?_)
    | (with_reducible refine Kept.of_fst (by assumption) ?_)
    | (with_reducible refine Kept.of_fst2 (by assumption) ?_)
    | (simp only [Kept.update_iff]))

theorem State.raise_kept {s₀ : State} (s : State) (r b : Nat) (e : Ev) (h : Kept s₀ s) :
    Kept s₀ (State.raise s r b e) := by
  unfold State.raise
  repeat' (first
    | with_reducible assumption
    | (with_reducible apply State.report_kept)
    | (with_reducible apply State.setFlag_kept)
    | (with_reducible apply State.wr_kept)
    | (with_reducible apply Kept.ite)
    | (intro _)
    | (with_reducible refine Kept.of_snd (by assumption) ?_)
    | (with_reducible refine Kept.of_snd2 (by assumption) ?_)
    | (with_reducible refine Kept.of_snd3 (by assumption) ?_)
    | (with_reducible refine Kept.of_fst (by assumption) ?_)
    | (with_reducible refine Kept.of_fst2 (by assumption) ?_)
    | (simp only [Kept.update_iff]))

theorem State.eventRecord_kept {s₀ : State} (s : State) (r : Nat) (ecnt : Nat) (e : Ev) (h : Kept s₀ s) :
    Kept s₀ (State.eventRecord s r ecnt e) := by
  unfold State.eventRecord
  repeat' (first
    | with_reducible assumption
    | (with_reducible apply State.report_kept))

theorem State.cfgErr_kept {s₀ : State} (s : State) (r : Nat) (t : Itag) (h : Kept s₀ s) :
    Kept s₀ (State.cfgErr s r t) := by
  unfold State.cfgErr
  repeat' (first
    | with_reducible assumption
    | (with_reducible apply State.raise_kept))

theorem State.draw_kept {s₀ : State} (s : State) (h : Kept s₀ s) :
    Kept s₀ (State.draw s).2 := by
  unfold State.draw
  repeat' (first
    | with_reducible assumption
    | (with_reducible apply Kept.ite)
    | (intro _)
    | (with_reducible refine Kept.of_snd (by assumption) ?_)
    | (with_reducible refine Kept.of_snd2 (by assumption) ?_)
    | (with_reducible refine Kept.of_snd3 (by assumption) ?_)
    | (with_reducible refine Kept.of_fst (by assumption) ?_)
    | (with_reducible refine Kept.of_fst2 (by assumption) ?_)
    | (simp only [Kept.update_iff]))

theorem State.injDone_kept {s₀ : State} (s : State) (r b : Nat) (h : Kept s₀ s) :
    Kept s₀ (State.injDone s r b) := by
  unfold State.injDone
  repeat' (first
    | with_reducible assumption
    | (with_reducible apply State.setFlag_kept))

theorem State.postCause_kept {s₀ : State} (s : State) (num : Nat) (island : Bool) (act : Option Nat) (inj : Bool) (h : Kept s₀ s) :
    Kept s₀ (State.postCause s num island act inj) := by
  unfold State.postCause
  repeat' (first
    | with_reducible assumption
    | (with_reducible apply Kept.ite)
    | (intro _)
    | (with_reducible refine Kept.of_snd (by assumption) ?_)
    | (with_reducible refine Kept.of_snd2 (by assumption) ?_)
    | (with_reducible refine Kept.of_snd3 (by assumption) ?_)
    | (with_reducible refine Kept.of_fst (by assumption) ?_)
    | (with_reducible refine Kept.of_fst2 (by assumption) ?_)
    | (simp only [Kept.update_iff]))

end Sys2Proof.Machine
end

