-- ==== Sys2Proof/Laws/KeptMem.lean ====
section
/-! SUPPORT. What the operations of Machine/Mem.lean keep: the queue of commands, the timebase count and the canonical form of
every table. -/

set_option Elab.async false

set_option linter.tactic.unusedName false

namespace Sys2Proof.Machine

theorem State.writeKey_kept {s₀ : State} (s : State) (k : Nat) (b : Byte) (h : Kept s₀ s) :
    KeptOpt s₀ (State.writeKey s k b) := by
  unfold State.writeKey
  repeat' (first
    | with_reducible assumption
    | (with_reducible apply Kept.ite)
    | (intro _)
    | (with_reducible refine Kept.of_snd (by assumption) ?_)
    | (with_reducible refine Kept.of_snd2 (by assumption) ?_)
    | (with_reducible refine Kept.of_snd3 (by assumption) ?_)
    | (with_reducible refine Kept.of_fst (by assumption) ?_)
    | (with_reducible refine Kept.of_fst2 (by assumption) ?_)
    | (with_reducible refine KeptOpt.elim (by assumption) ?_)
    | (with_reducible refine KeptOpt₂.elim (by assumption) ?_)
    | (with_reducible refine KeptOpt₂.elim' (by assumption) ?_)
    | (with_reducible apply KeptOpt.getD)
    | (with_reducible apply KeptOpt.findSome)
    | (with_reducible apply KeptOpt₂.findSome)
    | (with_reducible exact KeptOpt.none)
    | (with_reducible exact KeptOpt₂.none)
    | (with_reducible apply KeptOpt.some)
    | (with_reducible apply KeptOpt.andThen)
    | (with_reducible apply KeptOpt.bind)
    | (with_reducible apply KeptOpt₂.some)
    | (simp only [Kept.update_iff])
    | (simp only [Kept.tables_iff]; apply KeptTables.intro <;> first | with_reducible assumption | with_reducible refine Kept.of_snd (by assumption) ?_ | with_reducible refine Kept.of_snd2 (by assumption) ?_ | with_reducible refine Kept.of_snd3 (by assumption) ?_ | with_reducible refine Kept.of_fst (by assumption) ?_ | with_reducible refine Kept.of_fst2 (by assumption) ?_ | with_reducible refine KeptOpt.elim (by assumption) ?_ | with_reducible refine KeptOpt₂.elim (by assumption) ?_ | with_reducible refine KeptOpt₂.elim' (by assumption) ?_ | with_reducible apply KeptOpt.getD | with_reducible apply KeptOpt.findSome | with_reducible apply KeptOpt₂.findSome | with_reducible exact KeptOpt.none | with_reducible exact KeptOpt₂.none | with_reducible apply KeptOpt.some | with_reducible apply KeptOpt.andThen | with_reducible apply KeptOpt.bind | with_reducible apply KeptOpt₂.some | exact id | exact fun _ => rfl | (intro hw; first | exact Sparse.wf_set _ _ _ hw | exact Sparse.wf_restrict _ _ hw | exact Sparse.wf_filter _ _ hw))
    | split)

theorem State.setPcState_kept {s₀ : State} (s : State) (pc v : Nat) (h : Kept s₀ s) :
    Kept s₀ (State.setPcState s pc v) := by
  unfold State.setPcState
  repeat' (first
    | with_reducible assumption
    | (with_reducible apply State.setFld_kept))

theorem State.objPut_kept {s₀ : State} (s : State) (o : Obj) (off : Nat) (v : Byte) (h : Kept s₀ s) :
    KeptOpt s₀ (State.objPut s o off v) := by
  unfold State.objPut
  repeat' (first
    | with_reducible assumption
    | (with_reducible apply Opening.put_kept)
    | (with_reducible apply State.writeKey_kept)
    | (with_reducible apply Kept.ite)
    | (intro _)
    | (with_reducible apply Kept.foldl)
    | (with_reducible apply Kept.foldl_snd)
    | (with_reducible apply Kept.foldl_fst)
    | (with_reducible refine Kept.of_snd (by assumption) ?_)
    | (with_reducible refine Kept.of_snd2 (by assumption) ?_)
    | (with_reducible refine Kept.of_snd3 (by assumption) ?_)
    | (with_reducible refine Kept.of_fst (by assumption) ?_)
    | (with_reducible refine Kept.of_fst2 (by assumption) ?_)
    | (with_reducible refine KeptOpt.elim (by assumption) ?_)
    | (with_reducible refine KeptOpt₂.elim (by assumption) ?_)
    | (with_reducible refine KeptOpt₂.elim' (by assumption) ?_)
    | (with_reducible apply KeptOpt.getD)
    | (with_reducible apply KeptOpt.findSome)
    | (with_reducible apply KeptOpt₂.findSome)
    | (with_reducible exact KeptOpt.none)
    | (with_reducible exact KeptOpt₂.none)
    | (with_reducible apply KeptOpt.some)
    | (with_reducible apply KeptOpt.andThen)
    | (with_reducible apply KeptOpt.bind)
    | (with_reducible apply KeptOpt₂.some)
    | (simp only [Kept.update_iff])
    | (simp only [Kept.tables_iff]; apply KeptTables.intro <;> first | with_reducible assumption | with_reducible refine Kept.of_snd (by assumption) ?_ | with_reducible refine Kept.of_snd2 (by assumption) ?_ | with_reducible refine Kept.of_snd3 (by assumption) ?_ | with_reducible refine Kept.of_fst (by assumption) ?_ | with_reducible refine Kept.of_fst2 (by assumption) ?_ | with_reducible refine KeptOpt.elim (by assumption) ?_ | with_reducible refine KeptOpt₂.elim (by assumption) ?_ | with_reducible refine KeptOpt₂.elim' (by assumption) ?_ | with_reducible apply KeptOpt.getD | with_reducible apply KeptOpt.findSome | with_reducible apply KeptOpt₂.findSome | with_reducible exact KeptOpt.none | with_reducible exact KeptOpt₂.none | with_reducible apply KeptOpt.some | with_reducible apply KeptOpt.andThen | with_reducible apply KeptOpt.bind | with_reducible apply KeptOpt₂.some | exact id | exact fun _ => rfl | (intro hw; first | exact Sparse.wf_set _ _ _ hw | exact Sparse.wf_restrict _ _ hw | exact Sparse.wf_filter _ _ hw))
    | split)

theorem State.heal_kept {s₀ : State} (s : State) (keys : List Nat) (h : Kept s₀ s) :
    Kept s₀ (State.heal s keys) := by
  unfold State.heal
  repeat' (first
    | with_reducible assumption
    | (with_reducible apply Kept.ite)
    | (intro _)
    | (with_reducible refine Kept.of_snd (by assumption) ?_)
    | (with_reducible refine Kept.of_snd2 (by assumption) ?_)
    | (with_reducible refine Kept.of_snd3 (by assumption) ?_)
    | (with_reducible refine Kept.of_fst (by assumption) ?_)
    | (with_reducible refine Kept.of_fst2 (by assumption) ?_)
    | (simp only [Kept.update_iff]))

theorem State.sitePut_kept {s₀ : State} (s : State) (x : Site) (v : Byte) (h : Kept s₀ s) :
    KeptOpt s₀ (State.sitePut s x v) := by
  unfold State.sitePut
  repeat' (first
    | with_reducible assumption
    | (with_reducible apply State.objPut_kept)
    | (with_reducible apply State.writeKey_kept)
    | (with_reducible apply Kept.ite)
    | (intro _)
    | (with_reducible refine Kept.of_snd (by assumption) ?_)
    | (with_reducible refine Kept.of_snd2 (by assumption) ?_)
    | (with_reducible refine Kept.of_snd3 (by assumption) ?_)
    | (with_reducible refine Kept.of_fst (by assumption) ?_)
    | (with_reducible refine Kept.of_fst2 (by assumption) ?_)
    | (with_reducible refine KeptOpt.elim (by assumption) ?_)
    | (with_reducible refine KeptOpt₂.elim (by assumption) ?_)
    | (with_reducible refine KeptOpt₂.elim' (by assumption) ?_)
    | (with_reducible apply KeptOpt.getD)
    | (with_reducible apply KeptOpt.findSome)
    | (with_reducible apply KeptOpt₂.findSome)
    | (with_reducible exact KeptOpt.none)
    | (with_reducible exact KeptOpt₂.none)
    | (with_reducible apply KeptOpt.some)
    | (with_reducible apply KeptOpt.andThen)
    | (with_reducible apply KeptOpt.bind)
    | (with_reducible apply KeptOpt₂.some)
    | (simp only [Kept.update_iff])
    | (simp only [Kept.tables_iff]; apply KeptTables.intro <;> first | with_reducible assumption | with_reducible refine Kept.of_snd (by assumption) ?_ | with_reducible refine Kept.of_snd2 (by assumption) ?_ | with_reducible refine Kept.of_snd3 (by assumption) ?_ | with_reducible refine Kept.of_fst (by assumption) ?_ | with_reducible refine Kept.of_fst2 (by assumption) ?_ | with_reducible refine KeptOpt.elim (by assumption) ?_ | with_reducible refine KeptOpt₂.elim (by assumption) ?_ | with_reducible refine KeptOpt₂.elim' (by assumption) ?_ | with_reducible apply KeptOpt.getD | with_reducible apply KeptOpt.findSome | with_reducible apply KeptOpt₂.findSome | with_reducible exact KeptOpt.none | with_reducible exact KeptOpt₂.none | with_reducible apply KeptOpt.some | with_reducible apply KeptOpt.andThen | with_reducible apply KeptOpt.bind | with_reducible apply KeptOpt₂.some | exact id | exact fun _ => rfl | (intro hw; first | exact Sparse.wf_set _ _ _ hw | exact Sparse.wf_restrict _ _ hw | exact Sparse.wf_filter _ _ hw))
    | split)

theorem writeRun_kept {s₀ : State} {put : State → Nat → Byte → Option State}
    (hp : ∀ s i b, Kept s₀ s → KeptOpt s₀ (put s i b)) (s : State) (i : Nat) (bs : List Byte) (h : Kept s₀ s) :
    Kept s₀ (writeRun put s i bs).1 := by
  induction bs generalizing s i with
  | nil => exact h
  | cons b rest ih =>
    unfold writeRun
    split
    · next t e => exact ih t (i + 1) ((hp s i b h).out t e)
    · exact h

theorem State.writeSys_kept {s₀ : State} (s : State) (a : Nat) (bs : List Byte) (h : Kept s₀ s) :
    Kept s₀ (State.writeSys s a bs).1 :=
  writeRun_kept (fun _ _ _ hs => State.sitePut_kept _ _ _ hs) _ 0 bs (State.heal_kept _ _ h)

theorem State.writeObj_kept {s₀ : State} (s : State) (o : Obj) (off : Nat) (bs : List Byte) (h : Kept s₀ s) :
    Kept s₀ (State.writeObj s o off bs).1 :=
  writeRun_kept (fun _ _ _ hs => State.objPut_kept _ _ _ _ hs) _ 0 bs (State.heal_kept _ _ h)

theorem State.scramble_kept {s₀ : State} (s : State) (keys : List Nat) (h : Kept s₀ s) :
    Kept s₀ (State.scramble s keys) := by
  refine Kept.foldl h (fun s k hs => ?_)
  simp only [State.draw]
  exact KeptTables.intro hs id (Sparse.wf_set _ _ _) id id id id id id id id id id id id

end Sys2Proof.Machine
end

