-- ==== Sys2Proof/Laws/KeptOps.lean ====
section
/-! SUPPORT. What the operations of Machine/Ops.lean keep: the queue of commands, the timebase count and the canonical form of
every table. -/

set_option Elab.async false

set_option linter.tactic.unusedName false

namespace Sys2Proof.Machine

theorem State.setQueue_kept {s₀ : State} (s : State) (region q : Nat) (x : Queue) (h : Kept s₀ s) :
    Kept s₀ (State.setQueue s region q x) := by
  unfold State.setQueue
  repeat' (first
    | with_reducible assumption
    | (with_reducible apply Kept.ite)
    | (intro _)
    | (with_reducible refine Kept.of_snd (by assumption) ?_)
    | (with_reducible refine Kept.of_snd2 (by assumption) ?_)
    | (with_reducible refine Kept.of_snd3 (by assumption) ?_)
    | (with_reducible refine Kept.of_fst (by assumption) ?_)
    | (with_reducible refine Kept.of_fst2 (by assumption) ?_)
    | (simp only [Kept.update_iff])
    | (simp only [Kept.tables_iff]; apply KeptTables.intro <;> first | with_reducible assumption | with_reducible refine Kept.of_snd (by assumption) ?_ | with_reducible refine Kept.of_snd2 (by assumption) ?_ | with_reducible refine Kept.of_snd3 (by assumption) ?_ | with_reducible refine Kept.of_fst (by assumption) ?_ | with_reducible refine Kept.of_fst2 (by assumption) ?_ | exact id | exact fun _ => rfl | (intro hw; first | exact Sparse.wf_set _ _ _ hw | exact Sparse.wf_restrict _ _ hw | exact Sparse.wf_filter _ _ hw)))

theorem State.fwCheck_kept {s₀ : State} (s : State) (target : Nat) (t : Itag) (a : Nat) (write : Bool) (h : Kept s₀ s) :
    Kept s₀ (State.fwCheck s target t a write).2.2 := by
  unfold State.fwCheck
  repeat' (first
    | with_reducible assumption
    | (with_reducible apply State.count_kept)
    | (with_reducible apply State.injDone_kept)
    | (with_reducible apply State.raise_kept)
    | (with_reducible apply Kept.ite)
    | (intro _)
    | (with_reducible refine Kept.of_snd (by assumption) ?_)
    | (with_reducible refine Kept.of_snd2 (by assumption) ?_)
    | (with_reducible refine Kept.of_snd3 (by assumption) ?_)
    | (with_reducible refine Kept.of_fst (by assumption) ?_)
    | (with_reducible refine Kept.of_fst2 (by assumption) ?_)
    | (simp only [Kept.update_iff])
    | (simp only [Kept.tables_iff]; apply KeptTables.intro <;> first | with_reducible assumption | with_reducible refine Kept.of_snd (by assumption) ?_ | with_reducible refine Kept.of_snd2 (by assumption) ?_ | with_reducible refine Kept.of_snd3 (by assumption) ?_ | with_reducible refine Kept.of_fst (by assumption) ?_ | with_reducible refine Kept.of_fst2 (by assumption) ?_ | exact id | exact fun _ => rfl | (intro hw; first | exact Sparse.wf_set _ _ _ hw | exact Sparse.wf_restrict _ _ hw | exact Sparse.wf_filter _ _ hw))
    | split)

theorem State.checkSite_kept {s₀ : State} (s : State) (t : Itag) (a : Nat) (x : Site) (write : Bool) (h : Kept s₀ s) :
    Kept s₀ (State.checkSite s t a x write).2 := by
  unfold State.checkSite
  repeat' (first
    | with_reducible assumption
    | (with_reducible apply State.fwCheck_kept)
    | (with_reducible apply Kept.ite)
    | (intro _)
    | (with_reducible refine Kept.of_snd (by assumption) ?_)
    | (with_reducible refine Kept.of_snd2 (by assumption) ?_)
    | (with_reducible refine Kept.of_snd3 (by assumption) ?_)
    | (with_reducible refine Kept.of_fst (by assumption) ?_)
    | (with_reducible refine Kept.of_fst2 (by assumption) ?_)
    | (simp only [Kept.update_iff])
    | (simp only [Kept.tables_iff]; apply KeptTables.intro <;> first | with_reducible assumption | with_reducible refine Kept.of_snd (by assumption) ?_ | with_reducible refine Kept.of_snd2 (by assumption) ?_ | with_reducible refine Kept.of_snd3 (by assumption) ?_ | with_reducible refine Kept.of_fst (by assumption) ?_ | with_reducible refine Kept.of_fst2 (by assumption) ?_ | exact id | exact fun _ => rfl | (intro hw; first | exact Sparse.wf_set _ _ _ hw | exact Sparse.wf_restrict _ _ hw | exact Sparse.wf_filter _ _ hw))
    | split)

theorem State.showFrozen_kept {s₀ : State} (s : State) (home : Nat) (h : Kept s₀ s) :
    Kept s₀ (State.showFrozen s home) := by
  unfold State.showFrozen
  repeat' (first
    | with_reducible assumption
    | (with_reducible apply State.setFlag_kept)
    | (with_reducible apply State.setFld_kept))

theorem State.freezeQueues_kept {s₀ : State} (s : State) (t : Itag) (viol : Option (Nat × Nat × Nat)) (h : Kept s₀ s) :
    Kept s₀ (State.freezeQueues s t viol) := by
  unfold State.freezeQueues
  repeat' (first
    | with_reducible assumption
    | (with_reducible apply State.setQueue_kept)
    | (with_reducible apply Kept.ite)
    | (intro _)
    | (with_reducible apply Kept.foldl))

theorem State.faultLoop_kept {s₀ : State} (s : State) (l : Nat) (inj : Bool) (h : Kept s₀ s) :
    Kept s₀ (State.faultLoop s l inj) := by
  unfold State.faultLoop
  repeat' (first
    | with_reducible assumption
    | (with_reducible apply State.count_kept)
    | (with_reducible apply State.raise_kept)
    | (with_reducible apply State.setFld_kept))

theorem State.faultCore_kept {s₀ : State} (s : State) (core : Nat) (h : Kept s₀ s) :
    Kept s₀ (State.faultCore s core) := by
  unfold State.faultCore
  repeat' (first
    | with_reducible assumption
    | (with_reducible apply State.faultLoop_kept)
    | (with_reducible apply Kept.ite)
    | (intro _)
    | (with_reducible apply Kept.foldl))

theorem State.freeze_kept {s₀ : State} (s : State) (t : Itag) (viol : Option (Nat × Nat × Nat)) (h : Kept s₀ s) :
    Kept s₀ (State.freeze s t viol) := by
  unfold State.freeze
  repeat' (first
    | with_reducible assumption
    | (with_reducible apply State.cfgErr_kept)
    | (with_reducible apply State.faultCore_kept)
    | (with_reducible apply State.freezeQueues_kept)
    | (with_reducible apply State.raise_kept)
    | (with_reducible apply State.setFlag_kept)
    | (with_reducible apply State.setFld_kept)
    | (with_reducible apply State.showFrozen_kept)
    | (with_reducible apply Kept.ite)
    | (intro _)
    | (with_reducible refine Kept.of_snd (by assumption) ?_)
    | (with_reducible refine Kept.of_snd2 (by assumption) ?_)
    | (with_reducible refine Kept.of_snd3 (by assumption) ?_)
    | (with_reducible refine Kept.of_fst (by assumption) ?_)
    | (with_reducible refine Kept.of_fst2 (by assumption) ?_)
    | (simp only [Kept.update_iff])
    | (simp only [Kept.tables_iff]; apply KeptTables.intro <;> first | with_reducible assumption | with_reducible refine Kept.of_snd (by assumption) ?_ | with_reducible refine Kept.of_snd2 (by assumption) ?_ | with_reducible refine Kept.of_snd3 (by assumption) ?_ | with_reducible refine Kept.of_fst (by assumption) ?_ | with_reducible refine Kept.of_fst2 (by assumption) ?_ | exact id | exact fun _ => rfl | (intro hw; first | exact Sparse.wf_set _ _ _ hw | exact Sparse.wf_restrict _ _ hw | exact Sparse.wf_filter _ _ hw))
    | split)

theorem State.violate_kept {s₀ : State} (s : State) (t : Itag) (block bit addr : Nat) (viol : Option (Nat × Nat × Nat)) (h : Kept s₀ s) :
    Kept s₀ (State.violate s t block bit addr viol) := by
  unfold State.violate
  repeat' (first
    | with_reducible assumption
    | (with_reducible apply State.count_kept)
    | (with_reducible apply State.freeze_kept)
    | (with_reducible apply State.raise_kept)
    | (with_reducible apply Kept.ite)
    | (intro _))

theorem State.setPd_kept {s₀ : State} (s : State) (pd st : Nat) (h : Kept s₀ s) :
    Kept s₀ (State.setPd s pd st) := by
  unfold State.setPd
  repeat' (first
    | with_reducible assumption
    | (with_reducible apply State.setFlag_kept)
    | (with_reducible apply State.setFld_kept)
    | (with_reducible apply Kept.ite)
    | (intro _)
    | (with_reducible apply Kept.foldl))

theorem State.touch_kept {s₀ : State} (s : State) (pd : Nat) (h : Kept s₀ s) :
    Kept s₀ (State.touch s pd) := by
  unfold State.touch
  repeat' (first
    | with_reducible assumption
    | (with_reducible apply Kept.ite)
    | (intro _)
    | (with_reducible refine Kept.of_snd (by assumption) ?_)
    | (with_reducible refine Kept.of_snd2 (by assumption) ?_)
    | (with_reducible refine Kept.of_snd3 (by assumption) ?_)
    | (with_reducible refine Kept.of_fst (by assumption) ?_)
    | (with_reducible refine Kept.of_fst2 (by assumption) ?_)
    | (simp only [Kept.update_iff]))

theorem State.startExit_kept {s₀ : State} (s : State) (pd lat : Nat) (h : Kept s₀ s) :
    Kept s₀ (State.startExit s pd lat) := by
  unfold State.startExit
  repeat' (first
    | with_reducible assumption
    | (with_reducible apply State.setPd_kept)
    | (with_reducible apply Kept.ite)
    | (intro _)
    | (with_reducible refine Kept.of_snd (by assumption) ?_)
    | (with_reducible refine Kept.of_snd2 (by assumption) ?_)
    | (with_reducible refine Kept.of_snd3 (by assumption) ?_)
    | (with_reducible refine Kept.of_fst (by assumption) ?_)
    | (with_reducible refine Kept.of_fst2 (by assumption) ?_)
    | (simp only [Kept.update_iff]))

theorem State.demandPd_kept {s₀ : State} (s : State) (pd : Nat) (h : Kept s₀ s) :
    Kept s₀ (State.demandPd s pd) := by
  unfold State.demandPd
  repeat' (first
    | with_reducible assumption
    | (with_reducible apply State.startExit_kept)
    | (with_reducible apply State.touch_kept)
    | (with_reducible apply Kept.ite)
    | (intro _))

theorem State.checkRun_kept {s₀ : State} (s : State) (t : Itag) (write : Bool) (viol : Option (Nat × Nat × Nat))
    (as : List Nat) (h : Kept s₀ s) : Kept s₀ (State.checkRun s t write viol as).2 := by
  induction as generalizing s with
  | nil => exact h
  | cons a rest ih =>
    simp only [State.checkRun]
    split
    · next s' e =>
      have hs : Kept s₀ s' := Kept.of_snd e (State.checkSite_kept _ _ _ _ _ h)
      split
      · exact hs
      · exact ih _ (State.demandPd_kept _ _ hs)
    · next s' e => exact State.violate_kept _ _ _ _ _ _ (Kept.of_snd e (State.checkSite_kept _ _ _ _ _ h))
    · next s' e => exact Kept.of_snd e (State.checkSite_kept _ _ _ _ _ h)

theorem State.memInject_kept {s₀ : State} (s : State) (x : Site) (h : Kept s₀ s) :
    Kept s₀ (State.memInject s x).2 := by
  unfold State.memInject
  repeat' (first
    | with_reducible assumption
    | (with_reducible apply State.count_kept)
    | (with_reducible apply State.injDone_kept)
    | (with_reducible apply State.raise_kept)
    | (with_reducible apply Kept.ite)
    | (intro _)
    | (with_reducible refine Kept.of_snd (by assumption) ?_)
    | (with_reducible refine Kept.of_snd2 (by assumption) ?_)
    | (with_reducible refine Kept.of_snd3 (by assumption) ?_)
    | (with_reducible refine Kept.of_fst (by assumption) ?_)
    | (with_reducible refine Kept.of_fst2 (by assumption) ?_)
    | (simp only [Kept.update_iff])
    | (simp only [Kept.tables_iff]; apply KeptTables.intro <;> first | with_reducible assumption | with_reducible refine Kept.of_snd (by assumption) ?_ | with_reducible refine Kept.of_snd2 (by assumption) ?_ | with_reducible refine Kept.of_snd3 (by assumption) ?_ | with_reducible refine Kept.of_fst (by assumption) ?_ | with_reducible refine Kept.of_fst2 (by assumption) ?_ | exact id | exact fun _ => rfl | (intro hw; first | exact Sparse.wf_set _ _ _ hw | exact Sparse.wf_restrict _ _ hw | exact Sparse.wf_filter _ _ hw))
    | split)

theorem State.memInjects_kept {s₀ : State} (s : State) (xs : List Site) (h : Kept s₀ s) :
    Kept s₀ (State.memInjects s xs).2 := by
  unfold State.memInjects
  repeat' (first
    | with_reducible assumption
    | (with_reducible apply State.memInject_kept)
    | (with_reducible apply Kept.ite)
    | (intro _)
    | (with_reducible apply Kept.foldl)
    | (with_reducible apply Kept.foldl_snd))

theorem State.noteUncorr_kept {s₀ : State} (s : State) (x : Site) (h : Kept s₀ s) :
    Kept s₀ (State.noteUncorr s x) := by
  unfold State.noteUncorr
  repeat' (first
    | with_reducible assumption
    | (with_reducible apply State.count_kept)
    | (with_reducible apply State.raise_kept))

theorem State.txRead_kept {s₀ : State} (s : State) (t : Option Itag) (a n : Nat) (viol : Option (Nat × Nat × Nat)) (h : Kept s₀ s) :
    Kept s₀ (State.txRead s t a n viol).2 := by
  unfold State.txRead
  repeat' (first
    | with_reducible assumption
    | (with_reducible apply State.checkRun_kept)
    | (with_reducible apply State.memInjects_kept)
    | (with_reducible apply State.noteUncorr_kept)
    | (with_reducible apply Kept.ite)
    | (intro _)
    | (with_reducible refine Kept.of_snd (by assumption) ?_)
    | (with_reducible refine Kept.of_snd2 (by assumption) ?_)
    | (with_reducible refine Kept.of_snd3 (by assumption) ?_)
    | (with_reducible refine Kept.of_fst (by assumption) ?_)
    | (with_reducible refine Kept.of_fst2 (by assumption) ?_)
    | (simp only [Kept.update_iff])
    | (simp only [Kept.tables_iff]; apply KeptTables.intro <;> first | with_reducible assumption | with_reducible refine Kept.of_snd (by assumption) ?_ | with_reducible refine Kept.of_snd2 (by assumption) ?_ | with_reducible refine Kept.of_snd3 (by assumption) ?_ | with_reducible refine Kept.of_fst (by assumption) ?_ | with_reducible refine Kept.of_fst2 (by assumption) ?_ | exact id | exact fun _ => rfl | (intro hw; first | exact Sparse.wf_set _ _ _ hw | exact Sparse.wf_restrict _ _ hw | exact Sparse.wf_filter _ _ hw))
    | split)

theorem State.txWrite_kept {s₀ : State} (s : State) (t : Option Itag) (a : Nat) (bs : List Byte) (viol : Option (Nat × Nat × Nat)) (h : Kept s₀ s) :
    Kept s₀ (State.txWrite s t a bs viol).2 := by
  unfold State.txWrite
  repeat' (first
    | with_reducible assumption
    | (with_reducible apply State.checkRun_kept)
    | (with_reducible apply State.writeSys_kept)
    | (with_reducible apply Kept.ite)
    | (intro _)
    | (with_reducible refine Kept.of_snd (by assumption) ?_)
    | (with_reducible refine Kept.of_snd2 (by assumption) ?_)
    | (with_reducible refine Kept.of_snd3 (by assumption) ?_)
    | (with_reducible refine Kept.of_fst (by assumption) ?_)
    | (with_reducible refine Kept.of_fst2 (by assumption) ?_)
    | (simp only [Kept.update_iff])
    | (simp only [Kept.tables_iff]; apply KeptTables.intro <;> first | with_reducible assumption | with_reducible refine Kept.of_snd (by assumption) ?_ | with_reducible refine Kept.of_snd2 (by assumption) ?_ | with_reducible refine Kept.of_snd3 (by assumption) ?_ | with_reducible refine Kept.of_fst (by assumption) ?_ | with_reducible refine Kept.of_fst2 (by assumption) ?_ | exact id | exact fun _ => rfl | (intro hw; first | exact Sparse.wf_set _ _ _ hw | exact Sparse.wf_restrict _ _ hw | exact Sparse.wf_filter _ _ hw))
    | split)

end Sys2Proof.Machine
end

