-- ==== Sys2Proof/Laws/KeptQueue.lean ====
section
/-! SUPPORT. What the operations of Machine/Queue.lean keep: the queue of commands, the timebase count and the canonical form of
every table. -/

set_option Elab.async false

set_option linter.tactic.unusedName false

namespace Sys2Proof.Machine

theorem State.writeRecord_kept {s₀ : State} (s : State) (region q : Nat) (o : Op) (st : Nat) (h : Kept s₀ s) :
    Kept s₀ (State.writeRecord s region q o st) := by
  unfold State.writeRecord
  repeat' (first
    | with_reducible assumption
    | (with_reducible apply State.txWrite_kept)
    | (with_reducible apply Kept.ite)
    | (intro _)
    | (with_reducible refine Kept.of_snd (by assumption) ?_)
    | (with_reducible refine Kept.of_snd2 (by assumption) ?_)
    | (with_reducible refine Kept.of_snd3 (by assumption) ?_)
    | (with_reducible refine Kept.of_fst (by assumption) ?_)
    | (with_reducible refine Kept.of_fst2 (by assumption) ?_)
    | (simp only [Kept.update_iff])
    | (simp only [Kept.tables_iff]; apply KeptTables.intro <;> first | with_reducible assumption | with_reducible refine Kept.of_snd (by assumption) ?_ | with_reducible refine Kept.of_snd2 (by assumption) ?_ | with_reducible refine Kept.of_snd3 (by assumption) ?_ | with_reducible refine Kept.of_fst (by assumption) ?_ | with_reducible refine Kept.of_fst2 (by assumption) ?_ | exact id | exact fun _ => rfl | (intro hw; first | exact Sparse.wf_set _ _ _ hw | exact Sparse.wf_restrict _ _ hw | exact Sparse.wf_filter _ _ hw))
    | split)

theorem State.flushN_kept {s₀ : State} (region q fuel : Nat) (s : State) (h : Kept s₀ s) :
    Kept s₀ (State.flushN region q fuel s) := by
  induction fuel generalizing s with
  | zero => exact h
  | succ fuel ih =>
    simp only [State.flushN]
    split
    · exact Kept.ite (fun _ => State.setQueue_kept _ _ _ _ h) (fun _ => h)
    · split
      · exact h
      · exact Kept.ite
          (fun _ => State.raise_kept _ _ _ _ (State.setQueue_kept _ _ _ _ (State.writeRecord_kept _ _ _ _ _ h)))
          (fun _ => ih _ (State.setQueue_kept _ _ _ _ (State.writeRecord_kept _ _ _ _ _ h)))

theorem State.flush_kept {s₀ : State} (s : State) (region q : Nat) (h : Kept s₀ s) :
    Kept s₀ (State.flush s region q) := by
  unfold State.flush
  repeat' (first
    | with_reducible assumption
    | (with_reducible apply State.flushN_kept))

theorem State.flushItag_kept {s₀ : State} (s : State) (t : Itag) (h : Kept s₀ s) :
    Kept s₀ (State.flushItag s t) := by
  unfold State.flushItag
  repeat' (first
    | with_reducible assumption
    | (with_reducible apply State.flush_kept)
    | (with_reducible apply Kept.ite)
    | (intro _)
    | (with_reducible apply Kept.foldl))

theorem State.offend_kept {s₀ : State} (s : State) (t : Itag) (block bit addr : Nat) (h : Kept s₀ s) :
    Kept s₀ (State.offend s t block bit addr) := by
  unfold State.offend
  repeat' (first
    | with_reducible assumption
    | (with_reducible apply State.flushItag_kept)
    | (with_reducible apply State.violate_kept))

theorem State.mapOp_kept {s₀ : State} (s : State) (region q index : Nat) (f : Op → Op) (h : Kept s₀ s) :
    Kept s₀ (State.mapOp s region q index f) := by
  unfold State.mapOp
  repeat' (first
    | with_reducible assumption
    | (with_reducible apply State.setQueue_kept))

theorem State.start_kept {s₀ : State} (s : State) (region q : Nat) (o : Op) (h : Kept s₀ s) :
    Kept s₀ (State.start s region q o) := by
  unfold State.start
  repeat' (first
    | with_reducible assumption
    | (with_reducible apply State.mapOp_kept)
    | (with_reducible apply State.setQueue_kept))

theorem State.finish_kept {s₀ : State} (s : State) (region q index st : Nat) (result : DWord) (tcc retried : Bool) (h : Kept s₀ s) :
    Kept s₀ (State.finish s region q index st result tcc retried) := by
  unfold State.finish
  repeat' (first
    | with_reducible assumption
    | (with_reducible apply SpareSet.result_kept)
    | (with_reducible apply State.flush_kept)
    | (with_reducible apply State.mapOp_kept)
    | (with_reducible apply State.touch_kept))

theorem State.conclude_kept {s₀ : State} (s : State) (region q index st : Nat) (result : DWord) (after : Nat) (tcc retried : Bool) (h : Kept s₀ s) :
    Kept s₀ (State.conclude s region q index st result after tcc retried) := by
  unfold State.conclude
  repeat' (first
    | with_reducible assumption
    | (with_reducible apply SpareSet.result_kept)
    | (with_reducible apply State.mapOp_kept))

theorem State.forgetFailed_kept {s₀ : State} (s : State) (region q index : Nat) (h : Kept s₀ s) :
    Kept s₀ (State.forgetFailed s region q index) := by
  unfold State.forgetFailed
  repeat' (first
    | with_reducible assumption
    | (with_reducible apply State.setQueue_kept))

theorem State.fetchOp_kept {s₀ : State} (s : State) (region q index : Nat) (h : Kept s₀ s) :
    Kept s₀ (State.fetchOp s region q index) := by
  unfold State.fetchOp
  repeat' (first
    | with_reducible assumption
    | (with_reducible apply State.forgetFailed_kept)
    | (with_reducible apply State.mapOp_kept)
    | (with_reducible apply State.txRead_kept)
    | (with_reducible apply Kept.ite)
    | (intro _)
    | (with_reducible refine Kept.of_snd (by assumption) ?_)
    | (with_reducible refine Kept.of_snd2 (by assumption) ?_)
    | (with_reducible refine Kept.of_snd3 (by assumption) ?_)
    | (with_reducible refine Kept.of_fst (by assumption) ?_)
    | (with_reducible refine Kept.of_fst2 (by assumption) ?_)
    | (simp only [Kept.update_iff])
    | (simp only [Kept.tables_iff]; apply KeptTables.intro <;> first | with_reducible assumption | with_reducible refine Kept.of_snd (by assumption) ?_ | with_reducible refine Kept.of_snd2 (by assumption) ?_ | with_reducible refine Kept.of_snd3 (by assumption) ?_ | with_reducible refine Kept.of_fst (by assumption) ?_ | with_reducible refine Kept.of_fst2 (by assumption) ?_ | exact id | exact fun _ => rfl | (intro hw; first | exact Sparse.wf_set _ _ _ hw | exact Sparse.wf_restrict _ _ hw | exact Sparse.wf_filter _ _ hw))
    | split)

theorem State.loadOps_kept {s₀ : State} (s : State) (region q from_ : Nat) (occ : Word) (h : Kept s₀ s) :
    Kept s₀ (State.loadOps s region q from_ occ) := by
  unfold State.loadOps
  repeat' (first
    | with_reducible assumption
    | (with_reducible apply State.fetchOp_kept)
    | (with_reducible apply State.flush_kept)
    | (with_reducible apply State.flushItag_kept)
    | (with_reducible apply State.setQueue_kept)
    | (with_reducible apply Kept.ite)
    | (intro _)
    | (with_reducible apply Kept.foldl)
    | (with_reducible apply Kept.foldl_snd)
    | (with_reducible apply Kept.foldl_fst)
    | (with_reducible refine Kept.of_snd (by assumption) ?_)
    | (with_reducible refine Kept.of_snd2 (by assumption) ?_)
    | (with_reducible refine Kept.of_snd3 (by assumption) ?_)
    | (with_reducible refine Kept.of_fst (by assumption) ?_)
    | (with_reducible refine Kept.of_fst2 (by assumption) ?_)
    | (simp only [Kept.update_iff])
    | (simp only [Kept.tables_iff]; apply KeptTables.intro <;> first | with_reducible assumption | with_reducible refine Kept.of_snd (by assumption) ?_ | with_reducible refine Kept.of_snd2 (by assumption) ?_ | with_reducible refine Kept.of_snd3 (by assumption) ?_ | with_reducible refine Kept.of_fst (by assumption) ?_ | with_reducible refine Kept.of_fst2 (by assumption) ?_ | exact id | exact fun _ => rfl | (intro hw; first | exact Sparse.wf_set _ _ _ hw | exact Sparse.wf_restrict _ _ hw | exact Sparse.wf_filter _ _ hw))
    | split)

theorem State.releaseTo_kept {s₀ : State} (s : State) (region q newRel : Nat) (occ : Word) (h : Kept s₀ s) :
    Kept s₀ (State.releaseTo s region q newRel occ) := by
  unfold State.releaseTo
  repeat' (first
    | with_reducible assumption
    | (with_reducible apply State.demandPd_kept)
    | (with_reducible apply State.loadOps_kept)
    | (with_reducible apply State.setQueue_kept)
    | (with_reducible apply Kept.ite)
    | (intro _))

theorem State.doorbell_kept {s₀ : State} (s : State) (region q : Nat) (v : Word) (t : Itag) (h : Kept s₀ s) :
    Kept s₀ (State.doorbell s region q v t) := by
  unfold State.doorbell
  repeat' (first
    | with_reducible assumption
    | (with_reducible apply State.cfgErr_kept)
    | (with_reducible apply State.releaseTo_kept)
    | (with_reducible apply State.setQueue_kept)
    | (with_reducible apply Kept.ite)
    | (intro _))

theorem State.addShort_kept {s₀ : State} (s : State) (region q n : Nat) (h : Kept s₀ s) :
    Kept s₀ (State.addShort s region q n) := by
  unfold State.addShort
  repeat' (first
    | with_reducible assumption
    | (with_reducible apply State.setQueue_kept))

theorem State.ephDoorbell_kept {s₀ : State} (s : State) (region q dbinc : Nat) (occ : Word) (h : Kept s₀ s) :
    Kept s₀ (State.ephDoorbell s region q dbinc occ) := by
  unfold State.ephDoorbell
  repeat' (first
    | with_reducible assumption
    | (with_reducible apply State.addShort_kept)
    | (with_reducible apply State.releaseTo_kept)
    | (with_reducible apply Kept.ite)
    | (intro _))

theorem State.readContext_kept {s₀ : State} (s : State) (region q : Nat) (h : Kept s₀ s) :
    Kept s₀ (State.readContext s region q).2 := by
  unfold State.readContext
  repeat' (first
    | with_reducible assumption
    | (with_reducible apply State.flushItag_kept)
    | (with_reducible apply State.raise_kept)
    | (with_reducible apply State.txRead_kept)
    | (with_reducible apply Kept.ite)
    | (intro _)
    | (with_reducible refine Kept.of_snd (by assumption) ?_)
    | (with_reducible refine Kept.of_snd2 (by assumption) ?_)
    | (with_reducible refine Kept.of_snd3 (by assumption) ?_)
    | (with_reducible refine Kept.of_fst (by assumption) ?_)
    | (with_reducible refine Kept.of_fst2 (by assumption) ?_)
    | (simp only [Kept.update_iff])
    | (simp only [Kept.tables_iff]; apply KeptTables.intro <;> first | with_reducible assumption | with_reducible refine Kept.of_snd (by assumption) ?_ | with_reducible refine Kept.of_snd2 (by assumption) ?_ | with_reducible refine Kept.of_snd3 (by assumption) ?_ | with_reducible refine Kept.of_fst (by assumption) ?_ | with_reducible refine Kept.of_fst2 (by assumption) ?_ | exact id | exact fun _ => rfl | (intro hw; first | exact Sparse.wf_set _ _ _ hw | exact Sparse.wf_restrict _ _ hw | exact Sparse.wf_filter _ _ hw))
    | split)

theorem State.qEnable_kept {s₀ : State} (s : State) (region q : Nat) (h : Kept s₀ s) :
    Kept s₀ (State.qEnable s region q).2 := by
  unfold State.qEnable
  repeat' (first
    | with_reducible assumption
    | (with_reducible apply State.cfgErr_kept)
    | (with_reducible apply State.readContext_kept)
    | (with_reducible apply State.setQueue_kept)
    | (with_reducible apply Kept.ite)
    | (intro _)
    | (with_reducible refine Kept.of_snd (by assumption) ?_)
    | (with_reducible refine Kept.of_snd2 (by assumption) ?_)
    | (with_reducible refine Kept.of_snd3 (by assumption) ?_)
    | (with_reducible refine Kept.of_fst (by assumption) ?_)
    | (with_reducible refine Kept.of_fst2 (by assumption) ?_)
    | (simp only [Kept.update_iff])
    | (simp only [Kept.tables_iff]; apply KeptTables.intro <;> first | with_reducible assumption | with_reducible refine Kept.of_snd (by assumption) ?_ | with_reducible refine Kept.of_snd2 (by assumption) ?_ | with_reducible refine Kept.of_snd3 (by assumption) ?_ | with_reducible refine Kept.of_fst (by assumption) ?_ | with_reducible refine Kept.of_fst2 (by assumption) ?_ | exact id | exact fun _ => rfl | (intro hw; first | exact Sparse.wf_set _ _ _ hw | exact Sparse.wf_restrict _ _ hw | exact Sparse.wf_filter _ _ hw))
    | split)

theorem State.qDisable_kept {s₀ : State} (s : State) (region q : Nat) (h : Kept s₀ s) :
    Kept s₀ (State.qDisable s region q).2 := by
  unfold State.qDisable
  repeat' (first
    | with_reducible assumption
    | (with_reducible apply State.flush_kept)
    | (with_reducible apply State.setQueue_kept)
    | (with_reducible apply Kept.ite)
    | (intro _)
    | (with_reducible refine Kept.of_snd (by assumption) ?_)
    | (with_reducible refine Kept.of_snd2 (by assumption) ?_)
    | (with_reducible refine Kept.of_snd3 (by assumption) ?_)
    | (with_reducible refine Kept.of_fst (by assumption) ?_)
    | (with_reducible refine Kept.of_fst2 (by assumption) ?_)
    | (simp only [Kept.update_iff])
    | (simp only [Kept.tables_iff]; apply KeptTables.intro <;> first | with_reducible assumption | with_reducible refine Kept.of_snd (by assumption) ?_ | with_reducible refine Kept.of_snd2 (by assumption) ?_ | with_reducible refine Kept.of_snd3 (by assumption) ?_ | with_reducible refine Kept.of_fst (by assumption) ?_ | with_reducible refine Kept.of_fst2 (by assumption) ?_ | exact id | exact fun _ => rfl | (intro hw; first | exact Sparse.wf_set _ _ _ hw | exact Sparse.wf_restrict _ _ hw | exact Sparse.wf_filter _ _ hw))
    | split)

theorem State.qResume_kept {s₀ : State} (s : State) (region q newHead : Nat) (h : Kept s₀ s) :
    Kept s₀ (State.qResume s region q newHead).2 := by
  unfold State.qResume
  repeat' (first
    | with_reducible assumption
    | (with_reducible apply State.demandPd_kept)
    | (with_reducible apply State.loadOps_kept)
    | (with_reducible apply State.readContext_kept)
    | (with_reducible apply State.setQueue_kept)
    | (with_reducible apply Kept.ite)
    | (intro _)
    | (with_reducible refine Kept.of_snd (by assumption) ?_)
    | (with_reducible refine Kept.of_snd2 (by assumption) ?_)
    | (with_reducible refine Kept.of_snd3 (by assumption) ?_)
    | (with_reducible refine Kept.of_fst (by assumption) ?_)
    | (with_reducible refine Kept.of_fst2 (by assumption) ?_)
    | (simp only [Kept.update_iff])
    | (simp only [Kept.tables_iff]; apply KeptTables.intro <;> first | with_reducible assumption | with_reducible refine Kept.of_snd (by assumption) ?_ | with_reducible refine Kept.of_snd2 (by assumption) ?_ | with_reducible refine Kept.of_snd3 (by assumption) ?_ | with_reducible refine Kept.of_fst (by assumption) ?_ | with_reducible refine Kept.of_fst2 (by assumption) ?_ | exact id | exact fun _ => rfl | (intro hw; first | exact Sparse.wf_set _ _ _ hw | exact Sparse.wf_restrict _ _ hw | exact Sparse.wf_filter _ _ hw))
    | split)

theorem State.qcmdDo_kept {s₀ : State} (s : State) (region q cmd arg : Nat) (h : Kept s₀ s) :
    Kept s₀ (State.qcmdDo s region q cmd arg).2 := by
  unfold State.qcmdDo
  repeat' (first
    | with_reducible assumption
    | (with_reducible apply State.qDisable_kept)
    | (with_reducible apply State.qEnable_kept)
    | (with_reducible apply State.qResume_kept)
    | (with_reducible apply Kept.ite)
    | (intro _)
    | (with_reducible refine Kept.of_snd (by assumption) ?_)
    | (with_reducible refine Kept.of_snd2 (by assumption) ?_)
    | (with_reducible refine Kept.of_snd3 (by assumption) ?_)
    | (with_reducible refine Kept.of_fst (by assumption) ?_)
    | (with_reducible refine Kept.of_fst2 (by assumption) ?_)
    | (simp only [Kept.update_iff])
    | (simp only [Kept.tables_iff]; apply KeptTables.intro <;> first | with_reducible assumption | with_reducible refine Kept.of_snd (by assumption) ?_ | with_reducible refine Kept.of_snd2 (by assumption) ?_ | with_reducible refine Kept.of_snd3 (by assumption) ?_ | with_reducible refine Kept.of_fst (by assumption) ?_ | with_reducible refine Kept.of_fst2 (by assumption) ?_ | exact id | exact fun _ => rfl | (intro hw; first | exact Sparse.wf_set _ _ _ hw | exact Sparse.wf_restrict _ _ hw | exact Sparse.wf_filter _ _ hw))
    | split)

theorem State.qcmdWrite_kept {s₀ : State} (s : State) (region : Nat) (v : Word) (h : Kept s₀ s) :
    Kept s₀ (State.qcmdWrite s region v) := by
  unfold State.qcmdWrite
  repeat' (first
    | with_reducible assumption
    | ((fail_if_no_progress extract_lets +onlyGivenNames x); refine (?_ : Kept s₀ x → _) ?_; (on_goal 2 => subst x); (try clear_value x); intro hx)
    | ((fail_if_no_progress extract_lets +onlyGivenNames x); refine (?_ : Kept s₀ x.2 → _) ?_; (on_goal 2 => subst x); (try clear_value x); intro hx)
    | ((fail_if_no_progress extract_lets +onlyGivenNames x); (try clear_value x))
    | (with_reducible apply State.qcmdDo_kept)
    | (with_reducible apply State.setFld_kept)
    | (with_reducible apply State.wr_kept)
    | (with_reducible apply Kept.ite)
    | (intro _)
    | (with_reducible refine Kept.of_snd (by assumption) ?_)
    | (with_reducible refine Kept.of_snd2 (by assumption) ?_)
    | (with_reducible refine Kept.of_snd3 (by assumption) ?_)
    | (with_reducible refine Kept.of_fst (by assumption) ?_)
    | (with_reducible refine Kept.of_fst2 (by assumption) ?_)
    | (simp only [Kept.update_iff])
    | (simp only [Kept.tables_iff]; apply KeptTables.intro <;> first | with_reducible assumption | with_reducible refine Kept.of_snd (by assumption) ?_ | with_reducible refine Kept.of_snd2 (by assumption) ?_ | with_reducible refine Kept.of_snd3 (by assumption) ?_ | with_reducible refine Kept.of_fst (by assumption) ?_ | with_reducible refine Kept.of_fst2 (by assumption) ?_ | exact id | exact fun _ => rfl | (intro hw; first | exact Sparse.wf_set _ _ _ hw | exact Sparse.wf_restrict _ _ hw | exact Sparse.wf_filter _ _ hw))
    | split)

theorem State.qcmdDone_kept {s₀ : State} (s : State) (region : Nat) (h : Kept s₀ s) :
    Kept s₀ (State.qcmdDone s region) := by
  unfold State.qcmdDone
  repeat' (first
    | with_reducible assumption
    | (with_reducible apply State.setFld_kept)
    | (with_reducible apply Kept.ite)
    | (intro _)
    | (with_reducible refine Kept.of_snd (by assumption) ?_)
    | (with_reducible refine Kept.of_snd2 (by assumption) ?_)
    | (with_reducible refine Kept.of_snd3 (by assumption) ?_)
    | (with_reducible refine Kept.of_fst (by assumption) ?_)
    | (with_reducible refine Kept.of_fst2 (by assumption) ?_)
    | (simp only [Kept.update_iff])
    | (simp only [Kept.tables_iff]; apply KeptTables.intro <;> first | with_reducible assumption | with_reducible refine Kept.of_snd (by assumption) ?_ | with_reducible refine Kept.of_snd2 (by assumption) ?_ | with_reducible refine Kept.of_snd3 (by assumption) ?_ | with_reducible refine Kept.of_fst (by assumption) ?_ | with_reducible refine Kept.of_fst2 (by assumption) ?_ | exact id | exact fun _ => rfl | (intro hw; first | exact Sparse.wf_set _ _ _ hw | exact Sparse.wf_restrict _ _ hw | exact Sparse.wf_filter _ _ hw))
    | split)

theorem State.showQuiesced_kept {s₀ : State} (s : State) (region : Nat) (h : Kept s₀ s) :
    Kept s₀ (State.showQuiesced s region) := by
  unfold State.showQuiesced
  repeat' (first
    | with_reducible assumption
    | (with_reducible apply State.setFlag_kept))

theorem State.unquiesce_kept {s₀ : State} (s : State) (region : Nat) (h : Kept s₀ s) :
    Kept s₀ (State.unquiesce s region) := by
  unfold State.unquiesce
  repeat' (first
    | with_reducible assumption
    | (with_reducible apply State.releaseTo_kept)
    | (with_reducible apply Kept.ite)
    | (intro _)
    | (with_reducible apply Kept.foldl))

theorem State.cancelUnfreeze_kept {s₀ : State} (s : State) (region : Nat) (t : Itag) (h : Kept s₀ s) :
    Kept s₀ (State.cancelUnfreeze s region t) := by
  unfold State.cancelUnfreeze
  repeat' (first
    | with_reducible assumption
    | (with_reducible apply State.cfgErr_kept)
    | (with_reducible apply State.setFlag_kept)
    | (with_reducible apply Kept.ite)
    | (intro _)
    | (with_reducible refine Kept.of_snd (by assumption) ?_)
    | (with_reducible refine Kept.of_snd2 (by assumption) ?_)
    | (with_reducible refine Kept.of_snd3 (by assumption) ?_)
    | (with_reducible refine Kept.of_fst (by assumption) ?_)
    | (with_reducible refine Kept.of_fst2 (by assumption) ?_)
    | (simp only [Kept.update_iff])
    | (simp only [Kept.tables_iff]; apply KeptTables.intro <;> first | with_reducible assumption | with_reducible refine Kept.of_snd (by assumption) ?_ | with_reducible refine Kept.of_snd2 (by assumption) ?_ | with_reducible refine Kept.of_snd3 (by assumption) ?_ | with_reducible refine Kept.of_fst (by assumption) ?_ | with_reducible refine Kept.of_fst2 (by assumption) ?_ | exact id | exact fun _ => rfl | (intro hw; first | exact Sparse.wf_set _ _ _ hw | exact Sparse.wf_restrict _ _ hw | exact Sparse.wf_filter _ _ hw)))

theorem State.frzWrite_kept {s₀ : State} (s : State) (region : Nat) (t : Itag) (v : Word) (h : Kept s₀ s) :
    Kept s₀ (State.frzWrite s region t v) := by
  unfold State.frzWrite
  repeat' (first
    | with_reducible assumption
    | (with_reducible apply State.cancelUnfreeze_kept)
    | (with_reducible apply State.cfgErr_kept)
    | (with_reducible apply State.setFlag_kept)
    | (with_reducible apply Kept.ite)
    | (intro _)
    | (with_reducible refine Kept.of_snd (by assumption) ?_)
    | (with_reducible refine Kept.of_snd2 (by assumption) ?_)
    | (with_reducible refine Kept.of_snd3 (by assumption) ?_)
    | (with_reducible refine Kept.of_fst (by assumption) ?_)
    | (with_reducible refine Kept.of_fst2 (by assumption) ?_)
    | (simp only [Kept.update_iff])
    | (simp only [Kept.tables_iff]; apply KeptTables.intro <;> first | with_reducible assumption | with_reducible refine Kept.of_snd (by assumption) ?_ | with_reducible refine Kept.of_snd2 (by assumption) ?_ | with_reducible refine Kept.of_snd3 (by assumption) ?_ | with_reducible refine Kept.of_fst (by assumption) ?_ | with_reducible refine Kept.of_fst2 (by assumption) ?_ | exact id | exact fun _ => rfl | (intro hw; first | exact Sparse.wf_set _ _ _ hw | exact Sparse.wf_restrict _ _ hw | exact Sparse.wf_filter _ _ hw))
    | split)

theorem State.unfreeze_kept {s₀ : State} (s : State) (t : Itag) (h : Kept s₀ s) :
    Kept s₀ (State.unfreeze s t) := by
  unfold State.unfreeze
  repeat' (first
    | with_reducible assumption
    | (with_reducible apply State.setQueue_kept)
    | (with_reducible apply State.showFrozen_kept)
    | (with_reducible apply Kept.ite)
    | (intro _)
    | (with_reducible apply Kept.foldl)
    | (with_reducible apply Kept.foldl_snd)
    | (with_reducible apply Kept.foldl_fst)
    | (with_reducible refine Kept.of_snd (by assumption) ?_)
    | (with_reducible refine Kept.of_snd2 (by assumption) ?_)
    | (with_reducible refine Kept.of_snd3 (by assumption) ?_)
    | (with_reducible refine Kept.of_fst (by assumption) ?_)
    | (with_reducible refine Kept.of_fst2 (by assumption) ?_)
    | (simp only [Kept.update_iff])
    | (simp only [Kept.tables_iff]; apply KeptTables.intro <;> first | with_reducible assumption | with_reducible refine Kept.of_snd (by assumption) ?_ | with_reducible refine Kept.of_snd2 (by assumption) ?_ | with_reducible refine Kept.of_snd3 (by assumption) ?_ | with_reducible refine Kept.of_fst (by assumption) ?_ | with_reducible refine Kept.of_fst2 (by assumption) ?_ | exact id | exact fun _ => rfl | (intro hw; first | exact Sparse.wf_set _ _ _ hw | exact Sparse.wf_restrict _ _ hw | exact Sparse.wf_filter _ _ hw))
    | split)

end Sys2Proof.Machine
end

