-- ==== Sys2Proof/Laws/KeptAccess.lean ====
section
/-! SUPPORT. What the operations of Machine/Access.lean keep: the queue of commands, the timebase count and the canonical form of
every table. -/

set_option Elab.async false

set_option linter.tactic.unusedName false

namespace Sys2Proof.Machine

theorem State.writeField_kept {s₀ : State} (s : State) (k : Nat) (d : RDef) (v : Word) (f : FDef) (acc : State × Bool) (h : Kept s₀ s) (h1 : Kept s₀ acc.1) :
    Kept s₀ (State.writeField s k d v f acc).1 := by
  unfold State.writeField
  repeat' (first
    | with_reducible assumption
    | (with_reducible apply State.setFld_kept)
    | (with_reducible apply Kept.ite)
    | (intro _)
    | (with_reducible refine Kept.of_snd (by assumption) ?_)
    | (with_reducible refine Kept.of_snd2 (by assumption) ?_)
    | (with_reducible refine Kept.of_snd3 (by assumption) ?_)
    | (with_reducible refine Kept.of_fst (by assumption) ?_)
    | (with_reducible refine Kept.of_fst2 (by assumption) ?_)
    | (simp only [Kept.update_iff])
    | (simp only [Kept.tables_iff]; apply KeptTables.intro <;> first | with_reducible assumption | with_reducible refine Kept.of_snd (by assumption) ?_ | with_reducible refine Kept.of_snd2 (by assumption) ?_ | with_reducible refine Kept.of_snd3 (by assumption) ?_ | with_reducible refine Kept.of_fst (by assumption) ?_ | with_reducible refine Kept.of_fst2 (by assumption) ?_ | exact id | exact fun _ => rfl | (intro hw; first | exact Sparse.wf_set _ _ _ hw | exact Sparse.wf_restrict _ _ hw | exact Sparse.wf_filter _ _ hw))
    | split)

theorem State.writeGeneric_kept {s₀ : State} (s : State) (k : Nat) (t : Itag) (v : Word) (h : Kept s₀ s) :
    Kept s₀ (State.writeGeneric s k t v) := by
  unfold State.writeGeneric
  repeat' (first
    | with_reducible assumption
    | (with_reducible apply State.cfgErr_kept)
    | (with_reducible apply State.writeField_kept)
    | (with_reducible apply Kept.ite)
    | (intro _)
    | (with_reducible apply Kept.foldl)
    | (with_reducible apply Kept.foldl_snd)
    | (with_reducible apply Kept.foldl_fst)
    | (with_reducible refine Kept.of_snd (by assumption) ?_)
    | (with_reducible refine Kept.of_snd2 (by assumption) ?_)
    | (with_reducible refine Kept.of_snd3 (by assumption) ?_)
    | (with_reducible refine Kept.of_fst (by assumption) ?_)
    | (with_reducible refine Kept.of_fst2 (by assumption) ?_)
    | (simp only [Kept.update_iff])
    | (simp only [Kept.tables_iff]; apply KeptTables.intro <;> first | with_reducible assumption | with_reducible refine Kept.of_snd (by assumption) ?_ | with_reducible refine Kept.of_snd2 (by assumption) ?_ | with_reducible refine Kept.of_snd3 (by assumption) ?_ | with_reducible refine Kept.of_fst (by assumption) ?_ | with_reducible refine Kept.of_fst2 (by assumption) ?_ | exact id | exact fun _ => rfl | (intro hw; first | exact Sparse.wf_set _ _ _ hw | exact Sparse.wf_restrict _ _ hw | exact Sparse.wf_filter _ _ hw))
    | split)

theorem State.gate_kept {s₀ : State} (s : State) (i : Initiator) (k : Nat) (write : Bool) (v : Word) (h : Kept s₀ s) :
    Kept s₀ (State.gate s i k write v).2 := by
  unfold State.gate
  repeat' (first
    | with_reducible assumption
    | (with_reducible apply State.checkSite_kept)
    | (with_reducible apply State.demandPd_kept)
    | (with_reducible apply State.offend_kept)
    | (with_reducible apply Kept.ite)
    | (intro _)
    | (with_reducible refine Kept.of_snd (by assumption) ?_)
    | (with_reducible refine Kept.of_snd2 (by assumption) ?_)
    | (with_reducible refine Kept.of_snd3 (by assumption) ?_)
    | (with_reducible refine Kept.of_fst (by assumption) ?_)
    | (with_reducible refine Kept.of_fst2 (by assumption) ?_)
    | (simp only [Kept.update_iff])
    | (simp only [Kept.tables_iff]; apply KeptTables.intro <;> first | with_reducible assumption | with_reducible refine Kept.of_snd (by assumption) ?_ | with_reducible refine Kept.of_snd2 (by assumption) ?_ | with_reducible refine Kept.of_snd3 (by assumption) ?_ | with_reducible refine Kept.of_fst (by assumption) ?_ | with_reducible refine Kept.of_fst2 (by assumption) ?_ | exact id | exact fun _ => rfl | (intro hw; first | exact Sparse.wf_set _ _ _ hw | exact Sparse.wf_restrict _ _ hw | exact Sparse.wf_filter _ _ hw))
    | split)

theorem State.respond_kept {s₀ : State} (s : State) (st : AccessStatus) (data : List Byte) (h : Kept s₀ s) :
    Kept s₀ (State.respond s st data) := by
  unfold State.respond
  repeat' (first
    | with_reducible assumption
    | (with_reducible apply Kept.ite)
    | (intro _)
    | (with_reducible refine Kept.of_snd (by assumption) ?_)
    | (with_reducible refine Kept.of_snd2 (by assumption) ?_)
    | (with_reducible refine Kept.of_snd3 (by assumption) ?_)
    | (with_reducible refine Kept.of_fst (by assumption) ?_)
    | (with_reducible refine Kept.of_fst2 (by assumption) ?_)
    | (simp only [Kept.update_iff]))

theorem State.writeVia_kept {s₀ : State} (s : State) {eff : State → Nat → Itag → Word → State}
    (he : ∀ s k t v, Kept s₀ s → Kept s₀ (eff s k t v)) (i : Initiator) (k : Nat) (v : Word) (h : Kept s₀ s) :
    Kept s₀ (s.writeVia eff i k v) := by
  unfold State.writeVia
  split
  · next s' e => exact State.respond_kept _ _ _ (he _ _ _ _ (Kept.of_snd e (State.gate_kept _ _ _ _ _ h)))
  · next e => exact State.respond_kept _ _ _ (Kept.of_snd e (State.gate_kept _ _ _ _ _ h))

theorem State.readVia_kept {s₀ : State} (s : State) {eff : State → Nat → Option Word × State}
    (he : ∀ s k, Kept s₀ s → Kept s₀ (eff s k).2) (i : Initiator) (k : Nat) (h : Kept s₀ s) :
    Kept s₀ (s.readVia eff i k) := by
  have hg := State.gate_kept s i k false 0#32 h
  unfold State.readVia
  split
  · next s' e =>
    have hs := he s' k (Kept.of_snd e hg)
    split
    · next e' => exact State.respond_kept _ _ _ (Kept.of_snd e' hs)
    · next e' => exact State.respond_kept _ _ _ (Kept.of_snd e' hs)
  all_goals next e => exact State.respond_kept _ _ _ (Kept.of_snd e hg)

theorem State.badShape_kept {s₀ : State} (s : State) (i : Initiator) (k : Nat) (write : Bool) (h : Kept s₀ s) :
    Kept s₀ (State.badShape s i k write) := by
  unfold State.badShape
  repeat' (first
    | with_reducible assumption
    | (with_reducible apply State.offend_kept)
    | (with_reducible apply State.respond_kept)
    | (with_reducible apply Kept.ite)
    | (intro _)
    | (with_reducible refine Kept.of_snd (by assumption) ?_)
    | (with_reducible refine Kept.of_snd2 (by assumption) ?_)
    | (with_reducible refine Kept.of_snd3 (by assumption) ?_)
    | (with_reducible refine Kept.of_fst (by assumption) ?_)
    | (with_reducible refine Kept.of_fst2 (by assumption) ?_)
    | (simp only [Kept.update_iff])
    | (simp only [Kept.tables_iff]; apply KeptTables.intro <;> first | with_reducible assumption | with_reducible refine Kept.of_snd (by assumption) ?_ | with_reducible refine Kept.of_snd2 (by assumption) ?_ | with_reducible refine Kept.of_snd3 (by assumption) ?_ | with_reducible refine Kept.of_fst (by assumption) ?_ | with_reducible refine Kept.of_fst2 (by assumption) ?_ | exact id | exact fun _ => rfl | (intro hw; first | exact Sparse.wf_set _ _ _ hw | exact Sparse.wf_restrict _ _ hw | exact Sparse.wf_filter _ _ hw))
    | split)

end Sys2Proof.Machine
end

