-- ==== Sys2Proof/Laws/KeptCan.lean ====
section
/-! SUPPORT. What the operations of Machine/Can.lean keep: the queue of commands, the timebase count and the canonical form of
every table. -/

set_option Elab.async false

set_option linter.tactic.unusedName false

namespace Sys2Proof.Machine

theorem State.setBox_kept {s₀ : State} (s : State) (k : Nat) (b : Mailbox) (h : Kept s₀ s) :
    Kept s₀ (State.setBox s k b) := by
  unfold State.setBox
  repeat' (first
    | with_reducible assumption
    | (with_reducible apply Kept.ite)
    | (intro _)
    | (with_reducible refine Kept.of_snd (by assumption) ?_)
    | (with_reducible refine Kept.of_snd2 (by assumption) ?_)
    | (with_reducible refine Kept.of_snd3 (by assumption) ?_)
    | (with_reducible refine Kept.of_fst (by assumption) ?_)
    | (with_reducible refine Kept.of_fst2 (by assumption) ?_)
    | (simp only [Kept.update_iff]))

theorem State.setBus_kept {s₀ : State} (s : State) (c : Nat) (f : Option BusFrame) (h : Kept s₀ s) :
    Kept s₀ (State.setBus s c f) := by
  unfold State.setBus
  repeat' (first
    | with_reducible assumption
    | (with_reducible apply Kept.ite)
    | (intro _)
    | (with_reducible refine Kept.of_snd (by assumption) ?_)
    | (with_reducible refine Kept.of_snd2 (by assumption) ?_)
    | (with_reducible refine Kept.of_snd3 (by assumption) ?_)
    | (with_reducible refine Kept.of_fst (by assumption) ?_)
    | (with_reducible refine Kept.of_fst2 (by assumption) ?_)
    | (simp only [Kept.update_iff]))

theorem State.readBox_kept {s₀ : State} (s : State) (k : Nat) (h : Kept s₀ s) :
    Kept s₀ (State.readBox s k).2 := by
  unfold State.readBox
  repeat' (first
    | with_reducible assumption
    | (with_reducible apply State.count_kept)
    | (with_reducible apply State.injDone_kept)
    | (with_reducible apply State.raise_kept)
    | (with_reducible apply State.setBox_kept)
    | (with_reducible apply Kept.ite)
    | (intro _)
    | (with_reducible refine Kept.of_snd (by assumption) ?_)
    | (with_reducible refine Kept.of_snd2 (by assumption) ?_)
    | (with_reducible refine Kept.of_snd3 (by assumption) ?_)
    | (with_reducible refine Kept.of_fst (by assumption) ?_)
    | (with_reducible refine Kept.of_fst2 (by assumption) ?_)
    | (simp only [Kept.update_iff])
    | (simp only [Kept.tables_iff]; apply KeptTables.intro <;> first | with_reducible assumption | with_reducible refine Kept.of_snd (by assumption) ?_ | with_reducible refine Kept.of_snd2 (by assumption) ?_ | with_reducible refine Kept.of_snd3 (by assumption) ?_ | with_reducible refine Kept.of_fst (by assumption) ?_ | with_reducible refine Kept.of_fst2 (by assumption) ?_ | exact id | exact fun _ => rfl | (intro hw; first | exact Sparse.wf_set _ _ _ hw | exact Sparse.wf_restrict _ _ hw | exact Sparse.wf_filter _ _ hw))
    | split)

theorem State.busOff_kept {s₀ : State} (s : State) (c : Nat) (inj : Bool) (h : Kept s₀ s) :
    Kept s₀ (State.busOff s c inj) := by
  unfold State.busOff
  repeat' (first
    | with_reducible assumption
    | (with_reducible apply State.count_kept)
    | (with_reducible apply State.raise_kept)
    | (with_reducible apply State.setBus_kept)
    | (with_reducible apply State.setFld_kept)
    | (with_reducible apply Kept.ite)
    | (intro _))

theorem State.canErrors_kept {s₀ : State} (s : State) (c tec rec_ : Nat) (h : Kept s₀ s) :
    Kept s₀ (State.canErrors s c tec rec_) := by
  unfold State.canErrors
  repeat' (first
    | with_reducible assumption
    | (with_reducible apply State.busOff_kept)
    | (with_reducible apply State.count_kept)
    | (with_reducible apply State.setFld_kept)
    | (with_reducible apply Kept.ite)
    | (intro _))

theorem State.canCommit_kept {s₀ : State} (s : State) (c m len : Nat) (data : Sparse Byte) (h : Kept s₀ s) :
    Kept s₀ (State.canCommit s c m len data).2 := by
  unfold State.canCommit
  repeat' (first
    | with_reducible assumption
    | (with_reducible apply State.setBox_kept)
    | (with_reducible apply Kept.ite)
    | (intro _)
    | (with_reducible refine Kept.of_snd (by assumption) ?_)
    | (with_reducible refine Kept.of_snd2 (by assumption) ?_)
    | (with_reducible refine Kept.of_snd3 (by assumption) ?_)
    | (with_reducible refine Kept.of_fst (by assumption) ?_)
    | (with_reducible refine Kept.of_fst2 (by assumption) ?_)
    | (simp only [Kept.update_iff])
    | (simp only [Kept.tables_iff]; apply KeptTables.intro <;> first | with_reducible assumption | with_reducible refine Kept.of_snd (by assumption) ?_ | with_reducible refine Kept.of_snd2 (by assumption) ?_ | with_reducible refine Kept.of_snd3 (by assumption) ?_ | with_reducible refine Kept.of_fst (by assumption) ?_ | with_reducible refine Kept.of_fst2 (by assumption) ?_ | exact id | exact fun _ => rfl | (intro hw; first | exact Sparse.wf_set _ _ _ hw | exact Sparse.wf_restrict _ _ hw | exact Sparse.wf_filter _ _ hw))
    | split)

theorem effCanTx_kept {s₀ : State} (c : Nat) (s : State) (h : Kept s₀ s) :
    Kept s₀ (effCanTx c s) := by
  unfold effCanTx
  repeat' (first
    | with_reducible assumption
    | (with_reducible apply State.readBox_kept)
    | (with_reducible apply State.setBus_kept)
    | (with_reducible apply Kept.ite)
    | (intro _)
    | (with_reducible refine Kept.of_snd (by assumption) ?_)
    | (with_reducible refine Kept.of_snd2 (by assumption) ?_)
    | (with_reducible refine Kept.of_snd3 (by assumption) ?_)
    | (with_reducible refine Kept.of_fst (by assumption) ?_)
    | (with_reducible refine Kept.of_fst2 (by assumption) ?_)
    | (simp only [Kept.update_iff])
    | (simp only [Kept.tables_iff]; apply KeptTables.intro <;> first | with_reducible assumption | with_reducible refine Kept.of_snd (by assumption) ?_ | with_reducible refine Kept.of_snd2 (by assumption) ?_ | with_reducible refine Kept.of_snd3 (by assumption) ?_ | with_reducible refine Kept.of_fst (by assumption) ?_ | with_reducible refine Kept.of_fst2 (by assumption) ?_ | exact id | exact fun _ => rfl | (intro hw; first | exact Sparse.wf_set _ _ _ hw | exact Sparse.wf_restrict _ _ hw | exact Sparse.wf_filter _ _ hw))
    | split)

theorem effCanTxEnd_kept {s₀ : State} (c result : Nat) (s : State) (h : Kept s₀ s) :
    Kept s₀ (effCanTxEnd c result s) := by
  unfold effCanTxEnd
  repeat' (first
    | with_reducible assumption
    | (with_reducible apply SpareSet.result_kept)
    | (with_reducible apply State.canErrors_kept)
    | (with_reducible apply State.count_kept)
    | (with_reducible apply State.raise_kept)
    | (with_reducible apply State.setBox_kept)
    | (with_reducible apply State.setBus_kept)
    | (with_reducible apply Kept.ite)
    | (intro _)
    | (with_reducible refine Kept.of_snd (by assumption) ?_)
    | (with_reducible refine Kept.of_snd2 (by assumption) ?_)
    | (with_reducible refine Kept.of_snd3 (by assumption) ?_)
    | (with_reducible refine Kept.of_fst (by assumption) ?_)
    | (with_reducible refine Kept.of_fst2 (by assumption) ?_)
    | (simp only [Kept.update_iff])
    | (simp only [Kept.tables_iff]; apply KeptTables.intro <;> first | with_reducible assumption | with_reducible refine Kept.of_snd (by assumption) ?_ | with_reducible refine Kept.of_snd2 (by assumption) ?_ | with_reducible refine Kept.of_snd3 (by assumption) ?_ | with_reducible refine Kept.of_fst (by assumption) ?_ | with_reducible refine Kept.of_fst2 (by assumption) ?_ | exact id | exact fun _ => rfl | (intro hw; first | exact Sparse.wf_set _ _ _ hw | exact Sparse.wf_restrict _ _ hw | exact Sparse.wf_filter _ _ hw))
    | split)

theorem effCanRx_kept {s₀ : State} (c : Nat) (ext : Bool) (id : Nat) (data : List Byte) (good : Bool) (s : State) (h : Kept s₀ s) :
    Kept s₀ (effCanRx c ext id data good s) := by
  unfold effCanRx
  repeat' (first
    | with_reducible assumption
    | (with_reducible apply State.canErrors_kept)
    | (with_reducible apply State.count_kept)
    | (with_reducible apply State.draw_kept)
    | (with_reducible apply State.setBox_kept)
    | (with_reducible apply Kept.ite)
    | (intro _)
    | (with_reducible refine Kept.of_snd (by assumption) ?_)
    | (with_reducible refine Kept.of_snd2 (by assumption) ?_)
    | (with_reducible refine Kept.of_snd3 (by assumption) ?_)
    | (with_reducible refine Kept.of_fst (by assumption) ?_)
    | (with_reducible refine Kept.of_fst2 (by assumption) ?_)
    | (simp only [Kept.update_iff])
    | (simp only [Kept.tables_iff]; apply KeptTables.intro <;> first | with_reducible assumption | with_reducible refine Kept.of_snd (by assumption) ?_ | with_reducible refine Kept.of_snd2 (by assumption) ?_ | with_reducible refine Kept.of_snd3 (by assumption) ?_ | with_reducible refine Kept.of_fst (by assumption) ?_ | with_reducible refine Kept.of_fst2 (by assumption) ?_ | exact id | exact fun _ => rfl | (intro hw; first | exact Sparse.wf_set _ _ _ hw | exact Sparse.wf_restrict _ _ hw | exact Sparse.wf_filter _ _ hw))
    | split)

theorem effCanRecover_kept {s₀ : State} (c : Nat) (s : State) (h : Kept s₀ s) :
    Kept s₀ (effCanRecover c s) := by
  unfold effCanRecover
  repeat' (first
    | with_reducible assumption
    | (with_reducible apply State.wr_kept)
    | (with_reducible apply Kept.ite)
    | (intro _))

theorem effCanLockstep_kept {s₀ : State} (c : Nat) (s : State) (h : Kept s₀ s) :
    Kept s₀ (effCanLockstep c s) := by
  unfold effCanLockstep
  repeat' (first
    | with_reducible assumption
    | (with_reducible apply State.count_kept)
    | (with_reducible apply State.raise_kept)
    | (with_reducible apply State.setBus_kept)
    | (with_reducible apply State.setFld_kept)
    | (with_reducible apply Kept.ite)
    | (intro _))

theorem effCanCfg_kept {s₀ : State} (c : Nat) (t : Itag) (v : Word) (s : State) (h : Kept s₀ s) :
    Kept s₀ (effCanCfg c t v s) := by
  unfold effCanCfg
  repeat' (first
    | with_reducible assumption
    | (with_reducible apply State.cfgErr_kept)
    | (with_reducible apply State.setBus_kept)
    | (with_reducible apply State.setFld_kept)
    | (with_reducible apply State.wr_kept)
    | (with_reducible apply State.writeGeneric_kept)
    | (with_reducible apply Kept.ite)
    | (intro _))

theorem effBitTiming_kept {s₀ : State} (c : Nat) (isData : Bool) (t : Itag) (v : Word) (s : State) (h : Kept s₀ s) :
    Kept s₀ (effBitTiming c isData t v s) := by
  unfold effBitTiming
  repeat' (first
    | with_reducible assumption
    | (with_reducible apply State.cfgErr_kept)
    | (with_reducible apply State.writeGeneric_kept)
    | (with_reducible apply Kept.ite)
    | (intro _))

theorem State.injBusoff_kept {s₀ : State} (s : State) (h : Kept s₀ s) :
    Kept s₀ (State.injBusoff s) := by
  unfold State.injBusoff
  repeat' (first
    | with_reducible assumption
    | (with_reducible apply State.busOff_kept)
    | (with_reducible apply State.injDone_kept)
    | (with_reducible apply Kept.ite)
    | (intro _))

theorem State.mbRead_kept {s₀ : State} (s : State) (off : Nat) (h : Kept s₀ s) :
    Kept s₀ (State.mbRead s off).2 := by
  unfold State.mbRead
  repeat' (first
    | with_reducible assumption
    | (with_reducible apply State.readBox_kept)
    | (with_reducible apply State.setBox_kept)
    | (with_reducible apply Kept.ite)
    | (intro _)
    | (with_reducible refine Kept.of_snd (by assumption) ?_)
    | (with_reducible refine Kept.of_snd2 (by assumption) ?_)
    | (with_reducible refine Kept.of_snd3 (by assumption) ?_)
    | (with_reducible refine Kept.of_fst (by assumption) ?_)
    | (with_reducible refine Kept.of_fst2 (by assumption) ?_)
    | (simp only [Kept.update_iff])
    | (simp only [Kept.tables_iff]; apply KeptTables.intro <;> first | with_reducible assumption | with_reducible refine Kept.of_snd (by assumption) ?_ | with_reducible refine Kept.of_snd2 (by assumption) ?_ | with_reducible refine Kept.of_snd3 (by assumption) ?_ | with_reducible refine Kept.of_fst (by assumption) ?_ | with_reducible refine Kept.of_fst2 (by assumption) ?_ | exact id | exact fun _ => rfl | (intro hw; first | exact Sparse.wf_set _ _ _ hw | exact Sparse.wf_restrict _ _ hw | exact Sparse.wf_filter _ _ hw))
    | split)

theorem State.mbWrite_kept {s₀ : State} (s : State) (off : Nat) (t : Itag) (v : Word) (h : Kept s₀ s) :
    Kept s₀ (State.mbWrite s off t v) := by
  unfold State.mbWrite
  repeat' (first
    | with_reducible assumption
    | (with_reducible apply State.cfgErr_kept)
    | (with_reducible apply State.count_kept)
    | (with_reducible apply State.setBox_kept)
    | (with_reducible apply Kept.ite)
    | (intro _)
    | (with_reducible apply Kept.foldl)
    | (with_reducible apply Kept.foldl_snd)
    | (with_reducible apply Kept.foldl_fst)
    | (with_reducible refine Kept.of_snd (by assumption) ?_)
    | (with_reducible refine Kept.of_snd2 (by assumption) ?_)
    | (with_reducible refine Kept.of_snd3 (by assumption) ?_)
    | (with_reducible refine Kept.of_fst (by assumption) ?_)
    | (with_reducible refine Kept.of_fst2 (by assumption) ?_)
    | (simp only [Kept.update_iff])
    | (simp only [Kept.tables_iff]; apply KeptTables.intro <;> first | with_reducible assumption | with_reducible refine Kept.of_snd (by assumption) ?_ | with_reducible refine Kept.of_snd2 (by assumption) ?_ | with_reducible refine Kept.of_snd3 (by assumption) ?_ | with_reducible refine Kept.of_fst (by assumption) ?_ | with_reducible refine Kept.of_fst2 (by assumption) ?_ | exact id | exact fun _ => rfl | (intro hw; first | exact Sparse.wf_set _ _ _ hw | exact Sparse.wf_restrict _ _ hw | exact Sparse.wf_filter _ _ hw))
    | split)

theorem effSpiReady_kept {s₀ : State} (n : Nat) (s : State) (h : Kept s₀ s) :
    Kept s₀ (effSpiReady n s) := by
  unfold effSpiReady
  repeat' (first
    | with_reducible assumption
    | (with_reducible apply State.count_kept)
    | (with_reducible apply Kept.ite)
    | (intro _)
    | (with_reducible refine Kept.of_snd (by assumption) ?_)
    | (with_reducible refine Kept.of_snd2 (by assumption) ?_)
    | (with_reducible refine Kept.of_snd3 (by assumption) ?_)
    | (with_reducible refine Kept.of_fst (by assumption) ?_)
    | (with_reducible refine Kept.of_fst2 (by assumption) ?_)
    | (simp only [Kept.update_iff])
    | (simp only [Kept.tables_iff]; apply KeptTables.intro <;> first | with_reducible assumption | with_reducible refine Kept.of_snd (by assumption) ?_ | with_reducible refine Kept.of_snd2 (by assumption) ?_ | with_reducible refine Kept.of_snd3 (by assumption) ?_ | with_reducible refine Kept.of_fst (by assumption) ?_ | with_reducible refine Kept.of_fst2 (by assumption) ?_ | exact id | exact fun _ => rfl | (intro hw; first | exact Sparse.wf_set _ _ _ hw | exact Sparse.wf_restrict _ _ hw | exact Sparse.wf_filter _ _ hw))
    | split)

end Sys2Proof.Machine
end

