-- ==== Sys2Proof/Laws/KeptSafeState.lean ====
section
/-! SUPPORT. What the operations of Machine/SafeState.lean keep: the queue of commands, the timebase count and the canonical form of
every table. -/

set_option Elab.async false

set_option linter.tactic.unusedName false

namespace Sys2Proof.Machine

theorem State.setAutoms_kept {s₀ : State} (s : State) (v : Nat) (h : Kept s₀ s) :
    Kept s₀ (State.setAutoms s v) := by
  unfold State.setAutoms
  repeat' (first
    | with_reducible assumption
    | (with_reducible apply State.setFld_kept)
    | (with_reducible apply Kept.ite)
    | (intro _)
    | (with_reducible refine Kept.of_snd (by assumption) ?_)
    | (with_reducible refine Kept.of_snd2 (by assumption) ?_)
    | (with_reducible refine Kept.of_snd3 (by assumption) ?_)
    | (with_reducible refine Kept.of_fst (by assumption) ?_)
    | (with_reducible refine Kept.of_fst2 (by assumption) ?_)
    | (simp only [Kept.update_iff]))

theorem State.planTimer_kept {s₀ : State} (s : State) (run : Bool) (h : Kept s₀ s) :
    Kept s₀ (State.planTimer s run) := by
  unfold State.planTimer
  repeat' (first
    | with_reducible assumption
    | (with_reducible apply Kept.ite)
    | (intro _)
    | (with_reducible refine Kept.of_snd (by assumption) ?_)
    | (with_reducible refine Kept.of_snd2 (by assumption) ?_)
    | (with_reducible refine Kept.of_snd3 (by assumption) ?_)
    | (with_reducible refine Kept.of_fst (by assumption) ?_)
    | (with_reducible refine Kept.of_fst2 (by assumption) ?_)
    | (simp only [Kept.update_iff]))

theorem State.planRestart_kept {s₀ : State} (s : State) (h : Kept s₀ s) :
    Kept s₀ (State.planRestart s) := by
  unfold State.planRestart
  repeat' (first
    | with_reducible assumption
    | (with_reducible apply Kept.ite)
    | (intro _)
    | (with_reducible refine Kept.of_snd (by assumption) ?_)
    | (with_reducible refine Kept.of_snd2 (by assumption) ?_)
    | (with_reducible refine Kept.of_snd3 (by assumption) ?_)
    | (with_reducible refine Kept.of_fst (by assumption) ?_)
    | (with_reducible refine Kept.of_fst2 (by assumption) ?_)
    | (simp only [Kept.update_iff]))

theorem State.enterSafe_kept {s₀ : State} (s : State) (st : Nat) (h : Kept s₀ s) :
    Kept s₀ (State.enterSafe s st) := by
  unfold State.enterSafe
  repeat' (first
    | with_reducible assumption
    | (with_reducible apply State.planTimer_kept)
    | (with_reducible apply State.raise_kept)
    | (with_reducible apply State.setAutoms_kept)
    | (with_reducible apply State.setFld_kept)
    | (with_reducible apply Kept.ite)
    | (intro _)
    | (with_reducible refine Kept.of_snd (by assumption) ?_)
    | (with_reducible refine Kept.of_snd2 (by assumption) ?_)
    | (with_reducible refine Kept.of_snd3 (by assumption) ?_)
    | (with_reducible refine Kept.of_fst (by assumption) ?_)
    | (with_reducible refine Kept.of_fst2 (by assumption) ?_)
    | (simp only [Kept.update_iff])
    | (simp only [Kept.tables_iff]; apply KeptTables.intro <;> first | with_reducible assumption | with_reducible refine Kept.of_snd (by assumption) ?_ | with_reducible refine Kept.of_snd2 (by assumption) ?_ | with_reducible refine Kept.of_snd3 (by assumption) ?_ | with_reducible refine Kept.of_fst (by assumption) ?_ | with_reducible refine Kept.of_fst2 (by assumption) ?_ | exact id | exact fun _ => rfl | (intro hw; first | exact Sparse.wf_set _ _ _ hw | exact Sparse.wf_restrict _ _ hw | exact Sparse.wf_filter _ _ hw))
    | split)

theorem State.leaveRecovering_kept {s₀ : State} (s : State) (h : Kept s₀ s) :
    Kept s₀ (State.leaveRecovering s) := by
  unfold State.leaveRecovering
  repeat' (first
    | with_reducible assumption
    | (with_reducible apply State.enterSafe_kept)
    | (with_reducible apply State.setFld_kept)
    | (with_reducible apply Kept.ite)
    | (intro _)
    | (with_reducible refine Kept.of_snd (by assumption) ?_)
    | (with_reducible refine Kept.of_snd2 (by assumption) ?_)
    | (with_reducible refine Kept.of_snd3 (by assumption) ?_)
    | (with_reducible refine Kept.of_fst (by assumption) ?_)
    | (with_reducible refine Kept.of_fst2 (by assumption) ?_)
    | (simp only [Kept.update_iff]))

theorem State.hoRejected_kept {s₀ : State} (s : State) (h : Kept s₀ s) :
    Kept s₀ (State.hoRejected s) := by
  unfold State.hoRejected
  repeat' (first
    | with_reducible assumption
    | (with_reducible apply State.postCause_kept)
    | (with_reducible apply Kept.ite)
    | (intro _)
    | (with_reducible refine Kept.of_snd (by assumption) ?_)
    | (with_reducible refine Kept.of_snd2 (by assumption) ?_)
    | (with_reducible refine Kept.of_snd3 (by assumption) ?_)
    | (with_reducible refine Kept.of_fst (by assumption) ?_)
    | (with_reducible refine Kept.of_fst2 (by assumption) ?_)
    | (simp only [Kept.update_iff]))

end Sys2Proof.Machine
end

