-- ==== Sys2Proof/Laws/KeptMeridian.lean ====
section
/-! SUPPORT. What the operations of Machine/Meridian.lean keep: the queue of commands, the timebase count and the canonical form of
every table. -/

set_option Elab.async false

set_option linter.tactic.unusedName false

namespace Sys2Proof.Machine

theorem State.slewFree_kept {s₀ : State} (s : State) (h : Kept s₀ s) :
    Kept s₀ (State.slewFree s) := by
  unfold State.slewFree
  repeat' (first
    | with_reducible assumption
    | (with_reducible apply State.draw_kept)
    | (with_reducible apply State.wr64_kept)
    | (with_reducible apply Kept.ite)
    | (intro _))

theorem State.logPhase_kept {s₀ : State} (s : State) (h : Kept s₀ s) :
    Kept s₀ (State.logPhase s) := by
  unfold State.logPhase
  repeat' (first
    | with_reducible assumption
    | (with_reducible apply Kept.ite)
    | (intro _)
    | (with_reducible refine Kept.of_snd (by assumption) ?_)
    | (with_reducible refine Kept.of_snd2 (by assumption) ?_)
    | (with_reducible refine Kept.of_snd3 (by assumption) ?_)
    | (with_reducible refine Kept.of_fst (by assumption) ?_)
    | (with_reducible refine Kept.of_fst2 (by assumption) ?_)
    | (simp only [Kept.update_iff]))

theorem State.setLock_kept {s₀ : State} (s : State) (st : Nat) (h : Kept s₀ s) :
    Kept s₀ (State.setLock s st) := by
  unfold State.setLock
  repeat' (first
    | with_reducible assumption
    | (with_reducible apply State.count_kept)
    | (with_reducible apply State.postCause_kept)
    | (with_reducible apply State.raise_kept)
    | (with_reducible apply State.setFld_kept)
    | (with_reducible apply State.wr_kept)
    | (with_reducible apply Kept.ite)
    | (intro _)
    | (with_reducible refine Kept.of_snd (by assumption) ?_)
    | (with_reducible refine Kept.of_snd2 (by assumption) ?_)
    | (with_reducible refine Kept.of_snd3 (by assumption) ?_)
    | (with_reducible refine Kept.of_fst (by assumption) ?_)
    | (with_reducible refine Kept.of_fst2 (by assumption) ?_)
    | (simp only [Kept.update_iff]))

theorem State.refLost_kept {s₀ : State} (s : State) (h : Kept s₀ s) :
    Kept s₀ (State.refLost s) := by
  unfold State.refLost
  repeat' (first
    | with_reducible assumption
    | (with_reducible apply State.setLock_kept)
    | (with_reducible apply Kept.ite)
    | (intro _))

theorem effLockcfgWrite_kept {s₀ : State} (v : Word) (t : Itag) (s : State) (h : Kept s₀ s) :
    Kept s₀ (effLockcfgWrite v t s) := by
  unfold effLockcfgWrite
  repeat' (first
    | with_reducible assumption
    | (with_reducible apply State.cfgErr_kept)
    | (with_reducible apply State.refLost_kept)
    | (with_reducible apply State.setLock_kept)
    | (with_reducible apply State.wr_kept)
    | (with_reducible apply State.writeGeneric_kept)
    | (with_reducible apply Kept.ite)
    | (intro _)
    | (with_reducible refine Kept.of_snd (by assumption) ?_)
    | (with_reducible refine Kept.of_snd2 (by assumption) ?_)
    | (with_reducible refine Kept.of_snd3 (by assumption) ?_)
    | (with_reducible refine Kept.of_fst (by assumption) ?_)
    | (with_reducible refine Kept.of_fst2 (by assumption) ?_)
    | (simp only [Kept.update_iff]))

theorem State.setSlotAux_kept {s₀ : State} (s : State) (n : Nat) (a : SlotAux) (h : Kept s₀ s) :
    Kept s₀ (State.setSlotAux s n a) := by
  unfold State.setSlotAux
  repeat' (first
    | with_reducible assumption
    | (with_reducible apply Kept.ite)
    | (intro _)
    | (with_reducible refine Kept.of_snd (by assumption) ?_)
    | (with_reducible refine Kept.of_snd2 (by assumption) ?_)
    | (with_reducible refine Kept.of_snd3 (by assumption) ?_)
    | (with_reducible refine Kept.of_fst (by assumption) ?_)
    | (with_reducible refine Kept.of_fst2 (by assumption) ?_)
    | (simp only [Kept.update_iff]))

theorem State.slotDead_kept {s₀ : State} (s : State) (n : Nat) (inj : Bool) (h : Kept s₀ s) :
    Kept s₀ (State.slotDead s n inj) := by
  unfold State.slotDead
  repeat' (first
    | with_reducible assumption
    | (with_reducible apply State.count_kept)
    | (with_reducible apply State.raise_kept)
    | (with_reducible apply State.setFlag_kept)
    | (with_reducible apply State.setFld_kept)
    | (with_reducible apply State.setSlotAux_kept))

theorem State.notArmed_kept {s₀ : State} (s : State) (n st : Nat) (h : Kept s₀ s) :
    Kept s₀ (State.notArmed s n st) := by
  unfold State.notArmed
  repeat' (first
    | with_reducible assumption
    | (with_reducible apply State.setFlag_kept)
    | (with_reducible apply State.setFld_kept)
    | (with_reducible apply State.setSlotAux_kept))

theorem State.armSlot_kept {s₀ : State} (s : State) (n : Nat) (h : Kept s₀ s) :
    Kept s₀ (State.armSlot s n) := by
  unfold State.armSlot
  repeat' (first
    | with_reducible assumption
    | (with_reducible apply State.count_kept)
    | (with_reducible apply State.injDone_kept)
    | (with_reducible apply State.notArmed_kept)
    | (with_reducible apply State.raise_kept)
    | (with_reducible apply State.setFlag_kept)
    | (with_reducible apply State.setFld_kept)
    | (with_reducible apply State.setSlotAux_kept)
    | (with_reducible apply State.slotDead_kept)
    | (with_reducible apply Kept.ite)
    | (intro _)
    | (with_reducible refine Kept.of_snd (by assumption) ?_)
    | (with_reducible refine Kept.of_snd2 (by assumption) ?_)
    | (with_reducible refine Kept.of_snd3 (by assumption) ?_)
    | (with_reducible refine Kept.of_fst (by assumption) ?_)
    | (with_reducible refine Kept.of_fst2 (by assumption) ?_)
    | (simp only [Kept.update_iff])
    | (simp only [Kept.tables_iff]; apply KeptTables.intro <;> first | with_reducible assumption | with_reducible refine Kept.of_snd (by assumption) ?_ | with_reducible refine Kept.of_snd2 (by assumption) ?_ | with_reducible refine Kept.of_snd3 (by assumption) ?_ | with_reducible refine Kept.of_fst (by assumption) ?_ | with_reducible refine Kept.of_fst2 (by assumption) ?_ | exact id | exact fun _ => rfl | (intro hw; first | exact Sparse.wf_set _ _ _ hw | exact Sparse.wf_restrict _ _ hw | exact Sparse.wf_filter _ _ hw))
    | split)

theorem effSlotCtl_kept {s₀ : State} (n : Nat) (v : Word) (t : Itag) (s : State) (h : Kept s₀ s) :
    Kept s₀ (effSlotCtl n v t s) := by
  unfold effSlotCtl
  repeat' (first
    | with_reducible assumption
    | (with_reducible apply State.armSlot_kept)
    | (with_reducible apply State.cfgErr_kept)
    | (with_reducible apply State.setFlag_kept)
    | (with_reducible apply State.setFld_kept)
    | (with_reducible apply State.setSlotAux_kept)
    | (with_reducible apply Kept.ite)
    | (intro _))

theorem effSlotWord_kept {s₀ : State} (n w : Nat) (v : Word) (t : Itag) (s : State) (h : Kept s₀ s) :
    Kept s₀ (effSlotWord n w v t s) := by
  unfold effSlotWord
  repeat' (first
    | with_reducible assumption
    | (with_reducible apply State.cfgErr_kept)
    | (with_reducible apply State.setFld_kept)
    | (with_reducible apply State.setSlotAux_kept)
    | (with_reducible apply State.wr_kept)
    | (with_reducible apply Kept.ite)
    | (intro _))

theorem State.slotFired_kept {s₀ : State} (s : State) (n : Nat) (h : Kept s₀ s) :
    Kept s₀ (State.slotFired s n) := by
  unfold State.slotFired
  repeat' (first
    | with_reducible assumption
    | (with_reducible apply State.setFld_kept)
    | (with_reducible apply Kept.ite)
    | (intro _))

theorem State.sensorTrigger_kept {s₀ : State} (s : State) (n m : Nat) (h : Kept s₀ s) :
    Kept s₀ (State.sensorTrigger s n m) := by
  unfold State.sensorTrigger
  repeat' (first
    | with_reducible assumption
    | (with_reducible apply Kept.ite)
    | (intro _)
    | (with_reducible apply Kept.foldl)
    | (with_reducible apply Kept.foldl_snd)
    | (with_reducible apply Kept.foldl_fst)
    | (with_reducible refine Kept.of_snd (by assumption) ?_)
    | (with_reducible refine Kept.of_snd2 (by assumption) ?_)
    | (with_reducible refine Kept.of_snd3 (by assumption) ?_)
    | (with_reducible refine Kept.of_fst (by assumption) ?_)
    | (with_reducible refine Kept.of_fst2 (by assumption) ?_)
    | (simp only [Kept.update_iff]))

theorem effDispatch_kept {s₀ : State} (n : Nat) (s : State) (h : Kept s₀ s) :
    Kept s₀ (effDispatch n s) := by
  unfold effDispatch
  repeat' (first
    | with_reducible assumption
    | (with_reducible apply State.injDone_kept)
    | (with_reducible apply State.sensorTrigger_kept)
    | (with_reducible apply State.setSlotAux_kept)
    | (with_reducible apply State.slotDead_kept)
    | (with_reducible apply State.slotFired_kept)
    | (with_reducible apply Kept.ite)
    | (intro _)
    | (with_reducible refine Kept.of_snd (by assumption) ?_)
    | (with_reducible refine Kept.of_snd2 (by assumption) ?_)
    | (with_reducible refine Kept.of_snd3 (by assumption) ?_)
    | (with_reducible refine Kept.of_fst (by assumption) ?_)
    | (with_reducible refine Kept.of_fst2 (by assumption) ?_)
    | (simp only [Kept.update_iff])
    | (simp only [Kept.tables_iff]; apply KeptTables.intro <;> first | with_reducible assumption | with_reducible refine Kept.of_snd (by assumption) ?_ | with_reducible refine Kept.of_snd2 (by assumption) ?_ | with_reducible refine Kept.of_snd3 (by assumption) ?_ | with_reducible refine Kept.of_fst (by assumption) ?_ | with_reducible refine Kept.of_fst2 (by assumption) ?_ | exact id | exact fun _ => rfl | (intro hw; first | exact Sparse.wf_set _ _ _ hw | exact Sparse.wf_restrict _ _ hw | exact Sparse.wf_filter _ _ hw))
    | split)

theorem State.takeDue_kept {s₀ : State} (s : State) (p : Action → Bool) (h : Kept s₀ s) :
    KeptOpt₂ s₀ (State.takeDue s p) := by
  unfold State.takeDue
  repeat' (first
    | with_reducible assumption
    | (with_reducible apply Kept.ite)
    | (intro _)
    | (with_reducible refine Kept.of_snd (by assumption) ?_)
    | (with_reducible refine Kept.of_snd2 (by assumption) ?_)
    | (with_reducible refine Kept.of_snd3 (by assumption) ?_)
    | (with_reducible refine Kept.of_fst (by assumption) ?_)
    | (with_reducible refine Kept.of_fst2 (by assumption) ?_)
    | (with_reducible refine KeptOpt.elim (by assumption) ?_)
    | (with_reducible refine KeptOpt₂.elim (by assumption) ?_)
    | (with_reducible refine KeptOpt₂.elim' (by assumption) ?_)
    | (with_reducible apply KeptOpt.getD)
    | (with_reducible apply KeptOpt.findSome)
    | (with_reducible apply KeptOpt₂.findSome)
    | (with_reducible exact KeptOpt.none)
    | (with_reducible exact KeptOpt₂.none)
    | (with_reducible apply KeptOpt.some)
    | (with_reducible apply KeptOpt.andThen)
    | (with_reducible apply KeptOpt.bind)
    | (with_reducible apply KeptOpt₂.some)
    | (simp only [Kept.update_iff])
    | (simp only [Kept.tables_iff]; apply KeptTables.intro <;> first | with_reducible assumption | with_reducible refine Kept.of_snd (by assumption) ?_ | with_reducible refine Kept.of_snd2 (by assumption) ?_ | with_reducible refine Kept.of_snd3 (by assumption) ?_ | with_reducible refine Kept.of_fst (by assumption) ?_ | with_reducible refine Kept.of_fst2 (by assumption) ?_ | with_reducible refine KeptOpt.elim (by assumption) ?_ | with_reducible refine KeptOpt₂.elim (by assumption) ?_ | with_reducible refine KeptOpt₂.elim' (by assumption) ?_ | with_reducible apply KeptOpt.getD | with_reducible apply KeptOpt.findSome | with_reducible apply KeptOpt₂.findSome | with_reducible exact KeptOpt.none | with_reducible exact KeptOpt₂.none | with_reducible apply KeptOpt.some | with_reducible apply KeptOpt.andThen | with_reducible apply KeptOpt.bind | with_reducible apply KeptOpt₂.some | exact id | exact fun _ => rfl | (intro hw; first | exact Sparse.wf_set _ _ _ hw | exact Sparse.wf_restrict _ _ hw | exact Sparse.wf_filter _ _ hw))
    | split)

theorem State.dropAction_kept {s₀ : State} (s : State) (slot : Nat) (h : Kept s₀ s) :
    Kept s₀ (State.dropAction s slot) := by
  unfold State.dropAction
  repeat' (first
    | with_reducible assumption
    | (with_reducible apply State.count_kept)
    | (with_reducible apply State.raise_kept)
    | (with_reducible apply Kept.ite)
    | (intro _))

theorem State.setLevel_kept {s₀ : State} (s : State) (pin : Nat) (b : Bool) (h : Kept s₀ s) :
    Kept s₀ (State.setLevel s pin b) := by
  unfold State.setLevel
  repeat' (first
    | with_reducible assumption
    | (with_reducible apply Kept.ite)
    | (intro _)
    | (with_reducible refine Kept.of_snd (by assumption) ?_)
    | (with_reducible refine Kept.of_snd2 (by assumption) ?_)
    | (with_reducible refine Kept.of_snd3 (by assumption) ?_)
    | (with_reducible refine Kept.of_fst (by assumption) ?_)
    | (with_reducible refine Kept.of_fst2 (by assumption) ?_)
    | (simp only [Kept.update_iff]))

theorem State.setPulse_kept {s₀ : State} (s : State) (pin : Nat) (x : Option (Nat × Bool)) (h : Kept s₀ s) :
    Kept s₀ (State.setPulse s pin x) := by
  unfold State.setPulse
  repeat' (first
    | with_reducible assumption
    | (with_reducible apply Kept.ite)
    | (intro _)
    | (with_reducible refine Kept.of_snd (by assumption) ?_)
    | (with_reducible refine Kept.of_snd2 (by assumption) ?_)
    | (with_reducible refine Kept.of_snd3 (by assumption) ?_)
    | (with_reducible refine Kept.of_fst (by assumption) ?_)
    | (with_reducible refine Kept.of_fst2 (by assumption) ?_)
    | (simp only [Kept.update_iff]))

theorem effTrgCfg_kept {s₀ : State} (pin : Nat) (v : Word) (t : Itag) (s : State) (h : Kept s₀ s) :
    Kept s₀ (effTrgCfg pin v t s) := by
  unfold effTrgCfg
  repeat' (first
    | with_reducible assumption
    | (with_reducible apply State.setLevel_kept)
    | (with_reducible apply State.setPulse_kept)
    | (with_reducible apply State.writeGeneric_kept)
    | (with_reducible apply Kept.ite)
    | (intro _))

theorem State.trgConflict_kept {s₀ : State} (s : State) (pin due : Nat) (h : Kept s₀ s) :
    Kept s₀ (State.trgConflict s pin due) := by
  unfold State.trgConflict
  repeat' (first
    | with_reducible assumption
    | (with_reducible apply State.count_kept)
    | (with_reducible apply Kept.ite)
    | (intro _)
    | (with_reducible refine Kept.of_snd (by assumption) ?_)
    | (with_reducible refine Kept.of_snd2 (by assumption) ?_)
    | (with_reducible refine Kept.of_snd3 (by assumption) ?_)
    | (with_reducible refine Kept.of_fst (by assumption) ?_)
    | (with_reducible refine Kept.of_fst2 (by assumption) ?_)
    | (simp only [Kept.update_iff]))

theorem State.trgAct_kept {s₀ : State} (s : State) (pin edge due : Nat) (h : Kept s₀ s) :
    Kept s₀ (State.trgAct s pin edge due) := by
  unfold State.trgAct
  repeat' (first
    | with_reducible assumption
    | (with_reducible apply State.setLevel_kept)
    | (with_reducible apply State.setPulse_kept)
    | (with_reducible apply Kept.ite)
    | (intro _))

theorem effTriggerAction_kept {s₀ : State} (pin : Nat) (s : State) (h : Kept s₀ s) :
    Kept s₀ (effTriggerAction pin s) := by
  unfold effTriggerAction
  repeat' (first
    | with_reducible assumption
    | (with_reducible apply State.slotFired_kept)
    | (with_reducible apply State.takeDue_kept)
    | (with_reducible apply State.trgAct_kept)
    | (with_reducible apply State.trgConflict_kept)
    | (with_reducible apply Kept.ite)
    | (intro _)
    | (with_reducible refine Kept.of_snd (by assumption) ?_)
    | (with_reducible refine Kept.of_snd2 (by assumption) ?_)
    | (with_reducible refine Kept.of_snd3 (by assumption) ?_)
    | (with_reducible refine Kept.of_fst (by assumption) ?_)
    | (with_reducible refine Kept.of_fst2 (by assumption) ?_)
    | (with_reducible refine KeptOpt.elim (by assumption) ?_)
    | (with_reducible refine KeptOpt₂.elim (by assumption) ?_)
    | (with_reducible refine KeptOpt₂.elim' (by assumption) ?_)
    | (with_reducible apply KeptOpt.getD)
    | (with_reducible apply KeptOpt.findSome)
    | (with_reducible apply KeptOpt₂.findSome)
    | (simp only [Kept.update_iff])
    | (simp only [Kept.tables_iff]; apply KeptTables.intro <;> first | with_reducible assumption | with_reducible refine Kept.of_snd (by assumption) ?_ | with_reducible refine Kept.of_snd2 (by assumption) ?_ | with_reducible refine Kept.of_snd3 (by assumption) ?_ | with_reducible refine Kept.of_fst (by assumption) ?_ | with_reducible refine Kept.of_fst2 (by assumption) ?_ | with_reducible refine KeptOpt.elim (by assumption) ?_ | with_reducible refine KeptOpt₂.elim (by assumption) ?_ | with_reducible refine KeptOpt₂.elim' (by assumption) ?_ | with_reducible apply KeptOpt.getD | with_reducible apply KeptOpt.findSome | with_reducible apply KeptOpt₂.findSome | exact id | exact fun _ => rfl | (intro hw; first | exact Sparse.wf_set _ _ _ hw | exact Sparse.wf_restrict _ _ hw | exact Sparse.wf_filter _ _ hw))
    | split)

theorem effPulseEnd_kept {s₀ : State} (pin : Nat) (s : State) (h : Kept s₀ s) :
    Kept s₀ (effPulseEnd pin s) := by
  unfold effPulseEnd
  repeat' (first
    | with_reducible assumption
    | (with_reducible apply State.setLevel_kept)
    | (with_reducible apply State.setPulse_kept)
    | (with_reducible apply Kept.ite)
    | (intro _)
    | (with_reducible refine Kept.of_snd (by assumption) ?_)
    | (with_reducible refine Kept.of_snd2 (by assumption) ?_)
    | (with_reducible refine Kept.of_snd3 (by assumption) ?_)
    | (with_reducible refine Kept.of_fst (by assumption) ?_)
    | (with_reducible refine Kept.of_fst2 (by assumption) ?_)
    | (simp only [Kept.update_iff])
    | (simp only [Kept.tables_iff]; apply KeptTables.intro <;> first | with_reducible assumption | with_reducible refine Kept.of_snd (by assumption) ?_ | with_reducible refine Kept.of_snd2 (by assumption) ?_ | with_reducible refine Kept.of_snd3 (by assumption) ?_ | with_reducible refine Kept.of_fst (by assumption) ?_ | with_reducible refine Kept.of_fst2 (by assumption) ?_ | exact id | exact fun _ => rfl | (intro hw; first | exact Sparse.wf_set _ _ _ hw | exact Sparse.wf_restrict _ _ hw | exact Sparse.wf_filter _ _ hw))
    | split)

theorem State.vernierCheck_kept {s₀ : State} (s : State) (off intact : BitVec 28) (cd : Nat) (h : Kept s₀ s) :
    Kept s₀ (State.vernierCheck s off intact cd) := by
  unfold State.vernierCheck
  repeat' (first
    | with_reducible assumption
    | (with_reducible apply State.count_kept)
    | (with_reducible apply State.injDone_kept)
    | (with_reducible apply State.setFlag_kept)
    | (with_reducible apply Kept.ite)
    | (intro _)
    | (with_reducible refine Kept.of_snd (by assumption) ?_)
    | (with_reducible refine Kept.of_snd2 (by assumption) ?_)
    | (with_reducible refine Kept.of_snd3 (by assumption) ?_)
    | (with_reducible refine Kept.of_fst (by assumption) ?_)
    | (with_reducible refine Kept.of_fst2 (by assumption) ?_)
    | (simp only [Kept.update_iff]))

theorem effVernier_kept {s₀ : State} (off intact : BitVec 28) (s : State) (h : Kept s₀ s) :
    Kept s₀ (effVernier off intact s) := by
  unfold effVernier
  repeat' (first
    | with_reducible assumption
    | (with_reducible apply State.vernierCheck_kept)
    | (with_reducible apply Kept.ite)
    | (intro _)
    | (with_reducible apply Kept.foldl)
    | (with_reducible apply Kept.foldl_snd)
    | (with_reducible apply Kept.foldl_fst)
    | (with_reducible refine Kept.of_snd (by assumption) ?_)
    | (with_reducible refine Kept.of_snd2 (by assumption) ?_)
    | (with_reducible refine Kept.of_snd3 (by assumption) ?_)
    | (with_reducible refine Kept.of_fst (by assumption) ?_)
    | (with_reducible refine Kept.of_fst2 (by assumption) ?_)
    | (simp only [Kept.update_iff])
    | (simp only [Kept.tables_iff]; apply KeptTables.intro <;> first | with_reducible assumption | with_reducible refine Kept.of_snd (by assumption) ?_ | with_reducible refine Kept.of_snd2 (by assumption) ?_ | with_reducible refine Kept.of_snd3 (by assumption) ?_ | with_reducible refine Kept.of_fst (by assumption) ?_ | with_reducible refine Kept.of_fst2 (by assumption) ?_ | exact id | exact fun _ => rfl | (intro hw; first | exact Sparse.wf_set _ _ _ hw | exact Sparse.wf_restrict _ _ hw | exact Sparse.wf_filter _ _ hw))
    | split)

theorem State.encError_kept {s₀ : State} (s : State) (n b : Nat) (h : Kept s₀ s) :
    Kept s₀ (State.encError s n b) := by
  unfold State.encError
  repeat' (first
    | with_reducible assumption
    | (with_reducible apply State.count_kept)
    | (with_reducible apply State.refLost_kept)
    | (with_reducible apply State.setFlag_kept)
    | (with_reducible apply Kept.ite)
    | (intro _))

theorem effTransition_kept {s₀ : State} (n : Nat) (fwd both : Bool) (s : State) (h : Kept s₀ s) :
    Kept s₀ (effTransition n fwd both s) := by
  unfold effTransition
  repeat' (first
    | with_reducible assumption
    | (with_reducible apply State.encError_kept)
    | (with_reducible apply State.injDone_kept)
    | (with_reducible apply State.wr_kept)
    | (with_reducible apply Kept.ite)
    | (intro _))

theorem State.encStamp_kept {s₀ : State} (s : State) (n : Nat) (h : Kept s₀ s) :
    Kept s₀ (State.encStamp s n) := by
  unfold State.encStamp
  repeat' (first
    | with_reducible assumption
    | (with_reducible apply State.wr64_kept))

theorem effIndex_kept {s₀ : State} (n : Nat) (s : State) (h : Kept s₀ s) :
    Kept s₀ (effIndex n s) := by
  unfold effIndex
  repeat' (first
    | with_reducible assumption
    | (with_reducible apply State.encError_kept)
    | (with_reducible apply State.encStamp_kept)
    | (with_reducible apply Kept.ite)
    | (intro _)
    | (with_reducible refine Kept.of_snd (by assumption) ?_)
    | (with_reducible refine Kept.of_snd2 (by assumption) ?_)
    | (with_reducible refine Kept.of_snd3 (by assumption) ?_)
    | (with_reducible refine Kept.of_fst (by assumption) ?_)
    | (with_reducible refine Kept.of_fst2 (by assumption) ?_)
    | (simp only [Kept.update_iff]))

theorem effSsi_kept {s₀ : State} (n : Nat) (data : Word) (parity : Bool) (s : State) (h : Kept s₀ s) :
    Kept s₀ (effSsi n data parity s) := by
  unfold effSsi
  repeat' (first
    | with_reducible assumption
    | (with_reducible apply State.encError_kept)
    | (with_reducible apply State.encStamp_kept)
    | (with_reducible apply State.wr_kept)
    | (with_reducible apply Kept.ite)
    | (intro _))

theorem State.skipSlots_kept {s₀ : State} (s : State) (a b : Nat) (h : Kept s₀ s) :
    Kept s₀ (State.skipSlots s a b) := by
  unfold State.skipSlots
  repeat' (first
    | with_reducible assumption
    | (with_reducible apply State.count_kept)
    | (with_reducible apply State.setSlotAux_kept)
    | (with_reducible apply Kept.ite)
    | (intro _)
    | (with_reducible apply Kept.foldl)
    | (with_reducible apply Kept.foldl_snd)
    | (with_reducible apply Kept.foldl_fst)
    | (with_reducible refine Kept.of_snd (by assumption) ?_)
    | (with_reducible refine Kept.of_snd2 (by assumption) ?_)
    | (with_reducible refine Kept.of_snd3 (by assumption) ?_)
    | (with_reducible refine Kept.of_fst (by assumption) ?_)
    | (with_reducible refine Kept.of_fst2 (by assumption) ?_)
    | (simp only [Kept.update_iff])
    | (simp only [Kept.tables_iff]; apply KeptTables.intro <;> first | with_reducible assumption | with_reducible refine Kept.of_snd (by assumption) ?_ | with_reducible refine Kept.of_snd2 (by assumption) ?_ | with_reducible refine Kept.of_snd3 (by assumption) ?_ | with_reducible refine Kept.of_fst (by assumption) ?_ | with_reducible refine Kept.of_fst2 (by assumption) ?_ | exact id | exact fun _ => rfl | (intro hw; first | exact Sparse.wf_set _ _ _ hw | exact Sparse.wf_restrict _ _ hw | exact Sparse.wf_filter _ _ hw))
    | split)

theorem State.stepPhase_kept {s₀ : State} (s : State) (ref : Nat) (rev : Option Nat) (h : Kept s₀ s) :
    Kept s₀ (State.stepPhase s ref rev) := by
  unfold State.stepPhase
  repeat' (first
    | with_reducible assumption
    | (with_reducible apply State.setFlag_kept)
    | (with_reducible apply State.skipSlots_kept)
    | (with_reducible apply Kept.ite)
    | (intro _)
    | (with_reducible refine Kept.of_snd (by assumption) ?_)
    | (with_reducible refine Kept.of_snd2 (by assumption) ?_)
    | (with_reducible refine Kept.of_snd3 (by assumption) ?_)
    | (with_reducible refine Kept.of_fst (by assumption) ?_)
    | (with_reducible refine Kept.of_fst2 (by assumption) ?_)
    | (simp only [Kept.update_iff]))

theorem State.slewLocked_kept {s₀ : State} (s : State) (h : Kept s₀ s) :
    Kept s₀ (State.slewLocked s) := by
  unfold State.slewLocked
  repeat' (first
    | with_reducible assumption
    | (with_reducible apply State.draw_kept)
    | (with_reducible apply State.wr64_kept))

theorem State.refEvent_kept {s₀ : State} (s : State) (ref : Nat) (rev : Option Nat) (h : Kept s₀ s) :
    Kept s₀ (State.refEvent s ref rev) := by
  unfold State.refEvent
  repeat' (first
    | with_reducible assumption
    | (with_reducible apply State.setLock_kept)
    | (with_reducible apply State.slewLocked_kept)
    | (with_reducible apply State.stepPhase_kept)
    | (with_reducible apply State.wr_kept)
    | (with_reducible apply Kept.ite)
    | (intro _)
    | (with_reducible refine Kept.of_snd (by assumption) ?_)
    | (with_reducible refine Kept.of_snd2 (by assumption) ?_)
    | (with_reducible refine Kept.of_snd3 (by assumption) ?_)
    | (with_reducible refine Kept.of_fst (by assumption) ?_)
    | (with_reducible refine Kept.of_fst2 (by assumption) ?_)
    | (simp only [Kept.update_iff])
    | (simp only [Kept.tables_iff]; apply KeptTables.intro <;> first | with_reducible assumption | with_reducible refine Kept.of_snd (by assumption) ?_ | with_reducible refine Kept.of_snd2 (by assumption) ?_ | with_reducible refine Kept.of_snd3 (by assumption) ?_ | with_reducible refine Kept.of_fst (by assumption) ?_ | with_reducible refine Kept.of_fst2 (by assumption) ?_ | exact id | exact fun _ => rfl | (intro hw; first | exact Sparse.wf_set _ _ _ hw | exact Sparse.wf_restrict _ _ hw | exact Sparse.wf_filter _ _ hw))
    | split)

theorem effReference_kept {s₀ : State} (r : RefSource) (s : State) (h : Kept s₀ s) :
    Kept s₀ (effReference r s) := by
  unfold effReference
  repeat' (first
    | with_reducible assumption
    | (with_reducible apply State.refEvent_kept)
    | (with_reducible apply State.refLost_kept)
    | (with_reducible apply Kept.ite)
    | (intro _)
    | (with_reducible refine Kept.of_snd (by assumption) ?_)
    | (with_reducible refine Kept.of_snd2 (by assumption) ?_)
    | (with_reducible refine Kept.of_snd3 (by assumption) ?_)
    | (with_reducible refine Kept.of_fst (by assumption) ?_)
    | (with_reducible refine Kept.of_fst2 (by assumption) ?_)
    | (simp only [Kept.update_iff])
    | (simp only [Kept.tables_iff]; apply KeptTables.intro <;> first | with_reducible assumption | with_reducible refine Kept.of_snd (by assumption) ?_ | with_reducible refine Kept.of_snd2 (by assumption) ?_ | with_reducible refine Kept.of_snd3 (by assumption) ?_ | with_reducible refine Kept.of_fst (by assumption) ?_ | with_reducible refine Kept.of_fst2 (by assumption) ?_ | exact id | exact fun _ => rfl | (intro hw; first | exact Sparse.wf_set _ _ _ hw | exact Sparse.wf_restrict _ _ hw | exact Sparse.wf_filter _ _ hw))
    | split)

theorem effRefTimeout_kept {s₀ : State} (s : State) (h : Kept s₀ s) :
    Kept s₀ (effRefTimeout s) := by
  unfold effRefTimeout
  repeat' (first
    | with_reducible assumption
    | (with_reducible apply State.refLost_kept)
    | (with_reducible apply Kept.ite)
    | (intro _))

theorem effHoldover_kept {s₀ : State} (s : State) (h : Kept s₀ s) :
    Kept s₀ (effHoldover s) := by
  unfold effHoldover
  repeat' (first
    | with_reducible assumption
    | (with_reducible apply State.setLock_kept)
    | (with_reducible apply Kept.ite)
    | (intro _))

end Sys2Proof.Machine
end

