-- ==== Sys2Proof/Laws/KeptObjTx.lean ====
section
/-! SUPPORT. What the operations of Machine/ObjTx.lean keep: the queue of commands, the timebase count and the canonical form of
every table. -/

set_option Elab.async false

set_option linter.tactic.unusedName false

namespace Sys2Proof.Machine

theorem State.objCheckAt_kept {s₀ : State} (s : State) (t : Itag) (o : Obj) (write : Bool)
    (viol : Option (Nat × Nat × Nat)) (l : List Nat) (h : Kept s₀ s) : Kept s₀ (State.objCheckAt s t o write viol l).2 := by
  induction l generalizing s with
  | nil => exact h
  | cons a rest ih =>
    simp only [State.objCheckAt]
    repeat' (first
      | with_reducible assumption
      | (with_reducible apply ih)
      | ((fail_if_no_progress extract_lets +onlyGivenNames x); refine (?_ : Kept s₀ x → _) ?_; (on_goal 2 => subst x); (try clear_value x); intro hx)
      | ((fail_if_no_progress extract_lets +onlyGivenNames x); refine (?_ : Kept s₀ x.2 → _) ?_; (on_goal 2 => subst x); (try clear_value x); intro hx)
      | ((fail_if_no_progress extract_lets +onlyGivenNames x); (try clear_value x))
      | (with_reducible apply State.checkSite_kept)
      | (with_reducible apply State.demandPd_kept)
      | (with_reducible apply State.violate_kept)
      | (with_reducible apply Kept.ite)
      | (intro _)
      | (with_reducible refine Kept.of_snd (by assumption) ?_)
      | (with_reducible refine Kept.of_snd2 (by assumption) ?_)
      | (with_reducible refine Kept.of_snd3 (by assumption) ?_)
      | (with_reducible refine Kept.of_fst (by assumption) ?_)
      | (with_reducible refine Kept.of_fst2 (by assumption) ?_)
      | (simp only [Kept.update_iff])
      | (simp only [Kept.tables_iff]; apply KeptTables.intro <;> first | with_reducible assumption | with_reducible refine Kept.of_snd (by assumption) ?_ | with_reducible refine Kept.of_snd2 (by assumption) ?_ | with_reducible refine Kept.of_snd3 (by assumption) ?_ | with_reducible refine Kept.of_fst (by assumption) ?_ | with_reducible refine Kept.of_fst2 (by assumption) ?_ | exact id | exact fun _ => rfl | (intro hw; first | exact Sparse.wf_set _ _ _ hw | exact Sparse.wf_restrict _ _ hw | exact Sparse.wf_filter _ _ hw))
      | split
      | (apply Kept.ite)
      | (dsimp only))

theorem State.objCheck_kept {s₀ : State} (s : State) (t : Itag) (o : Obj) (off n : Nat) (write : Bool) (viol : Option (Nat × Nat × Nat)) (h : Kept s₀ s) :
    Kept s₀ (State.objCheck s t o off n write viol).2 := by
  unfold State.objCheck
  repeat' (first
    | with_reducible assumption
    | (with_reducible apply State.objCheckAt_kept))

theorem State.objTxRead_kept {s₀ : State} (s : State) (t : Itag) (o : Obj) (off n : Nat) (viol : Option (Nat × Nat × Nat)) (h : Kept s₀ s) :
    Kept s₀ (State.objTxRead s t o off n viol).2 := by
  unfold State.objTxRead
  repeat' (first
    | with_reducible assumption
    | (with_reducible apply State.memInjects_kept)
    | (with_reducible apply State.noteUncorr_kept)
    | (with_reducible apply State.objCheck_kept)
    | (with_reducible apply Kept.ite)
    | (intro _)
    | (with_reducible refine Kept.of_snd (by assumption) ?_)
    | (with_reducible refine Kept.of_snd2 (by assumption) ?_)
    | (with_reducible refine Kept.of_snd3 (by assumption) ?_)
    | (with_reducible refine Kept.of_fst (by assumption) ?_)
    | (with_reducible refine Kept.of_fst2 (by assumption) ?_)
    | (simp only [Kept.update_iff])
    | (simp only [Kept.tables_iff]; apply KeptTables.intro <;> first | with_reducible assumption | with_reducible refine Kept.of_snd (by assumption) ?_ | with_reducible refine Kept.of_snd2 (by assumption) ?_ | with_reducible refine Kept.of_snd3 (by assumption) ?_ | with_reducible refine Kept.of_fst (by assumption) ?_ | with_reducible refine Kept.of_fst2 (by assumption) ?_ | exact id | exact fun _ => rfl | (intro hw; first | exact Sparse.wf_set _ _ _ hw | exact Sparse.wf_restrict _ _ hw | exact Sparse.wf_filter _ _ hw))
    | split)

theorem State.objTxWrite_kept {s₀ : State} (s : State) (t : Itag) (o : Obj) (off : Nat) (bs : List Byte) (viol : Option (Nat × Nat × Nat)) (h : Kept s₀ s) :
    Kept s₀ (State.objTxWrite s t o off bs viol).2 := by
  unfold State.objTxWrite
  repeat' (first
    | with_reducible assumption
    | (with_reducible apply State.objCheck_kept)
    | (with_reducible apply State.writeObj_kept)
    | (with_reducible apply Kept.ite)
    | (intro _)
    | (with_reducible refine Kept.of_snd (by assumption) ?_)
    | (with_reducible refine Kept.of_snd2 (by assumption) ?_)
    | (with_reducible refine Kept.of_snd3 (by assumption) ?_)
    | (with_reducible refine Kept.of_fst (by assumption) ?_)
    | (with_reducible refine Kept.of_fst2 (by assumption) ?_)
    | (simp only [Kept.update_iff])
    | (simp only [Kept.tables_iff]; apply KeptTables.intro <;> first | with_reducible assumption | with_reducible refine Kept.of_snd (by assumption) ?_ | with_reducible refine Kept.of_snd2 (by assumption) ?_ | with_reducible refine Kept.of_snd3 (by assumption) ?_ | with_reducible refine Kept.of_fst (by assumption) ?_ | with_reducible refine Kept.of_fst2 (by assumption) ?_ | exact id | exact fun _ => rfl | (intro hw; first | exact Sparse.wf_set _ _ _ hw | exact Sparse.wf_restrict _ _ hw | exact Sparse.wf_filter _ _ hw))
    | split)

end Sys2Proof.Machine
end

