-- ==== Sys2Proof/Laws/KeptKvw.lean ====
section
/-! SUPPORT. What the operations of Machine/Kvw.lean keep: the queue of commands, the timebase count and the canonical form of
every table. -/

set_option Elab.async false

set_option linter.tactic.unusedName false

namespace Sys2Proof.Machine

theorem State.setWalker_kept {s₀ : State} (s : State) (n : Nat) (w : Walker) (h : Kept s₀ s) :
    Kept s₀ (State.setWalker s n w) := by
  unfold State.setWalker
  repeat' (first
    | with_reducible assumption
    | (with_reducible apply Kept.ite)
    | (intro _)
    | (with_reducible refine Kept.of_snd (by assumption) ?_)
    | (with_reducible refine Kept.of_snd2 (by assumption) ?_)
    | (with_reducible refine Kept.of_snd3 (by assumption) ?_)
    | (with_reducible refine Kept.of_fst (by assumption) ?_)
    | (with_reducible refine Kept.of_fst2 (by assumption) ?_)
    | (simp only [Kept.update_iff])
    | (simp only [Kept.tables_iff]; apply KeptTables.intro <;> first | with_reducible assumption | with_reducible refine Kept.of_snd (by assumption) ?_ | with_reducible refine Kept.of_snd2 (by assumption) ?_ | with_reducible refine Kept.of_snd3 (by assumption) ?_ | with_reducible refine Kept.of_fst (by assumption) ?_ | with_reducible refine Kept.of_fst2 (by assumption) ?_ | exact id | exact fun _ => rfl | (intro hw; first | exact Sparse.wf_set _ _ _ hw | exact Sparse.wf_restrict _ _ hw | exact Sparse.wf_filter _ _ hw)))

theorem State.kvFill_kept {s₀ : State} (s : State) (n seq g k : Nat) (h : Kept s₀ s) :
    Kept s₀ (State.kvFill s n seq g k).2 := by
  unfold State.kvFill
  repeat' (first
    | with_reducible assumption
    | (with_reducible apply State.addSat_kept)
    | (with_reducible apply State.setWalker_kept)
    | (with_reducible apply State.touch_kept)
    | (with_reducible apply State.txRead_kept)
    | (with_reducible apply Kept.ite)
    | (intro _)
    | (with_reducible refine Kept.of_snd (by assumption) ?_)
    | (with_reducible refine Kept.of_snd2 (by assumption) ?_)
    | (with_reducible refine Kept.of_snd3 (by assumption) ?_)
    | (with_reducible refine Kept.of_fst (by assumption) ?_)
    | (with_reducible refine Kept.of_fst2 (by assumption) ?_)
    | (simp only [Kept.update_iff])
    | (simp only [Kept.tables_iff]; apply KeptTables.intro <;> first | with_reducible assumption | with_reducible refine Kept.of_snd (by assumption) ?_ | with_reducible refine Kept.of_snd2 (by assumption) ?_ | with_reducible refine Kept.of_snd3 (by assumption) ?_ | with_reducible refine Kept.of_fst (by assumption) ?_ | with_reducible refine Kept.of_fst2 (by assumption) ?_ | exact id | exact fun _ => rfl | (intro hw; first | exact Sparse.wf_set _ _ _ hw | exact Sparse.wf_restrict _ _ hw | exact Sparse.wf_filter _ _ hw))
    | split)

theorem State.kvWalk_kept {s₀ : State} (s : State) (n seq g k : Nat) (h : Kept s₀ s) :
    Kept s₀ (State.kvWalk s n seq g k).2 := by
  unfold State.kvWalk
  repeat' (first
    | with_reducible assumption
    | (with_reducible apply State.addSat_kept)
    | (with_reducible apply State.count_kept)
    | (with_reducible apply State.injDone_kept)
    | (with_reducible apply State.kvFill_kept)
    | (with_reducible apply State.setWalker_kept)
    | (with_reducible apply State.touch_kept)
    | (with_reducible apply Kept.ite)
    | (intro _)
    | (with_reducible refine Kept.of_snd (by assumption) ?_)
    | (with_reducible refine Kept.of_snd2 (by assumption) ?_)
    | (with_reducible refine Kept.of_snd3 (by assumption) ?_)
    | (with_reducible refine Kept.of_fst (by assumption) ?_)
    | (with_reducible refine Kept.of_fst2 (by assumption) ?_)
    | (simp only [Kept.update_iff])
    | (simp only [Kept.tables_iff]; apply KeptTables.intro <;> first | with_reducible assumption | with_reducible refine Kept.of_snd (by assumption) ?_ | with_reducible refine Kept.of_snd2 (by assumption) ?_ | with_reducible refine Kept.of_snd3 (by assumption) ?_ | with_reducible refine Kept.of_fst (by assumption) ?_ | with_reducible refine Kept.of_fst2 (by assumption) ?_ | exact id | exact fun _ => rfl | (intro hw; first | exact Sparse.wf_set _ _ _ hw | exact Sparse.wf_restrict _ _ hw | exact Sparse.wf_filter _ _ hw))
    | split)

theorem State.kvAbsent_kept {s₀ : State} (s : State) (h : Kept s₀ s) :
    Kept s₀ (State.kvAbsent s) := by
  unfold State.kvAbsent
  repeat' (first
    | with_reducible assumption
    | (with_reducible apply State.count_kept)
    | (with_reducible apply State.raise_kept))

theorem State.setPte_kept {s₀ : State} (s : State) (n : Nat) (l : FinderLine) (k pte : Nat) (h : Kept s₀ s) :
    Kept s₀ (State.setPte s n l k pte).2 := by
  unfold State.setPte
  repeat' (first
    | with_reducible assumption
    | (with_reducible apply State.setWalker_kept)
    | (with_reducible apply State.touch_kept)
    | (with_reducible apply State.txWrite_kept)
    | (with_reducible apply Kept.ite)
    | (intro _)
    | (with_reducible refine Kept.of_snd (by assumption) ?_)
    | (with_reducible refine Kept.of_snd2 (by assumption) ?_)
    | (with_reducible refine Kept.of_snd3 (by assumption) ?_)
    | (with_reducible refine Kept.of_fst (by assumption) ?_)
    | (with_reducible refine Kept.of_fst2 (by assumption) ?_)
    | (simp only [Kept.update_iff])
    | (simp only [Kept.tables_iff]; apply KeptTables.intro <;> first | with_reducible assumption | with_reducible refine Kept.of_snd (by assumption) ?_ | with_reducible refine Kept.of_snd2 (by assumption) ?_ | with_reducible refine Kept.of_snd3 (by assumption) ?_ | with_reducible refine Kept.of_fst (by assumption) ?_ | with_reducible refine Kept.of_fst2 (by assumption) ?_ | exact id | exact fun _ => rfl | (intro hw; first | exact Sparse.wf_set _ _ _ hw | exact Sparse.wf_restrict _ _ hw | exact Sparse.wf_filter _ _ hw))
    | split)

theorem State.pageWrite_kept {s₀ : State} (s : State) (n : Nat) (pool : Obj) (p : Page) (off : Nat) (bs : List Byte) (h : Kept s₀ s) :
    Kept s₀ (State.pageWrite s n pool p off bs).2 := by
  unfold State.pageWrite
  repeat' (first
    | with_reducible assumption
    | (with_reducible apply State.objTxWrite_kept)
    | (with_reducible apply State.txWrite_kept)
    | (with_reducible apply Kept.ite)
    | (intro _)
    | (with_reducible refine Kept.of_snd (by assumption) ?_)
    | (with_reducible refine Kept.of_snd2 (by assumption) ?_)
    | (with_reducible refine Kept.of_snd3 (by assumption) ?_)
    | (with_reducible refine Kept.of_fst (by assumption) ?_)
    | (with_reducible refine Kept.of_fst2 (by assumption) ?_)
    | (simp only [Kept.update_iff])
    | (simp only [Kept.tables_iff]; apply KeptTables.intro <;> first | with_reducible assumption | with_reducible refine Kept.of_snd (by assumption) ?_ | with_reducible refine Kept.of_snd2 (by assumption) ?_ | with_reducible refine Kept.of_snd3 (by assumption) ?_ | with_reducible refine Kept.of_fst (by assumption) ?_ | with_reducible refine Kept.of_fst2 (by assumption) ?_ | exact id | exact fun _ => rfl | (intro hw; first | exact Sparse.wf_set _ _ _ hw | exact Sparse.wf_restrict _ _ hw | exact Sparse.wf_filter _ _ hw))
    | split)

theorem State.pageRead_kept {s₀ : State} (s : State) (n : Nat) (pool : Obj) (p : Page) (off len : Nat) (h : Kept s₀ s) :
    Kept s₀ (State.pageRead s n pool p off len).2 := by
  unfold State.pageRead
  repeat' (first
    | with_reducible assumption
    | (with_reducible apply State.objTxRead_kept)
    | (with_reducible apply State.txRead_kept)
    | (with_reducible apply Kept.ite)
    | (intro _)
    | (with_reducible refine Kept.of_snd (by assumption) ?_)
    | (with_reducible refine Kept.of_snd2 (by assumption) ?_)
    | (with_reducible refine Kept.of_snd3 (by assumption) ?_)
    | (with_reducible refine Kept.of_fst (by assumption) ?_)
    | (with_reducible refine Kept.of_fst2 (by assumption) ?_)
    | (simp only [Kept.update_iff])
    | (simp only [Kept.tables_iff]; apply KeptTables.intro <;> first | with_reducible assumption | with_reducible refine Kept.of_snd (by assumption) ?_ | with_reducible refine Kept.of_snd2 (by assumption) ?_ | with_reducible refine Kept.of_snd3 (by assumption) ?_ | with_reducible refine Kept.of_fst (by assumption) ?_ | with_reducible refine Kept.of_fst2 (by assumption) ?_ | exact id | exact fun _ => rfl | (intro hw; first | exact Sparse.wf_set _ _ _ hw | exact Sparse.wf_restrict _ _ hw | exact Sparse.wf_filter _ _ hw))
    | split)

theorem State.kvScales_kept {s₀ : State} (s : State) (n layer h : Nat) (hk : Kept s₀ s) :
    Kept s₀ (State.kvScales s n layer h).2 := by
  unfold State.kvScales
  repeat' (first
    | with_reducible assumption
    | (with_reducible apply State.txRead_kept)
    | (with_reducible apply Kept.ite)
    | (intro _)
    | (with_reducible refine Kept.of_snd (by assumption) ?_)
    | (with_reducible refine Kept.of_snd2 (by assumption) ?_)
    | (with_reducible refine Kept.of_snd3 (by assumption) ?_)
    | (with_reducible refine Kept.of_fst (by assumption) ?_)
    | (with_reducible refine Kept.of_fst2 (by assumption) ?_)
    | (simp only [Kept.update_iff])
    | (simp only [Kept.tables_iff]; apply KeptTables.intro <;> first | with_reducible assumption | with_reducible refine Kept.of_snd (by assumption) ?_ | with_reducible refine Kept.of_snd2 (by assumption) ?_ | with_reducible refine Kept.of_snd3 (by assumption) ?_ | with_reducible refine Kept.of_fst (by assumption) ?_ | with_reducible refine Kept.of_fst2 (by assumption) ?_ | exact id | exact fun _ => rfl | (intro hw; first | exact Sparse.wf_set _ _ _ hw | exact Sparse.wf_restrict _ _ hw | exact Sparse.wf_filter _ _ hw))
    | split)

theorem State.kvPrescan_kept {s₀ : State} (s : State) (n : Nat) (bs : List Byte) (h : Kept s₀ s) :
    Kept s₀ (State.kvPrescan s n bs).2 := by
  unfold State.kvPrescan
  repeat' (first
    | with_reducible assumption
    | (with_reducible apply State.kvWalk_kept)
    | (with_reducible apply Kept.ite)
    | (intro _)
    | (with_reducible refine Kept.of_snd (by assumption) ?_)
    | (with_reducible refine Kept.of_snd2 (by assumption) ?_)
    | (with_reducible refine Kept.of_snd3 (by assumption) ?_)
    | (with_reducible refine Kept.of_fst (by assumption) ?_)
    | (with_reducible refine Kept.of_fst2 (by assumption) ?_)
    | (simp only [Kept.update_iff])
    | (simp only [Kept.tables_iff]; apply KeptTables.intro <;> first | with_reducible assumption | with_reducible refine Kept.of_snd (by assumption) ?_ | with_reducible refine Kept.of_snd2 (by assumption) ?_ | with_reducible refine Kept.of_snd3 (by assumption) ?_ | with_reducible refine Kept.of_fst (by assumption) ?_ | with_reducible refine Kept.of_fst2 (by assumption) ?_ | exact id | exact fun _ => rfl | (intro hw; first | exact Sparse.wf_set _ _ _ hw | exact Sparse.wf_restrict _ _ hw | exact Sparse.wf_filter _ _ hw))
    | split)

theorem thenTx_kept {s₀ : State} {r : Option Nat × State} {f : State → Tx Unit × State} (hr : Kept s₀ r.2)
    (hf : ∀ s, Kept s₀ s → Kept s₀ (f s).2) : Kept s₀ (thenTx r f).2 := by
  unfold thenTx
  split
  · exact hr
  · split
    · next e => exact Kept.of_snd e (hf _ hr)
    · next e => exact Kept.of_snd e (hf _ hr)

theorem State.kvFlushFull_kept {s₀ : State} (s : State) (n : Nat) (pool : Obj) (stg f : Nat) (h : Kept s₀ s) :
    Kept s₀ (State.kvFlushFull s n pool stg f).2 := by
  unfold State.kvFlushFull
  repeat' (first
    | with_reducible assumption
    | (with_reducible apply State.pageRead_kept)
    | (with_reducible apply State.pageWrite_kept)
    | (with_reducible apply Kept.ite)
    | (intro _)
    | (with_reducible refine Kept.of_snd (by assumption) ?_)
    | (with_reducible refine Kept.of_snd2 (by assumption) ?_)
    | (with_reducible refine Kept.of_snd3 (by assumption) ?_)
    | (with_reducible refine Kept.of_fst (by assumption) ?_)
    | (with_reducible refine Kept.of_fst2 (by assumption) ?_)
    | (simp only [Kept.update_iff])
    | (simp only [Kept.tables_iff]; apply KeptTables.intro <;> first | with_reducible assumption | with_reducible refine Kept.of_snd (by assumption) ?_ | with_reducible refine Kept.of_snd2 (by assumption) ?_ | with_reducible refine Kept.of_snd3 (by assumption) ?_ | with_reducible refine Kept.of_fst (by assumption) ?_ | with_reducible refine Kept.of_fst2 (by assumption) ?_ | exact id | exact fun _ => rfl | (intro hw; first | exact Sparse.wf_set _ _ _ hw | exact Sparse.wf_restrict _ _ hw | exact Sparse.wf_filter _ _ hw))
    | split)

theorem State.noteStaged_kept {s₀ : State} (s : State) (n seq g k l2 : Nat) (on : Bool) (h : Kept s₀ s) :
    Kept s₀ (State.noteStaged s n seq g k l2 on) := by
  unfold State.noteStaged
  repeat' (first
    | with_reducible assumption
    | (with_reducible apply State.setWalker_kept))

theorem State.showKvMode_kept {s₀ : State} (s : State) (h : Kept s₀ s) :
    Kept s₀ (State.showKvMode s) := by
  unfold State.showKvMode
  repeat' (first
    | with_reducible assumption
    | (with_reducible apply State.setFlag_kept))

theorem State.kvOpenPage_kept {s₀ : State} (s : State) (n : Nat) (pool : Obj) (page : Page) (pte : Nat) (seq g k : Nat) (h : Kept s₀ s) :
    Kept s₀ (State.kvOpenPage s n pool page pte seq g k).2 := by
  unfold State.kvOpenPage
  repeat' (first
    | with_reducible assumption
    | (with_reducible apply State.pageWrite_kept)
    | (with_reducible apply thenTx_kept)
    | (with_reducible apply Kept.ite)
    | (intro _)
    | (with_reducible refine Kept.of_snd (by assumption) ?_)
    | (with_reducible refine Kept.of_snd2 (by assumption) ?_)
    | (with_reducible refine Kept.of_snd3 (by assumption) ?_)
    | (with_reducible refine Kept.of_fst (by assumption) ?_)
    | (with_reducible refine Kept.of_fst2 (by assumption) ?_)
    | (simp only [Kept.update_iff])
    | (simp only [Kept.tables_iff]; apply KeptTables.intro <;> first | with_reducible assumption | with_reducible refine Kept.of_snd (by assumption) ?_ | with_reducible refine Kept.of_snd2 (by assumption) ?_ | with_reducible refine Kept.of_snd3 (by assumption) ?_ | with_reducible refine Kept.of_fst (by assumption) ?_ | with_reducible refine Kept.of_fst2 (by assumption) ?_ | exact id | exact fun _ => rfl | (intro hw; first | exact Sparse.wf_set _ _ _ hw | exact Sparse.wf_restrict _ _ hw | exact Sparse.wf_filter _ _ hw))
    | split)

theorem State.kvMask_kept {s₀ : State} (x : Option Nat × State) (n : Nat) (pool : Obj) (page : Page) (seq g k t : Nat) (h : Kept s₀ x.2) :
    Kept s₀ (State.kvMask x n pool page seq g k t).2 := by
  unfold State.kvMask
  repeat' (first
    | with_reducible assumption
    | (with_reducible apply State.pageRead_kept)
    | (with_reducible apply State.pageWrite_kept)
    | (with_reducible apply thenTx_kept)
    | (with_reducible apply Kept.ite)
    | (intro _)
    | (with_reducible refine Kept.of_snd (by assumption) ?_)
    | (with_reducible refine Kept.of_snd2 (by assumption) ?_)
    | (with_reducible refine Kept.of_snd3 (by assumption) ?_)
    | (with_reducible refine Kept.of_fst (by assumption) ?_)
    | (with_reducible refine Kept.of_fst2 (by assumption) ?_)
    | (simp only [Kept.update_iff])
    | (simp only [Kept.tables_iff]; apply KeptTables.intro <;> first | with_reducible assumption | with_reducible refine Kept.of_snd (by assumption) ?_ | with_reducible refine Kept.of_snd2 (by assumption) ?_ | with_reducible refine Kept.of_snd3 (by assumption) ?_ | with_reducible refine Kept.of_fst (by assumption) ?_ | with_reducible refine Kept.of_fst2 (by assumption) ?_ | exact id | exact fun _ => rfl | (intro hw; first | exact Sparse.wf_set _ _ _ hw | exact Sparse.wf_restrict _ _ hw | exact Sparse.wf_filter _ _ hw))
    | split)

theorem State.kvPutRows_kept {s₀ : State} (x : Option Nat × State) (n : Nat) (pool : Obj) (page : Page) (off : Nat) (kb vb : List Byte) (h : Kept s₀ x.2) :
    Kept s₀ (State.kvPutRows x n pool page off kb vb).2 := by
  unfold State.kvPutRows
  repeat' (first
    | with_reducible assumption
    | (with_reducible apply State.pageWrite_kept)
    | (with_reducible apply thenTx_kept)
    | (with_reducible apply Kept.ite)
    | (intro _))

theorem State.kvPutScales_kept {s₀ : State} (x : Option Nat × State) (n : Nat) (pool : Obj) (page : Page) (off : Nat) (ksc vsc : List Byte) (h : Kept s₀ x.2) :
    Kept s₀ (State.kvPutScales x n pool page off ksc vsc).2 := by
  unfold State.kvPutScales
  repeat' (first
    | with_reducible assumption
    | (with_reducible apply State.pageWrite_kept)
    | (with_reducible apply thenTx_kept)
    | (with_reducible apply Kept.ite)
    | (intro _))

theorem State.kvAdvance_kept {s₀ : State} (x : Option Nat × State) (n : Nat) (pool : Obj) (pte : Nat) (l : FinderLine) (seq g k : Nat) (qam stage adv : Bool) (h : Kept s₀ x.2) :
    Kept s₀ (State.kvAdvance x n pool pte l seq g k qam stage adv).2 := by
  unfold State.kvAdvance
  repeat' (first
    | with_reducible assumption
    | (with_reducible apply State.countTcc_kept)
    | (with_reducible apply State.kvFlushFull_kept)
    | (with_reducible apply State.noteStaged_kept)
    | (with_reducible apply State.setPte_kept)
    | (with_reducible apply State.showKvMode_kept)
    | (with_reducible apply thenTx_kept)
    | (with_reducible apply Kept.ite)
    | (intro _)
    | (with_reducible refine Kept.of_snd (by assumption) ?_)
    | (with_reducible refine Kept.of_snd2 (by assumption) ?_)
    | (with_reducible refine Kept.of_snd3 (by assumption) ?_)
    | (with_reducible refine Kept.of_fst (by assumption) ?_)
    | (with_reducible refine Kept.of_fst2 (by assumption) ?_)
    | (simp only [Kept.update_iff])
    | (simp only [Kept.tables_iff]; apply KeptTables.intro <;> first | with_reducible assumption | with_reducible refine Kept.of_snd (by assumption) ?_ | with_reducible refine Kept.of_snd2 (by assumption) ?_ | with_reducible refine Kept.of_snd3 (by assumption) ?_ | with_reducible refine Kept.of_fst (by assumption) ?_ | with_reducible refine Kept.of_fst2 (by assumption) ?_ | exact id | exact fun _ => rfl | (intro hw; first | exact Sparse.wf_set _ _ _ hw | exact Sparse.wf_restrict _ _ hw | exact Sparse.wf_filter _ _ hw))
    | split)

theorem State.kvAppend_kept {s₀ : State} (s : State) (n : Nat) (bs : List Byte) (krow vrow : List Word) (allHeads : Bool) (h : Kept s₀ s) :
    Kept s₀ (State.kvAppend s n bs krow vrow allHeads).1.2 := by
  unfold State.kvAppend
  repeat' (first
    | with_reducible assumption
    | (with_reducible apply State.kvAdvance_kept)
    | (with_reducible apply State.kvMask_kept)
    | (with_reducible apply State.kvOpenPage_kept)
    | (with_reducible apply State.kvPutRows_kept)
    | (with_reducible apply State.kvPutScales_kept)
    | (with_reducible apply State.kvScales_kept)
    | (with_reducible apply State.kvWalk_kept)
    | (with_reducible apply Kept.ite)
    | (intro _)
    | (with_reducible apply Kept.foldl)
    | (with_reducible apply Kept.foldl_snd)
    | (with_reducible apply Kept.foldl_fst)
    | (with_reducible refine Kept.of_snd (by assumption) ?_)
    | (with_reducible refine Kept.of_snd2 (by assumption) ?_)
    | (with_reducible refine Kept.of_snd3 (by assumption) ?_)
    | (with_reducible refine Kept.of_fst (by assumption) ?_)
    | (with_reducible refine Kept.of_fst2 (by assumption) ?_)
    | (simp only [Kept.update_iff])
    | (simp only [Kept.tables_iff]; apply KeptTables.intro <;> first | with_reducible assumption | with_reducible refine Kept.of_snd (by assumption) ?_ | with_reducible refine Kept.of_snd2 (by assumption) ?_ | with_reducible refine Kept.of_snd3 (by assumption) ?_ | with_reducible refine Kept.of_fst (by assumption) ?_ | with_reducible refine Kept.of_fst2 (by assumption) ?_ | exact id | exact fun _ => rfl | (intro hw; first | exact Sparse.wf_set _ _ _ hw | exact Sparse.wf_restrict _ _ hw | exact Sparse.wf_filter _ _ hw))
    | split)

theorem State.kvRow_kept {s₀ : State} (s : State) (n : Nat) (pool : Obj) (r : GwFields) (isV : Bool) (scale : Word) (p : Nat) (h : Kept s₀ s) :
    Kept s₀ (State.kvRow s n pool r isV scale p).1.2 := by
  unfold State.kvRow
  repeat' (first
    | with_reducible assumption
    | (with_reducible apply State.count_kept)
    | (with_reducible apply State.injDone_kept)
    | (with_reducible apply State.kvAbsent_kept)
    | (with_reducible apply State.kvWalk_kept)
    | (with_reducible apply State.pageRead_kept)
    | (with_reducible apply State.raise_kept)
    | (with_reducible apply Kept.ite)
    | (intro _)
    | (with_reducible refine Kept.of_snd (by assumption) ?_)
    | (with_reducible refine Kept.of_snd2 (by assumption) ?_)
    | (with_reducible refine Kept.of_snd3 (by assumption) ?_)
    | (with_reducible refine Kept.of_fst (by assumption) ?_)
    | (with_reducible refine Kept.of_fst2 (by assumption) ?_)
    | (simp only [Kept.update_iff])
    | (simp only [Kept.tables_iff]; apply KeptTables.intro <;> first | with_reducible assumption | with_reducible refine Kept.of_snd (by assumption) ?_ | with_reducible refine Kept.of_snd2 (by assumption) ?_ | with_reducible refine Kept.of_snd3 (by assumption) ?_ | with_reducible refine Kept.of_fst (by assumption) ?_ | with_reducible refine Kept.of_fst2 (by assumption) ?_ | exact id | exact fun _ => rfl | (intro hw; first | exact Sparse.wf_set _ _ _ hw | exact Sparse.wf_restrict _ _ hw | exact Sparse.wf_filter _ _ hw))
    | split)

theorem State.kvRows_kept {s₀ : State} (n : Nat) (pool : Obj) (r : GwFields) (isV : Bool) (scale : Word) (app : List Appended)
    (lo hi : Nat) (l : List Nat) (s : State) (h : Kept s₀ s) : Kept s₀ (State.kvRows n pool r isV scale app lo hi l s).1.2 := by
  induction l generalizing s with
  | nil => exact h
  | cons a rest ih =>
    simp only [State.kvRows]
    repeat' (first
      | with_reducible assumption
      | (with_reducible apply ih)
      | ((fail_if_no_progress extract_lets +onlyGivenNames x); refine (?_ : Kept s₀ x → _) ?_; (on_goal 2 => subst x); (try clear_value x); intro hx)
      | ((fail_if_no_progress extract_lets +onlyGivenNames x); refine (?_ : Kept s₀ x.2 → _) ?_; (on_goal 2 => subst x); (try clear_value x); intro hx)
      | ((fail_if_no_progress extract_lets +onlyGivenNames x); (try clear_value x))
      | (with_reducible apply State.kvRow_kept)
      | (with_reducible apply Kept.ite)
      | (intro _)
      | (with_reducible refine Kept.of_snd (by assumption) ?_)
      | (with_reducible refine Kept.of_snd2 (by assumption) ?_)
      | (with_reducible refine Kept.of_snd3 (by assumption) ?_)
      | (with_reducible refine Kept.of_fst (by assumption) ?_)
      | (with_reducible refine Kept.of_fst2 (by assumption) ?_)
      | (simp only [Kept.update_iff])
      | (simp only [Kept.tables_iff]; apply KeptTables.intro <;> first | with_reducible assumption | with_reducible refine Kept.of_snd (by assumption) ?_ | with_reducible refine Kept.of_snd2 (by assumption) ?_ | with_reducible refine Kept.of_snd3 (by assumption) ?_ | with_reducible refine Kept.of_fst (by assumption) ?_ | with_reducible refine Kept.of_fst2 (by assumption) ?_ | exact id | exact fun _ => rfl | (intro hw; first | exact Sparse.wf_set _ _ _ hw | exact Sparse.wf_restrict _ _ hw | exact Sparse.wf_filter _ _ hw))
      | split
      | (apply Kept.ite)
      | (dsimp only))

theorem State.ringPut_kept {s₀ : State} (s : State) (n rslot cons : Nat) (t : Tile) (h : Kept s₀ s) :
    Kept s₀ (State.ringPut s n rslot cons t).2 := by
  unfold State.ringPut
  repeat' (first
    | with_reducible assumption
    | (with_reducible apply State.setWalker_kept)
    | (with_reducible apply State.txWrite_kept)
    | (with_reducible apply Kept.ite)
    | (intro _)
    | (with_reducible refine Kept.of_snd (by assumption) ?_)
    | (with_reducible refine Kept.of_snd2 (by assumption) ?_)
    | (with_reducible refine Kept.of_snd3 (by assumption) ?_)
    | (with_reducible refine Kept.of_fst (by assumption) ?_)
    | (with_reducible refine Kept.of_fst2 (by assumption) ?_)
    | (simp only [Kept.update_iff])
    | (simp only [Kept.tables_iff]; apply KeptTables.intro <;> first | with_reducible assumption | with_reducible refine Kept.of_snd (by assumption) ?_ | with_reducible refine Kept.of_snd2 (by assumption) ?_ | with_reducible refine Kept.of_snd3 (by assumption) ?_ | with_reducible refine Kept.of_fst (by assumption) ?_ | with_reducible refine Kept.of_fst2 (by assumption) ?_ | exact id | exact fun _ => rfl | (intro hw; first | exact Sparse.wf_set _ _ _ hw | exact Sparse.wf_restrict _ _ hw | exact Sparse.wf_filter _ _ hw))
    | split)

theorem State.kvGather_kept {s₀ : State} (s : State) (n : Nat) (bs : List Byte) (app : List Appended) (h : Kept s₀ s) :
    Kept s₀ (State.kvGather s n bs app).1.2 := by
  unfold State.kvGather
  repeat' (first
    | with_reducible assumption
    | (with_reducible apply State.addSat_kept)
    | (with_reducible apply State.kvRows_kept)
    | (with_reducible apply State.kvScales_kept)
    | (with_reducible apply State.ringPut_kept)
    | (with_reducible apply Kept.ite)
    | (intro _)
    | (with_reducible apply Kept.foldl)
    | (with_reducible apply Kept.foldl_snd)
    | (with_reducible apply Kept.foldl_fst)
    | (with_reducible refine Kept.of_snd (by assumption) ?_)
    | (with_reducible refine Kept.of_snd2 (by assumption) ?_)
    | (with_reducible refine Kept.of_snd3 (by assumption) ?_)
    | (with_reducible refine Kept.of_fst (by assumption) ?_)
    | (with_reducible refine Kept.of_fst2 (by assumption) ?_)
    | (simp only [Kept.update_iff])
    | (simp only [Kept.tables_iff]; apply KeptTables.intro <;> first | with_reducible assumption | with_reducible refine Kept.of_snd (by assumption) ?_ | with_reducible refine Kept.of_snd2 (by assumption) ?_ | with_reducible refine Kept.of_snd3 (by assumption) ?_ | with_reducible refine Kept.of_fst (by assumption) ?_ | with_reducible refine Kept.of_fst2 (by assumption) ?_ | exact id | exact fun _ => rfl | (intro hw; first | exact Sparse.wf_set _ _ _ hw | exact Sparse.wf_restrict _ _ hw | exact Sparse.wf_filter _ _ hw))
    | split)

theorem State.rowGatherRows_kept {s₀ : State} (n : Nat) (o : Obj) (len : Nat) (l : List Nat) (s : State) (h : Kept s₀ s) :
    Kept s₀ (State.rowGatherRows n o len l s).1.2 := by
  induction l generalizing s with
  | nil => exact h
  | cons a rest ih =>
    simp only [State.rowGatherRows]
    repeat' (first
      | with_reducible assumption
      | (with_reducible apply ih)
      | ((fail_if_no_progress extract_lets +onlyGivenNames x); refine (?_ : Kept s₀ x → _) ?_; (on_goal 2 => subst x); (try clear_value x); intro hx)
      | ((fail_if_no_progress extract_lets +onlyGivenNames x); refine (?_ : Kept s₀ x.2 → _) ?_; (on_goal 2 => subst x); (try clear_value x); intro hx)
      | ((fail_if_no_progress extract_lets +onlyGivenNames x); (try clear_value x))
      | (with_reducible apply State.objTxRead_kept)
      | (with_reducible apply Kept.ite)
      | (intro _)
      | (with_reducible refine Kept.of_snd (by assumption) ?_)
      | (with_reducible refine Kept.of_snd2 (by assumption) ?_)
      | (with_reducible refine Kept.of_snd3 (by assumption) ?_)
      | (with_reducible refine Kept.of_fst (by assumption) ?_)
      | (with_reducible refine Kept.of_fst2 (by assumption) ?_)
      | (simp only [Kept.update_iff])
      | (simp only [Kept.tables_iff]; apply KeptTables.intro <;> first | with_reducible assumption | with_reducible refine Kept.of_snd (by assumption) ?_ | with_reducible refine Kept.of_snd2 (by assumption) ?_ | with_reducible refine Kept.of_snd3 (by assumption) ?_ | with_reducible refine Kept.of_fst (by assumption) ?_ | with_reducible refine Kept.of_fst2 (by assumption) ?_ | exact id | exact fun _ => rfl | (intro hw; first | exact Sparse.wf_set _ _ _ hw | exact Sparse.wf_restrict _ _ hw | exact Sparse.wf_filter _ _ hw))
      | split
      | (apply Kept.ite)
      | (dsimp only))

theorem State.kvRowGather_kept {s₀ : State} (s : State) (n : Nat) (bs : List Byte) (h : Kept s₀ s) :
    Kept s₀ (State.kvRowGather s n bs).2 := by
  unfold State.kvRowGather
  repeat' (first
    | with_reducible assumption
    | (with_reducible apply State.ringPut_kept)
    | (with_reducible apply State.rowGatherRows_kept)
    | (with_reducible apply State.txRead_kept)
    | (with_reducible apply Kept.ite)
    | (intro _)
    | (with_reducible refine Kept.of_snd (by assumption) ?_)
    | (with_reducible refine Kept.of_snd2 (by assumption) ?_)
    | (with_reducible refine Kept.of_snd3 (by assumption) ?_)
    | (with_reducible refine Kept.of_fst (by assumption) ?_)
    | (with_reducible refine Kept.of_fst2 (by assumption) ?_)
    | (simp only [Kept.update_iff])
    | (simp only [Kept.tables_iff]; apply KeptTables.intro <;> first | with_reducible assumption | with_reducible refine Kept.of_snd (by assumption) ?_ | with_reducible refine Kept.of_snd2 (by assumption) ?_ | with_reducible refine Kept.of_snd3 (by assumption) ?_ | with_reducible refine Kept.of_fst (by assumption) ?_ | with_reducible refine Kept.of_fst2 (by assumption) ?_ | exact id | exact fun _ => rfl | (intro hw; first | exact Sparse.wf_set _ _ _ hw | exact Sparse.wf_restrict _ _ hw | exact Sparse.wf_filter _ _ hw))
    | split)

theorem State.ringRead_kept {s₀ : State} (s : State) (n slot : Nat) (h : Kept s₀ s) :
    Kept s₀ (State.ringRead s n slot) := by
  unfold State.ringRead
  repeat' (first
    | with_reducible assumption
    | (with_reducible apply State.setWalker_kept))

theorem State.kvPlaceWrite_kept {s₀ : State} (s : State) (k : Nat) (t : Itag) (v : Word) (h : Kept s₀ s) :
    Kept s₀ (State.kvPlaceWrite s k t v) := by
  unfold State.kvPlaceWrite
  repeat' (first
    | with_reducible assumption
    | (with_reducible apply State.cfgErr_kept)
    | (with_reducible apply State.setFld_kept)
    | (with_reducible apply State.writeGeneric_kept)
    | (with_reducible apply Kept.ite)
    | (intro _))

theorem effFinv_kept {s₀ : State} (n : Nat) (v : Word) (s : State) (h : Kept s₀ s) :
    Kept s₀ (effFinv n v s) := by
  unfold effFinv
  repeat' (first
    | with_reducible assumption
    | (with_reducible apply State.setFlag_kept)
    | (with_reducible apply State.setFld_kept)
    | (with_reducible apply State.setWalker_kept)
    | (with_reducible apply Kept.ite)
    | (intro _))

theorem effFinvDone_kept {s₀ : State} (n : Nat) (s : State) (h : Kept s₀ s) :
    Kept s₀ (effFinvDone n s) := by
  unfold effFinvDone
  repeat' (first
    | with_reducible assumption
    | (with_reducible apply State.setFlag_kept)
    | (with_reducible apply State.setWalker_kept)
    | (with_reducible apply Kept.ite)
    | (intro _)
    | (with_reducible refine Kept.of_snd (by assumption) ?_)
    | (with_reducible refine Kept.of_snd2 (by assumption) ?_)
    | (with_reducible refine Kept.of_snd3 (by assumption) ?_)
    | (with_reducible refine Kept.of_fst (by assumption) ?_)
    | (with_reducible refine Kept.of_fst2 (by assumption) ?_)
    | (simp only [Kept.update_iff])
    | (simp only [Kept.tables_iff]; apply KeptTables.intro <;> first | with_reducible assumption | with_reducible refine Kept.of_snd (by assumption) ?_ | with_reducible refine Kept.of_snd2 (by assumption) ?_ | with_reducible refine Kept.of_snd3 (by assumption) ?_ | with_reducible refine Kept.of_fst (by assumption) ?_ | with_reducible refine Kept.of_fst2 (by assumption) ?_ | exact id | exact fun _ => rfl | (intro hw; first | exact Sparse.wf_set _ _ _ hw | exact Sparse.wf_restrict _ _ hw | exact Sparse.wf_filter _ _ hw))
    | split)

theorem State.finderDrop_kept {s₀ : State} (s : State) (n q : Nat) (h : Kept s₀ s) :
    Kept s₀ (State.finderDrop s n q) := by
  unfold State.finderDrop
  repeat' (first
    | with_reducible assumption
    | (with_reducible apply State.setWalker_kept))

theorem State.kvFlushPage_kept {s₀ : State} (s : State) (n : Nat) (x : Nat × Nat × Nat × Nat) (h : Kept s₀ s) :
    Kept s₀ (State.kvFlushPage s n x) := by
  unfold State.kvFlushPage
  repeat' (first
    | with_reducible assumption
    | (with_reducible apply State.count_kept)
    | (with_reducible apply State.kvWalk_kept)
    | (with_reducible apply State.noteStaged_kept)
    | (with_reducible apply State.pageRead_kept)
    | (with_reducible apply State.pageWrite_kept)
    | (with_reducible apply State.setPte_kept)
    | (with_reducible apply thenTx_kept)
    | (with_reducible apply Kept.ite)
    | (intro _)
    | (with_reducible apply Kept.foldl)
    | (with_reducible apply Kept.foldl_snd)
    | (with_reducible apply Kept.foldl_fst)
    | (with_reducible refine Kept.of_snd (by assumption) ?_)
    | (with_reducible refine Kept.of_snd2 (by assumption) ?_)
    | (with_reducible refine Kept.of_snd3 (by assumption) ?_)
    | (with_reducible refine Kept.of_fst (by assumption) ?_)
    | (with_reducible refine Kept.of_fst2 (by assumption) ?_)
    | (simp only [Kept.update_iff])
    | (simp only [Kept.tables_iff]; apply KeptTables.intro <;> first | with_reducible assumption | with_reducible refine Kept.of_snd (by assumption) ?_ | with_reducible refine Kept.of_snd2 (by assumption) ?_ | with_reducible refine Kept.of_snd3 (by assumption) ?_ | with_reducible refine Kept.of_fst (by assumption) ?_ | with_reducible refine Kept.of_fst2 (by assumption) ?_ | exact id | exact fun _ => rfl | (intro hw; first | exact Sparse.wf_set _ _ _ hw | exact Sparse.wf_restrict _ _ hw | exact Sparse.wf_filter _ _ hw))
    | split)

theorem effKvFlush_kept {s₀ : State} (s : State) (h : Kept s₀ s) :
    Kept s₀ (effKvFlush s) := by
  unfold effKvFlush
  repeat' (first
    | with_reducible assumption
    | (with_reducible apply State.kvFlushPage_kept)
    | (with_reducible apply State.showKvMode_kept)
    | (with_reducible apply Kept.ite)
    | (intro _)
    | (with_reducible apply Kept.foldl))

end Sys2Proof.Machine
end

