-- ==== Sys2Proof/Laws/KeptSpare.lean ====
section
/-! SUPPORT. What the operations of Machine/Spare.lean keep: the queue of commands, the timebase count and the canonical form of
every table. -/

set_option Elab.async false

set_option linter.tactic.unusedName false

namespace Sys2Proof.Machine

theorem SpareSet.setAvail_kept {s₀ : State} (S : SpareSet) (s : State) (l : Nat) (b : Bool) (h : Kept s₀ s) :
    Kept s₀ (SpareSet.setAvail S s l b) := by
  unfold SpareSet.setAvail
  repeat' (first
    | with_reducible assumption
    | (with_reducible apply State.setFlag_kept)
    | (with_reducible apply Kept.ite)
    | (intro _)
    | (with_reducible refine Kept.of_snd (by assumption) ?_)
    | (with_reducible refine Kept.of_snd2 (by assumption) ?_)
    | (with_reducible refine Kept.of_snd3 (by assumption) ?_)
    | (with_reducible refine Kept.of_fst (by assumption) ?_)
    | (with_reducible refine Kept.of_fst2 (by assumption) ?_)
    | (simp only [Kept.update_iff])
    | (simp only [Kept.tables_iff]; apply KeptTables.intro <;> first | with_reducible assumption | with_reducible refine Kept.of_snd (by assumption) ?_ | with_reducible refine Kept.of_snd2 (by assumption) ?_ | with_reducible refine Kept.of_snd3 (by assumption) ?_ | with_reducible refine Kept.of_fst (by assumption) ?_ | with_reducible refine Kept.of_fst2 (by assumption) ?_ | exact id | exact fun _ => rfl | (intro hw; first | exact Sparse.wf_set _ _ _ hw | exact Sparse.wf_restrict _ _ hw | exact Sparse.wf_filter _ _ hw))
    | split)

theorem State.showSpares_kept {s₀ : State} (s : State) (region : Nat) (h : Kept s₀ s) :
    Kept s₀ (State.showSpares s region) := by
  unfold State.showSpares
  repeat' (first
    | with_reducible assumption
    | (with_reducible apply State.setFlag_kept)
    | (with_reducible apply State.setFld_kept))

theorem SpareSet.setSt_kept {s₀ : State} (S : SpareSet) (s : State) (p v : Nat) (h : Kept s₀ s) :
    Kept s₀ (SpareSet.setSt S s p v) := by
  unfold SpareSet.setSt
  repeat' (first
    | with_reducible assumption
    | (with_reducible apply State.setFld_kept)
    | (with_reducible apply State.showSpares_kept)
    | (with_reducible apply Kept.ite)
    | (intro _)
    | (with_reducible refine Kept.of_snd (by assumption) ?_)
    | (with_reducible refine Kept.of_snd2 (by assumption) ?_)
    | (with_reducible refine Kept.of_snd3 (by assumption) ?_)
    | (with_reducible refine Kept.of_fst (by assumption) ?_)
    | (with_reducible refine Kept.of_fst2 (by assumption) ?_)
    | (simp only [Kept.update_iff])
    | (simp only [Kept.tables_iff]; apply KeptTables.intro <;> first | with_reducible assumption | with_reducible refine Kept.of_snd (by assumption) ?_ | with_reducible refine Kept.of_snd2 (by assumption) ?_ | with_reducible refine Kept.of_snd3 (by assumption) ?_ | with_reducible refine Kept.of_fst (by assumption) ?_ | with_reducible refine Kept.of_fst2 (by assumption) ?_ | exact id | exact fun _ => rfl | (intro hw; first | exact Sparse.wf_set _ _ _ hw | exact Sparse.wf_restrict _ _ hw | exact Sparse.wf_filter _ _ hw))
    | split)

theorem SpareSet.bindTo_kept {s₀ : State} (S : SpareSet) (s : State) (l p : Nat) (h : Kept s₀ s) :
    Kept s₀ (SpareSet.bindTo S s l p) := by
  unfold SpareSet.bindTo
  repeat' (first
    | with_reducible assumption
    | (with_reducible apply SpareSet.setSt_kept)
    | (with_reducible apply State.setFlag_kept)
    | (with_reducible apply State.setFld_kept)
    | (with_reducible apply Kept.ite)
    | (intro _)
    | (with_reducible refine Kept.of_snd (by assumption) ?_)
    | (with_reducible refine Kept.of_snd2 (by assumption) ?_)
    | (with_reducible refine Kept.of_snd3 (by assumption) ?_)
    | (with_reducible refine Kept.of_fst (by assumption) ?_)
    | (with_reducible refine Kept.of_fst2 (by assumption) ?_)
    | (simp only [Kept.update_iff])
    | (simp only [Kept.tables_iff]; apply KeptTables.intro <;> first | with_reducible assumption | with_reducible refine Kept.of_snd (by assumption) ?_ | with_reducible refine Kept.of_snd2 (by assumption) ?_ | with_reducible refine Kept.of_snd3 (by assumption) ?_ | with_reducible refine Kept.of_fst (by assumption) ?_ | with_reducible refine Kept.of_fst2 (by assumption) ?_ | exact id | exact fun _ => rfl | (intro hw; first | exact Sparse.wf_set _ _ _ hw | exact Sparse.wf_restrict _ _ hw | exact Sparse.wf_filter _ _ hw))
    | split)

theorem SpareSet.setAux_kept {s₀ : State} (S : SpareSet) (s : State) (x : SpareSt) (h : Kept s₀ s) :
    Kept s₀ (SpareSet.setAux S s x) := by
  unfold SpareSet.setAux
  repeat' (first
    | with_reducible assumption
    | (with_reducible apply Kept.ite)
    | (intro _)
    | (with_reducible refine Kept.of_snd (by assumption) ?_)
    | (with_reducible refine Kept.of_snd2 (by assumption) ?_)
    | (with_reducible refine Kept.of_snd3 (by assumption) ?_)
    | (with_reducible refine Kept.of_fst (by assumption) ?_)
    | (with_reducible refine Kept.of_fst2 (by assumption) ?_)
    | (simp only [Kept.update_iff])
    | (simp only [Kept.tables_iff]; apply KeptTables.intro <;> first | with_reducible assumption | with_reducible refine Kept.of_snd (by assumption) ?_ | with_reducible refine Kept.of_snd2 (by assumption) ?_ | with_reducible refine Kept.of_snd3 (by assumption) ?_ | with_reducible refine Kept.of_fst (by assumption) ?_ | with_reducible refine Kept.of_fst2 (by assumption) ?_ | exact id | exact fun _ => rfl | (intro hw; first | exact Sparse.wf_set _ _ _ hw | exact Sparse.wf_restrict _ _ hw | exact Sparse.wf_filter _ _ hw)))

theorem State.countOpt_kept {s₀ : State} (s : State) (r : Nat) (k : Option Nat) (h : Kept s₀ s) :
    Kept s₀ (State.countOpt s r k) := by
  cases k with
  | none => exact h
  | some k => exact State.count_kept _ _ _ _ h

theorem SpareSet.showTest_kept {s₀ : State} (S : SpareSet) (s : State) (h : Kept s₀ s) :
    Kept s₀ (SpareSet.showTest S s) := by
  unfold SpareSet.showTest
  repeat' (first
    | with_reducible assumption
    | (with_reducible apply State.setFld_kept)
    | (with_reducible apply Kept.ite)
    | (intro _))

theorem SpareSet.abort_kept {s₀ : State} (S : SpareSet) (s : State) (h : Kept s₀ s) :
    Kept s₀ (SpareSet.abort S s) := by
  unfold SpareSet.abort
  repeat' (first
    | with_reducible assumption
    | (with_reducible apply SpareSet.setAux_kept)
    | (with_reducible apply SpareSet.showTest_kept)
    | (with_reducible apply State.countOpt_kept)
    | (with_reducible apply State.setAux_kept)
    | (with_reducible apply Kept.ite)
    | (intro _)
    | (with_reducible refine Kept.of_snd (by assumption) ?_)
    | (with_reducible refine Kept.of_snd2 (by assumption) ?_)
    | (with_reducible refine Kept.of_snd3 (by assumption) ?_)
    | (with_reducible refine Kept.of_fst (by assumption) ?_)
    | (with_reducible refine Kept.of_fst2 (by assumption) ?_)
    | (simp only [Kept.update_iff])
    | (simp only [Kept.tables_iff]; apply KeptTables.intro <;> first | with_reducible assumption | with_reducible refine Kept.of_snd (by assumption) ?_ | with_reducible refine Kept.of_snd2 (by assumption) ?_ | with_reducible refine Kept.of_snd3 (by assumption) ?_ | with_reducible refine Kept.of_fst (by assumption) ?_ | with_reducible refine Kept.of_fst2 (by assumption) ?_ | exact id | exact fun _ => rfl | (intro hw; first | exact Sparse.wf_set _ _ _ hw | exact Sparse.wf_restrict _ _ hw | exact Sparse.wf_filter _ _ hw))
    | split)

theorem SpareSet.fault_kept {s₀ : State} (S : SpareSet) (s : State) (l : Nat) (h : Kept s₀ s) :
    Kept s₀ (SpareSet.fault S s l).2 := by
  unfold SpareSet.fault
  repeat' (first
    | with_reducible assumption
    | (with_reducible apply SpareSet.bindTo_kept)
    | (with_reducible apply SpareSet.setAux_kept)
    | (with_reducible apply SpareSet.setAvail_kept)
    | (with_reducible apply SpareSet.setSt_kept)
    | (with_reducible apply SpareSet.showTest_kept)
    | (with_reducible apply State.countOpt_kept)
    | (with_reducible apply State.postCause_kept)
    | (with_reducible apply State.raise_kept)
    | (with_reducible apply State.setAux_kept)
    | (with_reducible apply State.setFlag_kept)
    | (with_reducible apply Kept.ite)
    | (intro _)
    | (with_reducible refine Kept.of_snd (by assumption) ?_)
    | (with_reducible refine Kept.of_snd2 (by assumption) ?_)
    | (with_reducible refine Kept.of_snd3 (by assumption) ?_)
    | (with_reducible refine Kept.of_fst (by assumption) ?_)
    | (with_reducible refine Kept.of_fst2 (by assumption) ?_)
    | (simp only [Kept.update_iff])
    | (simp only [Kept.tables_iff]; apply KeptTables.intro <;> first | with_reducible assumption | with_reducible refine Kept.of_snd (by assumption) ?_ | with_reducible refine Kept.of_snd2 (by assumption) ?_ | with_reducible refine Kept.of_snd3 (by assumption) ?_ | with_reducible refine Kept.of_fst (by assumption) ?_ | with_reducible refine Kept.of_fst2 (by assumption) ?_ | exact id | exact fun _ => rfl | (intro hw; first | exact Sparse.wf_set _ _ _ hw | exact Sparse.wf_restrict _ _ hw | exact Sparse.wf_filter _ _ hw))
    | split)

theorem SpareSet.move_kept {s₀ : State} (S : SpareSet) (s : State) (l v : Nat) (h : Kept s₀ s) :
    KeptOpt s₀ (SpareSet.move S s l v) := by
  unfold SpareSet.move
  repeat' (first
    | with_reducible assumption
    | (with_reducible apply SpareSet.bindTo_kept)
    | (with_reducible apply SpareSet.setSt_kept)
    | (with_reducible apply State.countOpt_kept)
    | (with_reducible apply Kept.ite)
    | (intro _)
    | (with_reducible refine Kept.of_snd (by assumption) ?_)
    | (with_reducible refine Kept.of_snd2 (by assumption) ?_)
    | (with_reducible refine Kept.of_snd3 (by assumption) ?_)
    | (with_reducible refine Kept.of_fst (by assumption) ?_)
    | (with_reducible refine Kept.of_fst2 (by assumption) ?_)
    | (with_reducible refine KeptOpt.elim (by assumption) ?_)
    | (with_reducible refine KeptOpt₂.elim (by assumption) ?_)
    | (with_reducible refine KeptOpt₂.elim' (by assumption) ?_)
    | (with_reducible apply KeptOpt.getD)
    | (with_reducible apply KeptOpt.findSome)
    | (with_reducible apply KeptOpt₂.findSome)
    | (with_reducible exact KeptOpt.none)
    | (with_reducible exact KeptOpt₂.none)
    | (with_reducible apply KeptOpt.some)
    | (with_reducible apply KeptOpt.andThen)
    | (with_reducible apply KeptOpt.bind)
    | (with_reducible apply KeptOpt₂.some)
    | (simp only [Kept.update_iff])
    | (simp only [Kept.tables_iff]; apply KeptTables.intro <;> first | with_reducible assumption | with_reducible refine Kept.of_snd (by assumption) ?_ | with_reducible refine Kept.of_snd2 (by assumption) ?_ | with_reducible refine Kept.of_snd3 (by assumption) ?_ | with_reducible refine Kept.of_fst (by assumption) ?_ | with_reducible refine Kept.of_fst2 (by assumption) ?_ | with_reducible refine KeptOpt.elim (by assumption) ?_ | with_reducible refine KeptOpt₂.elim (by assumption) ?_ | with_reducible refine KeptOpt₂.elim' (by assumption) ?_ | with_reducible apply KeptOpt.getD | with_reducible apply KeptOpt.findSome | with_reducible apply KeptOpt₂.findSome | with_reducible exact KeptOpt.none | with_reducible exact KeptOpt₂.none | with_reducible apply KeptOpt.some | with_reducible apply KeptOpt.andThen | with_reducible apply KeptOpt.bind | with_reducible apply KeptOpt₂.some | exact id | exact fun _ => rfl | (intro hw; first | exact Sparse.wf_set _ _ _ hw | exact Sparse.wf_restrict _ _ hw | exact Sparse.wf_filter _ _ hw))
    | split)

theorem SpareSet.startSlice_kept {s₀ : State} (S : SpareSet) (s : State) (p : Nat) (h : Kept s₀ s) :
    Kept s₀ (SpareSet.startSlice S s p) := by
  unfold SpareSet.startSlice
  repeat' (first
    | with_reducible assumption
    | (with_reducible apply SpareSet.setAux_kept)
    | (with_reducible apply SpareSet.showTest_kept))

theorem SpareSet.advanceRot_kept {s₀ : State} (S : SpareSet) (s : State) (l : Nat) (h : Kept s₀ s) :
    Kept s₀ (SpareSet.advanceRot S s l) := by
  unfold SpareSet.advanceRot
  repeat' (first
    | with_reducible assumption
    | (with_reducible apply State.setFld_kept)
    | (with_reducible apply Kept.ite)
    | (intro _))

theorem SpareSet.result_kept {s₀ : State} (S : SpareSet) (s : State) (v : Nat) (h : Kept s₀ s) :
    Kept s₀ (SpareSet.result S s v) := by
  unfold SpareSet.result
  repeat' (first
    | with_reducible assumption
    | (with_reducible apply State.setFld_kept)
    | (with_reducible apply Kept.ite)
    | (intro _))

theorem SpareSet.takeSuspects_kept {s₀ : State} (S : SpareSet) (s : State) (free : Nat → Bool) (h : Kept s₀ s) :
    Kept s₀ (SpareSet.takeSuspects S s free) := by
  unfold SpareSet.takeSuspects
  repeat' (first
    | with_reducible assumption
    | (with_reducible apply SpareSet.fault_kept)
    | (with_reducible apply SpareSet.setAux_kept)
    | (with_reducible apply State.setAux_kept)
    | (with_reducible apply Kept.ite)
    | (intro _)
    | (with_reducible apply Kept.foldl)
    | (with_reducible apply Kept.foldl_snd)
    | (with_reducible apply Kept.foldl_fst)
    | (with_reducible refine Kept.of_snd (by assumption) ?_)
    | (with_reducible refine Kept.of_snd2 (by assumption) ?_)
    | (with_reducible refine Kept.of_snd3 (by assumption) ?_)
    | (with_reducible refine Kept.of_fst (by assumption) ?_)
    | (with_reducible refine Kept.of_fst2 (by assumption) ?_)
    | (simp only [Kept.update_iff])
    | (simp only [Kept.tables_iff]; apply KeptTables.intro <;> first | with_reducible assumption | with_reducible refine Kept.of_snd (by assumption) ?_ | with_reducible refine Kept.of_snd2 (by assumption) ?_ | with_reducible refine Kept.of_snd3 (by assumption) ?_ | with_reducible refine Kept.of_fst (by assumption) ?_ | with_reducible refine Kept.of_fst2 (by assumption) ?_ | exact id | exact fun _ => rfl | (intro hw; first | exact Sparse.wf_set _ _ _ hw | exact Sparse.wf_restrict _ _ hw | exact Sparse.wf_filter _ _ hw))
    | split)

theorem SpareSet.boundary_kept {s₀ : State} (S : SpareSet) (s : State) (free : Nat → Bool) (h : Kept s₀ s) :
    Kept s₀ (SpareSet.boundary S s free) := by
  unfold SpareSet.boundary
  repeat' (first
    | with_reducible assumption
    | (with_reducible apply SpareSet.advanceRot_kept)
    | (with_reducible apply SpareSet.move_kept)
    | (with_reducible apply SpareSet.result_kept)
    | (with_reducible apply SpareSet.setAux_kept)
    | (with_reducible apply SpareSet.setSt_kept)
    | (with_reducible apply SpareSet.startSlice_kept)
    | (with_reducible apply SpareSet.takeSuspects_kept)
    | (with_reducible apply State.setAux_kept)
    | (with_reducible apply State.setFlag_kept)
    | (with_reducible apply Kept.ite)
    | (intro _)
    | (with_reducible refine Kept.of_snd (by assumption) ?_)
    | (with_reducible refine Kept.of_snd2 (by assumption) ?_)
    | (with_reducible refine Kept.of_snd3 (by assumption) ?_)
    | (with_reducible refine Kept.of_fst (by assumption) ?_)
    | (with_reducible refine Kept.of_fst2 (by assumption) ?_)
    | (with_reducible refine KeptOpt.elim (by assumption) ?_)
    | (with_reducible refine KeptOpt₂.elim (by assumption) ?_)
    | (with_reducible refine KeptOpt₂.elim' (by assumption) ?_)
    | (with_reducible apply KeptOpt.getD)
    | (with_reducible apply KeptOpt.findSome)
    | (with_reducible apply KeptOpt₂.findSome)
    | (simp only [Kept.update_iff])
    | (simp only [Kept.tables_iff]; apply KeptTables.intro <;> first | with_reducible assumption | with_reducible refine Kept.of_snd (by assumption) ?_ | with_reducible refine Kept.of_snd2 (by assumption) ?_ | with_reducible refine Kept.of_snd3 (by assumption) ?_ | with_reducible refine Kept.of_fst (by assumption) ?_ | with_reducible refine Kept.of_fst2 (by assumption) ?_ | with_reducible refine KeptOpt.elim (by assumption) ?_ | with_reducible refine KeptOpt₂.elim (by assumption) ?_ | with_reducible refine KeptOpt₂.elim' (by assumption) ?_ | with_reducible apply KeptOpt.getD | with_reducible apply KeptOpt.findSome | with_reducible apply KeptOpt₂.findSome | exact id | exact fun _ => rfl | (intro hw; first | exact Sparse.wf_set _ _ _ hw | exact Sparse.wf_restrict _ _ hw | exact Sparse.wf_filter _ _ hw))
    | split)

theorem SpareSet.sliceEnd_kept {s₀ : State} (S : SpareSet) (s : State) (pass : Bool) (h : Kept s₀ s) :
    Kept s₀ (SpareSet.sliceEnd S s pass) := by
  unfold SpareSet.sliceEnd
  repeat' (first
    | with_reducible assumption
    | (with_reducible apply SpareSet.result_kept)
    | (with_reducible apply SpareSet.setAux_kept)
    | (with_reducible apply SpareSet.setSt_kept)
    | (with_reducible apply SpareSet.showTest_kept)
    | (with_reducible apply State.countOpt_kept)
    | (with_reducible apply State.raise_kept)
    | (with_reducible apply State.setAux_kept)
    | (with_reducible apply State.setFlag_kept)
    | (with_reducible apply Kept.ite)
    | (intro _)
    | (with_reducible refine Kept.of_snd (by assumption) ?_)
    | (with_reducible refine Kept.of_snd2 (by assumption) ?_)
    | (with_reducible refine Kept.of_snd3 (by assumption) ?_)
    | (with_reducible refine Kept.of_fst (by assumption) ?_)
    | (with_reducible refine Kept.of_fst2 (by assumption) ?_)
    | (simp only [Kept.update_iff])
    | (simp only [Kept.tables_iff]; apply KeptTables.intro <;> first | with_reducible assumption | with_reducible refine Kept.of_snd (by assumption) ?_ | with_reducible refine Kept.of_snd2 (by assumption) ?_ | with_reducible refine Kept.of_snd3 (by assumption) ?_ | with_reducible refine Kept.of_fst (by assumption) ?_ | with_reducible refine Kept.of_fst2 (by assumption) ?_ | exact id | exact fun _ => rfl | (intro hw; first | exact Sparse.wf_set _ _ _ hw | exact Sparse.wf_restrict _ _ hw | exact Sparse.wf_filter _ _ hw))
    | split)

theorem SpareSet.subcmd_kept {s₀ : State} (S : SpareSet) (s : State) (v : Word) (h : Kept s₀ s) :
    Kept s₀ (SpareSet.subcmd S s v) := by
  unfold SpareSet.subcmd
  repeat' (first
    | with_reducible assumption
    | (with_reducible apply SpareSet.result_kept)
    | (with_reducible apply SpareSet.setAux_kept)
    | (with_reducible apply State.setAux_kept)
    | (with_reducible apply State.setFld_kept)
    | (with_reducible apply Kept.ite)
    | (intro _)
    | (with_reducible refine Kept.of_snd (by assumption) ?_)
    | (with_reducible refine Kept.of_snd2 (by assumption) ?_)
    | (with_reducible refine Kept.of_snd3 (by assumption) ?_)
    | (with_reducible refine Kept.of_fst (by assumption) ?_)
    | (with_reducible refine Kept.of_fst2 (by assumption) ?_)
    | (simp only [Kept.update_iff])
    | (simp only [Kept.tables_iff]; apply KeptTables.intro <;> first | with_reducible assumption | with_reducible refine Kept.of_snd (by assumption) ?_ | with_reducible refine Kept.of_snd2 (by assumption) ?_ | with_reducible refine Kept.of_snd3 (by assumption) ?_ | with_reducible refine Kept.of_fst (by assumption) ?_ | with_reducible refine Kept.of_fst2 (by assumption) ?_ | exact id | exact fun _ => rfl | (intro hw; first | exact Sparse.wf_set _ _ _ hw | exact Sparse.wf_restrict _ _ hw | exact Sparse.wf_filter _ _ hw))
    | split)

theorem SpareSet.requestRetire_kept {s₀ : State} (S : SpareSet) (s : State) (p : Nat) (h : Kept s₀ s) :
    Kept s₀ (SpareSet.requestRetire S s p) := by
  unfold SpareSet.requestRetire
  repeat' (first
    | with_reducible assumption
    | (with_reducible apply SpareSet.setAux_kept))

end Sys2Proof.Machine
end

