-- ==== Sys2Proof/Laws/KeptDome.lean ====
section
/-! SUPPORT. What the operations of Machine/Dome.lean keep: the queue of commands, the timebase count and the canonical form of
every table. -/

set_option Elab.async false

set_option linter.tactic.unusedName false

namespace Sys2Proof.Machine

theorem State.setDome_kept {s₀ : State} (s : State) (d : Nat) (x : Dome) (h : Kept s₀ s) :
    Kept s₀ (State.setDome s d x) := by
  unfold State.setDome
  repeat' (first
    | with_reducible assumption
    | (with_reducible apply Kept.ite)
    | (intro _)
    | (with_reducible refine Kept.of_snd (by assumption) ?_)
    | (with_reducible refine Kept.of_snd2 (by assumption) ?_)
    | (with_reducible refine Kept.of_snd3 (by assumption) ?_)
    | (with_reducible refine Kept.of_fst (by assumption) ?_)
    | (with_reducible refine Kept.of_fst2 (by assumption) ?_)
    | (simp only [Kept.update_iff])
    | (simp only [Kept.tables_iff]; apply KeptTables.intro <;> first | with_reducible assumption | with_reducible refine Kept.of_snd (by assumption) ?_ | with_reducible refine Kept.of_snd2 (by assumption) ?_ | with_reducible refine Kept.of_snd3 (by assumption) ?_ | with_reducible refine Kept.of_fst (by assumption) ?_ | with_reducible refine Kept.of_fst2 (by assumption) ?_ | exact id | exact fun _ => rfl | (intro hw; first | exact Sparse.wf_set _ _ _ hw | exact Sparse.wf_restrict _ _ hw | exact Sparse.wf_filter _ _ hw)))

theorem State.setRun_kept {s₀ : State} (s : State) (d : Nat) (r : Option DomeRun) (h : Kept s₀ s) :
    Kept s₀ (State.setRun s d r) := by
  unfold State.setRun
  repeat' (first
    | with_reducible assumption
    | (with_reducible apply State.setDome_kept))

theorem effDomeLoad_kept {s₀ : State} (d q : Nat) (s : State) (h : Kept s₀ s) :
    Kept s₀ (effDomeLoad d q s) := by
  unfold effDomeLoad
  repeat' (first
    | with_reducible assumption
    | (with_reducible apply State.conclude_kept)
    | (with_reducible apply State.flushItag_kept)
    | (with_reducible apply State.setDome_kept)
    | (with_reducible apply State.setFlag_kept)
    | (with_reducible apply State.start_kept)
    | (with_reducible apply State.txRead_kept)
    | (with_reducible apply State.wr_kept)
    | (with_reducible apply Kept.ite)
    | (intro _)
    | (with_reducible refine Kept.of_snd (by assumption) ?_)
    | (with_reducible refine Kept.of_snd2 (by assumption) ?_)
    | (with_reducible refine Kept.of_snd3 (by assumption) ?_)
    | (with_reducible refine Kept.of_fst (by assumption) ?_)
    | (with_reducible refine Kept.of_fst2 (by assumption) ?_)
    | (simp only [Kept.update_iff])
    | (simp only [Kept.tables_iff]; apply KeptTables.intro <;> first | with_reducible assumption | with_reducible refine Kept.of_snd (by assumption) ?_ | with_reducible refine Kept.of_snd2 (by assumption) ?_ | with_reducible refine Kept.of_snd3 (by assumption) ?_ | with_reducible refine Kept.of_fst (by assumption) ?_ | with_reducible refine Kept.of_fst2 (by assumption) ?_ | exact id | exact fun _ => rfl | (intro hw; first | exact Sparse.wf_set _ _ _ hw | exact Sparse.wf_restrict _ _ hw | exact Sparse.wf_filter _ _ hw))
    | split)

theorem State.showRun_kept {s₀ : State} (s : State) (d : Nat) (h : Kept s₀ s) :
    Kept s₀ (State.showRun s d) := by
  unfold State.showRun
  repeat' (first
    | with_reducible assumption
    | (with_reducible apply State.setFlag_kept)
    | (with_reducible apply State.setFld_kept)
    | (with_reducible apply State.wr_kept)
    | (with_reducible apply Kept.ite)
    | (intro _)
    | (with_reducible refine Kept.of_snd (by assumption) ?_)
    | (with_reducible refine Kept.of_snd2 (by assumption) ?_)
    | (with_reducible refine Kept.of_snd3 (by assumption) ?_)
    | (with_reducible refine Kept.of_fst (by assumption) ?_)
    | (with_reducible refine Kept.of_fst2 (by assumption) ?_)
    | (simp only [Kept.update_iff])
    | (simp only [Kept.tables_iff]; apply KeptTables.intro <;> first | with_reducible assumption | with_reducible refine Kept.of_snd (by assumption) ?_ | with_reducible refine Kept.of_snd2 (by assumption) ?_ | with_reducible refine Kept.of_snd3 (by assumption) ?_ | with_reducible refine Kept.of_fst (by assumption) ?_ | with_reducible refine Kept.of_fst2 (by assumption) ?_ | exact id | exact fun _ => rfl | (intro hw; first | exact Sparse.wf_set _ _ _ hw | exact Sparse.wf_restrict _ _ hw | exact Sparse.wf_filter _ _ hw))
    | split)

theorem State.dropDeadRun_kept {s₀ : State} (s : State) (d : Nat) (h : Kept s₀ s) :
    Kept s₀ (State.dropDeadRun s d) := by
  unfold State.dropDeadRun
  repeat' (first
    | with_reducible assumption
    | (with_reducible apply State.setRun_kept)
    | (with_reducible apply State.showRun_kept)
    | (with_reducible apply Kept.ite)
    | (intro _)
    | (with_reducible refine Kept.of_snd (by assumption) ?_)
    | (with_reducible refine Kept.of_snd2 (by assumption) ?_)
    | (with_reducible refine Kept.of_snd3 (by assumption) ?_)
    | (with_reducible refine Kept.of_fst (by assumption) ?_)
    | (with_reducible refine Kept.of_fst2 (by assumption) ?_)
    | (simp only [Kept.update_iff])
    | (simp only [Kept.tables_iff]; apply KeptTables.intro <;> first | with_reducible assumption | with_reducible refine Kept.of_snd (by assumption) ?_ | with_reducible refine Kept.of_snd2 (by assumption) ?_ | with_reducible refine Kept.of_snd3 (by assumption) ?_ | with_reducible refine Kept.of_fst (by assumption) ?_ | with_reducible refine Kept.of_fst2 (by assumption) ?_ | exact id | exact fun _ => rfl | (intro hw; first | exact Sparse.wf_set _ _ _ hw | exact Sparse.wf_restrict _ _ hw | exact Sparse.wf_filter _ _ hw))
    | split)

theorem effDomeRun_kept {s₀ : State} (d q : Nat) (s : State) (h : Kept s₀ s) :
    Kept s₀ (effDomeRun d q s) := by
  unfold effDomeRun
  repeat' (first
    | with_reducible assumption
    | (with_reducible apply State.conclude_kept)
    | (with_reducible apply State.countTcc_kept)
    | (with_reducible apply State.dropDeadRun_kept)
    | (with_reducible apply State.flushItag_kept)
    | (with_reducible apply State.injDone_kept)
    | (with_reducible apply State.setRun_kept)
    | (with_reducible apply State.showRun_kept)
    | (with_reducible apply State.start_kept)
    | (with_reducible apply State.txRead_kept)
    | (with_reducible apply State.wr_kept)
    | (with_reducible apply Kept.ite)
    | (intro _)
    | (with_reducible apply Kept.foldl)
    | (with_reducible apply Kept.foldl_snd)
    | (with_reducible apply Kept.foldl_fst)
    | (with_reducible refine Kept.of_snd (by assumption) ?_)
    | (with_reducible refine Kept.of_snd2 (by assumption) ?_)
    | (with_reducible refine Kept.of_snd3 (by assumption) ?_)
    | (with_reducible refine Kept.of_fst (by assumption) ?_)
    | (with_reducible refine Kept.of_fst2 (by assumption) ?_)
    | (simp only [Kept.update_iff])
    | (simp only [Kept.tables_iff]; apply KeptTables.intro <;> first | with_reducible assumption | with_reducible refine Kept.of_snd (by assumption) ?_ | with_reducible refine Kept.of_snd2 (by assumption) ?_ | with_reducible refine Kept.of_snd3 (by assumption) ?_ | with_reducible refine Kept.of_fst (by assumption) ?_ | with_reducible refine Kept.of_fst2 (by assumption) ?_ | exact id | exact fun _ => rfl | (intro hw; first | exact Sparse.wf_set _ _ _ hw | exact Sparse.wf_restrict _ _ hw | exact Sparse.wf_filter _ _ hw))
    | split)

theorem State.endRun_kept {s₀ : State} (s : State) (d st : Nat) (h : Kept s₀ s) :
    Kept s₀ (State.endRun s d st) := by
  unfold State.endRun
  repeat' (first
    | with_reducible assumption
    | (with_reducible apply SpareSet.result_kept)
    | (with_reducible apply State.finish_kept)
    | (with_reducible apply State.flushItag_kept)
    | (with_reducible apply State.scramble_kept)
    | (with_reducible apply State.setRun_kept)
    | (with_reducible apply State.showQuiesced_kept)
    | (with_reducible apply State.showRun_kept)
    | (with_reducible apply State.wr_kept)
    | (with_reducible apply Kept.ite)
    | (intro _)
    | (with_reducible apply Kept.foldl)
    | (with_reducible apply Kept.foldl_snd)
    | (with_reducible apply Kept.foldl_fst)
    | (with_reducible refine Kept.of_snd (by assumption) ?_)
    | (with_reducible refine Kept.of_snd2 (by assumption) ?_)
    | (with_reducible refine Kept.of_snd3 (by assumption) ?_)
    | (with_reducible refine Kept.of_fst (by assumption) ?_)
    | (with_reducible refine Kept.of_fst2 (by assumption) ?_)
    | (simp only [Kept.update_iff])
    | (simp only [Kept.tables_iff]; apply KeptTables.intro <;> first | with_reducible assumption | with_reducible refine Kept.of_snd (by assumption) ?_ | with_reducible refine Kept.of_snd2 (by assumption) ?_ | with_reducible refine Kept.of_snd3 (by assumption) ?_ | with_reducible refine Kept.of_fst (by assumption) ?_ | with_reducible refine Kept.of_fst2 (by assumption) ?_ | exact id | exact fun _ => rfl | (intro hw; first | exact Sparse.wf_set _ _ _ hw | exact Sparse.wf_restrict _ _ hw | exact Sparse.wf_filter _ _ hw))
    | split)

theorem State.refuseAddr_kept {s₀ : State} (s : State) (d a : Nat) (h : Kept s₀ s) :
    Kept s₀ (State.refuseAddr s d a) := by
  unfold State.refuseAddr
  repeat' (first
    | with_reducible assumption
    | (with_reducible apply State.count_kept)
    | (with_reducible apply State.endRun_kept)
    | (with_reducible apply Kept.ite)
    | (intro _))

theorem State.emitTile_kept {s₀ : State} (s : State) (d st ctx : Nat) (t : Tile) (h : Kept s₀ s) :
    Kept s₀ (State.emitTile s d st ctx t).2 := by
  unfold State.emitTile
  repeat' (first
    | with_reducible assumption
    | (with_reducible apply State.setRun_kept)
    | (with_reducible apply State.txWrite_kept)
    | (with_reducible apply Kept.ite)
    | (intro _)
    | (with_reducible apply Kept.foldl)
    | (with_reducible apply Kept.foldl_snd)
    | (with_reducible apply Kept.foldl_fst)
    | (with_reducible refine Kept.of_snd (by assumption) ?_)
    | (with_reducible refine Kept.of_snd2 (by assumption) ?_)
    | (with_reducible refine Kept.of_snd3 (by assumption) ?_)
    | (with_reducible refine Kept.of_fst (by assumption) ?_)
    | (with_reducible refine Kept.of_fst2 (by assumption) ?_)
    | (simp only [Kept.update_iff])
    | (simp only [Kept.tables_iff]; apply KeptTables.intro <;> first | with_reducible assumption | with_reducible refine Kept.of_snd (by assumption) ?_ | with_reducible refine Kept.of_snd2 (by assumption) ?_ | with_reducible refine Kept.of_snd3 (by assumption) ?_ | with_reducible refine Kept.of_fst (by assumption) ?_ | with_reducible refine Kept.of_fst2 (by assumption) ?_ | exact id | exact fun _ => rfl | (intro hw; first | exact Sparse.wf_set _ _ _ hw | exact Sparse.wf_restrict _ _ hw | exact Sparse.wf_filter _ _ hw))
    | split)

theorem State.fireCtx_kept {s₀ : State} (s : State) (d st ctx : Nat) (drained : Bool) (h : Kept s₀ s) :
    KeptOpt₂ s₀ (State.fireCtx s d st ctx drained) := by
  unfold State.fireCtx
  repeat' (first
    | with_reducible assumption
    | (with_reducible apply State.emitTile_kept)
    | (with_reducible apply State.setRun_kept)
    | (with_reducible apply Kept.ite)
    | (intro _)
    | (with_reducible apply Kept.foldl)
    | (with_reducible apply Kept.foldl_snd)
    | (with_reducible apply Kept.foldl_fst)
    | (with_reducible refine Kept.of_snd (by assumption) ?_)
    | (with_reducible refine Kept.of_snd2 (by assumption) ?_)
    | (with_reducible refine Kept.of_snd3 (by assumption) ?_)
    | (with_reducible refine Kept.of_fst (by assumption) ?_)
    | (with_reducible refine Kept.of_fst2 (by assumption) ?_)
    | (with_reducible refine KeptOpt.elim (by assumption) ?_)
    | (with_reducible refine KeptOpt₂.elim (by assumption) ?_)
    | (with_reducible refine KeptOpt₂.elim' (by assumption) ?_)
    | (with_reducible apply KeptOpt.getD)
    | (with_reducible apply KeptOpt.findSome)
    | (with_reducible apply KeptOpt₂.findSome)
    | (with_reducible exact KeptOpt.none)
    | (with_reducible exact KeptOpt₂.none)
    | (with_reducible apply KeptOpt.some)
    | (with_reducible apply KeptOpt.andThen)
    | (with_reducible apply KeptOpt.bind)
    | (with_reducible apply KeptOpt₂.some)
    | (simp only [Kept.update_iff])
    | (simp only [Kept.tables_iff]; apply KeptTables.intro <;> first | with_reducible assumption | with_reducible refine Kept.of_snd (by assumption) ?_ | with_reducible refine Kept.of_snd2 (by assumption) ?_ | with_reducible refine Kept.of_snd3 (by assumption) ?_ | with_reducible refine Kept.of_fst (by assumption) ?_ | with_reducible refine Kept.of_fst2 (by assumption) ?_ | with_reducible refine KeptOpt.elim (by assumption) ?_ | with_reducible refine KeptOpt₂.elim (by assumption) ?_ | with_reducible refine KeptOpt₂.elim' (by assumption) ?_ | with_reducible apply KeptOpt.getD | with_reducible apply KeptOpt.findSome | with_reducible apply KeptOpt₂.findSome | with_reducible exact KeptOpt.none | with_reducible exact KeptOpt₂.none | with_reducible apply KeptOpt.some | with_reducible apply KeptOpt.andThen | with_reducible apply KeptOpt.bind | with_reducible apply KeptOpt₂.some | exact id | exact fun _ => rfl | (intro hw; first | exact Sparse.wf_set _ _ _ hw | exact Sparse.wf_restrict _ _ hw | exact Sparse.wf_filter _ _ hw))
    | split)

theorem State.fireGw_kept {s₀ : State} (s : State) (d : Nat) (h : Kept s₀ s) :
    KeptOpt₂ s₀ (State.fireGw s d) := by
  unfold State.fireGw
  repeat' (first
    | with_reducible assumption
    | (with_reducible apply State.addSat_kept)
    | (with_reducible apply State.kvAppend_kept)
    | (with_reducible apply State.kvGather_kept)
    | (with_reducible apply State.kvRowGather_kept)
    | (with_reducible apply State.setRun_kept)
    | (with_reducible apply State.setWalker_kept)
    | (with_reducible apply Kept.ite)
    | (intro _)
    | (with_reducible refine Kept.of_snd (by assumption) ?_)
    | (with_reducible refine Kept.of_snd2 (by assumption) ?_)
    | (with_reducible refine Kept.of_snd3 (by assumption) ?_)
    | (with_reducible refine Kept.of_fst (by assumption) ?_)
    | (with_reducible refine Kept.of_fst2 (by assumption) ?_)
    | (with_reducible refine KeptOpt.elim (by assumption) ?_)
    | (with_reducible refine KeptOpt₂.elim (by assumption) ?_)
    | (with_reducible refine KeptOpt₂.elim' (by assumption) ?_)
    | (with_reducible apply KeptOpt.getD)
    | (with_reducible apply KeptOpt.findSome)
    | (with_reducible apply KeptOpt₂.findSome)
    | (with_reducible exact KeptOpt.none)
    | (with_reducible exact KeptOpt₂.none)
    | (with_reducible apply KeptOpt.some)
    | (with_reducible apply KeptOpt.andThen)
    | (with_reducible apply KeptOpt.bind)
    | (with_reducible apply KeptOpt₂.some)
    | (simp only [Kept.update_iff])
    | (simp only [Kept.tables_iff]; apply KeptTables.intro <;> first | with_reducible assumption | with_reducible refine Kept.of_snd (by assumption) ?_ | with_reducible refine Kept.of_snd2 (by assumption) ?_ | with_reducible refine Kept.of_snd3 (by assumption) ?_ | with_reducible refine Kept.of_fst (by assumption) ?_ | with_reducible refine Kept.of_fst2 (by assumption) ?_ | with_reducible refine KeptOpt.elim (by assumption) ?_ | with_reducible refine KeptOpt₂.elim (by assumption) ?_ | with_reducible refine KeptOpt₂.elim' (by assumption) ?_ | with_reducible apply KeptOpt.getD | with_reducible apply KeptOpt.findSome | with_reducible apply KeptOpt₂.findSome | with_reducible exact KeptOpt.none | with_reducible exact KeptOpt₂.none | with_reducible apply KeptOpt.some | with_reducible apply KeptOpt.andThen | with_reducible apply KeptOpt.bind | with_reducible apply KeptOpt₂.some | exact id | exact fun _ => rfl | (intro hw; first | exact Sparse.wf_set _ _ _ hw | exact Sparse.wf_restrict _ _ hw | exact Sparse.wf_filter _ _ hw))
    | split)

theorem State.noteRingWait_kept {s₀ : State} (s : State) (d : Nat) (h : Kept s₀ s) :
    Kept s₀ (State.noteRingWait s d) := by
  unfold State.noteRingWait
  repeat' (first
    | with_reducible assumption
    | (with_reducible apply State.setWalker_kept)
    | (with_reducible apply Kept.ite)
    | (intro _)
    | (with_reducible refine Kept.of_snd (by assumption) ?_)
    | (with_reducible refine Kept.of_snd2 (by assumption) ?_)
    | (with_reducible refine Kept.of_snd3 (by assumption) ?_)
    | (with_reducible refine Kept.of_fst (by assumption) ?_)
    | (with_reducible refine Kept.of_fst2 (by assumption) ?_)
    | (simp only [Kept.update_iff])
    | (simp only [Kept.tables_iff]; apply KeptTables.intro <;> first | with_reducible assumption | with_reducible refine Kept.of_snd (by assumption) ?_ | with_reducible refine Kept.of_snd2 (by assumption) ?_ | with_reducible refine Kept.of_snd3 (by assumption) ?_ | with_reducible refine Kept.of_fst (by assumption) ?_ | with_reducible refine Kept.of_fst2 (by assumption) ?_ | exact id | exact fun _ => rfl | (intro hw; first | exact Sparse.wf_set _ _ _ hw | exact Sparse.wf_restrict _ _ hw | exact Sparse.wf_filter _ _ hw))
    | split)

theorem State.fireAny_kept {s₀ : State} (s : State) (d : Nat) (drained : Bool) (h : Kept s₀ s) :
    KeptOpt₂ s₀ (State.fireAny s d drained) := by
  unfold State.fireAny
  repeat' (first
    | with_reducible assumption
    | (with_reducible apply State.fireCtx_kept)
    | (with_reducible apply State.fireGw_kept)
    | (with_reducible apply Kept.ite)
    | (intro _)
    | (with_reducible refine Kept.of_snd (by assumption) ?_)
    | (with_reducible refine Kept.of_snd2 (by assumption) ?_)
    | (with_reducible refine Kept.of_snd3 (by assumption) ?_)
    | (with_reducible refine Kept.of_fst (by assumption) ?_)
    | (with_reducible refine Kept.of_fst2 (by assumption) ?_)
    | (with_reducible refine KeptOpt.elim (by assumption) ?_)
    | (with_reducible refine KeptOpt₂.elim (by assumption) ?_)
    | (with_reducible refine KeptOpt₂.elim' (by assumption) ?_)
    | (with_reducible apply KeptOpt.getD)
    | (with_reducible apply KeptOpt.findSome)
    | (with_reducible apply KeptOpt₂.findSome)
    | (with_reducible exact KeptOpt.none)
    | (with_reducible exact KeptOpt₂.none)
    | (with_reducible apply KeptOpt.some)
    | (with_reducible apply KeptOpt.andThen)
    | (with_reducible apply KeptOpt.bind)
    | (with_reducible apply KeptOpt₂.some)
    | (simp only [Kept.update_iff])
    | (simp only [Kept.tables_iff]; apply KeptTables.intro <;> first | with_reducible assumption | with_reducible refine Kept.of_snd (by assumption) ?_ | with_reducible refine Kept.of_snd2 (by assumption) ?_ | with_reducible refine Kept.of_snd3 (by assumption) ?_ | with_reducible refine Kept.of_fst (by assumption) ?_ | with_reducible refine Kept.of_fst2 (by assumption) ?_ | with_reducible refine KeptOpt.elim (by assumption) ?_ | with_reducible refine KeptOpt₂.elim (by assumption) ?_ | with_reducible refine KeptOpt₂.elim' (by assumption) ?_ | with_reducible apply KeptOpt.getD | with_reducible apply KeptOpt.findSome | with_reducible apply KeptOpt₂.findSome | with_reducible exact KeptOpt.none | with_reducible exact KeptOpt₂.none | with_reducible apply KeptOpt.some | with_reducible apply KeptOpt.andThen | with_reducible apply KeptOpt.bind | with_reducible apply KeptOpt₂.some | exact id | exact fun _ => rfl | (intro hw; first | exact Sparse.wf_set _ _ _ hw | exact Sparse.wf_restrict _ _ hw | exact Sparse.wf_filter _ _ hw))
    | split)

theorem State.fireNext_kept {s₀ : State} (s : State) (d : Nat) (drain : Bool) (h : Kept s₀ s) :
    KeptOpt₂ s₀ (State.fireNext s d drain) := by
  unfold State.fireNext
  repeat' (first
    | with_reducible assumption
    | (with_reducible apply State.fireAny_kept)
    | (with_reducible apply Kept.ite)
    | (intro _)
    | (with_reducible refine Kept.of_snd (by assumption) ?_)
    | (with_reducible refine Kept.of_snd2 (by assumption) ?_)
    | (with_reducible refine Kept.of_snd3 (by assumption) ?_)
    | (with_reducible refine Kept.of_fst (by assumption) ?_)
    | (with_reducible refine Kept.of_fst2 (by assumption) ?_)
    | (with_reducible refine KeptOpt.elim (by assumption) ?_)
    | (with_reducible refine KeptOpt₂.elim (by assumption) ?_)
    | (with_reducible refine KeptOpt₂.elim' (by assumption) ?_)
    | (with_reducible apply KeptOpt.getD)
    | (with_reducible apply KeptOpt.findSome)
    | (with_reducible apply KeptOpt₂.findSome)
    | (with_reducible exact KeptOpt.none)
    | (with_reducible exact KeptOpt₂.none)
    | (with_reducible apply KeptOpt.some)
    | (with_reducible apply KeptOpt.andThen)
    | (with_reducible apply KeptOpt.bind)
    | (with_reducible apply KeptOpt₂.some)
    | (simp only [Kept.update_iff])
    | (simp only [Kept.tables_iff]; apply KeptTables.intro <;> first | with_reducible assumption | with_reducible refine Kept.of_snd (by assumption) ?_ | with_reducible refine Kept.of_snd2 (by assumption) ?_ | with_reducible refine Kept.of_snd3 (by assumption) ?_ | with_reducible refine Kept.of_fst (by assumption) ?_ | with_reducible refine Kept.of_fst2 (by assumption) ?_ | with_reducible refine KeptOpt.elim (by assumption) ?_ | with_reducible refine KeptOpt₂.elim (by assumption) ?_ | with_reducible refine KeptOpt₂.elim' (by assumption) ?_ | with_reducible apply KeptOpt.getD | with_reducible apply KeptOpt.findSome | with_reducible apply KeptOpt₂.findSome | with_reducible exact KeptOpt.none | with_reducible exact KeptOpt₂.none | with_reducible apply KeptOpt.some | with_reducible apply KeptOpt.andThen | with_reducible apply KeptOpt.bind | with_reducible apply KeptOpt₂.some | exact id | exact fun _ => rfl | (intro hw; first | exact Sparse.wf_set _ _ _ hw | exact Sparse.wf_restrict _ _ hw | exact Sparse.wf_filter _ _ hw))
    | split)

theorem State.settle_kept {s₀ : State} (d fuel : Nat) (s : State) (h : Kept s₀ s) : Kept s₀ (State.settle d fuel s) := by
  induction fuel generalizing s with
  | zero => exact h
  | succ fuel ih =>
    simp only [State.settle]
    repeat' (first
      | with_reducible assumption
      | (with_reducible apply ih)
      | ((fail_if_no_progress extract_lets +onlyGivenNames x); refine (?_ : Kept s₀ x → _) ?_; (on_goal 2 => subst x); (try clear_value x); intro hx)
      | ((fail_if_no_progress extract_lets +onlyGivenNames x); refine (?_ : Kept s₀ x.2 → _) ?_; (on_goal 2 => subst x); (try clear_value x); intro hx)
      | ((fail_if_no_progress extract_lets +onlyGivenNames x); (try clear_value x))
      | (with_reducible apply State.conclude_kept)
      | (with_reducible apply State.endRun_kept)
      | (with_reducible apply State.fireNext_kept)
      | (with_reducible apply State.noteRingWait_kept)
      | (with_reducible apply State.setRun_kept)
      | (with_reducible apply Kept.ite)
      | (intro _)
      | (with_reducible refine Kept.of_snd (by assumption) ?_)
      | (with_reducible refine Kept.of_snd2 (by assumption) ?_)
      | (with_reducible refine Kept.of_snd3 (by assumption) ?_)
      | (with_reducible refine Kept.of_fst (by assumption) ?_)
      | (with_reducible refine Kept.of_fst2 (by assumption) ?_)
      | (with_reducible refine KeptOpt.elim (by assumption) ?_)
      | (with_reducible refine KeptOpt₂.elim (by assumption) ?_)
      | (with_reducible refine KeptOpt₂.elim' (by assumption) ?_)
      | (with_reducible apply KeptOpt.getD)
      | (with_reducible apply KeptOpt.findSome)
      | (with_reducible apply KeptOpt₂.findSome)
      | (simp only [Kept.update_iff])
      | (simp only [Kept.tables_iff]; apply KeptTables.intro <;> first | with_reducible assumption | with_reducible refine Kept.of_snd (by assumption) ?_ | with_reducible refine Kept.of_snd2 (by assumption) ?_ | with_reducible refine Kept.of_snd3 (by assumption) ?_ | with_reducible refine Kept.of_fst (by assumption) ?_ | with_reducible refine Kept.of_fst2 (by assumption) ?_ | with_reducible refine KeptOpt.elim (by assumption) ?_ | with_reducible refine KeptOpt₂.elim (by assumption) ?_ | with_reducible refine KeptOpt₂.elim' (by assumption) ?_ | with_reducible apply KeptOpt.getD | with_reducible apply KeptOpt.findSome | with_reducible apply KeptOpt₂.findSome | exact id | exact fun _ => rfl | (intro hw; first | exact Sparse.wf_set _ _ _ hw | exact Sparse.wf_restrict _ _ hw | exact Sparse.wf_filter _ _ hw))
      | split
      | (apply Kept.ite)
      | (dsimp only))

theorem State.runOn_kept {s₀ : State} (s : State) (d : Nat) (h : Kept s₀ s) :
    Kept s₀ (State.runOn s d) := by
  unfold State.runOn
  repeat' (first
    | with_reducible assumption
    | (with_reducible apply State.settle_kept)
    | (with_reducible apply Kept.ite)
    | (intro _)
    | (with_reducible refine Kept.of_snd (by assumption) ?_)
    | (with_reducible refine Kept.of_snd2 (by assumption) ?_)
    | (with_reducible refine Kept.of_snd3 (by assumption) ?_)
    | (with_reducible refine Kept.of_fst (by assumption) ?_)
    | (with_reducible refine Kept.of_fst2 (by assumption) ?_)
    | (simp only [Kept.update_iff])
    | (simp only [Kept.tables_iff]; apply KeptTables.intro <;> first | with_reducible assumption | with_reducible refine Kept.of_snd (by assumption) ?_ | with_reducible refine Kept.of_snd2 (by assumption) ?_ | with_reducible refine Kept.of_snd3 (by assumption) ?_ | with_reducible refine Kept.of_fst (by assumption) ?_ | with_reducible refine Kept.of_fst2 (by assumption) ?_ | exact id | exact fun _ => rfl | (intro hw; first | exact Sparse.wf_set _ _ _ hw | exact Sparse.wf_restrict _ _ hw | exact Sparse.wf_filter _ _ hw))
    | split)

theorem State.readTile_kept {s₀ : State} (s : State) (d : Nat) (r : DomeRun) (a : Nat) (h : Kept s₀ s) :
    Kept s₀ (State.readTile s d r a).2 := by
  unfold State.readTile
  repeat' (first
    | with_reducible assumption
    | (with_reducible apply State.count_kept)
    | (with_reducible apply State.txRead_kept)
    | (with_reducible apply Kept.ite)
    | (intro _)
    | (with_reducible refine Kept.of_snd (by assumption) ?_)
    | (with_reducible refine Kept.of_snd2 (by assumption) ?_)
    | (with_reducible refine Kept.of_snd3 (by assumption) ?_)
    | (with_reducible refine Kept.of_fst (by assumption) ?_)
    | (with_reducible refine Kept.of_fst2 (by assumption) ?_)
    | (simp only [Kept.update_iff])
    | (simp only [Kept.tables_iff]; apply KeptTables.intro <;> first | with_reducible assumption | with_reducible refine Kept.of_snd (by assumption) ?_ | with_reducible refine Kept.of_snd2 (by assumption) ?_ | with_reducible refine Kept.of_snd3 (by assumption) ?_ | with_reducible refine Kept.of_fst (by assumption) ?_ | with_reducible refine Kept.of_fst2 (by assumption) ?_ | exact id | exact fun _ => rfl | (intro hw; first | exact Sparse.wf_set _ _ _ hw | exact Sparse.wf_restrict _ _ hw | exact Sparse.wf_filter _ _ hw))
    | split)

theorem State.readTiles_kept {s₀ : State} (d st port ctx : Nat) (l : List Nat) (s : State) (h : Kept s₀ s) :
    Kept s₀ (State.readTiles d st port ctx l s).1.2 := by
  induction l generalizing s with
  | nil => exact h
  | cons a rest ih =>
    simp only [State.readTiles]
    repeat' (first
      | with_reducible assumption
      | (with_reducible apply ih)
      | ((fail_if_no_progress extract_lets +onlyGivenNames x); refine (?_ : Kept s₀ x → _) ?_; (on_goal 2 => subst x); (try clear_value x); intro hx)
      | ((fail_if_no_progress extract_lets +onlyGivenNames x); refine (?_ : Kept s₀ x.2 → _) ?_; (on_goal 2 => subst x); (try clear_value x); intro hx)
      | ((fail_if_no_progress extract_lets +onlyGivenNames x); (try clear_value x))
      | (with_reducible apply State.readTile_kept)
      | (with_reducible apply State.ringRead_kept)
      | (with_reducible apply State.setRun_kept)
      | (with_reducible apply Kept.ite)
      | (intro _)
      | (with_reducible refine Kept.of_snd (by assumption) ?_)
      | (with_reducible refine Kept.of_snd2 (by assumption) ?_)
      | (with_reducible refine Kept.of_snd3 (by assumption) ?_)
      | (with_reducible refine Kept.of_fst (by assumption) ?_)
      | (with_reducible refine Kept.of_fst2 (by assumption) ?_)
      | (simp only [Kept.update_iff])
      | (simp only [Kept.tables_iff]; apply KeptTables.intro <;> first | with_reducible assumption | with_reducible refine Kept.of_snd (by assumption) ?_ | with_reducible refine Kept.of_snd2 (by assumption) ?_ | with_reducible refine Kept.of_snd3 (by assumption) ?_ | with_reducible refine Kept.of_fst (by assumption) ?_ | with_reducible refine Kept.of_fst2 (by assumption) ?_ | exact id | exact fun _ => rfl | (intro hw; first | exact Sparse.wf_set _ _ _ hw | exact Sparse.wf_restrict _ _ hw | exact Sparse.wf_filter _ _ hw))
      | split
      | (apply Kept.ite)
      | (dsimp only))

theorem State.readRecords_kept {s₀ : State} (d opcode stride n a : Nat) (s : State) (h : Kept s₀ s) :
    Kept s₀ (State.readRecords d opcode stride n a s).1.2 := by
  induction n generalizing a s with
  | zero => exact h
  | succ n ih =>
    simp only [State.readRecords]
    repeat' (first
      | with_reducible assumption
      | (with_reducible apply ih)
      | ((fail_if_no_progress extract_lets +onlyGivenNames x); refine (?_ : Kept s₀ x → _) ?_; (on_goal 2 => subst x); (try clear_value x); intro hx)
      | ((fail_if_no_progress extract_lets +onlyGivenNames x); refine (?_ : Kept s₀ x.2 → _) ?_; (on_goal 2 => subst x); (try clear_value x); intro hx)
      | ((fail_if_no_progress extract_lets +onlyGivenNames x); (try clear_value x))
      | (with_reducible apply State.txRead_kept)
      | (with_reducible apply Kept.ite)
      | (intro _)
      | (with_reducible refine Kept.of_snd (by assumption) ?_)
      | (with_reducible refine Kept.of_snd2 (by assumption) ?_)
      | (with_reducible refine Kept.of_snd3 (by assumption) ?_)
      | (with_reducible refine Kept.of_fst (by assumption) ?_)
      | (with_reducible refine Kept.of_fst2 (by assumption) ?_)
      | (simp only [Kept.update_iff])
      | (simp only [Kept.tables_iff]; apply KeptTables.intro <;> first | with_reducible assumption | with_reducible refine Kept.of_snd (by assumption) ?_ | with_reducible refine Kept.of_snd2 (by assumption) ?_ | with_reducible refine Kept.of_snd3 (by assumption) ?_ | with_reducible refine Kept.of_fst (by assumption) ?_ | with_reducible refine Kept.of_fst2 (by assumption) ?_ | exact id | exact fun _ => rfl | (intro hw; first | exact Sparse.wf_set _ _ _ hw | exact Sparse.wf_restrict _ _ hw | exact Sparse.wf_filter _ _ hw))
      | split
      | (apply Kept.ite)
      | (dsimp only))

theorem State.prescan_kept {s₀ : State} (s : State) (d : Nat) (r : DomeRun) (h : Kept s₀ s) :
    Kept s₀ (State.prescan s d r).2 := by
  unfold State.prescan
  repeat' (first
    | with_reducible assumption
    | (with_reducible apply State.count_kept)
    | (with_reducible apply State.kvPrescan_kept)
    | (with_reducible apply State.readRecords_kept)
    | (with_reducible apply Kept.ite)
    | (intro _)
    | (with_reducible apply Kept.foldl)
    | (with_reducible apply Kept.foldl_snd)
    | (with_reducible apply Kept.foldl_fst)
    | (with_reducible refine Kept.of_snd (by assumption) ?_)
    | (with_reducible refine Kept.of_snd2 (by assumption) ?_)
    | (with_reducible refine Kept.of_snd3 (by assumption) ?_)
    | (with_reducible refine Kept.of_fst (by assumption) ?_)
    | (with_reducible refine Kept.of_fst2 (by assumption) ?_)
    | (simp only [Kept.update_iff])
    | (simp only [Kept.tables_iff]; apply KeptTables.intro <;> first | with_reducible assumption | with_reducible refine Kept.of_snd (by assumption) ?_ | with_reducible refine Kept.of_snd2 (by assumption) ?_ | with_reducible refine Kept.of_snd3 (by assumption) ?_ | with_reducible refine Kept.of_fst (by assumption) ?_ | with_reducible refine Kept.of_fst2 (by assumption) ?_ | exact id | exact fun _ => rfl | (intro hw; first | exact Sparse.wf_set _ _ _ hw | exact Sparse.wf_restrict _ _ hw | exact Sparse.wf_filter _ _ hw))
    | split)

theorem State.bubble_kept {s₀ : State} (s : State) (d st cause n : Nat) (h : Kept s₀ s) :
    Kept s₀ (State.bubble s d st cause n) := by
  unfold State.bubble
  repeat' (first
    | with_reducible assumption
    | (with_reducible apply State.addSat_kept))

theorem effStageFault_kept {s₀ : State} (d l cause : Nat) (s : State) (inj : Bool) (h : Kept s₀ s) :
    Kept s₀ (effStageFault d l cause s inj) := by
  unfold effStageFault
  repeat' (first
    | with_reducible assumption
    | (with_reducible apply SpareSet.fault_kept)
    | (with_reducible apply State.count_kept)
    | (with_reducible apply State.endRun_kept)
    | (with_reducible apply State.mapOp_kept)
    | (with_reducible apply State.raise_kept)
    | (with_reducible apply State.setRun_kept)
    | (with_reducible apply State.start_kept)
    | (with_reducible apply Kept.ite)
    | (intro _)
    | (with_reducible refine Kept.of_snd (by assumption) ?_)
    | (with_reducible refine Kept.of_snd2 (by assumption) ?_)
    | (with_reducible refine Kept.of_snd3 (by assumption) ?_)
    | (with_reducible refine Kept.of_fst (by assumption) ?_)
    | (with_reducible refine Kept.of_fst2 (by assumption) ?_)
    | (simp only [Kept.update_iff])
    | (simp only [Kept.tables_iff]; apply KeptTables.intro <;> first | with_reducible assumption | with_reducible refine Kept.of_snd (by assumption) ?_ | with_reducible refine Kept.of_snd2 (by assumption) ?_ | with_reducible refine Kept.of_snd3 (by assumption) ?_ | with_reducible refine Kept.of_fst (by assumption) ?_ | with_reducible refine Kept.of_fst2 (by assumption) ?_ | exact id | exact fun _ => rfl | (intro hw; first | exact Sparse.wf_set _ _ _ hw | exact Sparse.wf_restrict _ _ hw | exact Sparse.wf_filter _ _ hw))
    | split)

theorem State.domeInject_kept {s₀ : State} (s : State) (d l : Nat) (h : Kept s₀ s) :
    Kept s₀ (State.domeInject s d l) := by
  unfold State.domeInject
  repeat' (first
    | with_reducible assumption
    | (with_reducible apply State.bubble_kept)
    | (with_reducible apply State.count_kept)
    | (with_reducible apply State.injDone_kept)
    | (with_reducible apply State.raise_kept)
    | (with_reducible apply effStageFault_kept)
    | (with_reducible apply Kept.ite)
    | (intro _))

theorem effEntryIssue_kept {s₀ : State} (d l port : Nat) (s : State) (h : Kept s₀ s) :
    Kept s₀ (effEntryIssue d l port s) := by
  unfold effEntryIssue
  repeat' (first
    | with_reducible assumption
    | (with_reducible apply State.bubble_kept)
    | (with_reducible apply State.count_kept)
    | (with_reducible apply State.domeInject_kept)
    | (with_reducible apply State.dropDeadRun_kept)
    | (with_reducible apply State.endRun_kept)
    | (with_reducible apply State.prescan_kept)
    | (with_reducible apply State.readRecords_kept)
    | (with_reducible apply State.readTiles_kept)
    | (with_reducible apply State.refuseAddr_kept)
    | (with_reducible apply State.runOn_kept)
    | (with_reducible apply State.setRun_kept)
    | (with_reducible apply State.start_kept)
    | (with_reducible apply Kept.ite)
    | (intro _)
    | (with_reducible apply Kept.foldl)
    | (with_reducible apply Kept.foldl_snd)
    | (with_reducible apply Kept.foldl_fst)
    | (with_reducible refine Kept.of_snd (by assumption) ?_)
    | (with_reducible refine Kept.of_snd2 (by assumption) ?_)
    | (with_reducible refine Kept.of_snd3 (by assumption) ?_)
    | (with_reducible refine Kept.of_fst (by assumption) ?_)
    | (with_reducible refine Kept.of_fst2 (by assumption) ?_)
    | (simp only [Kept.update_iff])
    | (simp only [Kept.tables_iff]; apply KeptTables.intro <;> first | with_reducible assumption | with_reducible refine Kept.of_snd (by assumption) ?_ | with_reducible refine Kept.of_snd2 (by assumption) ?_ | with_reducible refine Kept.of_snd3 (by assumption) ?_ | with_reducible refine Kept.of_fst (by assumption) ?_ | with_reducible refine Kept.of_fst2 (by assumption) ?_ | exact id | exact fun _ => rfl | (intro hw; first | exact Sparse.wf_set _ _ _ hw | exact Sparse.wf_restrict _ _ hw | exact Sparse.wf_filter _ _ hw))
    | split)

theorem effGatherSlotFree_kept {s₀ : State} (d : Nat) (s : State) (h : Kept s₀ s) :
    Kept s₀ (effGatherSlotFree d s) := by
  unfold effGatherSlotFree
  repeat' (first
    | with_reducible assumption
    | (with_reducible apply State.dropDeadRun_kept)
    | (with_reducible apply State.runOn_kept))

theorem effRunWcet_kept {s₀ : State} (d : Nat) (s : State) (h : Kept s₀ s) :
    Kept s₀ (effRunWcet d s) := by
  unfold effRunWcet
  repeat' (first
    | with_reducible assumption
    | (with_reducible apply State.count_kept)
    | (with_reducible apply State.dropDeadRun_kept)
    | (with_reducible apply State.endRun_kept)
    | (with_reducible apply State.raise_kept)
    | (with_reducible apply Kept.ite)
    | (intro _)
    | (with_reducible refine Kept.of_snd (by assumption) ?_)
    | (with_reducible refine Kept.of_snd2 (by assumption) ?_)
    | (with_reducible refine Kept.of_snd3 (by assumption) ?_)
    | (with_reducible refine Kept.of_fst (by assumption) ?_)
    | (with_reducible refine Kept.of_fst2 (by assumption) ?_)
    | (simp only [Kept.update_iff])
    | (simp only [Kept.tables_iff]; apply KeptTables.intro <;> first | with_reducible assumption | with_reducible refine Kept.of_snd (by assumption) ?_ | with_reducible refine Kept.of_snd2 (by assumption) ?_ | with_reducible refine Kept.of_snd3 (by assumption) ?_ | with_reducible refine Kept.of_fst (by assumption) ?_ | with_reducible refine Kept.of_fst2 (by assumption) ?_ | exact id | exact fun _ => rfl | (intro hw; first | exact Sparse.wf_set _ _ _ hw | exact Sparse.wf_restrict _ _ hw | exact Sparse.wf_filter _ _ hw))
    | split)

theorem State.completeRun_kept {s₀ : State} (s : State) (d : Nat) (h : Kept s₀ s) :
    Kept s₀ (State.completeRun s d) := by
  unfold State.completeRun
  repeat' (first
    | with_reducible assumption
    | (with_reducible apply SpareSet.result_kept)
    | (with_reducible apply State.mapOp_kept)
    | (with_reducible apply State.setFlag_kept)
    | (with_reducible apply State.setRun_kept)
    | (with_reducible apply State.showRun_kept)
    | (with_reducible apply State.wr_kept)
    | (with_reducible apply Kept.ite)
    | (intro _)
    | (with_reducible refine Kept.of_snd (by assumption) ?_)
    | (with_reducible refine Kept.of_snd2 (by assumption) ?_)
    | (with_reducible refine Kept.of_snd3 (by assumption) ?_)
    | (with_reducible refine Kept.of_fst (by assumption) ?_)
    | (with_reducible refine Kept.of_fst2 (by assumption) ?_)
    | (simp only [Kept.update_iff])
    | (simp only [Kept.tables_iff]; apply KeptTables.intro <;> first | with_reducible assumption | with_reducible refine Kept.of_snd (by assumption) ?_ | with_reducible refine Kept.of_snd2 (by assumption) ?_ | with_reducible refine Kept.of_snd3 (by assumption) ?_ | with_reducible refine Kept.of_fst (by assumption) ?_ | with_reducible refine Kept.of_fst2 (by assumption) ?_ | exact id | exact fun _ => rfl | (intro hw; first | exact Sparse.wf_set _ _ _ hw | exact Sparse.wf_restrict _ _ hw | exact Sparse.wf_filter _ _ hw))
    | split)

theorem effNop_kept {s₀ : State} (region q : Nat) (s : State) (h : Kept s₀ s) :
    Kept s₀ (effNop region q s) := by
  unfold effNop
  repeat' (first
    | with_reducible assumption
    | (with_reducible apply State.finish_kept)
    | (with_reducible apply State.start_kept)
    | (with_reducible apply Kept.ite)
    | (intro _)
    | (with_reducible refine Kept.of_snd (by assumption) ?_)
    | (with_reducible refine Kept.of_snd2 (by assumption) ?_)
    | (with_reducible refine Kept.of_snd3 (by assumption) ?_)
    | (with_reducible refine Kept.of_fst (by assumption) ?_)
    | (with_reducible refine Kept.of_fst2 (by assumption) ?_)
    | (simp only [Kept.update_iff])
    | (simp only [Kept.tables_iff]; apply KeptTables.intro <;> first | with_reducible assumption | with_reducible refine Kept.of_snd (by assumption) ?_ | with_reducible refine Kept.of_snd2 (by assumption) ?_ | with_reducible refine Kept.of_snd3 (by assumption) ?_ | with_reducible refine Kept.of_fst (by assumption) ?_ | with_reducible refine Kept.of_fst2 (by assumption) ?_ | exact id | exact fun _ => rfl | (intro hw; first | exact Sparse.wf_set _ _ _ hw | exact Sparse.wf_restrict _ _ hw | exact Sparse.wf_filter _ _ hw))
    | split)

end Sys2Proof.Machine
end

