-- ==== Sys2Proof/Laws/KeptTransit.lean ====
section
/-! SUPPORT. What the operations of Machine/Transit.lean keep: the queue of commands, the timebase count and the canonical form of
every table. -/

set_option Elab.async false

set_option linter.tactic.unusedName false

namespace Sys2Proof.Machine

theorem effQuota_kept {s₀ : State} (n : Nat) (v : Word) (t : Itag) (s : State) (h : Kept s₀ s) :
    Kept s₀ (effQuota n v t s) := by
  unfold effQuota
  repeat' (first
    | with_reducible assumption
    | (with_reducible apply State.cfgErr_kept)
    | (with_reducible apply State.setFld_kept)
    | (with_reducible apply Kept.ite)
    | (intro _))

theorem State.takeLines_kept {s₀ : State} (s : State) (t n : Nat) (h : Kept s₀ s) :
    Kept s₀ (State.takeLines s t n) := by
  unfold State.takeLines
  repeat' (first
    | with_reducible assumption
    | (with_reducible apply State.setFld_kept))

theorem State.giveLines_kept {s₀ : State} (s : State) (t n : Nat) (h : Kept s₀ s) :
    Kept s₀ (State.giveLines s t n) := by
  unfold State.giveLines
  repeat' (first
    | with_reducible assumption
    | (with_reducible apply State.setFld_kept))

theorem State.evict_kept {s₀ : State} (s : State) (v : Slot) (h : Kept s₀ s) :
    Kept s₀ (State.evict s v) := by
  unfold State.evict
  repeat' (first
    | with_reducible assumption
    | (with_reducible apply State.addSat_kept)
    | (with_reducible apply State.count_kept)
    | (with_reducible apply State.giveLines_kept)
    | (with_reducible apply State.writeObj_kept)
    | (with_reducible apply Kept.ite)
    | (intro _)
    | (with_reducible refine Kept.of_snd (by assumption) ?_)
    | (with_reducible refine Kept.of_snd2 (by assumption) ?_)
    | (with_reducible refine Kept.of_snd3 (by assumption) ?_)
    | (with_reducible refine Kept.of_fst (by assumption) ?_)
    | (with_reducible refine Kept.of_fst2 (by assumption) ?_)
    | (simp only [Kept.update_iff])
    | (simp only [Kept.tables_iff]; apply KeptTables.intro <;> first | with_reducible assumption | with_reducible refine Kept.of_snd (by assumption) ?_ | with_reducible refine Kept.of_snd2 (by assumption) ?_ | with_reducible refine Kept.of_snd3 (by assumption) ?_ | with_reducible refine Kept.of_fst (by assumption) ?_ | with_reducible refine Kept.of_fst2 (by assumption) ?_ | exact id | exact fun _ => rfl | (intro hw; first | exact Sparse.wf_set _ _ _ hw | exact Sparse.wf_restrict _ _ hw | exact Sparse.wf_filter _ _ hw))
    | split)

theorem State.makeRoom_kept {s₀ : State} (a : Nat) (held : Bool) (n fuel : Nat) (s : State) (h : Kept s₀ s) :
    Kept s₀ (State.makeRoom a held n fuel s).2 := by
  induction fuel generalizing s with
  | zero => exact h
  | succ fuel ih =>
    simp only [State.makeRoom]
    repeat' (first
      | with_reducible assumption
      | (with_reducible apply ih)
      | ((fail_if_no_progress extract_lets +onlyGivenNames x); refine (?_ : Kept s₀ x → _) ?_; (on_goal 2 => subst x); (try clear_value x); intro hx)
      | ((fail_if_no_progress extract_lets +onlyGivenNames x); refine (?_ : Kept s₀ x.2 → _) ?_; (on_goal 2 => subst x); (try clear_value x); intro hx)
      | ((fail_if_no_progress extract_lets +onlyGivenNames x); (try clear_value x))
      | (with_reducible apply State.evict_kept)
      | (with_reducible apply Kept.ite)
      | (intro _)
      | (with_reducible refine Kept.of_snd (by assumption) ?_)
      | (with_reducible refine Kept.of_snd2 (by assumption) ?_)
      | (with_reducible refine Kept.of_snd3 (by assumption) ?_)
      | (with_reducible refine Kept.of_fst (by assumption) ?_)
      | (with_reducible refine Kept.of_fst2 (by assumption) ?_)
      | (simp only [Kept.update_iff])
      | (simp only [Kept.tables_iff]; apply KeptTables.intro <;> first | with_reducible assumption | with_reducible refine Kept.of_snd (by assumption) ?_ | with_reducible refine Kept.of_snd2 (by assumption) ?_ | with_reducible refine Kept.of_snd3 (by assumption) ?_ | with_reducible refine Kept.of_fst (by assumption) ?_ | with_reducible refine Kept.of_fst2 (by assumption) ?_ | exact id | exact fun _ => rfl | (intro hw; first | exact Sparse.wf_set _ _ _ hw | exact Sparse.wf_restrict _ _ hw | exact Sparse.wf_filter _ _ hw))
      | split
      | (apply Kept.ite)
      | (dsimp only))

theorem State.touchSlot_kept {s₀ : State} (s : State) (h sl : Nat) (dirty : Bool) (hk : Kept s₀ s) :
    Kept s₀ (State.touchSlot s h sl dirty) := by
  unfold State.touchSlot
  repeat' (first
    | with_reducible assumption
    | (with_reducible apply State.wr_kept)
    | (with_reducible apply Kept.ite)
    | (intro _)
    | (with_reducible refine Kept.of_snd (by assumption) ?_)
    | (with_reducible refine Kept.of_snd2 (by assumption) ?_)
    | (with_reducible refine Kept.of_snd3 (by assumption) ?_)
    | (with_reducible refine Kept.of_fst (by assumption) ?_)
    | (with_reducible refine Kept.of_fst2 (by assumption) ?_)
    | (simp only [Kept.update_iff]))

theorem State.putRaw_kept {s₀ : State} (s : State) (k : Nat) (b : Byte) (h : Kept s₀ s) :
    Kept s₀ (State.putRaw s k b) := by
  unfold State.putRaw
  repeat' (first
    | with_reducible assumption
    | (with_reducible apply Kept.ite)
    | (intro _)
    | (with_reducible refine Kept.of_snd (by assumption) ?_)
    | (with_reducible refine Kept.of_snd2 (by assumption) ?_)
    | (with_reducible refine Kept.of_snd3 (by assumption) ?_)
    | (with_reducible refine Kept.of_fst (by assumption) ?_)
    | (with_reducible refine Kept.of_fst2 (by assumption) ?_)
    | (simp only [Kept.update_iff])
    | (simp only [Kept.tables_iff]; apply KeptTables.intro <;> first | with_reducible assumption | with_reducible refine Kept.of_snd (by assumption) ?_ | with_reducible refine Kept.of_snd2 (by assumption) ?_ | with_reducible refine Kept.of_snd3 (by assumption) ?_ | with_reducible refine Kept.of_fst (by assumption) ?_ | with_reducible refine Kept.of_fst2 (by assumption) ?_ | exact id | exact fun _ => rfl | (intro hw; first | exact Sparse.wf_set _ _ _ hw | exact Sparse.wf_restrict _ _ hw | exact Sparse.wf_filter _ _ hw)))

theorem State.setSuspect_kept {s₀ : State} (s : State) (pc : Nat) (t : Option Nat) (h : Kept s₀ s) :
    Kept s₀ (State.setSuspect s pc t) := by
  unfold State.setSuspect
  repeat' (first
    | with_reducible assumption
    | (with_reducible apply Kept.ite)
    | (intro _)
    | (with_reducible refine Kept.of_snd (by assumption) ?_)
    | (with_reducible refine Kept.of_snd2 (by assumption) ?_)
    | (with_reducible refine Kept.of_snd3 (by assumption) ?_)
    | (with_reducible refine Kept.of_fst (by assumption) ?_)
    | (with_reducible refine Kept.of_fst2 (by assumption) ?_)
    | (simp only [Kept.update_iff]))

theorem State.borrow_kept {s₀ : State} (s : State) (o : Obj) (sl : Nat) (write : Bool) (h : Kept s₀ s) :
    Kept s₀ (State.borrow s o sl write).2 := by
  unfold State.borrow
  repeat' (first
    | with_reducible assumption
    | (with_reducible apply State.count_kept)
    | (with_reducible apply State.makeRoom_kept)
    | (with_reducible apply State.putRaw_kept)
    | (with_reducible apply State.takeLines_kept)
    | (with_reducible apply State.touchSlot_kept)
    | (with_reducible apply Kept.ite)
    | (intro _)
    | (with_reducible apply Kept.foldl)
    | (with_reducible apply Kept.foldl_snd)
    | (with_reducible apply Kept.foldl_fst)
    | (with_reducible refine Kept.of_snd (by assumption) ?_)
    | (with_reducible refine Kept.of_snd2 (by assumption) ?_)
    | (with_reducible refine Kept.of_snd3 (by assumption) ?_)
    | (with_reducible refine Kept.of_fst (by assumption) ?_)
    | (with_reducible refine Kept.of_fst2 (by assumption) ?_)
    | (simp only [Kept.update_iff])
    | (simp only [Kept.tables_iff]; apply KeptTables.intro <;> first | with_reducible assumption | with_reducible refine Kept.of_snd (by assumption) ?_ | with_reducible refine Kept.of_snd2 (by assumption) ?_ | with_reducible refine Kept.of_snd3 (by assumption) ?_ | with_reducible refine Kept.of_fst (by assumption) ?_ | with_reducible refine Kept.of_fst2 (by assumption) ?_ | exact id | exact fun _ => rfl | (intro hw; first | exact Sparse.wf_set _ _ _ hw | exact Sparse.wf_restrict _ _ hw | exact Sparse.wf_filter _ _ hw))
    | split)

theorem State.lockSlot_kept {s₀ : State} (s : State) (q i h sl : Nat) (hk : Kept s₀ s) :
    Kept s₀ (State.lockSlot s q i h sl) := by
  unfold State.lockSlot
  repeat' (first
    | with_reducible assumption
    | (with_reducible apply Kept.ite)
    | (intro _)
    | (with_reducible refine Kept.of_snd (by assumption) ?_)
    | (with_reducible refine Kept.of_snd2 (by assumption) ?_)
    | (with_reducible refine Kept.of_snd3 (by assumption) ?_)
    | (with_reducible refine Kept.of_fst (by assumption) ?_)
    | (with_reducible refine Kept.of_fst2 (by assumption) ?_)
    | (simp only [Kept.update_iff]))

theorem State.unlockSlots_kept {s₀ : State} (s : State) (q i : Nat) (h : Kept s₀ s) :
    Kept s₀ (State.unlockSlots s q i) := by
  unfold State.unlockSlots
  repeat' (first
    | with_reducible assumption
    | (with_reducible apply Kept.ite)
    | (intro _)
    | (with_reducible refine Kept.of_snd (by assumption) ?_)
    | (with_reducible refine Kept.of_snd2 (by assumption) ?_)
    | (with_reducible refine Kept.of_snd3 (by assumption) ?_)
    | (with_reducible refine Kept.of_fst (by assumption) ?_)
    | (with_reducible refine Kept.of_fst2 (by assumption) ?_)
    | (simp only [Kept.update_iff]))

theorem State.dropDeadMoves_kept {s₀ : State} (s : State) (h : Kept s₀ s) :
    Kept s₀ (State.dropDeadMoves s) := by
  unfold State.dropDeadMoves
  repeat' (first
    | with_reducible assumption
    | (with_reducible apply State.setFld_kept)
    | (with_reducible apply State.unlockSlots_kept)
    | (with_reducible apply Kept.ite)
    | (intro _)
    | (with_reducible apply Kept.foldl))

theorem State.setRes_kept {s₀ : State} (s : State) (h : Nat) (b : Bool) (hk : Kept s₀ s) :
    Kept s₀ (State.setRes s h b) := by
  unfold State.setRes
  repeat' (first
    | with_reducible assumption
    | (with_reducible apply Kept.ite)
    | (intro _)
    | (with_reducible refine Kept.of_snd (by assumption) ?_)
    | (with_reducible refine Kept.of_snd2 (by assumption) ?_)
    | (with_reducible refine Kept.of_snd3 (by assumption) ?_)
    | (with_reducible refine Kept.of_fst (by assumption) ?_)
    | (with_reducible refine Kept.of_fst2 (by assumption) ?_)
    | (simp only [Kept.update_iff])
    | (simp only [Kept.tables_iff]; apply KeptTables.intro <;> first | with_reducible assumption | with_reducible refine Kept.of_snd (by assumption) ?_ | with_reducible refine Kept.of_snd2 (by assumption) ?_ | with_reducible refine Kept.of_snd3 (by assumption) ?_ | with_reducible refine Kept.of_fst (by assumption) ?_ | with_reducible refine Kept.of_fst2 (by assumption) ?_ | exact id | exact fun _ => rfl | (intro hw; first | exact Sparse.wf_set _ _ _ hw | exact Sparse.wf_restrict _ _ hw | exact Sparse.wf_filter _ _ hw)))

theorem State.mapLines_kept {s₀ : State} (s : State) (o : Obj) (h : Kept s₀ s) :
    Kept s₀ (State.mapLines s o) := by
  unfold State.mapLines
  repeat' (first
    | with_reducible assumption
    | (with_reducible apply State.setFld_kept)
    | (with_reducible apply State.setRes_kept)
    | (with_reducible apply State.takeLines_kept)
    | (with_reducible apply Kept.ite)
    | (intro _)
    | (with_reducible apply Kept.foldl)
    | (with_reducible apply Kept.foldl_snd)
    | (with_reducible apply Kept.foldl_fst)
    | (with_reducible refine Kept.of_snd (by assumption) ?_)
    | (with_reducible refine Kept.of_snd2 (by assumption) ?_)
    | (with_reducible refine Kept.of_snd3 (by assumption) ?_)
    | (with_reducible refine Kept.of_fst (by assumption) ?_)
    | (with_reducible refine Kept.of_fst2 (by assumption) ?_)
    | (simp only [Kept.update_iff]))

theorem State.allocate_kept {s₀ : State} (s : State) (o : Obj) (h : Kept s₀ s) :
    KeptOpt s₀ (State.allocate s o) := by
  unfold State.allocate
  repeat' (first
    | with_reducible assumption
    | (with_reducible apply State.makeRoom_kept)
    | (with_reducible apply State.mapLines_kept)
    | (with_reducible apply Kept.ite)
    | (intro _)
    | (with_reducible refine Kept.of_snd (by assumption) ?_)
    | (with_reducible refine Kept.of_snd2 (by assumption) ?_)
    | (with_reducible refine Kept.of_snd3 (by assumption) ?_)
    | (with_reducible refine Kept.of_fst (by assumption) ?_)
    | (with_reducible refine Kept.of_fst2 (by assumption) ?_)
    | (with_reducible refine KeptOpt.elim (by assumption) ?_)
    | (with_reducible refine KeptOpt₂.elim (by assumption) ?_)
    | (with_reducible refine KeptOpt₂.elim' (by assumption) ?_)
    | (with_reducible apply KeptOpt.getD)
    | (with_reducible apply KeptOpt.findSome)
    | (with_reducible apply KeptOpt₂.findSome)
    | (with_reducible exact KeptOpt.none)
    | (with_reducible exact KeptOpt₂.none)
    | (with_reducible apply KeptOpt.some)
    | (with_reducible apply KeptOpt.andThen)
    | (with_reducible apply KeptOpt.bind)
    | (with_reducible apply KeptOpt₂.some)
    | (simp only [Kept.update_iff])
    | (simp only [Kept.tables_iff]; apply KeptTables.intro <;> first | with_reducible assumption | with_reducible refine Kept.of_snd (by assumption) ?_ | with_reducible refine Kept.of_snd2 (by assumption) ?_ | with_reducible refine Kept.of_snd3 (by assumption) ?_ | with_reducible refine Kept.of_fst (by assumption) ?_ | with_reducible refine Kept.of_fst2 (by assumption) ?_ | with_reducible refine KeptOpt.elim (by assumption) ?_ | with_reducible refine KeptOpt₂.elim (by assumption) ?_ | with_reducible refine KeptOpt₂.elim' (by assumption) ?_ | with_reducible apply KeptOpt.getD | with_reducible apply KeptOpt.findSome | with_reducible apply KeptOpt₂.findSome | with_reducible exact KeptOpt.none | with_reducible exact KeptOpt₂.none | with_reducible apply KeptOpt.some | with_reducible apply KeptOpt.andThen | with_reducible apply KeptOpt.bind | with_reducible apply KeptOpt₂.some | exact id | exact fun _ => rfl | (intro hw; first | exact Sparse.wf_set _ _ _ hw | exact Sparse.wf_restrict _ _ hw | exact Sparse.wf_filter _ _ hw))
    | split)

theorem effAlloc_kept {s₀ : State} (q : Nat) (s : State) (h : Kept s₀ s) :
    Kept s₀ (effAlloc q s) := by
  unfold effAlloc
  repeat' (first
    | with_reducible assumption
    | (with_reducible apply State.allocate_kept)
    | (with_reducible apply State.conclude_kept)
    | (with_reducible apply State.count_kept)
    | (with_reducible apply State.dropDeadMoves_kept)
    | (with_reducible apply State.start_kept)
    | (with_reducible apply Kept.ite)
    | (intro _)
    | (with_reducible refine Kept.of_snd (by assumption) ?_)
    | (with_reducible refine Kept.of_snd2 (by assumption) ?_)
    | (with_reducible refine Kept.of_snd3 (by assumption) ?_)
    | (with_reducible refine Kept.of_fst (by assumption) ?_)
    | (with_reducible refine Kept.of_fst2 (by assumption) ?_)
    | (with_reducible refine KeptOpt.elim (by assumption) ?_)
    | (with_reducible refine KeptOpt₂.elim (by assumption) ?_)
    | (with_reducible refine KeptOpt₂.elim' (by assumption) ?_)
    | (with_reducible apply KeptOpt.getD)
    | (with_reducible apply KeptOpt.findSome)
    | (with_reducible apply KeptOpt₂.findSome)
    | (simp only [Kept.update_iff])
    | (simp only [Kept.tables_iff]; apply KeptTables.intro <;> first | with_reducible assumption | with_reducible refine Kept.of_snd (by assumption) ?_ | with_reducible refine Kept.of_snd2 (by assumption) ?_ | with_reducible refine Kept.of_snd3 (by assumption) ?_ | with_reducible refine Kept.of_fst (by assumption) ?_ | with_reducible refine Kept.of_fst2 (by assumption) ?_ | with_reducible refine KeptOpt.elim (by assumption) ?_ | with_reducible refine KeptOpt₂.elim (by assumption) ?_ | with_reducible refine KeptOpt₂.elim' (by assumption) ?_ | with_reducible apply KeptOpt.getD | with_reducible apply KeptOpt.findSome | with_reducible apply KeptOpt₂.findSome | exact id | exact fun _ => rfl | (intro hw; first | exact Sparse.wf_set _ _ _ hw | exact Sparse.wf_restrict _ _ hw | exact Sparse.wf_filter _ _ hw))
    | split)

theorem effAllocResume_kept {s₀ : State} (s : State) (h : Kept s₀ s) :
    Kept s₀ (effAllocResume s) := by
  unfold effAllocResume
  repeat' (first
    | with_reducible assumption
    | (with_reducible apply State.allocate_kept)
    | (with_reducible apply State.conclude_kept)
    | (with_reducible apply State.dropDeadMoves_kept)
    | (with_reducible apply Kept.ite)
    | (intro _)
    | (with_reducible refine Kept.of_snd (by assumption) ?_)
    | (with_reducible refine Kept.of_snd2 (by assumption) ?_)
    | (with_reducible refine Kept.of_snd3 (by assumption) ?_)
    | (with_reducible refine Kept.of_fst (by assumption) ?_)
    | (with_reducible refine Kept.of_fst2 (by assumption) ?_)
    | (with_reducible refine KeptOpt.elim (by assumption) ?_)
    | (with_reducible refine KeptOpt₂.elim (by assumption) ?_)
    | (with_reducible refine KeptOpt₂.elim' (by assumption) ?_)
    | (with_reducible apply KeptOpt.getD)
    | (with_reducible apply KeptOpt.findSome)
    | (with_reducible apply KeptOpt₂.findSome)
    | (simp only [Kept.update_iff])
    | (simp only [Kept.tables_iff]; apply KeptTables.intro <;> first | with_reducible assumption | with_reducible refine Kept.of_snd (by assumption) ?_ | with_reducible refine Kept.of_snd2 (by assumption) ?_ | with_reducible refine Kept.of_snd3 (by assumption) ?_ | with_reducible refine Kept.of_fst (by assumption) ?_ | with_reducible refine Kept.of_fst2 (by assumption) ?_ | with_reducible refine KeptOpt.elim (by assumption) ?_ | with_reducible refine KeptOpt₂.elim (by assumption) ?_ | with_reducible refine KeptOpt₂.elim' (by assumption) ?_ | with_reducible apply KeptOpt.getD | with_reducible apply KeptOpt.findSome | with_reducible apply KeptOpt₂.findSome | exact id | exact fun _ => rfl | (intro hw; first | exact Sparse.wf_set _ _ _ hw | exact Sparse.wf_restrict _ _ hw | exact Sparse.wf_filter _ _ hw))
    | split)

theorem effFree_kept {s₀ : State} (q : Nat) (s : State) (h : Kept s₀ s) :
    Kept s₀ (effFree q s) := by
  unfold effFree
  repeat' (first
    | with_reducible assumption
    | (with_reducible apply State.conclude_kept)
    | (with_reducible apply State.giveLines_kept)
    | (with_reducible apply State.setFld_kept)
    | (with_reducible apply State.setRes_kept)
    | (with_reducible apply State.start_kept)
    | (with_reducible apply Kept.ite)
    | (intro _)
    | (with_reducible refine Kept.of_snd (by assumption) ?_)
    | (with_reducible refine Kept.of_snd2 (by assumption) ?_)
    | (with_reducible refine Kept.of_snd3 (by assumption) ?_)
    | (with_reducible refine Kept.of_fst (by assumption) ?_)
    | (with_reducible refine Kept.of_fst2 (by assumption) ?_)
    | (simp only [Kept.update_iff])
    | (simp only [Kept.tables_iff]; apply KeptTables.intro <;> first | with_reducible assumption | with_reducible refine Kept.of_snd (by assumption) ?_ | with_reducible refine Kept.of_snd2 (by assumption) ?_ | with_reducible refine Kept.of_snd3 (by assumption) ?_ | with_reducible refine Kept.of_fst (by assumption) ?_ | with_reducible refine Kept.of_fst2 (by assumption) ?_ | exact id | exact fun _ => rfl | (intro hw; first | exact Sparse.wf_set _ _ _ hw | exact Sparse.wf_restrict _ _ hw | exact Sparse.wf_filter _ _ hw))
    | split)

theorem State.losePc_kept {s₀ : State} (s : State) (pc : Nat) (h : Kept s₀ s) :
    Kept s₀ (State.losePc s pc) := by
  unfold State.losePc
  repeat' (first
    | with_reducible assumption
    | (with_reducible apply State.count_kept)
    | (with_reducible apply State.eventRecord_kept)
    | (with_reducible apply State.postCause_kept)
    | (with_reducible apply State.setPcState_kept)
    | (with_reducible apply State.setSuspect_kept)
    | (with_reducible apply Kept.ite)
    | (intro _))

theorem State.loseSuspects_kept {s₀ : State} (s : State) (o : Obj) (off n : Nat) (h : Kept s₀ s) :
    Kept s₀ (State.loseSuspects s o off n) := by
  unfold State.loseSuspects
  repeat' (first
    | with_reducible assumption
    | (with_reducible apply State.losePc_kept)
    | (with_reducible apply Kept.ite)
    | (intro _)
    | (with_reducible apply Kept.foldl))

theorem State.losePcs_kept {s₀ : State} (s : State) (o : Obj) (off n : Nat) (h : Kept s₀ s) :
    Kept s₀ (State.losePcs s o off n) := by
  unfold State.losePcs
  repeat' (first
    | with_reducible assumption
    | (with_reducible apply State.losePc_kept)
    | (with_reducible apply Kept.ite)
    | (intro _)
    | (with_reducible apply Kept.foldl))

theorem State.readAround_kept {s₀ : State} (s : State) (pc : Nat) (h : Kept s₀ s) :
    Kept s₀ (State.readAround s pc) := by
  unfold State.readAround
  repeat' (first
    | with_reducible assumption
    | (with_reducible apply State.addSat_kept)
    | (with_reducible apply State.count_kept))

theorem State.slowRead_kept {s₀ : State} (s : State) (o : Obj) (off n : Nat) (h : Kept s₀ s) :
    Kept s₀ (State.slowRead s o off n) := by
  unfold State.slowRead
  repeat' (first
    | with_reducible assumption
    | (with_reducible apply State.injDone_kept)
    | (with_reducible apply State.readAround_kept)
    | (with_reducible apply Kept.ite)
    | (intro _)
    | (with_reducible apply Kept.foldl))

theorem State.moveRead_kept {s₀ : State} (s : State) (q i : Nat) (t : Itag) (o : Obj) (off n : Nat) (m : MoveAcc) (h : Kept s₀ s) :
    Kept s₀ (State.moveRead s q i t o off n m).2.2.2 := by
  unfold State.moveRead
  repeat' (first
    | with_reducible assumption
    | (with_reducible apply State.borrow_kept)
    | (with_reducible apply State.count_kept)
    | (with_reducible apply State.injDone_kept)
    | (with_reducible apply State.lockSlot_kept)
    | (with_reducible apply State.loseSuspects_kept)
    | (with_reducible apply State.objTxRead_kept)
    | (with_reducible apply State.slowRead_kept)
    | (with_reducible apply Kept.ite)
    | (intro _)
    | (with_reducible refine Kept.of_snd (by assumption) ?_)
    | (with_reducible refine Kept.of_snd2 (by assumption) ?_)
    | (with_reducible refine Kept.of_snd3 (by assumption) ?_)
    | (with_reducible refine Kept.of_fst (by assumption) ?_)
    | (with_reducible refine Kept.of_fst2 (by assumption) ?_)
    | (simp only [Kept.update_iff])
    | (simp only [Kept.tables_iff]; apply KeptTables.intro <;> first | with_reducible assumption | with_reducible refine Kept.of_snd (by assumption) ?_ | with_reducible refine Kept.of_snd2 (by assumption) ?_ | with_reducible refine Kept.of_snd3 (by assumption) ?_ | with_reducible refine Kept.of_fst (by assumption) ?_ | with_reducible refine Kept.of_fst2 (by assumption) ?_ | exact id | exact fun _ => rfl | (intro hw; first | exact Sparse.wf_set _ _ _ hw | exact Sparse.wf_restrict _ _ hw | exact Sparse.wf_filter _ _ hw))
    | split)

theorem State.moveCheck_kept {s₀ : State} (s : State) (q i : Nat) (t : Itag) (a : MoveArgs) (x y : Obj) (j : Nat) (m : MoveAcc) (h : Kept s₀ s) :
    Kept s₀ (State.moveCheck s q i t a x y j m).2.2.2 := by
  unfold State.moveCheck
  repeat' (first
    | with_reducible assumption
    | (with_reducible apply State.count_kept)
    | (with_reducible apply State.injDone_kept)
    | (with_reducible apply State.moveRead_kept)
    | (with_reducible apply Kept.ite)
    | (intro _)
    | (with_reducible refine Kept.of_snd (by assumption) ?_)
    | (with_reducible refine Kept.of_snd2 (by assumption) ?_)
    | (with_reducible refine Kept.of_snd3 (by assumption) ?_)
    | (with_reducible refine Kept.of_fst (by assumption) ?_)
    | (with_reducible refine Kept.of_fst2 (by assumption) ?_)
    | (simp only [Kept.update_iff])
    | (simp only [Kept.tables_iff]; apply KeptTables.intro <;> first | with_reducible assumption | with_reducible refine Kept.of_snd (by assumption) ?_ | with_reducible refine Kept.of_snd2 (by assumption) ?_ | with_reducible refine Kept.of_snd3 (by assumption) ?_ | with_reducible refine Kept.of_fst (by assumption) ?_ | with_reducible refine Kept.of_fst2 (by assumption) ?_ | exact id | exact fun _ => rfl | (intro hw; first | exact Sparse.wf_set _ _ _ hw | exact Sparse.wf_restrict _ _ hw | exact Sparse.wf_filter _ _ hw))
    | split)

theorem State.moveChecks_kept {s₀ : State} (q i : Nat) (t : Itag) (a : MoveArgs) (x y : Obj) (n j : Nat) (m : MoveAcc) (s : State)
    (h : Kept s₀ s) : Kept s₀ (State.moveChecks q i t a x y n j m s).2.2.2 := by
  induction n generalizing j m s with
  | zero => exact h
  | succ n ih =>
    simp only [State.moveChecks]
    repeat' (first
      | with_reducible assumption
      | (with_reducible apply ih)
      | ((fail_if_no_progress extract_lets +onlyGivenNames x); refine (?_ : Kept s₀ x → _) ?_; (on_goal 2 => subst x); (try clear_value x); intro hx)
      | ((fail_if_no_progress extract_lets +onlyGivenNames x); refine (?_ : Kept s₀ x.2 → _) ?_; (on_goal 2 => subst x); (try clear_value x); intro hx)
      | ((fail_if_no_progress extract_lets +onlyGivenNames x); (try clear_value x))
      | (with_reducible apply State.moveCheck_kept)
      | (with_reducible apply Kept.ite)
      | (intro _)
      | (with_reducible refine Kept.of_snd (by assumption) ?_)
      | (with_reducible refine Kept.of_snd2 (by assumption) ?_)
      | (with_reducible refine Kept.of_snd3 (by assumption) ?_)
      | (with_reducible refine Kept.of_fst (by assumption) ?_)
      | (with_reducible refine Kept.of_fst2 (by assumption) ?_)
      | (simp only [Kept.update_iff])
      | (simp only [Kept.tables_iff]; apply KeptTables.intro <;> first | with_reducible assumption | with_reducible refine Kept.of_snd (by assumption) ?_ | with_reducible refine Kept.of_snd2 (by assumption) ?_ | with_reducible refine Kept.of_snd3 (by assumption) ?_ | with_reducible refine Kept.of_fst (by assumption) ?_ | with_reducible refine Kept.of_fst2 (by assumption) ?_ | exact id | exact fun _ => rfl | (intro hw; first | exact Sparse.wf_set _ _ _ hw | exact Sparse.wf_restrict _ _ hw | exact Sparse.wf_filter _ _ hw))
      | split
      | (apply Kept.ite)
      | (dsimp only))

theorem State.moveTile_kept {s₀ : State} (s : State) (q i : Nat) (t : Itag) (a : MoveArgs) (x y : Obj) (j : Nat) (m : MoveAcc) (h : Kept s₀ s) :
    Kept s₀ (State.moveTile s q i t a x y j m).2.2 := by
  unfold State.moveTile
  repeat' (first
    | with_reducible assumption
    | (with_reducible apply State.borrow_kept)
    | (with_reducible apply State.count_kept)
    | (with_reducible apply State.lockSlot_kept)
    | (with_reducible apply State.moveCheck_kept)
    | (with_reducible apply State.moveRead_kept)
    | (with_reducible apply State.objTxWrite_kept)
    | (with_reducible apply Kept.ite)
    | (intro _)
    | (with_reducible refine Kept.of_snd (by assumption) ?_)
    | (with_reducible refine Kept.of_snd2 (by assumption) ?_)
    | (with_reducible refine Kept.of_snd3 (by assumption) ?_)
    | (with_reducible refine Kept.of_fst (by assumption) ?_)
    | (with_reducible refine Kept.of_fst2 (by assumption) ?_)
    | (simp only [Kept.update_iff])
    | (simp only [Kept.tables_iff]; apply KeptTables.intro <;> first | with_reducible assumption | with_reducible refine Kept.of_snd (by assumption) ?_ | with_reducible refine Kept.of_snd2 (by assumption) ?_ | with_reducible refine Kept.of_snd3 (by assumption) ?_ | with_reducible refine Kept.of_fst (by assumption) ?_ | with_reducible refine Kept.of_fst2 (by assumption) ?_ | exact id | exact fun _ => rfl | (intro hw; first | exact Sparse.wf_set _ _ _ hw | exact Sparse.wf_restrict _ _ hw | exact Sparse.wf_filter _ _ hw))
    | split)

theorem State.moveTiles_kept {s₀ : State} (q i : Nat) (t : Itag) (a : MoveArgs) (x y : Obj) (n j : Nat) (m : MoveAcc) (s : State)
    (h : Kept s₀ s) : Kept s₀ (State.moveTiles q i t a x y n j m s).2.2.2 := by
  induction n generalizing j m s with
  | zero => exact h
  | succ n ih =>
    simp only [State.moveTiles]
    repeat' (first
      | with_reducible assumption
      | (with_reducible apply ih)
      | ((fail_if_no_progress extract_lets +onlyGivenNames x); refine (?_ : Kept s₀ x → _) ?_; (on_goal 2 => subst x); (try clear_value x); intro hx)
      | ((fail_if_no_progress extract_lets +onlyGivenNames x); refine (?_ : Kept s₀ x.2 → _) ?_; (on_goal 2 => subst x); (try clear_value x); intro hx)
      | ((fail_if_no_progress extract_lets +onlyGivenNames x); (try clear_value x))
      | (with_reducible apply State.moveTile_kept)
      | (with_reducible apply Kept.ite)
      | (intro _)
      | (with_reducible refine Kept.of_snd (by assumption) ?_)
      | (with_reducible refine Kept.of_snd2 (by assumption) ?_)
      | (with_reducible refine Kept.of_snd3 (by assumption) ?_)
      | (with_reducible refine Kept.of_fst (by assumption) ?_)
      | (with_reducible refine Kept.of_fst2 (by assumption) ?_)
      | (simp only [Kept.update_iff])
      | (simp only [Kept.tables_iff]; apply KeptTables.intro <;> first | with_reducible assumption | with_reducible refine Kept.of_snd (by assumption) ?_ | with_reducible refine Kept.of_snd2 (by assumption) ?_ | with_reducible refine Kept.of_snd3 (by assumption) ?_ | with_reducible refine Kept.of_fst (by assumption) ?_ | with_reducible refine Kept.of_fst2 (by assumption) ?_ | exact id | exact fun _ => rfl | (intro hw; first | exact Sparse.wf_set _ _ _ hw | exact Sparse.wf_restrict _ _ hw | exact Sparse.wf_filter _ _ hw))
      | split
      | (apply Kept.ite)
      | (dsimp only))

theorem State.addInflight_kept {s₀ : State} (s : State) (n : Nat) (h : Kept s₀ s) :
    Kept s₀ (State.addInflight s n) := by
  unfold State.addInflight
  repeat' (first
    | with_reducible assumption
    | (with_reducible apply State.setFld_kept))

theorem State.failMove_kept {s₀ : State} (s : State) (q i : Nat) (y : Obj) (m : MoveAcc) (st : Nat) (h : Kept s₀ s) :
    Kept s₀ (State.failMove s q i y m st) := by
  unfold State.failMove
  repeat' (first
    | with_reducible assumption
    | (with_reducible apply SpareSet.result_kept)
    | (with_reducible apply State.conclude_kept)
    | (with_reducible apply State.count_kept)
    | (with_reducible apply State.flushItag_kept)
    | (with_reducible apply State.scramble_kept)
    | (with_reducible apply Kept.ite)
    | (intro _)
    | (with_reducible apply Kept.foldl))

theorem State.uncorrectableTile_kept {s₀ : State} (s : State) (q : Nat) (op : Op) (x y : Obj) (k from_ : Nat) (again : Option Nat) (m : MoveAcc) (h : Kept s₀ s) :
    Kept s₀ (State.uncorrectableTile s q op x y k from_ again m) := by
  unfold State.uncorrectableTile
  repeat' (first
    | with_reducible assumption
    | (with_reducible apply SpareSet.move_kept)
    | (with_reducible apply SpareSet.result_kept)
    | (with_reducible apply State.count_kept)
    | (with_reducible apply State.failMove_kept)
    | (with_reducible apply State.losePcs_kept)
    | (with_reducible apply State.mapOp_kept)
    | (with_reducible apply Kept.ite)
    | (intro _))

theorem State.runMove_kept {s₀ : State} (s : State) (q : Nat) (op : Op) (j : Nat) (again : Option Nat) (h : Kept s₀ s) :
    Kept s₀ (State.runMove s q op j again) := by
  unfold State.runMove
  repeat' (first
    | with_reducible assumption
    | (with_reducible apply SpareSet.move_kept)
    | (with_reducible apply SpareSet.result_kept)
    | (with_reducible apply State.conclude_kept)
    | (with_reducible apply State.count_kept)
    | (with_reducible apply State.failMove_kept)
    | (with_reducible apply State.moveChecks_kept)
    | (with_reducible apply State.moveTiles_kept)
    | (with_reducible apply State.uncorrectableTile_kept)
    | (with_reducible apply Kept.ite)
    | (intro _)
    | (with_reducible refine Kept.of_snd (by assumption) ?_)
    | (with_reducible refine Kept.of_snd2 (by assumption) ?_)
    | (with_reducible refine Kept.of_snd3 (by assumption) ?_)
    | (with_reducible refine Kept.of_fst (by assumption) ?_)
    | (with_reducible refine Kept.of_fst2 (by assumption) ?_)
    | (with_reducible refine KeptOpt.elim (by assumption) ?_)
    | (with_reducible refine KeptOpt₂.elim (by assumption) ?_)
    | (with_reducible refine KeptOpt₂.elim' (by assumption) ?_)
    | (with_reducible apply KeptOpt.getD)
    | (with_reducible apply KeptOpt.findSome)
    | (with_reducible apply KeptOpt₂.findSome)
    | (simp only [Kept.update_iff])
    | (simp only [Kept.tables_iff]; apply KeptTables.intro <;> first | with_reducible assumption | with_reducible refine Kept.of_snd (by assumption) ?_ | with_reducible refine Kept.of_snd2 (by assumption) ?_ | with_reducible refine Kept.of_snd3 (by assumption) ?_ | with_reducible refine Kept.of_fst (by assumption) ?_ | with_reducible refine Kept.of_fst2 (by assumption) ?_ | with_reducible refine KeptOpt.elim (by assumption) ?_ | with_reducible refine KeptOpt₂.elim (by assumption) ?_ | with_reducible refine KeptOpt₂.elim' (by assumption) ?_ | with_reducible apply KeptOpt.getD | with_reducible apply KeptOpt.findSome | with_reducible apply KeptOpt₂.findSome | exact id | exact fun _ => rfl | (intro hw; first | exact Sparse.wf_set _ _ _ hw | exact Sparse.wf_restrict _ _ hw | exact Sparse.wf_filter _ _ hw))
    | split)

theorem effTransitMove_kept {s₀ : State} (q : Nat) (s : State) (h : Kept s₀ s) :
    Kept s₀ (effTransitMove q s) := by
  unfold effTransitMove
  repeat' (first
    | with_reducible assumption
    | (with_reducible apply SpareSet.move_kept)
    | (with_reducible apply State.addInflight_kept)
    | (with_reducible apply State.conclude_kept)
    | (with_reducible apply State.count_kept)
    | (with_reducible apply State.countTcc_kept)
    | (with_reducible apply State.dropDeadMoves_kept)
    | (with_reducible apply State.mapOp_kept)
    | (with_reducible apply State.runMove_kept)
    | (with_reducible apply State.start_kept)
    | (with_reducible apply Kept.ite)
    | (intro _)
    | (with_reducible refine Kept.of_snd (by assumption) ?_)
    | (with_reducible refine Kept.of_snd2 (by assumption) ?_)
    | (with_reducible refine Kept.of_snd3 (by assumption) ?_)
    | (with_reducible refine Kept.of_fst (by assumption) ?_)
    | (with_reducible refine Kept.of_fst2 (by assumption) ?_)
    | (with_reducible refine KeptOpt.elim (by assumption) ?_)
    | (with_reducible refine KeptOpt₂.elim (by assumption) ?_)
    | (with_reducible refine KeptOpt₂.elim' (by assumption) ?_)
    | (with_reducible apply KeptOpt.getD)
    | (with_reducible apply KeptOpt.findSome)
    | (with_reducible apply KeptOpt₂.findSome)
    | (simp only [Kept.update_iff])
    | (simp only [Kept.tables_iff]; apply KeptTables.intro <;> first | with_reducible assumption | with_reducible refine Kept.of_snd (by assumption) ?_ | with_reducible refine Kept.of_snd2 (by assumption) ?_ | with_reducible refine Kept.of_snd3 (by assumption) ?_ | with_reducible refine Kept.of_fst (by assumption) ?_ | with_reducible refine Kept.of_fst2 (by assumption) ?_ | with_reducible refine KeptOpt.elim (by assumption) ?_ | with_reducible refine KeptOpt₂.elim (by assumption) ?_ | with_reducible refine KeptOpt₂.elim' (by assumption) ?_ | with_reducible apply KeptOpt.getD | with_reducible apply KeptOpt.findSome | with_reducible apply KeptOpt₂.findSome | exact id | exact fun _ => rfl | (intro hw; first | exact Sparse.wf_set _ _ _ hw | exact Sparse.wf_restrict _ _ hw | exact Sparse.wf_filter _ _ hw))
    | split)

theorem effReread_kept {s₀ : State} (q : Nat) (s : State) (h : Kept s₀ s) :
    Kept s₀ (effReread q s) := by
  unfold effReread
  repeat' (first
    | with_reducible assumption
    | (with_reducible apply SpareSet.result_kept)
    | (with_reducible apply State.mapOp_kept)
    | (with_reducible apply State.runMove_kept)
    | (with_reducible apply Kept.ite)
    | (intro _)
    | (with_reducible refine Kept.of_snd (by assumption) ?_)
    | (with_reducible refine Kept.of_snd2 (by assumption) ?_)
    | (with_reducible refine Kept.of_snd3 (by assumption) ?_)
    | (with_reducible refine Kept.of_fst (by assumption) ?_)
    | (with_reducible refine Kept.of_fst2 (by assumption) ?_)
    | (simp only [Kept.update_iff])
    | (simp only [Kept.tables_iff]; apply KeptTables.intro <;> first | with_reducible assumption | with_reducible refine Kept.of_snd (by assumption) ?_ | with_reducible refine Kept.of_snd2 (by assumption) ?_ | with_reducible refine Kept.of_snd3 (by assumption) ?_ | with_reducible refine Kept.of_fst (by assumption) ?_ | with_reducible refine Kept.of_fst2 (by assumption) ?_ | exact id | exact fun _ => rfl | (intro hw; first | exact Sparse.wf_set _ _ _ hw | exact Sparse.wf_restrict _ _ hw | exact Sparse.wf_filter _ _ hw))
    | split)

theorem State.retireMove_kept {s₀ : State} (s : State) (q : Nat) (o : Op) (h : Kept s₀ s) :
    Kept s₀ (State.retireMove s q o) := by
  unfold State.retireMove
  repeat' (first
    | with_reducible assumption
    | (with_reducible apply State.dropDeadMoves_kept)
    | (with_reducible apply State.mapOp_kept)
    | (with_reducible apply State.unlockSlots_kept))

theorem effTransitNop_kept {s₀ : State} (q : Nat) (s : State) (h : Kept s₀ s) :
    Kept s₀ (effTransitNop q s) := by
  unfold effTransitNop
  repeat' (first
    | with_reducible assumption
    | (with_reducible apply State.conclude_kept)
    | (with_reducible apply State.start_kept)
    | (with_reducible apply Kept.ite)
    | (intro _)
    | (with_reducible refine Kept.of_snd (by assumption) ?_)
    | (with_reducible refine Kept.of_snd2 (by assumption) ?_)
    | (with_reducible refine Kept.of_snd3 (by assumption) ?_)
    | (with_reducible refine Kept.of_fst (by assumption) ?_)
    | (with_reducible refine Kept.of_fst2 (by assumption) ?_)
    | (simp only [Kept.update_iff])
    | (simp only [Kept.tables_iff]; apply KeptTables.intro <;> first | with_reducible assumption | with_reducible refine Kept.of_snd (by assumption) ?_ | with_reducible refine Kept.of_snd2 (by assumption) ?_ | with_reducible refine Kept.of_snd3 (by assumption) ?_ | with_reducible refine Kept.of_fst (by assumption) ?_ | with_reducible refine Kept.of_fst2 (by assumption) ?_ | exact id | exact fun _ => rfl | (intro hw; first | exact Sparse.wf_set _ _ _ hw | exact Sparse.wf_restrict _ _ hw | exact Sparse.wf_filter _ _ hw))
    | split)

theorem effPoolResume_kept {s₀ : State} (s : State) (h : Kept s₀ s) :
    Kept s₀ (effPoolResume s) := by
  unfold effPoolResume
  repeat' (first
    | with_reducible assumption
    | (with_reducible apply SpareSet.move_kept)
    | (with_reducible apply State.count_kept)
    | (with_reducible apply State.dropDeadMoves_kept)
    | (with_reducible apply Kept.ite)
    | (intro _)
    | (with_reducible refine Kept.of_snd (by assumption) ?_)
    | (with_reducible refine Kept.of_snd2 (by assumption) ?_)
    | (with_reducible refine Kept.of_snd3 (by assumption) ?_)
    | (with_reducible refine Kept.of_fst (by assumption) ?_)
    | (with_reducible refine Kept.of_fst2 (by assumption) ?_)
    | (with_reducible refine KeptOpt.elim (by assumption) ?_)
    | (with_reducible refine KeptOpt₂.elim (by assumption) ?_)
    | (with_reducible refine KeptOpt₂.elim' (by assumption) ?_)
    | (with_reducible apply KeptOpt.getD)
    | (with_reducible apply KeptOpt.findSome)
    | (with_reducible apply KeptOpt₂.findSome)
    | (simp only [Kept.update_iff])
    | (simp only [Kept.tables_iff]; apply KeptTables.intro <;> first | with_reducible assumption | with_reducible refine Kept.of_snd (by assumption) ?_ | with_reducible refine Kept.of_snd2 (by assumption) ?_ | with_reducible refine Kept.of_snd3 (by assumption) ?_ | with_reducible refine Kept.of_fst (by assumption) ?_ | with_reducible refine Kept.of_fst2 (by assumption) ?_ | with_reducible refine KeptOpt.elim (by assumption) ?_ | with_reducible refine KeptOpt₂.elim (by assumption) ?_ | with_reducible refine KeptOpt₂.elim' (by assumption) ?_ | with_reducible apply KeptOpt.getD | with_reducible apply KeptOpt.findSome | with_reducible apply KeptOpt₂.findSome | exact id | exact fun _ => rfl | (intro hw; first | exact Sparse.wf_set _ _ _ hw | exact Sparse.wf_restrict _ _ hw | exact Sparse.wf_filter _ _ hw))
    | split)

theorem effReadAround_kept {s₀ : State} (pc : Nat) (s : State) (h : Kept s₀ s) :
    Kept s₀ (effReadAround pc s) := by
  unfold effReadAround
  repeat' (first
    | with_reducible assumption
    | (with_reducible apply SpareSet.move_kept)
    | (with_reducible apply State.readAround_kept)
    | (with_reducible apply Kept.ite)
    | (intro _))

theorem effPcThreshold_kept {s₀ : State} (pc n : Nat) (s : State) (h : Kept s₀ s) :
    Kept s₀ (effPcThreshold pc n s) := by
  unfold effPcThreshold
  repeat' (first
    | with_reducible assumption
    | (with_reducible apply State.count_kept)
    | (with_reducible apply State.eventRecord_kept)
    | (with_reducible apply State.raise_kept)
    | (with_reducible apply State.setPcState_kept)
    | (with_reducible apply State.setSuspect_kept)
    | (with_reducible apply Kept.ite)
    | (intro _))

theorem effPcExpiry_kept {s₀ : State} (pc : Nat) (s : State) (h : Kept s₀ s) :
    Kept s₀ (effPcExpiry pc s) := by
  unfold effPcExpiry
  repeat' (first
    | with_reducible assumption
    | (with_reducible apply State.setPcState_kept)
    | (with_reducible apply State.setSuspect_kept)
    | (with_reducible apply Kept.ite)
    | (intro _)
    | (with_reducible refine Kept.of_snd (by assumption) ?_)
    | (with_reducible refine Kept.of_snd2 (by assumption) ?_)
    | (with_reducible refine Kept.of_snd3 (by assumption) ?_)
    | (with_reducible refine Kept.of_fst (by assumption) ?_)
    | (with_reducible refine Kept.of_fst2 (by assumption) ?_)
    | (simp only [Kept.update_iff])
    | (simp only [Kept.tables_iff]; apply KeptTables.intro <;> first | with_reducible assumption | with_reducible refine Kept.of_snd (by assumption) ?_ | with_reducible refine Kept.of_snd2 (by assumption) ?_ | with_reducible refine Kept.of_snd3 (by assumption) ?_ | with_reducible refine Kept.of_fst (by assumption) ?_ | with_reducible refine Kept.of_fst2 (by assumption) ?_ | exact id | exact fun _ => rfl | (intro hw; first | exact Sparse.wf_set _ _ _ hw | exact Sparse.wf_restrict _ _ hw | exact Sparse.wf_filter _ _ hw))
    | split)

theorem effPcCmd_kept {s₀ : State} (n : Nat) (v : Word) (s : State) (h : Kept s₀ s) :
    Kept s₀ (effPcCmd n v s) := by
  unfold effPcCmd
  repeat' (first
    | with_reducible assumption
    | (with_reducible apply State.losePc_kept)
    | (with_reducible apply State.setFld_kept)
    | (with_reducible apply Kept.ite)
    | (intro _))

theorem effPatrol_kept {s₀ : State} (mem n : Nat) (bad : Option Nat) (s : State) (h : Kept s₀ s) :
    Kept s₀ (effPatrol mem n bad s) := by
  unfold effPatrol
  repeat' (first
    | with_reducible assumption
    | (with_reducible apply State.count_kept)
    | (with_reducible apply State.losePc_kept)
    | (with_reducible apply State.raise_kept)
    | (with_reducible apply Kept.ite)
    | (intro _)
    | (with_reducible refine Kept.of_snd (by assumption) ?_)
    | (with_reducible refine Kept.of_snd2 (by assumption) ?_)
    | (with_reducible refine Kept.of_snd3 (by assumption) ?_)
    | (with_reducible refine Kept.of_fst (by assumption) ?_)
    | (with_reducible refine Kept.of_fst2 (by assumption) ?_)
    | (simp only [Kept.update_iff])
    | (simp only [Kept.tables_iff]; apply KeptTables.intro <;> first | with_reducible assumption | with_reducible refine Kept.of_snd (by assumption) ?_ | with_reducible refine Kept.of_snd2 (by assumption) ?_ | with_reducible refine Kept.of_snd3 (by assumption) ?_ | with_reducible refine Kept.of_fst (by assumption) ?_ | with_reducible refine Kept.of_fst2 (by assumption) ?_ | exact id | exact fun _ => rfl | (intro hw; first | exact Sparse.wf_set _ _ _ hw | exact Sparse.wf_restrict _ _ hw | exact Sparse.wf_filter _ _ hw))
    | split)

theorem State.injEvict_kept {s₀ : State} (s : State) (h : Kept s₀ s) :
    Kept s₀ (State.injEvict s) := by
  unfold State.injEvict
  repeat' (first
    | with_reducible assumption
    | (with_reducible apply State.evict_kept)
    | (with_reducible apply State.injDone_kept)
    | (with_reducible apply Kept.ite)
    | (intro _)
    | (with_reducible refine Kept.of_snd (by assumption) ?_)
    | (with_reducible refine Kept.of_snd2 (by assumption) ?_)
    | (with_reducible refine Kept.of_snd3 (by assumption) ?_)
    | (with_reducible refine Kept.of_fst (by assumption) ?_)
    | (with_reducible refine Kept.of_fst2 (by assumption) ?_)
    | (simp only [Kept.update_iff])
    | (simp only [Kept.tables_iff]; apply KeptTables.intro <;> first | with_reducible assumption | with_reducible refine Kept.of_snd (by assumption) ?_ | with_reducible refine Kept.of_snd2 (by assumption) ?_ | with_reducible refine Kept.of_snd3 (by assumption) ?_ | with_reducible refine Kept.of_fst (by assumption) ?_ | with_reducible refine Kept.of_fst2 (by assumption) ?_ | exact id | exact fun _ => rfl | (intro hw; first | exact Sparse.wf_set _ _ _ hw | exact Sparse.wf_restrict _ _ hw | exact Sparse.wf_filter _ _ hw))
    | split)

end Sys2Proof.Machine
end

