-- ==== Sys2Proof/Laws/KeptCoelostat.lean ====
section
/-! SUPPORT. What the operations of Machine/Coelostat.lean keep: the queue of commands, the timebase count and the canonical form of
every table. -/

set_option Elab.async false

set_option linter.tactic.unusedName false

namespace Sys2Proof.Machine

theorem State.coelPut_kept {s₀ : State} (s : State) (i state : Nat) (dirty : Bool) (step : Nat) (h : Kept s₀ s) :
    Kept s₀ (State.coelPut s i state dirty step) := by
  unfold State.coelPut
  repeat' (first
    | with_reducible assumption
    | (with_reducible apply State.writeSys_kept))

theorem State.coelHold_kept {s₀ : State} (s : State) (i : Nat) (b : Bool) (h : Kept s₀ s) :
    Kept s₀ (State.coelHold s i b) := by
  unfold State.coelHold
  repeat' (first
    | with_reducible assumption
    | (with_reducible apply State.writeSys_kept)
    | (with_reducible apply Kept.ite)
    | (intro _)
    | (with_reducible refine Kept.of_snd (by assumption) ?_)
    | (with_reducible refine Kept.of_snd2 (by assumption) ?_)
    | (with_reducible refine Kept.of_snd3 (by assumption) ?_)
    | (with_reducible refine Kept.of_fst (by assumption) ?_)
    | (with_reducible refine Kept.of_fst2 (by assumption) ?_)
    | (simp only [Kept.update_iff])
    | (simp only [Kept.tables_iff]; apply KeptTables.intro <;> first | with_reducible assumption | with_reducible refine Kept.of_snd (by assumption) ?_ | with_reducible refine Kept.of_snd2 (by assumption) ?_ | with_reducible refine Kept.of_snd3 (by assumption) ?_ | with_reducible refine Kept.of_fst (by assumption) ?_ | with_reducible refine Kept.of_fst2 (by assumption) ?_ | exact id | exact fun _ => rfl | (intro hw; first | exact Sparse.wf_set _ _ _ hw | exact Sparse.wf_restrict _ _ hw | exact Sparse.wf_filter _ _ hw))
    | split)

theorem State.coelClock_kept {s₀ : State} (s : State) (h : Kept s₀ s) :
    Kept s₀ (State.coelClock s) := by
  unfold State.coelClock
  repeat' (first
    | with_reducible assumption
    | (with_reducible apply State.addSat_kept)
    | (with_reducible apply Kept.ite)
    | (intro _)
    | (with_reducible refine Kept.of_snd (by assumption) ?_)
    | (with_reducible refine Kept.of_snd2 (by assumption) ?_)
    | (with_reducible refine Kept.of_snd3 (by assumption) ?_)
    | (with_reducible refine Kept.of_fst (by assumption) ?_)
    | (with_reducible refine Kept.of_fst2 (by assumption) ?_)
    | (simp only [Kept.update_iff])
    | (simp only [Kept.tables_iff]; apply KeptTables.intro <;> first | with_reducible assumption | with_reducible refine Kept.of_snd (by assumption) ?_ | with_reducible refine Kept.of_snd2 (by assumption) ?_ | with_reducible refine Kept.of_snd3 (by assumption) ?_ | with_reducible refine Kept.of_fst (by assumption) ?_ | with_reducible refine Kept.of_fst2 (by assumption) ?_ | exact id | exact fun _ => rfl | (intro hw; first | exact Sparse.wf_set _ _ _ hw | exact Sparse.wf_restrict _ _ hw | exact Sparse.wf_filter _ _ hw))
    | split)

theorem State.coelFault_kept {s₀ : State} (s : State) (i : Nat) (e : CoelEnt) (out : Bool) (h : Kept s₀ s) :
    Kept s₀ (State.coelFault s i e out) := by
  unfold State.coelFault
  repeat' (first
    | with_reducible assumption
    | (with_reducible apply State.addSat_kept)
    | (with_reducible apply State.coelPut_kept)
    | (with_reducible apply State.eventRecord_kept)
    | (with_reducible apply State.evict_kept)
    | (with_reducible apply State.setFlag_kept)
    | (with_reducible apply Kept.ite)
    | (intro _)
    | (with_reducible refine Kept.of_snd (by assumption) ?_)
    | (with_reducible refine Kept.of_snd2 (by assumption) ?_)
    | (with_reducible refine Kept.of_snd3 (by assumption) ?_)
    | (with_reducible refine Kept.of_fst (by assumption) ?_)
    | (with_reducible refine Kept.of_fst2 (by assumption) ?_)
    | (simp only [Kept.update_iff]))

theorem State.submit_kept {s₀ : State} (s : State) (region q : Nat) (words : List Word) (h : Kept s₀ s) :
    Kept s₀ (State.submit s region q words) := by
  unfold State.submit
  repeat' (first
    | with_reducible assumption
    | (with_reducible apply State.doorbell_kept)
    | (with_reducible apply State.txWrite_kept)
    | (with_reducible apply Kept.ite)
    | (intro _)
    | (with_reducible refine Kept.of_snd (by assumption) ?_)
    | (with_reducible refine Kept.of_snd2 (by assumption) ?_)
    | (with_reducible refine Kept.of_snd3 (by assumption) ?_)
    | (with_reducible refine Kept.of_fst (by assumption) ?_)
    | (with_reducible refine Kept.of_fst2 (by assumption) ?_)
    | (simp only [Kept.update_iff])
    | (simp only [Kept.tables_iff]; apply KeptTables.intro <;> first | with_reducible assumption | with_reducible refine Kept.of_snd (by assumption) ?_ | with_reducible refine Kept.of_snd2 (by assumption) ?_ | with_reducible refine Kept.of_snd3 (by assumption) ?_ | with_reducible refine Kept.of_fst (by assumption) ?_ | with_reducible refine Kept.of_fst2 (by assumption) ?_ | exact id | exact fun _ => rfl | (intro hw; first | exact Sparse.wf_set _ _ _ hw | exact Sparse.wf_restrict _ _ hw | exact Sparse.wf_filter _ _ hw))
    | split)

theorem State.coelMove_kept {s₀ : State} (s : State) (i : Nat) (e : CoelEnt) (out : Bool) (h : Kept s₀ s) :
    Kept s₀ (State.coelMove s i e out) := by
  unfold State.coelMove
  repeat' (first
    | with_reducible assumption
    | (with_reducible apply State.addSat_kept)
    | (with_reducible apply State.coelFault_kept)
    | (with_reducible apply State.coelPut_kept)
    | (with_reducible apply State.finish_kept)
    | (with_reducible apply State.injDone_kept)
    | (with_reducible apply State.setFlag_kept)
    | (with_reducible apply State.setFld_kept)
    | (with_reducible apply State.submit_kept)
    | (with_reducible apply Kept.ite)
    | (intro _)
    | (with_reducible refine Kept.of_snd (by assumption) ?_)
    | (with_reducible refine Kept.of_snd2 (by assumption) ?_)
    | (with_reducible refine Kept.of_snd3 (by assumption) ?_)
    | (with_reducible refine Kept.of_fst (by assumption) ?_)
    | (with_reducible refine Kept.of_fst2 (by assumption) ?_)
    | (simp only [Kept.update_iff])
    | (simp only [Kept.tables_iff]; apply KeptTables.intro <;> first | with_reducible assumption | with_reducible refine Kept.of_snd (by assumption) ?_ | with_reducible refine Kept.of_snd2 (by assumption) ?_ | with_reducible refine Kept.of_snd3 (by assumption) ?_ | with_reducible refine Kept.of_fst (by assumption) ?_ | with_reducible refine Kept.of_fst2 (by assumption) ?_ | exact id | exact fun _ => rfl | (intro hw; first | exact Sparse.wf_set _ _ _ hw | exact Sparse.wf_restrict _ _ hw | exact Sparse.wf_filter _ _ hw))
    | split)

theorem State.coelOut_kept {s₀ : State} (s : State) (i : Nat) (e : CoelEnt) (h : Kept s₀ s) :
    Kept s₀ (State.coelOut s i e) := by
  unfold State.coelOut
  repeat' (first
    | with_reducible assumption
    | (with_reducible apply State.addSat_kept)
    | (with_reducible apply State.coelMove_kept)
    | (with_reducible apply State.coelPut_kept)
    | (with_reducible apply State.evict_kept)
    | (with_reducible apply Kept.ite)
    | (intro _)
    | (with_reducible refine Kept.of_snd (by assumption) ?_)
    | (with_reducible refine Kept.of_snd2 (by assumption) ?_)
    | (with_reducible refine Kept.of_snd3 (by assumption) ?_)
    | (with_reducible refine Kept.of_fst (by assumption) ?_)
    | (with_reducible refine Kept.of_fst2 (by assumption) ?_)
    | (simp only [Kept.update_iff]))

theorem State.coelServeJob_kept {s₀ : State} (s : State) (j : Job) (h : Kept s₀ s) :
    KeptOpt s₀ (State.coelServeJob s j) := by
  unfold State.coelServeJob
  repeat' (first
    | with_reducible assumption
    | (with_reducible apply State.coelMove_kept)
    | (with_reducible apply State.coelOut_kept)
    | (with_reducible apply Kept.ite)
    | (intro _)
    | (with_reducible apply Kept.foldl)
    | (with_reducible apply Kept.foldl_snd)
    | (with_reducible apply Kept.foldl_fst)
    | (with_reducible refine Kept.of_snd (by assumption) ?_)
    | (with_reducible refine Kept.of_snd2 (by assumption) ?_)
    | (with_reducible refine Kept.of_snd3 (by assumption) ?_)
    | (with_reducible refine Kept.of_fst (by assumption) ?_)
    | (with_reducible refine Kept.of_fst2 (by assumption) ?_)
    | (with_reducible refine KeptOpt.elim (by assumption) ?_)
    | (with_reducible refine KeptOpt₂.elim (by assumption) ?_)
    | (with_reducible refine KeptOpt₂.elim' (by assumption) ?_)
    | (with_reducible apply KeptOpt.getD)
    | (with_reducible apply KeptOpt.findSome)
    | (with_reducible apply KeptOpt₂.findSome)
    | (with_reducible exact KeptOpt.none)
    | (with_reducible exact KeptOpt₂.none)
    | (with_reducible apply KeptOpt.some)
    | (with_reducible apply KeptOpt.andThen)
    | (with_reducible apply KeptOpt.bind)
    | (with_reducible apply KeptOpt₂.some)
    | (simp only [Kept.update_iff])
    | (simp only [Kept.tables_iff]; apply KeptTables.intro <;> first | with_reducible assumption | with_reducible refine Kept.of_snd (by assumption) ?_ | with_reducible refine Kept.of_snd2 (by assumption) ?_ | with_reducible refine Kept.of_snd3 (by assumption) ?_ | with_reducible refine Kept.of_fst (by assumption) ?_ | with_reducible refine Kept.of_fst2 (by assumption) ?_ | with_reducible refine KeptOpt.elim (by assumption) ?_ | with_reducible refine KeptOpt₂.elim (by assumption) ?_ | with_reducible refine KeptOpt₂.elim' (by assumption) ?_ | with_reducible apply KeptOpt.getD | with_reducible apply KeptOpt.findSome | with_reducible apply KeptOpt₂.findSome | with_reducible exact KeptOpt.none | with_reducible exact KeptOpt₂.none | with_reducible apply KeptOpt.some | with_reducible apply KeptOpt.andThen | with_reducible apply KeptOpt.bind | with_reducible apply KeptOpt₂.some | exact id | exact fun _ => rfl | (intro hw; first | exact Sparse.wf_set _ _ _ hw | exact Sparse.wf_restrict _ _ hw | exact Sparse.wf_filter _ _ hw))
    | split)

theorem State.coelServe_kept {s₀ : State} (s : State) (h : Kept s₀ s) :
    Kept s₀ (State.coelServe s) := by
  unfold State.coelServe
  repeat' (first
    | with_reducible assumption
    | (with_reducible apply State.coelServeJob_kept)
    | (with_reducible apply Kept.ite)
    | (intro _)
    | (with_reducible refine Kept.of_snd (by assumption) ?_)
    | (with_reducible refine Kept.of_snd2 (by assumption) ?_)
    | (with_reducible refine Kept.of_snd3 (by assumption) ?_)
    | (with_reducible refine Kept.of_fst (by assumption) ?_)
    | (with_reducible refine Kept.of_fst2 (by assumption) ?_)
    | (with_reducible refine KeptOpt.elim (by assumption) ?_)
    | (with_reducible refine KeptOpt₂.elim (by assumption) ?_)
    | (with_reducible refine KeptOpt₂.elim' (by assumption) ?_)
    | (with_reducible apply KeptOpt.getD)
    | (with_reducible apply KeptOpt.findSome))

theorem State.coelEvictNext_kept {s₀ : State} (s : State) (h : Kept s₀ s) :
    Kept s₀ (State.coelEvictNext s) := by
  unfold State.coelEvictNext
  repeat' (first
    | with_reducible assumption
    | (with_reducible apply State.coelOut_kept)
    | (with_reducible apply State.evict_kept)
    | (with_reducible apply Kept.ite)
    | (intro _)
    | (with_reducible refine Kept.of_snd (by assumption) ?_)
    | (with_reducible refine Kept.of_snd2 (by assumption) ?_)
    | (with_reducible refine Kept.of_snd3 (by assumption) ?_)
    | (with_reducible refine Kept.of_fst (by assumption) ?_)
    | (with_reducible refine Kept.of_fst2 (by assumption) ?_)
    | (simp only [Kept.update_iff])
    | (simp only [Kept.tables_iff]; apply KeptTables.intro <;> first | with_reducible assumption | with_reducible refine Kept.of_snd (by assumption) ?_ | with_reducible refine Kept.of_snd2 (by assumption) ?_ | with_reducible refine Kept.of_snd3 (by assumption) ?_ | with_reducible refine Kept.of_fst (by assumption) ?_ | with_reducible refine Kept.of_fst2 (by assumption) ?_ | exact id | exact fun _ => rfl | (intro hw; first | exact Sparse.wf_set _ _ _ hw | exact Sparse.wf_restrict _ _ hw | exact Sparse.wf_filter _ _ hw))
    | split)

theorem State.coelResult_kept {s₀ : State} (s : State) (h : Kept s₀ s) :
    Kept s₀ (State.coelResult s) := by
  unfold State.coelResult
  repeat' (first
    | with_reducible assumption
    | (with_reducible apply State.evict_kept)
    | (with_reducible apply State.setFld_kept)
    | (with_reducible apply Kept.ite)
    | (intro _))

theorem effCoelServe_kept {s₀ : State} (s : State) (h : Kept s₀ s) :
    Kept s₀ (effCoelServe s) := by
  unfold effCoelServe
  repeat' (first
    | with_reducible assumption
    | (with_reducible apply State.coelClock_kept)
    | (with_reducible apply State.coelServe_kept))

theorem effCoelResume_kept {s₀ : State} (s : State) (h : Kept s₀ s) :
    Kept s₀ (effCoelResume s) := by
  unfold effCoelResume
  repeat' (first
    | with_reducible assumption
    | (with_reducible apply State.coelClock_kept)
    | (with_reducible apply State.coelEvictNext_kept)
    | (with_reducible apply State.coelResult_kept)
    | (with_reducible apply State.coelServe_kept))

theorem effSwapDone_kept {s₀ : State} (out : Bool) (s : State) (h : Kept s₀ s) :
    Kept s₀ (effSwapDone out s) := by
  unfold effSwapDone
  repeat' (first
    | with_reducible assumption
    | (with_reducible apply State.coelClock_kept)
    | (with_reducible apply State.coelFault_kept)
    | (with_reducible apply State.coelPut_kept)
    | (with_reducible apply State.coelResult_kept)
    | (with_reducible apply State.evict_kept)
    | (with_reducible apply State.setFlag_kept)
    | (with_reducible apply Kept.ite)
    | (intro _)
    | (with_reducible refine Kept.of_snd (by assumption) ?_)
    | (with_reducible refine Kept.of_snd2 (by assumption) ?_)
    | (with_reducible refine Kept.of_snd3 (by assumption) ?_)
    | (with_reducible refine Kept.of_fst (by assumption) ?_)
    | (with_reducible refine Kept.of_fst2 (by assumption) ?_)
    | (simp only [Kept.update_iff])
    | (simp only [Kept.tables_iff]; apply KeptTables.intro <;> first | with_reducible assumption | with_reducible refine Kept.of_snd (by assumption) ?_ | with_reducible refine Kept.of_snd2 (by assumption) ?_ | with_reducible refine Kept.of_snd3 (by assumption) ?_ | with_reducible refine Kept.of_fst (by assumption) ?_ | with_reducible refine Kept.of_fst2 (by assumption) ?_ | exact id | exact fun _ => rfl | (intro hw; first | exact Sparse.wf_set _ _ _ hw | exact Sparse.wf_restrict _ _ hw | exact Sparse.wf_filter _ _ hw))
    | split)

theorem effCoelCmd_kept {s₀ : State} (v : Word) (s : State) (h : Kept s₀ s) :
    Kept s₀ (effCoelCmd v s) := by
  unfold effCoelCmd
  repeat' (first
    | with_reducible assumption
    | (with_reducible apply SpareSet.result_kept)
    | (with_reducible apply State.coelClock_kept)
    | (with_reducible apply State.coelEvictNext_kept)
    | (with_reducible apply State.coelHold_kept)
    | (with_reducible apply State.coelMove_kept)
    | (with_reducible apply State.coelPut_kept)
    | (with_reducible apply State.coelResult_kept)
    | (with_reducible apply State.coelServe_kept)
    | (with_reducible apply State.evict_kept)
    | (with_reducible apply State.scramble_kept)
    | (with_reducible apply State.setFld_kept)
    | (with_reducible apply Kept.ite)
    | (intro _)
    | (with_reducible refine Kept.of_snd (by assumption) ?_)
    | (with_reducible refine Kept.of_snd2 (by assumption) ?_)
    | (with_reducible refine Kept.of_snd3 (by assumption) ?_)
    | (with_reducible refine Kept.of_fst (by assumption) ?_)
    | (with_reducible refine Kept.of_fst2 (by assumption) ?_)
    | (simp only [Kept.update_iff])
    | (simp only [Kept.tables_iff]; apply KeptTables.intro <;> first | with_reducible assumption | with_reducible refine Kept.of_snd (by assumption) ?_ | with_reducible refine Kept.of_snd2 (by assumption) ?_ | with_reducible refine Kept.of_snd3 (by assumption) ?_ | with_reducible refine Kept.of_fst (by assumption) ?_ | with_reducible refine Kept.of_fst2 (by assumption) ?_ | exact id | exact fun _ => rfl | (intro hw; first | exact Sparse.wf_set _ _ _ hw | exact Sparse.wf_restrict _ _ hw | exact Sparse.wf_filter _ _ hw))
    | split)

theorem State.coelDirty_kept {s₀ : State} (s : State) (job step : Nat) (h : Kept s₀ s) :
    Kept s₀ (State.coelDirty s job step) := by
  unfold State.coelDirty
  repeat' (first
    | with_reducible assumption
    | (with_reducible apply State.coelPut_kept)
    | (with_reducible apply Kept.ite)
    | (intro _)
    | (with_reducible apply Kept.foldl))

end Sys2Proof.Machine
end

