-- ==== Sys2Proof/Laws/KeptSched.lean ====
section
/-! SUPPORT. What the operations of Machine/Sched.lean keep: the queue of commands, the timebase count and the canonical form of
every table. -/

set_option Elab.async false

set_option linter.tactic.unusedName false

namespace Sys2Proof.Machine

theorem Opening.foldl_kept {α : Type} {s₀ : State} {f : Opening → α → Opening} {l : List α} {o : Opening}
    (h : Kept s₀ o.s) (hf : ∀ o a, Kept s₀ o.s → Kept s₀ (f o a).s) : Kept s₀ (l.foldl f o).s := by
  induction l generalizing o with
  | nil => exact h
  | cons x xs ih => exact ih (hf o x h)

theorem Built.foldl_kept {α : Type} {s₀ : State} {f : Built → α → Built} {l : List α} {b : Built}
    (h : Kept s₀ b.o.s) (hf : ∀ b a, Kept s₀ b.o.s → Kept s₀ (f b a).o.s) : Kept s₀ (l.foldl f b).o.s := by
  induction l generalizing b with
  | nil => exact h
  | cons x xs ih => exact ih (hf b x h)

theorem State.setJob_kept {s₀ : State} (s : State) (sq : Nat) (j : Option Job) (h : Kept s₀ s) :
    Kept s₀ (State.setJob s sq j) := by
  unfold State.setJob
  repeat' (first
    | with_reducible assumption
    | (with_reducible apply Kept.ite)
    | (intro _)
    | (with_reducible refine Kept.of_snd (by assumption) ?_)
    | (with_reducible refine Kept.of_snd2 (by assumption) ?_)
    | (with_reducible refine Kept.of_snd3 (by assumption) ?_)
    | (with_reducible refine Kept.of_fst (by assumption) ?_)
    | (with_reducible refine Kept.of_fst2 (by assumption) ?_)
    | (simp only [Kept.update_iff]))

theorem State.setAlm_kept {s₀ : State} (s : State) (i : Nat) (e : AlmEnt) (h : Kept s₀ s) :
    Kept s₀ (State.setAlm s i e) := by
  unfold State.setAlm
  repeat' (first
    | with_reducible assumption
    | (with_reducible apply State.setFld_kept)
    | (with_reducible apply Kept.ite)
    | (intro _)
    | (with_reducible refine Kept.of_snd (by assumption) ?_)
    | (with_reducible refine Kept.of_snd2 (by assumption) ?_)
    | (with_reducible refine Kept.of_snd3 (by assumption) ?_)
    | (with_reducible refine Kept.of_fst (by assumption) ?_)
    | (with_reducible refine Kept.of_fst2 (by assumption) ?_)
    | (simp only [Kept.update_iff]))

theorem State.almInject_kept {s₀ : State} (s : State) (i : Nat) (h : Kept s₀ s) :
    Kept s₀ (State.almInject s i) := by
  unfold State.almInject
  repeat' (first
    | with_reducible assumption
    | (with_reducible apply SpareSet.fault_kept)
    | (with_reducible apply State.count_kept)
    | (with_reducible apply State.injDone_kept)
    | (with_reducible apply State.raise_kept)
    | (with_reducible apply State.setAlm_kept)
    | (with_reducible apply Kept.ite)
    | (intro _))

theorem State.quotient_kept {s₀ : State} (s : State) (a b : Nat) (h : Kept s₀ s) :
    Kept s₀ (State.quotient s a b).2 := by
  unfold State.quotient
  repeat' (first
    | with_reducible assumption
    | (with_reducible apply State.draw_kept)
    | (with_reducible apply Kept.ite)
    | (intro _)
    | (with_reducible refine Kept.of_snd (by assumption) ?_)
    | (with_reducible refine Kept.of_snd2 (by assumption) ?_)
    | (with_reducible refine Kept.of_snd3 (by assumption) ?_)
    | (with_reducible refine Kept.of_fst (by assumption) ?_)
    | (with_reducible refine Kept.of_fst2 (by assumption) ?_)
    | (simp only [Kept.update_iff])
    | (simp only [Kept.tables_iff]; apply KeptTables.intro <;> first | with_reducible assumption | with_reducible refine Kept.of_snd (by assumption) ?_ | with_reducible refine Kept.of_snd2 (by assumption) ?_ | with_reducible refine Kept.of_snd3 (by assumption) ?_ | with_reducible refine Kept.of_fst (by assumption) ?_ | with_reducible refine Kept.of_fst2 (by assumption) ?_ | exact id | exact fun _ => rfl | (intro hw; first | exact Sparse.wf_set _ _ _ hw | exact Sparse.wf_restrict _ _ hw | exact Sparse.wf_filter _ _ hw))
    | split)

theorem State.showLoads_kept {s₀ : State} (s : State) (h : Kept s₀ s) :
    Kept s₀ (State.showLoads s) := by
  unfold State.showLoads
  repeat' (first
    | with_reducible assumption
    | (with_reducible apply State.quotient_kept)
    | (with_reducible apply State.setJob_kept)
    | (with_reducible apply State.wr_kept)
    | (with_reducible apply Kept.ite)
    | (intro _)
    | (with_reducible apply Kept.foldl))

theorem State.setSeed_kept {s₀ : State} (s : State) (job : Nat) (x : Option Nat) (h : Kept s₀ s) :
    Kept s₀ (State.setSeed s job x) := by
  unfold State.setSeed
  repeat' (first
    | with_reducible assumption
    | (with_reducible apply Kept.ite)
    | (intro _)
    | (with_reducible refine Kept.of_snd (by assumption) ?_)
    | (with_reducible refine Kept.of_snd2 (by assumption) ?_)
    | (with_reducible refine Kept.of_snd3 (by assumption) ?_)
    | (with_reducible refine Kept.of_fst (by assumption) ?_)
    | (with_reducible refine Kept.of_fst2 (by assumption) ?_)
    | (simp only [Kept.update_iff])
    | (simp only [Kept.tables_iff]; apply KeptTables.intro <;> first | with_reducible assumption | with_reducible refine Kept.of_snd (by assumption) ?_ | with_reducible refine Kept.of_snd2 (by assumption) ?_ | with_reducible refine Kept.of_snd3 (by assumption) ?_ | with_reducible refine Kept.of_fst (by assumption) ?_ | with_reducible refine Kept.of_fst2 (by assumption) ?_ | exact id | exact fun _ => rfl | (intro hw; first | exact Sparse.wf_set _ _ _ hw | exact Sparse.wf_restrict _ _ hw | exact Sparse.wf_filter _ _ hw)))

theorem effAdmit_kept {s₀ : State} (s : State) (h : Kept s₀ s) :
    Kept s₀ (effAdmit s) := by
  unfold effAdmit
  repeat' (first
    | with_reducible assumption
    | (with_reducible apply State.count_kept)
    | (with_reducible apply State.finish_kept)
    | (with_reducible apply State.flushItag_kept)
    | (with_reducible apply State.setJob_kept)
    | (with_reducible apply State.setSeed_kept)
    | (with_reducible apply State.showLoads_kept)
    | (with_reducible apply State.start_kept)
    | (with_reducible apply State.txRead_kept)
    | (with_reducible apply Kept.ite)
    | (intro _)
    | (with_reducible refine Kept.of_snd (by assumption) ?_)
    | (with_reducible refine Kept.of_snd2 (by assumption) ?_)
    | (with_reducible refine Kept.of_snd3 (by assumption) ?_)
    | (with_reducible refine Kept.of_fst (by assumption) ?_)
    | (with_reducible refine Kept.of_fst2 (by assumption) ?_)
    | (simp only [Kept.update_iff])
    | (simp only [Kept.tables_iff]; apply KeptTables.intro <;> first | with_reducible assumption | with_reducible refine Kept.of_snd (by assumption) ?_ | with_reducible refine Kept.of_snd2 (by assumption) ?_ | with_reducible refine Kept.of_snd3 (by assumption) ?_ | with_reducible refine Kept.of_fst (by assumption) ?_ | with_reducible refine Kept.of_fst2 (by assumption) ?_ | exact id | exact fun _ => rfl | (intro hw; first | exact Sparse.wf_set _ _ _ hw | exact Sparse.wf_restrict _ _ hw | exact Sparse.wf_filter _ _ hw))
    | split)

theorem effJoin_kept {s₀ : State} (s : State) (h : Kept s₀ s) :
    Kept s₀ (effJoin s) := by
  unfold effJoin
  repeat' (first
    | with_reducible assumption
    | (with_reducible apply State.finderDrop_kept)
    | (with_reducible apply State.finish_kept)
    | (with_reducible apply State.setAlm_kept)
    | (with_reducible apply State.start_kept)
    | (with_reducible apply Kept.ite)
    | (intro _)
    | (with_reducible apply Kept.foldl)
    | (with_reducible apply Kept.foldl_snd)
    | (with_reducible apply Kept.foldl_fst)
    | (with_reducible refine Kept.of_snd (by assumption) ?_)
    | (with_reducible refine Kept.of_snd2 (by assumption) ?_)
    | (with_reducible refine Kept.of_snd3 (by assumption) ?_)
    | (with_reducible refine Kept.of_fst (by assumption) ?_)
    | (with_reducible refine Kept.of_fst2 (by assumption) ?_)
    | (simp only [Kept.update_iff])
    | (simp only [Kept.tables_iff]; apply KeptTables.intro <;> first | with_reducible assumption | with_reducible refine Kept.of_snd (by assumption) ?_ | with_reducible refine Kept.of_snd2 (by assumption) ?_ | with_reducible refine Kept.of_snd3 (by assumption) ?_ | with_reducible refine Kept.of_fst (by assumption) ?_ | with_reducible refine Kept.of_fst2 (by assumption) ?_ | exact id | exact fun _ => rfl | (intro hw; first | exact Sparse.wf_set _ _ _ hw | exact Sparse.wf_restrict _ _ hw | exact Sparse.wf_filter _ _ hw))
    | split)

theorem effLeave_kept {s₀ : State} (s : State) (h : Kept s₀ s) :
    Kept s₀ (effLeave s) := by
  unfold effLeave
  repeat' (first
    | with_reducible assumption
    | (with_reducible apply Opening.leave_kept)
    | (with_reducible apply State.cfgErr_kept)
    | (with_reducible apply State.finish_kept)
    | (with_reducible apply State.setAlm_kept)
    | (with_reducible apply State.start_kept)
    | (with_reducible apply Kept.ite)
    | (intro _)
    | (with_reducible refine Kept.of_snd (by assumption) ?_)
    | (with_reducible refine Kept.of_snd2 (by assumption) ?_)
    | (with_reducible refine Kept.of_snd3 (by assumption) ?_)
    | (with_reducible refine Kept.of_fst (by assumption) ?_)
    | (with_reducible refine Kept.of_fst2 (by assumption) ?_)
    | (simp only [Kept.update_iff])
    | (simp only [Kept.tables_iff]; apply KeptTables.intro <;> first | with_reducible assumption | with_reducible refine Kept.of_snd (by assumption) ?_ | with_reducible refine Kept.of_snd2 (by assumption) ?_ | with_reducible refine Kept.of_snd3 (by assumption) ?_ | with_reducible refine Kept.of_fst (by assumption) ?_ | with_reducible refine Kept.of_fst2 (by assumption) ?_ | exact id | exact fun _ => rfl | (intro hw; first | exact Sparse.wf_set _ _ _ hw | exact Sparse.wf_restrict _ _ hw | exact Sparse.wf_filter _ _ hw))
    | split)

theorem State.retireJob_kept {s₀ : State} (s : State) (j : Job) (h : Kept s₀ s) :
    Kept s₀ (State.retireJob s j) := by
  unfold State.retireJob
  repeat' (first
    | with_reducible assumption
    | (with_reducible apply State.count_kept)
    | (with_reducible apply State.setAlm_kept)
    | (with_reducible apply State.setFlag_kept)
    | (with_reducible apply State.setJob_kept)
    | (with_reducible apply State.setSeed_kept)
    | (with_reducible apply State.showLoads_kept)
    | (with_reducible apply Kept.ite)
    | (intro _)
    | (with_reducible apply Kept.foldl)
    | (with_reducible apply Kept.foldl_snd)
    | (with_reducible apply Kept.foldl_fst)
    | (with_reducible refine Kept.of_snd (by assumption) ?_)
    | (with_reducible refine Kept.of_snd2 (by assumption) ?_)
    | (with_reducible refine Kept.of_snd3 (by assumption) ?_)
    | (with_reducible refine Kept.of_fst (by assumption) ?_)
    | (with_reducible refine Kept.of_fst2 (by assumption) ?_)
    | (simp only [Kept.update_iff])
    | (simp only [Kept.tables_iff]; apply KeptTables.intro <;> first | with_reducible assumption | with_reducible refine Kept.of_snd (by assumption) ?_ | with_reducible refine Kept.of_snd2 (by assumption) ?_ | with_reducible refine Kept.of_snd3 (by assumption) ?_ | with_reducible refine Kept.of_fst (by assumption) ?_ | with_reducible refine Kept.of_fst2 (by assumption) ?_ | exact id | exact fun _ => rfl | (intro hw; first | exact Sparse.wf_set _ _ _ hw | exact Sparse.wf_restrict _ _ hw | exact Sparse.wf_filter _ _ hw))
    | split)

theorem effRetire_kept {s₀ : State} (s : State) (h : Kept s₀ s) :
    Kept s₀ (effRetire s) := by
  unfold effRetire
  repeat' (first
    | with_reducible assumption
    | (with_reducible apply State.finish_kept)
    | (with_reducible apply State.retireJob_kept)
    | (with_reducible apply State.start_kept)
    | (with_reducible apply Kept.ite)
    | (intro _)
    | (with_reducible refine Kept.of_snd (by assumption) ?_)
    | (with_reducible refine Kept.of_snd2 (by assumption) ?_)
    | (with_reducible refine Kept.of_snd3 (by assumption) ?_)
    | (with_reducible refine Kept.of_fst (by assumption) ?_)
    | (with_reducible refine Kept.of_fst2 (by assumption) ?_)
    | (simp only [Kept.update_iff])
    | (simp only [Kept.tables_iff]; apply KeptTables.intro <;> first | with_reducible assumption | with_reducible refine Kept.of_snd (by assumption) ?_ | with_reducible refine Kept.of_snd2 (by assumption) ?_ | with_reducible refine Kept.of_snd3 (by assumption) ?_ | with_reducible refine Kept.of_fst (by assumption) ?_ | with_reducible refine Kept.of_fst2 (by assumption) ?_ | exact id | exact fun _ => rfl | (intro hw; first | exact Sparse.wf_set _ _ _ hw | exact Sparse.wf_restrict _ _ hw | exact Sparse.wf_filter _ _ hw))
    | split)

theorem State.retireWaiting_kept {s₀ : State} (s : State) (j : Job) (h : Kept s₀ s) :
    Kept s₀ (State.retireWaiting s j) := by
  unfold State.retireWaiting
  repeat' (first
    | with_reducible assumption
    | (with_reducible apply State.finish_kept)
    | (with_reducible apply State.retireJob_kept)
    | (with_reducible apply Kept.ite)
    | (intro _)
    | (with_reducible refine Kept.of_snd (by assumption) ?_)
    | (with_reducible refine Kept.of_snd2 (by assumption) ?_)
    | (with_reducible refine Kept.of_snd3 (by assumption) ?_)
    | (with_reducible refine Kept.of_fst (by assumption) ?_)
    | (with_reducible refine Kept.of_fst2 (by assumption) ?_)
    | (simp only [Kept.update_iff])
    | (simp only [Kept.tables_iff]; apply KeptTables.intro <;> first | with_reducible assumption | with_reducible refine Kept.of_snd (by assumption) ?_ | with_reducible refine Kept.of_snd2 (by assumption) ?_ | with_reducible refine Kept.of_snd3 (by assumption) ?_ | with_reducible refine Kept.of_fst (by assumption) ?_ | with_reducible refine Kept.of_fst2 (by assumption) ?_ | exact id | exact fun _ => rfl | (intro hw; first | exact Sparse.wf_set _ _ _ hw | exact Sparse.wf_restrict _ _ hw | exact Sparse.wf_filter _ _ hw))
    | split)

theorem Opening.put_kept {s₀ : State} (o : Opening) (sq index a : Nat) (bs : List Byte) (h : Kept s₀ o.s) :
    Kept s₀ (Opening.put o sq index a bs).s := by
  unfold Opening.put
  repeat' (first
    | with_reducible assumption
    | (with_reducible apply State.txWrite_kept)
    | (with_reducible apply Kept.ite)
    | (intro _)
    | (with_reducible refine Kept.of_snd (by assumption) ?_)
    | (with_reducible refine Kept.of_snd2 (by assumption) ?_)
    | (with_reducible refine Kept.of_snd3 (by assumption) ?_)
    | (with_reducible refine Kept.of_fst (by assumption) ?_)
    | (with_reducible refine Kept.of_fst2 (by assumption) ?_)
    | (simp only [Kept.update_iff])
    | (simp only [Kept.tables_iff]; apply KeptTables.intro <;> first | with_reducible assumption | with_reducible refine Kept.of_snd (by assumption) ?_ | with_reducible refine Kept.of_snd2 (by assumption) ?_ | with_reducible refine Kept.of_snd3 (by assumption) ?_ | with_reducible refine Kept.of_fst (by assumption) ?_ | with_reducible refine Kept.of_fst2 (by assumption) ?_ | exact id | exact fun _ => rfl | (intro hw; first | exact Sparse.wf_set _ _ _ hw | exact Sparse.wf_restrict _ _ hw | exact Sparse.wf_filter _ _ hw))
    | split)

theorem Opening.grant_kept {s₀ : State} (o : Opening) (sq index seq : Nat) (release : Bool) (from_ last due : Nat) (h : Kept s₀ o.s) :
    Kept s₀ (Opening.grant o sq index seq release from_ last due).s := by
  unfold Opening.grant
  repeat' (first
    | with_reducible assumption
    | (with_reducible apply Opening.put_kept)
    | (with_reducible apply State.setJob_kept)
    | (with_reducible apply Kept.ite)
    | (intro _)
    | (with_reducible refine Kept.of_snd (by assumption) ?_)
    | (with_reducible refine Kept.of_snd2 (by assumption) ?_)
    | (with_reducible refine Kept.of_snd3 (by assumption) ?_)
    | (with_reducible refine Kept.of_fst (by assumption) ?_)
    | (with_reducible refine Kept.of_fst2 (by assumption) ?_)
    | (simp only [Kept.update_iff])
    | (simp only [Kept.tables_iff]; apply KeptTables.intro <;> first | with_reducible assumption | with_reducible refine Kept.of_snd (by assumption) ?_ | with_reducible refine Kept.of_snd2 (by assumption) ?_ | with_reducible refine Kept.of_snd3 (by assumption) ?_ | with_reducible refine Kept.of_fst (by assumption) ?_ | with_reducible refine Kept.of_fst2 (by assumption) ?_ | exact id | exact fun _ => rfl | (intro hw; first | exact Sparse.wf_set _ _ _ hw | exact Sparse.wf_restrict _ _ hw | exact Sparse.wf_filter _ _ hw))
    | split)

theorem State.park_kept {s₀ : State} (s : State) (i : Nat) (h : Kept s₀ s) :
    Kept s₀ (State.park s i) := by
  unfold State.park
  repeat' (first
    | with_reducible assumption
    | (with_reducible apply State.count_kept)
    | (with_reducible apply State.setAlm_kept)
    | (with_reducible apply Kept.ite)
    | (intro _))

theorem Opening.leave_kept {s₀ : State} (o : Opening) (r : JobRec) (index n i : Nat) (e : AlmEnt) (h : Kept s₀ o.s) :
    Kept s₀ (Opening.leave o r index n i e).s := by
  unfold Opening.leave
  repeat' (first
    | with_reducible assumption
    | (with_reducible apply Opening.grant_kept)
    | (with_reducible apply State.setAlm_kept)
    | (with_reducible apply Kept.ite)
    | (intro _)
    | (with_reducible refine Kept.of_snd (by assumption) ?_)
    | (with_reducible refine Kept.of_snd2 (by assumption) ?_)
    | (with_reducible refine Kept.of_snd3 (by assumption) ?_)
    | (with_reducible refine Kept.of_fst (by assumption) ?_)
    | (with_reducible refine Kept.of_fst2 (by assumption) ?_)
    | (simp only [Kept.update_iff])
    | (simp only [Kept.tables_iff]; apply KeptTables.intro <;> first | with_reducible assumption | with_reducible refine Kept.of_snd (by assumption) ?_ | with_reducible refine Kept.of_snd2 (by assumption) ?_ | with_reducible refine Kept.of_snd3 (by assumption) ?_ | with_reducible refine Kept.of_fst (by assumption) ?_ | with_reducible refine Kept.of_fst2 (by assumption) ?_ | exact id | exact fun _ => rfl | (intro hw; first | exact Sparse.wf_set _ _ _ hw | exact Sparse.wf_restrict _ _ hw | exact Sparse.wf_filter _ _ hw))
    | split)

theorem Opening.leaves_kept {s₀ : State} (o : Opening) (r : JobRec) (index n : Nat) (h : Kept s₀ o.s) :
    Kept s₀ (Opening.leaves o r index n).s := by
  unfold Opening.leaves
  repeat' (first
    | with_reducible assumption
    | (with_reducible apply Opening.leave_kept)
    | (with_reducible apply Kept.ite)
    | (intro _)
    | (with_reducible apply Kept.foldl)
    | (with_reducible apply Kept.foldl_snd)
    | (with_reducible apply Kept.foldl_fst)
    | (with_reducible apply Opening.foldl_kept))

theorem State.noteShort_kept {s₀ : State} (s : State) (sq : Nat) (h : Kept s₀ s) :
    Kept s₀ (State.noteShort s sq) := by
  unfold State.noteShort
  repeat' (first
    | with_reducible assumption
    | (with_reducible apply State.setJob_kept)
    | (with_reducible apply Kept.ite)
    | (intro _)
    | (with_reducible refine Kept.of_snd (by assumption) ?_)
    | (with_reducible refine Kept.of_snd2 (by assumption) ?_)
    | (with_reducible refine Kept.of_snd3 (by assumption) ?_)
    | (with_reducible refine Kept.of_fst (by assumption) ?_)
    | (with_reducible refine Kept.of_fst2 (by assumption) ?_)
    | (simp only [Kept.update_iff])
    | (simp only [Kept.tables_iff]; apply KeptTables.intro <;> first | with_reducible assumption | with_reducible refine Kept.of_snd (by assumption) ?_ | with_reducible refine Kept.of_snd2 (by assumption) ?_ | with_reducible refine Kept.of_snd3 (by assumption) ?_ | with_reducible refine Kept.of_fst (by assumption) ?_ | with_reducible refine Kept.of_fst2 (by assumption) ?_ | exact id | exact fun _ => rfl | (intro hw; first | exact Sparse.wf_set _ _ _ hw | exact Sparse.wf_restrict _ _ hw | exact Sparse.wf_filter _ _ hw))
    | split)

theorem Opening.reserve_kept {s₀ : State} (o : Opening) (r : JobRec) (index n i : Nat) (e : AlmEnt) (h : Kept s₀ o.s) :
    Kept s₀ (Opening.reserve o r index n i e).1.s := by
  unfold Opening.reserve
  repeat' (first
    | with_reducible assumption
    | (with_reducible apply Opening.grant_kept)
    | (with_reducible apply State.noteShort_kept)
    | (with_reducible apply Kept.ite)
    | (intro _)
    | (with_reducible refine Kept.of_snd (by assumption) ?_)
    | (with_reducible refine Kept.of_snd2 (by assumption) ?_)
    | (with_reducible refine Kept.of_snd3 (by assumption) ?_)
    | (with_reducible refine Kept.of_fst (by assumption) ?_)
    | (with_reducible refine Kept.of_fst2 (by assumption) ?_)
    | (simp only [Kept.update_iff])
    | (simp only [Kept.tables_iff]; apply KeptTables.intro <;> first | with_reducible assumption | with_reducible refine Kept.of_snd (by assumption) ?_ | with_reducible refine Kept.of_snd2 (by assumption) ?_ | with_reducible refine Kept.of_snd3 (by assumption) ?_ | with_reducible refine Kept.of_fst (by assumption) ?_ | with_reducible refine Kept.of_fst2 (by assumption) ?_ | exact id | exact fun _ => rfl | (intro hw; first | exact Sparse.wf_set _ _ _ hw | exact Sparse.wf_restrict _ _ hw | exact Sparse.wf_filter _ _ hw))
    | split)

theorem Opening.extend_kept {s₀ : State} (o : Opening) (r : JobRec) (index n i : Nat) (e : AlmEnt) (h : Kept s₀ o.s) :
    Kept s₀ (Opening.extend o r index n i e).s := by
  unfold Opening.extend
  repeat' (first
    | with_reducible assumption
    | (with_reducible apply Opening.reserve_kept)
    | (with_reducible apply State.park_kept)
    | (with_reducible apply State.setAlm_kept)
    | (with_reducible apply Kept.ite)
    | (intro _)
    | (with_reducible refine Kept.of_snd (by assumption) ?_)
    | (with_reducible refine Kept.of_snd2 (by assumption) ?_)
    | (with_reducible refine Kept.of_snd3 (by assumption) ?_)
    | (with_reducible refine Kept.of_fst (by assumption) ?_)
    | (with_reducible refine Kept.of_fst2 (by assumption) ?_)
    | (simp only [Kept.update_iff])
    | (simp only [Kept.tables_iff]; apply KeptTables.intro <;> first | with_reducible assumption | with_reducible refine Kept.of_snd (by assumption) ?_ | with_reducible refine Kept.of_snd2 (by assumption) ?_ | with_reducible refine Kept.of_snd3 (by assumption) ?_ | with_reducible refine Kept.of_fst (by assumption) ?_ | with_reducible refine Kept.of_fst2 (by assumption) ?_ | exact id | exact fun _ => rfl | (intro hw; first | exact Sparse.wf_set _ _ _ hw | exact Sparse.wf_restrict _ _ hw | exact Sparse.wf_filter _ _ hw))
    | split)

theorem Opening.extensions_kept {s₀ : State} (o : Opening) (r : JobRec) (index n : Nat) (h : Kept s₀ o.s) :
    Kept s₀ (Opening.extensions o r index n).s := by
  unfold Opening.extensions
  repeat' (first
    | with_reducible assumption
    | (with_reducible apply Opening.extend_kept)
    | (with_reducible apply State.extend_kept)
    | (with_reducible apply Kept.ite)
    | (intro _)
    | (with_reducible apply Kept.foldl)
    | (with_reducible apply Kept.foldl_snd)
    | (with_reducible apply Kept.foldl_fst)
    | (with_reducible apply Opening.foldl_kept))

theorem Opening.joins_kept {s₀ : State} (r : JobRec) (index n : Nat) (l : List (Nat × AlmEnt)) (o : Opening) (h : Kept s₀ o.s) :
    Kept s₀ (Opening.joins r index n l o).s := by
  induction l generalizing o with
  | nil => exact h
  | cons x rest ih =>
    simp only [Opening.joins]
    split
    · exact h
    · exact ih _ (State.setAlm_kept _ _ _ (Opening.grant_kept _ _ _ _ _ _ _ _ h))

theorem Opening.fitCost_kept {s₀ : State} (r : JobRec) (its : List RetItem) (entries fuel : Nat) (o : Opening)
    (h : Kept s₀ o.s) : Kept s₀ (Opening.fitCost r its entries fuel o).s := by
  induction fuel generalizing o with
  | zero => exact h
  | succ fuel ih =>
    simp only [Opening.fitCost]
    split
    · exact h
    · split
      · exact h
      · exact ih _ (State.park_kept _ _ h)

theorem Built.item_kept {s₀ : State} (b : Built) (j : JobRec) (index : Nat) (qam : Bool) (z : StepSize)
    (rows : List (Nat × AlmEnt × Nat)) (it : RetItem) (h : Kept s₀ b.o.s) :
    Kept s₀ (b.item j index qam z rows it).o.s := by
  unfold Built.item
  split
  · exact Opening.put_kept _ _ _ _ _ h
  · split
    · exact Opening.foldl_kept h (fun o a ho => Opening.put_kept _ _ _ _ _ ho)
    · exact Opening.put_kept _ _ _ _ _ h

theorem State.activate_kept {s₀ : State} (s : State) (r : JobRec) (n : Nat) (h : Kept s₀ s) :
    Kept s₀ (State.activate s r n) := by
  unfold State.activate
  repeat' (first
    | with_reducible assumption
    | (with_reducible apply State.setAlm_kept)
    | (with_reducible apply Kept.ite)
    | (intro _)
    | (with_reducible apply Kept.foldl))

theorem Opening.boundary_kept {s₀ : State} (o : Opening) (r : JobRec) (index n : Nat) (h : Kept s₀ o.s) :
    Kept s₀ (Opening.boundary o r index n).s := by
  unfold Opening.boundary
  repeat' (first
    | with_reducible assumption
    | (with_reducible apply Opening.extensions_kept)
    | (with_reducible apply Opening.leaves_kept)
    | (with_reducible apply State.activate_kept)
    | (with_reducible apply State.count_kept)
    | (with_reducible apply Opening.joins_kept)
    | (with_reducible apply Kept.ite)
    | (intro _)
    | (with_reducible refine Kept.of_snd (by assumption) ?_)
    | (with_reducible refine Kept.of_snd2 (by assumption) ?_)
    | (with_reducible refine Kept.of_snd3 (by assumption) ?_)
    | (with_reducible refine Kept.of_fst (by assumption) ?_)
    | (with_reducible refine Kept.of_fst2 (by assumption) ?_)
    | (simp only [Kept.update_iff])
    | (simp only [Kept.tables_iff]; apply KeptTables.intro <;> first | with_reducible assumption | with_reducible refine Kept.of_snd (by assumption) ?_ | with_reducible refine Kept.of_snd2 (by assumption) ?_ | with_reducible refine Kept.of_snd3 (by assumption) ?_ | with_reducible refine Kept.of_fst (by assumption) ?_ | with_reducible refine Kept.of_fst2 (by assumption) ?_ | exact id | exact fun _ => rfl | (intro hw; first | exact Sparse.wf_set _ _ _ hw | exact Sparse.wf_restrict _ _ hw | exact Sparse.wf_filter _ _ hw))
    | split)

theorem State.readReticle_kept {s₀ : State} (sq index n a : Nat) (acc : List RetItem) (s : State) (h : Kept s₀ s) :
    Kept s₀ (State.readReticle s sq index n a acc).2 := by
  induction n generalizing a acc s with
  | zero => exact h
  | succ n ih =>
    simp only [State.readReticle]
    repeat' (first
      | with_reducible assumption
      | (with_reducible apply ih)
      | ((fail_if_no_progress extract_lets +onlyGivenNames x); refine (?_ : Kept s₀ x → _) ?_; (on_goal 2 => subst x); (try clear_value x); intro hx)
      | ((fail_if_no_progress extract_lets +onlyGivenNames x); refine (?_ : Kept s₀ x.2 → _) ?_; (on_goal 2 => subst x); (try clear_value x); intro hx)
      | ((fail_if_no_progress extract_lets +onlyGivenNames x); (try clear_value x))
      | (with_reducible apply State.txRead_kept)
      | (with_reducible apply Kept.ite)
      | (intro _)
      | (with_reducible refine Kept.of_snd (by assumption) ?_)
      | (with_reducible refine Kept.of_snd2 (by assumption) ?_)
      | (with_reducible refine Kept.of_snd3 (by assumption) ?_)
      | (with_reducible refine Kept.of_fst (by assumption) ?_)
      | (with_reducible refine Kept.of_fst2 (by assumption) ?_)
      | (simp only [Kept.update_iff])
      | (simp only [Kept.tables_iff]; apply KeptTables.intro <;> first | with_reducible assumption | with_reducible refine Kept.of_snd (by assumption) ?_ | with_reducible refine Kept.of_snd2 (by assumption) ?_ | with_reducible refine Kept.of_snd3 (by assumption) ?_ | with_reducible refine Kept.of_fst (by assumption) ?_ | with_reducible refine Kept.of_fst2 (by assumption) ?_ | exact id | exact fun _ => rfl | (intro hw; first | exact Sparse.wf_set _ _ _ hw | exact Sparse.wf_restrict _ _ hw | exact Sparse.wf_filter _ _ hw))
      | split
      | (apply Kept.ite)
      | (dsimp only))

theorem State.endStep_kept {s₀ : State} (s : State) (sq index st : Nat) (h : Kept s₀ s) :
    Kept s₀ (State.endStep s sq index st) := by
  unfold State.endStep
  repeat' (first
    | with_reducible assumption
    | (with_reducible apply State.finish_kept)
    | (with_reducible apply State.setFlag_kept)
    | (with_reducible apply State.setJob_kept)
    | (with_reducible apply Kept.ite)
    | (intro _)
    | (with_reducible refine Kept.of_snd (by assumption) ?_)
    | (with_reducible refine Kept.of_snd2 (by assumption) ?_)
    | (with_reducible refine Kept.of_snd3 (by assumption) ?_)
    | (with_reducible refine Kept.of_fst (by assumption) ?_)
    | (with_reducible refine Kept.of_fst2 (by assumption) ?_)
    | (simp only [Kept.update_iff])
    | (simp only [Kept.tables_iff]; apply KeptTables.intro <;> first | with_reducible assumption | with_reducible refine Kept.of_snd (by assumption) ?_ | with_reducible refine Kept.of_snd2 (by assumption) ?_ | with_reducible refine Kept.of_snd3 (by assumption) ?_ | with_reducible refine Kept.of_fst (by assumption) ?_ | with_reducible refine Kept.of_fst2 (by assumption) ?_ | exact id | exact fun _ => rfl | (intro hw; first | exact Sparse.wf_set _ _ _ hw | exact Sparse.wf_restrict _ _ hw | exact Sparse.wf_filter _ _ hw))
    | split)

theorem State.openQam_kept {s₀ : State} (s : State) (qam : Bool) (h : Kept s₀ s) :
    Kept s₀ (State.openQam s qam) := by
  unfold State.openQam
  repeat' (first
    | with_reducible assumption
    | (with_reducible apply State.showKvMode_kept)
    | (with_reducible apply Kept.ite)
    | (intro _)
    | (with_reducible refine Kept.of_snd (by assumption) ?_)
    | (with_reducible refine Kept.of_snd2 (by assumption) ?_)
    | (with_reducible refine Kept.of_snd3 (by assumption) ?_)
    | (with_reducible refine Kept.of_fst (by assumption) ?_)
    | (with_reducible refine Kept.of_fst2 (by assumption) ?_)
    | (simp only [Kept.update_iff]))

theorem Opening.open__kept {s₀ : State} (o : Opening) (r : JobRec) (index n : Nat) (qam : Bool) (rows : List (Nat × AlmEnt × Nat)) (its : List RetItem) (z : StepSize) (h : Kept s₀ o.s) :
    Kept s₀ (Opening.open_ o r index n qam rows its z) := by
  unfold Opening.open_
  repeat' (first
    | with_reducible assumption
    | (with_reducible apply Opening.put_kept)
    | (with_reducible apply State.endStep_kept)
    | (with_reducible apply State.flushItag_kept)
    | (with_reducible apply State.openQam_kept)
    | (with_reducible apply State.setFlag_kept)
    | (with_reducible apply State.setJob_kept)
    | (with_reducible apply Built.item_kept)
    | (with_reducible apply Kept.ite)
    | (intro _)
    | (with_reducible apply Kept.foldl)
    | (with_reducible apply Kept.foldl_snd)
    | (with_reducible apply Kept.foldl_fst)
    | (with_reducible apply Opening.foldl_kept)
    | (with_reducible apply Built.foldl_kept)
    | (with_reducible refine Kept.of_snd (by assumption) ?_)
    | (with_reducible refine Kept.of_snd2 (by assumption) ?_)
    | (with_reducible refine Kept.of_snd3 (by assumption) ?_)
    | (with_reducible refine Kept.of_fst (by assumption) ?_)
    | (with_reducible refine Kept.of_fst2 (by assumption) ?_)
    | (simp only [Kept.update_iff])
    | (simp only [Kept.tables_iff]; apply KeptTables.intro <;> first | with_reducible assumption | with_reducible refine Kept.of_snd (by assumption) ?_ | with_reducible refine Kept.of_snd2 (by assumption) ?_ | with_reducible refine Kept.of_snd3 (by assumption) ?_ | with_reducible refine Kept.of_fst (by assumption) ?_ | with_reducible refine Kept.of_fst2 (by assumption) ?_ | exact id | exact fun _ => rfl | (intro hw; first | exact Sparse.wf_set _ _ _ hw | exact Sparse.wf_restrict _ _ hw | exact Sparse.wf_filter _ _ hw))
    | split)

theorem State.buildStep_kept {s₀ : State} (s : State) (r : JobRec) (index n entries : Nat) (h : Kept s₀ s) :
    Kept s₀ (State.buildStep s r index n entries) := by
  unfold State.buildStep
  repeat' (first
    | with_reducible assumption
    | (with_reducible apply Opening.boundary_kept)
    | (with_reducible apply Opening.open__kept)
    | (with_reducible apply SpareSet.boundary_kept)
    | (with_reducible apply State.endStep_kept)
    | (with_reducible apply State.flushItag_kept)
    | (with_reducible apply State.readReticle_kept)
    | (with_reducible apply Opening.fitCost_kept)
    | (with_reducible apply Kept.ite)
    | (intro _)
    | (with_reducible apply Kept.foldl)
    | (with_reducible apply Kept.foldl_snd)
    | (with_reducible apply Kept.foldl_fst)
    | (with_reducible apply Opening.foldl_kept)
    | (with_reducible apply Built.foldl_kept)
    | (with_reducible refine Kept.of_snd (by assumption) ?_)
    | (with_reducible refine Kept.of_snd2 (by assumption) ?_)
    | (with_reducible refine Kept.of_snd3 (by assumption) ?_)
    | (with_reducible refine Kept.of_fst (by assumption) ?_)
    | (with_reducible refine Kept.of_fst2 (by assumption) ?_)
    | (simp only [Kept.update_iff])
    | (simp only [Kept.tables_iff]; apply KeptTables.intro <;> first | with_reducible assumption | with_reducible refine Kept.of_snd (by assumption) ?_ | with_reducible refine Kept.of_snd2 (by assumption) ?_ | with_reducible refine Kept.of_snd3 (by assumption) ?_ | with_reducible refine Kept.of_fst (by assumption) ?_ | with_reducible refine Kept.of_fst2 (by assumption) ?_ | exact id | exact fun _ => rfl | (intro hw; first | exact Sparse.wf_set _ _ _ hw | exact Sparse.wf_restrict _ _ hw | exact Sparse.wf_filter _ _ hw))
    | split)

theorem effStepOpen_kept {s₀ : State} (s : State) (h : Kept s₀ s) :
    Kept s₀ (effStepOpen s) := by
  unfold effStepOpen
  repeat' (first
    | with_reducible assumption
    | (with_reducible apply SpareSet.fault_kept)
    | (with_reducible apply State.almInject_kept)
    | (with_reducible apply State.buildStep_kept)
    | (with_reducible apply State.coelClock_kept)
    | (with_reducible apply State.countTcc_kept)
    | (with_reducible apply State.endStep_kept)
    | (with_reducible apply State.mapOp_kept)
    | (with_reducible apply Kept.ite)
    | (intro _)
    | (with_reducible apply Kept.foldl)
    | (with_reducible apply Kept.foldl_snd)
    | (with_reducible apply Kept.foldl_fst)
    | (with_reducible refine Kept.of_snd (by assumption) ?_)
    | (with_reducible refine Kept.of_snd2 (by assumption) ?_)
    | (with_reducible refine Kept.of_snd3 (by assumption) ?_)
    | (with_reducible refine Kept.of_fst (by assumption) ?_)
    | (with_reducible refine Kept.of_fst2 (by assumption) ?_)
    | (simp only [Kept.update_iff])
    | (simp only [Kept.tables_iff]; apply KeptTables.intro <;> first | with_reducible assumption | with_reducible refine Kept.of_snd (by assumption) ?_ | with_reducible refine Kept.of_snd2 (by assumption) ?_ | with_reducible refine Kept.of_snd3 (by assumption) ?_ | with_reducible refine Kept.of_fst (by assumption) ?_ | with_reducible refine Kept.of_fst2 (by assumption) ?_ | exact id | exact fun _ => rfl | (intro hw; first | exact Sparse.wf_set _ _ _ hw | exact Sparse.wf_restrict _ _ hw | exact Sparse.wf_filter _ _ hw))
    | split)

theorem effStep_kept {s₀ : State} (sq : Nat) (s : State) (h : Kept s₀ s) :
    Kept s₀ (effStep sq s) := by
  unfold effStep
  repeat' (first
    | with_reducible assumption
    | (with_reducible apply State.coelClock_kept)
    | (with_reducible apply State.finish_kept)
    | (with_reducible apply State.setJob_kept)
    | (with_reducible apply State.start_kept)
    | (with_reducible apply Kept.ite)
    | (intro _)
    | (with_reducible refine Kept.of_snd (by assumption) ?_)
    | (with_reducible refine Kept.of_snd2 (by assumption) ?_)
    | (with_reducible refine Kept.of_snd3 (by assumption) ?_)
    | (with_reducible refine Kept.of_fst (by assumption) ?_)
    | (with_reducible refine Kept.of_fst2 (by assumption) ?_)
    | (simp only [Kept.update_iff])
    | (simp only [Kept.tables_iff]; apply KeptTables.intro <;> first | with_reducible assumption | with_reducible refine Kept.of_snd (by assumption) ?_ | with_reducible refine Kept.of_snd2 (by assumption) ?_ | with_reducible refine Kept.of_snd3 (by assumption) ?_ | with_reducible refine Kept.of_fst (by assumption) ?_ | with_reducible refine Kept.of_fst2 (by assumption) ?_ | exact id | exact fun _ => rfl | (intro hw; first | exact Sparse.wf_set _ _ _ hw | exact Sparse.wf_restrict _ _ hw | exact Sparse.wf_filter _ _ hw))
    | split)

theorem effStepRelease_kept {s₀ : State} (s : State) (h : Kept s₀ s) :
    Kept s₀ (effStepRelease s) := by
  unfold effStepRelease
  repeat' (first
    | with_reducible assumption
    | (with_reducible apply State.coelDirty_kept)
    | (with_reducible apply State.doorbell_kept)
    | (with_reducible apply State.gate_kept)
    | (with_reducible apply State.setFlag_kept)
    | (with_reducible apply State.setJob_kept)
    | (with_reducible apply Kept.ite)
    | (intro _)
    | (with_reducible apply Kept.foldl)
    | (with_reducible apply Kept.foldl_snd)
    | (with_reducible apply Kept.foldl_fst)
    | (with_reducible refine Kept.of_snd (by assumption) ?_)
    | (with_reducible refine Kept.of_snd2 (by assumption) ?_)
    | (with_reducible refine Kept.of_snd3 (by assumption) ?_)
    | (with_reducible refine Kept.of_fst (by assumption) ?_)
    | (with_reducible refine Kept.of_fst2 (by assumption) ?_)
    | (simp only [Kept.update_iff])
    | (simp only [Kept.tables_iff]; apply KeptTables.intro <;> first | with_reducible assumption | with_reducible refine Kept.of_snd (by assumption) ?_ | with_reducible refine Kept.of_snd2 (by assumption) ?_ | with_reducible refine Kept.of_snd3 (by assumption) ?_ | with_reducible refine Kept.of_fst (by assumption) ?_ | with_reducible refine Kept.of_fst2 (by assumption) ?_ | exact id | exact fun _ => rfl | (intro hw; first | exact Sparse.wf_set _ _ _ hw | exact Sparse.wf_restrict _ _ hw | exact Sparse.wf_filter _ _ hw))
    | split)

theorem effStepClose_kept {s₀ : State} (sq : Nat) (s : State) (h : Kept s₀ s) :
    Kept s₀ (effStepClose sq s) := by
  unfold effStepClose
  repeat' (first
    | with_reducible assumption
    | (with_reducible apply State.finish_kept)
    | (with_reducible apply State.retireWaiting_kept)
    | (with_reducible apply State.setAlm_kept)
    | (with_reducible apply State.setFlag_kept)
    | (with_reducible apply State.setJob_kept)
    | (with_reducible apply State.showKvMode_kept)
    | (with_reducible apply Kept.ite)
    | (intro _)
    | (with_reducible apply Kept.foldl)
    | (with_reducible apply Kept.foldl_snd)
    | (with_reducible apply Kept.foldl_fst)
    | (with_reducible refine Kept.of_snd (by assumption) ?_)
    | (with_reducible refine Kept.of_snd2 (by assumption) ?_)
    | (with_reducible refine Kept.of_snd3 (by assumption) ?_)
    | (with_reducible refine Kept.of_fst (by assumption) ?_)
    | (with_reducible refine Kept.of_fst2 (by assumption) ?_)
    | (simp only [Kept.update_iff])
    | (simp only [Kept.tables_iff]; apply KeptTables.intro <;> first | with_reducible assumption | with_reducible refine Kept.of_snd (by assumption) ?_ | with_reducible refine Kept.of_snd2 (by assumption) ?_ | with_reducible refine Kept.of_snd3 (by assumption) ?_ | with_reducible refine Kept.of_fst (by assumption) ?_ | with_reducible refine Kept.of_fst2 (by assumption) ?_ | exact id | exact fun _ => rfl | (intro hw; first | exact Sparse.wf_set _ _ _ hw | exact Sparse.wf_restrict _ _ hw | exact Sparse.wf_filter _ _ hw))
    | split)

theorem effStepWcet_kept {s₀ : State} (sq : Nat) (s : State) (h : Kept s₀ s) :
    Kept s₀ (effStepWcet sq s) := by
  unfold effStepWcet
  repeat' (first
    | with_reducible assumption
    | (with_reducible apply State.count_kept)
    | (with_reducible apply State.injDone_kept)
    | (with_reducible apply State.raise_kept)
    | (with_reducible apply State.setJob_kept)
    | (with_reducible apply Kept.ite)
    | (intro _)
    | (with_reducible refine Kept.of_snd (by assumption) ?_)
    | (with_reducible refine Kept.of_snd2 (by assumption) ?_)
    | (with_reducible refine Kept.of_snd3 (by assumption) ?_)
    | (with_reducible refine Kept.of_fst (by assumption) ?_)
    | (with_reducible refine Kept.of_fst2 (by assumption) ?_)
    | (simp only [Kept.update_iff])
    | (simp only [Kept.tables_iff]; apply KeptTables.intro <;> first | with_reducible assumption | with_reducible refine Kept.of_snd (by assumption) ?_ | with_reducible refine Kept.of_snd2 (by assumption) ?_ | with_reducible refine Kept.of_snd3 (by assumption) ?_ | with_reducible refine Kept.of_fst (by assumption) ?_ | with_reducible refine Kept.of_fst2 (by assumption) ?_ | exact id | exact fun _ => rfl | (intro hw; first | exact Sparse.wf_set _ _ _ hw | exact Sparse.wf_restrict _ _ hw | exact Sparse.wf_filter _ _ hw))
    | split)

theorem effPreemptRequest_kept {s₀ : State} (sq : Nat) (s : State) (h : Kept s₀ s) :
    Kept s₀ (effPreemptRequest sq s) := by
  unfold effPreemptRequest
  repeat' (first
    | with_reducible assumption
    | (with_reducible apply State.count_kept)
    | (with_reducible apply State.setJob_kept)
    | (with_reducible apply Kept.ite)
    | (intro _)
    | (with_reducible refine Kept.of_snd (by assumption) ?_)
    | (with_reducible refine Kept.of_snd2 (by assumption) ?_)
    | (with_reducible refine Kept.of_snd3 (by assumption) ?_)
    | (with_reducible refine Kept.of_fst (by assumption) ?_)
    | (with_reducible refine Kept.of_fst2 (by assumption) ?_)
    | (simp only [Kept.update_iff])
    | (simp only [Kept.tables_iff]; apply KeptTables.intro <;> first | with_reducible assumption | with_reducible refine Kept.of_snd (by assumption) ?_ | with_reducible refine Kept.of_snd2 (by assumption) ?_ | with_reducible refine Kept.of_snd3 (by assumption) ?_ | with_reducible refine Kept.of_fst (by assumption) ?_ | with_reducible refine Kept.of_fst2 (by assumption) ?_ | exact id | exact fun _ => rfl | (intro hw; first | exact Sparse.wf_set _ _ _ hw | exact Sparse.wf_restrict _ _ hw | exact Sparse.wf_filter _ _ hw))
    | split)

theorem State.pauseRun_kept {s₀ : State} (s : State) (d : Nat) (h : Kept s₀ s) :
    Kept s₀ (State.pauseRun s d) := by
  unfold State.pauseRun
  repeat' (first
    | with_reducible assumption
    | (with_reducible apply State.setRun_kept)
    | (with_reducible apply State.showRun_kept)
    | (with_reducible apply Kept.ite)
    | (intro _)
    | (with_reducible refine Kept.of_snd (by assumption) ?_)
    | (with_reducible refine Kept.of_snd2 (by assumption) ?_)
    | (with_reducible refine Kept.of_snd3 (by assumption) ?_)
    | (with_reducible refine Kept.of_fst (by assumption) ?_)
    | (with_reducible refine Kept.of_fst2 (by assumption) ?_)
    | (simp only [Kept.update_iff])
    | (simp only [Kept.tables_iff]; apply KeptTables.intro <;> first | with_reducible assumption | with_reducible refine Kept.of_snd (by assumption) ?_ | with_reducible refine Kept.of_snd2 (by assumption) ?_ | with_reducible refine Kept.of_snd3 (by assumption) ?_ | with_reducible refine Kept.of_fst (by assumption) ?_ | with_reducible refine Kept.of_fst2 (by assumption) ?_ | exact id | exact fun _ => rfl | (intro hw; first | exact Sparse.wf_set _ _ _ hw | exact Sparse.wf_restrict _ _ hw | exact Sparse.wf_filter _ _ hw))
    | split)

theorem State.dropCredits_kept {s₀ : State} (s : State) (l q : Nat) (h : Kept s₀ s) :
    Kept s₀ (State.dropCredits s l q) := by
  unfold State.dropCredits
  repeat' (first
    | with_reducible assumption
    | (with_reducible apply State.setFld_kept)
    | (with_reducible apply Kept.ite)
    | (intro _)
    | (with_reducible refine Kept.of_snd (by assumption) ?_)
    | (with_reducible refine Kept.of_snd2 (by assumption) ?_)
    | (with_reducible refine Kept.of_snd3 (by assumption) ?_)
    | (with_reducible refine Kept.of_fst (by assumption) ?_)
    | (with_reducible refine Kept.of_fst2 (by assumption) ?_)
    | (simp only [Kept.update_iff]))

theorem State.dropJobCredits_kept {s₀ : State} (s : State) (r : JobRec) (h : Kept s₀ s) :
    Kept s₀ (State.dropJobCredits s r) := by
  unfold State.dropJobCredits
  repeat' (first
    | with_reducible assumption
    | (with_reducible apply State.dropCredits_kept)
    | (with_reducible apply Kept.ite)
    | (intro _)
    | (with_reducible apply Kept.foldl))

theorem effPreemptPoint_kept {s₀ : State} (sq : Nat) (s : State) (h : Kept s₀ s) :
    Kept s₀ (effPreemptPoint sq s) := by
  unfold effPreemptPoint
  repeat' (first
    | with_reducible assumption
    | (with_reducible apply State.dropJobCredits_kept)
    | (with_reducible apply State.pauseRun_kept)
    | (with_reducible apply State.setFlag_kept)
    | (with_reducible apply State.setJob_kept)
    | (with_reducible apply Kept.ite)
    | (intro _)
    | (with_reducible apply Kept.foldl)
    | (with_reducible apply Kept.foldl_snd)
    | (with_reducible apply Kept.foldl_fst)
    | (with_reducible refine Kept.of_snd (by assumption) ?_)
    | (with_reducible refine Kept.of_snd2 (by assumption) ?_)
    | (with_reducible refine Kept.of_snd3 (by assumption) ?_)
    | (with_reducible refine Kept.of_fst (by assumption) ?_)
    | (with_reducible refine Kept.of_fst2 (by assumption) ?_)
    | (simp only [Kept.update_iff])
    | (simp only [Kept.tables_iff]; apply KeptTables.intro <;> first | with_reducible assumption | with_reducible refine Kept.of_snd (by assumption) ?_ | with_reducible refine Kept.of_snd2 (by assumption) ?_ | with_reducible refine Kept.of_snd3 (by assumption) ?_ | with_reducible refine Kept.of_fst (by assumption) ?_ | with_reducible refine Kept.of_fst2 (by assumption) ?_ | exact id | exact fun _ => rfl | (intro hw; first | exact Sparse.wf_set _ _ _ hw | exact Sparse.wf_restrict _ _ hw | exact Sparse.wf_filter _ _ hw))
    | split)

theorem effSaveComplete_kept {s₀ : State} (sq d live : Nat) (s : State) (h : Kept s₀ s) :
    Kept s₀ (effSaveComplete sq d live s) := by
  unfold effSaveComplete
  repeat' (first
    | with_reducible assumption
    | (with_reducible apply State.dropJobCredits_kept)
    | (with_reducible apply State.scramble_kept)
    | (with_reducible apply State.setDome_kept)
    | (with_reducible apply State.setFlag_kept)
    | (with_reducible apply State.setJob_kept)
    | (with_reducible apply State.showRun_kept)
    | (with_reducible apply Kept.ite)
    | (intro _)
    | (with_reducible refine Kept.of_snd (by assumption) ?_)
    | (with_reducible refine Kept.of_snd2 (by assumption) ?_)
    | (with_reducible refine Kept.of_snd3 (by assumption) ?_)
    | (with_reducible refine Kept.of_fst (by assumption) ?_)
    | (with_reducible refine Kept.of_fst2 (by assumption) ?_)
    | (simp only [Kept.update_iff])
    | (simp only [Kept.tables_iff]; apply KeptTables.intro <;> first | with_reducible assumption | with_reducible refine Kept.of_snd (by assumption) ?_ | with_reducible refine Kept.of_snd2 (by assumption) ?_ | with_reducible refine Kept.of_snd3 (by assumption) ?_ | with_reducible refine Kept.of_fst (by assumption) ?_ | with_reducible refine Kept.of_fst2 (by assumption) ?_ | exact id | exact fun _ => rfl | (intro hw; first | exact Sparse.wf_set _ _ _ hw | exact Sparse.wf_restrict _ _ hw | exact Sparse.wf_filter _ _ hw))
    | split)

theorem effRestoreStart_kept {s₀ : State} (sq : Nat) (s : State) (h : Kept s₀ s) :
    Kept s₀ (effRestoreStart sq s) := by
  unfold effRestoreStart
  repeat' (first
    | with_reducible assumption
    | (with_reducible apply State.setJob_kept)
    | (with_reducible apply Kept.ite)
    | (intro _)
    | (with_reducible refine Kept.of_snd (by assumption) ?_)
    | (with_reducible refine Kept.of_snd2 (by assumption) ?_)
    | (with_reducible refine Kept.of_snd3 (by assumption) ?_)
    | (with_reducible refine Kept.of_fst (by assumption) ?_)
    | (with_reducible refine Kept.of_fst2 (by assumption) ?_)
    | (simp only [Kept.update_iff])
    | (simp only [Kept.tables_iff]; apply KeptTables.intro <;> first | with_reducible assumption | with_reducible refine Kept.of_snd (by assumption) ?_ | with_reducible refine Kept.of_snd2 (by assumption) ?_ | with_reducible refine Kept.of_snd3 (by assumption) ?_ | with_reducible refine Kept.of_fst (by assumption) ?_ | with_reducible refine Kept.of_fst2 (by assumption) ?_ | exact id | exact fun _ => rfl | (intro hw; first | exact Sparse.wf_set _ _ _ hw | exact Sparse.wf_restrict _ _ hw | exact Sparse.wf_filter _ _ hw))
    | split)

theorem State.endPreempt_kept {s₀ : State} (s : State) (sq : Nat) (j : Job) (p : Preempt) (h : Kept s₀ s) :
    Kept s₀ (State.endPreempt s sq j p) := by
  unfold State.endPreempt
  repeat' (first
    | with_reducible assumption
    | (with_reducible apply State.setFlag_kept)
    | (with_reducible apply State.setJob_kept))

theorem effRestoreComplete_kept {s₀ : State} (sq d : Nat) (s : State) (h : Kept s₀ s) :
    Kept s₀ (effRestoreComplete sq d s) := by
  unfold effRestoreComplete
  repeat' (first
    | with_reducible assumption
    | (with_reducible apply SpareSet.resume_kept)
    | (with_reducible apply State.endPreempt_kept)
    | (with_reducible apply State.setDome_kept)
    | (with_reducible apply State.setJob_kept)
    | (with_reducible apply State.showRun_kept)
    | (with_reducible apply Kept.ite)
    | (intro _)
    | (with_reducible refine Kept.of_snd (by assumption) ?_)
    | (with_reducible refine Kept.of_snd2 (by assumption) ?_)
    | (with_reducible refine Kept.of_snd3 (by assumption) ?_)
    | (with_reducible refine Kept.of_fst (by assumption) ?_)
    | (with_reducible refine Kept.of_fst2 (by assumption) ?_)
    | (simp only [Kept.update_iff])
    | (simp only [Kept.tables_iff]; apply KeptTables.intro <;> first | with_reducible assumption | with_reducible refine Kept.of_snd (by assumption) ?_ | with_reducible refine Kept.of_snd2 (by assumption) ?_ | with_reducible refine Kept.of_snd3 (by assumption) ?_ | with_reducible refine Kept.of_fst (by assumption) ?_ | with_reducible refine Kept.of_fst2 (by assumption) ?_ | exact id | exact fun _ => rfl | (intro hw; first | exact Sparse.wf_set _ _ _ hw | exact Sparse.wf_restrict _ _ hw | exact Sparse.wf_filter _ _ hw))
    | split)

theorem State.setSem_kept {s₀ : State} (s : State) (k : Nat) (m : Option Sem) (h : Kept s₀ s) :
    Kept s₀ (State.setSem s k m) := by
  unfold State.setSem
  repeat' (first
    | with_reducible assumption
    | (with_reducible apply State.setFlag_kept)
    | (with_reducible apply State.setFld_kept)
    | (with_reducible apply Kept.ite)
    | (intro _)
    | (with_reducible refine Kept.of_snd (by assumption) ?_)
    | (with_reducible refine Kept.of_snd2 (by assumption) ?_)
    | (with_reducible refine Kept.of_snd3 (by assumption) ?_)
    | (with_reducible refine Kept.of_fst (by assumption) ?_)
    | (with_reducible refine Kept.of_fst2 (by assumption) ?_)
    | (simp only [Kept.update_iff])
    | (simp only [Kept.tables_iff]; apply KeptTables.intro <;> first | with_reducible assumption | with_reducible refine Kept.of_snd (by assumption) ?_ | with_reducible refine Kept.of_snd2 (by assumption) ?_ | with_reducible refine Kept.of_snd3 (by assumption) ?_ | with_reducible refine Kept.of_fst (by assumption) ?_ | with_reducible refine Kept.of_fst2 (by assumption) ?_ | exact id | exact fun _ => rfl | (intro hw; first | exact Sparse.wf_set _ _ _ hw | exact Sparse.wf_restrict _ _ hw | exact Sparse.wf_filter _ _ hw))
    | split)

theorem State.semOver_kept {s₀ : State} (s : State) (job : Nat) (inj : Bool) (h : Kept s₀ s) :
    Kept s₀ (State.semOver s job inj) := by
  unfold State.semOver
  repeat' (first
    | with_reducible assumption
    | (with_reducible apply State.count_kept)
    | (with_reducible apply State.raise_kept))

theorem effSemWrite_kept {s₀ : State} (k : Nat) (t : Itag) (v : Word) (s : State) (h : Kept s₀ s) :
    Kept s₀ (effSemWrite k t v s) := by
  unfold effSemWrite
  repeat' (first
    | with_reducible assumption
    | (with_reducible apply State.cfgErr_kept)
    | (with_reducible apply State.injDone_kept)
    | (with_reducible apply State.semOver_kept)
    | (with_reducible apply State.setFlag_kept)
    | (with_reducible apply State.setSem_kept)
    | (with_reducible apply effPreemptRequest_kept)
    | (with_reducible apply Kept.ite)
    | (intro _)
    | (with_reducible refine Kept.of_snd (by assumption) ?_)
    | (with_reducible refine Kept.of_snd2 (by assumption) ?_)
    | (with_reducible refine Kept.of_snd3 (by assumption) ?_)
    | (with_reducible refine Kept.of_fst (by assumption) ?_)
    | (with_reducible refine Kept.of_fst2 (by assumption) ?_)
    | (simp only [Kept.update_iff])
    | (simp only [Kept.tables_iff]; apply KeptTables.intro <;> first | with_reducible assumption | with_reducible refine Kept.of_snd (by assumption) ?_ | with_reducible refine Kept.of_snd2 (by assumption) ?_ | with_reducible refine Kept.of_snd3 (by assumption) ?_ | with_reducible refine Kept.of_fst (by assumption) ?_ | with_reducible refine Kept.of_fst2 (by assumption) ?_ | exact id | exact fun _ => rfl | (intro hw; first | exact Sparse.wf_set _ _ _ hw | exact Sparse.wf_restrict _ _ hw | exact Sparse.wf_filter _ _ hw))
    | split)

theorem effSemOverrun_kept {s₀ : State} (k : Nat) (s : State) (h : Kept s₀ s) :
    Kept s₀ (effSemOverrun k s) := by
  unfold effSemOverrun
  repeat' (first
    | with_reducible assumption
    | (with_reducible apply State.semOver_kept)
    | (with_reducible apply State.setSem_kept)
    | (with_reducible apply Kept.ite)
    | (intro _)
    | (with_reducible refine Kept.of_snd (by assumption) ?_)
    | (with_reducible refine Kept.of_snd2 (by assumption) ?_)
    | (with_reducible refine Kept.of_snd3 (by assumption) ?_)
    | (with_reducible refine Kept.of_fst (by assumption) ?_)
    | (with_reducible refine Kept.of_fst2 (by assumption) ?_)
    | (simp only [Kept.update_iff])
    | (simp only [Kept.tables_iff]; apply KeptTables.intro <;> first | with_reducible assumption | with_reducible refine Kept.of_snd (by assumption) ?_ | with_reducible refine Kept.of_snd2 (by assumption) ?_ | with_reducible refine Kept.of_snd3 (by assumption) ?_ | with_reducible refine Kept.of_fst (by assumption) ?_ | with_reducible refine Kept.of_fst2 (by assumption) ?_ | exact id | exact fun _ => rfl | (intro hw; first | exact Sparse.wf_set _ _ _ hw | exact Sparse.wf_restrict _ _ hw | exact Sparse.wf_filter _ _ hw))
    | split)

theorem State.depotChanged_kept {s₀ : State} (s : State) (h : Kept s₀ s) :
    Kept s₀ (State.depotChanged s) := by
  unfold State.depotChanged
  repeat' (first
    | with_reducible assumption
    | (with_reducible apply State.setFlag_kept)
    | (with_reducible apply State.setJob_kept)
    | (with_reducible apply Kept.ite)
    | (intro _)
    | (with_reducible apply Kept.foldl))

theorem State.schedRead_kept {s₀ : State} (s : State) (page off : Nat) (h : Kept s₀ s) :
    Kept s₀ (State.schedRead s page off).2 := by
  unfold State.schedRead
  repeat' (first
    | with_reducible assumption
    | (with_reducible apply State.almInject_kept)
    | (with_reducible apply State.park_kept)
    | (with_reducible apply Kept.ite)
    | (intro _)
    | (with_reducible refine Kept.of_snd (by assumption) ?_)
    | (with_reducible refine Kept.of_snd2 (by assumption) ?_)
    | (with_reducible refine Kept.of_snd3 (by assumption) ?_)
    | (with_reducible refine Kept.of_fst (by assumption) ?_)
    | (with_reducible refine Kept.of_fst2 (by assumption) ?_)
    | (simp only [Kept.update_iff])
    | (simp only [Kept.tables_iff]; apply KeptTables.intro <;> first | with_reducible assumption | with_reducible refine Kept.of_snd (by assumption) ?_ | with_reducible refine Kept.of_snd2 (by assumption) ?_ | with_reducible refine Kept.of_snd3 (by assumption) ?_ | with_reducible refine Kept.of_fst (by assumption) ?_ | with_reducible refine Kept.of_fst2 (by assumption) ?_ | exact id | exact fun _ => rfl | (intro hw; first | exact Sparse.wf_set _ _ _ hw | exact Sparse.wf_restrict _ _ hw | exact Sparse.wf_filter _ _ hw))
    | split)

end Sys2Proof.Machine
end

