-- ==== Sys2Proof/Laws/KeptSolv.lean ====
section
/-! SUPPORT. What the operations of Machine/Solv.lean keep: the queue of commands, the timebase count and the canonical form of
every table. -/

set_option Elab.async false

set_option linter.tactic.unusedName false

namespace Sys2Proof.Machine

theorem State.setSolvCtx_kept {s₀ : State} (s : State) (key : Nat) (c : Option SolvCtx) (h : Kept s₀ s) :
    Kept s₀ (State.setSolvCtx s key c) := by
  unfold State.setSolvCtx
  repeat' (first
    | with_reducible assumption
    | (with_reducible apply Kept.ite)
    | (intro _)
    | (with_reducible refine Kept.of_snd (by assumption) ?_)
    | (with_reducible refine Kept.of_snd2 (by assumption) ?_)
    | (with_reducible refine Kept.of_snd3 (by assumption) ?_)
    | (with_reducible refine Kept.of_fst (by assumption) ?_)
    | (with_reducible refine Kept.of_fst2 (by assumption) ?_)
    | (simp only [Kept.update_iff]))

theorem State.solvPartial_kept {s₀ : State} (s : State) (key : Nat) (c : SolvCtx) (p : SolvProb) (o : SolvOut) (a : Nat) (h : Kept s₀ s) :
    Kept s₀ (State.solvPartial s key c p o a) := by
  unfold State.solvPartial
  repeat' (first
    | with_reducible assumption
    | (with_reducible apply State.draw_kept)
    | (with_reducible apply State.setSolvCtx_kept)
    | (with_reducible apply State.start_kept)
    | (with_reducible apply Kept.ite)
    | (intro _))

theorem State.freeBytes_kept {s₀ : State} (y0 : Nat) (y1 : State) (h : Kept s₀ y1) :
    Kept s₀ (State.freeBytes y0 y1).2 := by
  induction y0 generalizing y1 with
  | zero =>
    simp only [State.freeBytes]
    assumption
  | succ n ih =>
    simp only [State.freeBytes]
    repeat' (first
      | with_reducible assumption
      | (with_reducible apply_assumption))

theorem State.solvWrite_kept {s₀ : State} (s : State) (r : SolvRun) (lost : Bool) (x : Nat × SolvProb × SolvOut) (h : Kept s₀ s) :
    Kept s₀ (State.solvWrite s r lost x).2 := by
  unfold State.solvWrite
  repeat' (first
    | with_reducible assumption
    | (with_reducible apply State.draw_kept)
    | (with_reducible apply State.freeBytes_kept)
    | (with_reducible apply State.txWrite_kept)
    | (with_reducible apply Kept.ite)
    | (intro _)
    | (with_reducible refine Kept.of_snd (by assumption) ?_)
    | (with_reducible refine Kept.of_snd2 (by assumption) ?_)
    | (with_reducible refine Kept.of_snd3 (by assumption) ?_)
    | (with_reducible refine Kept.of_fst (by assumption) ?_)
    | (with_reducible refine Kept.of_fst2 (by assumption) ?_)
    | (simp only [Kept.update_iff])
    | (simp only [Kept.tables_iff]; apply KeptTables.intro <;> first | with_reducible assumption | with_reducible refine Kept.of_snd (by assumption) ?_ | with_reducible refine Kept.of_snd2 (by assumption) ?_ | with_reducible refine Kept.of_snd3 (by assumption) ?_ | with_reducible refine Kept.of_fst (by assumption) ?_ | with_reducible refine Kept.of_fst2 (by assumption) ?_ | exact id | exact fun _ => rfl | (intro hw; first | exact Sparse.wf_set _ _ _ hw | exact Sparse.wf_restrict _ _ hw | exact Sparse.wf_filter _ _ hw))
    | split)

theorem State.solvWrites_kept {s₀ : State} (r : SolvRun) (lost : Bool) (y0 : List (Nat × SolvProb × SolvOut)) (y1 : State) (h : Kept s₀ y1) :
    Kept s₀ (State.solvWrites r lost y0 y1).2 := by
  induction y0 generalizing y1 with
  | nil =>
    simp only [State.solvWrites]
    assumption
  | cons a rest ih =>
    simp only [State.solvWrites]
    repeat' (first
      | with_reducible assumption
      | (with_reducible apply ih)
      | (with_reducible apply State.solvWrite_kept)
      | (with_reducible apply Kept.ite)
      | (intro _)
      | (with_reducible refine Kept.of_snd (by assumption) ?_)
      | (with_reducible refine Kept.of_snd2 (by assumption) ?_)
      | (with_reducible refine Kept.of_snd3 (by assumption) ?_)
      | (with_reducible refine Kept.of_fst (by assumption) ?_)
      | (with_reducible refine Kept.of_fst2 (by assumption) ?_)
      | (simp only [Kept.update_iff])
      | (simp only [Kept.tables_iff]; apply KeptTables.intro <;> first | with_reducible assumption | with_reducible refine Kept.of_snd (by assumption) ?_ | with_reducible refine Kept.of_snd2 (by assumption) ?_ | with_reducible refine Kept.of_snd3 (by assumption) ?_ | with_reducible refine Kept.of_fst (by assumption) ?_ | with_reducible refine Kept.of_fst2 (by assumption) ?_ | exact id | exact fun _ => rfl | (intro hw; first | exact Sparse.wf_set _ _ _ hw | exact Sparse.wf_restrict _ _ hw | exact Sparse.wf_filter _ _ hw))
      | split
      | (apply Kept.ite)
      | (dsimp only))

theorem State.solvGiveUp_kept {s₀ : State} (s : State) (r : SolvRun) (a st : Nat) (h : Kept s₀ s) :
    Kept s₀ (State.solvGiveUp s r a st) := by
  unfold State.solvGiveUp
  repeat' (first
    | with_reducible assumption
    | (with_reducible apply State.addSat_kept)
    | (with_reducible apply State.count_kept)
    | (with_reducible apply State.finish_kept)
    | (with_reducible apply State.mapOp_kept)
    | (with_reducible apply State.raise_kept)
    | (with_reducible apply State.setFlag_kept)
    | (with_reducible apply State.solvPartial_kept)
    | (with_reducible apply State.solvWrites_kept)
    | (with_reducible apply State.wr_kept)
    | (with_reducible apply Kept.ite)
    | (intro _)
    | (with_reducible apply Kept.foldl)
    | (with_reducible apply Kept.foldl_snd)
    | (with_reducible apply Kept.foldl_fst)
    | (with_reducible refine Kept.of_snd (by assumption) ?_)
    | (with_reducible refine Kept.of_snd2 (by assumption) ?_)
    | (with_reducible refine Kept.of_snd3 (by assumption) ?_)
    | (with_reducible refine Kept.of_fst (by assumption) ?_)
    | (with_reducible refine Kept.of_fst2 (by assumption) ?_)
    | (simp only [Kept.update_iff])
    | (simp only [Kept.tables_iff]; apply KeptTables.intro <;> first | with_reducible assumption | with_reducible refine Kept.of_snd (by assumption) ?_ | with_reducible refine Kept.of_snd2 (by assumption) ?_ | with_reducible refine Kept.of_snd3 (by assumption) ?_ | with_reducible refine Kept.of_fst (by assumption) ?_ | with_reducible refine Kept.of_fst2 (by assumption) ?_ | exact id | exact fun _ => rfl | (intro hw; first | exact Sparse.wf_set _ _ _ hw | exact Sparse.wf_restrict _ _ hw | exact Sparse.wf_filter _ _ hw))
    | split)

theorem State.solvCommit_kept {s₀ : State} (s : State) (r : SolvRun) (h : Kept s₀ s) :
    Kept s₀ (State.solvCommit s r) := by
  unfold State.solvCommit
  repeat' (first
    | with_reducible assumption
    | (with_reducible apply State.addSat_kept)
    | (with_reducible apply State.count_kept)
    | (with_reducible apply State.finish_kept)
    | (with_reducible apply State.flushItag_kept)
    | (with_reducible apply State.mapOp_kept)
    | (with_reducible apply State.setFlag_kept)
    | (with_reducible apply State.setSolvCtx_kept)
    | (with_reducible apply State.solvWrites_kept)
    | (with_reducible apply State.wr_kept)
    | (with_reducible apply Kept.ite)
    | (intro _)
    | (with_reducible apply Kept.foldl)
    | (with_reducible apply Kept.foldl_snd)
    | (with_reducible apply Kept.foldl_fst)
    | (with_reducible refine Kept.of_snd (by assumption) ?_)
    | (with_reducible refine Kept.of_snd2 (by assumption) ?_)
    | (with_reducible refine Kept.of_snd3 (by assumption) ?_)
    | (with_reducible refine Kept.of_fst (by assumption) ?_)
    | (with_reducible refine Kept.of_fst2 (by assumption) ?_)
    | (simp only [Kept.update_iff])
    | (simp only [Kept.tables_iff]; apply KeptTables.intro <;> first | with_reducible assumption | with_reducible refine Kept.of_snd (by assumption) ?_ | with_reducible refine Kept.of_snd2 (by assumption) ?_ | with_reducible refine Kept.of_snd3 (by assumption) ?_ | with_reducible refine Kept.of_fst (by assumption) ?_ | with_reducible refine Kept.of_fst2 (by assumption) ?_ | exact id | exact fun _ => rfl | (intro hw; first | exact Sparse.wf_set _ _ _ hw | exact Sparse.wf_restrict _ _ hw | exact Sparse.wf_filter _ _ hw))
    | split)

theorem State.setSolvRun_kept {s₀ : State} (s : State) (r : SolvRun) (h : Kept s₀ s) :
    Kept s₀ (State.setSolvRun s r) := by
  unfold State.setSolvRun
  repeat' (first
    | with_reducible assumption
    | (with_reducible apply Kept.ite)
    | (intro _)
    | (with_reducible refine Kept.of_snd (by assumption) ?_)
    | (with_reducible refine Kept.of_snd2 (by assumption) ?_)
    | (with_reducible refine Kept.of_snd3 (by assumption) ?_)
    | (with_reducible refine Kept.of_fst (by assumption) ?_)
    | (with_reducible refine Kept.of_fst2 (by assumption) ?_)
    | (simp only [Kept.update_iff]))

theorem State.solvCut_kept {s₀ : State} (s : State) (h : Kept s₀ s) :
    Kept s₀ (State.solvCut s) := by
  unfold State.solvCut
  repeat' (first
    | with_reducible assumption
    | (with_reducible apply State.setSolvRun_kept)
    | (with_reducible apply State.start_kept)
    | (with_reducible apply Kept.ite)
    | (intro _)
    | (with_reducible refine Kept.of_snd (by assumption) ?_)
    | (with_reducible refine Kept.of_snd2 (by assumption) ?_)
    | (with_reducible refine Kept.of_snd3 (by assumption) ?_)
    | (with_reducible refine Kept.of_fst (by assumption) ?_)
    | (with_reducible refine Kept.of_fst2 (by assumption) ?_)
    | (simp only [Kept.update_iff])
    | (simp only [Kept.tables_iff]; apply KeptTables.intro <;> first | with_reducible assumption | with_reducible refine Kept.of_snd (by assumption) ?_ | with_reducible refine Kept.of_snd2 (by assumption) ?_ | with_reducible refine Kept.of_snd3 (by assumption) ?_ | with_reducible refine Kept.of_fst (by assumption) ?_ | with_reducible refine Kept.of_fst2 (by assumption) ?_ | exact id | exact fun _ => rfl | (intro hw; first | exact Sparse.wf_set _ _ _ hw | exact Sparse.wf_restrict _ _ hw | exact Sparse.wf_filter _ _ hw))
    | split)

theorem State.solvDue_kept {s₀ : State} (s : State) (h : Kept s₀ s) :
    Kept s₀ (State.solvDue s) := by
  unfold State.solvDue
  repeat' (first
    | with_reducible assumption
    | (with_reducible apply State.mapOp_kept)
    | (with_reducible apply State.start_kept)
    | (with_reducible apply Kept.ite)
    | (intro _)
    | (with_reducible refine Kept.of_snd (by assumption) ?_)
    | (with_reducible refine Kept.of_snd2 (by assumption) ?_)
    | (with_reducible refine Kept.of_snd3 (by assumption) ?_)
    | (with_reducible refine Kept.of_fst (by assumption) ?_)
    | (with_reducible refine Kept.of_fst2 (by assumption) ?_)
    | (simp only [Kept.update_iff])
    | (simp only [Kept.tables_iff]; apply KeptTables.intro <;> first | with_reducible assumption | with_reducible refine Kept.of_snd (by assumption) ?_ | with_reducible refine Kept.of_snd2 (by assumption) ?_ | with_reducible refine Kept.of_snd3 (by assumption) ?_ | with_reducible refine Kept.of_fst (by assumption) ?_ | with_reducible refine Kept.of_fst2 (by assumption) ?_ | exact id | exact fun _ => rfl | (intro hw; first | exact Sparse.wf_set _ _ _ hw | exact Sparse.wf_restrict _ _ hw | exact Sparse.wf_filter _ _ hw))
    | split)

theorem State.solveComplete_kept {s₀ : State} (s : State) (h : Kept s₀ s) :
    Kept s₀ (State.solveComplete s) := by
  unfold State.solveComplete
  repeat' (first
    | with_reducible assumption
    | (with_reducible apply State.solvCommit_kept)
    | (with_reducible apply State.solvGiveUp_kept)
    | (with_reducible apply Kept.ite)
    | (intro _)
    | (with_reducible refine Kept.of_snd (by assumption) ?_)
    | (with_reducible refine Kept.of_snd2 (by assumption) ?_)
    | (with_reducible refine Kept.of_snd3 (by assumption) ?_)
    | (with_reducible refine Kept.of_fst (by assumption) ?_)
    | (with_reducible refine Kept.of_fst2 (by assumption) ?_)
    | (simp only [Kept.update_iff])
    | (simp only [Kept.tables_iff]; apply KeptTables.intro <;> first | with_reducible assumption | with_reducible refine Kept.of_snd (by assumption) ?_ | with_reducible refine Kept.of_snd2 (by assumption) ?_ | with_reducible refine Kept.of_snd3 (by assumption) ?_ | with_reducible refine Kept.of_fst (by assumption) ?_ | with_reducible refine Kept.of_fst2 (by assumption) ?_ | exact id | exact fun _ => rfl | (intro hw; first | exact Sparse.wf_set _ _ _ hw | exact Sparse.wf_restrict _ _ hw | exact Sparse.wf_filter _ _ hw))
    | split)

theorem State.solvStart_kept {s₀ : State} (s : State) (q : Nat) (o : Op) (h : Kept s₀ s) :
    Kept s₀ (State.solvStart s q o) := by
  unfold State.solvStart
  repeat' (first
    | with_reducible assumption
    | (with_reducible apply State.countTcc_kept)
    | (with_reducible apply State.mapOp_kept)
    | (with_reducible apply State.start_kept)
    | (with_reducible apply Kept.ite)
    | (intro _))

theorem effSolvLoad_kept {s₀ : State} (q : Nat) (s : State) (h : Kept s₀ s) :
    Kept s₀ (effSolvLoad q s) := by
  unfold effSolvLoad
  repeat' (first
    | with_reducible assumption
    | (with_reducible apply State.conclude_kept)
    | (with_reducible apply State.flushItag_kept)
    | (with_reducible apply State.setSolvCtx_kept)
    | (with_reducible apply State.solvStart_kept)
    | (with_reducible apply State.txRead_kept)
    | (with_reducible apply Kept.ite)
    | (intro _)
    | (with_reducible refine Kept.of_snd (by assumption) ?_)
    | (with_reducible refine Kept.of_snd2 (by assumption) ?_)
    | (with_reducible refine Kept.of_snd3 (by assumption) ?_)
    | (with_reducible refine Kept.of_fst (by assumption) ?_)
    | (with_reducible refine Kept.of_fst2 (by assumption) ?_)
    | (simp only [Kept.update_iff])
    | (simp only [Kept.tables_iff]; apply KeptTables.intro <;> first | with_reducible assumption | with_reducible refine Kept.of_snd (by assumption) ?_ | with_reducible refine Kept.of_snd2 (by assumption) ?_ | with_reducible refine Kept.of_snd3 (by assumption) ?_ | with_reducible refine Kept.of_fst (by assumption) ?_ | with_reducible refine Kept.of_fst2 (by assumption) ?_ | exact id | exact fun _ => rfl | (intro hw; first | exact Sparse.wf_set _ _ _ hw | exact Sparse.wf_restrict _ _ hw | exact Sparse.wf_filter _ _ hw))
    | split)

theorem effSolvFree_kept {s₀ : State} (q : Nat) (s : State) (h : Kept s₀ s) :
    Kept s₀ (effSolvFree q s) := by
  unfold effSolvFree
  repeat' (first
    | with_reducible assumption
    | (with_reducible apply State.conclude_kept)
    | (with_reducible apply State.setSolvCtx_kept)
    | (with_reducible apply State.solvStart_kept)
    | (with_reducible apply Kept.ite)
    | (intro _)
    | (with_reducible refine Kept.of_snd (by assumption) ?_)
    | (with_reducible refine Kept.of_snd2 (by assumption) ?_)
    | (with_reducible refine Kept.of_snd3 (by assumption) ?_)
    | (with_reducible refine Kept.of_fst (by assumption) ?_)
    | (with_reducible refine Kept.of_fst2 (by assumption) ?_)
    | (simp only [Kept.update_iff])
    | (simp only [Kept.tables_iff]; apply KeptTables.intro <;> first | with_reducible assumption | with_reducible refine Kept.of_snd (by assumption) ?_ | with_reducible refine Kept.of_snd2 (by assumption) ?_ | with_reducible refine Kept.of_snd3 (by assumption) ?_ | with_reducible refine Kept.of_fst (by assumption) ?_ | with_reducible refine Kept.of_fst2 (by assumption) ?_ | exact id | exact fun _ => rfl | (intro hw; first | exact Sparse.wf_set _ _ _ hw | exact Sparse.wf_restrict _ _ hw | exact Sparse.wf_filter _ _ hw))
    | split)

theorem State.readDeltas_kept {s₀ : State} (useRef : Bool) (viol : Nat × Nat × Nat) (y0 : List SolvProb) (y1 : State) (h : Kept s₀ y1) :
    Kept s₀ (State.readDeltas useRef viol y0 y1).2.2 := by
  induction y0 generalizing y1 with
  | nil =>
    simp only [State.readDeltas]
    assumption
  | cons a rest ih =>
    simp only [State.readDeltas]
    repeat' (first
      | with_reducible assumption
      | (with_reducible apply ih)
      | (with_reducible apply State.count_kept)
      | (with_reducible apply State.txRead_kept)
      | (with_reducible apply Kept.ite)
      | (intro _)
      | (with_reducible refine Kept.of_snd (by assumption) ?_)
      | (with_reducible refine Kept.of_snd2 (by assumption) ?_)
      | (with_reducible refine Kept.of_snd3 (by assumption) ?_)
      | (with_reducible refine Kept.of_fst (by assumption) ?_)
      | (with_reducible refine Kept.of_fst2 (by assumption) ?_)
      | (simp only [Kept.update_iff])
      | (simp only [Kept.tables_iff]; apply KeptTables.intro <;> first | with_reducible assumption | with_reducible refine Kept.of_snd (by assumption) ?_ | with_reducible refine Kept.of_snd2 (by assumption) ?_ | with_reducible refine Kept.of_snd3 (by assumption) ?_ | with_reducible refine Kept.of_fst (by assumption) ?_ | with_reducible refine Kept.of_fst2 (by assumption) ?_ | exact id | exact fun _ => rfl | (intro hw; first | exact Sparse.wf_set _ _ _ hw | exact Sparse.wf_restrict _ _ hw | exact Sparse.wf_filter _ _ hw))
      | split
      | (apply Kept.ite)
      | (dsimp only))

theorem State.solvStoreInj_kept {s₀ : State} (s : State) (r : SolvRun) (h : Kept s₀ s) :
    Kept s₀ (State.solvStoreInj s r).2 := by
  unfold State.solvStoreInj
  repeat' (first
    | with_reducible assumption
    | (with_reducible apply State.count_kept)
    | (with_reducible apply State.injDone_kept)
    | (with_reducible apply State.raise_kept)
    | (with_reducible apply State.setSolvCtx_kept)
    | (with_reducible apply Kept.ite)
    | (intro _)
    | (with_reducible refine Kept.of_snd (by assumption) ?_)
    | (with_reducible refine Kept.of_snd2 (by assumption) ?_)
    | (with_reducible refine Kept.of_snd3 (by assumption) ?_)
    | (with_reducible refine Kept.of_fst (by assumption) ?_)
    | (with_reducible refine Kept.of_fst2 (by assumption) ?_)
    | (simp only [Kept.update_iff])
    | (simp only [Kept.tables_iff]; apply KeptTables.intro <;> first | with_reducible assumption | with_reducible refine Kept.of_snd (by assumption) ?_ | with_reducible refine Kept.of_snd2 (by assumption) ?_ | with_reducible refine Kept.of_snd3 (by assumption) ?_ | with_reducible refine Kept.of_fst (by assumption) ?_ | with_reducible refine Kept.of_fst2 (by assumption) ?_ | exact id | exact fun _ => rfl | (intro hw; first | exact Sparse.wf_set _ _ _ hw | exact Sparse.wf_restrict _ _ hw | exact Sparse.wf_filter _ _ hw))
    | split)

theorem State.laneFault_kept {s₀ : State} (s : State) (lane cyc : Nat) (inj : Bool) (h : Kept s₀ s) :
    Kept s₀ (State.laneFault s lane cyc inj) := by
  unfold State.laneFault
  repeat' (first
    | with_reducible assumption
    | (with_reducible apply SpareSet.fault_kept)
    | (with_reducible apply SpareSet.setAvail_kept)
    | (with_reducible apply SpareSet.setSt_kept)
    | (with_reducible apply State.count_kept)
    | (with_reducible apply State.postCause_kept)
    | (with_reducible apply State.raise_kept)
    | (with_reducible apply State.setFlag_kept)
    | (with_reducible apply State.setSolvRun_kept)
    | (with_reducible apply State.solvDue_kept)
    | (with_reducible apply State.solvGiveUp_kept)
    | (with_reducible apply State.start_kept)
    | (with_reducible apply Kept.ite)
    | (intro _)
    | (with_reducible refine Kept.of_snd (by assumption) ?_)
    | (with_reducible refine Kept.of_snd2 (by assumption) ?_)
    | (with_reducible refine Kept.of_snd3 (by assumption) ?_)
    | (with_reducible refine Kept.of_fst (by assumption) ?_)
    | (with_reducible refine Kept.of_fst2 (by assumption) ?_)
    | (simp only [Kept.update_iff])
    | (simp only [Kept.tables_iff]; apply KeptTables.intro <;> first | with_reducible assumption | with_reducible refine Kept.of_snd (by assumption) ?_ | with_reducible refine Kept.of_snd2 (by assumption) ?_ | with_reducible refine Kept.of_snd3 (by assumption) ?_ | with_reducible refine Kept.of_fst (by assumption) ?_ | with_reducible refine Kept.of_fst2 (by assumption) ?_ | exact id | exact fun _ => rfl | (intro hw; first | exact Sparse.wf_set _ _ _ hw | exact Sparse.wf_restrict _ _ hw | exact Sparse.wf_filter _ _ hw))
    | split)

theorem State.solveStart_kept {s₀ : State} (s : State) (q : Nat) (o : Op) (h : Kept s₀ s) :
    Kept s₀ (State.solveStart s q o) := by
  unfold State.solveStart
  repeat' (first
    | with_reducible assumption
    | (with_reducible apply State.conclude_kept)
    | (with_reducible apply State.countTcc_kept)
    | (with_reducible apply State.flushItag_kept)
    | (with_reducible apply State.injDone_kept)
    | (with_reducible apply State.laneFault_kept)
    | (with_reducible apply State.readDeltas_kept)
    | (with_reducible apply State.setFlag_kept)
    | (with_reducible apply State.setSolvRun_kept)
    | (with_reducible apply State.solvCut_kept)
    | (with_reducible apply State.solvDue_kept)
    | (with_reducible apply State.solvGiveUp_kept)
    | (with_reducible apply State.solvStart_kept)
    | (with_reducible apply State.solvStoreInj_kept)
    | (with_reducible apply State.start_kept)
    | (with_reducible apply State.txRead_kept)
    | (with_reducible apply Kept.ite)
    | (intro _)
    | (with_reducible refine Kept.of_snd (by assumption) ?_)
    | (with_reducible refine Kept.of_snd2 (by assumption) ?_)
    | (with_reducible refine Kept.of_snd3 (by assumption) ?_)
    | (with_reducible refine Kept.of_fst (by assumption) ?_)
    | (with_reducible refine Kept.of_fst2 (by assumption) ?_)
    | (simp only [Kept.update_iff])
    | (simp only [Kept.tables_iff]; apply KeptTables.intro <;> first | with_reducible assumption | with_reducible refine Kept.of_snd (by assumption) ?_ | with_reducible refine Kept.of_snd2 (by assumption) ?_ | with_reducible refine Kept.of_snd3 (by assumption) ?_ | with_reducible refine Kept.of_fst (by assumption) ?_ | with_reducible refine Kept.of_fst2 (by assumption) ?_ | exact id | exact fun _ => rfl | (intro hw; first | exact Sparse.wf_set _ _ _ hw | exact Sparse.wf_restrict _ _ hw | exact Sparse.wf_filter _ _ hw))
    | split)

theorem effSolve_kept {s₀ : State} (q : Nat) (s : State) (h : Kept s₀ s) :
    Kept s₀ (effSolve q s) := by
  unfold effSolve
  repeat' (first
    | with_reducible assumption
    | (with_reducible apply State.solveStart_kept)
    | (with_reducible apply Kept.ite)
    | (intro _)
    | (with_reducible refine Kept.of_snd (by assumption) ?_)
    | (with_reducible refine Kept.of_snd2 (by assumption) ?_)
    | (with_reducible refine Kept.of_snd3 (by assumption) ?_)
    | (with_reducible refine Kept.of_fst (by assumption) ?_)
    | (with_reducible refine Kept.of_fst2 (by assumption) ?_)
    | (simp only [Kept.update_iff])
    | (simp only [Kept.tables_iff]; apply KeptTables.intro <;> first | with_reducible assumption | with_reducible refine Kept.of_snd (by assumption) ?_ | with_reducible refine Kept.of_snd2 (by assumption) ?_ | with_reducible refine Kept.of_snd3 (by assumption) ?_ | with_reducible refine Kept.of_fst (by assumption) ?_ | with_reducible refine Kept.of_fst2 (by assumption) ?_ | exact id | exact fun _ => rfl | (intro hw; first | exact Sparse.wf_set _ _ _ hw | exact Sparse.wf_restrict _ _ hw | exact Sparse.wf_filter _ _ hw))
    | split)

theorem effSolveRefReady_kept {s₀ : State} (q : Nat) (s : State) (h : Kept s₀ s) :
    Kept s₀ (effSolveRefReady q s) := by
  unfold effSolveRefReady
  repeat' (first
    | with_reducible assumption
    | (with_reducible apply State.solveStart_kept)
    | (with_reducible apply Kept.ite)
    | (intro _)
    | (with_reducible refine Kept.of_snd (by assumption) ?_)
    | (with_reducible refine Kept.of_snd2 (by assumption) ?_)
    | (with_reducible refine Kept.of_snd3 (by assumption) ?_)
    | (with_reducible refine Kept.of_fst (by assumption) ?_)
    | (with_reducible refine Kept.of_fst2 (by assumption) ?_)
    | (simp only [Kept.update_iff])
    | (simp only [Kept.tables_iff]; apply KeptTables.intro <;> first | with_reducible assumption | with_reducible refine Kept.of_snd (by assumption) ?_ | with_reducible refine Kept.of_snd2 (by assumption) ?_ | with_reducible refine Kept.of_snd3 (by assumption) ?_ | with_reducible refine Kept.of_fst (by assumption) ?_ | with_reducible refine Kept.of_fst2 (by assumption) ?_ | exact id | exact fun _ => rfl | (intro hw; first | exact Sparse.wf_set _ _ _ hw | exact Sparse.wf_restrict _ _ hw | exact Sparse.wf_filter _ _ hw))
    | split)

theorem effSolveDeadline_kept {s₀ : State} (s : State) (h : Kept s₀ s) :
    Kept s₀ (effSolveDeadline s) := by
  unfold effSolveDeadline
  repeat' (first
    | with_reducible assumption
    | (with_reducible apply State.solvCut_kept)
    | (with_reducible apply State.solvDue_kept))

theorem effSolveWcet_kept {s₀ : State} (s : State) (h : Kept s₀ s) :
    Kept s₀ (effSolveWcet s) := by
  unfold effSolveWcet
  repeat' (first
    | with_reducible assumption
    | (with_reducible apply State.solvCut_kept)
    | (with_reducible apply State.solvGiveUp_kept)
    | (with_reducible apply State.start_kept)
    | (with_reducible apply Kept.ite)
    | (intro _)
    | (with_reducible refine Kept.of_snd (by assumption) ?_)
    | (with_reducible refine Kept.of_snd2 (by assumption) ?_)
    | (with_reducible refine Kept.of_snd3 (by assumption) ?_)
    | (with_reducible refine Kept.of_fst (by assumption) ?_)
    | (with_reducible refine Kept.of_fst2 (by assumption) ?_)
    | (simp only [Kept.update_iff])
    | (simp only [Kept.tables_iff]; apply KeptTables.intro <;> first | with_reducible assumption | with_reducible refine Kept.of_snd (by assumption) ?_ | with_reducible refine Kept.of_snd2 (by assumption) ?_ | with_reducible refine Kept.of_snd3 (by assumption) ?_ | with_reducible refine Kept.of_fst (by assumption) ?_ | with_reducible refine Kept.of_fst2 (by assumption) ?_ | exact id | exact fun _ => rfl | (intro hw; first | exact Sparse.wf_set _ _ _ hw | exact Sparse.wf_restrict _ _ hw | exact Sparse.wf_filter _ _ hw))
    | split)

theorem effLaneFault_kept {s₀ : State} (lane : Nat) (s : State) (h : Kept s₀ s) :
    Kept s₀ (effLaneFault lane s) := by
  unfold effLaneFault
  repeat' (first
    | with_reducible assumption
    | (with_reducible apply State.laneFault_kept)
    | (with_reducible apply State.solvCut_kept))

theorem State.dropDeadSolve_kept {s₀ : State} (s : State) (h : Kept s₀ s) :
    Kept s₀ (State.dropDeadSolve s) := by
  unfold State.dropDeadSolve
  repeat' (first
    | with_reducible assumption
    | (with_reducible apply State.setFlag_kept)
    | (with_reducible apply State.solvGiveUp_kept)
    | (with_reducible apply Kept.ite)
    | (intro _)
    | (with_reducible refine Kept.of_snd (by assumption) ?_)
    | (with_reducible refine Kept.of_snd2 (by assumption) ?_)
    | (with_reducible refine Kept.of_snd3 (by assumption) ?_)
    | (with_reducible refine Kept.of_fst (by assumption) ?_)
    | (with_reducible refine Kept.of_fst2 (by assumption) ?_)
    | (simp only [Kept.update_iff])
    | (simp only [Kept.tables_iff]; apply KeptTables.intro <;> first | with_reducible assumption | with_reducible refine Kept.of_snd (by assumption) ?_ | with_reducible refine Kept.of_snd2 (by assumption) ?_ | with_reducible refine Kept.of_snd3 (by assumption) ?_ | with_reducible refine Kept.of_fst (by assumption) ?_ | with_reducible refine Kept.of_fst2 (by assumption) ?_ | exact id | exact fun _ => rfl | (intro hw; first | exact Sparse.wf_set _ _ _ hw | exact Sparse.wf_restrict _ _ hw | exact Sparse.wf_filter _ _ hw))
    | split)

end Sys2Proof.Machine
end

