-- ==== Sys2Proof/Laws/KeptDrive.lean ====
section
/-! SUPPORT. What the operations of Machine/Drive.lean keep: the queue of commands, the timebase count and the canonical form of
every table. -/

set_option Elab.async false

set_option linter.tactic.unusedName false

namespace Sys2Proof.Machine

theorem State.sramWrite_kept {s₀ : State} (s : State) (off : Nat) (bs : List Byte) (h : Kept s₀ s) :
    Kept s₀ (State.sramWrite s off bs) := by
  unfold State.sramWrite
  repeat' (first
    | with_reducible assumption
    | (with_reducible apply State.heal_kept)
    | (with_reducible apply State.writeKey_kept)
    | (with_reducible apply writeRun_kept)
    | (with_reducible apply Kept.ite)
    | (intro _))

theorem State.sramUe_kept {s₀ : State} (s : State) (h : Kept s₀ s) :
    Kept s₀ (State.sramUe s) := by
  unfold State.sramUe
  repeat' (first
    | with_reducible assumption
    | (with_reducible apply State.count_kept)
    | (with_reducible apply State.raise_kept))

theorem State.setAux_kept {s₀ : State} (s : State) (l : Nat) (a : LoopAux) (h : Kept s₀ s) :
    Kept s₀ (State.setAux s l a) := by
  unfold State.setAux
  repeat' (first
    | with_reducible assumption
    | (with_reducible apply Kept.ite)
    | (intro _)
    | (with_reducible refine Kept.of_snd (by assumption) ?_)
    | (with_reducible refine Kept.of_snd2 (by assumption) ?_)
    | (with_reducible refine Kept.of_snd3 (by assumption) ?_)
    | (with_reducible refine Kept.of_fst (by assumption) ?_)
    | (with_reducible refine Kept.of_fst2 (by assumption) ?_)
    | (simp only [Kept.update_iff]))

theorem State.setRoles_kept {s₀ : State} (s : State) (plan fb : Nat) (h : Kept s₀ s) :
    Kept s₀ (State.setRoles s plan fb) := by
  unfold State.setRoles
  repeat' (first
    | with_reducible assumption
    | (with_reducible apply State.setFld_kept))

theorem State.setFlying_kept {s₀ : State} (s : State) (b : Bool) (h : Kept s₀ s) :
    Kept s₀ (State.setFlying s b) := by
  unfold State.setFlying
  repeat' (first
    | with_reducible assumption
    | (with_reducible apply State.setFlag_kept))

theorem State.setHandOff_kept {s₀ : State} (s : State) (h : Option HandOff) (hk : Kept s₀ s) :
    Kept s₀ (State.setHandOff s h) := by
  unfold State.setHandOff
  repeat' (first
    | with_reducible assumption
    | (with_reducible apply State.setFld_kept)
    | (with_reducible apply Kept.ite)
    | (intro _)
    | (with_reducible refine Kept.of_snd (by assumption) ?_)
    | (with_reducible refine Kept.of_snd2 (by assumption) ?_)
    | (with_reducible refine Kept.of_snd3 (by assumption) ?_)
    | (with_reducible refine Kept.of_fst (by assumption) ?_)
    | (with_reducible refine Kept.of_fst2 (by assumption) ?_)
    | (simp only [Kept.update_iff]))

theorem State.rejectHandOff_kept {s₀ : State} (s : State) (report : Nat) (counts : Bool) (h : Kept s₀ s) :
    Kept s₀ (State.rejectHandOff s report counts) := by
  unfold State.rejectHandOff
  repeat' (first
    | with_reducible assumption
    | (with_reducible apply State.count_kept)
    | (with_reducible apply State.hoRejected_kept)
    | (with_reducible apply State.raise_kept)
    | (with_reducible apply State.report_kept)
    | (with_reducible apply State.setHandOff_kept)
    | (with_reducible apply Kept.ite)
    | (intro _)
    | (with_reducible refine Kept.of_snd (by assumption) ?_)
    | (with_reducible refine Kept.of_snd2 (by assumption) ?_)
    | (with_reducible refine Kept.of_snd3 (by assumption) ?_)
    | (with_reducible refine Kept.of_fst (by assumption) ?_)
    | (with_reducible refine Kept.of_fst2 (by assumption) ?_)
    | (simp only [Kept.update_iff])
    | (simp only [Kept.tables_iff]; apply KeptTables.intro <;> first | with_reducible assumption | with_reducible refine Kept.of_snd (by assumption) ?_ | with_reducible refine Kept.of_snd2 (by assumption) ?_ | with_reducible refine Kept.of_snd3 (by assumption) ?_ | with_reducible refine Kept.of_fst (by assumption) ?_ | with_reducible refine Kept.of_fst2 (by assumption) ?_ | exact id | exact fun _ => rfl | (intro hw; first | exact Sparse.wf_set _ _ _ hw | exact Sparse.wf_restrict _ _ hw | exact Sparse.wf_filter _ _ hw))
    | split)

theorem State.fly_kept {s₀ : State} (s : State) (h : Kept s₀ s) :
    Kept s₀ (State.fly s) := by
  unfold State.fly
  repeat' (first
    | with_reducible assumption
    | (with_reducible apply State.count_kept)
    | (with_reducible apply State.raise_kept)
    | (with_reducible apply State.rejectHandOff_kept)
    | (with_reducible apply State.setFlag_kept)
    | (with_reducible apply State.setFlying_kept)
    | (with_reducible apply State.setRoles_kept)
    | (with_reducible apply Kept.ite)
    | (intro _))

theorem State.faultTrackers_kept {s₀ : State} (s : State) (h : Kept s₀ s) :
    Kept s₀ (State.faultTrackers s) := by
  unfold State.faultTrackers
  repeat' (first
    | with_reducible assumption
    | (with_reducible apply State.faultLoop_kept)
    | (with_reducible apply Kept.ite)
    | (intro _)
    | (with_reducible apply Kept.foldl))

theorem State.snapInput_kept {s₀ : State} (s : State) (l : Nat) (d : LoopDesc) (i : Nat) (h : Kept s₀ s) :
    Kept s₀ (State.snapInput s l d i).2.2 := by
  unfold State.snapInput
  repeat' (first
    | with_reducible assumption
    | (with_reducible apply SpareSet.setAux_kept)
    | (with_reducible apply State.count_kept)
    | (with_reducible apply State.readBox_kept)
    | (with_reducible apply State.setAux_kept)
    | (with_reducible apply State.setBox_kept)
    | (with_reducible apply Kept.ite)
    | (intro _)
    | (with_reducible refine Kept.of_snd (by assumption) ?_)
    | (with_reducible refine Kept.of_snd2 (by assumption) ?_)
    | (with_reducible refine Kept.of_snd3 (by assumption) ?_)
    | (with_reducible refine Kept.of_fst (by assumption) ?_)
    | (with_reducible refine Kept.of_fst2 (by assumption) ?_)
    | (simp only [Kept.update_iff])
    | (simp only [Kept.tables_iff]; apply KeptTables.intro <;> first | with_reducible assumption | with_reducible refine Kept.of_snd (by assumption) ?_ | with_reducible refine Kept.of_snd2 (by assumption) ?_ | with_reducible refine Kept.of_snd3 (by assumption) ?_ | with_reducible refine Kept.of_fst (by assumption) ?_ | with_reducible refine Kept.of_fst2 (by assumption) ?_ | exact id | exact fun _ => rfl | (intro hw; first | exact Sparse.wf_set _ _ _ hw | exact Sparse.wf_restrict _ _ hw | exact Sparse.wf_filter _ _ hw))
    | split)

theorem State.snapAll_kept {s₀ : State} (l : Nat) (d : LoopDesc) (y0 : List Nat) (y1 : State) (h : Kept s₀ y1) :
    Kept s₀ (State.snapAll l d y0 y1).2.2 := by
  induction y0 generalizing y1 with
  | nil =>
    simp only [State.snapAll]
    assumption
  | cons a rest ih =>
    simp only [State.snapAll]
    repeat' (first
      | with_reducible assumption
      | (with_reducible apply ih)
      | (with_reducible apply State.snapInput_kept)
      | (with_reducible apply Kept.ite)
      | (intro _)
      | (with_reducible refine Kept.of_snd (by assumption) ?_)
      | (with_reducible refine Kept.of_snd2 (by assumption) ?_)
      | (with_reducible refine Kept.of_snd3 (by assumption) ?_)
      | (with_reducible refine Kept.of_fst (by assumption) ?_))

theorem State.setCoreQueue_kept {s₀ : State} (s : State) (core : Nat) (q : List Sample) (h : Kept s₀ s) :
    Kept s₀ (State.setCoreQueue s core q) := by
  unfold State.setCoreQueue
  repeat' (first
    | with_reducible assumption
    | (with_reducible apply Kept.ite)
    | (intro _)
    | (with_reducible refine Kept.of_snd (by assumption) ?_)
    | (with_reducible refine Kept.of_snd2 (by assumption) ?_)
    | (with_reducible refine Kept.of_snd3 (by assumption) ?_)
    | (with_reducible refine Kept.of_fst (by assumption) ?_)
    | (with_reducible refine Kept.of_fst2 (by assumption) ?_)
    | (simp only [Kept.update_iff]))

theorem State.takeSample_kept {s₀ : State} (s : State) (l : Nat) (d : Dispatched) (h : Kept s₀ s) :
    Kept s₀ (State.takeSample s l d) := by
  unfold State.takeSample
  repeat' (first
    | with_reducible assumption
    | (with_reducible apply SpareSet.setAux_kept)
    | (with_reducible apply State.setAux_kept)
    | (with_reducible apply State.setCoreQueue_kept)
    | (with_reducible apply State.snapAll_kept)
    | (with_reducible apply Kept.ite)
    | (intro _)
    | (with_reducible refine Kept.of_snd (by assumption) ?_)
    | (with_reducible refine Kept.of_snd2 (by assumption) ?_)
    | (with_reducible refine Kept.of_snd3 (by assumption) ?_)
    | (with_reducible refine Kept.of_fst (by assumption) ?_)
    | (with_reducible refine Kept.of_fst2 (by assumption) ?_)
    | (simp only [Kept.update_iff])
    | (simp only [Kept.tables_iff]; apply KeptTables.intro <;> first | with_reducible assumption | with_reducible refine Kept.of_snd (by assumption) ?_ | with_reducible refine Kept.of_snd2 (by assumption) ?_ | with_reducible refine Kept.of_snd3 (by assumption) ?_ | with_reducible refine Kept.of_fst (by assumption) ?_ | with_reducible refine Kept.of_fst2 (by assumption) ?_ | exact id | exact fun _ => rfl | (intro hw; first | exact Sparse.wf_set _ _ _ hw | exact Sparse.wf_restrict _ _ hw | exact Sparse.wf_filter _ _ hw))
    | split)

theorem State.sampleLoop_kept {s₀ : State} (s : State) (l : Nat) (d : Dispatched) (h : Kept s₀ s) :
    Kept s₀ (State.sampleLoop s l d) := by
  unfold State.sampleLoop
  repeat' (first
    | with_reducible assumption
    | (with_reducible apply State.count_kept)
    | (with_reducible apply State.dropAction_kept)
    | (with_reducible apply State.slotFired_kept)
    | (with_reducible apply State.takeSample_kept)
    | (with_reducible apply Kept.ite)
    | (intro _))

theorem effSampleAction_kept {s₀ : State} (s : State) (h : Kept s₀ s) :
    Kept s₀ (effSampleAction s) := by
  unfold effSampleAction
  repeat' (first
    | with_reducible assumption
    | (with_reducible apply State.sampleLoop_kept)
    | (with_reducible apply State.takeDue_kept)
    | (with_reducible apply Kept.ite)
    | (intro _)
    | (with_reducible refine Kept.of_snd (by assumption) ?_)
    | (with_reducible refine Kept.of_snd2 (by assumption) ?_)
    | (with_reducible refine Kept.of_snd3 (by assumption) ?_)
    | (with_reducible refine Kept.of_fst (by assumption) ?_)
    | (with_reducible refine Kept.of_fst2 (by assumption) ?_)
    | (with_reducible refine KeptOpt.elim (by assumption) ?_)
    | (with_reducible refine KeptOpt₂.elim (by assumption) ?_)
    | (with_reducible refine KeptOpt₂.elim' (by assumption) ?_)
    | (with_reducible apply KeptOpt.getD)
    | (with_reducible apply KeptOpt.findSome)
    | (with_reducible apply KeptOpt₂.findSome)
    | (simp only [Kept.update_iff])
    | (simp only [Kept.tables_iff]; apply KeptTables.intro <;> first | with_reducible assumption | with_reducible refine Kept.of_snd (by assumption) ?_ | with_reducible refine Kept.of_snd2 (by assumption) ?_ | with_reducible refine Kept.of_snd3 (by assumption) ?_ | with_reducible refine Kept.of_fst (by assumption) ?_ | with_reducible refine Kept.of_fst2 (by assumption) ?_ | with_reducible refine KeptOpt.elim (by assumption) ?_ | with_reducible refine KeptOpt₂.elim (by assumption) ?_ | with_reducible refine KeptOpt₂.elim' (by assumption) ?_ | with_reducible apply KeptOpt.getD | with_reducible apply KeptOpt.findSome | with_reducible apply KeptOpt₂.findSome | exact id | exact fun _ => rfl | (intro hw; first | exact Sparse.wf_set _ _ _ hw | exact Sparse.wf_restrict _ _ hw | exact Sparse.wf_filter _ _ hw))
    | split)

theorem State.commitOut_kept {s₀ : State} (s : State) (d : LoopDesc) (u : List Word) (h : Kept s₀ s) :
    Kept s₀ (State.commitOut s d u) := by
  unfold State.commitOut
  repeat' (first
    | with_reducible assumption
    | (with_reducible apply Opening.put_kept)
    | (with_reducible apply State.addSat_kept)
    | (with_reducible apply State.canCommit_kept)
    | (with_reducible apply State.count_kept)
    | (with_reducible apply Kept.ite)
    | (intro _)
    | (with_reducible apply Kept.foldl))

theorem State.setLogChan_kept {s₀ : State} (s : State) (c : Nat) (x : LogChan) (h : Kept s₀ s) :
    Kept s₀ (State.setLogChan s c x) := by
  unfold State.setLogChan
  repeat' (first
    | with_reducible assumption
    | (with_reducible apply Kept.ite)
    | (intro _)
    | (with_reducible refine Kept.of_snd (by assumption) ?_)
    | (with_reducible refine Kept.of_snd2 (by assumption) ?_)
    | (with_reducible refine Kept.of_snd3 (by assumption) ?_)
    | (with_reducible refine Kept.of_fst (by assumption) ?_)
    | (with_reducible refine Kept.of_fst2 (by assumption) ?_)
    | (simp only [Kept.update_iff]))

theorem State.logRecord_kept {s₀ : State} (s : State) (c : Nat) (bs : List Byte) (h : Kept s₀ s) :
    Kept s₀ (State.logRecord s c bs) := by
  unfold State.logRecord
  repeat' (first
    | with_reducible assumption
    | (with_reducible apply State.setFlag_kept)
    | (with_reducible apply State.setFld_kept)
    | (with_reducible apply State.setLogChan_kept)
    | (with_reducible apply State.sramWrite_kept)
    | (with_reducible apply Kept.ite)
    | (intro _))

theorem State.logSample_kept {s₀ : State} (s : State) (t : Trace) (c : Nat) (h : Kept s₀ s) :
    Kept s₀ (State.logSample s t c) := by
  unfold State.logSample
  repeat' (first
    | with_reducible assumption
    | (with_reducible apply State.logRecord_kept)
    | (with_reducible apply State.setFld_kept)
    | (with_reducible apply State.setLogChan_kept)
    | (with_reducible apply Kept.ite)
    | (intro _))

theorem State.logAll_kept {s₀ : State} (s : State) (t : Trace) (h : Kept s₀ s) :
    Kept s₀ (State.logAll s t) := by
  unfold State.logAll
  repeat' (first
    | with_reducible assumption
    | (with_reducible apply State.logSample_kept)
    | (with_reducible apply Kept.ite)
    | (intro _)
    | (with_reducible apply Kept.foldl))

theorem State.freeWords_kept {s₀ : State} (y0 : Nat) (y1 : State) (h : Kept s₀ y1) :
    Kept s₀ (State.freeWords y0 y1).2 := by
  induction y0 generalizing y1 with
  | zero =>
    simp only [State.freeWords]
    assumption
  | succ n ih =>
    simp only [State.freeWords]
    repeat' (first
      | with_reducible assumption
      | (with_reducible apply ih)
      | (with_reducible apply State.draw_kept)
      | (with_reducible apply Kept.ite)
      | (intro _)
      | (with_reducible refine Kept.of_snd (by assumption) ?_)
      | (with_reducible refine Kept.of_snd2 (by assumption) ?_)
      | (with_reducible refine Kept.of_snd3 (by assumption) ?_)
      | (with_reducible refine Kept.of_fst (by assumption) ?_))

theorem State.planRefs_kept {s₀ : State} (s : State) (d : LoopDesc) (t : Nat) (h : Kept s₀ s) :
    Kept s₀ (State.planRefs s d t).2 := by
  unfold State.planRefs
  repeat' (first
    | with_reducible assumption
    | (with_reducible apply State.faultTrackers_kept)
    | (with_reducible apply State.fly_kept)
    | (with_reducible apply State.setFlag_kept)
    | (with_reducible apply State.sramUe_kept)
    | (with_reducible apply Kept.ite)
    | (intro _)
    | (with_reducible refine Kept.of_snd (by assumption) ?_)
    | (with_reducible refine Kept.of_snd2 (by assumption) ?_)
    | (with_reducible refine Kept.of_snd3 (by assumption) ?_)
    | (with_reducible refine Kept.of_fst (by assumption) ?_)
    | (with_reducible refine Kept.of_fst2 (by assumption) ?_)
    | (simp only [Kept.update_iff])
    | (simp only [Kept.tables_iff]; apply KeptTables.intro <;> first | with_reducible assumption | with_reducible refine Kept.of_snd (by assumption) ?_ | with_reducible refine Kept.of_snd2 (by assumption) ?_ | with_reducible refine Kept.of_snd3 (by assumption) ?_ | with_reducible refine Kept.of_fst (by assumption) ?_ | with_reducible refine Kept.of_fst2 (by assumption) ?_ | exact id | exact fun _ => rfl | (intro hw; first | exact Sparse.wf_set _ _ _ hw | exact Sparse.wf_restrict _ _ hw | exact Sparse.wf_filter _ _ hw))
    | split)

theorem State.endSample_kept {s₀ : State} (s : State) (l samples lat4 latmax : Nat) (timed stale sat : Bool) (h : Kept s₀ s) :
    Kept s₀ (State.endSample s l samples lat4 latmax timed stale sat) := by
  unfold State.endSample
  repeat' (first
    | with_reducible assumption
    | (with_reducible apply State.count_kept)
    | (with_reducible apply State.setFlag_kept)
    | (with_reducible apply State.setFld_kept)
    | (with_reducible apply State.sramWrite_kept)
    | (with_reducible apply Kept.ite)
    | (intro _))

theorem State.safeOut_kept {s₀ : State} (s : State) (d : LoopDesc) (l samples : Nat) (h : Kept s₀ s) :
    Kept s₀ (State.safeOut s d l samples) := by
  unfold State.safeOut
  repeat' (first
    | with_reducible assumption
    | (with_reducible apply State.commitOut_kept)
    | (with_reducible apply State.sramWrite_kept)
    | (with_reducible apply Kept.ite)
    | (intro _))

theorem State.faultSample_kept {s₀ : State} (s : State) (d : LoopDesc) (x : Sample) (h : Kept s₀ s) :
    Kept s₀ (State.faultSample s d x) := by
  unfold State.faultSample
  repeat' (first
    | with_reducible assumption
    | (with_reducible apply State.endSample_kept)
    | (with_reducible apply State.freeWords_kept)
    | (with_reducible apply State.logAll_kept)
    | (with_reducible apply State.safeOut_kept))

theorem State.runSample_kept {s₀ : State} (s : State) (core : Nat) (d : LoopDesc) (x : Sample) (retried : Bool) (h : Kept s₀ s) :
    Kept s₀ (State.runSample s core d x retried) := by
  unfold State.runSample
  repeat' (first
    | with_reducible assumption
    | (with_reducible apply SpareSet.setAux_kept)
    | (with_reducible apply State.commitOut_kept)
    | (with_reducible apply State.endSample_kept)
    | (with_reducible apply State.faultLoop_kept)
    | (with_reducible apply State.faultSample_kept)
    | (with_reducible apply State.injDone_kept)
    | (with_reducible apply State.logAll_kept)
    | (with_reducible apply State.planRefs_kept)
    | (with_reducible apply State.safeOut_kept)
    | (with_reducible apply State.setAux_kept)
    | (with_reducible apply State.sramUe_kept)
    | (with_reducible apply State.sramWrite_kept)
    | (with_reducible apply Kept.ite)
    | (intro _)
    | (with_reducible refine Kept.of_snd (by assumption) ?_)
    | (with_reducible refine Kept.of_snd2 (by assumption) ?_)
    | (with_reducible refine Kept.of_snd3 (by assumption) ?_)
    | (with_reducible refine Kept.of_fst (by assumption) ?_)
    | (with_reducible refine Kept.of_fst2 (by assumption) ?_)
    | (simp only [Kept.update_iff])
    | (simp only [Kept.tables_iff]; apply KeptTables.intro <;> first | with_reducible assumption | with_reducible refine Kept.of_snd (by assumption) ?_ | with_reducible refine Kept.of_snd2 (by assumption) ?_ | with_reducible refine Kept.of_snd3 (by assumption) ?_ | with_reducible refine Kept.of_fst (by assumption) ?_ | with_reducible refine Kept.of_fst2 (by assumption) ?_ | exact id | exact fun _ => rfl | (intro hw; first | exact Sparse.wf_set _ _ _ hw | exact Sparse.wf_restrict _ _ hw | exact Sparse.wf_filter _ _ hw))
    | split)

theorem State.coreFault_kept {s₀ : State} (s : State) (core : Nat) (inj : Bool) (h : Kept s₀ s) :
    Kept s₀ (State.coreFault s core inj).2 := by
  unfold State.coreFault
  repeat' (first
    | with_reducible assumption
    | (with_reducible apply SpareSet.fault_kept)
    | (with_reducible apply State.count_kept)
    | (with_reducible apply State.raise_kept))

theorem State.sampleOn_kept {s₀ : State} (s : State) (core : Nat) (mism : Bool) (h : Kept s₀ s) :
    Kept s₀ (State.sampleOn s core mism) := by
  unfold State.sampleOn
  repeat' (first
    | with_reducible assumption
    | (with_reducible apply SpareSet.setAux_kept)
    | (with_reducible apply State.coreFault_kept)
    | (with_reducible apply State.count_kept)
    | (with_reducible apply State.faultCore_kept)
    | (with_reducible apply State.faultLoop_kept)
    | (with_reducible apply State.faultSample_kept)
    | (with_reducible apply State.injDone_kept)
    | (with_reducible apply State.raise_kept)
    | (with_reducible apply State.runSample_kept)
    | (with_reducible apply State.setAux_kept)
    | (with_reducible apply State.setCoreQueue_kept)
    | (with_reducible apply State.sramUe_kept)
    | (with_reducible apply State.sramWrite_kept)
    | (with_reducible apply Kept.ite)
    | (intro _)
    | (with_reducible refine Kept.of_snd (by assumption) ?_)
    | (with_reducible refine Kept.of_snd2 (by assumption) ?_)
    | (with_reducible refine Kept.of_snd3 (by assumption) ?_)
    | (with_reducible refine Kept.of_fst (by assumption) ?_)
    | (with_reducible refine Kept.of_fst2 (by assumption) ?_)
    | (simp only [Kept.update_iff])
    | (simp only [Kept.tables_iff]; apply KeptTables.intro <;> first | with_reducible assumption | with_reducible refine Kept.of_snd (by assumption) ?_ | with_reducible refine Kept.of_snd2 (by assumption) ?_ | with_reducible refine Kept.of_snd3 (by assumption) ?_ | with_reducible refine Kept.of_fst (by assumption) ?_ | with_reducible refine Kept.of_fst2 (by assumption) ?_ | exact id | exact fun _ => rfl | (intro hw; first | exact Sparse.wf_set _ _ _ hw | exact Sparse.wf_restrict _ _ hw | exact Sparse.wf_filter _ _ hw))
    | split)

theorem effSampleExecute_kept {s₀ : State} (core : Nat) (s : State) (h : Kept s₀ s) :
    Kept s₀ (effSampleExecute core s) := by
  unfold effSampleExecute
  repeat' (first
    | with_reducible assumption
    | (with_reducible apply State.sampleOn_kept))

theorem effCoreMismatch_kept {s₀ : State} (core : Nat) (s : State) (h : Kept s₀ s) :
    Kept s₀ (effCoreMismatch core s) := by
  unfold effCoreMismatch
  repeat' (first
    | with_reducible assumption
    | (with_reducible apply State.sampleOn_kept))

theorem State.startLoop_kept {s₀ : State} (s : State) (l : Nat) (d : LoopDesc) (fresh : Bool) (h : Kept s₀ s) :
    Kept s₀ (State.startLoop s l d fresh) := by
  unfold State.startLoop
  repeat' (first
    | with_reducible assumption
    | (with_reducible apply SpareSet.setAux_kept)
    | (with_reducible apply State.count_kept)
    | (with_reducible apply State.setAux_kept)
    | (with_reducible apply State.setFld_kept)
    | (with_reducible apply State.sramWrite_kept)
    | (with_reducible apply Kept.ite)
    | (intro _))

theorem State.loopCommand_kept {s₀ : State} (s : State) (v : Word) (h : Kept s₀ s) :
    Kept s₀ (State.loopCommand s v) := by
  unfold State.loopCommand
  repeat' (first
    | with_reducible assumption
    | (with_reducible apply SpareSet.setAux_kept)
    | (with_reducible apply State.setAux_kept)
    | (with_reducible apply State.setFld_kept)
    | (with_reducible apply State.sramUe_kept)
    | (with_reducible apply State.startLoop_kept)
    | (with_reducible apply State.wr_kept)
    | (with_reducible apply Kept.ite)
    | (intro _)
    | (with_reducible refine Kept.of_snd (by assumption) ?_)
    | (with_reducible refine Kept.of_snd2 (by assumption) ?_)
    | (with_reducible refine Kept.of_snd3 (by assumption) ?_)
    | (with_reducible refine Kept.of_fst (by assumption) ?_)
    | (with_reducible refine Kept.of_fst2 (by assumption) ?_)
    | (simp only [Kept.update_iff])
    | (simp only [Kept.tables_iff]; apply KeptTables.intro <;> first | with_reducible assumption | with_reducible refine Kept.of_snd (by assumption) ?_ | with_reducible refine Kept.of_snd2 (by assumption) ?_ | with_reducible refine Kept.of_snd3 (by assumption) ?_ | with_reducible refine Kept.of_fst (by assumption) ?_ | with_reducible refine Kept.of_fst2 (by assumption) ?_ | exact id | exact fun _ => rfl | (intro hw; first | exact Sparse.wf_set _ _ _ hw | exact Sparse.wf_restrict _ _ hw | exact Sparse.wf_filter _ _ hw))
    | split)

theorem State.takeRecord_kept {s₀ : State} (s : State) (h : Kept s₀ s) :
    Kept s₀ (State.takeRecord s) := by
  unfold State.takeRecord
  repeat' (first
    | with_reducible assumption
    | (with_reducible apply State.rejectHandOff_kept)
    | (with_reducible apply State.setHandOff_kept)
    | (with_reducible apply State.sramUe_kept)
    | (with_reducible apply State.wr_kept)
    | (with_reducible apply Kept.ite)
    | (intro _)
    | (with_reducible refine Kept.of_snd (by assumption) ?_)
    | (with_reducible refine Kept.of_snd2 (by assumption) ?_)
    | (with_reducible refine Kept.of_snd3 (by assumption) ?_)
    | (with_reducible refine Kept.of_fst (by assumption) ?_)
    | (with_reducible refine Kept.of_fst2 (by assumption) ?_)
    | (simp only [Kept.update_iff])
    | (simp only [Kept.tables_iff]; apply KeptTables.intro <;> first | with_reducible assumption | with_reducible refine Kept.of_snd (by assumption) ?_ | with_reducible refine Kept.of_snd2 (by assumption) ?_ | with_reducible refine Kept.of_snd3 (by assumption) ?_ | with_reducible refine Kept.of_fst (by assumption) ?_ | with_reducible refine Kept.of_fst2 (by assumption) ?_ | exact id | exact fun _ => rfl | (intro hw; first | exact Sparse.wf_set _ _ _ hw | exact Sparse.wf_restrict _ _ hw | exact Sparse.wf_filter _ _ hw))
    | split)

theorem State.handOffVerdict_kept {s₀ : State} (s : State) (pass : Bool) (h : Kept s₀ s) :
    Kept s₀ (State.handOffVerdict s pass) := by
  unfold State.handOffVerdict
  repeat' (first
    | with_reducible assumption
    | (with_reducible apply State.injDone_kept)
    | (with_reducible apply State.rejectHandOff_kept)
    | (with_reducible apply State.setHandOff_kept)
    | (with_reducible apply Kept.ite)
    | (intro _)
    | (with_reducible refine Kept.of_snd (by assumption) ?_)
    | (with_reducible refine Kept.of_snd2 (by assumption) ?_)
    | (with_reducible refine Kept.of_snd3 (by assumption) ?_)
    | (with_reducible refine Kept.of_fst (by assumption) ?_)
    | (with_reducible refine Kept.of_fst2 (by assumption) ?_)
    | (simp only [Kept.update_iff])
    | (simp only [Kept.tables_iff]; apply KeptTables.intro <;> first | with_reducible assumption | with_reducible refine Kept.of_snd (by assumption) ?_ | with_reducible refine Kept.of_snd2 (by assumption) ?_ | with_reducible refine Kept.of_snd3 (by assumption) ?_ | with_reducible refine Kept.of_fst (by assumption) ?_ | with_reducible refine Kept.of_fst2 (by assumption) ?_ | exact id | exact fun _ => rfl | (intro hw; first | exact Sparse.wf_set _ _ _ hw | exact Sparse.wf_restrict _ _ hw | exact Sparse.wf_filter _ _ hw))
    | split)

theorem State.acceptHandOff_kept {s₀ : State} (s : State) (h : HandOff) (hk : Kept s₀ s) :
    Kept s₀ (State.acceptHandOff s h) := by
  unfold State.acceptHandOff
  repeat' (first
    | with_reducible assumption
    | (with_reducible apply State.addSat_kept)
    | (with_reducible apply State.leaveRecovering_kept)
    | (with_reducible apply State.planRestart_kept)
    | (with_reducible apply State.report_kept)
    | (with_reducible apply State.setFlag_kept)
    | (with_reducible apply State.setFlying_kept)
    | (with_reducible apply State.setHandOff_kept)
    | (with_reducible apply State.setRoles_kept)
    | (with_reducible apply State.wr_kept)
    | (with_reducible apply Kept.ite)
    | (intro _)
    | (with_reducible refine Kept.of_snd (by assumption) ?_)
    | (with_reducible refine Kept.of_snd2 (by assumption) ?_)
    | (with_reducible refine Kept.of_snd3 (by assumption) ?_)
    | (with_reducible refine Kept.of_fst (by assumption) ?_)
    | (with_reducible refine Kept.of_fst2 (by assumption) ?_)
    | (simp only [Kept.update_iff]))

theorem effSwitch_kept {s₀ : State} (s : State) (h : Kept s₀ s) :
    Kept s₀ (effSwitch s) := by
  unfold effSwitch
  repeat' (first
    | with_reducible assumption
    | (with_reducible apply State.acceptHandOff_kept)
    | (with_reducible apply State.finish_kept)
    | (with_reducible apply State.rejectHandOff_kept)
    | (with_reducible apply State.start_kept)
    | (with_reducible apply Kept.ite)
    | (intro _)
    | (with_reducible refine Kept.of_snd (by assumption) ?_)
    | (with_reducible refine Kept.of_snd2 (by assumption) ?_)
    | (with_reducible refine Kept.of_snd3 (by assumption) ?_)
    | (with_reducible refine Kept.of_fst (by assumption) ?_)
    | (with_reducible refine Kept.of_fst2 (by assumption) ?_)
    | (simp only [Kept.update_iff])
    | (simp only [Kept.tables_iff]; apply KeptTables.intro <;> first | with_reducible assumption | with_reducible refine Kept.of_snd (by assumption) ?_ | with_reducible refine Kept.of_snd2 (by assumption) ?_ | with_reducible refine Kept.of_snd3 (by assumption) ?_ | with_reducible refine Kept.of_fst (by assumption) ?_ | with_reducible refine Kept.of_fst2 (by assumption) ?_ | exact id | exact fun _ => rfl | (intro hw; first | exact Sparse.wf_set _ _ _ hw | exact Sparse.wf_restrict _ _ hw | exact Sparse.wf_filter _ _ hw))
    | split)

theorem effHandOffTimeout_kept {s₀ : State} (s : State) (h : Kept s₀ s) :
    Kept s₀ (effHandOffTimeout s) := by
  unfold effHandOffTimeout
  repeat' (first
    | with_reducible assumption
    | (with_reducible apply State.rejectHandOff_kept)
    | (with_reducible apply Kept.ite)
    | (intro _)
    | (with_reducible refine Kept.of_snd (by assumption) ?_)
    | (with_reducible refine Kept.of_snd2 (by assumption) ?_)
    | (with_reducible refine Kept.of_snd3 (by assumption) ?_)
    | (with_reducible refine Kept.of_fst (by assumption) ?_)
    | (with_reducible refine Kept.of_fst2 (by assumption) ?_)
    | (simp only [Kept.update_iff])
    | (simp only [Kept.tables_iff]; apply KeptTables.intro <;> first | with_reducible assumption | with_reducible refine Kept.of_snd (by assumption) ?_ | with_reducible refine Kept.of_snd2 (by assumption) ?_ | with_reducible refine Kept.of_snd3 (by assumption) ?_ | with_reducible refine Kept.of_fst (by assumption) ?_ | with_reducible refine Kept.of_fst2 (by assumption) ?_ | exact id | exact fun _ => rfl | (intro hw; first | exact Sparse.wf_set _ _ _ hw | exact Sparse.wf_restrict _ _ hw | exact Sparse.wf_filter _ _ hw))
    | split)

theorem effAutoFly_kept {s₀ : State} (s : State) (h : Kept s₀ s) :
    Kept s₀ (effAutoFly s) := by
  unfold effAutoFly
  repeat' (first
    | with_reducible assumption
    | (with_reducible apply State.fly_kept)
    | (with_reducible apply Kept.ite)
    | (intro _)
    | (with_reducible refine Kept.of_snd (by assumption) ?_)
    | (with_reducible refine Kept.of_snd2 (by assumption) ?_)
    | (with_reducible refine Kept.of_snd3 (by assumption) ?_)
    | (with_reducible refine Kept.of_fst (by assumption) ?_)
    | (with_reducible refine Kept.of_fst2 (by assumption) ?_)
    | (simp only [Kept.update_iff]))

theorem State.dumpRecs_kept {s₀ : State} (q : Nat) (o : Op) (dst : Nat) (y0 : List (Nat × Nat)) (y1 : Nat) (y2 : State) (h : Kept s₀ y2) :
    Kept s₀ (State.dumpRecs q o dst y0 y1 y2).2 := by
  induction y0 generalizing y1 y2 with
  | nil =>
    simp only [State.dumpRecs]
    assumption
  | cons a rest ih =>
    simp only [State.dumpRecs]
    repeat' (first
      | with_reducible assumption
      | (with_reducible apply ih)
      | (with_reducible apply State.sramUe_kept)
      | (with_reducible apply State.txWrite_kept)
      | (with_reducible apply Kept.ite)
      | (intro _)
      | (with_reducible refine Kept.of_snd (by assumption) ?_)
      | (with_reducible refine Kept.of_snd2 (by assumption) ?_)
      | (with_reducible refine Kept.of_snd3 (by assumption) ?_)
      | (with_reducible refine Kept.of_fst (by assumption) ?_)
      | (with_reducible refine Kept.of_fst2 (by assumption) ?_)
      | (simp only [Kept.update_iff])
      | (simp only [Kept.tables_iff]; apply KeptTables.intro <;> first | with_reducible assumption | with_reducible refine Kept.of_snd (by assumption) ?_ | with_reducible refine Kept.of_snd2 (by assumption) ?_ | with_reducible refine Kept.of_snd3 (by assumption) ?_ | with_reducible refine Kept.of_fst (by assumption) ?_ | with_reducible refine Kept.of_fst2 (by assumption) ?_ | exact id | exact fun _ => rfl | (intro hw; first | exact Sparse.wf_set _ _ _ hw | exact Sparse.wf_restrict _ _ hw | exact Sparse.wf_filter _ _ hw))
      | split
      | (apply Kept.ite)
      | (dsimp only))

theorem effDump_kept {s₀ : State} (s : State) (h : Kept s₀ s) :
    Kept s₀ (effDump s) := by
  unfold effDump
  repeat' (first
    | with_reducible assumption
    | (with_reducible apply State.conclude_kept)
    | (with_reducible apply State.dumpRecs_kept)
    | (with_reducible apply State.finish_kept)
    | (with_reducible apply State.flushItag_kept)
    | (with_reducible apply State.setFld_kept)
    | (with_reducible apply State.start_kept)
    | (with_reducible apply Kept.ite)
    | (intro _)
    | (with_reducible refine Kept.of_snd (by assumption) ?_)
    | (with_reducible refine Kept.of_snd2 (by assumption) ?_)
    | (with_reducible refine Kept.of_snd3 (by assumption) ?_)
    | (with_reducible refine Kept.of_fst (by assumption) ?_)
    | (with_reducible refine Kept.of_fst2 (by assumption) ?_)
    | (simp only [Kept.update_iff])
    | (simp only [Kept.tables_iff]; apply KeptTables.intro <;> first | with_reducible assumption | with_reducible refine Kept.of_snd (by assumption) ?_ | with_reducible refine Kept.of_snd2 (by assumption) ?_ | with_reducible refine Kept.of_snd3 (by assumption) ?_ | with_reducible refine Kept.of_fst (by assumption) ?_ | with_reducible refine Kept.of_fst2 (by assumption) ?_ | exact id | exact fun _ => rfl | (intro hw; first | exact Sparse.wf_set _ _ _ hw | exact Sparse.wf_restrict _ _ hw | exact Sparse.wf_filter _ _ hw))
    | split)

theorem effLogMode_kept {s₀ : State} (c : Nat) (t : Itag) (v : Word) (s : State) (h : Kept s₀ s) :
    Kept s₀ (effLogMode c t v s) := by
  unfold effLogMode
  repeat' (first
    | with_reducible assumption
    | (with_reducible apply State.cfgErr_kept)
    | (with_reducible apply State.setFld_kept)
    | (with_reducible apply State.setLogChan_kept)
    | (with_reducible apply State.writeGeneric_kept)
    | (with_reducible apply Kept.ite)
    | (intro _))

theorem effLogSize_kept {s₀ : State} (c : Nat) (t : Itag) (v : Word) (s : State) (h : Kept s₀ s) :
    Kept s₀ (effLogSize c t v s) := by
  unfold effLogSize
  repeat' (first
    | with_reducible assumption
    | (with_reducible apply State.cfgErr_kept)
    | (with_reducible apply State.writeGeneric_kept)
    | (with_reducible apply Kept.ite)
    | (intro _))

end Sys2Proof.Machine
end

