-- ==== Sys2Proof/Laws/KeptCvu.lean ====
section
/-! SUPPORT. What the operations of Machine/Cvu.lean keep: the queue of commands, the timebase count and the canonical form of
every table. -/

set_option Elab.async false

set_option linter.tactic.unusedName false

namespace Sys2Proof.Machine

theorem State.setCvuCtx_kept {s₀ : State} (s : State) (c : Nat) (x : CvuCtx) (h : Kept s₀ s) :
    Kept s₀ (State.setCvuCtx s c x) := by
  unfold State.setCvuCtx
  repeat' (first
    | with_reducible assumption
    | (with_reducible apply Kept.ite)
    | (intro _)
    | (with_reducible refine Kept.of_snd (by assumption) ?_)
    | (with_reducible refine Kept.of_snd2 (by assumption) ?_)
    | (with_reducible refine Kept.of_snd3 (by assumption) ?_)
    | (with_reducible refine Kept.of_fst (by assumption) ?_)
    | (with_reducible refine Kept.of_fst2 (by assumption) ?_)
    | (simp only [Kept.update_iff]))

theorem State.setCvuChan_kept {s₀ : State} (s : State) (n : Nat) (x : CvuChan) (h : Kept s₀ s) :
    Kept s₀ (State.setCvuChan s n x) := by
  unfold State.setCvuChan
  repeat' (first
    | with_reducible assumption
    | (with_reducible apply Kept.ite)
    | (intro _)
    | (with_reducible refine Kept.of_snd (by assumption) ?_)
    | (with_reducible refine Kept.of_snd2 (by assumption) ?_)
    | (with_reducible refine Kept.of_snd3 (by assumption) ?_)
    | (with_reducible refine Kept.of_fst (by assumption) ?_)
    | (with_reducible refine Kept.of_fst2 (by assumption) ?_)
    | (simp only [Kept.update_iff]))

theorem effCtxData_kept {s₀ : State} (i : Nat) (t : Itag) (v : Word) (s : State) (h : Kept s₀ s) :
    Kept s₀ (effCtxData i t v s) := by
  unfold effCtxData
  repeat' (first
    | with_reducible assumption
    | (with_reducible apply State.cfgErr_kept)
    | (with_reducible apply State.setCvuCtx_kept)
    | (with_reducible apply Kept.ite)
    | (intro _))

theorem State.verdictRecord_kept {s₀ : State} (s : State) (n ctx : Nat) (pass : Bool) (cause idx_ value : Nat) (h : Kept s₀ s) :
    Kept s₀ (State.verdictRecord s n ctx pass cause idx_ value) := by
  unfold State.verdictRecord
  repeat' (first
    | with_reducible assumption
    | (with_reducible apply State.count_kept)
    | (with_reducible apply State.flushItag_kept)
    | (with_reducible apply State.txWrite_kept)
    | (with_reducible apply State.wr_kept)
    | (with_reducible apply Kept.ite)
    | (intro _)
    | (with_reducible refine Kept.of_snd (by assumption) ?_)
    | (with_reducible refine Kept.of_snd2 (by assumption) ?_)
    | (with_reducible refine Kept.of_snd3 (by assumption) ?_)
    | (with_reducible refine Kept.of_fst (by assumption) ?_)
    | (with_reducible refine Kept.of_fst2 (by assumption) ?_)
    | (simp only [Kept.update_iff])
    | (simp only [Kept.tables_iff]; apply KeptTables.intro <;> first | with_reducible assumption | with_reducible refine Kept.of_snd (by assumption) ?_ | with_reducible refine Kept.of_snd2 (by assumption) ?_ | with_reducible refine Kept.of_snd3 (by assumption) ?_ | with_reducible refine Kept.of_fst (by assumption) ?_ | with_reducible refine Kept.of_fst2 (by assumption) ?_ | exact id | exact fun _ => rfl | (intro hw; first | exact Sparse.wf_set _ _ _ hw | exact Sparse.wf_restrict _ _ hw | exact Sparse.wf_filter _ _ hw))
    | split)

theorem State.deliver_kept {s₀ : State} (s : State) (n ctx cause idx_ value : Nat) (inj : Bool) (h : Kept s₀ s) :
    Kept s₀ (State.deliver s n ctx cause idx_ value inj) := by
  unfold State.deliver
  repeat' (first
    | with_reducible assumption
    | (with_reducible apply SpareSet.fault_kept)
    | (with_reducible apply State.count_kept)
    | (with_reducible apply State.raise_kept)
    | (with_reducible apply State.setFlag_kept)
    | (with_reducible apply State.setFld_kept)
    | (with_reducible apply State.verdictRecord_kept)
    | (with_reducible apply State.wr64_kept)
    | (with_reducible apply Kept.ite)
    | (intro _))

theorem State.afterVerdict_kept {s₀ : State} (s : State) (n ctx : Nat) (h : Kept s₀ s) :
    Kept s₀ (State.afterVerdict s n ctx) := by
  unfold State.afterVerdict
  repeat' (first
    | with_reducible assumption
    | (with_reducible apply State.setCvuChan_kept)
    | (with_reducible apply State.setFld_kept))

theorem State.readCtx_kept {s₀ : State} (s : State) (n ctx : Nat) (h : Kept s₀ s) :
    Kept s₀ (State.readCtx s n ctx).2 := by
  unfold State.readCtx
  repeat' (first
    | with_reducible assumption
    | (with_reducible apply State.count_kept)
    | (with_reducible apply State.injDone_kept)
    | (with_reducible apply State.raise_kept)
    | (with_reducible apply State.setCvuCtx_kept)
    | (with_reducible apply Kept.ite)
    | (intro _)
    | (with_reducible refine Kept.of_snd (by assumption) ?_)
    | (with_reducible refine Kept.of_snd2 (by assumption) ?_)
    | (with_reducible refine Kept.of_snd3 (by assumption) ?_)
    | (with_reducible refine Kept.of_fst (by assumption) ?_)
    | (with_reducible refine Kept.of_fst2 (by assumption) ?_)
    | (simp only [Kept.update_iff])
    | (simp only [Kept.tables_iff]; apply KeptTables.intro <;> first | with_reducible assumption | with_reducible refine Kept.of_snd (by assumption) ?_ | with_reducible refine Kept.of_snd2 (by assumption) ?_ | with_reducible refine Kept.of_snd3 (by assumption) ?_ | with_reducible refine Kept.of_fst (by assumption) ?_ | with_reducible refine Kept.of_fst2 (by assumption) ?_ | exact id | exact fun _ => rfl | (intro hw; first | exact Sparse.wf_set _ _ _ hw | exact Sparse.wf_restrict _ _ hw | exact Sparse.wf_filter _ _ hw))
    | split)

theorem State.expected_kept {s₀ : State} (s : State) (c : CvuCtx) (i : Nat) (trailer : Nat) (h : Kept s₀ s) :
    Kept s₀ (State.expected s c i trailer).2 := by
  unfold State.expected
  repeat' (first
    | with_reducible assumption
    | (with_reducible apply State.flushItag_kept)
    | (with_reducible apply State.txRead_kept)
    | (with_reducible apply Kept.ite)
    | (intro _)
    | (with_reducible refine Kept.of_snd (by assumption) ?_)
    | (with_reducible refine Kept.of_snd2 (by assumption) ?_)
    | (with_reducible refine Kept.of_snd3 (by assumption) ?_)
    | (with_reducible refine Kept.of_fst (by assumption) ?_)
    | (with_reducible refine Kept.of_fst2 (by assumption) ?_)
    | (simp only [Kept.update_iff])
    | (simp only [Kept.tables_iff]; apply KeptTables.intro <;> first | with_reducible assumption | with_reducible refine Kept.of_snd (by assumption) ?_ | with_reducible refine Kept.of_snd2 (by assumption) ?_ | with_reducible refine Kept.of_snd3 (by assumption) ?_ | with_reducible refine Kept.of_fst (by assumption) ?_ | with_reducible refine Kept.of_fst2 (by assumption) ?_ | exact id | exact fun _ => rfl | (intro hw; first | exact Sparse.wf_set _ _ _ hw | exact Sparse.wf_restrict _ _ hw | exact Sparse.wf_filter _ _ hw))
    | split)

theorem effFrameEnd_kept {s₀ : State} (n ctx : Nat) (data : List Byte) (ending : Nat) (s : State) (h : Kept s₀ s) :
    Kept s₀ (effFrameEnd n ctx data ending s) := by
  unfold effFrameEnd
  repeat' (first
    | with_reducible assumption
    | (with_reducible apply State.afterVerdict_kept)
    | (with_reducible apply State.count_kept)
    | (with_reducible apply State.deliver_kept)
    | (with_reducible apply State.expected_kept)
    | (with_reducible apply State.injDone_kept)
    | (with_reducible apply State.readCtx_kept)
    | (with_reducible apply Kept.ite)
    | (intro _))

theorem effCtxAdvance_kept {s₀ : State} (n : Nat) (s : State) (h : Kept s₀ s) :
    Kept s₀ (effCtxAdvance n s) := by
  unfold effCtxAdvance
  repeat' (first
    | with_reducible assumption
    | (with_reducible apply State.setFld_kept)
    | (with_reducible apply Kept.ite)
    | (intro _))

theorem State.abortFrame_kept {s₀ : State} (s : State) (n : Nat) (h : Kept s₀ s) :
    Kept s₀ (State.abortFrame s n) := by
  unfold State.abortFrame
  repeat' (first
    | with_reducible assumption
    | (with_reducible apply State.deliver_kept)
    | (with_reducible apply State.setCvuChan_kept)
    | (with_reducible apply Kept.ite)
    | (intro _)
    | (with_reducible refine Kept.of_snd (by assumption) ?_)
    | (with_reducible refine Kept.of_snd2 (by assumption) ?_)
    | (with_reducible refine Kept.of_snd3 (by assumption) ?_)
    | (with_reducible refine Kept.of_fst (by assumption) ?_)
    | (with_reducible refine Kept.of_fst2 (by assumption) ?_)
    | (simp only [Kept.update_iff])
    | (simp only [Kept.tables_iff]; apply KeptTables.intro <;> first | with_reducible assumption | with_reducible refine Kept.of_snd (by assumption) ?_ | with_reducible refine Kept.of_snd2 (by assumption) ?_ | with_reducible refine Kept.of_snd3 (by assumption) ?_ | with_reducible refine Kept.of_fst (by assumption) ?_ | with_reducible refine Kept.of_fst2 (by assumption) ?_ | exact id | exact fun _ => rfl | (intro hw; first | exact Sparse.wf_set _ _ _ hw | exact Sparse.wf_restrict _ _ hw | exact Sparse.wf_filter _ _ hw))
    | split)

theorem effChCfg_kept {s₀ : State} (n : Nat) (t : Itag) (v : Word) (s : State) (h : Kept s₀ s) :
    Kept s₀ (effChCfg n t v s) := by
  unfold effChCfg
  repeat' (first
    | with_reducible assumption
    | (with_reducible apply State.abortFrame_kept)
    | (with_reducible apply State.cfgErr_kept)
    | (with_reducible apply State.setCvuChan_kept)
    | (with_reducible apply State.setFld_kept)
    | (with_reducible apply State.writeGeneric_kept)
    | (with_reducible apply Kept.ite)
    | (intro _))

theorem State.captureFrame_kept {s₀ : State} (s : State) (n : Nat) (h : Kept s₀ s) :
    Kept s₀ (State.captureFrame s n) := by
  unfold State.captureFrame
  repeat' (first
    | with_reducible assumption
    | (with_reducible apply State.readCtx_kept)
    | (with_reducible apply State.setCvuChan_kept)
    | (with_reducible apply Kept.ite)
    | (intro _)
    | (with_reducible refine Kept.of_snd (by assumption) ?_)
    | (with_reducible refine Kept.of_snd2 (by assumption) ?_)
    | (with_reducible refine Kept.of_snd3 (by assumption) ?_)
    | (with_reducible refine Kept.of_fst (by assumption) ?_)
    | (with_reducible refine Kept.of_fst2 (by assumption) ?_)
    | (simp only [Kept.update_iff])
    | (simp only [Kept.tables_iff]; apply KeptTables.intro <;> first | with_reducible assumption | with_reducible refine Kept.of_snd (by assumption) ?_ | with_reducible refine Kept.of_snd2 (by assumption) ?_ | with_reducible refine Kept.of_snd3 (by assumption) ?_ | with_reducible refine Kept.of_fst (by assumption) ?_ | with_reducible refine Kept.of_fst2 (by assumption) ?_ | exact id | exact fun _ => rfl | (intro hw; first | exact Sparse.wf_set _ _ _ hw | exact Sparse.wf_restrict _ _ hw | exact Sparse.wf_filter _ _ hw))
    | split)

theorem effHandOffRecord_kept {s₀ : State} (s : State) (h : Kept s₀ s) :
    Kept s₀ (effHandOffRecord s) := by
  unfold effHandOffRecord
  repeat' (first
    | with_reducible assumption
    | (with_reducible apply State.captureFrame_kept)
    | (with_reducible apply State.takeRecord_kept)
    | (with_reducible apply Kept.ite)
    | (intro _)
    | (with_reducible apply Kept.foldl)
    | (with_reducible apply Kept.foldl_snd)
    | (with_reducible apply Kept.foldl_fst)
    | (with_reducible refine Kept.of_snd (by assumption) ?_)
    | (with_reducible refine Kept.of_snd2 (by assumption) ?_)
    | (with_reducible refine Kept.of_snd3 (by assumption) ?_)
    | (with_reducible refine Kept.of_fst (by assumption) ?_)
    | (with_reducible refine Kept.of_fst2 (by assumption) ?_)
    | (simp only [Kept.update_iff]))

theorem effHandOffVerdict_kept {s₀ : State} (n : Nat) (s : State) (h : Kept s₀ s) :
    Kept s₀ (effHandOffVerdict n s) := by
  unfold effHandOffVerdict
  repeat' (first
    | with_reducible assumption
    | (with_reducible apply State.afterVerdict_kept)
    | (with_reducible apply State.deliver_kept)
    | (with_reducible apply State.handOffVerdict_kept)
    | (with_reducible apply State.injDone_kept)
    | (with_reducible apply Kept.ite)
    | (intro _)
    | (with_reducible refine Kept.of_snd (by assumption) ?_)
    | (with_reducible refine Kept.of_snd2 (by assumption) ?_)
    | (with_reducible refine Kept.of_snd3 (by assumption) ?_)
    | (with_reducible refine Kept.of_fst (by assumption) ?_)
    | (with_reducible refine Kept.of_fst2 (by assumption) ?_)
    | (simp only [Kept.update_iff])
    | (simp only [Kept.tables_iff]; apply KeptTables.intro <;> first | with_reducible assumption | with_reducible refine Kept.of_snd (by assumption) ?_ | with_reducible refine Kept.of_snd2 (by assumption) ?_ | with_reducible refine Kept.of_snd3 (by assumption) ?_ | with_reducible refine Kept.of_fst (by assumption) ?_ | with_reducible refine Kept.of_fst2 (by assumption) ?_ | exact id | exact fun _ => rfl | (intro hw; first | exact Sparse.wf_set _ _ _ hw | exact Sparse.wf_restrict _ _ hw | exact Sparse.wf_filter _ _ hw))
    | split)

end Sys2Proof.Machine
end

