-- ==== Sys2Proof/Laws/KeptWatch.lean ====
section
/-! SUPPORT. What the operations of Machine/Watch.lean keep: the queue of commands, the timebase count and the canonical form of
every table. -/

set_option Elab.async false

set_option linter.tactic.unusedName false

namespace Sys2Proof.Machine

theorem State.setWatch_kept {s₀ : State} (s : State) (w : Watch) (h : Kept s₀ s) :
    Kept s₀ (State.setWatch s w) := by
  unfold State.setWatch
  repeat' (first
    | with_reducible assumption
    | (with_reducible apply Kept.ite)
    | (intro _)
    | (with_reducible refine Kept.of_snd (by assumption) ?_)
    | (with_reducible refine Kept.of_snd2 (by assumption) ?_)
    | (with_reducible refine Kept.of_snd3 (by assumption) ?_)
    | (with_reducible refine Kept.of_fst (by assumption) ?_)
    | (with_reducible refine Kept.of_fst2 (by assumption) ?_)
    | (simp only [Kept.update_iff]))

theorem State.setPhase_kept {s₀ : State} (s : State) (p : Nat) (h : Kept s₀ s) :
    Kept s₀ (State.setPhase s p) := by
  unfold State.setPhase
  repeat' (first
    | with_reducible assumption
    | (with_reducible apply State.setFld_kept))

theorem State.haltMain_kept {s₀ : State} (s : State) (h : Kept s₀ s) :
    Kept s₀ (State.haltMain s) := by
  unfold State.haltMain
  repeat' (first
    | with_reducible assumption
    | (with_reducible apply State.enterSafe_kept)
    | (with_reducible apply State.fly_kept)
    | (with_reducible apply State.setPhase_kept)
    | (with_reducible apply State.setWatch_kept))

theorem State.beginRestart_kept {s₀ : State} (s : State) (h : Kept s₀ s) :
    Kept s₀ (State.beginRestart s) := by
  unfold State.beginRestart
  repeat' (first
    | with_reducible assumption
    | (with_reducible apply State.count_kept)
    | (with_reducible apply State.enterSafe_kept)
    | (with_reducible apply State.fly_kept)
    | (with_reducible apply State.setFld_kept)
    | (with_reducible apply State.setPhase_kept)
    | (with_reducible apply State.setWatch_kept))

theorem State.restartOrHalt_kept {s₀ : State} (s : State) (h : Kept s₀ s) :
    Kept s₀ (State.restartOrHalt s) := by
  unfold State.restartOrHalt
  repeat' (first
    | with_reducible assumption
    | (with_reducible apply State.beginRestart_kept)
    | (with_reducible apply State.haltMain_kept)
    | (with_reducible apply Kept.ite)
    | (intro _))

theorem State.react_kept {s₀ : State} (s : State) (act : Nat) (h : Kept s₀ s) :
    Kept s₀ (State.react s act) := by
  unfold State.react
  repeat' (first
    | with_reducible assumption
    | (with_reducible apply State.enterSafe_kept)
    | (with_reducible apply State.haltMain_kept)
    | (with_reducible apply State.restartOrHalt_kept)
    | (with_reducible apply State.setWatch_kept)
    | (with_reducible apply Kept.ite)
    | (intro _))

theorem State.takeCause_kept {s₀ : State} (s : State) (c : Cause) (h : Kept s₀ s) :
    Kept s₀ (State.takeCause s c) := by
  unfold State.takeCause
  repeat' (first
    | with_reducible assumption
    | (with_reducible apply State.count_kept)
    | (with_reducible apply State.eventRecord_kept)
    | (with_reducible apply State.raise_kept)
    | (with_reducible apply State.react_kept)
    | (with_reducible apply State.setFlag_kept)
    | (with_reducible apply State.setFld_kept)
    | (with_reducible apply State.setWatch_kept)
    | (with_reducible apply Kept.ite)
    | (intro _))

theorem effSafeCause_kept {s₀ : State} (s : State) (h : Kept s₀ s) :
    Kept s₀ (effSafeCause s) := by
  unfold effSafeCause
  repeat' (first
    | with_reducible assumption
    | (with_reducible apply State.setWatch_kept)
    | (with_reducible apply State.takeCause_kept)
    | (with_reducible apply Kept.ite)
    | (intro _)
    | (with_reducible refine Kept.of_snd (by assumption) ?_)
    | (with_reducible refine Kept.of_snd2 (by assumption) ?_)
    | (with_reducible refine Kept.of_snd3 (by assumption) ?_)
    | (with_reducible refine Kept.of_fst (by assumption) ?_)
    | (with_reducible refine Kept.of_fst2 (by assumption) ?_)
    | (simp only [Kept.update_iff])
    | (simp only [Kept.tables_iff]; apply KeptTables.intro <;> first | with_reducible assumption | with_reducible refine Kept.of_snd (by assumption) ?_ | with_reducible refine Kept.of_snd2 (by assumption) ?_ | with_reducible refine Kept.of_snd3 (by assumption) ?_ | with_reducible refine Kept.of_fst (by assumption) ?_ | with_reducible refine Kept.of_fst2 (by assumption) ?_ | exact id | exact fun _ => rfl | (intro hw; first | exact Sparse.wf_set _ _ _ hw | exact Sparse.wf_restrict _ _ hw | exact Sparse.wf_filter _ _ hw))
    | split)

theorem effVerdict_kept {s₀ : State} (s : State) (h : Kept s₀ s) :
    Kept s₀ (effVerdict s) := by
  unfold effVerdict
  repeat' (first
    | with_reducible assumption
    | (with_reducible apply State.count_kept)
    | (with_reducible apply State.enterSafe_kept)
    | (with_reducible apply State.postCause_kept)
    | (with_reducible apply State.raise_kept)
    | (with_reducible apply State.setWatch_kept)
    | (with_reducible apply State.wr_kept)
    | (with_reducible apply Kept.ite)
    | (intro _)
    | (with_reducible refine Kept.of_snd (by assumption) ?_)
    | (with_reducible refine Kept.of_snd2 (by assumption) ?_)
    | (with_reducible refine Kept.of_snd3 (by assumption) ?_)
    | (with_reducible refine Kept.of_fst (by assumption) ?_)
    | (with_reducible refine Kept.of_fst2 (by assumption) ?_)
    | (simp only [Kept.update_iff])
    | (simp only [Kept.tables_iff]; apply KeptTables.intro <;> first | with_reducible assumption | with_reducible refine Kept.of_snd (by assumption) ?_ | with_reducible refine Kept.of_snd2 (by assumption) ?_ | with_reducible refine Kept.of_snd3 (by assumption) ?_ | with_reducible refine Kept.of_fst (by assumption) ?_ | with_reducible refine Kept.of_fst2 (by assumption) ?_ | exact id | exact fun _ => rfl | (intro hw; first | exact Sparse.wf_set _ _ _ hw | exact Sparse.wf_restrict _ _ hw | exact Sparse.wf_filter _ _ hw))
    | split)

theorem effNoPlan_kept {s₀ : State} (s : State) (h : Kept s₀ s) :
    Kept s₀ (effNoPlan s) := by
  unfold effNoPlan
  repeat' (first
    | with_reducible assumption
    | (with_reducible apply State.postCause_kept)
    | (with_reducible apply State.setWatch_kept)
    | (with_reducible apply Kept.ite)
    | (intro _))

theorem effHeartbeat_kept {s₀ : State} (s : State) (h : Kept s₀ s) :
    Kept s₀ (effHeartbeat s) := by
  unfold effHeartbeat
  repeat' (first
    | with_reducible assumption
    | (with_reducible apply State.postCause_kept)
    | (with_reducible apply State.setWatch_kept)
    | (with_reducible apply Kept.ite)
    | (intro _))

theorem effRecovTimeout_kept {s₀ : State} (s : State) (h : Kept s₀ s) :
    Kept s₀ (effRecovTimeout s) := by
  unfold effRecovTimeout
  repeat' (first
    | with_reducible assumption
    | (with_reducible apply State.postCause_kept)
    | (with_reducible apply State.setWatch_kept)
    | (with_reducible apply Kept.ite)
    | (intro _))

theorem effSsCmd_kept {s₀ : State} (v : Word) (t : Itag) (s : State) (h : Kept s₀ s) :
    Kept s₀ (effSsCmd v t s) := by
  unfold effSsCmd
  repeat' (first
    | with_reducible assumption
    | (with_reducible apply State.cfgErr_kept)
    | (with_reducible apply State.enterSafe_kept)
    | (with_reducible apply State.postCause_kept)
    | (with_reducible apply State.setPhase_kept)
    | (with_reducible apply State.setWatch_kept)
    | (with_reducible apply Kept.ite)
    | (intro _))

theorem effQuiesce_kept {s₀ : State} (s : State) (h : Kept s₀ s) :
    Kept s₀ (effQuiesce s) := by
  unfold effQuiesce
  repeat' (first
    | with_reducible assumption
    | (with_reducible apply State.setPhase_kept)
    | (with_reducible apply State.setWatch_kept)
    | (with_reducible apply Kept.ite)
    | (intro _))

theorem State.holdMain_kept {s₀ : State} (s : State) (h : Kept s₀ s) :
    Kept s₀ (State.holdMain s) := by
  unfold State.holdMain
  repeat' (first
    | with_reducible assumption
    | (with_reducible apply State.resetPd_kept)
    | (with_reducible apply State.setFlag_kept)
    | (with_reducible apply State.setPd_kept)
    | (with_reducible apply Kept.ite)
    | (intro _)
    | (with_reducible apply Kept.foldl)
    | (with_reducible apply Kept.foldl_snd)
    | (with_reducible apply Kept.foldl_fst)
    | (with_reducible refine Kept.of_snd (by assumption) ?_)
    | (with_reducible refine Kept.of_snd2 (by assumption) ?_)
    | (with_reducible refine Kept.of_snd3 (by assumption) ?_)
    | (with_reducible refine Kept.of_fst (by assumption) ?_)
    | (with_reducible refine Kept.of_fst2 (by assumption) ?_)
    | (simp only [Kept.update_iff]))

theorem effHold_kept {s₀ : State} (s : State) (h : Kept s₀ s) :
    Kept s₀ (effHold s) := by
  unfold effHold
  repeat' (first
    | with_reducible assumption
    | (with_reducible apply State.holdMain_kept)
    | (with_reducible apply State.setPhase_kept)
    | (with_reducible apply State.setWatch_kept)
    | (with_reducible apply Kept.ite)
    | (intro _))

theorem State.zeroMeas_kept {s₀ : State} (s : State) (i : Nat) (h : Kept s₀ s) :
    Kept s₀ (State.zeroMeas s i) := by
  unfold State.zeroMeas
  repeat' (first
    | with_reducible assumption
    | (with_reducible apply State.wr_kept)
    | (with_reducible apply Kept.ite)
    | (intro _)
    | (with_reducible apply Kept.foldl))

theorem State.releaseMain_kept {s₀ : State} (s : State) (h : Kept s₀ s) :
    Kept s₀ (State.releaseMain s) := by
  unfold State.releaseMain
  repeat' (first
    | with_reducible assumption
    | (with_reducible apply State.setFlag_kept)
    | (with_reducible apply State.setPd_kept)
    | (with_reducible apply State.touch_kept)
    | (with_reducible apply Kept.ite)
    | (intro _)
    | (with_reducible apply Kept.foldl))

theorem State.startMainBoot_kept {s₀ : State} (s : State) (h : Kept s₀ s) :
    Kept s₀ (State.startMainBoot s) := by
  unfold State.startMainBoot
  repeat' (first
    | with_reducible assumption
    | (with_reducible apply State.zeroMeas_kept)
    | (with_reducible apply Kept.ite)
    | (intro _)
    | (with_reducible refine Kept.of_snd (by assumption) ?_)
    | (with_reducible refine Kept.of_snd2 (by assumption) ?_)
    | (with_reducible refine Kept.of_snd3 (by assumption) ?_)
    | (with_reducible refine Kept.of_fst (by assumption) ?_)
    | (with_reducible refine Kept.of_fst2 (by assumption) ?_)
    | (simp only [Kept.update_iff]))

theorem effRelease_kept {s₀ : State} (s : State) (h : Kept s₀ s) :
    Kept s₀ (effRelease s) := by
  unfold effRelease
  repeat' (first
    | with_reducible assumption
    | (with_reducible apply State.releaseMain_kept)
    | (with_reducible apply State.setPhase_kept)
    | (with_reducible apply State.setWatch_kept)
    | (with_reducible apply State.startMainBoot_kept)
    | (with_reducible apply State.zeroMeas_kept)
    | (with_reducible apply Kept.ite)
    | (intro _))

theorem State.sigFails_kept {s₀ : State} (s : State) (h : Kept s₀ s) :
    Kept s₀ (State.sigFails s).2 := by
  unfold State.sigFails
  repeat' (first
    | with_reducible assumption
    | (with_reducible apply State.injDone_kept)
    | (with_reducible apply Kept.ite)
    | (intro _)
    | (with_reducible refine Kept.of_snd (by assumption) ?_)
    | (with_reducible refine Kept.of_snd2 (by assumption) ?_)
    | (with_reducible refine Kept.of_snd3 (by assumption) ?_)
    | (with_reducible refine Kept.of_fst (by assumption) ?_)
    | (with_reducible refine Kept.of_fst2 (by assumption) ?_)
    | (simp only [Kept.update_iff])
    | (simp only [Kept.tables_iff]; apply KeptTables.intro <;> first | with_reducible assumption | with_reducible refine Kept.of_snd (by assumption) ?_ | with_reducible refine Kept.of_snd2 (by assumption) ?_ | with_reducible refine Kept.of_snd3 (by assumption) ?_ | with_reducible refine Kept.of_fst (by assumption) ?_ | with_reducible refine Kept.of_fst2 (by assumption) ?_ | exact id | exact fun _ => rfl | (intro hw; first | exact Sparse.wf_set _ _ _ hw | exact Sparse.wf_restrict _ _ hw | exact Sparse.wf_filter _ _ hw))
    | split)

theorem effImageCheck_kept {s₀ : State} (s : State) (h : Kept s₀ s) :
    Kept s₀ (effImageCheck s) := by
  unfold effImageCheck
  repeat' (first
    | with_reducible assumption
    | (with_reducible apply State.haltMain_kept)
    | (with_reducible apply State.setPhase_kept)
    | (with_reducible apply State.setWatch_kept)
    | (with_reducible apply State.sigFails_kept)
    | (with_reducible apply Kept.ite)
    | (intro _)
    | (with_reducible refine Kept.of_snd (by assumption) ?_)
    | (with_reducible refine Kept.of_snd2 (by assumption) ?_)
    | (with_reducible refine Kept.of_snd3 (by assumption) ?_)
    | (with_reducible refine Kept.of_fst (by assumption) ?_)
    | (with_reducible refine Kept.of_fst2 (by assumption) ?_)
    | (simp only [Kept.update_iff])
    | (simp only [Kept.tables_iff]; apply KeptTables.intro <;> first | with_reducible assumption | with_reducible refine Kept.of_snd (by assumption) ?_ | with_reducible refine Kept.of_snd2 (by assumption) ?_ | with_reducible refine Kept.of_snd3 (by assumption) ?_ | with_reducible refine Kept.of_fst (by assumption) ?_ | with_reducible refine Kept.of_fst2 (by assumption) ?_ | exact id | exact fun _ => rfl | (intro hw; first | exact Sparse.wf_set _ _ _ hw | exact Sparse.wf_restrict _ _ hw | exact Sparse.wf_filter _ _ hw))
    | split)

theorem State.pairMismatch_kept {s₀ : State} (s : State) (p : Nat) (inj : Bool) (h : Kept s₀ s) :
    Kept s₀ (State.pairMismatch s p inj) := by
  unfold State.pairMismatch
  repeat' (first
    | with_reducible assumption
    | (with_reducible apply State.count_kept)
    | (with_reducible apply State.haltMain_kept)
    | (with_reducible apply State.raise_kept)
    | (with_reducible apply State.setFlag_kept)
    | (with_reducible apply State.setWatch_kept)
    | (with_reducible apply Kept.ite)
    | (intro _))

theorem effPairDone_kept {s₀ : State} (p : Nat) (s : State) (h : Kept s₀ s) :
    Kept s₀ (effPairDone p s) := by
  unfold effPairDone
  repeat' (first
    | with_reducible assumption
    | (with_reducible apply State.setFlag_kept)
    | (with_reducible apply State.setWatch_kept)
    | (with_reducible apply Kept.ite)
    | (intro _)
    | (with_reducible refine Kept.of_snd (by assumption) ?_)
    | (with_reducible refine Kept.of_snd2 (by assumption) ?_)
    | (with_reducible refine Kept.of_snd3 (by assumption) ?_)
    | (with_reducible refine Kept.of_fst (by assumption) ?_)
    | (with_reducible refine Kept.of_fst2 (by assumption) ?_)
    | (simp only [Kept.update_iff])
    | (simp only [Kept.tables_iff]; apply KeptTables.intro <;> first | with_reducible assumption | with_reducible refine Kept.of_snd (by assumption) ?_ | with_reducible refine Kept.of_snd2 (by assumption) ?_ | with_reducible refine Kept.of_snd3 (by assumption) ?_ | with_reducible refine Kept.of_fst (by assumption) ?_ | with_reducible refine Kept.of_fst2 (by assumption) ?_ | exact id | exact fun _ => rfl | (intro hw; first | exact Sparse.wf_set _ _ _ hw | exact Sparse.wf_restrict _ _ hw | exact Sparse.wf_filter _ _ hw))
    | split)

theorem effAlive_kept {s₀ : State} (s : State) (h : Kept s₀ s) :
    Kept s₀ (effAlive s) := by
  unfold effAlive
  repeat' (first
    | with_reducible assumption
    | (with_reducible apply State.setWatch_kept)
    | (with_reducible apply Kept.ite)
    | (intro _))

theorem effProtStart_kept {s₀ : State} (k : Nat) (s : State) (h : Kept s₀ s) :
    Kept s₀ (effProtStart k s) := by
  unfold effProtStart
  repeat' (first
    | with_reducible assumption
    | (with_reducible apply State.setWatch_kept)
    | (with_reducible apply Kept.ite)
    | (intro _)
    | (with_reducible apply Kept.foldl)
    | (with_reducible apply Kept.foldl_snd)
    | (with_reducible apply Kept.foldl_fst)
    | (with_reducible refine Kept.of_snd (by assumption) ?_)
    | (with_reducible refine Kept.of_snd2 (by assumption) ?_)
    | (with_reducible refine Kept.of_snd3 (by assumption) ?_)
    | (with_reducible refine Kept.of_fst (by assumption) ?_)
    | (with_reducible refine Kept.of_fst2 (by assumption) ?_)
    | (simp only [Kept.update_iff]))

end Sys2Proof.Machine
end

