-- ==== Sys2Proof/Laws/KeptSupply.lean ====
section
/-! SUPPORT. What the operations of Machine/Supply.lean keep: the queue of commands, the timebase count and the canonical form of
every table. -/

set_option Elab.async false

set_option linter.tactic.unusedName false

namespace Sys2Proof.Machine

theorem State.setPwr_kept {s₀ : State} (s : State) (p : Pwr) (h : Kept s₀ s) :
    Kept s₀ (State.setPwr s p) := by
  unfold State.setPwr
  repeat' (first
    | with_reducible assumption
    | (with_reducible apply Kept.ite)
    | (intro _)
    | (with_reducible refine Kept.of_snd (by assumption) ?_)
    | (with_reducible refine Kept.of_snd2 (by assumption) ?_)
    | (with_reducible refine Kept.of_snd3 (by assumption) ?_)
    | (with_reducible refine Kept.of_fst (by assumption) ?_)
    | (with_reducible refine Kept.of_fst2 (by assumption) ?_)
    | (simp only [Kept.update_iff]))

theorem effClkgate_kept {s₀ : State} (pd : Nat) (s : State) (h : Kept s₀ s) :
    Kept s₀ (effClkgate pd s) := by
  unfold effClkgate
  repeat' (first
    | with_reducible assumption
    | (with_reducible apply State.setPd_kept)
    | (with_reducible apply Kept.ite)
    | (intro _))

theorem effRetention_kept {s₀ : State} (pd : Nat) (s : State) (h : Kept s₀ s) :
    Kept s₀ (effRetention pd s) := by
  unfold effRetention
  repeat' (first
    | with_reducible assumption
    | (with_reducible apply State.setPd_kept)
    | (with_reducible apply Kept.ite)
    | (intro _))

theorem effOff_kept {s₀ : State} (pd : Nat) (s : State) (h : Kept s₀ s) :
    Kept s₀ (effOff pd s) := by
  unfold effOff
  repeat' (first
    | with_reducible assumption
    | (with_reducible apply State.resetPd_kept)
    | (with_reducible apply State.setPd_kept)
    | (with_reducible apply Kept.ite)
    | (intro _))

theorem effWake_kept {s₀ : State} (pd : Nat) (s : State) (h : Kept s₀ s) :
    Kept s₀ (effWake pd s) := by
  unfold effWake
  repeat' (first
    | with_reducible assumption
    | (with_reducible apply State.demandPd_kept)
    | (with_reducible apply Kept.ite)
    | (intro _))

theorem effPrewake_kept {s₀ : State} (pd : Nat) (s : State) (h : Kept s₀ s) :
    Kept s₀ (effPrewake pd s) := by
  unfold effPrewake
  repeat' (first
    | with_reducible assumption
    | (with_reducible apply State.count_kept)
    | (with_reducible apply State.startExit_kept)
    | (with_reducible apply Kept.ite)
    | (intro _)
    | (with_reducible refine Kept.of_snd (by assumption) ?_)
    | (with_reducible refine Kept.of_snd2 (by assumption) ?_)
    | (with_reducible refine Kept.of_snd3 (by assumption) ?_)
    | (with_reducible refine Kept.of_fst (by assumption) ?_)
    | (with_reducible refine Kept.of_fst2 (by assumption) ?_)
    | (simp only [Kept.update_iff])
    | (simp only [Kept.tables_iff]; apply KeptTables.intro <;> first | with_reducible assumption | with_reducible refine Kept.of_snd (by assumption) ?_ | with_reducible refine Kept.of_snd2 (by assumption) ?_ | with_reducible refine Kept.of_snd3 (by assumption) ?_ | with_reducible refine Kept.of_fst (by assumption) ?_ | with_reducible refine Kept.of_fst2 (by assumption) ?_ | exact id | exact fun _ => rfl | (intro hw; first | exact Sparse.wf_set _ _ _ hw | exact Sparse.wf_restrict _ _ hw | exact Sparse.wf_filter _ _ hw))
    | split)

theorem effPdCmd_kept {s₀ : State} (v : Word) (t : Itag) (s : State) (h : Kept s₀ s) :
    Kept s₀ (effPdCmd v t s) := by
  unfold effPdCmd
  repeat' (first
    | with_reducible assumption
    | (with_reducible apply State.cfgErr_kept)
    | (with_reducible apply State.setFld_kept)
    | (with_reducible apply State.startExit_kept)
    | (with_reducible apply Kept.ite)
    | (intro _)
    | (with_reducible refine Kept.of_snd (by assumption) ?_)
    | (with_reducible refine Kept.of_snd2 (by assumption) ?_)
    | (with_reducible refine Kept.of_snd3 (by assumption) ?_)
    | (with_reducible refine Kept.of_fst (by assumption) ?_)
    | (with_reducible refine Kept.of_fst2 (by assumption) ?_)
    | (simp only [Kept.update_iff])
    | (simp only [Kept.tables_iff]; apply KeptTables.intro <;> first | with_reducible assumption | with_reducible refine Kept.of_snd (by assumption) ?_ | with_reducible refine Kept.of_snd2 (by assumption) ?_ | with_reducible refine Kept.of_snd3 (by assumption) ?_ | with_reducible refine Kept.of_fst (by assumption) ?_ | with_reducible refine Kept.of_fst2 (by assumption) ?_ | exact id | exact fun _ => rfl | (intro hw; first | exact Sparse.wf_set _ _ _ hw | exact Sparse.wf_restrict _ _ hw | exact Sparse.wf_filter _ _ hw))
    | split)

theorem State.dropPdMem_kept {s₀ : State} (s : State) (pd : Nat) (h : Kept s₀ s) :
    Kept s₀ (State.dropPdMem s pd) := by
  unfold State.dropPdMem
  repeat' (first
    | with_reducible assumption
    | (with_reducible apply State.dropMem_kept)
    | (with_reducible apply Kept.ite)
    | (intro _))

theorem State.wakeDone_kept {s₀ : State} (s : State) (pd : Nat) (retErr : Bool) (h : Kept s₀ s) :
    Kept s₀ (State.wakeDone s pd retErr) := by
  unfold State.wakeDone
  repeat' (first
    | with_reducible assumption
    | (with_reducible apply State.count_kept)
    | (with_reducible apply State.dropPdMem_kept)
    | (with_reducible apply State.injDone_kept)
    | (with_reducible apply State.resetPd_kept)
    | (with_reducible apply State.setPd_kept)
    | (with_reducible apply State.setPwr_kept)
    | (with_reducible apply State.touch_kept)
    | (with_reducible apply Kept.ite)
    | (intro _)
    | (with_reducible refine Kept.of_snd (by assumption) ?_)
    | (with_reducible refine Kept.of_snd2 (by assumption) ?_)
    | (with_reducible refine Kept.of_snd3 (by assumption) ?_)
    | (with_reducible refine Kept.of_fst (by assumption) ?_)
    | (with_reducible refine Kept.of_fst2 (by assumption) ?_)
    | (simp only [Kept.update_iff])
    | (simp only [Kept.tables_iff]; apply KeptTables.intro <;> first | with_reducible assumption | with_reducible refine Kept.of_snd (by assumption) ?_ | with_reducible refine Kept.of_snd2 (by assumption) ?_ | with_reducible refine Kept.of_snd3 (by assumption) ?_ | with_reducible refine Kept.of_fst (by assumption) ?_ | with_reducible refine Kept.of_fst2 (by assumption) ?_ | exact id | exact fun _ => rfl | (intro hw; first | exact Sparse.wf_set _ _ _ hw | exact Sparse.wf_restrict _ _ hw | exact Sparse.wf_filter _ _ hw))
    | split)

theorem effSleepCmd_kept {s₀ : State} (v : Word) (s : State) (h : Kept s₀ s) :
    Kept s₀ (effSleepCmd v s) := by
  unfold effSleepCmd
  repeat' (first
    | with_reducible assumption
    | (with_reducible apply State.dropMem_kept)
    | (with_reducible apply State.resetPd_kept)
    | (with_reducible apply State.setPd_kept)
    | (with_reducible apply State.setPwr_kept)
    | (with_reducible apply State.startMainBoot_kept)
    | (with_reducible apply Kept.ite)
    | (intro _)
    | (with_reducible apply Kept.foldl))

theorem State.setCeiling_kept {s₀ : State} (s : State) (which v : Nat) (h : Kept s₀ s) :
    Kept s₀ (State.setCeiling s which v) := by
  unfold State.setCeiling
  repeat' (first
    | with_reducible assumption
    | (with_reducible apply State.setFld_kept))

theorem effEstimate_kept {s₀ : State} (p : Nat) (s : State) (h : Kept s₀ s) :
    Kept s₀ (effEstimate p s) := by
  unfold effEstimate
  repeat' (first
    | with_reducible assumption
    | (with_reducible apply State.count_kept)
    | (with_reducible apply State.raise_kept)
    | (with_reducible apply State.setCeiling_kept)
    | (with_reducible apply State.setFld_kept)
    | (with_reducible apply State.setPwr_kept)
    | (with_reducible apply Kept.ite)
    | (intro _))

theorem State.thermalStep_kept {s₀ : State} (s : State) (v : Nat) (h : Kept s₀ s) :
    Kept s₀ (State.thermalStep s v) := by
  unfold State.thermalStep
  repeat' (first
    | with_reducible assumption
    | (with_reducible apply State.setCeiling_kept)
    | (with_reducible apply State.setPwr_kept)
    | (with_reducible apply Kept.ite)
    | (intro _))

theorem effThermal_kept {s₀ : State} (temps : List Nat) (s : State) (h : Kept s₀ s) :
    Kept s₀ (effThermal temps s) := by
  unfold effThermal
  repeat' (first
    | with_reducible assumption
    | (with_reducible apply State.count_kept)
    | (with_reducible apply State.postCause_kept)
    | (with_reducible apply State.raise_kept)
    | (with_reducible apply State.setCeiling_kept)
    | (with_reducible apply State.setFld_kept)
    | (with_reducible apply State.setPwr_kept)
    | (with_reducible apply State.thermalStep_kept)
    | (with_reducible apply Kept.ite)
    | (intro _))

theorem State.inputLow_kept {s₀ : State} (s : State) (mv since : Nat) (h : Kept s₀ s) :
    Kept s₀ (State.inputLow s mv since) := by
  unfold State.inputLow
  repeat' (first
    | with_reducible assumption
    | (with_reducible apply State.setFlag_kept)
    | (with_reducible apply State.setFld_kept)
    | (with_reducible apply State.setPwr_kept))

theorem State.dip_kept {s₀ : State} (s : State) (mv since : Nat) (inj : Bool) (h : Kept s₀ s) :
    Kept s₀ (State.dip s mv since inj) := by
  unfold State.dip
  repeat' (first
    | with_reducible assumption
    | (with_reducible apply State.count_kept)
    | (with_reducible apply State.inputLow_kept)
    | (with_reducible apply State.raise_kept)
    | (with_reducible apply State.setCeiling_kept))

theorem effDip_kept {s₀ : State} (mv : Nat) (s : State) (h : Kept s₀ s) :
    Kept s₀ (effDip mv s) := by
  unfold effDip
  repeat' (first
    | with_reducible assumption
    | (with_reducible apply State.dip_kept)
    | (with_reducible apply Kept.ite)
    | (intro _))

theorem State.inputGood_kept {s₀ : State} (s : State) (mv : Nat) (h : Kept s₀ s) :
    Kept s₀ (State.inputGood s mv) := by
  unfold State.inputGood
  repeat' (first
    | with_reducible assumption
    | (with_reducible apply State.setCeiling_kept)
    | (with_reducible apply State.setFlag_kept)
    | (with_reducible apply State.setFld_kept))

theorem effRecover_kept {s₀ : State} (mv : Nat) (s : State) (h : Kept s₀ s) :
    Kept s₀ (effRecover mv s) := by
  unfold effRecover
  repeat' (first
    | with_reducible assumption
    | (with_reducible apply State.inputGood_kept)
    | (with_reducible apply Kept.ite)
    | (intro _))

theorem effBrownout_kept {s₀ : State} (mv : Nat) (s : State) (h : Kept s₀ s) :
    Kept s₀ (effBrownout mv s) := by
  unfold effBrownout
  repeat' (first
    | with_reducible assumption
    | (with_reducible apply State.count_kept)
    | (with_reducible apply State.fly_kept)
    | (with_reducible apply State.inputLow_kept)
    | (with_reducible apply State.raise_kept)
    | (with_reducible apply State.setPwr_kept)
    | (with_reducible apply State.setWatch_kept)
    | (with_reducible apply Kept.ite)
    | (intro _))

theorem effMemLost_kept {s₀ : State} (mv : Nat) (s : State) (h : Kept s₀ s) :
    Kept s₀ (effMemLost mv s) := by
  unfold effMemLost
  repeat' (first
    | with_reducible assumption
    | (with_reducible apply State.dropMem_kept)
    | (with_reducible apply State.inputLow_kept)
    | (with_reducible apply State.setFlag_kept)
    | (with_reducible apply Kept.ite)
    | (intro _))

theorem effBrownRecover_kept {s₀ : State} (mv : Nat) (s : State) (h : Kept s₀ s) :
    Kept s₀ (effBrownRecover mv s) := by
  unfold effBrownRecover
  repeat' (first
    | with_reducible assumption
    | (with_reducible apply State.inputGood_kept)
    | (with_reducible apply State.postCause_kept)
    | (with_reducible apply State.setPwr_kept)
    | (with_reducible apply Kept.ite)
    | (intro _))

end Sys2Proof.Machine
end

