-- ==== Sys2Proof/Laws/KeptRecords.lean ====
section
/-! SUPPORT. What the operations of Machine/Records.lean keep: the queue of commands, the timebase count and the canonical form of
every table. -/

set_option Elab.async false

set_option linter.tactic.unusedName false

namespace Sys2Proof.Machine

theorem State.setBoot_kept {s₀ : State} (s : State) (b : Boot) (h : Kept s₀ s) :
    Kept s₀ (State.setBoot s b) := by
  unfold State.setBoot
  repeat' (first
    | with_reducible assumption
    | (with_reducible apply Kept.ite)
    | (intro _)
    | (with_reducible refine Kept.of_snd (by assumption) ?_)
    | (with_reducible refine Kept.of_snd2 (by assumption) ?_)
    | (with_reducible refine Kept.of_snd3 (by assumption) ?_)
    | (with_reducible refine Kept.of_fst (by assumption) ?_)
    | (with_reducible refine Kept.of_fst2 (by assumption) ?_)
    | (simp only [Kept.update_iff]))

theorem State.setDigest_kept {s₀ : State} (s : State) (k : Nat) (d : List Byte) (h : Kept s₀ s) :
    Kept s₀ (State.setDigest s k d) := by
  unfold State.setDigest
  repeat' (first
    | with_reducible assumption
    | (with_reducible apply State.wr_kept)
    | (with_reducible apply Kept.ite)
    | (intro _)
    | (with_reducible apply Kept.foldl))

theorem State.flashWrite_kept {s₀ : State} (s : State) (a : Nat) (bs : List Byte) (h : Kept s₀ s) :
    Kept s₀ (State.flashWrite s a bs) := by
  unfold State.flashWrite
  repeat' (first
    | with_reducible assumption
    | (with_reducible apply State.heal_kept)
    | (with_reducible apply State.writeKey_kept)
    | (with_reducible apply writeRun_kept)
    | (with_reducible apply Kept.ite)
    | (intro _))

theorem State.verify_kept {s₀ : State} (s : State) (r : Rec) (type signer : Nat) (h : Kept s₀ s) :
    Kept s₀ (State.verify s r type signer).2 := by
  unfold State.verify
  repeat' (first
    | with_reducible assumption
    | (with_reducible apply State.count_kept)
    | (with_reducible apply State.sigFails_kept)
    | (with_reducible apply Kept.ite)
    | (intro _)
    | (with_reducible refine Kept.of_snd (by assumption) ?_)
    | (with_reducible refine Kept.of_snd2 (by assumption) ?_)
    | (with_reducible refine Kept.of_snd3 (by assumption) ?_)
    | (with_reducible refine Kept.of_fst (by assumption) ?_)
    | (with_reducible refine Kept.of_fst2 (by assumption) ?_)
    | (simp only [Kept.update_iff])
    | (simp only [Kept.tables_iff]; apply KeptTables.intro <;> first | with_reducible assumption | with_reducible refine Kept.of_snd (by assumption) ?_ | with_reducible refine Kept.of_snd2 (by assumption) ?_ | with_reducible refine Kept.of_snd3 (by assumption) ?_ | with_reducible refine Kept.of_fst (by assumption) ?_ | with_reducible refine Kept.of_fst2 (by assumption) ?_ | exact id | exact fun _ => rfl | (intro hw; first | exact Sparse.wf_set _ _ _ hw | exact Sparse.wf_restrict _ _ hw | exact Sparse.wf_filter _ _ hw))
    | split)

theorem State.validRec_kept {s₀ : State} (s : State) (a area type : Nat) (h : Kept s₀ s) :
    Kept s₀ (State.validRec s a area type).2 := by
  unfold State.validRec
  repeat' (first
    | with_reducible assumption
    | (with_reducible apply State.verify_kept)
    | (with_reducible apply Kept.ite)
    | (intro _)
    | (with_reducible refine Kept.of_snd (by assumption) ?_)
    | (with_reducible refine Kept.of_snd2 (by assumption) ?_)
    | (with_reducible refine Kept.of_snd3 (by assumption) ?_)
    | (with_reducible refine Kept.of_fst (by assumption) ?_)
    | (with_reducible refine Kept.of_fst2 (by assumption) ?_)
    | (simp only [Kept.update_iff])
    | (simp only [Kept.tables_iff]; apply KeptTables.intro <;> first | with_reducible assumption | with_reducible refine Kept.of_snd (by assumption) ?_ | with_reducible refine Kept.of_snd2 (by assumption) ?_ | with_reducible refine Kept.of_snd3 (by assumption) ?_ | with_reducible refine Kept.of_fst (by assumption) ?_ | with_reducible refine Kept.of_fst2 (by assumption) ?_ | exact id | exact fun _ => rfl | (intro hw; first | exact Sparse.wf_set _ _ _ hw | exact Sparse.wf_restrict _ _ hw | exact Sparse.wf_filter _ _ hw))
    | split)

theorem State.chooseSlot_kept {s₀ : State} (s : State) (a b area type : Nat) (failed : Bool) (h : Kept s₀ s) :
    Kept s₀ (State.chooseSlot s a b area type failed).2 := by
  unfold State.chooseSlot
  repeat' (first
    | with_reducible assumption
    | (with_reducible apply State.count_kept)
    | (with_reducible apply State.validRec_kept)
    | (with_reducible apply Kept.ite)
    | (intro _)
    | (with_reducible refine Kept.of_snd (by assumption) ?_)
    | (with_reducible refine Kept.of_snd2 (by assumption) ?_)
    | (with_reducible refine Kept.of_snd3 (by assumption) ?_)
    | (with_reducible refine Kept.of_fst (by assumption) ?_)
    | (with_reducible refine Kept.of_fst2 (by assumption) ?_)
    | (simp only [Kept.update_iff])
    | (simp only [Kept.tables_iff]; apply KeptTables.intro <;> first | with_reducible assumption | with_reducible refine Kept.of_snd (by assumption) ?_ | with_reducible refine Kept.of_snd2 (by assumption) ?_ | with_reducible refine Kept.of_snd3 (by assumption) ?_ | with_reducible refine Kept.of_fst (by assumption) ?_ | with_reducible refine Kept.of_fst2 (by assumption) ?_ | exact id | exact fun _ => rfl | (intro hw; first | exact Sparse.wf_set _ _ _ hw | exact Sparse.wf_restrict _ _ hw | exact Sparse.wf_filter _ _ hw))
    | split)

theorem State.chooseCopy_kept {s₀ : State} (s : State) (a b area type : Nat) (h : Kept s₀ s) :
    Kept s₀ (State.chooseCopy s a b area type).2 := by
  unfold State.chooseCopy
  repeat' (first
    | with_reducible assumption
    | (with_reducible apply State.count_kept)
    | (with_reducible apply State.eventRecord_kept)
    | (with_reducible apply State.validRec_kept)
    | (with_reducible apply Kept.ite)
    | (intro _)
    | (with_reducible refine Kept.of_snd (by assumption) ?_)
    | (with_reducible refine Kept.of_snd2 (by assumption) ?_)
    | (with_reducible refine Kept.of_snd3 (by assumption) ?_)
    | (with_reducible refine Kept.of_fst (by assumption) ?_)
    | (with_reducible refine Kept.of_fst2 (by assumption) ?_)
    | (simp only [Kept.update_iff])
    | (simp only [Kept.tables_iff]; apply KeptTables.intro <;> first | with_reducible assumption | with_reducible refine Kept.of_snd (by assumption) ?_ | with_reducible refine Kept.of_snd2 (by assumption) ?_ | with_reducible refine Kept.of_snd3 (by assumption) ?_ | with_reducible refine Kept.of_fst (by assumption) ?_ | with_reducible refine Kept.of_fst2 (by assumption) ?_ | exact id | exact fun _ => rfl | (intro hw; first | exact Sparse.wf_set _ _ _ hw | exact Sparse.wf_restrict _ _ hw | exact Sparse.wf_filter _ _ hw))
    | split)

theorem State.readReplay_kept {s₀ : State} (s : State) (good : Bool) (h : Kept s₀ s) :
    Kept s₀ (State.readReplay s good) := by
  unfold State.readReplay
  repeat' (first
    | with_reducible assumption
    | (with_reducible apply State.count_kept)
    | (with_reducible apply State.injDone_kept)
    | (with_reducible apply State.raise_kept)
    | (with_reducible apply State.wr_kept)
    | (with_reducible apply Kept.ite)
    | (intro _)
    | (with_reducible apply Kept.foldl))

theorem State.extend_kept {s₀ : State} (s : State) (i : Nat) (d : List Byte) (h : Kept s₀ s) :
    Kept s₀ (State.extend s i d) := by
  unfold State.extend
  repeat' (first
    | with_reducible assumption
    | (with_reducible apply State.setDigest_kept))

theorem State.nowRunning_kept {s₀ : State} (s : State) (r : Rec) (h : Kept s₀ s) :
    Kept s₀ (State.nowRunning s r) := by
  unfold State.nowRunning
  repeat' (first
    | with_reducible assumption
    | (with_reducible apply State.setBoot_kept))

theorem State.setSlot_kept {s₀ : State} (s : State) (i slot : Nat) (h : Kept s₀ s) :
    Kept s₀ (State.setSlot s i slot) := by
  unfold State.setSlot
  repeat' (first
    | with_reducible assumption
    | (with_reducible apply State.setFlag_kept))

theorem State.phaseDone_kept {s₀ : State} (s : State) (n : Nat) (h : Kept s₀ s) :
    Kept s₀ (State.phaseDone s n) := by
  unfold State.phaseDone
  repeat' (first
    | with_reducible assumption
    | (with_reducible apply State.setBoot_kept)
    | (with_reducible apply State.setFld_kept))

theorem State.bootFail_kept {s₀ : State} (s : State) (code : Nat) (h : Kept s₀ s) :
    Kept s₀ (State.bootFail s code) := by
  unfold State.bootFail
  repeat' (first
    | with_reducible assumption
    | (with_reducible apply State.haltMain_kept)
    | (with_reducible apply State.raise_kept)
    | (with_reducible apply State.setFld_kept)
    | (with_reducible apply Kept.ite)
    | (intro _))

end Sys2Proof.Machine
end

