-- ==== Sys2Proof/Laws/KeptBoot.lean ====
section
/-! SUPPORT. What the operations of Machine/Boot.lean keep: the queue of commands, the timebase count and the canonical form of
every table. -/

set_option Elab.async false

set_option linter.tactic.unusedName false

namespace Sys2Proof.Machine

theorem effBootRom_kept {s₀ : State} (pufDiff : Nat) (replayOk : Bool) (s : State) (h : Kept s₀ s) :
    Kept s₀ (effBootRom pufDiff replayOk s) := by
  unfold effBootRom
  repeat' (first
    | with_reducible assumption
    | (with_reducible apply Opening.open__kept)
    | (with_reducible apply State.bootFail_kept)
    | (with_reducible apply State.count_kept)
    | (with_reducible apply State.draw_kept)
    | (with_reducible apply State.phaseDone_kept)
    | (with_reducible apply State.readReplay_kept)
    | (with_reducible apply State.setBoot_kept)
    | (with_reducible apply State.setDigest_kept)
    | (with_reducible apply State.setFlag_kept)
    | (with_reducible apply State.setFld_kept)
    | (with_reducible apply State.wr_kept)
    | (with_reducible apply Kept.ite)
    | (intro _)
    | (with_reducible apply Kept.foldl))

theorem State.pairDescriptors_kept {s₀ : State} (s : State) (h : Kept s₀ s) :
    Kept s₀ (State.pairDescriptors s) := by
  unfold State.pairDescriptors
  repeat' (first
    | with_reducible assumption
    | (with_reducible apply Kept.ite)
    | (intro _)
    | (with_reducible apply Kept.foldl)
    | (with_reducible apply Kept.foldl_snd)
    | (with_reducible apply Kept.foldl_fst)
    | (with_reducible refine Kept.of_snd (by assumption) ?_)
    | (with_reducible refine Kept.of_snd2 (by assumption) ?_)
    | (with_reducible refine Kept.of_snd3 (by assumption) ?_)
    | (with_reducible refine Kept.of_fst (by assumption) ?_)
    | (with_reducible refine Kept.of_fst2 (by assumption) ?_)
    | (simp only [Kept.update_iff]))

theorem State.runFirmware_kept {s₀ : State} (s : State) (slot : Nat) (r : Rec) (h : Kept s₀ s) :
    Kept s₀ (State.runFirmware s slot r) := by
  unfold State.runFirmware
  repeat' (first
    | with_reducible assumption
    | (with_reducible apply Opening.extend_kept)
    | (with_reducible apply State.extend_kept)
    | (with_reducible apply State.nowRunning_kept)
    | (with_reducible apply State.pairDescriptors_kept)
    | (with_reducible apply State.phaseDone_kept)
    | (with_reducible apply State.setSlot_kept))

theorem effBootFirmware_kept {s₀ : State} (failed : Bool) (s : State) (h : Kept s₀ s) :
    Kept s₀ (effBootFirmware failed s) := by
  unfold effBootFirmware
  repeat' (first
    | with_reducible assumption
    | (with_reducible apply State.chooseSlot_kept)
    | (with_reducible apply State.holdMain_kept)
    | (with_reducible apply State.raise_kept)
    | (with_reducible apply State.runFirmware_kept)
    | (with_reducible apply State.setFld_kept)
    | (with_reducible apply Kept.ite)
    | (intro _)
    | (with_reducible refine Kept.of_snd (by assumption) ?_)
    | (with_reducible refine Kept.of_snd2 (by assumption) ?_)
    | (with_reducible refine Kept.of_snd3 (by assumption) ?_)
    | (with_reducible refine Kept.of_fst (by assumption) ?_)
    | (with_reducible refine Kept.of_fst2 (by assumption) ?_)
    | (simp only [Kept.update_iff])
    | (simp only [Kept.tables_iff]; apply KeptTables.intro <;> first | with_reducible assumption | with_reducible refine Kept.of_snd (by assumption) ?_ | with_reducible refine Kept.of_snd2 (by assumption) ?_ | with_reducible refine Kept.of_snd3 (by assumption) ?_ | with_reducible refine Kept.of_fst (by assumption) ?_ | with_reducible refine Kept.of_fst2 (by assumption) ?_ | exact id | exact fun _ => rfl | (intro hw; first | exact Sparse.wf_set _ _ _ hw | exact Sparse.wf_restrict _ _ hw | exact Sparse.wf_filter _ _ hw))
    | split)

theorem effRecoveryFrame_kept {s₀ : State} (off : Nat) (data : List Byte) (s : State) (h : Kept s₀ s) :
    Kept s₀ (effRecoveryFrame off data s) := by
  unfold effRecoveryFrame
  repeat' (first
    | with_reducible assumption
    | (with_reducible apply State.flashWrite_kept)
    | (with_reducible apply Kept.ite)
    | (intro _))

theorem effRecoveryDone_kept {s₀ : State} (s : State) (h : Kept s₀ s) :
    Kept s₀ (effRecoveryDone s) := by
  unfold effRecoveryDone
  repeat' (first
    | with_reducible assumption
    | (with_reducible apply State.runFirmware_kept)
    | (with_reducible apply State.setFld_kept)
    | (with_reducible apply State.validRec_kept)
    | (with_reducible apply Kept.ite)
    | (intro _)
    | (with_reducible refine Kept.of_snd (by assumption) ?_)
    | (with_reducible refine Kept.of_snd2 (by assumption) ?_)
    | (with_reducible refine Kept.of_snd3 (by assumption) ?_)
    | (with_reducible refine Kept.of_fst (by assumption) ?_)
    | (with_reducible refine Kept.of_fst2 (by assumption) ?_)
    | (simp only [Kept.update_iff])
    | (simp only [Kept.tables_iff]; apply KeptTables.intro <;> first | with_reducible assumption | with_reducible refine Kept.of_snd (by assumption) ?_ | with_reducible refine Kept.of_snd2 (by assumption) ?_ | with_reducible refine Kept.of_snd3 (by assumption) ?_ | with_reducible refine Kept.of_fst (by assumption) ?_ | with_reducible refine Kept.of_fst2 (by assumption) ?_ | exact id | exact fun _ => rfl | (intro hw; first | exact Sparse.wf_set _ _ _ hw | exact Sparse.wf_restrict _ _ hw | exact Sparse.wf_filter _ _ hw))
    | split)

theorem State.applyConfig_kept {s₀ : State} (s : State) (r : Rec) (h : Kept s₀ s) :
    Kept s₀ (State.applyConfig s r) := by
  unfold State.applyConfig
  repeat' (first
    | with_reducible assumption
    | (with_reducible apply State.count_kept)
    | (with_reducible apply State.setBoot_kept)
    | (with_reducible apply State.setFlag_kept)
    | (with_reducible apply State.writeGeneric_kept)
    | (with_reducible apply effLockcfgWrite_kept)
    | (with_reducible apply Kept.ite)
    | (intro _)
    | (with_reducible apply Kept.foldl)
    | (with_reducible apply Kept.foldl_snd)
    | (with_reducible apply Kept.foldl_fst)
    | (with_reducible refine Kept.of_snd (by assumption) ?_)
    | (with_reducible refine Kept.of_snd2 (by assumption) ?_)
    | (with_reducible refine Kept.of_snd3 (by assumption) ?_)
    | (with_reducible refine Kept.of_fst (by assumption) ?_)
    | (with_reducible refine Kept.of_fst2 (by assumption) ?_)
    | (simp only [Kept.update_iff]))

theorem State.measureDebug_kept {s₀ : State} (s : State) (h : Kept s₀ s) :
    Kept s₀ (State.measureDebug s) := by
  unfold State.measureDebug
  repeat' (first
    | with_reducible assumption
    | (with_reducible apply Opening.extend_kept)
    | (with_reducible apply State.extend_kept)
    | (with_reducible apply State.freeWords_kept))

theorem effBootRecords_kept {s₀ : State} (failed : Bool) (s : State) (h : Kept s₀ s) :
    Kept s₀ (effBootRecords failed s) := by
  unfold effBootRecords
  repeat' (first
    | with_reducible assumption
    | (with_reducible apply Opening.extend_kept)
    | (with_reducible apply State.applyConfig_kept)
    | (with_reducible apply State.bootFail_kept)
    | (with_reducible apply State.count_kept)
    | (with_reducible apply State.extend_kept)
    | (with_reducible apply State.measureDebug_kept)
    | (with_reducible apply State.nowRunning_kept)
    | (with_reducible apply State.phaseDone_kept)
    | (with_reducible apply State.setBoot_kept)
    | (with_reducible apply State.setSlot_kept)
    | (with_reducible apply State.validRec_kept)
    | (with_reducible apply Kept.ite)
    | (intro _)
    | (with_reducible refine Kept.of_snd (by assumption) ?_)
    | (with_reducible refine Kept.of_snd2 (by assumption) ?_)
    | (with_reducible refine Kept.of_snd3 (by assumption) ?_)
    | (with_reducible refine Kept.of_fst (by assumption) ?_)
    | (with_reducible refine Kept.of_fst2 (by assumption) ?_)
    | (simp only [Kept.update_iff])
    | (simp only [Kept.tables_iff]; apply KeptTables.intro <;> first | with_reducible assumption | with_reducible refine Kept.of_snd (by assumption) ?_ | with_reducible refine Kept.of_snd2 (by assumption) ?_ | with_reducible refine Kept.of_snd3 (by assumption) ?_ | with_reducible refine Kept.of_fst (by assumption) ?_ | with_reducible refine Kept.of_fst2 (by assumption) ?_ | exact id | exact fun _ => rfl | (intro hw; first | exact Sparse.wf_set _ _ _ hw | exact Sparse.wf_restrict _ _ hw | exact Sparse.wf_filter _ _ hw))
    | split)

theorem State.loadDrive_kept {s₀ : State} (s : State) (r : Rec) (h : Kept s₀ s) :
    Kept s₀ (State.loadDrive s r) := by
  unfold State.loadDrive
  repeat' (first
    | with_reducible assumption
    | (with_reducible apply State.loopCommand_kept)
    | (with_reducible apply State.setFlag_kept)
    | (with_reducible apply State.setRoles_kept)
    | (with_reducible apply State.sramWrite_kept)
    | (with_reducible apply effCanCfg_kept)
    | (with_reducible apply Kept.ite)
    | (intro _)
    | (with_reducible apply Kept.foldl))

theorem effBootIsland_kept {s₀ : State} (failed : Bool) (s : State) (h : Kept s₀ s) :
    Kept s₀ (effBootIsland failed s) := by
  unfold effBootIsland
  repeat' (first
    | with_reducible assumption
    | (with_reducible apply Opening.extend_kept)
    | (with_reducible apply State.bootFail_kept)
    | (with_reducible apply State.chooseSlot_kept)
    | (with_reducible apply State.extend_kept)
    | (with_reducible apply State.loadDrive_kept)
    | (with_reducible apply State.nowRunning_kept)
    | (with_reducible apply State.phaseDone_kept)
    | (with_reducible apply State.setSlot_kept)
    | (with_reducible apply Kept.ite)
    | (intro _)
    | (with_reducible refine Kept.of_snd (by assumption) ?_)
    | (with_reducible refine Kept.of_snd2 (by assumption) ?_)
    | (with_reducible refine Kept.of_snd3 (by assumption) ?_)
    | (with_reducible refine Kept.of_fst (by assumption) ?_)
    | (with_reducible refine Kept.of_fst2 (by assumption) ?_)
    | (simp only [Kept.update_iff])
    | (simp only [Kept.tables_iff]; apply KeptTables.intro <;> first | with_reducible assumption | with_reducible refine Kept.of_snd (by assumption) ?_ | with_reducible refine Kept.of_snd2 (by assumption) ?_ | with_reducible refine Kept.of_snd3 (by assumption) ?_ | with_reducible refine Kept.of_fst (by assumption) ?_ | with_reducible refine Kept.of_fst2 (by assumption) ?_ | exact id | exact fun _ => rfl | (intro hw; first | exact Sparse.wf_set _ _ _ hw | exact Sparse.wf_restrict _ _ hw | exact Sparse.wf_filter _ _ hw))
    | split)

theorem effBootMainPower_kept {s₀ : State} (s : State) (h : Kept s₀ s) :
    Kept s₀ (effBootMainPower s) := by
  unfold effBootMainPower
  repeat' (first
    | with_reducible assumption
    | (with_reducible apply State.chooseCopy_kept)
    | (with_reducible apply State.phaseDone_kept)
    | (with_reducible apply State.releaseMain_kept)
    | (with_reducible apply State.setBoot_kept)
    | (with_reducible apply State.setFlag_kept)
    | (with_reducible apply State.setRail_kept)
    | (with_reducible apply State.setSlot_kept)
    | (with_reducible apply Kept.ite)
    | (intro _)
    | (with_reducible apply Kept.foldl)
    | (with_reducible apply Kept.foldl_snd)
    | (with_reducible apply Kept.foldl_fst)
    | (with_reducible refine Kept.of_snd (by assumption) ?_)
    | (with_reducible refine Kept.of_snd2 (by assumption) ?_)
    | (with_reducible refine Kept.of_snd3 (by assumption) ?_)
    | (with_reducible refine Kept.of_fst (by assumption) ?_)
    | (with_reducible refine Kept.of_fst2 (by assumption) ?_)
    | (simp only [Kept.update_iff])
    | (simp only [Kept.tables_iff]; apply KeptTables.intro <;> first | with_reducible assumption | with_reducible refine Kept.of_snd (by assumption) ?_ | with_reducible refine Kept.of_snd2 (by assumption) ?_ | with_reducible refine Kept.of_snd3 (by assumption) ?_ | with_reducible refine Kept.of_fst (by assumption) ?_ | with_reducible refine Kept.of_fst2 (by assumption) ?_ | exact id | exact fun _ => rfl | (intro hw; first | exact Sparse.wf_set _ _ _ hw | exact Sparse.wf_restrict _ _ hw | exact Sparse.wf_filter _ _ hw))
    | split)

theorem effBootMemory_kept {s₀ : State} (s : State) (h : Kept s₀ s) :
    Kept s₀ (effBootMemory s) := by
  unfold effBootMemory
  repeat' (first
    | with_reducible assumption
    | (with_reducible apply State.phaseDone_kept)
    | (with_reducible apply Kept.ite)
    | (intro _))

theorem State.setRstHash_kept {s₀ : State} (s : State) (d : List Byte) (h : Kept s₀ s) :
    Kept s₀ (State.setRstHash s d) := by
  unfold State.setRstHash
  repeat' (first
    | with_reducible assumption
    | (with_reducible apply State.setDigest_kept)
    | (with_reducible apply Kept.ite)
    | (intro _)
    | (with_reducible apply Kept.foldl)
    | (with_reducible apply Kept.foldl_snd)
    | (with_reducible apply Kept.foldl_fst)
    | (with_reducible refine Kept.of_snd (by assumption) ?_)
    | (with_reducible refine Kept.of_snd2 (by assumption) ?_)
    | (with_reducible refine Kept.of_snd3 (by assumption) ?_)
    | (with_reducible refine Kept.of_fst (by assumption) ?_)
    | (with_reducible refine Kept.of_fst2 (by assumption) ?_)
    | (simp only [Kept.update_iff]))

theorem effBootImage_kept {s₀ : State} (failed : Bool) (s : State) (h : Kept s₀ s) :
    Kept s₀ (effBootImage failed s) := by
  unfold effBootImage
  repeat' (first
    | with_reducible assumption
    | (with_reducible apply Opening.extend_kept)
    | (with_reducible apply State.bootFail_kept)
    | (with_reducible apply State.chooseSlot_kept)
    | (with_reducible apply State.extend_kept)
    | (with_reducible apply State.heal_kept)
    | (with_reducible apply State.nowRunning_kept)
    | (with_reducible apply State.phaseDone_kept)
    | (with_reducible apply State.readReplay_kept)
    | (with_reducible apply State.setBoot_kept)
    | (with_reducible apply State.setRstHash_kept)
    | (with_reducible apply State.setSlot_kept)
    | (with_reducible apply State.writeKey_kept)
    | (with_reducible apply writeRun_kept)
    | (with_reducible apply Kept.ite)
    | (intro _)
    | (with_reducible refine Kept.of_snd (by assumption) ?_)
    | (with_reducible refine Kept.of_snd2 (by assumption) ?_)
    | (with_reducible refine Kept.of_snd3 (by assumption) ?_)
    | (with_reducible refine Kept.of_fst (by assumption) ?_)
    | (with_reducible refine Kept.of_fst2 (by assumption) ?_)
    | (with_reducible refine KeptOpt.elim (by assumption) ?_)
    | (with_reducible refine KeptOpt₂.elim (by assumption) ?_)
    | (with_reducible refine KeptOpt₂.elim' (by assumption) ?_)
    | (with_reducible apply KeptOpt.getD)
    | (with_reducible apply KeptOpt.findSome)
    | (with_reducible apply KeptOpt₂.findSome)
    | (simp only [Kept.update_iff])
    | (simp only [Kept.tables_iff]; apply KeptTables.intro <;> first | with_reducible assumption | with_reducible refine Kept.of_snd (by assumption) ?_ | with_reducible refine Kept.of_snd2 (by assumption) ?_ | with_reducible refine Kept.of_snd3 (by assumption) ?_ | with_reducible refine Kept.of_fst (by assumption) ?_ | with_reducible refine Kept.of_fst2 (by assumption) ?_ | with_reducible refine KeptOpt.elim (by assumption) ?_ | with_reducible refine KeptOpt₂.elim (by assumption) ?_ | with_reducible refine KeptOpt₂.elim' (by assumption) ?_ | with_reducible apply KeptOpt.getD | with_reducible apply KeptOpt.findSome | with_reducible apply KeptOpt₂.findSome | exact id | exact fun _ => rfl | (intro hw; first | exact Sparse.wf_set _ _ _ hw | exact Sparse.wf_restrict _ _ hw | exact Sparse.wf_filter _ _ hw))
    | split)

theorem SpareSet.bootBind_kept {s₀ : State} (S : SpareSet) (s : State) (l : Nat) (h : Kept s₀ s) :
    Kept s₀ (SpareSet.bootBind S s l) := by
  unfold SpareSet.bootBind
  repeat' (first
    | with_reducible assumption
    | (with_reducible apply SpareSet.bindTo_kept)
    | (with_reducible apply SpareSet.setAvail_kept)
    | (with_reducible apply State.postCause_kept)
    | (with_reducible apply State.raise_kept)
    | (with_reducible apply State.setFlag_kept)
    | (with_reducible apply Kept.ite)
    | (intro _)
    | (with_reducible refine Kept.of_snd (by assumption) ?_)
    | (with_reducible refine Kept.of_snd2 (by assumption) ?_)
    | (with_reducible refine Kept.of_snd3 (by assumption) ?_)
    | (with_reducible refine Kept.of_fst (by assumption) ?_)
    | (with_reducible refine Kept.of_fst2 (by assumption) ?_)
    | (simp only [Kept.update_iff])
    | (simp only [Kept.tables_iff]; apply KeptTables.intro <;> first | with_reducible assumption | with_reducible refine Kept.of_snd (by assumption) ?_ | with_reducible refine Kept.of_snd2 (by assumption) ?_ | with_reducible refine Kept.of_snd3 (by assumption) ?_ | with_reducible refine Kept.of_fst (by assumption) ?_ | with_reducible refine Kept.of_fst2 (by assumption) ?_ | exact id | exact fun _ => rfl | (intro hw; first | exact Sparse.wf_set _ _ _ hw | exact Sparse.wf_restrict _ _ hw | exact Sparse.wf_filter _ _ hw))
    | split)

theorem SpareSet.selfTest_kept {s₀ : State} (S : SpareSet) (fs : List FailedPart) (retired : List (Nat × Nat)) (s : State) (h : Kept s₀ s) :
    Kept s₀ (SpareSet.selfTest S fs retired s) := by
  unfold SpareSet.selfTest
  repeat' (first
    | with_reducible assumption
    | (with_reducible apply SpareSet.bootBind_kept)
    | (with_reducible apply SpareSet.setSt_kept)
    | (with_reducible apply Kept.ite)
    | (intro _)
    | (with_reducible apply Kept.foldl))

theorem State.selfTestCores_kept {s₀ : State} (s : State) (fs : List FailedPart) (retired : List (Nat × Nat)) (h : Kept s₀ s) :
    Kept s₀ (State.selfTestCores s fs retired) := by
  unfold State.selfTestCores
  repeat' (first
    | with_reducible assumption
    | (with_reducible apply SpareSet.bootBind_kept)
    | (with_reducible apply SpareSet.setSt_kept)
    | (with_reducible apply Kept.ite)
    | (intro _)
    | (with_reducible apply Kept.foldl))

theorem State.selfTestRows_kept {s₀ : State} (s : State) (fs : List FailedPart) (retired : List (Nat × Nat)) (h : Kept s₀ s) :
    Kept s₀ (State.selfTestRows s fs retired) := by
  unfold State.selfTestRows
  repeat' (first
    | with_reducible assumption
    | (with_reducible apply Kept.ite)
    | (intro _)
    | (with_reducible apply Kept.foldl)
    | (with_reducible apply Kept.foldl_snd)
    | (with_reducible apply Kept.foldl_fst)
    | (with_reducible refine Kept.of_snd (by assumption) ?_)
    | (with_reducible refine Kept.of_snd2 (by assumption) ?_)
    | (with_reducible refine Kept.of_snd3 (by assumption) ?_)
    | (with_reducible refine Kept.of_fst (by assumption) ?_)
    | (with_reducible refine Kept.of_fst2 (by assumption) ?_)
    | (simp only [Kept.update_iff]))

theorem State.selfTestPcs_kept {s₀ : State} (s : State) (fs : List FailedPart) (retired : List (Nat × Nat)) (h : Kept s₀ s) :
    Kept s₀ (State.selfTestPcs s fs retired) := by
  unfold State.selfTestPcs
  repeat' (first
    | with_reducible assumption
    | (with_reducible apply State.setPcState_kept)
    | (with_reducible apply Kept.ite)
    | (intro _)
    | (with_reducible apply Kept.foldl))

theorem effBootSelftest_kept {s₀ : State} (fs : List FailedPart) (s : State) (h : Kept s₀ s) :
    Kept s₀ (effBootSelftest fs s) := by
  unfold effBootSelftest
  repeat' (first
    | with_reducible assumption
    | (with_reducible apply Opening.extend_kept)
    | (with_reducible apply SpareSet.selfTest_kept)
    | (with_reducible apply State.chooseCopy_kept)
    | (with_reducible apply State.extend_kept)
    | (with_reducible apply State.flashWrite_kept)
    | (with_reducible apply State.phaseDone_kept)
    | (with_reducible apply State.selfTestCores_kept)
    | (with_reducible apply State.selfTestPcs_kept)
    | (with_reducible apply State.selfTestRows_kept)
    | (with_reducible apply State.setSlot_kept)
    | (with_reducible apply Kept.ite)
    | (intro _)
    | (with_reducible apply Kept.foldl)
    | (with_reducible apply Kept.foldl_snd)
    | (with_reducible apply Kept.foldl_fst)
    | (with_reducible refine Kept.of_snd (by assumption) ?_)
    | (with_reducible refine Kept.of_snd2 (by assumption) ?_)
    | (with_reducible refine Kept.of_snd3 (by assumption) ?_)
    | (with_reducible refine Kept.of_fst (by assumption) ?_)
    | (with_reducible refine Kept.of_fst2 (by assumption) ?_)
    | (simp only [Kept.update_iff])
    | (simp only [Kept.tables_iff]; apply KeptTables.intro <;> first | with_reducible assumption | with_reducible refine Kept.of_snd (by assumption) ?_ | with_reducible refine Kept.of_snd2 (by assumption) ?_ | with_reducible refine Kept.of_snd3 (by assumption) ?_ | with_reducible refine Kept.of_fst (by assumption) ?_ | with_reducible refine Kept.of_fst2 (by assumption) ?_ | exact id | exact fun _ => rfl | (intro hw; first | exact Sparse.wf_set _ _ _ hw | exact Sparse.wf_restrict _ _ hw | exact Sparse.wf_filter _ _ hw))
    | split)

theorem effBootCluster_kept {s₀ : State} (s : State) (h : Kept s₀ s) :
    Kept s₀ (effBootCluster s) := by
  unfold effBootCluster
  repeat' (first
    | with_reducible assumption
    | (with_reducible apply State.phaseDone_kept)
    | (with_reducible apply Kept.ite)
    | (intro _))

theorem effBootCmd_kept {s₀ : State} (v : Word) (s : State) (h : Kept s₀ s) :
    Kept s₀ (effBootCmd v s) := by
  unfold effBootCmd
  repeat' (first
    | with_reducible assumption
    | (with_reducible apply State.enterSafe_kept)
    | (with_reducible apply State.phaseDone_kept)
    | (with_reducible apply State.planRestart_kept)
    | (with_reducible apply State.planTimer_kept)
    | (with_reducible apply State.setBoot_kept)
    | (with_reducible apply State.setFld_kept)
    | (with_reducible apply State.setPhase_kept)
    | (with_reducible apply State.setWatch_kept)
    | (with_reducible apply Kept.ite)
    | (intro _))

end Sys2Proof.Machine
end

