-- ==== Sys2Proof/Laws/KeptLinks.lean ====
section
/-! SUPPORT. What the operations of Machine/Links.lean keep: the queue of commands, the timebase count and the canonical form of
every table. -/

set_option Elab.async false

set_option linter.tactic.unusedName false

namespace Sys2Proof.Machine

theorem effLinkUp_kept {s₀ : State} (port : Nat) (gen4 : Bool) (width speed : Nat) (s : State) (h : Kept s₀ s) :
    Kept s₀ (effLinkUp port gen4 width speed s) := by
  unfold effLinkUp
  repeat' (first
    | with_reducible assumption
    | (with_reducible apply State.count_kept)
    | (with_reducible apply State.setFlag_kept)
    | (with_reducible apply State.setFld_kept)
    | (with_reducible apply Kept.ite)
    | (intro _))

theorem effLinkDown_kept {s₀ : State} (port : Nat) (s : State) (h : Kept s₀ s) :
    Kept s₀ (effLinkDown port s) := by
  unfold effLinkDown
  repeat' (first
    | with_reducible assumption
    | (with_reducible apply State.count_kept)
    | (with_reducible apply State.setFlag_kept)
    | (with_reducible apply State.setFld_kept)
    | (with_reducible apply Kept.ite)
    | (intro _))

theorem State.rcAccess_kept {s₀ : State} (s : State) (config write : Bool) (addr : Nat) (t : Itag) (v : Word) (h : Kept s₀ s) :
    Kept s₀ (State.rcAccess s config write addr t v).2 := by
  unfold State.rcAccess
  repeat' (first
    | with_reducible assumption
    | (with_reducible apply State.cfgErr_kept)
    | (with_reducible apply Kept.ite)
    | (intro _)
    | (with_reducible refine Kept.of_snd (by assumption) ?_)
    | (with_reducible refine Kept.of_snd2 (by assumption) ?_)
    | (with_reducible refine Kept.of_snd3 (by assumption) ?_)
    | (with_reducible refine Kept.of_fst (by assumption) ?_)
    | (with_reducible refine Kept.of_fst2 (by assumption) ?_)
    | (simp only [Kept.update_iff])
    | (simp only [Kept.tables_iff]; apply KeptTables.intro <;> first | with_reducible assumption | with_reducible refine Kept.of_snd (by assumption) ?_ | with_reducible refine Kept.of_snd2 (by assumption) ?_ | with_reducible refine Kept.of_snd3 (by assumption) ?_ | with_reducible refine Kept.of_fst (by assumption) ?_ | with_reducible refine Kept.of_fst2 (by assumption) ?_ | exact id | exact fun _ => rfl | (intro hw; first | exact Sparse.wf_set _ _ _ hw | exact Sparse.wf_restrict _ _ hw | exact Sparse.wf_filter _ _ hw))
    | split)

theorem effPcieCfg_kept {s₀ : State} (write : Bool) (t : Itag) (v : Word) (s : State) (h : Kept s₀ s) :
    Kept s₀ (effPcieCfg write t v s).2 := by
  unfold effPcieCfg
  repeat' (first
    | with_reducible assumption
    | (with_reducible apply State.rcAccess_kept))

theorem State.aerInject_kept {s₀ : State} (s : State) (t : Itag) (h : Kept s₀ s) :
    Kept s₀ (State.aerInject s t) := by
  unfold State.aerInject
  repeat' (first
    | with_reducible assumption
    | (with_reducible apply State.count_kept)
    | (with_reducible apply State.injDone_kept)
    | (with_reducible apply State.raise_kept)
    | (with_reducible apply Kept.ite)
    | (intro _))

theorem State.setColls_kept {s₀ : State} (s : State) (cs : List Coll) (h : Kept s₀ s) :
    Kept s₀ (State.setColls s cs) := by
  unfold State.setColls
  repeat' (first
    | with_reducible assumption
    | (with_reducible apply Kept.ite)
    | (intro _)
    | (with_reducible refine Kept.of_snd (by assumption) ?_)
    | (with_reducible refine Kept.of_snd2 (by assumption) ?_)
    | (with_reducible refine Kept.of_snd3 (by assumption) ?_)
    | (with_reducible refine Kept.of_fst (by assumption) ?_)
    | (with_reducible refine Kept.of_fst2 (by assumption) ?_)
    | (simp only [Kept.update_iff]))

theorem State.dropColl_kept {s₀ : State} (s : State) (c : Coll) (h : Kept s₀ s) :
    Kept s₀ (State.dropColl s c) := by
  unfold State.dropColl
  repeat' (first
    | with_reducible assumption
    | (with_reducible apply State.setColls_kept)
    | (with_reducible apply State.setFld_kept))

theorem State.takeCredits_kept {s₀ : State} (s : State) (l q : Nat) (h : Kept s₀ s) :
    Kept s₀ (State.takeCredits s l q).2 := by
  unfold State.takeCredits
  repeat' (first
    | with_reducible assumption
    | (with_reducible apply State.count_kept)
    | (with_reducible apply State.setFld_kept)
    | (with_reducible apply Kept.ite)
    | (intro _)
    | (with_reducible refine Kept.of_snd (by assumption) ?_)
    | (with_reducible refine Kept.of_snd2 (by assumption) ?_)
    | (with_reducible refine Kept.of_snd3 (by assumption) ?_)
    | (with_reducible refine Kept.of_fst (by assumption) ?_)
    | (with_reducible refine Kept.of_fst2 (by assumption) ?_)
    | (simp only [Kept.update_iff])
    | (simp only [Kept.tables_iff]; apply KeptTables.intro <;> first | with_reducible assumption | with_reducible refine Kept.of_snd (by assumption) ?_ | with_reducible refine Kept.of_snd2 (by assumption) ?_ | with_reducible refine Kept.of_snd3 (by assumption) ?_ | with_reducible refine Kept.of_fst (by assumption) ?_ | with_reducible refine Kept.of_fst2 (by assumption) ?_ | exact id | exact fun _ => rfl | (intro hw; first | exact Sparse.wf_set _ _ _ hw | exact Sparse.wf_restrict _ _ hw | exact Sparse.wf_filter _ _ hw))
    | split)

theorem State.takeAllCredits_kept {s₀ : State} (s : State) (ls : List Nat) (q : Nat) (h : Kept s₀ s) :
    Kept s₀ (State.takeAllCredits s ls q).2 := by
  unfold State.takeAllCredits
  repeat' (first
    | with_reducible assumption
    | (with_reducible apply State.takeCredits_kept)
    | (with_reducible apply Kept.ite)
    | (intro _)
    | (with_reducible apply Kept.foldl)
    | (with_reducible apply Kept.foldl_snd))

theorem State.noteXfer_kept {s₀ : State} (s : State) (ls : List Nat) (q : Nat) (h : Kept s₀ s) :
    Kept s₀ (State.noteXfer s ls q) := by
  unfold State.noteXfer
  repeat' (first
    | with_reducible assumption
    | (with_reducible apply Kept.ite)
    | (intro _)
    | (with_reducible apply Kept.foldl)
    | (with_reducible apply Kept.foldl_snd)
    | (with_reducible apply Kept.foldl_fst)
    | (with_reducible refine Kept.of_snd (by assumption) ?_)
    | (with_reducible refine Kept.of_snd2 (by assumption) ?_)
    | (with_reducible refine Kept.of_snd3 (by assumption) ?_)
    | (with_reducible refine Kept.of_fst (by assumption) ?_)
    | (with_reducible refine Kept.of_fst2 (by assumption) ?_)
    | (simp only [Kept.update_iff]))

theorem State.collTry_kept {s₀ : State} (s : State) (c : Coll) (h : Kept s₀ s) :
    Kept s₀ (State.collTry s c) := by
  unfold State.collTry
  repeat' (first
    | with_reducible assumption
    | (with_reducible apply State.addSat_kept)
    | (with_reducible apply State.conclude_kept)
    | (with_reducible apply State.dropColl_kept)
    | (with_reducible apply State.noteXfer_kept)
    | (with_reducible apply State.objTxWrite_kept)
    | (with_reducible apply Kept.ite)
    | (intro _)
    | (with_reducible refine Kept.of_snd (by assumption) ?_)
    | (with_reducible refine Kept.of_snd2 (by assumption) ?_)
    | (with_reducible refine Kept.of_snd3 (by assumption) ?_)
    | (with_reducible refine Kept.of_fst (by assumption) ?_)
    | (with_reducible refine Kept.of_fst2 (by assumption) ?_)
    | (simp only [Kept.update_iff])
    | (simp only [Kept.tables_iff]; apply KeptTables.intro <;> first | with_reducible assumption | with_reducible refine Kept.of_snd (by assumption) ?_ | with_reducible refine Kept.of_snd2 (by assumption) ?_ | with_reducible refine Kept.of_snd3 (by assumption) ?_ | with_reducible refine Kept.of_fst (by assumption) ?_ | with_reducible refine Kept.of_fst2 (by assumption) ?_ | exact id | exact fun _ => rfl | (intro hw; first | exact Sparse.wf_set _ _ _ hw | exact Sparse.wf_restrict _ _ hw | exact Sparse.wf_filter _ _ hw))
    | split)

theorem State.sendPut_kept {s₀ : State} (s : State) (c : Coll) (h : Kept s₀ s) :
    Kept s₀ (State.sendPut s c) := by
  unfold State.sendPut
  repeat' (first
    | with_reducible assumption
    | (with_reducible apply Opening.put_kept)
    | (with_reducible apply State.addSat_kept)
    | (with_reducible apply State.conclude_kept)
    | (with_reducible apply State.dropColl_kept)
    | (with_reducible apply State.noteXfer_kept)
    | (with_reducible apply Kept.ite)
    | (intro _)
    | (with_reducible refine Kept.of_snd (by assumption) ?_)
    | (with_reducible refine Kept.of_snd2 (by assumption) ?_)
    | (with_reducible refine Kept.of_snd3 (by assumption) ?_)
    | (with_reducible refine Kept.of_fst (by assumption) ?_)
    | (with_reducible refine Kept.of_fst2 (by assumption) ?_)
    | (simp only [Kept.update_iff])
    | (simp only [Kept.tables_iff]; apply KeptTables.intro <;> first | with_reducible assumption | with_reducible refine Kept.of_snd (by assumption) ?_ | with_reducible refine Kept.of_snd2 (by assumption) ?_ | with_reducible refine Kept.of_snd3 (by assumption) ?_ | with_reducible refine Kept.of_fst (by assumption) ?_ | with_reducible refine Kept.of_fst2 (by assumption) ?_ | exact id | exact fun _ => rfl | (intro hw; first | exact Sparse.wf_set _ _ _ hw | exact Sparse.wf_restrict _ _ hw | exact Sparse.wf_filter _ _ hw))
    | split)

theorem effLnkOp_kept {s₀ : State} (opcode q : Nat) (s : State) (h : Kept s₀ s) :
    Kept s₀ (effLnkOp opcode q s) := by
  unfold effLnkOp
  repeat' (first
    | with_reducible assumption
    | (with_reducible apply State.addInflight_kept)
    | (with_reducible apply State.collTry_kept)
    | (with_reducible apply State.conclude_kept)
    | (with_reducible apply State.objTxRead_kept)
    | (with_reducible apply State.sendPut_kept)
    | (with_reducible apply State.setColls_kept)
    | (with_reducible apply State.start_kept)
    | (with_reducible apply State.takeAllCredits_kept)
    | (with_reducible apply Kept.ite)
    | (intro _)
    | (with_reducible refine Kept.of_snd (by assumption) ?_)
    | (with_reducible refine Kept.of_snd2 (by assumption) ?_)
    | (with_reducible refine Kept.of_snd3 (by assumption) ?_)
    | (with_reducible refine Kept.of_fst (by assumption) ?_)
    | (with_reducible refine Kept.of_fst2 (by assumption) ?_)
    | (simp only [Kept.update_iff])
    | (simp only [Kept.tables_iff]; apply KeptTables.intro <;> first | with_reducible assumption | with_reducible refine Kept.of_snd (by assumption) ?_ | with_reducible refine Kept.of_snd2 (by assumption) ?_ | with_reducible refine Kept.of_snd3 (by assumption) ?_ | with_reducible refine Kept.of_fst (by assumption) ?_ | with_reducible refine Kept.of_fst2 (by assumption) ?_ | exact id | exact fun _ => rfl | (intro hw; first | exact Sparse.wf_set _ _ _ hw | exact Sparse.wf_restrict _ _ hw | exact Sparse.wf_filter _ _ hw))
    | split)

theorem State.collFail_kept {s₀ : State} (s : State) (c : Coll) (st : Nat) (h : Kept s₀ s) :
    Kept s₀ (State.collFail s c st) := by
  unfold State.collFail
  repeat' (first
    | with_reducible assumption
    | (with_reducible apply State.conclude_kept)
    | (with_reducible apply State.dropColl_kept)
    | (with_reducible apply State.noteXfer_kept))

theorem State.badFlit_kept {s₀ : State} (s : State) (gid : Nat) (inj : Bool) (h : Kept s₀ s) :
    Kept s₀ (State.badFlit s gid inj) := by
  unfold State.badFlit
  repeat' (first
    | with_reducible assumption
    | (with_reducible apply State.collFail_kept)
    | (with_reducible apply State.count_kept)
    | (with_reducible apply State.raise_kept)
    | (with_reducible apply Kept.ite)
    | (intro _)
    | (with_reducible refine Kept.of_snd (by assumption) ?_)
    | (with_reducible refine Kept.of_snd2 (by assumption) ?_)
    | (with_reducible refine Kept.of_snd3 (by assumption) ?_)
    | (with_reducible refine Kept.of_fst (by assumption) ?_)
    | (with_reducible refine Kept.of_fst2 (by assumption) ?_)
    | (simp only [Kept.update_iff])
    | (simp only [Kept.tables_iff]; apply KeptTables.intro <;> first | with_reducible assumption | with_reducible refine Kept.of_snd (by assumption) ?_ | with_reducible refine Kept.of_snd2 (by assumption) ?_ | with_reducible refine Kept.of_snd3 (by assumption) ?_ | with_reducible refine Kept.of_fst (by assumption) ?_ | with_reducible refine Kept.of_fst2 (by assumption) ?_ | exact id | exact fun _ => rfl | (intro hw; first | exact Sparse.wf_set _ _ _ hw | exact Sparse.wf_restrict _ _ hw | exact Sparse.wf_filter _ _ hw))
    | split)

theorem effFlitUncorrectable_kept {s₀ : State} (l gid : Nat) (s : State) (h : Kept s₀ s) :
    Kept s₀ (effFlitUncorrectable l gid s) := by
  unfold effFlitUncorrectable
  repeat' (first
    | with_reducible assumption
    | (with_reducible apply State.badFlit_kept)
    | (with_reducible apply Kept.ite)
    | (intro _))

theorem effCollFlit_kept {s₀ : State} (l gid level rank off : Nat) (data : List Byte) (s : State) (h : Kept s₀ s) :
    Kept s₀ (effCollFlit l gid level rank off data s) := by
  unfold effCollFlit
  repeat' (first
    | with_reducible assumption
    | (with_reducible apply State.badFlit_kept)
    | (with_reducible apply State.collTry_kept)
    | (with_reducible apply State.injDone_kept)
    | (with_reducible apply State.setColls_kept)
    | (with_reducible apply Kept.ite)
    | (intro _)
    | (with_reducible refine Kept.of_snd (by assumption) ?_)
    | (with_reducible refine Kept.of_snd2 (by assumption) ?_)
    | (with_reducible refine Kept.of_snd3 (by assumption) ?_)
    | (with_reducible refine Kept.of_fst (by assumption) ?_)
    | (with_reducible refine Kept.of_fst2 (by assumption) ?_)
    | (simp only [Kept.update_iff])
    | (simp only [Kept.tables_iff]; apply KeptTables.intro <;> first | with_reducible assumption | with_reducible refine Kept.of_snd (by assumption) ?_ | with_reducible refine Kept.of_snd2 (by assumption) ?_ | with_reducible refine Kept.of_snd3 (by assumption) ?_ | with_reducible refine Kept.of_fst (by assumption) ?_ | with_reducible refine Kept.of_fst2 (by assumption) ?_ | exact id | exact fun _ => rfl | (intro hw; first | exact Sparse.wf_set _ _ _ hw | exact Sparse.wf_restrict _ _ hw | exact Sparse.wf_filter _ _ hw))
    | split)

theorem effCollTimeout_kept {s₀ : State} (q : Nat) (s : State) (h : Kept s₀ s) :
    Kept s₀ (effCollTimeout q s) := by
  unfold effCollTimeout
  repeat' (first
    | with_reducible assumption
    | (with_reducible apply State.collFail_kept)
    | (with_reducible apply State.count_kept)
    | (with_reducible apply State.start_kept)
    | (with_reducible apply Kept.ite)
    | (intro _)
    | (with_reducible refine Kept.of_snd (by assumption) ?_)
    | (with_reducible refine Kept.of_snd2 (by assumption) ?_)
    | (with_reducible refine Kept.of_snd3 (by assumption) ?_)
    | (with_reducible refine Kept.of_fst (by assumption) ?_)
    | (with_reducible refine Kept.of_fst2 (by assumption) ?_)
    | (simp only [Kept.update_iff])
    | (simp only [Kept.tables_iff]; apply KeptTables.intro <;> first | with_reducible assumption | with_reducible refine Kept.of_snd (by assumption) ?_ | with_reducible refine Kept.of_snd2 (by assumption) ?_ | with_reducible refine Kept.of_snd3 (by assumption) ?_ | with_reducible refine Kept.of_fst (by assumption) ?_ | with_reducible refine Kept.of_fst2 (by assumption) ?_ | exact id | exact fun _ => rfl | (intro hw; first | exact Sparse.wf_set _ _ _ hw | exact Sparse.wf_restrict _ _ hw | exact Sparse.wf_filter _ _ hw))
    | split)

theorem effAbortMarker_kept {s₀ : State} (gid : Nat) (s : State) (h : Kept s₀ s) :
    Kept s₀ (effAbortMarker gid s) := by
  unfold effAbortMarker
  repeat' (first
    | with_reducible assumption
    | (with_reducible apply State.collFail_kept)
    | (with_reducible apply State.count_kept)
    | (with_reducible apply Kept.ite)
    | (intro _)
    | (with_reducible refine Kept.of_snd (by assumption) ?_)
    | (with_reducible refine Kept.of_snd2 (by assumption) ?_)
    | (with_reducible refine Kept.of_snd3 (by assumption) ?_)
    | (with_reducible refine Kept.of_fst (by assumption) ?_)
    | (with_reducible refine Kept.of_fst2 (by assumption) ?_)
    | (simp only [Kept.update_iff])
    | (simp only [Kept.tables_iff]; apply KeptTables.intro <;> first | with_reducible assumption | with_reducible refine Kept.of_snd (by assumption) ?_ | with_reducible refine Kept.of_snd2 (by assumption) ?_ | with_reducible refine Kept.of_snd3 (by assumption) ?_ | with_reducible refine Kept.of_fst (by assumption) ?_ | with_reducible refine Kept.of_fst2 (by assumption) ?_ | exact id | exact fun _ => rfl | (intro hw; first | exact Sparse.wf_set _ _ _ hw | exact Sparse.wf_restrict _ _ hw | exact Sparse.wf_filter _ _ hw))
    | split)

theorem effPeerPut_kept {s₀ : State} (l off : Nat) (data : List Byte) (s : State) (h : Kept s₀ s) :
    Kept s₀ (effPeerPut l off data s) := by
  unfold effPeerPut
  repeat' (first
    | with_reducible assumption
    | (with_reducible apply State.count_kept)
    | (with_reducible apply State.flushItag_kept)
    | (with_reducible apply State.objTxWrite_kept)
    | (with_reducible apply Kept.ite)
    | (intro _)
    | (with_reducible refine Kept.of_snd (by assumption) ?_)
    | (with_reducible refine Kept.of_snd2 (by assumption) ?_)
    | (with_reducible refine Kept.of_snd3 (by assumption) ?_)
    | (with_reducible refine Kept.of_fst (by assumption) ?_)
    | (with_reducible refine Kept.of_fst2 (by assumption) ?_)
    | (simp only [Kept.update_iff])
    | (simp only [Kept.tables_iff]; apply KeptTables.intro <;> first | with_reducible assumption | with_reducible refine Kept.of_snd (by assumption) ?_ | with_reducible refine Kept.of_snd2 (by assumption) ?_ | with_reducible refine Kept.of_snd3 (by assumption) ?_ | with_reducible refine Kept.of_fst (by assumption) ?_ | with_reducible refine Kept.of_fst2 (by assumption) ?_ | exact id | exact fun _ => rfl | (intro hw; first | exact Sparse.wf_set _ _ _ hw | exact Sparse.wf_restrict _ _ hw | exact Sparse.wf_filter _ _ hw))
    | split)

theorem State.laneSuspect_kept {s₀ : State} (s : State) (l lane : Nat) (h : Kept s₀ s) :
    Kept s₀ (State.laneSuspect s l lane) := by
  unfold State.laneSuspect
  repeat' (first
    | with_reducible assumption
    | (with_reducible apply SpareSet.fault_kept)
    | (with_reducible apply State.setFld_kept)
    | (with_reducible apply Kept.ite)
    | (intro _)
    | (with_reducible refine Kept.of_snd (by assumption) ?_)
    | (with_reducible refine Kept.of_snd2 (by assumption) ?_)
    | (with_reducible refine Kept.of_snd3 (by assumption) ?_)
    | (with_reducible refine Kept.of_fst (by assumption) ?_)
    | (with_reducible refine Kept.of_fst2 (by assumption) ?_)
    | (simp only [Kept.update_iff]))

theorem effLaneCe_kept {s₀ : State} (l lane n : Nat) (s : State) (h : Kept s₀ s) :
    Kept s₀ (effLaneCe l lane n s) := by
  unfold effLaneCe
  repeat' (first
    | with_reducible assumption
    | (with_reducible apply State.count_kept)
    | (with_reducible apply State.laneSuspect_kept)
    | (with_reducible apply Kept.ite)
    | (intro _))

theorem State.injLane_kept {s₀ : State} (s : State) (h : Kept s₀ s) :
    Kept s₀ (State.injLane s) := by
  unfold State.injLane
  repeat' (first
    | with_reducible assumption
    | (with_reducible apply State.injDone_kept)
    | (with_reducible apply State.laneSuspect_kept)
    | (with_reducible apply Kept.ite)
    | (intro _))

theorem State.injUsbDown_kept {s₀ : State} (s : State) (h : Kept s₀ s) :
    Kept s₀ (State.injUsbDown s) := by
  unfold State.injUsbDown
  repeat' (first
    | with_reducible assumption
    | (with_reducible apply State.injDone_kept)
    | (with_reducible apply effLinkDown_kept)
    | (with_reducible apply Kept.ite)
    | (intro _))

theorem effCreditReturn_kept {s₀ : State} (l q : Nat) (s : State) (h : Kept s₀ s) :
    Kept s₀ (effCreditReturn l q s) := by
  unfold effCreditReturn
  repeat' (first
    | with_reducible assumption
    | (with_reducible apply State.dropCredits_kept)
    | (with_reducible apply Kept.ite)
    | (intro _))

theorem effGroupWrite_kept {s₀ : State} (g w : Nat) (t : Itag) (v : Word) (s : State) (h : Kept s₀ s) :
    Kept s₀ (effGroupWrite g w t v s) := by
  unfold effGroupWrite
  repeat' (first
    | with_reducible assumption
    | (with_reducible apply State.cfgErr_kept)
    | (with_reducible apply State.writeGeneric_kept)
    | (with_reducible apply Kept.ite)
    | (intro _))

theorem effLnkCfg_kept {s₀ : State} (l : Nat) (t : Itag) (v : Word) (s : State) (h : Kept s₀ s) :
    Kept s₀ (effLnkCfg l t v s) := by
  unfold effLnkCfg
  repeat' (first
    | with_reducible assumption
    | (with_reducible apply State.cfgErr_kept)
    | (with_reducible apply State.writeGeneric_kept)
    | (with_reducible apply Kept.ite)
    | (intro _))

theorem effLnkLinkUp_kept {s₀ : State} (l : Nat) (eight : Bool) (s : State) (h : Kept s₀ s) :
    Kept s₀ (effLnkLinkUp l eight s) := by
  unfold effLnkLinkUp
  repeat' (first
    | with_reducible assumption
    | (with_reducible apply State.sendPut_kept)
    | (with_reducible apply State.setFld_kept)
    | (with_reducible apply Kept.ite)
    | (intro _)
    | (with_reducible apply Kept.foldl))

theorem effLnkLinkDown_kept {s₀ : State} (l : Nat) (s : State) (h : Kept s₀ s) :
    Kept s₀ (effLnkLinkDown l s) := by
  unfold effLnkLinkDown
  repeat' (first
    | with_reducible assumption
    | (with_reducible apply State.setFld_kept)
    | (with_reducible apply Kept.ite)
    | (intro _))

end Sys2Proof.Machine
end

