-- ==== Sys2Proof/Laws/KeptRegWrite.lean ====
section
/-! SUPPORT. What the operations of Machine/RegWrite.lean keep: the queue of commands, the timebase count and the canonical form of
every table. -/

set_option Elab.async false

set_option linter.tactic.unusedName false

namespace Sys2Proof.Machine

theorem State.injectNow_kept {s₀ : State} (s : State) (r : Nat) (t : Itag) (h : Kept s₀ s) :
    Kept s₀ (State.injectNow s r t) := by
  unfold State.injectNow
  repeat' (first
    | with_reducible assumption
    | (with_reducible apply State.cfgErr_kept)
    | (with_reducible apply State.dip_kept)
    | (with_reducible apply State.injBusoff_kept)
    | (with_reducible apply State.injDone_kept)
    | (with_reducible apply State.injEvict_kept)
    | (with_reducible apply State.injLane_kept)
    | (with_reducible apply State.injUnsync_kept)
    | (with_reducible apply State.injUsbDown_kept)
    | (with_reducible apply State.pairMismatch_kept)
    | (with_reducible apply State.postCause_kept)
    | (with_reducible apply State.setPwr_kept)
    | (with_reducible apply Kept.ite)
    | (intro _))

theorem effEinj_kept {s₀ : State} (r : Nat) (t : Itag) (v : Word) (s : State) (h : Kept s₀ s) :
    Kept s₀ (effEinj r t v s) := by
  unfold effEinj
  repeat' (first
    | with_reducible assumption
    | (with_reducible apply State.cfgErr_kept)
    | (with_reducible apply State.injectNow_kept)
    | (with_reducible apply State.writeGeneric_kept)
    | (with_reducible apply Kept.ite)
    | (intro _))

theorem effCtrl_kept {s₀ : State} (r : Nat) (t : Itag) (v : Word) (s : State) (h : Kept s₀ s) :
    Kept s₀ (effCtrl r t v s) := by
  unfold effCtrl
  repeat' (first
    | with_reducible assumption
    | (with_reducible apply State.showQuiesced_kept)
    | (with_reducible apply State.unquiesce_kept)
    | (with_reducible apply State.writeGeneric_kept)
    | (with_reducible apply Kept.ite)
    | (intro _))

theorem effHeader_kept {s₀ : State} (r o k : Nat) (t : Itag) (v : Word) (s : State) (h : Kept s₀ s) :
    Kept s₀ (effHeader r o k t v s) := by
  unfold effHeader
  repeat' (first
    | with_reducible assumption
    | (with_reducible apply State.frzWrite_kept)
    | (with_reducible apply State.writeGeneric_kept)
    | (with_reducible apply effCtrl_kept)
    | (with_reducible apply effEinj_kept)
    | (with_reducible apply Kept.ite)
    | (intro _))

theorem effQueueReg_kept {s₀ : State} (r p o k : Nat) (t : Itag) (v : Word) (s : State) (h : Kept s₀ s) :
    Kept s₀ (effQueueReg r p o k t v s) := by
  unfold effQueueReg
  repeat' (first
    | with_reducible assumption
    | (with_reducible apply State.doorbell_kept)
    | (with_reducible apply State.qcmdWrite_kept)
    | (with_reducible apply State.writeGeneric_kept)
    | (with_reducible apply Kept.ite)
    | (intro _))

theorem effDiscfg_kept {s₀ : State} (t : Itag) (v : Word) (s : State) (h : Kept s₀ s) :
    Kept s₀ (effDiscfg t v s) := by
  unfold effDiscfg
  repeat' (first
    | with_reducible assumption
    | (with_reducible apply State.cfgErr_kept)
    | (with_reducible apply State.writeGeneric_kept)
    | (with_reducible apply Kept.ite)
    | (intro _))

theorem effSlack_kept {s₀ : State} (t : Itag) (v : Word) (s : State) (h : Kept s₀ s) :
    Kept s₀ (effSlack t v s) := by
  unfold effSlack
  repeat' (first
    | with_reducible assumption
    | (with_reducible apply State.cfgErr_kept)
    | (with_reducible apply State.writeGeneric_kept)
    | (with_reducible apply Kept.ite)
    | (intro _))

theorem effDriveReg_kept {s₀ : State} (p o k : Nat) (t : Itag) (v : Word) (s : State) (h : Kept s₀ s) :
    Kept s₀ (effDriveReg p o k t v s) := by
  unfold effDriveReg
  repeat' (first
    | with_reducible assumption
    | (with_reducible apply SpareSet.subcmd_kept)
    | (with_reducible apply State.cfgErr_kept)
    | (with_reducible apply State.fly_kept)
    | (with_reducible apply State.loopCommand_kept)
    | (with_reducible apply State.setAutoms_kept)
    | (with_reducible apply State.writeGeneric_kept)
    | (with_reducible apply effLogMode_kept)
    | (with_reducible apply effLogSize_kept)
    | (with_reducible apply Kept.ite)
    | (intro _))

theorem effWatchReg_kept {s₀ : State} (p o k : Nat) (t : Itag) (v : Word) (s : State) (h : Kept s₀ s) :
    Kept s₀ (effWatchReg p o k t v s) := by
  unfold effWatchReg
  repeat' (first
    | with_reducible assumption
    | (with_reducible apply State.depotChanged_kept)
    | (with_reducible apply State.setWatch_kept)
    | (with_reducible apply State.writeGeneric_kept)
    | (with_reducible apply effDiscfg_kept)
    | (with_reducible apply effNlrd_kept)
    | (with_reducible apply effSsCmd_kept)
    | (with_reducible apply effTrgrant_kept)
    | (with_reducible apply Kept.ite)
    | (intro _))

theorem effMeridReg_kept {s₀ : State} (p o k : Nat) (t : Itag) (v : Word) (s : State) (h : Kept s₀ s) :
    Kept s₀ (effMeridReg p o k t v s) := by
  unfold effMeridReg
  repeat' (first
    | with_reducible assumption
    | (with_reducible apply State.writeGeneric_kept)
    | (with_reducible apply effLockcfgWrite_kept)
    | (with_reducible apply effSlotCtl_kept)
    | (with_reducible apply effSlotWord_kept)
    | (with_reducible apply effTrgCfg_kept)
    | (with_reducible apply Kept.ite)
    | (intro _))

theorem effPwrReg_kept {s₀ : State} (p o k : Nat) (t : Itag) (v : Word) (s : State) (h : Kept s₀ s) :
    Kept s₀ (effPwrReg p o k t v s) := by
  unfold effPwrReg
  repeat' (first
    | with_reducible assumption
    | (with_reducible apply State.writeGeneric_kept)
    | (with_reducible apply effPdCmd_kept)
    | (with_reducible apply effSleepCmd_kept)
    | (with_reducible apply Kept.ite)
    | (intro _))

theorem effPcieReg_kept {s₀ : State} (p o k : Nat) (t : Itag) (v : Word) (s : State) (h : Kept s₀ s) :
    Kept s₀ (effPcieReg p o k t v s) := by
  unfold effPcieReg
  repeat' (first
    | with_reducible assumption
    | (with_reducible apply State.cfgErr_kept)
    | (with_reducible apply State.rcAccess_kept)
    | (with_reducible apply State.writeGeneric_kept)
    | (with_reducible apply effPcieCfg_kept)
    | (with_reducible apply Kept.ite)
    | (intro _))

theorem effEthReg_kept {s₀ : State} (p o k : Nat) (t : Itag) (v : Word) (s : State) (h : Kept s₀ s) :
    Kept s₀ (effEthReg p o k t v s) := by
  unfold effEthReg
  repeat' (first
    | with_reducible assumption
    | (with_reducible apply State.writeGeneric_kept)
    | (with_reducible apply effEthRing_kept)
    | (with_reducible apply effFilterData_kept)
    | (with_reducible apply effMacWrite_kept)
    | (with_reducible apply Kept.ite)
    | (intro _))

theorem effCanReg_kept {s₀ : State} (p o k : Nat) (t : Itag) (v : Word) (s : State) (h : Kept s₀ s) :
    Kept s₀ (effCanReg p o k t v s) := by
  unfold effCanReg
  repeat' (first
    | with_reducible assumption
    | (with_reducible apply State.mbWrite_kept)
    | (with_reducible apply State.writeGeneric_kept)
    | (with_reducible apply effBitTiming_kept)
    | (with_reducible apply effCanCfg_kept)
    | (with_reducible apply Kept.ite)
    | (intro _))

theorem effLnkReg_kept {s₀ : State} (p o k : Nat) (t : Itag) (v : Word) (s : State) (h : Kept s₀ s) :
    Kept s₀ (effLnkReg p o k t v s) := by
  unfold effLnkReg
  repeat' (first
    | with_reducible assumption
    | (with_reducible apply SpareSet.subcmd_kept)
    | (with_reducible apply State.setFlag_kept)
    | (with_reducible apply State.writeGeneric_kept)
    | (with_reducible apply effGroupWrite_kept)
    | (with_reducible apply effLnkCfg_kept)
    | (with_reducible apply Kept.ite)
    | (intro _))

theorem effUsbReg_kept {s₀ : State} (p o k : Nat) (t : Itag) (v : Word) (s : State) (h : Kept s₀ s) :
    Kept s₀ (effUsbReg p o k t v s) := by
  unfold effUsbReg
  repeat' (first
    | with_reducible assumption
    | (with_reducible apply State.writeGeneric_kept)
    | (with_reducible apply effLinkDown_kept)
    | (with_reducible apply Kept.ite)
    | (intro _))

theorem effKvwReg_kept {s₀ : State} (p o k : Nat) (t : Itag) (v : Word) (s : State) (h : Kept s₀ s) :
    Kept s₀ (effKvwReg p o k t v s) := by
  unfold effKvwReg
  repeat' (first
    | with_reducible assumption
    | (with_reducible apply State.kvPlaceWrite_kept)
    | (with_reducible apply State.showKvMode_kept)
    | (with_reducible apply State.writeGeneric_kept)
    | (with_reducible apply effFinv_kept)
    | (with_reducible apply effKvFlush_kept)
    | (with_reducible apply Kept.ite)
    | (intro _))

theorem effAfuReg_kept {s₀ : State} (p o k : Nat) (t : Itag) (v : Word) (s : State) (h : Kept s₀ s) :
    Kept s₀ (effAfuReg p o k t v s) := by
  unfold effAfuReg
  repeat' (first
    | with_reducible assumption
    | (with_reducible apply State.writeGeneric_kept)
    | (with_reducible apply effSenCfg_kept)
    | (with_reducible apply effSenPer_kept)
    | (with_reducible apply effStrCfg_kept)
    | (with_reducible apply Kept.ite)
    | (intro _))

theorem effCvuReg_kept {s₀ : State} (p o k : Nat) (t : Itag) (v : Word) (s : State) (h : Kept s₀ s) :
    Kept s₀ (effCvuReg p o k t v s) := by
  unfold effCvuReg
  repeat' (first
    | with_reducible assumption
    | (with_reducible apply SpareSet.subcmd_kept)
    | (with_reducible apply State.writeGeneric_kept)
    | (with_reducible apply effChCfg_kept)
    | (with_reducible apply effCtxData_kept)
    | (with_reducible apply Kept.ite)
    | (intro _))

theorem effSecReg_kept {s₀ : State} (p o k : Nat) (t : Itag) (v : Word) (s : State) (h : Kept s₀ s) :
    Kept s₀ (effSecReg p o k t v s) := by
  unfold effSecReg
  repeat' (first
    | with_reducible assumption
    | (with_reducible apply State.writeGeneric_kept)
    | (with_reducible apply effBootCmd_kept)
    | (with_reducible apply effDbgCmd_kept)
    | (with_reducible apply effSvnCmd_kept)
    | (with_reducible apply Kept.ite)
    | (intro _))

theorem effOtherReg_kept {s₀ : State} (r p o k : Nat) (t : Itag) (v : Word) (s : State) (h : Kept s₀ s) :
    Kept s₀ (effOtherReg r p o k t v s) := by
  unfold effOtherReg
  repeat' (first
    | with_reducible assumption
    | (with_reducible apply SpareSet.subcmd_kept)
    | (with_reducible apply State.cfgErr_kept)
    | (with_reducible apply State.writeGeneric_kept)
    | (with_reducible apply effCoelCmd_kept)
    | (with_reducible apply effCsiPort_kept)
    | (with_reducible apply effCsiVc_kept)
    | (with_reducible apply effFwlCmd_kept)
    | (with_reducible apply effPcCmd_kept)
    | (with_reducible apply effQuota_kept)
    | (with_reducible apply effSemWrite_kept)
    | (with_reducible apply effSlack_kept)
    | (with_reducible apply Kept.ite)
    | (intro _))

theorem effBlockReg_kept {s₀ : State} (r p o k : Nat) (t : Itag) (v : Word) (s : State) (h : Kept s₀ s) :
    Kept s₀ (effBlockReg r p o k t v s) := by
  unfold effBlockReg
  repeat' (first
    | with_reducible assumption
    | (with_reducible apply effAfuReg_kept)
    | (with_reducible apply effCanReg_kept)
    | (with_reducible apply effCvuReg_kept)
    | (with_reducible apply effDriveReg_kept)
    | (with_reducible apply effEthReg_kept)
    | (with_reducible apply effKvwReg_kept)
    | (with_reducible apply effLnkReg_kept)
    | (with_reducible apply effMeridReg_kept)
    | (with_reducible apply effOtherReg_kept)
    | (with_reducible apply effPcieReg_kept)
    | (with_reducible apply effPwrReg_kept)
    | (with_reducible apply effSecReg_kept)
    | (with_reducible apply effUsbReg_kept)
    | (with_reducible apply effWatchReg_kept)
    | (with_reducible apply Kept.ite)
    | (intro _))

theorem regEffect_kept {s₀ : State} (s : State) (k : Nat) (t : Itag) (v : Word) (h : Kept s₀ s) :
    Kept s₀ (regEffect s k t v) := by
  unfold regEffect
  repeat' (first
    | with_reducible assumption
    | (with_reducible apply effBlockReg_kept)
    | (with_reducible apply effHeader_kept)
    | (with_reducible apply effQueueReg_kept)
    | (with_reducible apply Kept.ite)
    | (intro _))

theorem State.watchRead_kept {s₀ : State} (s : State) (p o k : Nat) (h : Kept s₀ s) :
    Kept s₀ (State.watchRead s p o k).2 := by
  unfold State.watchRead
  repeat' (first
    | with_reducible assumption
    | (with_reducible apply State.readRecord_kept)
    | (with_reducible apply Kept.ite)
    | (intro _)
    | (with_reducible refine Kept.of_snd (by assumption) ?_)
    | (with_reducible refine Kept.of_snd2 (by assumption) ?_)
    | (with_reducible refine Kept.of_snd3 (by assumption) ?_)
    | (with_reducible refine Kept.of_fst (by assumption) ?_)
    | (with_reducible refine Kept.of_fst2 (by assumption) ?_)
    | (simp only [Kept.update_iff])
    | (simp only [Kept.tables_iff]; apply KeptTables.intro <;> first | with_reducible assumption | with_reducible refine Kept.of_snd (by assumption) ?_ | with_reducible refine Kept.of_snd2 (by assumption) ?_ | with_reducible refine Kept.of_snd3 (by assumption) ?_ | with_reducible refine Kept.of_fst (by assumption) ?_ | with_reducible refine Kept.of_fst2 (by assumption) ?_ | exact id | exact fun _ => rfl | (intro hw; first | exact Sparse.wf_set _ _ _ hw | exact Sparse.wf_restrict _ _ hw | exact Sparse.wf_filter _ _ hw))
    | split)

theorem State.meridRead_kept {s₀ : State} (s : State) (p o k : Nat) (h : Kept s₀ s) :
    Kept s₀ (State.meridRead s p o k).2 := by
  unfold State.meridRead
  repeat' (first
    | with_reducible assumption
    | (with_reducible apply State.wr_kept)
    | (with_reducible apply Kept.ite)
    | (intro _)
    | (with_reducible refine Kept.of_snd (by assumption) ?_)
    | (with_reducible refine Kept.of_snd2 (by assumption) ?_)
    | (with_reducible refine Kept.of_snd3 (by assumption) ?_)
    | (with_reducible refine Kept.of_fst (by assumption) ?_)
    | (with_reducible refine Kept.of_fst2 (by assumption) ?_)
    | (simp only [Kept.update_iff])
    | (simp only [Kept.tables_iff]; apply KeptTables.intro <;> first | with_reducible assumption | with_reducible refine Kept.of_snd (by assumption) ?_ | with_reducible refine Kept.of_snd2 (by assumption) ?_ | with_reducible refine Kept.of_snd3 (by assumption) ?_ | with_reducible refine Kept.of_fst (by assumption) ?_ | with_reducible refine Kept.of_fst2 (by assumption) ?_ | exact id | exact fun _ => rfl | (intro hw; first | exact Sparse.wf_set _ _ _ hw | exact Sparse.wf_restrict _ _ hw | exact Sparse.wf_filter _ _ hw))
    | split)

theorem State.pcieRead_kept {s₀ : State} (s : State) (p o k : Nat) (h : Kept s₀ s) :
    Kept s₀ (State.pcieRead s p o k).2 := by
  unfold State.pcieRead
  repeat' (first
    | with_reducible assumption
    | (with_reducible apply State.draw_kept)
    | (with_reducible apply State.rcAccess_kept)
    | (with_reducible apply effPcieCfg_kept)
    | (with_reducible apply Kept.ite)
    | (intro _)
    | (with_reducible refine Kept.of_snd (by assumption) ?_)
    | (with_reducible refine Kept.of_snd2 (by assumption) ?_)
    | (with_reducible refine Kept.of_snd3 (by assumption) ?_)
    | (with_reducible refine Kept.of_fst (by assumption) ?_)
    | (with_reducible refine Kept.of_fst2 (by assumption) ?_)
    | (simp only [Kept.update_iff])
    | (simp only [Kept.tables_iff]; apply KeptTables.intro <;> first | with_reducible assumption | with_reducible refine Kept.of_snd (by assumption) ?_ | with_reducible refine Kept.of_snd2 (by assumption) ?_ | with_reducible refine Kept.of_snd3 (by assumption) ?_ | with_reducible refine Kept.of_fst (by assumption) ?_ | with_reducible refine Kept.of_fst2 (by assumption) ?_ | exact id | exact fun _ => rfl | (intro hw; first | exact Sparse.wf_set _ _ _ hw | exact Sparse.wf_restrict _ _ hw | exact Sparse.wf_filter _ _ hw))
    | split)

theorem regRead_kept {s₀ : State} (s : State) (k : Nat) (h : Kept s₀ s) : Kept s₀ (regRead s k).2 := by
  unfold regRead
  extract_lets r p o x y
  have hx : Kept s₀ x := Kept.ite (fun _ => State.showQuiesced_kept _ _ h) (fun _ => h)
  have hy : Kept s₀ y := State.dropDeadMoves_kept _ h
  clear_value x y
  repeat' (with_reducible apply Kept.ite_snd)
  all_goals first
    | with_reducible assumption
    | exact State.watchRead_kept _ _ _ _ h
    | exact State.meridRead_kept _ _ _ _ h
    | exact State.pcieRead_kept _ _ _ _ h
    | exact State.mbRead_kept _ _ h
    | (split <;> first | exact h | exact Kept.of_snd (by assumption) (State.schedRead_kept _ _ _ h))

theorem State.regWrite_kept {s₀ : State} (s : State) (i : Initiator) (k : Nat) (v : Word) (h : Kept s₀ s) :
    Kept s₀ (State.regWrite s i k v) := by
  unfold State.regWrite
  repeat' (first
    | with_reducible assumption
    | (with_reducible apply State.aerInject_kept)
    | (with_reducible apply State.writeVia_kept)
    | (with_reducible apply regEffect_kept))

theorem State.regReadBy_kept {s₀ : State} (s : State) (i : Initiator) (k : Nat) (h : Kept s₀ s) :
    Kept s₀ (State.regReadBy s i k) := by
  unfold State.regReadBy
  repeat' (first
    | with_reducible assumption
    | (with_reducible apply State.aerInject_kept)
    | (with_reducible apply State.readVia_kept)
    | (with_reducible apply regRead_kept))

theorem State.regWriteAny_kept {s₀ : State} (s : State) (i : Initiator) (k bytes : Nat) (v : DWord) (h : Kept s₀ s) :
    Kept s₀ (State.regWriteAny s i k bytes v) := by
  unfold State.regWriteAny
  repeat' (first
    | with_reducible assumption
    | (with_reducible apply State.aerInject_kept)
    | (with_reducible apply State.badShape_kept)
    | (with_reducible apply State.regWrite_kept)
    | (with_reducible apply Kept.ite)
    | (intro _)
    | (with_reducible refine Kept.of_snd (by assumption) ?_)
    | (with_reducible refine Kept.of_snd2 (by assumption) ?_)
    | (with_reducible refine Kept.of_snd3 (by assumption) ?_)
    | (with_reducible refine Kept.of_fst (by assumption) ?_)
    | (with_reducible refine Kept.of_fst2 (by assumption) ?_)
    | (simp only [Kept.update_iff]))

theorem State.regReadAny_kept {s₀ : State} (s : State) (i : Initiator) (k bytes : Nat) (h : Kept s₀ s) :
    Kept s₀ (State.regReadAny s i k bytes) := by
  unfold State.regReadAny
  repeat' (first
    | with_reducible assumption
    | (with_reducible apply State.aerInject_kept)
    | (with_reducible apply State.badShape_kept)
    | (with_reducible apply State.regReadBy_kept)
    | (with_reducible apply Kept.ite)
    | (intro _)
    | (with_reducible refine Kept.of_snd (by assumption) ?_)
    | (with_reducible refine Kept.of_snd2 (by assumption) ?_)
    | (with_reducible refine Kept.of_snd3 (by assumption) ?_)
    | (with_reducible refine Kept.of_fst (by assumption) ?_)
    | (with_reducible refine Kept.of_fst2 (by assumption) ?_)
    | (simp only [Kept.update_iff]))

end Sys2Proof.Machine
end

