-- ==== Sys2Proof/Laws/KeptComplete.lean ====
section
/-! SUPPORT. What the operations of Machine/Complete.lean keep: the queue of commands, the timebase count and the canonical form of
every table. -/

set_option Elab.async false

set_option linter.tactic.unusedName false

namespace Sys2Proof.Machine

theorem State.checkAll_kept {s₀ : State} (s : State) (t : Itag) (write : Bool) (y0 : List Nat) (h : Kept s₀ s) :
    Kept s₀ (State.checkAll s t write y0).2 := by
  induction y0 generalizing s with
  | nil =>
    simp only [State.checkAll]
    assumption
  | cons a rest ih =>
    simp only [State.checkAll]
    repeat' (first
      | with_reducible assumption
      | (with_reducible apply ih)
      | (with_reducible apply State.checkSite_kept)
      | (with_reducible apply Kept.ite)
      | (intro _)
      | (with_reducible refine Kept.of_snd (by assumption) ?_)
      | (with_reducible refine Kept.of_snd2 (by assumption) ?_)
      | (with_reducible refine Kept.of_snd3 (by assumption) ?_)
      | (with_reducible refine Kept.of_fst (by assumption) ?_)
      | (with_reducible refine Kept.of_fst2 (by assumption) ?_)
      | (simp only [Kept.update_iff])
      | (simp only [Kept.tables_iff]; apply KeptTables.intro <;> first | with_reducible assumption | with_reducible refine Kept.of_snd (by assumption) ?_ | with_reducible refine Kept.of_snd2 (by assumption) ?_ | with_reducible refine Kept.of_snd3 (by assumption) ?_ | with_reducible refine Kept.of_fst (by assumption) ?_ | with_reducible refine Kept.of_fst2 (by assumption) ?_ | exact id | exact fun _ => rfl | (intro hw; first | exact Sparse.wf_set _ _ _ hw | exact Sparse.wf_restrict _ _ hw | exact Sparse.wf_filter _ _ hw))
      | split
      | (apply Kept.ite)
      | (dsimp only))

theorem State.noteWindow_kept {s₀ : State} (s : State) (t : Itag) (a n : Nat) (h : Kept s₀ s) :
    Kept s₀ (State.noteWindow s t a n) := by
  unfold State.noteWindow
  repeat' (first
    | with_reducible assumption
    | (with_reducible apply State.noteHandOffWrite_kept)
    | (with_reducible apply Kept.ite)
    | (intro _)
    | (with_reducible refine Kept.of_snd (by assumption) ?_)
    | (with_reducible refine Kept.of_snd2 (by assumption) ?_)
    | (with_reducible refine Kept.of_snd3 (by assumption) ?_)
    | (with_reducible refine Kept.of_fst (by assumption) ?_)
    | (with_reducible refine Kept.of_fst2 (by assumption) ?_)
    | (simp only [Kept.update_iff]))

theorem State.memDo_kept {s₀ : State} (s : State) (t : Itag) (a : Nat) (y0 : MemReq) (h : Kept s₀ s) :
    Kept s₀ (State.memDo s t a y0) := by
  cases y0
  all_goals
    simp only [State.memDo]
    repeat' (first
      | with_reducible assumption
      | (with_reducible apply ih)
      | (with_reducible apply State.cfgErr_kept)
      | (with_reducible apply State.noteWindow_kept)
      | (with_reducible apply State.respond_kept)
      | (with_reducible apply State.txRead_kept)
      | (with_reducible apply State.txWrite_kept)
      | (with_reducible apply Kept.ite)
      | (intro _)
      | (with_reducible refine Kept.of_snd (by assumption) ?_)
      | (with_reducible refine Kept.of_snd2 (by assumption) ?_)
      | (with_reducible refine Kept.of_snd3 (by assumption) ?_)
      | (with_reducible refine Kept.of_fst (by assumption) ?_)
      | (with_reducible refine Kept.of_fst2 (by assumption) ?_)
      | (simp only [Kept.update_iff])
      | (simp only [Kept.tables_iff]; apply KeptTables.intro <;> first | with_reducible assumption | with_reducible refine Kept.of_snd (by assumption) ?_ | with_reducible refine Kept.of_snd2 (by assumption) ?_ | with_reducible refine Kept.of_snd3 (by assumption) ?_ | with_reducible refine Kept.of_fst (by assumption) ?_ | with_reducible refine Kept.of_fst2 (by assumption) ?_ | exact id | exact fun _ => rfl | (intro hw; first | exact Sparse.wf_set _ _ _ hw | exact Sparse.wf_restrict _ _ hw | exact Sparse.wf_filter _ _ hw))
      | split)

theorem State.memAccess_kept {s₀ : State} (s : State) (i : Initiator) (a : Nat) (q : MemReq) (h : Kept s₀ s) :
    Kept s₀ (State.memAccess s i a q) := by
  unfold State.memAccess
  repeat' (first
    | with_reducible assumption
    | (with_reducible apply State.aerInject_kept)
    | (with_reducible apply State.checkAll_kept)
    | (with_reducible apply State.demandPd_kept)
    | (with_reducible apply State.memDo_kept)
    | (with_reducible apply State.offend_kept)
    | (with_reducible apply State.respond_kept)
    | (with_reducible apply Kept.ite)
    | (intro _)
    | (with_reducible apply Kept.foldl)
    | (with_reducible apply Kept.foldl_snd)
    | (with_reducible apply Kept.foldl_fst)
    | (with_reducible refine Kept.of_snd (by assumption) ?_)
    | (with_reducible refine Kept.of_snd2 (by assumption) ?_)
    | (with_reducible refine Kept.of_snd3 (by assumption) ?_)
    | (with_reducible refine Kept.of_fst (by assumption) ?_)
    | (with_reducible refine Kept.of_fst2 (by assumption) ?_)
    | (simp only [Kept.update_iff])
    | (simp only [Kept.tables_iff]; apply KeptTables.intro <;> first | with_reducible assumption | with_reducible refine Kept.of_snd (by assumption) ?_ | with_reducible refine Kept.of_snd2 (by assumption) ?_ | with_reducible refine Kept.of_snd3 (by assumption) ?_ | with_reducible refine Kept.of_fst (by assumption) ?_ | with_reducible refine Kept.of_fst2 (by assumption) ?_ | exact id | exact fun _ => rfl | (intro hw; first | exact Sparse.wf_set _ _ _ hw | exact Sparse.wf_restrict _ _ hw | exact Sparse.wf_filter _ _ hw))
    | split)

theorem State.anyAccess_kept {s₀ : State} (s : State) (i : Initiator) (a : Nat) (q : MemReq) (h : Kept s₀ s) :
    Kept s₀ (State.anyAccess s i a q) := by
  unfold State.anyAccess
  repeat' (first
    | with_reducible assumption
    | (with_reducible apply State.memAccess_kept)
    | (with_reducible apply State.regReadAny_kept)
    | (with_reducible apply State.regWriteAny_kept)
    | (with_reducible apply State.respond_kept)
    | (with_reducible apply Kept.ite)
    | (intro _)
    | (with_reducible refine Kept.of_snd (by assumption) ?_)
    | (with_reducible refine Kept.of_snd2 (by assumption) ?_)
    | (with_reducible refine Kept.of_snd3 (by assumption) ?_)
    | (with_reducible refine Kept.of_fst (by assumption) ?_)
    | (with_reducible refine Kept.of_fst2 (by assumption) ?_)
    | (simp only [Kept.update_iff])
    | (simp only [Kept.tables_iff]; apply KeptTables.intro <;> first | with_reducible assumption | with_reducible refine Kept.of_snd (by assumption) ?_ | with_reducible refine Kept.of_snd2 (by assumption) ?_ | with_reducible refine Kept.of_snd3 (by assumption) ?_ | with_reducible refine Kept.of_fst (by assumption) ?_ | with_reducible refine Kept.of_fst2 (by assumption) ?_ | exact id | exact fun _ => rfl | (intro hw; first | exact Sparse.wf_set _ _ _ hw | exact Sparse.wf_restrict _ _ hw | exact Sparse.wf_filter _ _ hw))
    | split)

theorem State.dropDead_kept {s₀ : State} (s : State) (r : Nat) (h : Kept s₀ s) :
    Kept s₀ (State.dropDead s r) := by
  unfold State.dropDead
  repeat' (first
    | with_reducible assumption
    | (with_reducible apply State.dropDeadMoves_kept)
    | (with_reducible apply State.dropDeadOcc_kept)
    | (with_reducible apply State.dropDeadRun_kept)
    | (with_reducible apply State.dropDeadSolve_kept)
    | (with_reducible apply State.solvCut_kept)
    | (with_reducible apply State.solvDue_kept)
    | (with_reducible apply Kept.ite)
    | (intro _))

theorem State.completeOp_kept {s₀ : State} (s : State) (r q : Nat) (o : Op) (st : Nat) (h : Kept s₀ s) :
    Kept s₀ (State.completeOp s r q o st) := by
  unfold State.completeOp
  repeat' (first
    | with_reducible assumption
    | (with_reducible apply SpareSet.result_kept)
    | (with_reducible apply State.afuComplete_kept)
    | (with_reducible apply State.completeRun_kept)
    | (with_reducible apply State.finish_kept)
    | (with_reducible apply State.occComplete_kept)
    | (with_reducible apply State.retireMove_kept)
    | (with_reducible apply State.solveComplete_kept)
    | (with_reducible apply Kept.ite)
    | (intro _)
    | (with_reducible refine Kept.of_snd (by assumption) ?_)
    | (with_reducible refine Kept.of_snd2 (by assumption) ?_)
    | (with_reducible refine Kept.of_snd3 (by assumption) ?_)
    | (with_reducible refine Kept.of_fst (by assumption) ?_)
    | (with_reducible refine Kept.of_fst2 (by assumption) ?_)
    | (simp only [Kept.update_iff])
    | (simp only [Kept.tables_iff]; apply KeptTables.intro <;> first | with_reducible assumption | with_reducible refine Kept.of_snd (by assumption) ?_ | with_reducible refine Kept.of_snd2 (by assumption) ?_ | with_reducible refine Kept.of_snd3 (by assumption) ?_ | with_reducible refine Kept.of_fst (by assumption) ?_ | with_reducible refine Kept.of_fst2 (by assumption) ?_ | exact id | exact fun _ => rfl | (intro hw; first | exact Sparse.wf_set _ _ _ hw | exact Sparse.wf_restrict _ _ hw | exact Sparse.wf_filter _ _ hw))
    | split)

theorem effOpComplete_kept {s₀ : State} (r q index : Nat) (s : State) (h : Kept s₀ s) :
    Kept s₀ (effOpComplete r q index s) := by
  unfold effOpComplete
  repeat' (first
    | with_reducible assumption
    | (with_reducible apply State.completeOp_kept)
    | (with_reducible apply State.dropDead_kept)
    | (with_reducible apply State.flush_kept)
    | (with_reducible apply Kept.ite)
    | (intro _)
    | (with_reducible refine Kept.of_snd (by assumption) ?_)
    | (with_reducible refine Kept.of_snd2 (by assumption) ?_)
    | (with_reducible refine Kept.of_snd3 (by assumption) ?_)
    | (with_reducible refine Kept.of_fst (by assumption) ?_)
    | (with_reducible refine Kept.of_fst2 (by assumption) ?_)
    | (simp only [Kept.update_iff])
    | (simp only [Kept.tables_iff]; apply KeptTables.intro <;> first | with_reducible assumption | with_reducible refine Kept.of_snd (by assumption) ?_ | with_reducible refine Kept.of_snd2 (by assumption) ?_ | with_reducible refine Kept.of_snd3 (by assumption) ?_ | with_reducible refine Kept.of_fst (by assumption) ?_ | with_reducible refine Kept.of_fst2 (by assumption) ?_ | exact id | exact fun _ => rfl | (intro hw; first | exact Sparse.wf_set _ _ _ hw | exact Sparse.wf_restrict _ _ hw | exact Sparse.wf_filter _ _ hw))
    | split)

theorem State.resumeAccess_kept {s₀ : State} (s : State) (a : Access) (h : Kept s₀ s) :
    Kept s₀ (State.resumeAccess s a) := by
  unfold State.resumeAccess
  repeat' (first
    | with_reducible assumption
    | (with_reducible apply regEffect_kept)
    | (with_reducible apply regRead_kept)
    | (with_reducible apply Kept.ite)
    | (intro _)
    | (with_reducible refine Kept.of_snd (by assumption) ?_)
    | (with_reducible refine Kept.of_snd2 (by assumption) ?_)
    | (with_reducible refine Kept.of_snd3 (by assumption) ?_)
    | (with_reducible refine Kept.of_fst (by assumption) ?_)
    | (with_reducible refine Kept.of_fst2 (by assumption) ?_)
    | (simp only [Kept.update_iff])
    | (simp only [Kept.tables_iff]; apply KeptTables.intro <;> first | with_reducible assumption | with_reducible refine Kept.of_snd (by assumption) ?_ | with_reducible refine Kept.of_snd2 (by assumption) ?_ | with_reducible refine Kept.of_snd3 (by assumption) ?_ | with_reducible refine Kept.of_fst (by assumption) ?_ | with_reducible refine Kept.of_fst2 (by assumption) ?_ | exact id | exact fun _ => rfl | (intro hw; first | exact Sparse.wf_set _ _ _ hw | exact Sparse.wf_restrict _ _ hw | exact Sparse.wf_filter _ _ hw))
    | split)

theorem effWakeDone_kept {s₀ : State} (pd : Nat) (retErr : Bool) (s : State) (h : Kept s₀ s) :
    Kept s₀ (effWakeDone pd retErr s) := by
  unfold effWakeDone
  repeat' (first
    | with_reducible assumption
    | (with_reducible apply State.resumeAccess_kept)
    | (with_reducible apply State.wakeDone_kept)
    | (with_reducible apply Kept.ite)
    | (intro _)
    | (with_reducible apply Kept.foldl)
    | (with_reducible apply Kept.foldl_snd)
    | (with_reducible apply Kept.foldl_fst)
    | (with_reducible refine Kept.of_snd (by assumption) ?_)
    | (with_reducible refine Kept.of_snd2 (by assumption) ?_)
    | (with_reducible refine Kept.of_snd3 (by assumption) ?_)
    | (with_reducible refine Kept.of_fst (by assumption) ?_)
    | (with_reducible refine Kept.of_fst2 (by assumption) ?_)
    | (simp only [Kept.update_iff]))

theorem effUnfreezeTimeout_kept {s₀ : State} (r : Nat) (s : State) (h : Kept s₀ s) :
    Kept s₀ (effUnfreezeTimeout r s) := by
  unfold effUnfreezeTimeout
  repeat' (first
    | with_reducible assumption
    | (with_reducible apply State.cancelUnfreeze_kept)
    | (with_reducible apply Kept.ite)
    | (intro _)
    | (with_reducible refine Kept.of_snd (by assumption) ?_)
    | (with_reducible refine Kept.of_snd2 (by assumption) ?_)
    | (with_reducible refine Kept.of_snd3 (by assumption) ?_)
    | (with_reducible refine Kept.of_fst (by assumption) ?_)
    | (with_reducible refine Kept.of_fst2 (by assumption) ?_)
    | (simp only [Kept.update_iff])
    | (simp only [Kept.tables_iff]; apply KeptTables.intro <;> first | with_reducible assumption | with_reducible refine Kept.of_snd (by assumption) ?_ | with_reducible refine Kept.of_snd2 (by assumption) ?_ | with_reducible refine Kept.of_snd3 (by assumption) ?_ | with_reducible refine Kept.of_fst (by assumption) ?_ | with_reducible refine Kept.of_fst2 (by assumption) ?_ | exact id | exact fun _ => rfl | (intro hw; first | exact Sparse.wf_set _ _ _ hw | exact Sparse.wf_restrict _ _ hw | exact Sparse.wf_filter _ _ hw))
    | split)

theorem effUnfreeze_kept {s₀ : State} (t : Itag) (s : State) (h : Kept s₀ s) :
    Kept s₀ (effUnfreeze t s) := by
  unfold effUnfreeze
  repeat' (first
    | with_reducible assumption
    | (with_reducible apply State.unfreeze_kept)
    | (with_reducible apply Kept.ite)
    | (intro _))

theorem effDoorbellAction_kept {s₀ : State} (r : Nat) (s : State) (h : Kept s₀ s) :
    Kept s₀ (effDoorbellAction r s) := by
  unfold effDoorbellAction
  repeat' (first
    | with_reducible assumption
    | (with_reducible apply State.doorbell_kept)
    | (with_reducible apply State.dropAction_kept)
    | (with_reducible apply State.ephDoorbell_kept)
    | (with_reducible apply State.slotFired_kept)
    | (with_reducible apply State.takeDue_kept)
    | (with_reducible apply Kept.ite)
    | (intro _)
    | (with_reducible refine Kept.of_snd (by assumption) ?_)
    | (with_reducible refine Kept.of_snd2 (by assumption) ?_)
    | (with_reducible refine Kept.of_snd3 (by assumption) ?_)
    | (with_reducible refine Kept.of_fst (by assumption) ?_)
    | (with_reducible refine Kept.of_fst2 (by assumption) ?_)
    | (with_reducible refine KeptOpt.elim (by assumption) ?_)
    | (with_reducible refine KeptOpt₂.elim (by assumption) ?_)
    | (with_reducible refine KeptOpt₂.elim' (by assumption) ?_)
    | (with_reducible apply KeptOpt.getD)
    | (with_reducible apply KeptOpt.findSome)
    | (with_reducible apply KeptOpt₂.findSome)
    | (simp only [Kept.update_iff])
    | (simp only [Kept.tables_iff]; apply KeptTables.intro <;> first | with_reducible assumption | with_reducible refine Kept.of_snd (by assumption) ?_ | with_reducible refine Kept.of_snd2 (by assumption) ?_ | with_reducible refine Kept.of_snd3 (by assumption) ?_ | with_reducible refine Kept.of_fst (by assumption) ?_ | with_reducible refine Kept.of_fst2 (by assumption) ?_ | with_reducible refine KeptOpt.elim (by assumption) ?_ | with_reducible refine KeptOpt₂.elim (by assumption) ?_ | with_reducible refine KeptOpt₂.elim' (by assumption) ?_ | with_reducible apply KeptOpt.getD | with_reducible apply KeptOpt.findSome | with_reducible apply KeptOpt₂.findSome | exact id | exact fun _ => rfl | (intro hw; first | exact Sparse.wf_set _ _ _ hw | exact Sparse.wf_restrict _ _ hw | exact Sparse.wf_filter _ _ hw))
    | split)

end Sys2Proof.Machine
end

