-- ==== Sys2Proof/Laws/KeptExec.lean ====
section
/-! SUPPORT. What each command keeps: the queue of commands, the timebase count and the canonical form of every table. -/

set_option Elab.async false

set_option linter.tactic.unusedName false

namespace Sys2Proof.Machine

theorem subcmdOf_some {r : Nat} (h : hasSubcmd r = true) : ∃ k hi lo, subcmdOf r = some (k, hi, lo) := by
  simp only [hasSubcmd, Bool.or_eq_true, decide_eq_true_eq, beq_iff_eq] at h
  have h' : r = 0 ∨ r = 1 ∨ r = 2 ∨ r = 3 ∨ r = 4 ∨ r = 5 ∨ r = 6 ∨ r = 7 ∨ r = 23 ∨ r = 26 ∨ r = 29 ∨ r = 39 := by omega
  rcases h' with rfl | rfl | rfl | rfl | rfl | rfl | rfl | rfl | rfl | rfl | rfl | rfl <;> exact ⟨_, _, _, rfl⟩

theorem scrubbed_inRange {mem : Nat} {bad : Option (BitVec 44)} (h : scrubbed mem bad = true) :
    patrolInRange mem (bad.map BitVec.toNat) = true := by
  cases bad <;> exact h

theorem execRegisterWrite_kept (i : Initiator) (addr : BitVec 44) (bytes : Nat) (v : DWord) (s : State) :
    ∃ t, execRegisterWrite i addr bytes v s = .next t ∧ Kept s t := by
  refine ⟨_, rfl, ?_⟩
  have h : Kept s s := Kept.refl s
  repeat' (first
    | with_reducible assumption
    | (with_reducible apply State.anyAccess_kept)
    | (with_reducible apply State.regWriteAny_kept)
    | (with_reducible apply Kept.ite)
    | (intro _)
    | (with_reducible refine Kept.of_snd (by assumption) ?_)
    | (with_reducible refine Kept.of_snd2 (by assumption) ?_)
    | (with_reducible refine Kept.of_snd3 (by assumption) ?_)
    | (with_reducible refine Kept.of_fst (by assumption) ?_)
    | (with_reducible refine Kept.of_fst2 (by assumption) ?_)
    | (simp only [Kept.update_iff])
    | (simp only [Kept.tables_iff]; apply KeptTables.intro <;> first | with_reducible assumption | with_reducible refine Kept.of_snd (by assumption) ?_ | with_reducible refine Kept.of_snd2 (by assumption) ?_ | with_reducible refine Kept.of_snd3 (by assumption) ?_ | with_reducible refine Kept.of_fst (by assumption) ?_ | with_reducible refine Kept.of_fst2 (by assumption) ?_ | exact id | exact fun _ => rfl | (intro hw; first | exact Sparse.wf_set _ _ _ hw | exact Sparse.wf_restrict _ _ hw | exact Sparse.wf_filter _ _ hw))
    | split)

theorem execMeridPeriodWrite_kept (i : Initiator) (v : Word) (s : State) :
    ∃ t, execMeridPeriodWrite i v s = .next t ∧ Kept s t := by
  refine ⟨_, rfl, ?_⟩
  have h : Kept s s := Kept.refl s
  repeat' (first
    | with_reducible assumption
    | (with_reducible apply State.regWrite_kept))

theorem execLockcfgWrite_kept (i : Initiator) (v : Word) (s : State) :
    ∃ t, execLockcfgWrite i v s = .next t ∧ Kept s t := by
  refine ⟨_, rfl, ?_⟩
  have h : Kept s s := Kept.refl s
  repeat' (first
    | with_reducible assumption
    | (with_reducible apply State.regWrite_kept))

theorem execReferenceEvent_kept (src : RefSource) (s : State) :
    ∃ t, execReferenceEvent src s = .next t ∧ Kept s t := by
  refine ⟨_, rfl, ?_⟩
  have h : Kept s s := Kept.refl s
  repeat' (first
    | with_reducible assumption
    | (with_reducible apply effReference_kept))

theorem execReferenceTimeout_kept  (s : State) :
    ∃ t, execReferenceTimeout s = .next t ∧ Kept s t := by
  refine ⟨_, rfl, ?_⟩
  have h : Kept s s := Kept.refl s
  repeat' (first
    | with_reducible assumption
    | (with_reducible apply effRefTimeout_kept))

theorem execHoldoverExpiry_kept  (s : State) :
    ∃ t, execHoldoverExpiry s = .next t ∧ Kept s t := by
  refine ⟨_, rfl, ?_⟩
  have h : Kept s s := Kept.refl s
  repeat' (first
    | with_reducible assumption
    | (with_reducible apply effHoldover_kept))

theorem execSlotWordWrite_kept (i : Initiator) (slot : BitVec 10) (w : SlotWord) (v : Word) (s : State) :
    ∃ t, execSlotWordWrite i slot w v s = .next t ∧ Kept s t := by
  refine ⟨_, rfl, ?_⟩
  have h : Kept s s := Kept.refl s
  repeat' (first
    | with_reducible assumption
    | (with_reducible apply State.regWrite_kept))

theorem execSlotArm_kept (i : Initiator) (slot : BitVec 10) (v : Word) (s : State) :
    ∃ t, execSlotArm i slot v s = .next t ∧ Kept s t := by
  refine ⟨_, rfl, ?_⟩
  have h : Kept s s := Kept.refl s
  repeat' (first
    | with_reducible assumption
    | (with_reducible apply State.regWrite_kept))

theorem execSlotDisarm_kept (i : Initiator) (slot : BitVec 10) (v : Word) (s : State) :
    ∃ t, execSlotDisarm i slot v s = .next t ∧ Kept s t := by
  refine ⟨_, rfl, ?_⟩
  have h : Kept s s := Kept.refl s
  repeat' (first
    | with_reducible assumption
    | (with_reducible apply State.regWrite_kept))

theorem execOccurrenceDispatch_kept (slot : BitVec 10) (s : State) :
    ∃ t, execOccurrenceDispatch slot s = .next t ∧ Kept s t := by
  refine ⟨_, rfl, ?_⟩
  have h : Kept s s := Kept.refl s
  repeat' (first
    | with_reducible assumption
    | (with_reducible apply effDispatch_kept))

theorem execTriggerAction_kept (pin : BitVec 5) (s : State) :
    ∃ t, execTriggerAction pin s = .next t ∧ Kept s t := by
  refine ⟨_, rfl, ?_⟩
  have h : Kept s s := Kept.refl s
  repeat' (first
    | with_reducible assumption
    | (with_reducible apply effTriggerAction_kept))

theorem execPulseEnd_kept (pin : BitVec 5) (s : State) :
    ∃ t, execPulseEnd pin s = .next t ∧ Kept s t := by
  refine ⟨_, rfl, ?_⟩
  have h : Kept s s := Kept.refl s
  repeat' (first
    | with_reducible assumption
    | (with_reducible apply effPulseEnd_kept))

theorem execVernierBroadcast_kept (off : BitVec 28) (intact : BitVec 28) (s : State) :
    ∃ t, execVernierBroadcast off intact s = .next t ∧ Kept s t := by
  refine ⟨_, rfl, ?_⟩
  have h : Kept s s := Kept.refl s
  repeat' (first
    | with_reducible assumption
    | (with_reducible apply effVernier_kept))

theorem execTrgCfgWrite_kept (i : Initiator) (pin : BitVec 5) (v : Word) (s : State) :
    ∃ t, execTrgCfgWrite i pin v s = .next t ∧ Kept s t := by
  refine ⟨_, rfl, ?_⟩
  have h : Kept s s := Kept.refl s
  repeat' (first
    | with_reducible assumption
    | (with_reducible apply State.regWrite_kept))

theorem execEncoderTransition_kept (enc : BitVec 2) (fwd : Bool) (both : Bool) (s : State) :
    ∃ t, execEncoderTransition enc fwd both s = .next t ∧ Kept s t := by
  refine ⟨_, rfl, ?_⟩
  have h : Kept s s := Kept.refl s
  repeat' (first
    | with_reducible assumption
    | (with_reducible apply effTransition_kept))

theorem execEncoderIndex_kept (enc : BitVec 2) (s : State) :
    ∃ t, execEncoderIndex enc s = .next t ∧ Kept s t := by
  refine ⟨_, rfl, ?_⟩
  have h : Kept s s := Kept.refl s
  repeat' (first
    | with_reducible assumption
    | (with_reducible apply effIndex_kept))

theorem execSsiSample_kept (enc : BitVec 2) (data : Word) (parity : Bool) (s : State) :
    ∃ t, execSsiSample enc data parity s = .next t ∧ Kept s t := by
  refine ⟨_, rfl, ?_⟩
  have h : Kept s s := Kept.refl s
  repeat' (first
    | with_reducible assumption
    | (with_reducible apply effSsi_kept))

theorem execEinjWrite_kept (i : Initiator) (region : BitVec 6) (v : Word) (s : State) :
    ∃ t, execEinjWrite i region v s = .next t ∧ Kept s t := by
  refine ⟨_, rfl, ?_⟩
  have h : Kept s s := Kept.refl s
  repeat' (first
    | with_reducible assumption
    | (with_reducible apply State.regWrite_kept))

theorem execQuiesceSet_kept (i : Initiator) (region : BitVec 6) (v : Word) (s : State) :
    ∃ t, execQuiesceSet i region v s = .next t ∧ Kept s t := by
  refine ⟨_, rfl, ?_⟩
  have h : Kept s s := Kept.refl s
  repeat' (first
    | with_reducible assumption
    | (with_reducible apply State.regWrite_kept))

theorem execQuiesceClear_kept (i : Initiator) (region : BitVec 6) (v : Word) (s : State) :
    ∃ t, execQuiesceClear i region v s = .next t ∧ Kept s t := by
  refine ⟨_, rfl, ?_⟩
  have h : Kept s s := Kept.refl s
  repeat' (first
    | with_reducible assumption
    | (with_reducible apply State.regWrite_kept))

theorem execUnfreezeArm_kept (i : Initiator) (region : BitVec 6) (itag : Itag) (s : State) :
    ∃ t, execUnfreezeArm i region itag s = .next t ∧ Kept s t := by
  refine ⟨_, rfl, ?_⟩
  have h : Kept s s := Kept.refl s
  repeat' (first
    | with_reducible assumption
    | (with_reducible apply State.regWrite_kept))

theorem execUnfreezeRelease_kept (i : Initiator) (region : BitVec 6) (itag : Itag) (s : State) :
    ∃ t, execUnfreezeRelease i region itag s = .next t ∧ Kept s t := by
  refine ⟨_, rfl, ?_⟩
  have h : Kept s s := Kept.refl s
  repeat' (first
    | with_reducible assumption
    | (with_reducible apply State.regWrite_kept))

theorem execUnfreezeTimeout_kept (region : BitVec 6) (s : State) :
    ∃ t, execUnfreezeTimeout region s = .next t ∧ Kept s t := by
  refine ⟨_, rfl, ?_⟩
  have h : Kept s s := Kept.refl s
  repeat' (first
    | with_reducible assumption
    | (with_reducible apply effUnfreezeTimeout_kept))

theorem execUnfreezeEffect_kept (itag : Itag) (s : State) :
    ∃ t, execUnfreezeEffect itag s = .next t ∧ Kept s t := by
  refine ⟨_, rfl, ?_⟩
  have h : Kept s s := Kept.refl s
  repeat' (first
    | with_reducible assumption
    | (with_reducible apply effUnfreeze_kept))

theorem execDoorbellWrite_kept (i : Initiator) (region : BitVec 6) (q : BitVec 12) (v : Word) (s : State) :
    ∃ t, execDoorbellWrite i region q v s = .next t ∧ Kept s t := by
  refine ⟨_, rfl, ?_⟩
  have h : Kept s s := Kept.refl s
  repeat' (first
    | with_reducible assumption
    | (with_reducible apply State.regWrite_kept))

theorem execDoorbellAction_kept (region : BitVec 6) (s : State) :
    ∃ t, execDoorbellAction region s = .next t ∧ Kept s t := by
  refine ⟨_, rfl, ?_⟩
  have h : Kept s s := Kept.refl s
  repeat' (first
    | with_reducible assumption
    | (with_reducible apply effDoorbellAction_kept))

theorem execQueueEnable_kept (i : Initiator) (region : BitVec 6) (q : BitVec 12) (s : State) :
    ∃ t, execQueueEnable i region q s = .next t ∧ Kept s t := by
  refine ⟨_, rfl, ?_⟩
  have h : Kept s s := Kept.refl s
  repeat' (first
    | with_reducible assumption
    | (with_reducible apply State.regWrite_kept))

theorem execQueueDisable_kept (i : Initiator) (region : BitVec 6) (q : BitVec 12) (s : State) :
    ∃ t, execQueueDisable i region q s = .next t ∧ Kept s t := by
  refine ⟨_, rfl, ?_⟩
  have h : Kept s s := Kept.refl s
  repeat' (first
    | with_reducible assumption
    | (with_reducible apply State.regWrite_kept))

theorem execQueueResume_kept (i : Initiator) (region : BitVec 6) (q : BitVec 12) (newHead : BitVec 16) (s : State) :
    ∃ t, execQueueResume i region q newHead s = .next t ∧ Kept s t := by
  refine ⟨_, rfl, ?_⟩
  have h : Kept s s := Kept.refl s
  repeat' (first
    | with_reducible assumption
    | (with_reducible apply State.regWrite_kept))

theorem execQcmdComplete_kept (region : BitVec 6) (s : State) :
    ∃ t, execQcmdComplete region s = .next t ∧ Kept s t := by
  refine ⟨_, rfl, ?_⟩
  have h : Kept s s := Kept.refl s
  repeat' (first
    | with_reducible assumption
    | (with_reducible apply State.qcmdDone_kept))

theorem execOperationComplete_kept (region : BitVec 6) (q : BitVec 12) (index : BitVec 16) (s : State) :
    ∃ t, execOperationComplete region q index s = .next t ∧ Kept s t := by
  refine ⟨_, rfl, ?_⟩
  have h : Kept s s := Kept.refl s
  repeat' (first
    | with_reducible assumption
    | (with_reducible apply effOpComplete_kept))

theorem execDepotModeWrite_kept (i : Initiator) (v : Word) (s : State) :
    ∃ t, execDepotModeWrite i v s = .next t ∧ Kept s t := by
  refine ⟨_, rfl, ?_⟩
  have h : Kept s s := Kept.refl s
  repeat' (first
    | with_reducible assumption
    | (with_reducible apply State.regWrite_kept))

theorem execDomeLoad_kept (dome : BitVec 3) (q : BitVec 6) (s : State) :
    ∃ t, execDomeLoad dome q s = .next t ∧ Kept s t := by
  refine ⟨_, rfl, ?_⟩
  have h : Kept s s := Kept.refl s
  repeat' (first
    | with_reducible assumption
    | (with_reducible apply effDomeLoad_kept))

theorem execDomeRun_kept (dome : BitVec 3) (q : BitVec 6) (s : State) :
    ∃ t, execDomeRun dome q s = .next t ∧ Kept s t := by
  refine ⟨_, rfl, ?_⟩
  have h : Kept s s := Kept.refl s
  repeat' (first
    | with_reducible assumption
    | (with_reducible apply effDomeRun_kept))

theorem execDomeNop_kept (dome : BitVec 3) (q : BitVec 6) (s : State) :
    ∃ t, execDomeNop dome q s = .next t ∧ Kept s t := by
  refine ⟨_, rfl, ?_⟩
  have h : Kept s s := Kept.refl s
  repeat' (first
    | with_reducible assumption
    | (with_reducible apply effNop_kept))

theorem execEntryIssue_kept (dome : BitVec 3) (lstage : BitVec 4) (port : BitVec 2) (s : State) :
    ∃ t, execEntryIssue dome lstage port s = .next t ∧ Kept s t := by
  refine ⟨_, rfl, ?_⟩
  have h : Kept s s := Kept.refl s
  repeat' (first
    | with_reducible assumption
    | (with_reducible apply effEntryIssue_kept))

theorem execGatherSlotFree_kept (dome : BitVec 3) (s : State) :
    ∃ t, execGatherSlotFree dome s = .next t ∧ Kept s t := by
  refine ⟨_, rfl, ?_⟩
  have h : Kept s s := Kept.refl s
  repeat' (first
    | with_reducible assumption
    | (with_reducible apply effGatherSlotFree_kept))

theorem execRunWcetExpiry_kept (dome : BitVec 3) (s : State) :
    ∃ t, execRunWcetExpiry dome s = .next t ∧ Kept s t := by
  refine ⟨_, rfl, ?_⟩
  have h : Kept s s := Kept.refl s
  repeat' (first
    | with_reducible assumption
    | (with_reducible apply effRunWcet_kept))

theorem execStageFault_kept (dome : BitVec 3) (lstage : BitVec 4) (cause : BitVec 2) (s : State) :
    ∃ t, execStageFault dome lstage cause s = .next t ∧ Kept s t := by
  refine ⟨_, rfl, ?_⟩
  have h : Kept s s := Kept.refl s
  repeat' (first
    | with_reducible assumption
    | (with_reducible apply effStageFault_kept))

theorem execSpareTakeover_kept (region : BitVec 6) (unit : BitVec 2) (s : State) :
    ∃ t, execSpareTakeover region unit s = .next t ∧ Kept s t := by
  refine ⟨_, rfl, ?_⟩
  have h : Kept s s := Kept.refl s
  repeat' (first
    | with_reducible assumption
    | (with_reducible apply effTakeover_kept))

theorem execTestSliceEnd_kept (region : BitVec 6) (unit : BitVec 2) (pass : Bool) (banks : List (BitVec 9)) (s : State) :
    ∃ t, execTestSliceEnd region unit pass banks s = .next t ∧ Kept s t := by
  refine ⟨_, rfl, ?_⟩
  have h : Kept s s := Kept.refl s
  repeat' (first
    | with_reducible assumption
    | (with_reducible apply effSliceEnd_kept))

theorem execWindowOpen_kept (region : BitVec 6) (s : State) :
    ∃ t, execWindowOpen region s = .next t ∧ Kept s t := by
  refine ⟨_, rfl, ?_⟩
  have h : Kept s s := Kept.refl s
  repeat' (first
    | with_reducible assumption
    | (with_reducible apply effWindowOpen_kept))

theorem execWindowClose_kept (region : BitVec 6) (s : State) :
    ∃ t, execWindowClose region s = .next t ∧ Kept s t := by
  refine ⟨_, rfl, ?_⟩
  have h : Kept s s := Kept.refl s
  repeat' (first
    | with_reducible assumption
    | (with_reducible apply effWindowClose_kept))

theorem execSubcmdTest_kept (i : Initiator) (region : BitVec 6) (v : Word) (s : State) (hw : (Instr.subcmdTest i region v).wellFormed = true) :
    ∃ t, execSubcmdTest i region v s = .next t ∧ Kept s t := by
  obtain ⟨k, hi, lo, hx⟩ := subcmdOf_some hw
  unfold execSubcmdTest
  rw [hx]
  refine ⟨_, rfl, ?_⟩
  have h : Kept s s := Kept.refl s
  repeat' (first
    | with_reducible assumption
    | (with_reducible apply State.regWrite_kept))

theorem execSubcmdRetire_kept (i : Initiator) (region : BitVec 6) (v : Word) (s : State) (hw : (Instr.subcmdRetire i region v).wellFormed = true) :
    ∃ t, execSubcmdRetire i region v s = .next t ∧ Kept s t := by
  obtain ⟨k, hi, lo, hx⟩ := subcmdOf_some hw
  unfold execSubcmdRetire
  rw [hx]
  refine ⟨_, rfl, ?_⟩
  have h : Kept s s := Kept.refl s
  repeat' (first
    | with_reducible assumption
    | (with_reducible apply State.regWrite_kept))

theorem execQuotaWrite_kept (i : Initiator) (tenant : BitVec 4) (v : Word) (s : State) :
    ∃ t, execQuotaWrite i tenant v s = .next t ∧ Kept s t := by
  refine ⟨_, rfl, ?_⟩
  have h : Kept s s := Kept.refl s
  repeat' (first
    | with_reducible assumption
    | (with_reducible apply State.regWrite_kept))

theorem execTransitMove_kept (q : BitVec 10) (s : State) :
    ∃ t, execTransitMove q s = .next t ∧ Kept s t := by
  refine ⟨_, rfl, ?_⟩
  have h : Kept s s := Kept.refl s
  repeat' (first
    | with_reducible assumption
    | (with_reducible apply effTransitMove_kept))

theorem execTransitNop_kept (q : BitVec 10) (s : State) :
    ∃ t, execTransitNop q s = .next t ∧ Kept s t := by
  refine ⟨_, rfl, ?_⟩
  have h : Kept s s := Kept.refl s
  repeat' (first
    | with_reducible assumption
    | (with_reducible apply effTransitNop_kept))

theorem execAlloc_kept (q : BitVec 10) (s : State) :
    ∃ t, execAlloc q s = .next t ∧ Kept s t := by
  refine ⟨_, rfl, ?_⟩
  have h : Kept s s := Kept.refl s
  repeat' (first
    | with_reducible assumption
    | (with_reducible apply effAlloc_kept))

theorem execFree_kept (q : BitVec 10) (s : State) :
    ∃ t, execFree q s = .next t ∧ Kept s t := by
  refine ⟨_, rfl, ?_⟩
  have h : Kept s s := Kept.refl s
  repeat' (first
    | with_reducible assumption
    | (with_reducible apply effFree_kept))

theorem execAllocResume_kept  (s : State) :
    ∃ t, execAllocResume s = .next t ∧ Kept s t := by
  refine ⟨_, rfl, ?_⟩
  have h : Kept s s := Kept.refl s
  repeat' (first
    | with_reducible assumption
    | (with_reducible apply effAllocResume_kept))

theorem execPoolReleaseResume_kept  (s : State) :
    ∃ t, execPoolReleaseResume s = .next t ∧ Kept s t := by
  refine ⟨_, rfl, ?_⟩
  have h : Kept s s := Kept.refl s
  repeat' (first
    | with_reducible assumption
    | (with_reducible apply effPoolResume_kept))

theorem execReadaroundTimeout_kept (pc : BitVec 8) (s : State) (hw : (Instr.readaroundTimeout pc).wellFormed = true) :
    ∃ t, execReadaroundTimeout pc s = .next t ∧ Kept s t := by
  unfold execReadaroundTimeout
  simp only [Instr.wellFormed, decide_eq_true_eq, Bool.and_eq_true] at hw
  rw [if_neg (by omega)]
  refine ⟨_, rfl, ?_⟩
  have h : Kept s s := Kept.refl s
  repeat' (first
    | with_reducible assumption
    | (with_reducible apply effReadAround_kept))

theorem execReread_kept (q : BitVec 10) (s : State) :
    ∃ t, execReread q s = .next t ∧ Kept s t := by
  refine ⟨_, rfl, ?_⟩
  have h : Kept s s := Kept.refl s
  repeat' (first
    | with_reducible assumption
    | (with_reducible apply effReread_kept))

theorem execPcCeThreshold_kept (pc : BitVec 8) (count : BitVec 16) (s : State) (hw : (Instr.pcCeThreshold pc count).wellFormed = true) :
    ∃ t, execPcCeThreshold pc count s = .next t ∧ Kept s t := by
  unfold execPcCeThreshold
  simp only [Instr.wellFormed, decide_eq_true_eq, Bool.and_eq_true] at hw
  rw [if_neg (by omega)]
  refine ⟨_, rfl, ?_⟩
  have h : Kept s s := Kept.refl s
  repeat' (first
    | with_reducible assumption
    | (with_reducible apply State.count_kept)
    | (with_reducible apply effPcThreshold_kept))

theorem execPcSuspectExpiry_kept (pc : BitVec 8) (s : State) (hw : (Instr.pcSuspectExpiry pc).wellFormed = true) :
    ∃ t, execPcSuspectExpiry pc s = .next t ∧ Kept s t := by
  unfold execPcSuspectExpiry
  simp only [Instr.wellFormed, decide_eq_true_eq, Bool.and_eq_true] at hw
  rw [if_neg (by omega)]
  refine ⟨_, rfl, ?_⟩
  have h : Kept s s := Kept.refl s
  repeat' (first
    | with_reducible assumption
    | (with_reducible apply effPcExpiry_kept))

theorem execPcRetireCmd_kept (i : Initiator) (stack : BitVec 3) (v : Word) (s : State) (hw : (Instr.pcRetireCmd i stack v).wellFormed = true) :
    ∃ t, execPcRetireCmd i stack v s = .next t ∧ Kept s t := by
  unfold execPcRetireCmd
  simp only [Instr.wellFormed, decide_eq_true_eq, Bool.and_eq_true] at hw
  rw [if_neg (by omega)]
  refine ⟨_, rfl, ?_⟩
  have h : Kept s s := Kept.refl s
  repeat' (first
    | with_reducible assumption
    | (with_reducible apply State.regWrite_kept))

theorem execFinderInvalidate_kept (i : Initiator) (walker : BitVec 3) (v : Word) (s : State) :
    ∃ t, execFinderInvalidate i walker v s = .next t ∧ Kept s t := by
  refine ⟨_, rfl, ?_⟩
  have h : Kept s s := Kept.refl s
  repeat' (first
    | with_reducible assumption
    | (with_reducible apply State.regWrite_kept))

theorem execFinderInvalidateDone_kept (walker : BitVec 3) (s : State) :
    ∃ t, execFinderInvalidateDone walker s = .next t ∧ Kept s t := by
  refine ⟨_, rfl, ?_⟩
  have h : Kept s s := Kept.refl s
  repeat' (first
    | with_reducible assumption
    | (with_reducible apply effFinvDone_kept))

theorem execKvFlush_kept (i : Initiator) (v : Word) (s : State) :
    ∃ t, execKvFlush i v s = .next t ∧ Kept s t := by
  refine ⟨_, rfl, ?_⟩
  have h : Kept s s := Kept.refl s
  repeat' (first
    | with_reducible assumption
    | (with_reducible apply State.regWrite_kept))

theorem execQaReqWrite_kept (i : Initiator) (v : Word) (s : State) :
    ∃ t, execQaReqWrite i v s = .next t ∧ Kept s t := by
  refine ⟨_, rfl, ?_⟩
  have h : Kept s s := Kept.refl s
  repeat' (first
    | with_reducible assumption
    | (with_reducible apply State.regWrite_kept))

theorem execCoelServe_kept  (s : State) :
    ∃ t, execCoelServe s = .next t ∧ Kept s t := by
  refine ⟨_, rfl, ?_⟩
  have h : Kept s s := Kept.refl s
  repeat' (first
    | with_reducible assumption
    | (with_reducible apply effCoelServe_kept))

theorem execCoelResume_kept  (s : State) :
    ∃ t, execCoelResume s = .next t ∧ Kept s t := by
  refine ⟨_, rfl, ?_⟩
  have h : Kept s s := Kept.refl s
  repeat' (first
    | with_reducible assumption
    | (with_reducible apply effCoelResume_kept))

theorem execSwapoutComplete_kept  (s : State) :
    ∃ t, execSwapoutComplete s = .next t ∧ Kept s t := by
  refine ⟨_, rfl, ?_⟩
  have h : Kept s s := Kept.refl s
  repeat' (first
    | with_reducible assumption
    | (with_reducible apply effSwapDone_kept))

theorem execSwapinComplete_kept  (s : State) :
    ∃ t, execSwapinComplete s = .next t ∧ Kept s t := by
  refine ⟨_, rfl, ?_⟩
  have h : Kept s s := Kept.refl s
  repeat' (first
    | with_reducible assumption
    | (with_reducible apply effSwapDone_kept))

theorem execCoelEvict_kept (i : Initiator) (entry : BitVec 10) (s : State) :
    ∃ t, execCoelEvict i entry s = .next t ∧ Kept s t := by
  refine ⟨_, rfl, ?_⟩
  have h : Kept s s := Kept.refl s
  repeat' (first
    | with_reducible assumption
    | (with_reducible apply State.regWrite_kept))

theorem execCoelEvictHold_kept (i : Initiator) (entry : BitVec 10) (s : State) :
    ∃ t, execCoelEvictHold i entry s = .next t ∧ Kept s t := by
  refine ⟨_, rfl, ?_⟩
  have h : Kept s s := Kept.refl s
  repeat' (first
    | with_reducible assumption
    | (with_reducible apply State.regWrite_kept))

theorem execCoelRestore_kept (i : Initiator) (entry : BitVec 10) (s : State) :
    ∃ t, execCoelRestore i entry s = .next t ∧ Kept s t := by
  refine ⟨_, rfl, ?_⟩
  have h : Kept s s := Kept.refl s
  repeat' (first
    | with_reducible assumption
    | (with_reducible apply State.regWrite_kept))

theorem execCoelRetry_kept (i : Initiator) (entry : BitVec 10) (s : State) :
    ∃ t, execCoelRetry i entry s = .next t ∧ Kept s t := by
  refine ⟨_, rfl, ?_⟩
  have h : Kept s s := Kept.refl s
  repeat' (first
    | with_reducible assumption
    | (with_reducible apply State.regWrite_kept))

theorem execCoelDiscard_kept (i : Initiator) (entry : BitVec 10) (s : State) :
    ∃ t, execCoelDiscard i entry s = .next t ∧ Kept s t := by
  refine ⟨_, rfl, ?_⟩
  have h : Kept s s := Kept.refl s
  repeat' (first
    | with_reducible assumption
    | (with_reducible apply State.regWrite_kept))

theorem execAdmitJob_kept  (s : State) :
    ∃ t, execAdmitJob s = .next t ∧ Kept s t := by
  refine ⟨_, rfl, ?_⟩
  have h : Kept s s := Kept.refl s
  repeat' (first
    | with_reducible assumption
    | (with_reducible apply effAdmit_kept))

theorem execRetire_kept  (s : State) :
    ∃ t, execRetire s = .next t ∧ Kept s t := by
  refine ⟨_, rfl, ?_⟩
  have h : Kept s s := Kept.refl s
  repeat' (first
    | with_reducible assumption
    | (with_reducible apply effRetire_kept))

theorem execSchedNop_kept (q : BitVec 6) (s : State) :
    ∃ t, execSchedNop q s = .next t ∧ Kept s t := by
  refine ⟨_, rfl, ?_⟩
  have h : Kept s s := Kept.refl s
  repeat' (first
    | with_reducible assumption
    | (with_reducible apply effNop_kept))

theorem execJoin_kept  (s : State) :
    ∃ t, execJoin s = .next t ∧ Kept s t := by
  refine ⟨_, rfl, ?_⟩
  have h : Kept s s := Kept.refl s
  repeat' (first
    | with_reducible assumption
    | (with_reducible apply effJoin_kept))

theorem execLeave_kept  (s : State) :
    ∃ t, execLeave s = .next t ∧ Kept s t := by
  refine ⟨_, rfl, ?_⟩
  have h : Kept s s := Kept.refl s
  repeat' (first
    | with_reducible assumption
    | (with_reducible apply effLeave_kept))

theorem execStep_kept (sq : BitVec 6) (s : State) :
    ∃ t, execStep sq s = .next t ∧ Kept s t := by
  refine ⟨_, rfl, ?_⟩
  have h : Kept s s := Kept.refl s
  repeat' (first
    | with_reducible assumption
    | (with_reducible apply effStep_kept))

theorem execStepOpen_kept  (s : State) :
    ∃ t, execStepOpen s = .next t ∧ Kept s t := by
  refine ⟨_, rfl, ?_⟩
  have h : Kept s s := Kept.refl s
  repeat' (first
    | with_reducible assumption
    | (with_reducible apply effStepOpen_kept))

theorem execStepRelease_kept  (s : State) :
    ∃ t, execStepRelease s = .next t ∧ Kept s t := by
  refine ⟨_, rfl, ?_⟩
  have h : Kept s s := Kept.refl s
  repeat' (first
    | with_reducible assumption
    | (with_reducible apply effStepRelease_kept))

theorem execStepClose_kept (sq : BitVec 6) (s : State) :
    ∃ t, execStepClose sq s = .next t ∧ Kept s t := by
  refine ⟨_, rfl, ?_⟩
  have h : Kept s s := Kept.refl s
  repeat' (first
    | with_reducible assumption
    | (with_reducible apply effStepClose_kept))

theorem execStepWcetExpiry_kept (sq : BitVec 6) (s : State) :
    ∃ t, execStepWcetExpiry sq s = .next t ∧ Kept s t := by
  refine ⟨_, rfl, ?_⟩
  have h : Kept s s := Kept.refl s
  repeat' (first
    | with_reducible assumption
    | (with_reducible apply effStepWcet_kept))

theorem execPreemptRequest_kept (sq : BitVec 6) (s : State) :
    ∃ t, execPreemptRequest sq s = .next t ∧ Kept s t := by
  refine ⟨_, rfl, ?_⟩
  have h : Kept s s := Kept.refl s
  repeat' (first
    | with_reducible assumption
    | (with_reducible apply effPreemptRequest_kept))

theorem execPreemptPoint_kept (sq : BitVec 6) (s : State) :
    ∃ t, execPreemptPoint sq s = .next t ∧ Kept s t := by
  refine ⟨_, rfl, ?_⟩
  have h : Kept s s := Kept.refl s
  repeat' (first
    | with_reducible assumption
    | (with_reducible apply effPreemptPoint_kept))

theorem execSaveComplete_kept (sq : BitVec 6) (dome : BitVec 3) (live : Word) (s : State) :
    ∃ t, execSaveComplete sq dome live s = .next t ∧ Kept s t := by
  refine ⟨_, rfl, ?_⟩
  have h : Kept s s := Kept.refl s
  repeat' (first
    | with_reducible assumption
    | (with_reducible apply effSaveComplete_kept))

theorem execRestoreStart_kept (sq : BitVec 6) (s : State) :
    ∃ t, execRestoreStart sq s = .next t ∧ Kept s t := by
  refine ⟨_, rfl, ?_⟩
  have h : Kept s s := Kept.refl s
  repeat' (first
    | with_reducible assumption
    | (with_reducible apply effRestoreStart_kept))

theorem execRestoreComplete_kept (sq : BitVec 6) (dome : BitVec 3) (s : State) :
    ∃ t, execRestoreComplete sq dome s = .next t ∧ Kept s t := by
  refine ⟨_, rfl, ?_⟩
  have h : Kept s s := Kept.refl s
  repeat' (first
    | with_reducible assumption
    | (with_reducible apply effRestoreComplete_kept))

theorem execSemAcquire_kept (i : Initiator) (sem : BitVec 6) (job : BitVec 16) (s : State) :
    ∃ t, execSemAcquire i sem job s = .next t ∧ Kept s t := by
  refine ⟨_, rfl, ?_⟩
  have h : Kept s s := Kept.refl s
  repeat' (first
    | with_reducible assumption
    | (with_reducible apply State.regWrite_kept))

theorem execSemRelease_kept (i : Initiator) (sem : BitVec 6) (job : BitVec 16) (s : State) :
    ∃ t, execSemRelease i sem job s = .next t ∧ Kept s t := by
  refine ⟨_, rfl, ?_⟩
  have h : Kept s s := Kept.refl s
  repeat' (first
    | with_reducible assumption
    | (with_reducible apply State.regWrite_kept))

theorem execSemOverrun_kept (sem : BitVec 6) (s : State) :
    ∃ t, execSemOverrun sem s = .next t ∧ Kept s t := by
  refine ⟨_, rfl, ?_⟩
  have h : Kept s s := Kept.refl s
  repeat' (first
    | with_reducible assumption
    | (with_reducible apply effSemOverrun_kept))

theorem execSolvLoad_kept (q : BitVec 6) (s : State) :
    ∃ t, execSolvLoad q s = .next t ∧ Kept s t := by
  refine ⟨_, rfl, ?_⟩
  have h : Kept s s := Kept.refl s
  repeat' (first
    | with_reducible assumption
    | (with_reducible apply effSolvLoad_kept))

theorem execSolvFree_kept (q : BitVec 6) (s : State) :
    ∃ t, execSolvFree q s = .next t ∧ Kept s t := by
  refine ⟨_, rfl, ?_⟩
  have h : Kept s s := Kept.refl s
  repeat' (first
    | with_reducible assumption
    | (with_reducible apply effSolvFree_kept))

theorem execSolvNop_kept (q : BitVec 6) (s : State) :
    ∃ t, execSolvNop q s = .next t ∧ Kept s t := by
  refine ⟨_, rfl, ?_⟩
  have h : Kept s s := Kept.refl s
  repeat' (first
    | with_reducible assumption
    | (with_reducible apply effNop_kept))

theorem execSolve_kept (q : BitVec 6) (s : State) :
    ∃ t, execSolve q s = .next t ∧ Kept s t := by
  refine ⟨_, rfl, ?_⟩
  have h : Kept s s := Kept.refl s
  repeat' (first
    | with_reducible assumption
    | (with_reducible apply effSolve_kept))

theorem execSolveRefReady_kept (q : BitVec 6) (s : State) :
    ∃ t, execSolveRefReady q s = .next t ∧ Kept s t := by
  refine ⟨_, rfl, ?_⟩
  have h : Kept s s := Kept.refl s
  repeat' (first
    | with_reducible assumption
    | (with_reducible apply effSolveRefReady_kept))

theorem execSolveDeadline_kept  (s : State) :
    ∃ t, execSolveDeadline s = .next t ∧ Kept s t := by
  refine ⟨_, rfl, ?_⟩
  have h : Kept s s := Kept.refl s
  repeat' (first
    | with_reducible assumption
    | (with_reducible apply effSolveDeadline_kept))

theorem execSolveWcetExpiry_kept  (s : State) :
    ∃ t, execSolveWcetExpiry s = .next t ∧ Kept s t := by
  refine ⟨_, rfl, ?_⟩
  have h : Kept s s := Kept.refl s
  repeat' (first
    | with_reducible assumption
    | (with_reducible apply effSolveWcet_kept))

theorem execLaneFault_kept (lane : BitVec 8) (s : State) :
    ∃ t, execLaneFault lane s = .next t ∧ Kept s t := by
  refine ⟨_, rfl, ?_⟩
  have h : Kept s s := Kept.refl s
  repeat' (first
    | with_reducible assumption
    | (with_reducible apply effLaneFault_kept))

theorem execOccInstall_kept (q : BitVec 6) (s : State) :
    ∃ t, execOccInstall q s = .next t ∧ Kept s t := by
  refine ⟨_, rfl, ?_⟩
  have h : Kept s s := Kept.refl s
  repeat' (first
    | with_reducible assumption
    | (with_reducible apply effOccInstall_kept))

theorem execOccBody_kept (q : BitVec 6) (s : State) :
    ∃ t, execOccBody q s = .next t ∧ Kept s t := by
  refine ⟨_, rfl, ?_⟩
  have h : Kept s s := Kept.refl s
  repeat' (first
    | with_reducible assumption
    | (with_reducible apply effOccBody_kept))

theorem execOccNop_kept (q : BitVec 6) (s : State) :
    ∃ t, execOccNop q s = .next t ∧ Kept s t := by
  refine ⟨_, rfl, ?_⟩
  have h : Kept s s := Kept.refl s
  repeat' (first
    | with_reducible assumption
    | (with_reducible apply effOccNop_kept))

theorem execCheck_kept (q : BitVec 6) (s : State) :
    ∃ t, execCheck q s = .next t ∧ Kept s t := by
  refine ⟨_, rfl, ?_⟩
  have h : Kept s s := Kept.refl s
  repeat' (first
    | with_reducible assumption
    | (with_reducible apply effCheck_kept))

theorem execCheckDeadline_kept  (s : State) :
    ∃ t, execCheckDeadline s = .next t ∧ Kept s t := by
  refine ⟨_, rfl, ?_⟩
  have h : Kept s s := Kept.refl s
  repeat' (first
    | with_reducible assumption
    | (with_reducible apply effCheckDeadline_kept))

theorem execSelect_kept (q : BitVec 6) (s : State) :
    ∃ t, execSelect q s = .next t ∧ Kept s t := by
  refine ⟨_, rfl, ?_⟩
  have h : Kept s s := Kept.refl s
  repeat' (first
    | with_reducible assumption
    | (with_reducible apply effSelect_kept))

theorem execSeed_kept (q : BitVec 6) (s : State) :
    ∃ t, execSeed q s = .next t ∧ Kept s t := by
  refine ⟨_, rfl, ?_⟩
  have h : Kept s s := Kept.refl s
  repeat' (first
    | with_reducible assumption
    | (with_reducible apply effSeed_kept))

theorem execOccWcetExpiry_kept  (s : State) :
    ∃ t, execOccWcetExpiry s = .next t ∧ Kept s t := by
  refine ⟨_, rfl, ?_⟩
  have h : Kept s s := Kept.refl s
  repeat' (first
    | with_reducible assumption
    | (with_reducible apply effOccWcet_kept))

theorem execHandoffReport_kept  (s : State) :
    ∃ t, execHandoffReport s = .next t ∧ Kept s t := by
  refine ⟨_, rfl, ?_⟩
  have h : Kept s s := Kept.refl s
  repeat' (first
    | with_reducible assumption
    | (with_reducible apply effHandOffReport_kept))

theorem execSensorSample_kept (sensor : BitVec 5) (ts : DWord) (s : State) :
    ∃ t, execSensorSample sensor ts s = .next t ∧ Kept s t := by
  refine ⟨_, rfl, ?_⟩
  have h : Kept s s := Kept.refl s
  repeat' (first
    | with_reducible assumption
    | (with_reducible apply effSensorSample_kept))

theorem execSensorRefEvent_kept (sensor : BitVec 5) (ts : DWord) (s : State) :
    ∃ t, execSensorRefEvent sensor ts s = .next t ∧ Kept s t := by
  refine ⟨_, rfl, ?_⟩
  have h : Kept s s := Kept.refl s
  repeat' (first
    | with_reducible assumption
    | (with_reducible apply effSensorRef_kept))

theorem execSensorSilentTimeout_kept (sensor : BitVec 5) (s : State) :
    ∃ t, execSensorSilentTimeout sensor s = .next t ∧ Kept s t := by
  refine ⟨_, rfl, ?_⟩
  have h : Kept s s := Kept.refl s
  repeat' (first
    | with_reducible assumption
    | (with_reducible apply effSensorSilent_kept))

theorem execAfuIssue_kept (stream : BitVec 4) (s : State) :
    ∃ t, execAfuIssue stream s = .next t ∧ Kept s t := by
  refine ⟨_, rfl, ?_⟩
  have h : Kept s s := Kept.refl s
  repeat' (first
    | with_reducible assumption
    | (with_reducible apply effAfuIssue_kept))

theorem execAfuContrib_kept (q : BitVec 4) (s : State) :
    ∃ t, execAfuContrib q s = .next t ∧ Kept s t := by
  refine ⟨_, rfl, ?_⟩
  have h : Kept s s := Kept.refl s
  repeat' (first
    | with_reducible assumption
    | (with_reducible apply effAfuContrib_kept))

theorem execAfuNop_kept (q : BitVec 5) (s : State) :
    ∃ t, execAfuNop q s = .next t ∧ Kept s t := by
  refine ⟨_, rfl, ?_⟩
  have h : Kept s s := Kept.refl s
  repeat' (first
    | with_reducible assumption
    | (with_reducible apply effNop_kept))

theorem execFusionDeadline_kept  (s : State) :
    ∃ t, execFusionDeadline s = .next t ∧ Kept s t := by
  refine ⟨_, rfl, ?_⟩
  have h : Kept s s := Kept.refl s
  repeat' (first
    | with_reducible assumption
    | (with_reducible apply effFusion_kept))

theorem execEgoPoseTick_kept  (s : State) :
    ∃ t, execEgoPoseTick s = .next t ∧ Kept s t := by
  refine ⟨_, rfl, ?_⟩
  have h : Kept s s := Kept.refl s
  repeat' (first
    | with_reducible assumption
    | (with_reducible apply effEgoTick_kept))

theorem execEgoUpdate_kept (source : BitVec 2) (points : Nat) (eig : Word) (s : State) :
    ∃ t, execEgoUpdate source points eig s = .next t ∧ Kept s t := by
  refine ⟨_, rfl, ?_⟩
  have h : Kept s s := Kept.refl s
  repeat' (first
    | with_reducible assumption
    | (with_reducible apply effEgoUpdate_kept))

theorem execEgoLostTimeout_kept  (s : State) :
    ∃ t, execEgoLostTimeout s = .next t ∧ Kept s t := by
  refine ⟨_, rfl, ?_⟩
  have h : Kept s s := Kept.refl s
  repeat' (first
    | with_reducible assumption
    | (with_reducible apply State.egoRefresh_kept)
    | (with_reducible apply Kept.ite)
    | (intro _))

theorem execL1Frame_kept (sensor : BitVec 5) (s : State) :
    ∃ t, execL1Frame sensor s = .next t ∧ Kept s t := by
  refine ⟨_, rfl, ?_⟩
  have h : Kept s s := Kept.refl s
  repeat' (first
    | with_reducible assumption
    | (with_reducible apply effL1Frame_kept))

theorem execLidarInstantMove_kept (sensor : BitVec 5) (s : State) :
    ∃ t, execLidarInstantMove sensor s = .next t ∧ Kept s t := by
  refine ⟨_, rfl, ?_⟩
  have h : Kept s s := Kept.refl s
  repeat' (first
    | with_reducible assumption
    | (with_reducible apply effLidarInstant_kept))

theorem execSampleAction_kept  (s : State) :
    ∃ t, execSampleAction s = .next t ∧ Kept s t := by
  refine ⟨_, rfl, ?_⟩
  have h : Kept s s := Kept.refl s
  repeat' (first
    | with_reducible assumption
    | (with_reducible apply effSampleAction_kept))

theorem execSampleExecute_kept (core : BitVec 2) (s : State) :
    ∃ t, execSampleExecute core s = .next t ∧ Kept s t := by
  refine ⟨_, rfl, ?_⟩
  have h : Kept s s := Kept.refl s
  repeat' (first
    | with_reducible assumption
    | (with_reducible apply effSampleExecute_kept))

theorem execDriveCoreMismatch_kept (core : BitVec 2) (s : State) :
    ∃ t, execDriveCoreMismatch core s = .next t ∧ Kept s t := by
  refine ⟨_, rfl, ?_⟩
  have h : Kept s s := Kept.refl s
  repeat' (first
    | with_reducible assumption
    | (with_reducible apply effCoreMismatch_kept))

theorem execLoopEnable_kept (i : Initiator) (loop : BitVec 6) (s : State) :
    ∃ t, execLoopEnable i loop s = .next t ∧ Kept s t := by
  refine ⟨_, rfl, ?_⟩
  have h : Kept s s := Kept.refl s
  repeat' (first
    | with_reducible assumption
    | (with_reducible apply State.regWrite_kept))

theorem execLoopDisable_kept (i : Initiator) (loop : BitVec 6) (s : State) :
    ∃ t, execLoopDisable i loop s = .next t ∧ Kept s t := by
  refine ⟨_, rfl, ?_⟩
  have h : Kept s s := Kept.refl s
  repeat' (first
    | with_reducible assumption
    | (with_reducible apply State.regWrite_kept))

theorem execLoopSwap_kept (i : Initiator) (loop : BitVec 6) (s : State) :
    ∃ t, execLoopSwap i loop s = .next t ∧ Kept s t := by
  refine ⟨_, rfl, ?_⟩
  have h : Kept s s := Kept.refl s
  repeat' (first
    | with_reducible assumption
    | (with_reducible apply State.regWrite_kept))

theorem execLoopReset_kept (i : Initiator) (loop : BitVec 6) (s : State) :
    ∃ t, execLoopReset i loop s = .next t ∧ Kept s t := by
  refine ⟨_, rfl, ?_⟩
  have h : Kept s s := Kept.refl s
  repeat' (first
    | with_reducible assumption
    | (with_reducible apply State.regWrite_kept))

theorem execHandoffRecord_kept  (s : State) :
    ∃ t, execHandoffRecord s = .next t ∧ Kept s t := by
  refine ⟨_, rfl, ?_⟩
  have h : Kept s s := Kept.refl s
  repeat' (first
    | with_reducible assumption
    | (with_reducible apply effHandOffRecord_kept))

theorem execHandoffVerdict_kept (ch : BitVec 5) (s : State) :
    ∃ t, execHandoffVerdict ch s = .next t ∧ Kept s t := by
  refine ⟨_, rfl, ?_⟩
  have h : Kept s s := Kept.refl s
  repeat' (first
    | with_reducible assumption
    | (with_reducible apply effHandOffVerdict_kept))

theorem execSwitch_kept  (s : State) :
    ∃ t, execSwitch s = .next t ∧ Kept s t := by
  refine ⟨_, rfl, ?_⟩
  have h : Kept s s := Kept.refl s
  repeat' (first
    | with_reducible assumption
    | (with_reducible apply effSwitch_kept))

theorem execDump_kept  (s : State) :
    ∃ t, execDump s = .next t ∧ Kept s t := by
  refine ⟨_, rfl, ?_⟩
  have h : Kept s s := Kept.refl s
  repeat' (first
    | with_reducible assumption
    | (with_reducible apply effDump_kept))

theorem execDriveNop_kept (q : BitVec 1) (s : State) :
    ∃ t, execDriveNop q s = .next t ∧ Kept s t := by
  refine ⟨_, rfl, ?_⟩
  have h : Kept s s := Kept.refl s
  repeat' (first
    | with_reducible assumption
    | (with_reducible apply effNop_kept))

theorem execHandoffTimeout_kept  (s : State) :
    ∃ t, execHandoffTimeout s = .next t ∧ Kept s t := by
  refine ⟨_, rfl, ?_⟩
  have h : Kept s s := Kept.refl s
  repeat' (first
    | with_reducible assumption
    | (with_reducible apply effHandOffTimeout_kept))

theorem execFly_kept (i : Initiator) (v : Word) (s : State) :
    ∃ t, execFly i v s = .next t ∧ Kept s t := by
  refine ⟨_, rfl, ?_⟩
  have h : Kept s s := Kept.refl s
  repeat' (first
    | with_reducible assumption
    | (with_reducible apply State.regWrite_kept))

theorem execAutoFly_kept  (s : State) :
    ∃ t, execAutoFly s = .next t ∧ Kept s t := by
  refine ⟨_, rfl, ?_⟩
  have h : Kept s s := Kept.refl s
  repeat' (first
    | with_reducible assumption
    | (with_reducible apply effAutoFly_kept))

theorem execLogbookModeWrite_kept (i : Initiator) (ch : BitVec 3) (v : Word) (s : State) :
    ∃ t, execLogbookModeWrite i ch v s = .next t ∧ Kept s t := by
  refine ⟨_, rfl, ?_⟩
  have h : Kept s s := Kept.refl s
  repeat' (first
    | with_reducible assumption
    | (with_reducible apply State.regWrite_kept))

theorem execCvuFrameEnd_kept (ch : BitVec 5) (ctx : BitVec 7) (data : List Byte) (ending : BitVec 2) (s : State) (hw : (Instr.cvuFrameEnd ch ctx data ending).wellFormed = true) :
    ∃ t, execCvuFrameEnd ch ctx data ending s = .next t ∧ Kept s t := by
  have hn : ¬ending = 3 := by
    intro h
    subst h
    simp [Instr.wellFormed] at hw
  unfold execCvuFrameEnd
  rw [if_neg hn]
  refine ⟨_, rfl, ?_⟩
  have h : Kept s s := Kept.refl s
  repeat' (first
    | with_reducible assumption
    | (with_reducible apply effFrameEnd_kept))

theorem execCvuContextAdvance_kept (ch : BitVec 5) (s : State) :
    ∃ t, execCvuContextAdvance ch s = .next t ∧ Kept s t := by
  refine ⟨_, rfl, ?_⟩
  have h : Kept s s := Kept.refl s
  repeat' (first
    | with_reducible assumption
    | (with_reducible apply effCtxAdvance_kept))

theorem execCvuContextWrite_kept (i : Initiator) (word : BitVec 3) (v : Word) (s : State) :
    ∃ t, execCvuContextWrite i word v s = .next t ∧ Kept s t := by
  refine ⟨_, rfl, ?_⟩
  have h : Kept s s := Kept.refl s
  repeat' (first
    | with_reducible assumption
    | (with_reducible apply State.regWrite_kept))

theorem execCvuChannelCfgWrite_kept (i : Initiator) (ch : BitVec 5) (v : Word) (s : State) :
    ∃ t, execCvuChannelCfgWrite i ch v s = .next t ∧ Kept s t := by
  refine ⟨_, rfl, ?_⟩
  have h : Kept s s := Kept.refl s
  repeat' (first
    | with_reducible assumption
    | (with_reducible apply State.regWrite_kept))

theorem execNightLogReport_kept (src : BitVec 6) (code : BitVec 5) (inj : Bool) (itag : Itag) (ecnt : BitVec 4) (detail : DWord) (queue index : BitVec 16) (s : State) (hw : (Instr.nightLogReport src code inj itag ecnt detail queue index).wellFormed = true) :
    ∃ t, execNightLogReport src code inj itag ecnt detail queue index s = .next t ∧ Kept s t := by
  unfold execNightLogReport
  simp only [Instr.wellFormed, decide_eq_true_eq, Bool.and_eq_true] at hw
  rw [if_neg (by omega)]
  refine ⟨_, rfl, ?_⟩
  have h : Kept s s := Kept.refl s
  repeat' (first
    | with_reducible assumption
    | (with_reducible apply State.report_kept))

theorem execNightLogWrite_kept  (s : State) :
    ∃ t, execNightLogWrite s = .next t ∧ Kept s t := by
  refine ⟨_, rfl, ?_⟩
  have h : Kept s s := Kept.refl s
  repeat' (first
    | with_reducible assumption
    | (with_reducible apply effNlWrite_kept))

theorem execLastslotWrite_kept  (s : State) :
    ∃ t, execLastslotWrite s = .next t ∧ Kept s t := by
  refine ⟨_, rfl, ?_⟩
  have h : Kept s s := Kept.refl s
  repeat' (first
    | with_reducible assumption
    | (with_reducible apply effLastWrite_kept))

theorem execNlrdWrite_kept (i : Initiator) (v : Word) (s : State) :
    ∃ t, execNlrdWrite i v s = .next t ∧ Kept s t := by
  refine ⟨_, rfl, ?_⟩
  have h : Kept s s := Kept.refl s
  repeat' (first
    | with_reducible assumption
    | (with_reducible apply State.regWrite_kept))

theorem execTrgrantWrite_kept (i : Initiator) (hi : Bool) (v : Word) (s : State) :
    ∃ t, execTrgrantWrite i hi v s = .next t ∧ Kept s t := by
  refine ⟨_, rfl, ?_⟩
  have h : Kept s s := Kept.refl s
  repeat' (first
    | with_reducible assumption
    | (with_reducible apply State.regWrite_kept))

theorem execTestRightsExpiry_kept  (s : State) :
    ∃ t, execTestRightsExpiry s = .next t ∧ Kept s t := by
  refine ⟨_, rfl, ?_⟩
  have h : Kept s s := Kept.refl s
  repeat' (first
    | with_reducible assumption
    | (with_reducible apply effRightsExpiry_kept))

theorem execFwlCommit_kept (i : Initiator) (s : State) :
    ∃ t, execFwlCommit i s = .next t ∧ Kept s t := by
  refine ⟨_, rfl, ?_⟩
  have h : Kept s s := Kept.refl s
  repeat' (first
    | with_reducible assumption
    | (with_reducible apply State.regWrite_kept))

theorem execFwlRead_kept (i : Initiator) (s : State) :
    ∃ t, execFwlRead i s = .next t ∧ Kept s t := by
  refine ⟨_, rfl, ?_⟩
  have h : Kept s s := Kept.refl s
  repeat' (first
    | with_reducible assumption
    | (with_reducible apply State.regWrite_kept))

theorem execCheckerVerdict_kept  (s : State) :
    ∃ t, execCheckerVerdict s = .next t ∧ Kept s t := by
  refine ⟨_, rfl, ?_⟩
  have h : Kept s s := Kept.refl s
  repeat' (first
    | with_reducible assumption
    | (with_reducible apply effVerdict_kept))

theorem execSafeCause_kept  (s : State) :
    ∃ t, execSafeCause s = .next t ∧ Kept s t := by
  refine ⟨_, rfl, ?_⟩
  have h : Kept s s := Kept.refl s
  repeat' (first
    | with_reducible assumption
    | (with_reducible apply effSafeCause_kept))

theorem execNoplanTimeout_kept  (s : State) :
    ∃ t, execNoplanTimeout s = .next t ∧ Kept s t := by
  refine ⟨_, rfl, ?_⟩
  have h : Kept s s := Kept.refl s
  repeat' (first
    | with_reducible assumption
    | (with_reducible apply effNoPlan_kept))

theorem execHeartbeatWrite_kept (i : Initiator) (v : Word) (s : State) :
    ∃ t, execHeartbeatWrite i v s = .next t ∧ Kept s t := by
  refine ⟨_, rfl, ?_⟩
  have h : Kept s s := Kept.refl s
  repeat' (first
    | with_reducible assumption
    | (with_reducible apply State.regWrite_kept))

theorem execHeartbeatTimeout_kept  (s : State) :
    ∃ t, execHeartbeatTimeout s = .next t ∧ Kept s t := by
  refine ⟨_, rfl, ?_⟩
  have h : Kept s s := Kept.refl s
  repeat' (first
    | with_reducible assumption
    | (with_reducible apply effHeartbeat_kept))

theorem execRecovTimeout_kept  (s : State) :
    ∃ t, execRecovTimeout s = .next t ∧ Kept s t := by
  refine ⟨_, rfl, ?_⟩
  have h : Kept s s := Kept.refl s
  repeat' (first
    | with_reducible assumption
    | (with_reducible apply effRecovTimeout_kept))

theorem execSscmdDegrade_kept (i : Initiator) (s : State) :
    ∃ t, execSscmdDegrade i s = .next t ∧ Kept s t := by
  refine ⟨_, rfl, ?_⟩
  have h : Kept s s := Kept.refl s
  repeat' (first
    | with_reducible assumption
    | (with_reducible apply State.regWrite_kept))

theorem execSscmdRestart_kept (i : Initiator) (s : State) :
    ∃ t, execSscmdRestart i s = .next t ∧ Kept s t := by
  refine ⟨_, rfl, ?_⟩
  have h : Kept s s := Kept.refl s
  repeat' (first
    | with_reducible assumption
    | (with_reducible apply State.regWrite_kept))

theorem execSscmdHalt_kept (i : Initiator) (s : State) :
    ∃ t, execSscmdHalt i s = .next t ∧ Kept s t := by
  refine ⟨_, rfl, ?_⟩
  have h : Kept s s := Kept.refl s
  repeat' (first
    | with_reducible assumption
    | (with_reducible apply State.regWrite_kept))

theorem execSscmdReady_kept (i : Initiator) (s : State) :
    ∃ t, execSscmdReady i s = .next t ∧ Kept s t := by
  refine ⟨_, rfl, ?_⟩
  have h : Kept s s := Kept.refl s
  repeat' (first
    | with_reducible assumption
    | (with_reducible apply State.regWrite_kept))

theorem execSscmdClear_kept (i : Initiator) (s : State) :
    ∃ t, execSscmdClear i s = .next t ∧ Kept s t := by
  refine ⟨_, rfl, ?_⟩
  have h : Kept s s := Kept.refl s
  repeat' (first
    | with_reducible assumption
    | (with_reducible apply State.regWrite_kept))

theorem execRestartQuiesce_kept  (s : State) :
    ∃ t, execRestartQuiesce s = .next t ∧ Kept s t := by
  refine ⟨_, rfl, ?_⟩
  have h : Kept s s := Kept.refl s
  repeat' (first
    | with_reducible assumption
    | (with_reducible apply effQuiesce_kept))

theorem execRestartHold_kept  (s : State) :
    ∃ t, execRestartHold s = .next t ∧ Kept s t := by
  refine ⟨_, rfl, ?_⟩
  have h : Kept s s := Kept.refl s
  repeat' (first
    | with_reducible assumption
    | (with_reducible apply effHold_kept))

theorem execRestartRelease_kept  (s : State) :
    ∃ t, execRestartRelease s = .next t ∧ Kept s t := by
  refine ⟨_, rfl, ?_⟩
  have h : Kept s s := Kept.refl s
  repeat' (first
    | with_reducible assumption
    | (with_reducible apply effRelease_kept))

theorem execRestartImageCheck_kept  (s : State) :
    ∃ t, execRestartImageCheck s = .next t ∧ Kept s t := by
  refine ⟨_, rfl, ?_⟩
  have h : Kept s s := Kept.refl s
  repeat' (first
    | with_reducible assumption
    | (with_reducible apply effImageCheck_kept))

theorem execPairMismatch_kept (pair : BitVec 1) (s : State) :
    ∃ t, execPairMismatch pair s = .next t ∧ Kept s t := by
  refine ⟨_, rfl, ?_⟩
  have h : Kept s s := Kept.refl s
  repeat' (first
    | with_reducible assumption
    | (with_reducible apply State.pairMismatch_kept))

theorem execPairRestartDone_kept (pair : BitVec 1) (s : State) :
    ∃ t, execPairRestartDone pair s = .next t ∧ Kept s t := by
  refine ⟨_, rfl, ?_⟩
  have h : Kept s s := Kept.refl s
  repeat' (first
    | with_reducible assumption
    | (with_reducible apply effPairDone_kept))

theorem execNwAliveToggle_kept  (s : State) :
    ∃ t, execNwAliveToggle s = .next t ∧ Kept s t := by
  refine ⟨_, rfl, ?_⟩
  have h : Kept s s := Kept.refl s
  repeat' (first
    | with_reducible assumption
    | (with_reducible apply effAlive_kept))

theorem execProtIntervalStart_kept (k : BitVec 4) (s : State) :
    ∃ t, execProtIntervalStart k s = .next t ∧ Kept s t := by
  refine ⟨_, rfl, ?_⟩
  have h : Kept s s := Kept.refl s
  repeat' (first
    | with_reducible assumption
    | (with_reducible apply effProtStart_kept))

theorem execClkgateEntry_kept (pd : BitVec 5) (s : State) :
    ∃ t, execClkgateEntry pd s = .next t ∧ Kept s t := by
  refine ⟨_, rfl, ?_⟩
  have h : Kept s s := Kept.refl s
  repeat' (first
    | with_reducible assumption
    | (with_reducible apply effClkgate_kept))

theorem execRetentionEntry_kept (pd : BitVec 5) (s : State) :
    ∃ t, execRetentionEntry pd s = .next t ∧ Kept s t := by
  refine ⟨_, rfl, ?_⟩
  have h : Kept s s := Kept.refl s
  repeat' (first
    | with_reducible assumption
    | (with_reducible apply effRetention_kept))

theorem execOffEntry_kept (pd : BitVec 5) (s : State) :
    ∃ t, execOffEntry pd s = .next t ∧ Kept s t := by
  refine ⟨_, rfl, ?_⟩
  have h : Kept s s := Kept.refl s
  repeat' (first
    | with_reducible assumption
    | (with_reducible apply effOff_kept))

theorem execDomainWake_kept (pd : BitVec 5) (s : State) :
    ∃ t, execDomainWake pd s = .next t ∧ Kept s t := by
  refine ⟨_, rfl, ?_⟩
  have h : Kept s s := Kept.refl s
  repeat' (first
    | with_reducible assumption
    | (with_reducible apply effWake_kept))

theorem execDomainWakeDone_kept (pd : BitVec 5) (retErr : Bool) (s : State) :
    ∃ t, execDomainWakeDone pd retErr s = .next t ∧ Kept s t := by
  refine ⟨_, rfl, ?_⟩
  have h : Kept s s := Kept.refl s
  repeat' (first
    | with_reducible assumption
    | (with_reducible apply effWakeDone_kept))

theorem execPrewake_kept (pd : BitVec 5) (s : State) :
    ∃ t, execPrewake pd s = .next t ∧ Kept s t := by
  refine ⟨_, rfl, ?_⟩
  have h : Kept s s := Kept.refl s
  repeat' (first
    | with_reducible assumption
    | (with_reducible apply effPrewake_kept))

theorem execPdcmdWake_kept (i : Initiator) (pd : BitVec 5) (s : State) :
    ∃ t, execPdcmdWake i pd s = .next t ∧ Kept s t := by
  refine ⟨_, rfl, ?_⟩
  have h : Kept s s := Kept.refl s
  repeat' (first
    | with_reducible assumption
    | (with_reducible apply State.regWrite_kept))

theorem execSleep_kept (i : Initiator) (s : State) :
    ∃ t, execSleep i s = .next t ∧ Kept s t := by
  refine ⟨_, rfl, ?_⟩
  have h : Kept s s := Kept.refl s
  repeat' (first
    | with_reducible assumption
    | (with_reducible apply State.regWrite_kept))

theorem execWake_kept (i : Initiator) (s : State) :
    ∃ t, execWake i s = .next t ∧ Kept s t := by
  refine ⟨_, rfl, ?_⟩
  have h : Kept s s := Kept.refl s
  repeat' (first
    | with_reducible assumption
    | (with_reducible apply State.regWrite_kept))

theorem execPowerEstimate_kept (p : BitVec 16) (s : State) :
    ∃ t, execPowerEstimate p s = .next t ∧ Kept s t := by
  refine ⟨_, rfl, ?_⟩
  have h : Kept s s := Kept.refl s
  repeat' (first
    | with_reducible assumption
    | (with_reducible apply effEstimate_kept))

theorem execThermalSample_kept (temps : List (BitVec 8)) (s : State) :
    ∃ t, execThermalSample temps s = .next t ∧ Kept s t := by
  refine ⟨_, rfl, ?_⟩
  have h : Kept s s := Kept.refl s
  repeat' (first
    | with_reducible assumption
    | (with_reducible apply effThermal_kept))

theorem execSupplyDip_kept (mv : BitVec 16) (s : State) :
    ∃ t, execSupplyDip mv s = .next t ∧ Kept s t := by
  refine ⟨_, rfl, ?_⟩
  have h : Kept s s := Kept.refl s
  repeat' (first
    | with_reducible assumption
    | (with_reducible apply effDip_kept))

theorem execSupplyRecover_kept (mv : BitVec 16) (s : State) :
    ∃ t, execSupplyRecover mv s = .next t ∧ Kept s t := by
  refine ⟨_, rfl, ?_⟩
  have h : Kept s s := Kept.refl s
  repeat' (first
    | with_reducible assumption
    | (with_reducible apply effRecover_kept))

theorem execBrownout_kept (mv : BitVec 16) (s : State) :
    ∃ t, execBrownout mv s = .next t ∧ Kept s t := by
  refine ⟨_, rfl, ?_⟩
  have h : Kept s s := Kept.refl s
  repeat' (first
    | with_reducible assumption
    | (with_reducible apply effBrownout_kept))

theorem execMemlost_kept (mv : BitVec 16) (s : State) :
    ∃ t, execMemlost mv s = .next t ∧ Kept s t := by
  refine ⟨_, rfl, ?_⟩
  have h : Kept s s := Kept.refl s
  repeat' (first
    | with_reducible assumption
    | (with_reducible apply effMemLost_kept))

theorem execBrownoutRecover_kept (mv : BitVec 16) (s : State) :
    ∃ t, execBrownoutRecover mv s = .next t ∧ Kept s t := by
  refine ⟨_, rfl, ?_⟩
  have h : Kept s s := Kept.refl s
  repeat' (first
    | with_reducible assumption
    | (with_reducible apply effBrownRecover_kept))

theorem execAgeRead_kept (readings : List (Option (BitVec 16))) (s : State) :
    ∃ t, execAgeRead readings s = .next t ∧ Kept s t := by
  refine ⟨_, rfl, ?_⟩
  have h : Kept s s := Kept.refl s
  repeat' (first
    | with_reducible assumption
    | (with_reducible apply effAgeRead_kept))

theorem execBootRom_kept (pufDiff : Nat) (replayOk : Bool) (s : State) :
    ∃ t, execBootRom pufDiff replayOk s = .next t ∧ Kept s t := by
  refine ⟨_, rfl, ?_⟩
  have h : Kept s s := Kept.refl s
  repeat' (first
    | with_reducible assumption
    | (with_reducible apply effBootRom_kept))

theorem execBootFirmware_kept (failed : Bool) (s : State) :
    ∃ t, execBootFirmware failed s = .next t ∧ Kept s t := by
  refine ⟨_, rfl, ?_⟩
  have h : Kept s s := Kept.refl s
  repeat' (first
    | with_reducible assumption
    | (with_reducible apply effBootFirmware_kept))

theorem execBootRecords_kept (failed : Bool) (s : State) :
    ∃ t, execBootRecords failed s = .next t ∧ Kept s t := by
  refine ⟨_, rfl, ?_⟩
  have h : Kept s s := Kept.refl s
  repeat' (first
    | with_reducible assumption
    | (with_reducible apply effBootRecords_kept))

theorem execBootIsland_kept (failed : Bool) (s : State) :
    ∃ t, execBootIsland failed s = .next t ∧ Kept s t := by
  refine ⟨_, rfl, ?_⟩
  have h : Kept s s := Kept.refl s
  repeat' (first
    | with_reducible assumption
    | (with_reducible apply effBootIsland_kept))

theorem execBootMainPower_kept  (s : State) :
    ∃ t, execBootMainPower s = .next t ∧ Kept s t := by
  refine ⟨_, rfl, ?_⟩
  have h : Kept s s := Kept.refl s
  repeat' (first
    | with_reducible assumption
    | (with_reducible apply effBootMainPower_kept))

theorem execBootMemory_kept  (s : State) :
    ∃ t, execBootMemory s = .next t ∧ Kept s t := by
  refine ⟨_, rfl, ?_⟩
  have h : Kept s s := Kept.refl s
  repeat' (first
    | with_reducible assumption
    | (with_reducible apply effBootMemory_kept))

theorem execBootImage_kept (failed : Bool) (s : State) :
    ∃ t, execBootImage failed s = .next t ∧ Kept s t := by
  refine ⟨_, rfl, ?_⟩
  have h : Kept s s := Kept.refl s
  repeat' (first
    | with_reducible assumption
    | (with_reducible apply effBootImage_kept))

theorem execBootSelftest_kept (parts : List (BitVec 6 × BitVec 10 × BitVec 10)) (s : State) :
    ∃ t, execBootSelftest parts s = .next t ∧ Kept s t := by
  refine ⟨_, rfl, ?_⟩
  have h : Kept s s := Kept.refl s
  repeat' (first
    | with_reducible assumption
    | (with_reducible apply effBootSelftest_kept))

theorem execBootCluster_kept  (s : State) :
    ∃ t, execBootCluster s = .next t ∧ Kept s t := by
  refine ⟨_, rfl, ?_⟩
  have h : Kept s s := Kept.refl s
  repeat' (first
    | with_reducible assumption
    | (with_reducible apply effBootCluster_kept))

theorem execBootDone_kept (i : Initiator) (s : State) :
    ∃ t, execBootDone i s = .next t ∧ Kept s t := by
  refine ⟨_, rfl, ?_⟩
  have h : Kept s s := Kept.refl s
  repeat' (first
    | with_reducible assumption
    | (with_reducible apply State.regWrite_kept))

theorem execSvnCommit_kept (i : Initiator) (ctr : BitVec 4) (s : State) :
    ∃ t, execSvnCommit i ctr s = .next t ∧ Kept s t := by
  refine ⟨_, rfl, ?_⟩
  have h : Kept s s := Kept.refl s
  repeat' (first
    | with_reducible assumption
    | (with_reducible apply State.regWrite_kept))

theorem execQuote_kept (q : BitVec 6) (s : State) :
    ∃ t, execQuote q s = .next t ∧ Kept s t := by
  refine ⟨_, rfl, ?_⟩
  have h : Kept s s := Kept.refl s
  repeat' (first
    | with_reducible assumption
    | (with_reducible apply effQuote_kept))

theorem execExtend_kept (q : BitVec 6) (s : State) :
    ∃ t, execExtend q s = .next t ∧ Kept s t := by
  refine ⟨_, rfl, ?_⟩
  have h : Kept s s := Kept.refl s
  repeat' (first
    | with_reducible assumption
    | (with_reducible apply effExtend_kept))

theorem execSecNop_kept (q : BitVec 6) (s : State) :
    ∃ t, execSecNop q s = .next t ∧ Kept s t := by
  refine ⟨_, rfl, ?_⟩
  have h : Kept s s := Kept.refl s
  repeat' (first
    | with_reducible assumption
    | (with_reducible apply effSecNop_kept))

theorem execDebugAccept_kept (i : Initiator) (token : List Byte) (s : State) :
    ∃ t, execDebugAccept i token s = .next t ∧ Kept s t := by
  refine ⟨_, rfl, ?_⟩
  have h : Kept s s := Kept.refl s
  repeat' (first
    | with_reducible assumption
    | (with_reducible apply State.regWrite_kept)
    | (with_reducible apply State.setBoot_kept))

theorem execRecoveryFrame_kept (off : Word) (data : List Byte) (s : State) :
    ∃ t, execRecoveryFrame off data s = .next t ∧ Kept s t := by
  refine ⟨_, rfl, ?_⟩
  have h : Kept s s := Kept.refl s
  repeat' (first
    | with_reducible assumption
    | (with_reducible apply effRecoveryFrame_kept))

theorem execRecoveryDone_kept  (s : State) :
    ∃ t, execRecoveryDone s = .next t ∧ Kept s t := by
  refine ⟨_, rfl, ?_⟩
  have h : Kept s s := Kept.refl s
  repeat' (first
    | with_reducible assumption
    | (with_reducible apply effRecoveryDone_kept))

theorem execCsiFrameStart_kept (port : BitVec 2) (vc : BitVec 4) (fnum : BitVec 16) (h1 h2 : Bool) (s : State) :
    ∃ t, execCsiFrameStart port vc fnum h1 h2 s = .next t ∧ Kept s t := by
  refine ⟨_, rfl, ?_⟩
  have h : Kept s s := Kept.refl s
  repeat' (first
    | with_reducible assumption
    | (with_reducible apply effFrameStart_kept))

theorem execCsiLongPacket_kept (port : BitVec 2) (vc : BitVec 4) (dt : BitVec 6) (h1 h2 crcOk : Bool) (data : List Byte) (s : State) :
    ∃ t, execCsiLongPacket port vc dt h1 h2 crcOk data s = .next t ∧ Kept s t := by
  refine ⟨_, rfl, ?_⟩
  have h : Kept s s := Kept.refl s
  repeat' (first
    | with_reducible assumption
    | (with_reducible apply effLongPacket_kept))

theorem execCsiFrameEnd_kept (port : BitVec 2) (vc : BitVec 4) (h1 h2 : Bool) (s : State) :
    ∃ t, execCsiFrameEnd port vc h1 h2 s = .next t ∧ Kept s t := by
  refine ⟨_, rfl, ?_⟩
  have h : Kept s s := Kept.refl s
  repeat' (first
    | with_reducible assumption
    | (with_reducible apply effCamFrameEnd_kept))

theorem execEthRxFrame_kept (mac : BitVec 3) (data : List Byte) (fcsOk : Bool) (dur : Nat) (s : State) (hw : (Instr.ethRxFrame mac data fcsOk dur).wellFormed = true) :
    ∃ t, execEthRxFrame mac data fcsOk dur s = .next t ∧ Kept s t := by
  unfold execEthRxFrame
  simp only [Instr.wellFormed, decide_eq_true_eq, Bool.and_eq_true] at hw
  rw [if_neg (by omega)]
  refine ⟨_, rfl, ?_⟩
  have h : Kept s s := Kept.refl s
  repeat' (first
    | with_reducible assumption
    | (with_reducible apply effEthRx_kept))

theorem execEthTxFrame_kept (mac : BitVec 3) (offer : List (BitVec 3 × List Byte)) (s : State) (hw : (Instr.ethTxFrame mac offer).wellFormed = true) :
    ∃ t, execEthTxFrame mac offer s = .next t ∧ Kept s t := by
  unfold execEthTxFrame
  simp only [Instr.wellFormed, decide_eq_true_eq, Bool.and_eq_true] at hw
  rw [if_neg (by omega)]
  refine ⟨_, rfl, ?_⟩
  have h : Kept s s := Kept.refl s
  repeat' (first
    | with_reducible assumption
    | (with_reducible apply effEthTx_kept))

theorem execGclSwap_kept (i : Initiator) (mac : BitVec 3) (s : State) (hw : (Instr.gclSwap i mac).wellFormed = true) :
    ∃ t, execGclSwap i mac s = .next t ∧ Kept s t := by
  unfold execGclSwap
  simp only [Instr.wellFormed, decide_eq_true_eq, Bool.and_eq_true] at hw
  rw [if_neg (by omega)]
  refine ⟨_, rfl, ?_⟩
  have h : Kept s s := Kept.refl s
  repeat' (first
    | with_reducible assumption
    | (with_reducible apply State.regWrite_kept))

theorem execGclActivate_kept (mac : BitVec 3) (s : State) (hw : (Instr.gclActivate mac).wellFormed = true) :
    ∃ t, execGclActivate mac s = .next t ∧ Kept s t := by
  unfold execGclActivate
  simp only [Instr.wellFormed, decide_eq_true_eq, Bool.and_eq_true] at hw
  rw [if_neg (by omega)]
  refine ⟨_, rfl, ?_⟩
  have h : Kept s s := Kept.refl s
  repeat' (first
    | with_reducible assumption
    | (with_reducible apply effGclActivate_kept))

theorem execPtpSync_kept (mac : BitVec 3) (t1 : DWord) (s : State) (hw : (Instr.ptpSync mac t1).wellFormed = true) :
    ∃ t, execPtpSync mac t1 s = .next t ∧ Kept s t := by
  unfold execPtpSync
  simp only [Instr.wellFormed, decide_eq_true_eq, Bool.and_eq_true] at hw
  rw [if_neg (by omega)]
  refine ⟨_, rfl, ?_⟩
  have h : Kept s s := Kept.refl s
  repeat' (first
    | with_reducible assumption
    | (with_reducible apply effPtpSync_kept))

theorem execPtpPdelay_kept (mac : BitVec 3) (ok : Bool) (t1 t2 t3 t4 : DWord) (s : State) (hw : (Instr.ptpPdelay mac ok t1 t2 t3 t4).wellFormed = true) :
    ∃ t, execPtpPdelay mac ok t1 t2 t3 t4 s = .next t ∧ Kept s t := by
  unfold execPtpPdelay
  simp only [Instr.wellFormed, decide_eq_true_eq, Bool.and_eq_true] at hw
  rw [if_neg (by omega)]
  refine ⟨_, rfl, ?_⟩
  have h : Kept s s := Kept.refl s
  repeat' (first
    | with_reducible assumption
    | (with_reducible apply effPdelay_kept))

theorem execPtpSyncTimeout_kept  (s : State) :
    ∃ t, execPtpSyncTimeout s = .next t ∧ Kept s t := by
  refine ⟨_, rfl, ?_⟩
  have h : Kept s s := Kept.refl s
  repeat' (first
    | with_reducible assumption
    | (with_reducible apply effSyncTimeout_kept))

theorem execCanTxreq_kept (i : Initiator) (v : Word) (s : State) :
    ∃ t, execCanTxreq i v s = .next t ∧ Kept s t := by
  refine ⟨_, rfl, ?_⟩
  have h : Kept s s := Kept.refl s
  repeat' (first
    | with_reducible assumption
    | (with_reducible apply State.regWrite_kept))

theorem execCanTxFrame_kept (ch : BitVec 4) (s : State) (hw : (Instr.canTxFrame ch).wellFormed = true) :
    ∃ t, execCanTxFrame ch s = .next t ∧ Kept s t := by
  unfold execCanTxFrame
  simp only [Instr.wellFormed, decide_eq_true_eq, Bool.and_eq_true] at hw
  rw [if_neg (by omega)]
  refine ⟨_, rfl, ?_⟩
  have h : Kept s s := Kept.refl s
  repeat' (first
    | with_reducible assumption
    | (with_reducible apply effCanTx_kept))

theorem execCanTxEnd_kept (ch : BitVec 4) (result : BitVec 2) (s : State) (hw : (Instr.canTxEnd ch result).wellFormed = true) :
    ∃ t, execCanTxEnd ch result s = .next t ∧ Kept s t := by
  unfold execCanTxEnd
  simp only [Instr.wellFormed, decide_eq_true_eq, Bool.and_eq_true] at hw
  rw [if_neg (by omega)]
  refine ⟨_, rfl, ?_⟩
  have h : Kept s s := Kept.refl s
  repeat' (first
    | with_reducible assumption
    | (with_reducible apply SpareSet.result_kept)
    | (with_reducible apply effCanTxEnd_kept))

theorem execCanRxFrame_kept (ch : BitVec 4) (ext : Bool) (id : BitVec 29) (data : List Byte) (good : Bool) (s : State) (hw : (Instr.canRxFrame ch ext id data good).wellFormed = true) :
    ∃ t, execCanRxFrame ch ext id data good s = .next t ∧ Kept s t := by
  unfold execCanRxFrame
  simp only [Instr.wellFormed, decide_eq_true_eq, Bool.and_eq_true] at hw
  rw [if_neg (by unfold boxBytes; omega)]
  refine ⟨_, rfl, ?_⟩
  have h : Kept s s := Kept.refl s
  repeat' (first
    | with_reducible assumption
    | (with_reducible apply effCanRx_kept))

theorem execCanBusoffRecover_kept (ch : BitVec 4) (s : State) (hw : (Instr.canBusoffRecover ch).wellFormed = true) :
    ∃ t, execCanBusoffRecover ch s = .next t ∧ Kept s t := by
  unfold execCanBusoffRecover
  simp only [Instr.wellFormed, decide_eq_true_eq, Bool.and_eq_true] at hw
  rw [if_neg (by omega)]
  refine ⟨_, rfl, ?_⟩
  have h : Kept s s := Kept.refl s
  repeat' (first
    | with_reducible assumption
    | (with_reducible apply effCanRecover_kept))

theorem execCanLockstepMismatch_kept (ch : BitVec 2) (s : State) :
    ∃ t, execCanLockstepMismatch ch s = .next t ∧ Kept s t := by
  refine ⟨_, rfl, ?_⟩
  have h : Kept s s := Kept.refl s
  repeat' (first
    | with_reducible assumption
    | (with_reducible apply effCanLockstep_kept))

theorem execCanBitTimingWrite_kept (i : Initiator) (ch : BitVec 4) (isData : Bool) (v : Word) (s : State) (hw : (Instr.canBitTimingWrite i ch isData v).wellFormed = true) :
    ∃ t, execCanBitTimingWrite i ch isData v s = .next t ∧ Kept s t := by
  unfold execCanBitTimingWrite
  simp only [Instr.wellFormed, decide_eq_true_eq, Bool.and_eq_true] at hw
  rw [if_neg (by omega)]
  refine ⟨_, rfl, ?_⟩
  have h : Kept s s := Kept.refl s
  repeat' (first
    | with_reducible assumption
    | (with_reducible apply State.regWrite_kept))

theorem execSpiDataReady_kept (cs : BitVec 3) (s : State) :
    ∃ t, execSpiDataReady cs s = .next t ∧ Kept s t := by
  refine ⟨_, rfl, ?_⟩
  have h : Kept s s := Kept.refl s
  repeat' (first
    | with_reducible assumption
    | (with_reducible apply effSpiReady_kept))

theorem execLinkUp_kept (port : BitVec 2) (gen4 : Bool) (width : BitVec 2) (speed : BitVec 3) (s : State) (hw : (Instr.linkUp port gen4 width speed).wellFormed = true) :
    ∃ t, execLinkUp port gen4 width speed s = .next t ∧ Kept s t := by
  unfold execLinkUp
  simp only [Instr.wellFormed, decide_eq_true_eq, Bool.and_eq_true] at hw
  rw [if_neg (by omega)]
  refine ⟨_, rfl, ?_⟩
  have h : Kept s s := Kept.refl s
  repeat' (first
    | with_reducible assumption
    | (with_reducible apply effLinkUp_kept))

theorem execLinkDown_kept (port : BitVec 2) (s : State) (hw : (Instr.linkDown port).wellFormed = true) :
    ∃ t, execLinkDown port s = .next t ∧ Kept s t := by
  unfold execLinkDown
  simp only [Instr.wellFormed, decide_eq_true_eq, Bool.and_eq_true] at hw
  rw [if_neg (by omega)]
  refine ⟨_, rfl, ?_⟩
  have h : Kept s s := Kept.refl s
  repeat' (first
    | with_reducible assumption
    | (with_reducible apply effLinkDown_kept))

theorem execPcieCfgAccess_kept (i : Initiator) (write : Bool) (v : Word) (s : State) :
    ∃ t, execPcieCfgAccess i write v s = .next t ∧ Kept s t := by
  refine ⟨_, rfl, ?_⟩
  have h : Kept s s := Kept.refl s
  repeat' (first
    | with_reducible assumption
    | (with_reducible apply State.aerInject_kept)
    | (with_reducible apply State.readVia_kept)
    | (with_reducible apply State.regWrite_kept)
    | (with_reducible apply effPcieCfg_kept)
    | (with_reducible apply Kept.ite)
    | (intro _))

theorem execAllreduce_kept (q : BitVec 6) (s : State) :
    ∃ t, execAllreduce q s = .next t ∧ Kept s t := by
  refine ⟨_, rfl, ?_⟩
  have h : Kept s s := Kept.refl s
  repeat' (first
    | with_reducible assumption
    | (with_reducible apply effLnkOp_kept))

theorem execBcast_kept (q : BitVec 6) (s : State) :
    ∃ t, execBcast q s = .next t ∧ Kept s t := by
  refine ⟨_, rfl, ?_⟩
  have h : Kept s s := Kept.refl s
  repeat' (first
    | with_reducible assumption
    | (with_reducible apply effLnkOp_kept))

theorem execBarrier_kept (q : BitVec 6) (s : State) :
    ∃ t, execBarrier q s = .next t ∧ Kept s t := by
  refine ⟨_, rfl, ?_⟩
  have h : Kept s s := Kept.refl s
  repeat' (first
    | with_reducible assumption
    | (with_reducible apply effLnkOp_kept))

theorem execPut_kept (q : BitVec 6) (s : State) :
    ∃ t, execPut q s = .next t ∧ Kept s t := by
  refine ⟨_, rfl, ?_⟩
  have h : Kept s s := Kept.refl s
  repeat' (first
    | with_reducible assumption
    | (with_reducible apply effLnkOp_kept))

theorem execLnkNop_kept (q : BitVec 6) (s : State) :
    ∃ t, execLnkNop q s = .next t ∧ Kept s t := by
  refine ⟨_, rfl, ?_⟩
  have h : Kept s s := Kept.refl s
  repeat' (first
    | with_reducible assumption
    | (with_reducible apply effNop_kept))

theorem execPeerPut_kept (link : BitVec 1) (off : DWord) (data : List Byte) (s : State) :
    ∃ t, execPeerPut link off data s = .next t ∧ Kept s t := by
  refine ⟨_, rfl, ?_⟩
  have h : Kept s s := Kept.refl s
  repeat' (first
    | with_reducible assumption
    | (with_reducible apply effPeerPut_kept))

theorem execCollectiveTimeout_kept (q : BitVec 6) (s : State) :
    ∃ t, execCollectiveTimeout q s = .next t ∧ Kept s t := by
  refine ⟨_, rfl, ?_⟩
  have h : Kept s s := Kept.refl s
  repeat' (first
    | with_reducible assumption
    | (with_reducible apply effCollTimeout_kept))

theorem execAbortMarker_kept (gid : BitVec 16) (s : State) :
    ∃ t, execAbortMarker gid s = .next t ∧ Kept s t := by
  refine ⟨_, rfl, ?_⟩
  have h : Kept s s := Kept.refl s
  repeat' (first
    | with_reducible assumption
    | (with_reducible apply effAbortMarker_kept))

theorem execFlitUncorrectable_kept (link : BitVec 1) (gid : BitVec 16) (s : State) :
    ∃ t, execFlitUncorrectable link gid s = .next t ∧ Kept s t := by
  refine ⟨_, rfl, ?_⟩
  have h : Kept s s := Kept.refl s
  repeat' (first
    | with_reducible assumption
    | (with_reducible apply effFlitUncorrectable_kept))

theorem execLaneCeThreshold_kept (link : BitVec 1) (lane : BitVec 3) (count : BitVec 16) (s : State) :
    ∃ t, execLaneCeThreshold link lane count s = .next t ∧ Kept s t := by
  refine ⟨_, rfl, ?_⟩
  have h : Kept s s := Kept.refl s
  repeat' (first
    | with_reducible assumption
    | (with_reducible apply State.count_kept)
    | (with_reducible apply effLaneCe_kept))

theorem execCreditReturn_kept (link : BitVec 1) (q : BitVec 10) (s : State) :
    ∃ t, execCreditReturn link q s = .next t ∧ Kept s t := by
  refine ⟨_, rfl, ?_⟩
  have h : Kept s s := Kept.refl s
  repeat' (first
    | with_reducible assumption
    | (with_reducible apply effCreditReturn_kept))

theorem execGroupWrite_kept (i : Initiator) (group : BitVec 4) (word : BitVec 2) (v : Word) (s : State) :
    ∃ t, execGroupWrite i group word v s = .next t ∧ Kept s t := by
  refine ⟨_, rfl, ?_⟩
  have h : Kept s s := Kept.refl s
  repeat' (first
    | with_reducible assumption
    | (with_reducible apply State.regWrite_kept))

theorem execMemoryAccess_kept (i : Initiator) (addr : BitVec 44) (req : MemReq) (s : State) :
    ∃ t, execMemoryAccess i addr req s = .next t ∧ Kept s t := by
  refine ⟨_, rfl, ?_⟩
  have h : Kept s s := Kept.refl s
  repeat' (first
    | with_reducible assumption
    | (with_reducible apply State.anyAccess_kept))

theorem execRegisterRead_kept (i : Initiator) (addr : BitVec 44) (bytes : Nat) (s : State) :
    ∃ t, execRegisterRead i addr bytes s = .next t ∧ Kept s t := by
  refine ⟨_, rfl, ?_⟩
  have h : Kept s s := Kept.refl s
  repeat' (first
    | with_reducible assumption
    | (with_reducible apply State.anyAccess_kept))

theorem execFrameWindowExpiry_kept (sensor : BitVec 5) (s : State) :
    ∃ t, execFrameWindowExpiry sensor s = .next t ∧ Kept s t := by
  refine ⟨_, rfl, ?_⟩
  have h : Kept s s := Kept.refl s
  repeat' (first
    | with_reducible assumption
    | (with_reducible apply effFrameExpiry_kept))

theorem execEgoUpdateAgeTimeout_kept  (s : State) :
    ∃ t, execEgoUpdateAgeTimeout s = .next t ∧ Kept s t := by
  refine ⟨_, rfl, ?_⟩
  have h : Kept s s := Kept.refl s
  repeat' (first
    | with_reducible assumption
    | (with_reducible apply State.egoRefresh_kept)
    | (with_reducible apply Kept.ite)
    | (intro _))

theorem execPatrolScrub_kept (mem : BitVec 3) (corrected : BitVec 16) (bad : Option (BitVec 44)) (s : State) (hw : (Instr.patrolScrub mem corrected bad).wellFormed = true) :
    ∃ t, execPatrolScrub mem corrected bad s = .next t ∧ Kept s t := by
  unfold execPatrolScrub
  rw [if_pos (scrubbed_inRange hw)]
  refine ⟨_, rfl, ?_⟩
  have h : Kept s s := Kept.refl s
  repeat' (first
    | with_reducible assumption
    | (with_reducible apply effPatrol_kept))

theorem execPmicFault_kept  (s : State) :
    ∃ t, execPmicFault s = .next t ∧ Kept s t := by
  refine ⟨_, rfl, ?_⟩
  have h : Kept s s := Kept.refl s
  repeat' (first
    | with_reducible assumption
    | (with_reducible apply State.count_kept)
    | (with_reducible apply State.raise_kept))

theorem execHbmThermalAlert_kept (stack : BitVec 3) (s : State) (hw : (Instr.hbmThermalAlert stack).wellFormed = true) :
    ∃ t, execHbmThermalAlert stack s = .next t ∧ Kept s t := by
  unfold execHbmThermalAlert
  simp only [Instr.wellFormed, decide_eq_true_eq, Bool.and_eq_true] at hw
  rw [if_neg (by omega)]
  refine ⟨_, rfl, ?_⟩
  have h : Kept s s := Kept.refl s
  repeat' (first
    | with_reducible assumption
    | (with_reducible apply State.count_kept))

theorem execEthPhyLinkLoss_kept (mac : BitVec 3) (s : State) (hw : (Instr.ethPhyLinkLoss mac).wellFormed = true) :
    ∃ t, execEthPhyLinkLoss mac s = .next t ∧ Kept s t := by
  unfold execEthPhyLinkLoss
  simp only [Instr.wellFormed, decide_eq_true_eq, Bool.and_eq_true] at hw
  rw [if_neg (by omega)]
  refine ⟨_, rfl, ?_⟩
  have h : Kept s s := Kept.refl s
  repeat' (first
    | with_reducible assumption
    | (with_reducible apply State.count_kept)
    | (with_reducible apply Kept.ite)
    | (intro _))

theorem execCphyLinkLoss_kept  (s : State) :
    ∃ t, execCphyLinkLoss s = .next t ∧ Kept s t := by
  refine ⟨_, rfl, ?_⟩
  have h : Kept s s := Kept.refl s
  repeat' (first
    | with_reducible assumption
    | (with_reducible apply effCphyLoss_kept))

theorem execPtpSyncSend_kept (mac : BitVec 3) (s : State) (hw : (Instr.ptpSyncSend mac).wellFormed = true) :
    ∃ t, execPtpSyncSend mac s = .next t ∧ Kept s t := by
  unfold execPtpSyncSend
  simp only [Instr.wellFormed, decide_eq_true_eq, Bool.and_eq_true] at hw
  rw [if_neg (by omega)]
  refine ⟨_, rfl, ?_⟩
  have h : Kept s s := Kept.refl s
  repeat' (first
    | with_reducible assumption
    | (with_reducible apply effSyncSend_kept))

theorem execFwlCommandDone_kept  (s : State) :
    ∃ t, execFwlCommandDone s = .next t ∧ Kept s t := by
  refine ⟨_, rfl, ?_⟩
  have h : Kept s s := Kept.refl s
  repeat' (first
    | with_reducible assumption
    | (with_reducible apply effFwlDone_kept))

theorem execPairHeartbeatCheck_kept  (s : State) :
    ∃ t, execPairHeartbeatCheck s = .next t ∧ Kept s t := by
  refine ⟨_, rfl, ?_⟩
  have h : Kept s s := Kept.refl s
  repeat' (first
    | with_reducible assumption)

theorem execLnkLinkUp_kept (link : BitVec 1) (eight : Bool) (s : State) :
    ∃ t, execLnkLinkUp link eight s = .next t ∧ Kept s t := by
  refine ⟨_, rfl, ?_⟩
  have h : Kept s s := Kept.refl s
  repeat' (first
    | with_reducible assumption
    | (with_reducible apply effLnkLinkUp_kept))

theorem execLnkLinkDown_kept (link : BitVec 1) (s : State) :
    ∃ t, execLnkLinkDown link s = .next t ∧ Kept s t := by
  refine ⟨_, rfl, ?_⟩
  have h : Kept s s := Kept.refl s
  repeat' (first
    | with_reducible assumption
    | (with_reducible apply effLnkLinkDown_kept))

theorem execCollectiveFlitReceive_kept (link : BitVec 1) (gid : BitVec 16) (level : BitVec 5) (rank : BitVec 18) (off : Nat) (data : List Byte) (s : State) :
    ∃ t, execCollectiveFlitReceive link gid level rank off data s = .next t ∧ Kept s t := by
  refine ⟨_, rfl, ?_⟩
  have h : Kept s s := Kept.refl s
  repeat' (first
    | with_reducible assumption
    | (with_reducible apply effCollFlit_kept))

end Sys2Proof.Machine
end

