-- ==== Sys2Proof/Laws/Exec.lean ====
section
/-! SUPPORT. What a command does to the queue, the timebase count and the tables, over all commands: the one lemma that
statements about every step cite. -/

set_option Elab.async false

namespace Sys2Proof.Machine

theorem State.reset_canonical : State.reset.Canonical :=
  ⟨rfl, rfl, rfl, rfl, rfl, rfl, rfl, rfl, rfl, rfl, rfl, rfl, rfl, rfl⟩

/-- Time passes: the queue and the tables are kept, and the count advances. -/
theorem effPhaseAdvance_kept (ns : Nat) (s : State) :
    (effPhaseAdvance ns s).pending = s.pending ∧ (effPhaseAdvance ns s).now = s.now + ns ∧
      (s.Canonical → (effPhaseAdvance ns s).Canonical) := by
  have h1 := State.logPhase_kept s (Kept.refl s)
  have h2 := State.slewFree_kept (s.advance ns) (Kept.refl _)
  refine ⟨h2.1.trans h1.1, h2.2.1.trans (congrArg (· + ns) h1.2.1), fun hc => h2.2.2 (h1.2.2 hc)⟩

/-- The standby input fails: the queue is kept, the timebase starts again, and the tables are canonical. -/
theorem effStandbyLoss_kept (s : State) :
    (effStandbyLoss s).pending = s.pending ∧ (effStandbyLoss s).now = 0 ∧ (s.Canonical → (effStandbyLoss s).Canonical) := by
  refine ⟨rfl, rfl, fun hc => ?_⟩
  obtain ⟨h0, h1, h2, h3, h4, h5, h6, h7, h8, h9, h10, h11, h12, h13⟩ := State.reset_canonical
  have hm := Sparse.wf_restrict memReset (fun k => decide (flashKey 0 ≤ k) && decide (k < flashKey 0x10000000)) hc.2.1
  exact ⟨h0, hm, h2, h3, h4, h5, h6, h7, h8, h9, h10, h11, h12, h13⟩

/-- Every well-formed command but the passing of time and the loss of the standby input keeps the queue, the timebase count
and the canonical form of every table. -/
theorem exec_kept (c : Instr) (s : State) (hw : c.wellFormed = true) (hp : ∀ ns, c ≠ .phaseAdvance ns)
    (hl : c ≠ .standbyLoss) : ∃ t, exec c s = .next t ∧ Kept s t := by
  cases c with
  | registerWrite _ _ _ _ => exact execRegisterWrite_kept _ _ _ _ _
  | phaseAdvance ns => exact absurd rfl (hp ns)
  | meridPeriodWrite _ _ => exact execMeridPeriodWrite_kept _ _ _
  | lockcfgWrite _ _ => exact execLockcfgWrite_kept _ _ _
  | referenceEvent _ => exact execReferenceEvent_kept _ _
  | referenceTimeout => exact execReferenceTimeout_kept _
  | holdoverExpiry => exact execHoldoverExpiry_kept _
  | slotWordWrite _ _ _ _ => exact execSlotWordWrite_kept _ _ _ _ _
  | slotArm _ _ _ => exact execSlotArm_kept _ _ _ _
  | slotDisarm _ _ _ => exact execSlotDisarm_kept _ _ _ _
  | occurrenceDispatch _ => exact execOccurrenceDispatch_kept _ _
  | triggerAction _ => exact execTriggerAction_kept _ _
  | pulseEnd _ => exact execPulseEnd_kept _ _
  | vernierBroadcast _ _ => exact execVernierBroadcast_kept _ _ _
  | trgCfgWrite _ _ _ => exact execTrgCfgWrite_kept _ _ _ _
  | encoderTransition _ _ _ => exact execEncoderTransition_kept _ _ _ _
  | encoderIndex _ => exact execEncoderIndex_kept _ _
  | ssiSample _ _ _ => exact execSsiSample_kept _ _ _ _
  | einjWrite _ _ _ => exact execEinjWrite_kept _ _ _ _
  | quiesceSet _ _ _ => exact execQuiesceSet_kept _ _ _ _
  | quiesceClear _ _ _ => exact execQuiesceClear_kept _ _ _ _
  | unfreezeArm _ _ _ => exact execUnfreezeArm_kept _ _ _ _
  | unfreezeRelease _ _ _ => exact execUnfreezeRelease_kept _ _ _ _
  | unfreezeTimeout _ => exact execUnfreezeTimeout_kept _ _
  | unfreezeEffect _ => exact execUnfreezeEffect_kept _ _
  | doorbellWrite _ _ _ _ => exact execDoorbellWrite_kept _ _ _ _ _
  | doorbellAction _ => exact execDoorbellAction_kept _ _
  | queueEnable _ _ _ => exact execQueueEnable_kept _ _ _ _
  | queueDisable _ _ _ => exact execQueueDisable_kept _ _ _ _
  | queueResume _ _ _ _ => exact execQueueResume_kept _ _ _ _ _
  | qcmdComplete _ => exact execQcmdComplete_kept _ _
  | operationComplete _ _ _ => exact execOperationComplete_kept _ _ _ _
  | depotModeWrite _ _ => exact execDepotModeWrite_kept _ _ _
  | domeLoad _ _ => exact execDomeLoad_kept _ _ _
  | domeRun _ _ => exact execDomeRun_kept _ _ _
  | domeNop _ _ => exact execDomeNop_kept _ _ _
  | entryIssue _ _ _ => exact execEntryIssue_kept _ _ _ _
  | gatherSlotFree _ => exact execGatherSlotFree_kept _ _
  | runWcetExpiry _ => exact execRunWcetExpiry_kept _ _
  | stageFault _ _ _ => exact execStageFault_kept _ _ _ _
  | spareTakeover _ _ => exact execSpareTakeover_kept _ _ _
  | testSliceEnd _ _ _ _ => exact execTestSliceEnd_kept _ _ _ _ _
  | windowOpen _ => exact execWindowOpen_kept _ _
  | windowClose _ => exact execWindowClose_kept _ _
  | subcmdTest _ _ _ => exact execSubcmdTest_kept _ _ _ _ hw
  | subcmdRetire _ _ _ => exact execSubcmdRetire_kept _ _ _ _ hw
  | quotaWrite _ _ _ => exact execQuotaWrite_kept _ _ _ _
  | transitMove _ => exact execTransitMove_kept _ _
  | transitNop _ => exact execTransitNop_kept _ _
  | alloc _ => exact execAlloc_kept _ _
  | free _ => exact execFree_kept _ _
  | allocResume => exact execAllocResume_kept _
  | poolReleaseResume => exact execPoolReleaseResume_kept _
  | readaroundTimeout _ => exact execReadaroundTimeout_kept _ _ hw
  | reread _ => exact execReread_kept _ _
  | pcCeThreshold _ _ => exact execPcCeThreshold_kept _ _ _ hw
  | pcSuspectExpiry _ => exact execPcSuspectExpiry_kept _ _ hw
  | pcRetireCmd _ _ _ => exact execPcRetireCmd_kept _ _ _ _ hw
  | finderInvalidate _ _ _ => exact execFinderInvalidate_kept _ _ _ _
  | finderInvalidateDone _ => exact execFinderInvalidateDone_kept _ _
  | kvFlush _ _ => exact execKvFlush_kept _ _ _
  | qaReqWrite _ _ => exact execQaReqWrite_kept _ _ _
  | coelServe => exact execCoelServe_kept _
  | coelResume => exact execCoelResume_kept _
  | swapoutComplete => exact execSwapoutComplete_kept _
  | swapinComplete => exact execSwapinComplete_kept _
  | coelEvict _ _ => exact execCoelEvict_kept _ _ _
  | coelEvictHold _ _ => exact execCoelEvictHold_kept _ _ _
  | coelRestore _ _ => exact execCoelRestore_kept _ _ _
  | coelRetry _ _ => exact execCoelRetry_kept _ _ _
  | coelDiscard _ _ => exact execCoelDiscard_kept _ _ _
  | admitJob => exact execAdmitJob_kept _
  | retire => exact execRetire_kept _
  | schedNop _ => exact execSchedNop_kept _ _
  | join => exact execJoin_kept _
  | leave => exact execLeave_kept _
  | step _ => exact execStep_kept _ _
  | stepOpen => exact execStepOpen_kept _
  | stepRelease => exact execStepRelease_kept _
  | stepClose _ => exact execStepClose_kept _ _
  | stepWcetExpiry _ => exact execStepWcetExpiry_kept _ _
  | preemptRequest _ => exact execPreemptRequest_kept _ _
  | preemptPoint _ => exact execPreemptPoint_kept _ _
  | saveComplete _ _ _ => exact execSaveComplete_kept _ _ _ _
  | restoreStart _ => exact execRestoreStart_kept _ _
  | restoreComplete _ _ => exact execRestoreComplete_kept _ _ _
  | semAcquire _ _ _ => exact execSemAcquire_kept _ _ _ _
  | semRelease _ _ _ => exact execSemRelease_kept _ _ _ _
  | semOverrun _ => exact execSemOverrun_kept _ _
  | solvLoad _ => exact execSolvLoad_kept _ _
  | solvFree _ => exact execSolvFree_kept _ _
  | solvNop _ => exact execSolvNop_kept _ _
  | solve _ => exact execSolve_kept _ _
  | solveRefReady _ => exact execSolveRefReady_kept _ _
  | solveDeadline => exact execSolveDeadline_kept _
  | solveWcetExpiry => exact execSolveWcetExpiry_kept _
  | laneFault _ => exact execLaneFault_kept _ _
  | occInstall _ => exact execOccInstall_kept _ _
  | occBody _ => exact execOccBody_kept _ _
  | occNop _ => exact execOccNop_kept _ _
  | check _ => exact execCheck_kept _ _
  | checkDeadline => exact execCheckDeadline_kept _
  | select _ => exact execSelect_kept _ _
  | seed _ => exact execSeed_kept _ _
  | occWcetExpiry => exact execOccWcetExpiry_kept _
  | handoffReport => exact execHandoffReport_kept _
  | sensorSample _ _ => exact execSensorSample_kept _ _ _
  | sensorRefEvent _ _ => exact execSensorRefEvent_kept _ _ _
  | sensorSilentTimeout _ => exact execSensorSilentTimeout_kept _ _
  | afuIssue _ => exact execAfuIssue_kept _ _
  | afuContrib _ => exact execAfuContrib_kept _ _
  | afuNop _ => exact execAfuNop_kept _ _
  | fusionDeadline => exact execFusionDeadline_kept _
  | egoPoseTick => exact execEgoPoseTick_kept _
  | egoUpdate _ _ _ => exact execEgoUpdate_kept _ _ _ _
  | egoLostTimeout => exact execEgoLostTimeout_kept _
  | l1Frame _ => exact execL1Frame_kept _ _
  | lidarInstantMove _ => exact execLidarInstantMove_kept _ _
  | sampleAction => exact execSampleAction_kept _
  | sampleExecute _ => exact execSampleExecute_kept _ _
  | driveCoreMismatch _ => exact execDriveCoreMismatch_kept _ _
  | loopEnable _ _ => exact execLoopEnable_kept _ _ _
  | loopDisable _ _ => exact execLoopDisable_kept _ _ _
  | loopSwap _ _ => exact execLoopSwap_kept _ _ _
  | loopReset _ _ => exact execLoopReset_kept _ _ _
  | handoffRecord => exact execHandoffRecord_kept _
  | handoffVerdict _ => exact execHandoffVerdict_kept _ _
  | switch => exact execSwitch_kept _
  | dump => exact execDump_kept _
  | driveNop _ => exact execDriveNop_kept _ _
  | handoffTimeout => exact execHandoffTimeout_kept _
  | fly _ _ => exact execFly_kept _ _ _
  | autoFly => exact execAutoFly_kept _
  | logbookModeWrite _ _ _ => exact execLogbookModeWrite_kept _ _ _ _
  | cvuFrameEnd _ _ _ _ => exact execCvuFrameEnd_kept _ _ _ _ _ hw
  | cvuContextAdvance _ => exact execCvuContextAdvance_kept _ _
  | cvuContextWrite _ _ _ => exact execCvuContextWrite_kept _ _ _ _
  | cvuChannelCfgWrite _ _ _ => exact execCvuChannelCfgWrite_kept _ _ _ _
  | nightLogReport _ _ _ _ _ _ _ _ => exact execNightLogReport_kept _ _ _ _ _ _ _ _ _ hw
  | nightLogWrite => exact execNightLogWrite_kept _
  | lastslotWrite => exact execLastslotWrite_kept _
  | nlrdWrite _ _ => exact execNlrdWrite_kept _ _ _
  | trgrantWrite _ _ _ => exact execTrgrantWrite_kept _ _ _ _
  | testRightsExpiry => exact execTestRightsExpiry_kept _
  | fwlCommit _ => exact execFwlCommit_kept _ _
  | fwlRead _ => exact execFwlRead_kept _ _
  | checkerVerdict => exact execCheckerVerdict_kept _
  | safeCause => exact execSafeCause_kept _
  | noplanTimeout => exact execNoplanTimeout_kept _
  | heartbeatWrite _ _ => exact execHeartbeatWrite_kept _ _ _
  | heartbeatTimeout => exact execHeartbeatTimeout_kept _
  | recovTimeout => exact execRecovTimeout_kept _
  | sscmdDegrade _ => exact execSscmdDegrade_kept _ _
  | sscmdRestart _ => exact execSscmdRestart_kept _ _
  | sscmdHalt _ => exact execSscmdHalt_kept _ _
  | sscmdReady _ => exact execSscmdReady_kept _ _
  | sscmdClear _ => exact execSscmdClear_kept _ _
  | restartQuiesce => exact execRestartQuiesce_kept _
  | restartHold => exact execRestartHold_kept _
  | restartRelease => exact execRestartRelease_kept _
  | restartImageCheck => exact execRestartImageCheck_kept _
  | pairMismatch _ => exact execPairMismatch_kept _ _
  | pairRestartDone _ => exact execPairRestartDone_kept _ _
  | nwAliveToggle => exact execNwAliveToggle_kept _
  | protIntervalStart _ => exact execProtIntervalStart_kept _ _
  | clkgateEntry _ => exact execClkgateEntry_kept _ _
  | retentionEntry _ => exact execRetentionEntry_kept _ _
  | offEntry _ => exact execOffEntry_kept _ _
  | domainWake _ => exact execDomainWake_kept _ _
  | domainWakeDone _ _ => exact execDomainWakeDone_kept _ _ _
  | prewake _ => exact execPrewake_kept _ _
  | pdcmdWake _ _ => exact execPdcmdWake_kept _ _ _
  | sleep _ => exact execSleep_kept _ _
  | wake _ => exact execWake_kept _ _
  | powerEstimate _ => exact execPowerEstimate_kept _ _
  | thermalSample _ => exact execThermalSample_kept _ _
  | supplyDip _ => exact execSupplyDip_kept _ _
  | supplyRecover _ => exact execSupplyRecover_kept _ _
  | brownout _ => exact execBrownout_kept _ _
  | memlost _ => exact execMemlost_kept _ _
  | brownoutRecover _ => exact execBrownoutRecover_kept _ _
  | standbyLoss => exact absurd rfl hl
  | ageRead _ => exact execAgeRead_kept _ _
  | bootRom _ _ => exact execBootRom_kept _ _ _
  | bootFirmware _ => exact execBootFirmware_kept _ _
  | bootRecords _ => exact execBootRecords_kept _ _
  | bootIsland _ => exact execBootIsland_kept _ _
  | bootMainPower => exact execBootMainPower_kept _
  | bootMemory => exact execBootMemory_kept _
  | bootImage _ => exact execBootImage_kept _ _
  | bootSelftest _ => exact execBootSelftest_kept _ _
  | bootCluster => exact execBootCluster_kept _
  | bootDone _ => exact execBootDone_kept _ _
  | svnCommit _ _ => exact execSvnCommit_kept _ _ _
  | quote _ => exact execQuote_kept _ _
  | extend _ => exact execExtend_kept _ _
  | secNop _ => exact execSecNop_kept _ _
  | debugAccept _ _ => exact execDebugAccept_kept _ _ _
  | recoveryFrame _ _ => exact execRecoveryFrame_kept _ _ _
  | recoveryDone => exact execRecoveryDone_kept _
  | csiFrameStart _ _ _ _ _ => exact execCsiFrameStart_kept _ _ _ _ _ _
  | csiLongPacket _ _ _ _ _ _ _ => exact execCsiLongPacket_kept _ _ _ _ _ _ _ _
  | csiFrameEnd _ _ _ _ => exact execCsiFrameEnd_kept _ _ _ _ _
  | ethRxFrame _ _ _ _ => exact execEthRxFrame_kept _ _ _ _ _ hw
  | ethTxFrame _ _ => exact execEthTxFrame_kept _ _ _ hw
  | gclSwap _ _ => exact execGclSwap_kept _ _ _ hw
  | gclActivate _ => exact execGclActivate_kept _ _ hw
  | ptpSync _ _ => exact execPtpSync_kept _ _ _ hw
  | ptpPdelay _ _ _ _ _ _ => exact execPtpPdelay_kept _ _ _ _ _ _ _ hw
  | ptpSyncTimeout => exact execPtpSyncTimeout_kept _
  | canTxreq _ _ => exact execCanTxreq_kept _ _ _
  | canTxFrame _ => exact execCanTxFrame_kept _ _ hw
  | canTxEnd _ _ => exact execCanTxEnd_kept _ _ _ hw
  | canRxFrame _ _ _ _ _ => exact execCanRxFrame_kept _ _ _ _ _ _ hw
  | canBusoffRecover _ => exact execCanBusoffRecover_kept _ _ hw
  | canLockstepMismatch _ => exact execCanLockstepMismatch_kept _ _
  | canBitTimingWrite _ _ _ _ => exact execCanBitTimingWrite_kept _ _ _ _ _ hw
  | spiDataReady _ => exact execSpiDataReady_kept _ _
  | linkUp _ _ _ _ => exact execLinkUp_kept _ _ _ _ _ hw
  | linkDown _ => exact execLinkDown_kept _ _ hw
  | pcieCfgAccess _ _ _ => exact execPcieCfgAccess_kept _ _ _ _
  | allreduce _ => exact execAllreduce_kept _ _
  | bcast _ => exact execBcast_kept _ _
  | barrier _ => exact execBarrier_kept _ _
  | put _ => exact execPut_kept _ _
  | lnkNop _ => exact execLnkNop_kept _ _
  | peerPut _ _ _ => exact execPeerPut_kept _ _ _ _
  | collectiveTimeout _ => exact execCollectiveTimeout_kept _ _
  | abortMarker _ => exact execAbortMarker_kept _ _
  | flitUncorrectable _ _ => exact execFlitUncorrectable_kept _ _ _
  | laneCeThreshold _ _ _ => exact execLaneCeThreshold_kept _ _ _ _
  | creditReturn _ _ => exact execCreditReturn_kept _ _ _
  | groupWrite _ _ _ _ => exact execGroupWrite_kept _ _ _ _ _
  | memoryAccess _ _ _ => exact execMemoryAccess_kept _ _ _ _
  | registerRead _ _ _ => exact execRegisterRead_kept _ _ _ _
  | frameWindowExpiry _ => exact execFrameWindowExpiry_kept _ _
  | egoUpdateAgeTimeout => exact execEgoUpdateAgeTimeout_kept _
  | patrolScrub _ _ _ => exact execPatrolScrub_kept _ _ _ _ hw
  | pmicFault => exact execPmicFault_kept _
  | hbmThermalAlert _ => exact execHbmThermalAlert_kept _ _ hw
  | ethPhyLinkLoss _ => exact execEthPhyLinkLoss_kept _ _ hw
  | cphyLinkLoss => exact execCphyLinkLoss_kept _
  | ptpSyncSend _ => exact execPtpSyncSend_kept _ _ hw
  | fwlCommandDone => exact execFwlCommandDone_kept _
  | pairHeartbeatCheck => exact execPairHeartbeatCheck_kept _
  | lnkLinkUp _ _ => exact execLnkLinkUp_kept _ _ _
  | lnkLinkDown _ => exact execLnkLinkDown_kept _ _
  | collectiveFlitReceive _ _ _ _ _ _ => exact execCollectiveFlitReceive_kept _ _ _ _ _ _ _

theorem subcmdOf_none {r : BitVec 6} (h : hasSubcmd r.toNat = false) : subcmdOf r.toNat = none := by
  revert r
  decide

theorem execSubcmdTest_refused (i : Initiator) (region : BitVec 6) (v : Word) (s : State)
    (h : hasSubcmd region.toNat = false) : execSubcmdTest i region v s = .refused (.illFormed "SUBCMD_TEST") := by
  unfold execSubcmdTest
  rw [subcmdOf_none h]

theorem execSubcmdRetire_refused (i : Initiator) (region : BitVec 6) (v : Word) (s : State)
    (h : hasSubcmd region.toNat = false) : execSubcmdRetire i region v s = .refused (.illFormed "SUBCMD_RETIRE") := by
  unfold execSubcmdRetire
  rw [subcmdOf_none h]

/-- A command that is not well-formed is refused by name. -/
theorem exec_illFormed (c : Instr) (s : State) (hw : c.wellFormed = false) : ∃ n, exec c s = .refused (.illFormed n) := by
  cases c with
  | registerWrite _ _ _ _ => exact absurd hw (by simp [Instr.wellFormed])
  | phaseAdvance _ => exact absurd hw (by simp [Instr.wellFormed])
  | meridPeriodWrite _ _ => exact absurd hw (by simp [Instr.wellFormed])
  | lockcfgWrite _ _ => exact absurd hw (by simp [Instr.wellFormed])
  | referenceEvent _ => exact absurd hw (by simp [Instr.wellFormed])
  | referenceTimeout => exact absurd hw (by simp [Instr.wellFormed])
  | holdoverExpiry => exact absurd hw (by simp [Instr.wellFormed])
  | slotWordWrite _ _ _ _ => exact absurd hw (by simp [Instr.wellFormed])
  | slotArm _ _ _ => exact absurd hw (by simp [Instr.wellFormed])
  | slotDisarm _ _ _ => exact absurd hw (by simp [Instr.wellFormed])
  | occurrenceDispatch _ => exact absurd hw (by simp [Instr.wellFormed])
  | triggerAction _ => exact absurd hw (by simp [Instr.wellFormed])
  | pulseEnd _ => exact absurd hw (by simp [Instr.wellFormed])
  | vernierBroadcast _ _ => exact absurd hw (by simp [Instr.wellFormed])
  | trgCfgWrite _ _ _ => exact absurd hw (by simp [Instr.wellFormed])
  | encoderTransition _ _ _ => exact absurd hw (by simp [Instr.wellFormed])
  | encoderIndex _ => exact absurd hw (by simp [Instr.wellFormed])
  | ssiSample _ _ _ => exact absurd hw (by simp [Instr.wellFormed])
  | einjWrite _ _ _ => exact absurd hw (by simp [Instr.wellFormed])
  | quiesceSet _ _ _ => exact absurd hw (by simp [Instr.wellFormed])
  | quiesceClear _ _ _ => exact absurd hw (by simp [Instr.wellFormed])
  | unfreezeArm _ _ _ => exact absurd hw (by simp [Instr.wellFormed])
  | unfreezeRelease _ _ _ => exact absurd hw (by simp [Instr.wellFormed])
  | unfreezeTimeout _ => exact absurd hw (by simp [Instr.wellFormed])
  | unfreezeEffect _ => exact absurd hw (by simp [Instr.wellFormed])
  | doorbellWrite _ _ _ _ => exact absurd hw (by simp [Instr.wellFormed])
  | doorbellAction _ => exact absurd hw (by simp [Instr.wellFormed])
  | queueEnable _ _ _ => exact absurd hw (by simp [Instr.wellFormed])
  | queueDisable _ _ _ => exact absurd hw (by simp [Instr.wellFormed])
  | queueResume _ _ _ _ => exact absurd hw (by simp [Instr.wellFormed])
  | qcmdComplete _ => exact absurd hw (by simp [Instr.wellFormed])
  | operationComplete _ _ _ => exact absurd hw (by simp [Instr.wellFormed])
  | depotModeWrite _ _ => exact absurd hw (by simp [Instr.wellFormed])
  | domeLoad _ _ => exact absurd hw (by simp [Instr.wellFormed])
  | domeRun _ _ => exact absurd hw (by simp [Instr.wellFormed])
  | domeNop _ _ => exact absurd hw (by simp [Instr.wellFormed])
  | entryIssue _ _ _ => exact absurd hw (by simp [Instr.wellFormed])
  | gatherSlotFree _ => exact absurd hw (by simp [Instr.wellFormed])
  | runWcetExpiry _ => exact absurd hw (by simp [Instr.wellFormed])
  | stageFault _ _ _ => exact absurd hw (by simp [Instr.wellFormed])
  | spareTakeover _ _ => exact absurd hw (by simp [Instr.wellFormed])
  | testSliceEnd _ _ _ _ => exact absurd hw (by simp [Instr.wellFormed])
  | windowOpen _ => exact absurd hw (by simp [Instr.wellFormed])
  | windowClose _ => exact absurd hw (by simp [Instr.wellFormed])
  | subcmdTest i region v =>
    exact ⟨_, execSubcmdTest_refused _ _ _ _ hw⟩
  | subcmdRetire i region v =>
    exact ⟨_, execSubcmdRetire_refused _ _ _ _ hw⟩
  | quotaWrite _ _ _ => exact absurd hw (by simp [Instr.wellFormed])
  | transitMove _ => exact absurd hw (by simp [Instr.wellFormed])
  | transitNop _ => exact absurd hw (by simp [Instr.wellFormed])
  | alloc _ => exact absurd hw (by simp [Instr.wellFormed])
  | free _ => exact absurd hw (by simp [Instr.wellFormed])
  | allocResume => exact absurd hw (by simp [Instr.wellFormed])
  | poolReleaseResume => exact absurd hw (by simp [Instr.wellFormed])
  | readaroundTimeout pc =>
    refine ⟨_, if_pos ?_⟩
    simp only [Instr.wellFormed, decide_eq_false_iff_not] at hw
    omega
  | reread _ => exact absurd hw (by simp [Instr.wellFormed])
  | pcCeThreshold pc count =>
    refine ⟨_, if_pos ?_⟩
    simp only [Instr.wellFormed, decide_eq_false_iff_not] at hw
    omega
  | pcSuspectExpiry pc =>
    refine ⟨_, if_pos ?_⟩
    simp only [Instr.wellFormed, decide_eq_false_iff_not] at hw
    omega
  | pcRetireCmd i stack v =>
    refine ⟨_, if_pos ?_⟩
    simp only [Instr.wellFormed, decide_eq_false_iff_not] at hw
    omega
  | finderInvalidate _ _ _ => exact absurd hw (by simp [Instr.wellFormed])
  | finderInvalidateDone _ => exact absurd hw (by simp [Instr.wellFormed])
  | kvFlush _ _ => exact absurd hw (by simp [Instr.wellFormed])
  | qaReqWrite _ _ => exact absurd hw (by simp [Instr.wellFormed])
  | coelServe => exact absurd hw (by simp [Instr.wellFormed])
  | coelResume => exact absurd hw (by simp [Instr.wellFormed])
  | swapoutComplete => exact absurd hw (by simp [Instr.wellFormed])
  | swapinComplete => exact absurd hw (by simp [Instr.wellFormed])
  | coelEvict _ _ => exact absurd hw (by simp [Instr.wellFormed])
  | coelEvictHold _ _ => exact absurd hw (by simp [Instr.wellFormed])
  | coelRestore _ _ => exact absurd hw (by simp [Instr.wellFormed])
  | coelRetry _ _ => exact absurd hw (by simp [Instr.wellFormed])
  | coelDiscard _ _ => exact absurd hw (by simp [Instr.wellFormed])
  | admitJob => exact absurd hw (by simp [Instr.wellFormed])
  | retire => exact absurd hw (by simp [Instr.wellFormed])
  | schedNop _ => exact absurd hw (by simp [Instr.wellFormed])
  | join => exact absurd hw (by simp [Instr.wellFormed])
  | leave => exact absurd hw (by simp [Instr.wellFormed])
  | step _ => exact absurd hw (by simp [Instr.wellFormed])
  | stepOpen => exact absurd hw (by simp [Instr.wellFormed])
  | stepRelease => exact absurd hw (by simp [Instr.wellFormed])
  | stepClose _ => exact absurd hw (by simp [Instr.wellFormed])
  | stepWcetExpiry _ => exact absurd hw (by simp [Instr.wellFormed])
  | preemptRequest _ => exact absurd hw (by simp [Instr.wellFormed])
  | preemptPoint _ => exact absurd hw (by simp [Instr.wellFormed])
  | saveComplete _ _ _ => exact absurd hw (by simp [Instr.wellFormed])
  | restoreStart _ => exact absurd hw (by simp [Instr.wellFormed])
  | restoreComplete _ _ => exact absurd hw (by simp [Instr.wellFormed])
  | semAcquire _ _ _ => exact absurd hw (by simp [Instr.wellFormed])
  | semRelease _ _ _ => exact absurd hw (by simp [Instr.wellFormed])
  | semOverrun _ => exact absurd hw (by simp [Instr.wellFormed])
  | solvLoad _ => exact absurd hw (by simp [Instr.wellFormed])
  | solvFree _ => exact absurd hw (by simp [Instr.wellFormed])
  | solvNop _ => exact absurd hw (by simp [Instr.wellFormed])
  | solve _ => exact absurd hw (by simp [Instr.wellFormed])
  | solveRefReady _ => exact absurd hw (by simp [Instr.wellFormed])
  | solveDeadline => exact absurd hw (by simp [Instr.wellFormed])
  | solveWcetExpiry => exact absurd hw (by simp [Instr.wellFormed])
  | laneFault _ => exact absurd hw (by simp [Instr.wellFormed])
  | occInstall _ => exact absurd hw (by simp [Instr.wellFormed])
  | occBody _ => exact absurd hw (by simp [Instr.wellFormed])
  | occNop _ => exact absurd hw (by simp [Instr.wellFormed])
  | check _ => exact absurd hw (by simp [Instr.wellFormed])
  | checkDeadline => exact absurd hw (by simp [Instr.wellFormed])
  | select _ => exact absurd hw (by simp [Instr.wellFormed])
  | seed _ => exact absurd hw (by simp [Instr.wellFormed])
  | occWcetExpiry => exact absurd hw (by simp [Instr.wellFormed])
  | handoffReport => exact absurd hw (by simp [Instr.wellFormed])
  | sensorSample _ _ => exact absurd hw (by simp [Instr.wellFormed])
  | sensorRefEvent _ _ => exact absurd hw (by simp [Instr.wellFormed])
  | sensorSilentTimeout _ => exact absurd hw (by simp [Instr.wellFormed])
  | afuIssue _ => exact absurd hw (by simp [Instr.wellFormed])
  | afuContrib _ => exact absurd hw (by simp [Instr.wellFormed])
  | afuNop _ => exact absurd hw (by simp [Instr.wellFormed])
  | fusionDeadline => exact absurd hw (by simp [Instr.wellFormed])
  | egoPoseTick => exact absurd hw (by simp [Instr.wellFormed])
  | egoUpdate _ _ _ => exact absurd hw (by simp [Instr.wellFormed])
  | egoLostTimeout => exact absurd hw (by simp [Instr.wellFormed])
  | l1Frame _ => exact absurd hw (by simp [Instr.wellFormed])
  | lidarInstantMove _ => exact absurd hw (by simp [Instr.wellFormed])
  | sampleAction => exact absurd hw (by simp [Instr.wellFormed])
  | sampleExecute _ => exact absurd hw (by simp [Instr.wellFormed])
  | driveCoreMismatch _ => exact absurd hw (by simp [Instr.wellFormed])
  | loopEnable _ _ => exact absurd hw (by simp [Instr.wellFormed])
  | loopDisable _ _ => exact absurd hw (by simp [Instr.wellFormed])
  | loopSwap _ _ => exact absurd hw (by simp [Instr.wellFormed])
  | loopReset _ _ => exact absurd hw (by simp [Instr.wellFormed])
  | handoffRecord => exact absurd hw (by simp [Instr.wellFormed])
  | handoffVerdict _ => exact absurd hw (by simp [Instr.wellFormed])
  | switch => exact absurd hw (by simp [Instr.wellFormed])
  | dump => exact absurd hw (by simp [Instr.wellFormed])
  | driveNop _ => exact absurd hw (by simp [Instr.wellFormed])
  | handoffTimeout => exact absurd hw (by simp [Instr.wellFormed])
  | fly _ _ => exact absurd hw (by simp [Instr.wellFormed])
  | autoFly => exact absurd hw (by simp [Instr.wellFormed])
  | logbookModeWrite _ _ _ => exact absurd hw (by simp [Instr.wellFormed])
  | cvuFrameEnd ch ctx data ending =>
    refine ⟨_, if_pos ?_⟩
    simp only [Instr.wellFormed, decide_eq_false_iff_not] at hw
    exact BitVec.eq_of_toNat_eq (by have := ending.isLt; simp at hw ⊢; omega)
  | cvuContextAdvance _ => exact absurd hw (by simp [Instr.wellFormed])
  | cvuContextWrite _ _ _ => exact absurd hw (by simp [Instr.wellFormed])
  | cvuChannelCfgWrite _ _ _ => exact absurd hw (by simp [Instr.wellFormed])
  | nightLogReport src code inj itag ecnt detail queue index =>
    refine ⟨_, if_pos ?_⟩
    simp only [Instr.wellFormed, decide_eq_false_iff_not] at hw
    omega
  | nightLogWrite => exact absurd hw (by simp [Instr.wellFormed])
  | lastslotWrite => exact absurd hw (by simp [Instr.wellFormed])
  | nlrdWrite _ _ => exact absurd hw (by simp [Instr.wellFormed])
  | trgrantWrite _ _ _ => exact absurd hw (by simp [Instr.wellFormed])
  | testRightsExpiry => exact absurd hw (by simp [Instr.wellFormed])
  | fwlCommit _ => exact absurd hw (by simp [Instr.wellFormed])
  | fwlRead _ => exact absurd hw (by simp [Instr.wellFormed])
  | checkerVerdict => exact absurd hw (by simp [Instr.wellFormed])
  | safeCause => exact absurd hw (by simp [Instr.wellFormed])
  | noplanTimeout => exact absurd hw (by simp [Instr.wellFormed])
  | heartbeatWrite _ _ => exact absurd hw (by simp [Instr.wellFormed])
  | heartbeatTimeout => exact absurd hw (by simp [Instr.wellFormed])
  | recovTimeout => exact absurd hw (by simp [Instr.wellFormed])
  | sscmdDegrade _ => exact absurd hw (by simp [Instr.wellFormed])
  | sscmdRestart _ => exact absurd hw (by simp [Instr.wellFormed])
  | sscmdHalt _ => exact absurd hw (by simp [Instr.wellFormed])
  | sscmdReady _ => exact absurd hw (by simp [Instr.wellFormed])
  | sscmdClear _ => exact absurd hw (by simp [Instr.wellFormed])
  | restartQuiesce => exact absurd hw (by simp [Instr.wellFormed])
  | restartHold => exact absurd hw (by simp [Instr.wellFormed])
  | restartRelease => exact absurd hw (by simp [Instr.wellFormed])
  | restartImageCheck => exact absurd hw (by simp [Instr.wellFormed])
  | pairMismatch _ => exact absurd hw (by simp [Instr.wellFormed])
  | pairRestartDone _ => exact absurd hw (by simp [Instr.wellFormed])
  | nwAliveToggle => exact absurd hw (by simp [Instr.wellFormed])
  | protIntervalStart _ => exact absurd hw (by simp [Instr.wellFormed])
  | clkgateEntry _ => exact absurd hw (by simp [Instr.wellFormed])
  | retentionEntry _ => exact absurd hw (by simp [Instr.wellFormed])
  | offEntry _ => exact absurd hw (by simp [Instr.wellFormed])
  | domainWake _ => exact absurd hw (by simp [Instr.wellFormed])
  | domainWakeDone _ _ => exact absurd hw (by simp [Instr.wellFormed])
  | prewake _ => exact absurd hw (by simp [Instr.wellFormed])
  | pdcmdWake _ _ => exact absurd hw (by simp [Instr.wellFormed])
  | sleep _ => exact absurd hw (by simp [Instr.wellFormed])
  | wake _ => exact absurd hw (by simp [Instr.wellFormed])
  | powerEstimate _ => exact absurd hw (by simp [Instr.wellFormed])
  | thermalSample _ => exact absurd hw (by simp [Instr.wellFormed])
  | supplyDip _ => exact absurd hw (by simp [Instr.wellFormed])
  | supplyRecover _ => exact absurd hw (by simp [Instr.wellFormed])
  | brownout _ => exact absurd hw (by simp [Instr.wellFormed])
  | memlost _ => exact absurd hw (by simp [Instr.wellFormed])
  | brownoutRecover _ => exact absurd hw (by simp [Instr.wellFormed])
  | standbyLoss => exact absurd hw (by simp [Instr.wellFormed])
  | ageRead _ => exact absurd hw (by simp [Instr.wellFormed])
  | bootRom _ _ => exact absurd hw (by simp [Instr.wellFormed])
  | bootFirmware _ => exact absurd hw (by simp [Instr.wellFormed])
  | bootRecords _ => exact absurd hw (by simp [Instr.wellFormed])
  | bootIsland _ => exact absurd hw (by simp [Instr.wellFormed])
  | bootMainPower => exact absurd hw (by simp [Instr.wellFormed])
  | bootMemory => exact absurd hw (by simp [Instr.wellFormed])
  | bootImage _ => exact absurd hw (by simp [Instr.wellFormed])
  | bootSelftest _ => exact absurd hw (by simp [Instr.wellFormed])
  | bootCluster => exact absurd hw (by simp [Instr.wellFormed])
  | bootDone _ => exact absurd hw (by simp [Instr.wellFormed])
  | svnCommit _ _ => exact absurd hw (by simp [Instr.wellFormed])
  | quote _ => exact absurd hw (by simp [Instr.wellFormed])
  | extend _ => exact absurd hw (by simp [Instr.wellFormed])
  | secNop _ => exact absurd hw (by simp [Instr.wellFormed])
  | debugAccept _ _ => exact absurd hw (by simp [Instr.wellFormed])
  | recoveryFrame _ _ => exact absurd hw (by simp [Instr.wellFormed])
  | recoveryDone => exact absurd hw (by simp [Instr.wellFormed])
  | csiFrameStart _ _ _ _ _ => exact absurd hw (by simp [Instr.wellFormed])
  | csiLongPacket _ _ _ _ _ _ _ => exact absurd hw (by simp [Instr.wellFormed])
  | csiFrameEnd _ _ _ _ => exact absurd hw (by simp [Instr.wellFormed])
  | ethRxFrame mac data fcsOk dur =>
    refine ⟨_, if_pos ?_⟩
    simp only [Instr.wellFormed, decide_eq_false_iff_not] at hw
    omega
  | ethTxFrame mac offer =>
    refine ⟨_, if_pos ?_⟩
    simp only [Instr.wellFormed, decide_eq_false_iff_not] at hw
    omega
  | gclSwap i mac =>
    refine ⟨_, if_pos ?_⟩
    simp only [Instr.wellFormed, decide_eq_false_iff_not] at hw
    omega
  | gclActivate mac =>
    refine ⟨_, if_pos ?_⟩
    simp only [Instr.wellFormed, decide_eq_false_iff_not] at hw
    omega
  | ptpSync mac t1 =>
    refine ⟨_, if_pos ?_⟩
    simp only [Instr.wellFormed, decide_eq_false_iff_not] at hw
    omega
  | ptpPdelay mac ok t1 t2 t3 t4 =>
    refine ⟨_, if_pos ?_⟩
    simp only [Instr.wellFormed, decide_eq_false_iff_not] at hw
    omega
  | ptpSyncTimeout => exact absurd hw (by simp [Instr.wellFormed])
  | canTxreq _ _ => exact absurd hw (by simp [Instr.wellFormed])
  | canTxFrame ch =>
    refine ⟨_, if_pos ?_⟩
    simp only [Instr.wellFormed, decide_eq_false_iff_not] at hw
    omega
  | canTxEnd ch result =>
    refine ⟨_, if_pos ?_⟩
    simp only [Instr.wellFormed, decide_eq_false_iff_not] at hw
    omega
  | canRxFrame ch ext id data good =>
    refine ⟨_, if_pos ?_⟩
    simp only [Instr.wellFormed, decide_eq_false_iff_not, Bool.and_eq_false_iff] at hw
    unfold boxBytes; omega
  | canBusoffRecover ch =>
    refine ⟨_, if_pos ?_⟩
    simp only [Instr.wellFormed, decide_eq_false_iff_not] at hw
    omega
  | canLockstepMismatch _ => exact absurd hw (by simp [Instr.wellFormed])
  | canBitTimingWrite i ch isData v =>
    refine ⟨_, if_pos ?_⟩
    simp only [Instr.wellFormed, decide_eq_false_iff_not] at hw
    omega
  | spiDataReady _ => exact absurd hw (by simp [Instr.wellFormed])
  | linkUp port gen4 width speed =>
    refine ⟨_, if_pos ?_⟩
    simp only [Instr.wellFormed, decide_eq_false_iff_not, Bool.and_eq_false_iff] at hw
    omega
  | linkDown port =>
    refine ⟨_, if_pos ?_⟩
    simp only [Instr.wellFormed, decide_eq_false_iff_not] at hw
    omega
  | pcieCfgAccess _ _ _ => exact absurd hw (by simp [Instr.wellFormed])
  | allreduce _ => exact absurd hw (by simp [Instr.wellFormed])
  | bcast _ => exact absurd hw (by simp [Instr.wellFormed])
  | barrier _ => exact absurd hw (by simp [Instr.wellFormed])
  | put _ => exact absurd hw (by simp [Instr.wellFormed])
  | lnkNop _ => exact absurd hw (by simp [Instr.wellFormed])
  | peerPut _ _ _ => exact absurd hw (by simp [Instr.wellFormed])
  | collectiveTimeout _ => exact absurd hw (by simp [Instr.wellFormed])
  | abortMarker _ => exact absurd hw (by simp [Instr.wellFormed])
  | flitUncorrectable _ _ => exact absurd hw (by simp [Instr.wellFormed])
  | laneCeThreshold _ _ _ => exact absurd hw (by simp [Instr.wellFormed])
  | creditReturn _ _ => exact absurd hw (by simp [Instr.wellFormed])
  | groupWrite _ _ _ _ => exact absurd hw (by simp [Instr.wellFormed])
  | memoryAccess _ _ _ => exact absurd hw (by simp [Instr.wellFormed])
  | registerRead _ _ _ => exact absurd hw (by simp [Instr.wellFormed])
  | frameWindowExpiry _ => exact absurd hw (by simp [Instr.wellFormed])
  | egoUpdateAgeTimeout => exact absurd hw (by simp [Instr.wellFormed])
  | patrolScrub mem corrected bad =>
    refine ⟨_, if_neg (fun h => ?_)⟩
    have hs : scrubbed mem.toNat bad = true := by cases bad <;> exact h
    exact absurd (hw.symm.trans hs) (by decide)
  | pmicFault => exact absurd hw (by simp [Instr.wellFormed])
  | hbmThermalAlert stack =>
    refine ⟨_, if_pos ?_⟩
    simp only [Instr.wellFormed, decide_eq_false_iff_not] at hw
    omega
  | ethPhyLinkLoss mac =>
    refine ⟨_, if_pos ?_⟩
    simp only [Instr.wellFormed, decide_eq_false_iff_not] at hw
    omega
  | cphyLinkLoss => exact absurd hw (by simp [Instr.wellFormed])
  | ptpSyncSend mac =>
    refine ⟨_, if_pos ?_⟩
    simp only [Instr.wellFormed, decide_eq_false_iff_not] at hw
    omega
  | fwlCommandDone => exact absurd hw (by simp [Instr.wellFormed])
  | pairHeartbeatCheck => exact absurd hw (by simp [Instr.wellFormed])
  | lnkLinkUp _ _ => exact absurd hw (by simp [Instr.wellFormed])
  | lnkLinkDown _ => exact absurd hw (by simp [Instr.wellFormed])
  | collectiveFlitReceive _ _ _ _ _ _ => exact absurd hw (by simp [Instr.wellFormed])

/-- Every well-formed command completes, keeps the queue and keeps the canonical form of every table. -/
theorem exec_sound (c : Instr) (s : State) (hw : c.wellFormed = true) :
    ∃ t, exec c s = .next t ∧ t.pending = s.pending ∧ (s.Canonical → t.Canonical) := by
  by_cases hp : ∃ ns, c = .phaseAdvance ns
  · obtain ⟨ns, rfl⟩ := hp
    exact ⟨_, rfl, (effPhaseAdvance_kept ns s).1, (effPhaseAdvance_kept ns s).2.2⟩
  · by_cases hl : c = .standbyLoss
    · subst hl
      exact ⟨_, rfl, (effStandbyLoss_kept s).1, (effStandbyLoss_kept s).2.2⟩
    · obtain ⟨t, ht, hk⟩ := exec_kept c s hw (fun ns h => hp ⟨ns, h⟩) hl
      exact ⟨t, ht, hk.1, hk.2.2⟩

end Sys2Proof.Machine
end

