-- ==== Sys2Proof/Laws/State.lean ====
section
/-! SUPPORT. What each basic update of the state leaves alone: one lemma per field and update, so that no proof unfolds a
record update. -/

set_option Elab.async false

namespace Sys2Proof.Machine

@[simp] theorem State.wr_now (s : State) (k : Nat) (w : Word) : (s.wr k w).now = s.now := rfl
@[simp] theorem State.wr_phase (s : State) (k : Nat) (w : Word) : (s.wr k w).phase = s.phase := rfl
@[simp] theorem State.wr_mem (s : State) (k : Nat) (w : Word) : (s.wr k w).mem = s.mem := rfl
@[simp] theorem State.wr_badWords (s : State) (k : Nat) (w : Word) : (s.wr k w).badWords = s.badWords := rfl
@[simp] theorem State.wr_locks (s : State) (k : Nat) (w : Word) : (s.wr k w).locks = s.locks := rfl
@[simp] theorem State.wr_queues (s : State) (k : Nat) (w : Word) : (s.wr k w).queues = s.queues := rfl
@[simp] theorem State.wr_qcmds (s : State) (k : Nat) (w : Word) : (s.wr k w).qcmds = s.qcmds := rfl
@[simp] theorem State.wr_frozen (s : State) (k : Nat) (w : Word) : (s.wr k w).frozen = s.frozen := rfl
@[simp] theorem State.wr_held (s : State) (k : Nat) (w : Word) : (s.wr k w).held = s.held := rfl
@[simp] theorem State.wr_waiting (s : State) (k : Nat) (w : Word) : (s.wr k w).waiting = s.waiting := rfl
@[simp] theorem State.wr_armed (s : State) (k : Nat) (w : Word) : (s.wr k w).armed = s.armed := rfl
@[simp] theorem State.wr_unfreezing (s : State) (k : Nat) (w : Word) : (s.wr k w).unfreezing = s.unfreezing := rfl
@[simp] theorem State.wr_log (s : State) (k : Nat) (w : Word) : (s.wr k w).log = s.log := rfl
@[simp] theorem State.wr_fwl (s : State) (k : Nat) (w : Word) : (s.wr k w).fwl = s.fwl := rfl
@[simp] theorem State.wr_merid (s : State) (k : Nat) (w : Word) : (s.wr k w).merid = s.merid := rfl
@[simp] theorem State.wr_watch (s : State) (k : Nat) (w : Word) : (s.wr k w).watch = s.watch := rfl
@[simp] theorem State.wr_pwr (s : State) (k : Nat) (w : Word) : (s.wr k w).pwr = s.pwr := rfl
@[simp] theorem State.wr_plate (s : State) (k : Nat) (w : Word) : (s.wr k w).plate = s.plate := rfl
@[simp] theorem State.wr_spares (s : State) (k : Nat) (w : Word) : (s.wr k w).spares = s.spares := rfl
@[simp] theorem State.wr_wins (s : State) (k : Nat) (w : Word) : (s.wr k w).wins = s.wins := rfl
@[simp] theorem State.wr_bind (s : State) (k : Nat) (w : Word) : (s.wr k w).bind = s.bind := rfl
@[simp] theorem State.wr_bootBind (s : State) (k : Nat) (w : Word) : (s.wr k w).bootBind = s.bootBind := rfl
@[simp] theorem State.wr_bindSt (s : State) (k : Nat) (w : Word) : (s.wr k w).bindSt = s.bindSt := rfl
@[simp] theorem State.wr_domes (s : State) (k : Nat) (w : Word) : (s.wr k w).domes = s.domes := rfl
@[simp] theorem State.wr_walkers (s : State) (k : Nat) (w : Word) : (s.wr k w).walkers = s.walkers := rfl
@[simp] theorem State.wr_sched (s : State) (k : Nat) (w : Word) : (s.wr k w).sched = s.sched := rfl
@[simp] theorem State.wr_link (s : State) (k : Nat) (w : Word) : (s.wr k w).link = s.link := rfl
@[simp] theorem State.wr_solv (s : State) (k : Nat) (w : Word) : (s.wr k w).solv = s.solv := rfl
@[simp] theorem State.wr_cvu (s : State) (k : Nat) (w : Word) : (s.wr k w).cvu = s.cvu := rfl
@[simp] theorem State.wr_can (s : State) (k : Nat) (w : Word) : (s.wr k w).can = s.can := rfl
@[simp] theorem State.wr_spiUntil (s : State) (k : Nat) (w : Word) : (s.wr k w).spiUntil = s.spiUntil := rfl
@[simp] theorem State.wr_seeds (s : State) (k : Nat) (w : Word) : (s.wr k w).seeds = s.seeds := rfl
@[simp] theorem State.wr_openQam0 (s : State) (k : Nat) (w : Word) : (s.wr k w).openQam0 = s.openQam0 := rfl
@[simp] theorem State.wr_openQam1 (s : State) (k : Nat) (w : Word) : (s.wr k w).openQam1 = s.openQam1 := rfl
@[simp] theorem State.wr_drive (s : State) (k : Nat) (w : Word) : (s.wr k w).drive = s.drive := rfl
@[simp] theorem State.wr_occ (s : State) (k : Nat) (w : Word) : (s.wr k w).occ = s.occ := rfl
@[simp] theorem State.wr_afu (s : State) (k : Nat) (w : Word) : (s.wr k w).afu = s.afu := rfl
@[simp] theorem State.wr_boot (s : State) (k : Nat) (w : Word) : (s.wr k w).boot = s.boot := rfl
@[simp] theorem State.wr_age (s : State) (k : Nat) (w : Word) : (s.wr k w).age = s.age := rfl
@[simp] theorem State.wr_csi (s : State) (k : Nat) (w : Word) : (s.wr k w).csi = s.csi := rfl
@[simp] theorem State.wr_eth (s : State) (k : Nat) (w : Word) : (s.wr k w).eth = s.eth := rfl
@[simp] theorem State.wr_resp (s : State) (k : Nat) (w : Word) : (s.wr k w).resp = s.resp := rfl
@[simp] theorem State.wr_out (s : State) (k : Nat) (w : Word) : (s.wr k w).out = s.out := rfl
@[simp] theorem State.wr_free (s : State) (k : Nat) (w : Word) : (s.wr k w).free = s.free := rfl
@[simp] theorem State.wr_pending (s : State) (k : Nat) (w : Word) : (s.wr k w).pending = s.pending := rfl

@[simp] theorem State.setFld_now (s : State) (k hi lo v : Nat) : (s.setFld k hi lo v).now = s.now := rfl
@[simp] theorem State.setFld_phase (s : State) (k hi lo v : Nat) : (s.setFld k hi lo v).phase = s.phase := rfl
@[simp] theorem State.setFld_mem (s : State) (k hi lo v : Nat) : (s.setFld k hi lo v).mem = s.mem := rfl
@[simp] theorem State.setFld_badWords (s : State) (k hi lo v : Nat) : (s.setFld k hi lo v).badWords = s.badWords := rfl
@[simp] theorem State.setFld_locks (s : State) (k hi lo v : Nat) : (s.setFld k hi lo v).locks = s.locks := rfl
@[simp] theorem State.setFld_queues (s : State) (k hi lo v : Nat) : (s.setFld k hi lo v).queues = s.queues := rfl
@[simp] theorem State.setFld_qcmds (s : State) (k hi lo v : Nat) : (s.setFld k hi lo v).qcmds = s.qcmds := rfl
@[simp] theorem State.setFld_frozen (s : State) (k hi lo v : Nat) : (s.setFld k hi lo v).frozen = s.frozen := rfl
@[simp] theorem State.setFld_held (s : State) (k hi lo v : Nat) : (s.setFld k hi lo v).held = s.held := rfl
@[simp] theorem State.setFld_waiting (s : State) (k hi lo v : Nat) : (s.setFld k hi lo v).waiting = s.waiting := rfl
@[simp] theorem State.setFld_armed (s : State) (k hi lo v : Nat) : (s.setFld k hi lo v).armed = s.armed := rfl
@[simp] theorem State.setFld_unfreezing (s : State) (k hi lo v : Nat) : (s.setFld k hi lo v).unfreezing = s.unfreezing := rfl
@[simp] theorem State.setFld_log (s : State) (k hi lo v : Nat) : (s.setFld k hi lo v).log = s.log := rfl
@[simp] theorem State.setFld_fwl (s : State) (k hi lo v : Nat) : (s.setFld k hi lo v).fwl = s.fwl := rfl
@[simp] theorem State.setFld_merid (s : State) (k hi lo v : Nat) : (s.setFld k hi lo v).merid = s.merid := rfl
@[simp] theorem State.setFld_watch (s : State) (k hi lo v : Nat) : (s.setFld k hi lo v).watch = s.watch := rfl
@[simp] theorem State.setFld_pwr (s : State) (k hi lo v : Nat) : (s.setFld k hi lo v).pwr = s.pwr := rfl
@[simp] theorem State.setFld_plate (s : State) (k hi lo v : Nat) : (s.setFld k hi lo v).plate = s.plate := rfl
@[simp] theorem State.setFld_spares (s : State) (k hi lo v : Nat) : (s.setFld k hi lo v).spares = s.spares := rfl
@[simp] theorem State.setFld_wins (s : State) (k hi lo v : Nat) : (s.setFld k hi lo v).wins = s.wins := rfl
@[simp] theorem State.setFld_bind (s : State) (k hi lo v : Nat) : (s.setFld k hi lo v).bind = s.bind := rfl
@[simp] theorem State.setFld_bootBind (s : State) (k hi lo v : Nat) : (s.setFld k hi lo v).bootBind = s.bootBind := rfl
@[simp] theorem State.setFld_bindSt (s : State) (k hi lo v : Nat) : (s.setFld k hi lo v).bindSt = s.bindSt := rfl
@[simp] theorem State.setFld_domes (s : State) (k hi lo v : Nat) : (s.setFld k hi lo v).domes = s.domes := rfl
@[simp] theorem State.setFld_walkers (s : State) (k hi lo v : Nat) : (s.setFld k hi lo v).walkers = s.walkers := rfl
@[simp] theorem State.setFld_sched (s : State) (k hi lo v : Nat) : (s.setFld k hi lo v).sched = s.sched := rfl
@[simp] theorem State.setFld_link (s : State) (k hi lo v : Nat) : (s.setFld k hi lo v).link = s.link := rfl
@[simp] theorem State.setFld_solv (s : State) (k hi lo v : Nat) : (s.setFld k hi lo v).solv = s.solv := rfl
@[simp] theorem State.setFld_cvu (s : State) (k hi lo v : Nat) : (s.setFld k hi lo v).cvu = s.cvu := rfl
@[simp] theorem State.setFld_can (s : State) (k hi lo v : Nat) : (s.setFld k hi lo v).can = s.can := rfl
@[simp] theorem State.setFld_spiUntil (s : State) (k hi lo v : Nat) : (s.setFld k hi lo v).spiUntil = s.spiUntil := rfl
@[simp] theorem State.setFld_seeds (s : State) (k hi lo v : Nat) : (s.setFld k hi lo v).seeds = s.seeds := rfl
@[simp] theorem State.setFld_openQam0 (s : State) (k hi lo v : Nat) : (s.setFld k hi lo v).openQam0 = s.openQam0 := rfl
@[simp] theorem State.setFld_openQam1 (s : State) (k hi lo v : Nat) : (s.setFld k hi lo v).openQam1 = s.openQam1 := rfl
@[simp] theorem State.setFld_drive (s : State) (k hi lo v : Nat) : (s.setFld k hi lo v).drive = s.drive := rfl
@[simp] theorem State.setFld_occ (s : State) (k hi lo v : Nat) : (s.setFld k hi lo v).occ = s.occ := rfl
@[simp] theorem State.setFld_afu (s : State) (k hi lo v : Nat) : (s.setFld k hi lo v).afu = s.afu := rfl
@[simp] theorem State.setFld_boot (s : State) (k hi lo v : Nat) : (s.setFld k hi lo v).boot = s.boot := rfl
@[simp] theorem State.setFld_age (s : State) (k hi lo v : Nat) : (s.setFld k hi lo v).age = s.age := rfl
@[simp] theorem State.setFld_csi (s : State) (k hi lo v : Nat) : (s.setFld k hi lo v).csi = s.csi := rfl
@[simp] theorem State.setFld_eth (s : State) (k hi lo v : Nat) : (s.setFld k hi lo v).eth = s.eth := rfl
@[simp] theorem State.setFld_resp (s : State) (k hi lo v : Nat) : (s.setFld k hi lo v).resp = s.resp := rfl
@[simp] theorem State.setFld_out (s : State) (k hi lo v : Nat) : (s.setFld k hi lo v).out = s.out := rfl
@[simp] theorem State.setFld_free (s : State) (k hi lo v : Nat) : (s.setFld k hi lo v).free = s.free := rfl
@[simp] theorem State.setFld_pending (s : State) (k hi lo v : Nat) : (s.setFld k hi lo v).pending = s.pending := rfl

@[simp] theorem State.setFlag_now (s : State) (k i : Nat) (b : Bool) : (s.setFlag k i b).now = s.now := rfl
@[simp] theorem State.setFlag_phase (s : State) (k i : Nat) (b : Bool) : (s.setFlag k i b).phase = s.phase := rfl
@[simp] theorem State.setFlag_mem (s : State) (k i : Nat) (b : Bool) : (s.setFlag k i b).mem = s.mem := rfl
@[simp] theorem State.setFlag_badWords (s : State) (k i : Nat) (b : Bool) : (s.setFlag k i b).badWords = s.badWords := rfl
@[simp] theorem State.setFlag_locks (s : State) (k i : Nat) (b : Bool) : (s.setFlag k i b).locks = s.locks := rfl
@[simp] theorem State.setFlag_queues (s : State) (k i : Nat) (b : Bool) : (s.setFlag k i b).queues = s.queues := rfl
@[simp] theorem State.setFlag_qcmds (s : State) (k i : Nat) (b : Bool) : (s.setFlag k i b).qcmds = s.qcmds := rfl
@[simp] theorem State.setFlag_frozen (s : State) (k i : Nat) (b : Bool) : (s.setFlag k i b).frozen = s.frozen := rfl
@[simp] theorem State.setFlag_held (s : State) (k i : Nat) (b : Bool) : (s.setFlag k i b).held = s.held := rfl
@[simp] theorem State.setFlag_waiting (s : State) (k i : Nat) (b : Bool) : (s.setFlag k i b).waiting = s.waiting := rfl
@[simp] theorem State.setFlag_armed (s : State) (k i : Nat) (b : Bool) : (s.setFlag k i b).armed = s.armed := rfl
@[simp] theorem State.setFlag_unfreezing (s : State) (k i : Nat) (b : Bool) : (s.setFlag k i b).unfreezing = s.unfreezing := rfl
@[simp] theorem State.setFlag_log (s : State) (k i : Nat) (b : Bool) : (s.setFlag k i b).log = s.log := rfl
@[simp] theorem State.setFlag_fwl (s : State) (k i : Nat) (b : Bool) : (s.setFlag k i b).fwl = s.fwl := rfl
@[simp] theorem State.setFlag_merid (s : State) (k i : Nat) (b : Bool) : (s.setFlag k i b).merid = s.merid := rfl
@[simp] theorem State.setFlag_watch (s : State) (k i : Nat) (b : Bool) : (s.setFlag k i b).watch = s.watch := rfl
@[simp] theorem State.setFlag_pwr (s : State) (k i : Nat) (b : Bool) : (s.setFlag k i b).pwr = s.pwr := rfl
@[simp] theorem State.setFlag_plate (s : State) (k i : Nat) (b : Bool) : (s.setFlag k i b).plate = s.plate := rfl
@[simp] theorem State.setFlag_spares (s : State) (k i : Nat) (b : Bool) : (s.setFlag k i b).spares = s.spares := rfl
@[simp] theorem State.setFlag_wins (s : State) (k i : Nat) (b : Bool) : (s.setFlag k i b).wins = s.wins := rfl
@[simp] theorem State.setFlag_bind (s : State) (k i : Nat) (b : Bool) : (s.setFlag k i b).bind = s.bind := rfl
@[simp] theorem State.setFlag_bootBind (s : State) (k i : Nat) (b : Bool) : (s.setFlag k i b).bootBind = s.bootBind := rfl
@[simp] theorem State.setFlag_bindSt (s : State) (k i : Nat) (b : Bool) : (s.setFlag k i b).bindSt = s.bindSt := rfl
@[simp] theorem State.setFlag_domes (s : State) (k i : Nat) (b : Bool) : (s.setFlag k i b).domes = s.domes := rfl
@[simp] theorem State.setFlag_walkers (s : State) (k i : Nat) (b : Bool) : (s.setFlag k i b).walkers = s.walkers := rfl
@[simp] theorem State.setFlag_sched (s : State) (k i : Nat) (b : Bool) : (s.setFlag k i b).sched = s.sched := rfl
@[simp] theorem State.setFlag_link (s : State) (k i : Nat) (b : Bool) : (s.setFlag k i b).link = s.link := rfl
@[simp] theorem State.setFlag_solv (s : State) (k i : Nat) (b : Bool) : (s.setFlag k i b).solv = s.solv := rfl
@[simp] theorem State.setFlag_cvu (s : State) (k i : Nat) (b : Bool) : (s.setFlag k i b).cvu = s.cvu := rfl
@[simp] theorem State.setFlag_can (s : State) (k i : Nat) (b : Bool) : (s.setFlag k i b).can = s.can := rfl
@[simp] theorem State.setFlag_spiUntil (s : State) (k i : Nat) (b : Bool) : (s.setFlag k i b).spiUntil = s.spiUntil := rfl
@[simp] theorem State.setFlag_seeds (s : State) (k i : Nat) (b : Bool) : (s.setFlag k i b).seeds = s.seeds := rfl
@[simp] theorem State.setFlag_openQam0 (s : State) (k i : Nat) (b : Bool) : (s.setFlag k i b).openQam0 = s.openQam0 := rfl
@[simp] theorem State.setFlag_openQam1 (s : State) (k i : Nat) (b : Bool) : (s.setFlag k i b).openQam1 = s.openQam1 := rfl
@[simp] theorem State.setFlag_drive (s : State) (k i : Nat) (b : Bool) : (s.setFlag k i b).drive = s.drive := rfl
@[simp] theorem State.setFlag_occ (s : State) (k i : Nat) (b : Bool) : (s.setFlag k i b).occ = s.occ := rfl
@[simp] theorem State.setFlag_afu (s : State) (k i : Nat) (b : Bool) : (s.setFlag k i b).afu = s.afu := rfl
@[simp] theorem State.setFlag_boot (s : State) (k i : Nat) (b : Bool) : (s.setFlag k i b).boot = s.boot := rfl
@[simp] theorem State.setFlag_age (s : State) (k i : Nat) (b : Bool) : (s.setFlag k i b).age = s.age := rfl
@[simp] theorem State.setFlag_csi (s : State) (k i : Nat) (b : Bool) : (s.setFlag k i b).csi = s.csi := rfl
@[simp] theorem State.setFlag_eth (s : State) (k i : Nat) (b : Bool) : (s.setFlag k i b).eth = s.eth := rfl
@[simp] theorem State.setFlag_resp (s : State) (k i : Nat) (b : Bool) : (s.setFlag k i b).resp = s.resp := rfl
@[simp] theorem State.setFlag_out (s : State) (k i : Nat) (b : Bool) : (s.setFlag k i b).out = s.out := rfl
@[simp] theorem State.setFlag_free (s : State) (k i : Nat) (b : Bool) : (s.setFlag k i b).free = s.free := rfl
@[simp] theorem State.setFlag_pending (s : State) (k i : Nat) (b : Bool) : (s.setFlag k i b).pending = s.pending := rfl

@[simp] theorem State.wr64_now (s : State) (k v : Nat) : (s.wr64 k v).now = s.now := rfl
@[simp] theorem State.wr64_phase (s : State) (k v : Nat) : (s.wr64 k v).phase = s.phase := rfl
@[simp] theorem State.wr64_mem (s : State) (k v : Nat) : (s.wr64 k v).mem = s.mem := rfl
@[simp] theorem State.wr64_badWords (s : State) (k v : Nat) : (s.wr64 k v).badWords = s.badWords := rfl
@[simp] theorem State.wr64_locks (s : State) (k v : Nat) : (s.wr64 k v).locks = s.locks := rfl
@[simp] theorem State.wr64_queues (s : State) (k v : Nat) : (s.wr64 k v).queues = s.queues := rfl
@[simp] theorem State.wr64_qcmds (s : State) (k v : Nat) : (s.wr64 k v).qcmds = s.qcmds := rfl
@[simp] theorem State.wr64_frozen (s : State) (k v : Nat) : (s.wr64 k v).frozen = s.frozen := rfl
@[simp] theorem State.wr64_held (s : State) (k v : Nat) : (s.wr64 k v).held = s.held := rfl
@[simp] theorem State.wr64_waiting (s : State) (k v : Nat) : (s.wr64 k v).waiting = s.waiting := rfl
@[simp] theorem State.wr64_armed (s : State) (k v : Nat) : (s.wr64 k v).armed = s.armed := rfl
@[simp] theorem State.wr64_unfreezing (s : State) (k v : Nat) : (s.wr64 k v).unfreezing = s.unfreezing := rfl
@[simp] theorem State.wr64_log (s : State) (k v : Nat) : (s.wr64 k v).log = s.log := rfl
@[simp] theorem State.wr64_fwl (s : State) (k v : Nat) : (s.wr64 k v).fwl = s.fwl := rfl
@[simp] theorem State.wr64_merid (s : State) (k v : Nat) : (s.wr64 k v).merid = s.merid := rfl
@[simp] theorem State.wr64_watch (s : State) (k v : Nat) : (s.wr64 k v).watch = s.watch := rfl
@[simp] theorem State.wr64_pwr (s : State) (k v : Nat) : (s.wr64 k v).pwr = s.pwr := rfl
@[simp] theorem State.wr64_plate (s : State) (k v : Nat) : (s.wr64 k v).plate = s.plate := rfl
@[simp] theorem State.wr64_spares (s : State) (k v : Nat) : (s.wr64 k v).spares = s.spares := rfl
@[simp] theorem State.wr64_wins (s : State) (k v : Nat) : (s.wr64 k v).wins = s.wins := rfl
@[simp] theorem State.wr64_bind (s : State) (k v : Nat) : (s.wr64 k v).bind = s.bind := rfl
@[simp] theorem State.wr64_bootBind (s : State) (k v : Nat) : (s.wr64 k v).bootBind = s.bootBind := rfl
@[simp] theorem State.wr64_bindSt (s : State) (k v : Nat) : (s.wr64 k v).bindSt = s.bindSt := rfl
@[simp] theorem State.wr64_domes (s : State) (k v : Nat) : (s.wr64 k v).domes = s.domes := rfl
@[simp] theorem State.wr64_walkers (s : State) (k v : Nat) : (s.wr64 k v).walkers = s.walkers := rfl
@[simp] theorem State.wr64_sched (s : State) (k v : Nat) : (s.wr64 k v).sched = s.sched := rfl
@[simp] theorem State.wr64_link (s : State) (k v : Nat) : (s.wr64 k v).link = s.link := rfl
@[simp] theorem State.wr64_solv (s : State) (k v : Nat) : (s.wr64 k v).solv = s.solv := rfl
@[simp] theorem State.wr64_cvu (s : State) (k v : Nat) : (s.wr64 k v).cvu = s.cvu := rfl
@[simp] theorem State.wr64_can (s : State) (k v : Nat) : (s.wr64 k v).can = s.can := rfl
@[simp] theorem State.wr64_spiUntil (s : State) (k v : Nat) : (s.wr64 k v).spiUntil = s.spiUntil := rfl
@[simp] theorem State.wr64_seeds (s : State) (k v : Nat) : (s.wr64 k v).seeds = s.seeds := rfl
@[simp] theorem State.wr64_openQam0 (s : State) (k v : Nat) : (s.wr64 k v).openQam0 = s.openQam0 := rfl
@[simp] theorem State.wr64_openQam1 (s : State) (k v : Nat) : (s.wr64 k v).openQam1 = s.openQam1 := rfl
@[simp] theorem State.wr64_drive (s : State) (k v : Nat) : (s.wr64 k v).drive = s.drive := rfl
@[simp] theorem State.wr64_occ (s : State) (k v : Nat) : (s.wr64 k v).occ = s.occ := rfl
@[simp] theorem State.wr64_afu (s : State) (k v : Nat) : (s.wr64 k v).afu = s.afu := rfl
@[simp] theorem State.wr64_boot (s : State) (k v : Nat) : (s.wr64 k v).boot = s.boot := rfl
@[simp] theorem State.wr64_age (s : State) (k v : Nat) : (s.wr64 k v).age = s.age := rfl
@[simp] theorem State.wr64_csi (s : State) (k v : Nat) : (s.wr64 k v).csi = s.csi := rfl
@[simp] theorem State.wr64_eth (s : State) (k v : Nat) : (s.wr64 k v).eth = s.eth := rfl
@[simp] theorem State.wr64_resp (s : State) (k v : Nat) : (s.wr64 k v).resp = s.resp := rfl
@[simp] theorem State.wr64_out (s : State) (k v : Nat) : (s.wr64 k v).out = s.out := rfl
@[simp] theorem State.wr64_free (s : State) (k v : Nat) : (s.wr64 k v).free = s.free := rfl
@[simp] theorem State.wr64_pending (s : State) (k v : Nat) : (s.wr64 k v).pending = s.pending := rfl

@[simp] theorem State.addSat_now (s : State) (k hi lo n : Nat) : (s.addSat k hi lo n).now = s.now := rfl
@[simp] theorem State.addSat_phase (s : State) (k hi lo n : Nat) : (s.addSat k hi lo n).phase = s.phase := rfl
@[simp] theorem State.addSat_mem (s : State) (k hi lo n : Nat) : (s.addSat k hi lo n).mem = s.mem := rfl
@[simp] theorem State.addSat_badWords (s : State) (k hi lo n : Nat) : (s.addSat k hi lo n).badWords = s.badWords := rfl
@[simp] theorem State.addSat_locks (s : State) (k hi lo n : Nat) : (s.addSat k hi lo n).locks = s.locks := rfl
@[simp] theorem State.addSat_queues (s : State) (k hi lo n : Nat) : (s.addSat k hi lo n).queues = s.queues := rfl
@[simp] theorem State.addSat_qcmds (s : State) (k hi lo n : Nat) : (s.addSat k hi lo n).qcmds = s.qcmds := rfl
@[simp] theorem State.addSat_frozen (s : State) (k hi lo n : Nat) : (s.addSat k hi lo n).frozen = s.frozen := rfl
@[simp] theorem State.addSat_held (s : State) (k hi lo n : Nat) : (s.addSat k hi lo n).held = s.held := rfl
@[simp] theorem State.addSat_waiting (s : State) (k hi lo n : Nat) : (s.addSat k hi lo n).waiting = s.waiting := rfl
@[simp] theorem State.addSat_armed (s : State) (k hi lo n : Nat) : (s.addSat k hi lo n).armed = s.armed := rfl
@[simp] theorem State.addSat_unfreezing (s : State) (k hi lo n : Nat) : (s.addSat k hi lo n).unfreezing = s.unfreezing := rfl
@[simp] theorem State.addSat_log (s : State) (k hi lo n : Nat) : (s.addSat k hi lo n).log = s.log := rfl
@[simp] theorem State.addSat_fwl (s : State) (k hi lo n : Nat) : (s.addSat k hi lo n).fwl = s.fwl := rfl
@[simp] theorem State.addSat_merid (s : State) (k hi lo n : Nat) : (s.addSat k hi lo n).merid = s.merid := rfl
@[simp] theorem State.addSat_watch (s : State) (k hi lo n : Nat) : (s.addSat k hi lo n).watch = s.watch := rfl
@[simp] theorem State.addSat_pwr (s : State) (k hi lo n : Nat) : (s.addSat k hi lo n).pwr = s.pwr := rfl
@[simp] theorem State.addSat_plate (s : State) (k hi lo n : Nat) : (s.addSat k hi lo n).plate = s.plate := rfl
@[simp] theorem State.addSat_spares (s : State) (k hi lo n : Nat) : (s.addSat k hi lo n).spares = s.spares := rfl
@[simp] theorem State.addSat_wins (s : State) (k hi lo n : Nat) : (s.addSat k hi lo n).wins = s.wins := rfl
@[simp] theorem State.addSat_bind (s : State) (k hi lo n : Nat) : (s.addSat k hi lo n).bind = s.bind := rfl
@[simp] theorem State.addSat_bootBind (s : State) (k hi lo n : Nat) : (s.addSat k hi lo n).bootBind = s.bootBind := rfl
@[simp] theorem State.addSat_bindSt (s : State) (k hi lo n : Nat) : (s.addSat k hi lo n).bindSt = s.bindSt := rfl
@[simp] theorem State.addSat_domes (s : State) (k hi lo n : Nat) : (s.addSat k hi lo n).domes = s.domes := rfl
@[simp] theorem State.addSat_walkers (s : State) (k hi lo n : Nat) : (s.addSat k hi lo n).walkers = s.walkers := rfl
@[simp] theorem State.addSat_sched (s : State) (k hi lo n : Nat) : (s.addSat k hi lo n).sched = s.sched := rfl
@[simp] theorem State.addSat_link (s : State) (k hi lo n : Nat) : (s.addSat k hi lo n).link = s.link := rfl
@[simp] theorem State.addSat_solv (s : State) (k hi lo n : Nat) : (s.addSat k hi lo n).solv = s.solv := rfl
@[simp] theorem State.addSat_cvu (s : State) (k hi lo n : Nat) : (s.addSat k hi lo n).cvu = s.cvu := rfl
@[simp] theorem State.addSat_can (s : State) (k hi lo n : Nat) : (s.addSat k hi lo n).can = s.can := rfl
@[simp] theorem State.addSat_spiUntil (s : State) (k hi lo n : Nat) : (s.addSat k hi lo n).spiUntil = s.spiUntil := rfl
@[simp] theorem State.addSat_seeds (s : State) (k hi lo n : Nat) : (s.addSat k hi lo n).seeds = s.seeds := rfl
@[simp] theorem State.addSat_openQam0 (s : State) (k hi lo n : Nat) : (s.addSat k hi lo n).openQam0 = s.openQam0 := rfl
@[simp] theorem State.addSat_openQam1 (s : State) (k hi lo n : Nat) : (s.addSat k hi lo n).openQam1 = s.openQam1 := rfl
@[simp] theorem State.addSat_drive (s : State) (k hi lo n : Nat) : (s.addSat k hi lo n).drive = s.drive := rfl
@[simp] theorem State.addSat_occ (s : State) (k hi lo n : Nat) : (s.addSat k hi lo n).occ = s.occ := rfl
@[simp] theorem State.addSat_afu (s : State) (k hi lo n : Nat) : (s.addSat k hi lo n).afu = s.afu := rfl
@[simp] theorem State.addSat_boot (s : State) (k hi lo n : Nat) : (s.addSat k hi lo n).boot = s.boot := rfl
@[simp] theorem State.addSat_age (s : State) (k hi lo n : Nat) : (s.addSat k hi lo n).age = s.age := rfl
@[simp] theorem State.addSat_csi (s : State) (k hi lo n : Nat) : (s.addSat k hi lo n).csi = s.csi := rfl
@[simp] theorem State.addSat_eth (s : State) (k hi lo n : Nat) : (s.addSat k hi lo n).eth = s.eth := rfl
@[simp] theorem State.addSat_resp (s : State) (k hi lo n : Nat) : (s.addSat k hi lo n).resp = s.resp := rfl
@[simp] theorem State.addSat_out (s : State) (k hi lo n : Nat) : (s.addSat k hi lo n).out = s.out := rfl
@[simp] theorem State.addSat_free (s : State) (k hi lo n : Nat) : (s.addSat k hi lo n).free = s.free := rfl
@[simp] theorem State.addSat_pending (s : State) (k hi lo n : Nat) : (s.addSat k hi lo n).pending = s.pending := rfl

@[simp] theorem State.count_now (s : State) (r k n : Nat) : (s.count r k n).now = s.now := rfl
@[simp] theorem State.count_phase (s : State) (r k n : Nat) : (s.count r k n).phase = s.phase := rfl
@[simp] theorem State.count_mem (s : State) (r k n : Nat) : (s.count r k n).mem = s.mem := rfl
@[simp] theorem State.count_badWords (s : State) (r k n : Nat) : (s.count r k n).badWords = s.badWords := rfl
@[simp] theorem State.count_locks (s : State) (r k n : Nat) : (s.count r k n).locks = s.locks := rfl
@[simp] theorem State.count_queues (s : State) (r k n : Nat) : (s.count r k n).queues = s.queues := rfl
@[simp] theorem State.count_qcmds (s : State) (r k n : Nat) : (s.count r k n).qcmds = s.qcmds := rfl
@[simp] theorem State.count_frozen (s : State) (r k n : Nat) : (s.count r k n).frozen = s.frozen := rfl
@[simp] theorem State.count_held (s : State) (r k n : Nat) : (s.count r k n).held = s.held := rfl
@[simp] theorem State.count_waiting (s : State) (r k n : Nat) : (s.count r k n).waiting = s.waiting := rfl
@[simp] theorem State.count_armed (s : State) (r k n : Nat) : (s.count r k n).armed = s.armed := rfl
@[simp] theorem State.count_unfreezing (s : State) (r k n : Nat) : (s.count r k n).unfreezing = s.unfreezing := rfl
@[simp] theorem State.count_log (s : State) (r k n : Nat) : (s.count r k n).log = s.log := rfl
@[simp] theorem State.count_fwl (s : State) (r k n : Nat) : (s.count r k n).fwl = s.fwl := rfl
@[simp] theorem State.count_merid (s : State) (r k n : Nat) : (s.count r k n).merid = s.merid := rfl
@[simp] theorem State.count_watch (s : State) (r k n : Nat) : (s.count r k n).watch = s.watch := rfl
@[simp] theorem State.count_pwr (s : State) (r k n : Nat) : (s.count r k n).pwr = s.pwr := rfl
@[simp] theorem State.count_plate (s : State) (r k n : Nat) : (s.count r k n).plate = s.plate := rfl
@[simp] theorem State.count_spares (s : State) (r k n : Nat) : (s.count r k n).spares = s.spares := rfl
@[simp] theorem State.count_wins (s : State) (r k n : Nat) : (s.count r k n).wins = s.wins := rfl
@[simp] theorem State.count_bind (s : State) (r k n : Nat) : (s.count r k n).bind = s.bind := rfl
@[simp] theorem State.count_bootBind (s : State) (r k n : Nat) : (s.count r k n).bootBind = s.bootBind := rfl
@[simp] theorem State.count_bindSt (s : State) (r k n : Nat) : (s.count r k n).bindSt = s.bindSt := rfl
@[simp] theorem State.count_domes (s : State) (r k n : Nat) : (s.count r k n).domes = s.domes := rfl
@[simp] theorem State.count_walkers (s : State) (r k n : Nat) : (s.count r k n).walkers = s.walkers := rfl
@[simp] theorem State.count_sched (s : State) (r k n : Nat) : (s.count r k n).sched = s.sched := rfl
@[simp] theorem State.count_link (s : State) (r k n : Nat) : (s.count r k n).link = s.link := rfl
@[simp] theorem State.count_solv (s : State) (r k n : Nat) : (s.count r k n).solv = s.solv := rfl
@[simp] theorem State.count_cvu (s : State) (r k n : Nat) : (s.count r k n).cvu = s.cvu := rfl
@[simp] theorem State.count_can (s : State) (r k n : Nat) : (s.count r k n).can = s.can := rfl
@[simp] theorem State.count_spiUntil (s : State) (r k n : Nat) : (s.count r k n).spiUntil = s.spiUntil := rfl
@[simp] theorem State.count_seeds (s : State) (r k n : Nat) : (s.count r k n).seeds = s.seeds := rfl
@[simp] theorem State.count_openQam0 (s : State) (r k n : Nat) : (s.count r k n).openQam0 = s.openQam0 := rfl
@[simp] theorem State.count_openQam1 (s : State) (r k n : Nat) : (s.count r k n).openQam1 = s.openQam1 := rfl
@[simp] theorem State.count_drive (s : State) (r k n : Nat) : (s.count r k n).drive = s.drive := rfl
@[simp] theorem State.count_occ (s : State) (r k n : Nat) : (s.count r k n).occ = s.occ := rfl
@[simp] theorem State.count_afu (s : State) (r k n : Nat) : (s.count r k n).afu = s.afu := rfl
@[simp] theorem State.count_boot (s : State) (r k n : Nat) : (s.count r k n).boot = s.boot := rfl
@[simp] theorem State.count_age (s : State) (r k n : Nat) : (s.count r k n).age = s.age := rfl
@[simp] theorem State.count_csi (s : State) (r k n : Nat) : (s.count r k n).csi = s.csi := rfl
@[simp] theorem State.count_eth (s : State) (r k n : Nat) : (s.count r k n).eth = s.eth := rfl
@[simp] theorem State.count_resp (s : State) (r k n : Nat) : (s.count r k n).resp = s.resp := rfl
@[simp] theorem State.count_out (s : State) (r k n : Nat) : (s.count r k n).out = s.out := rfl
@[simp] theorem State.count_free (s : State) (r k n : Nat) : (s.count r k n).free = s.free := rfl
@[simp] theorem State.count_pending (s : State) (r k n : Nat) : (s.count r k n).pending = s.pending := rfl

@[simp] theorem State.countTcc_now (s : State) (r : Nat) : (s.countTcc r).now = s.now := rfl
@[simp] theorem State.countTcc_phase (s : State) (r : Nat) : (s.countTcc r).phase = s.phase := rfl
@[simp] theorem State.countTcc_mem (s : State) (r : Nat) : (s.countTcc r).mem = s.mem := rfl
@[simp] theorem State.countTcc_badWords (s : State) (r : Nat) : (s.countTcc r).badWords = s.badWords := rfl
@[simp] theorem State.countTcc_locks (s : State) (r : Nat) : (s.countTcc r).locks = s.locks := rfl
@[simp] theorem State.countTcc_queues (s : State) (r : Nat) : (s.countTcc r).queues = s.queues := rfl
@[simp] theorem State.countTcc_qcmds (s : State) (r : Nat) : (s.countTcc r).qcmds = s.qcmds := rfl
@[simp] theorem State.countTcc_frozen (s : State) (r : Nat) : (s.countTcc r).frozen = s.frozen := rfl
@[simp] theorem State.countTcc_held (s : State) (r : Nat) : (s.countTcc r).held = s.held := rfl
@[simp] theorem State.countTcc_waiting (s : State) (r : Nat) : (s.countTcc r).waiting = s.waiting := rfl
@[simp] theorem State.countTcc_armed (s : State) (r : Nat) : (s.countTcc r).armed = s.armed := rfl
@[simp] theorem State.countTcc_unfreezing (s : State) (r : Nat) : (s.countTcc r).unfreezing = s.unfreezing := rfl
@[simp] theorem State.countTcc_log (s : State) (r : Nat) : (s.countTcc r).log = s.log := rfl
@[simp] theorem State.countTcc_fwl (s : State) (r : Nat) : (s.countTcc r).fwl = s.fwl := rfl
@[simp] theorem State.countTcc_merid (s : State) (r : Nat) : (s.countTcc r).merid = s.merid := rfl
@[simp] theorem State.countTcc_watch (s : State) (r : Nat) : (s.countTcc r).watch = s.watch := rfl
@[simp] theorem State.countTcc_pwr (s : State) (r : Nat) : (s.countTcc r).pwr = s.pwr := rfl
@[simp] theorem State.countTcc_plate (s : State) (r : Nat) : (s.countTcc r).plate = s.plate := rfl
@[simp] theorem State.countTcc_spares (s : State) (r : Nat) : (s.countTcc r).spares = s.spares := rfl
@[simp] theorem State.countTcc_wins (s : State) (r : Nat) : (s.countTcc r).wins = s.wins := rfl
@[simp] theorem State.countTcc_bind (s : State) (r : Nat) : (s.countTcc r).bind = s.bind := rfl
@[simp] theorem State.countTcc_bootBind (s : State) (r : Nat) : (s.countTcc r).bootBind = s.bootBind := rfl
@[simp] theorem State.countTcc_bindSt (s : State) (r : Nat) : (s.countTcc r).bindSt = s.bindSt := rfl
@[simp] theorem State.countTcc_domes (s : State) (r : Nat) : (s.countTcc r).domes = s.domes := rfl
@[simp] theorem State.countTcc_walkers (s : State) (r : Nat) : (s.countTcc r).walkers = s.walkers := rfl
@[simp] theorem State.countTcc_sched (s : State) (r : Nat) : (s.countTcc r).sched = s.sched := rfl
@[simp] theorem State.countTcc_link (s : State) (r : Nat) : (s.countTcc r).link = s.link := rfl
@[simp] theorem State.countTcc_solv (s : State) (r : Nat) : (s.countTcc r).solv = s.solv := rfl
@[simp] theorem State.countTcc_cvu (s : State) (r : Nat) : (s.countTcc r).cvu = s.cvu := rfl
@[simp] theorem State.countTcc_can (s : State) (r : Nat) : (s.countTcc r).can = s.can := rfl
@[simp] theorem State.countTcc_spiUntil (s : State) (r : Nat) : (s.countTcc r).spiUntil = s.spiUntil := rfl
@[simp] theorem State.countTcc_seeds (s : State) (r : Nat) : (s.countTcc r).seeds = s.seeds := rfl
@[simp] theorem State.countTcc_openQam0 (s : State) (r : Nat) : (s.countTcc r).openQam0 = s.openQam0 := rfl
@[simp] theorem State.countTcc_openQam1 (s : State) (r : Nat) : (s.countTcc r).openQam1 = s.openQam1 := rfl
@[simp] theorem State.countTcc_drive (s : State) (r : Nat) : (s.countTcc r).drive = s.drive := rfl
@[simp] theorem State.countTcc_occ (s : State) (r : Nat) : (s.countTcc r).occ = s.occ := rfl
@[simp] theorem State.countTcc_afu (s : State) (r : Nat) : (s.countTcc r).afu = s.afu := rfl
@[simp] theorem State.countTcc_boot (s : State) (r : Nat) : (s.countTcc r).boot = s.boot := rfl
@[simp] theorem State.countTcc_age (s : State) (r : Nat) : (s.countTcc r).age = s.age := rfl
@[simp] theorem State.countTcc_csi (s : State) (r : Nat) : (s.countTcc r).csi = s.csi := rfl
@[simp] theorem State.countTcc_eth (s : State) (r : Nat) : (s.countTcc r).eth = s.eth := rfl
@[simp] theorem State.countTcc_resp (s : State) (r : Nat) : (s.countTcc r).resp = s.resp := rfl
@[simp] theorem State.countTcc_out (s : State) (r : Nat) : (s.countTcc r).out = s.out := rfl
@[simp] theorem State.countTcc_free (s : State) (r : Nat) : (s.countTcc r).free = s.free := rfl
@[simp] theorem State.countTcc_pending (s : State) (r : Nat) : (s.countTcc r).pending = s.pending := rfl

@[simp] theorem State.injDone_now (s : State) (r b : Nat) : (s.injDone r b).now = s.now := rfl
@[simp] theorem State.injDone_phase (s : State) (r b : Nat) : (s.injDone r b).phase = s.phase := rfl
@[simp] theorem State.injDone_mem (s : State) (r b : Nat) : (s.injDone r b).mem = s.mem := rfl
@[simp] theorem State.injDone_badWords (s : State) (r b : Nat) : (s.injDone r b).badWords = s.badWords := rfl
@[simp] theorem State.injDone_locks (s : State) (r b : Nat) : (s.injDone r b).locks = s.locks := rfl
@[simp] theorem State.injDone_queues (s : State) (r b : Nat) : (s.injDone r b).queues = s.queues := rfl
@[simp] theorem State.injDone_qcmds (s : State) (r b : Nat) : (s.injDone r b).qcmds = s.qcmds := rfl
@[simp] theorem State.injDone_frozen (s : State) (r b : Nat) : (s.injDone r b).frozen = s.frozen := rfl
@[simp] theorem State.injDone_held (s : State) (r b : Nat) : (s.injDone r b).held = s.held := rfl
@[simp] theorem State.injDone_waiting (s : State) (r b : Nat) : (s.injDone r b).waiting = s.waiting := rfl
@[simp] theorem State.injDone_armed (s : State) (r b : Nat) : (s.injDone r b).armed = s.armed := rfl
@[simp] theorem State.injDone_unfreezing (s : State) (r b : Nat) : (s.injDone r b).unfreezing = s.unfreezing := rfl
@[simp] theorem State.injDone_log (s : State) (r b : Nat) : (s.injDone r b).log = s.log := rfl
@[simp] theorem State.injDone_fwl (s : State) (r b : Nat) : (s.injDone r b).fwl = s.fwl := rfl
@[simp] theorem State.injDone_merid (s : State) (r b : Nat) : (s.injDone r b).merid = s.merid := rfl
@[simp] theorem State.injDone_watch (s : State) (r b : Nat) : (s.injDone r b).watch = s.watch := rfl
@[simp] theorem State.injDone_pwr (s : State) (r b : Nat) : (s.injDone r b).pwr = s.pwr := rfl
@[simp] theorem State.injDone_plate (s : State) (r b : Nat) : (s.injDone r b).plate = s.plate := rfl
@[simp] theorem State.injDone_spares (s : State) (r b : Nat) : (s.injDone r b).spares = s.spares := rfl
@[simp] theorem State.injDone_wins (s : State) (r b : Nat) : (s.injDone r b).wins = s.wins := rfl
@[simp] theorem State.injDone_bind (s : State) (r b : Nat) : (s.injDone r b).bind = s.bind := rfl
@[simp] theorem State.injDone_bootBind (s : State) (r b : Nat) : (s.injDone r b).bootBind = s.bootBind := rfl
@[simp] theorem State.injDone_bindSt (s : State) (r b : Nat) : (s.injDone r b).bindSt = s.bindSt := rfl
@[simp] theorem State.injDone_domes (s : State) (r b : Nat) : (s.injDone r b).domes = s.domes := rfl
@[simp] theorem State.injDone_walkers (s : State) (r b : Nat) : (s.injDone r b).walkers = s.walkers := rfl
@[simp] theorem State.injDone_sched (s : State) (r b : Nat) : (s.injDone r b).sched = s.sched := rfl
@[simp] theorem State.injDone_link (s : State) (r b : Nat) : (s.injDone r b).link = s.link := rfl
@[simp] theorem State.injDone_solv (s : State) (r b : Nat) : (s.injDone r b).solv = s.solv := rfl
@[simp] theorem State.injDone_cvu (s : State) (r b : Nat) : (s.injDone r b).cvu = s.cvu := rfl
@[simp] theorem State.injDone_can (s : State) (r b : Nat) : (s.injDone r b).can = s.can := rfl
@[simp] theorem State.injDone_spiUntil (s : State) (r b : Nat) : (s.injDone r b).spiUntil = s.spiUntil := rfl
@[simp] theorem State.injDone_seeds (s : State) (r b : Nat) : (s.injDone r b).seeds = s.seeds := rfl
@[simp] theorem State.injDone_openQam0 (s : State) (r b : Nat) : (s.injDone r b).openQam0 = s.openQam0 := rfl
@[simp] theorem State.injDone_openQam1 (s : State) (r b : Nat) : (s.injDone r b).openQam1 = s.openQam1 := rfl
@[simp] theorem State.injDone_drive (s : State) (r b : Nat) : (s.injDone r b).drive = s.drive := rfl
@[simp] theorem State.injDone_occ (s : State) (r b : Nat) : (s.injDone r b).occ = s.occ := rfl
@[simp] theorem State.injDone_afu (s : State) (r b : Nat) : (s.injDone r b).afu = s.afu := rfl
@[simp] theorem State.injDone_boot (s : State) (r b : Nat) : (s.injDone r b).boot = s.boot := rfl
@[simp] theorem State.injDone_age (s : State) (r b : Nat) : (s.injDone r b).age = s.age := rfl
@[simp] theorem State.injDone_csi (s : State) (r b : Nat) : (s.injDone r b).csi = s.csi := rfl
@[simp] theorem State.injDone_eth (s : State) (r b : Nat) : (s.injDone r b).eth = s.eth := rfl
@[simp] theorem State.injDone_resp (s : State) (r b : Nat) : (s.injDone r b).resp = s.resp := rfl
@[simp] theorem State.injDone_out (s : State) (r b : Nat) : (s.injDone r b).out = s.out := rfl
@[simp] theorem State.injDone_free (s : State) (r b : Nat) : (s.injDone r b).free = s.free := rfl
@[simp] theorem State.injDone_pending (s : State) (r b : Nat) : (s.injDone r b).pending = s.pending := rfl

@[simp] theorem State.postCause_now (s : State) (num : Nat) (island : Bool) (act : Option Nat) (inj : Bool) : (s.postCause num island act inj).now = s.now := rfl
@[simp] theorem State.postCause_phase (s : State) (num : Nat) (island : Bool) (act : Option Nat) (inj : Bool) : (s.postCause num island act inj).phase = s.phase := rfl
@[simp] theorem State.postCause_regs (s : State) (num : Nat) (island : Bool) (act : Option Nat) (inj : Bool) : (s.postCause num island act inj).regs = s.regs := rfl
@[simp] theorem State.postCause_mem (s : State) (num : Nat) (island : Bool) (act : Option Nat) (inj : Bool) : (s.postCause num island act inj).mem = s.mem := rfl
@[simp] theorem State.postCause_badWords (s : State) (num : Nat) (island : Bool) (act : Option Nat) (inj : Bool) : (s.postCause num island act inj).badWords = s.badWords := rfl
@[simp] theorem State.postCause_locks (s : State) (num : Nat) (island : Bool) (act : Option Nat) (inj : Bool) : (s.postCause num island act inj).locks = s.locks := rfl
@[simp] theorem State.postCause_queues (s : State) (num : Nat) (island : Bool) (act : Option Nat) (inj : Bool) : (s.postCause num island act inj).queues = s.queues := rfl
@[simp] theorem State.postCause_qcmds (s : State) (num : Nat) (island : Bool) (act : Option Nat) (inj : Bool) : (s.postCause num island act inj).qcmds = s.qcmds := rfl
@[simp] theorem State.postCause_frozen (s : State) (num : Nat) (island : Bool) (act : Option Nat) (inj : Bool) : (s.postCause num island act inj).frozen = s.frozen := rfl
@[simp] theorem State.postCause_held (s : State) (num : Nat) (island : Bool) (act : Option Nat) (inj : Bool) : (s.postCause num island act inj).held = s.held := rfl
@[simp] theorem State.postCause_waiting (s : State) (num : Nat) (island : Bool) (act : Option Nat) (inj : Bool) : (s.postCause num island act inj).waiting = s.waiting := rfl
@[simp] theorem State.postCause_armed (s : State) (num : Nat) (island : Bool) (act : Option Nat) (inj : Bool) : (s.postCause num island act inj).armed = s.armed := rfl
@[simp] theorem State.postCause_unfreezing (s : State) (num : Nat) (island : Bool) (act : Option Nat) (inj : Bool) : (s.postCause num island act inj).unfreezing = s.unfreezing := rfl
@[simp] theorem State.postCause_log (s : State) (num : Nat) (island : Bool) (act : Option Nat) (inj : Bool) : (s.postCause num island act inj).log = s.log := rfl
@[simp] theorem State.postCause_fwl (s : State) (num : Nat) (island : Bool) (act : Option Nat) (inj : Bool) : (s.postCause num island act inj).fwl = s.fwl := rfl
@[simp] theorem State.postCause_merid (s : State) (num : Nat) (island : Bool) (act : Option Nat) (inj : Bool) : (s.postCause num island act inj).merid = s.merid := rfl
@[simp] theorem State.postCause_pwr (s : State) (num : Nat) (island : Bool) (act : Option Nat) (inj : Bool) : (s.postCause num island act inj).pwr = s.pwr := rfl
@[simp] theorem State.postCause_plate (s : State) (num : Nat) (island : Bool) (act : Option Nat) (inj : Bool) : (s.postCause num island act inj).plate = s.plate := rfl
@[simp] theorem State.postCause_spares (s : State) (num : Nat) (island : Bool) (act : Option Nat) (inj : Bool) : (s.postCause num island act inj).spares = s.spares := rfl
@[simp] theorem State.postCause_wins (s : State) (num : Nat) (island : Bool) (act : Option Nat) (inj : Bool) : (s.postCause num island act inj).wins = s.wins := rfl
@[simp] theorem State.postCause_bind (s : State) (num : Nat) (island : Bool) (act : Option Nat) (inj : Bool) : (s.postCause num island act inj).bind = s.bind := rfl
@[simp] theorem State.postCause_bootBind (s : State) (num : Nat) (island : Bool) (act : Option Nat) (inj : Bool) : (s.postCause num island act inj).bootBind = s.bootBind := rfl
@[simp] theorem State.postCause_bindSt (s : State) (num : Nat) (island : Bool) (act : Option Nat) (inj : Bool) : (s.postCause num island act inj).bindSt = s.bindSt := rfl
@[simp] theorem State.postCause_domes (s : State) (num : Nat) (island : Bool) (act : Option Nat) (inj : Bool) : (s.postCause num island act inj).domes = s.domes := rfl
@[simp] theorem State.postCause_walkers (s : State) (num : Nat) (island : Bool) (act : Option Nat) (inj : Bool) : (s.postCause num island act inj).walkers = s.walkers := rfl
@[simp] theorem State.postCause_sched (s : State) (num : Nat) (island : Bool) (act : Option Nat) (inj : Bool) : (s.postCause num island act inj).sched = s.sched := rfl
@[simp] theorem State.postCause_link (s : State) (num : Nat) (island : Bool) (act : Option Nat) (inj : Bool) : (s.postCause num island act inj).link = s.link := rfl
@[simp] theorem State.postCause_solv (s : State) (num : Nat) (island : Bool) (act : Option Nat) (inj : Bool) : (s.postCause num island act inj).solv = s.solv := rfl
@[simp] theorem State.postCause_cvu (s : State) (num : Nat) (island : Bool) (act : Option Nat) (inj : Bool) : (s.postCause num island act inj).cvu = s.cvu := rfl
@[simp] theorem State.postCause_can (s : State) (num : Nat) (island : Bool) (act : Option Nat) (inj : Bool) : (s.postCause num island act inj).can = s.can := rfl
@[simp] theorem State.postCause_spiUntil (s : State) (num : Nat) (island : Bool) (act : Option Nat) (inj : Bool) : (s.postCause num island act inj).spiUntil = s.spiUntil := rfl
@[simp] theorem State.postCause_seeds (s : State) (num : Nat) (island : Bool) (act : Option Nat) (inj : Bool) : (s.postCause num island act inj).seeds = s.seeds := rfl
@[simp] theorem State.postCause_openQam0 (s : State) (num : Nat) (island : Bool) (act : Option Nat) (inj : Bool) : (s.postCause num island act inj).openQam0 = s.openQam0 := rfl
@[simp] theorem State.postCause_openQam1 (s : State) (num : Nat) (island : Bool) (act : Option Nat) (inj : Bool) : (s.postCause num island act inj).openQam1 = s.openQam1 := rfl
@[simp] theorem State.postCause_drive (s : State) (num : Nat) (island : Bool) (act : Option Nat) (inj : Bool) : (s.postCause num island act inj).drive = s.drive := rfl
@[simp] theorem State.postCause_occ (s : State) (num : Nat) (island : Bool) (act : Option Nat) (inj : Bool) : (s.postCause num island act inj).occ = s.occ := rfl
@[simp] theorem State.postCause_afu (s : State) (num : Nat) (island : Bool) (act : Option Nat) (inj : Bool) : (s.postCause num island act inj).afu = s.afu := rfl
@[simp] theorem State.postCause_boot (s : State) (num : Nat) (island : Bool) (act : Option Nat) (inj : Bool) : (s.postCause num island act inj).boot = s.boot := rfl
@[simp] theorem State.postCause_age (s : State) (num : Nat) (island : Bool) (act : Option Nat) (inj : Bool) : (s.postCause num island act inj).age = s.age := rfl
@[simp] theorem State.postCause_csi (s : State) (num : Nat) (island : Bool) (act : Option Nat) (inj : Bool) : (s.postCause num island act inj).csi = s.csi := rfl
@[simp] theorem State.postCause_eth (s : State) (num : Nat) (island : Bool) (act : Option Nat) (inj : Bool) : (s.postCause num island act inj).eth = s.eth := rfl
@[simp] theorem State.postCause_resp (s : State) (num : Nat) (island : Bool) (act : Option Nat) (inj : Bool) : (s.postCause num island act inj).resp = s.resp := rfl
@[simp] theorem State.postCause_out (s : State) (num : Nat) (island : Bool) (act : Option Nat) (inj : Bool) : (s.postCause num island act inj).out = s.out := rfl
@[simp] theorem State.postCause_free (s : State) (num : Nat) (island : Bool) (act : Option Nat) (inj : Bool) : (s.postCause num island act inj).free = s.free := rfl
@[simp] theorem State.postCause_pending (s : State) (num : Nat) (island : Bool) (act : Option Nat) (inj : Bool) : (s.postCause num island act inj).pending = s.pending := rfl

@[simp] theorem State.respond_now (s : State) (st : AccessStatus) (data : List Byte) : (s.respond st data).now = s.now := rfl
@[simp] theorem State.respond_phase (s : State) (st : AccessStatus) (data : List Byte) : (s.respond st data).phase = s.phase := rfl
@[simp] theorem State.respond_regs (s : State) (st : AccessStatus) (data : List Byte) : (s.respond st data).regs = s.regs := rfl
@[simp] theorem State.respond_mem (s : State) (st : AccessStatus) (data : List Byte) : (s.respond st data).mem = s.mem := rfl
@[simp] theorem State.respond_badWords (s : State) (st : AccessStatus) (data : List Byte) : (s.respond st data).badWords = s.badWords := rfl
@[simp] theorem State.respond_locks (s : State) (st : AccessStatus) (data : List Byte) : (s.respond st data).locks = s.locks := rfl
@[simp] theorem State.respond_queues (s : State) (st : AccessStatus) (data : List Byte) : (s.respond st data).queues = s.queues := rfl
@[simp] theorem State.respond_qcmds (s : State) (st : AccessStatus) (data : List Byte) : (s.respond st data).qcmds = s.qcmds := rfl
@[simp] theorem State.respond_frozen (s : State) (st : AccessStatus) (data : List Byte) : (s.respond st data).frozen = s.frozen := rfl
@[simp] theorem State.respond_held (s : State) (st : AccessStatus) (data : List Byte) : (s.respond st data).held = s.held := rfl
@[simp] theorem State.respond_waiting (s : State) (st : AccessStatus) (data : List Byte) : (s.respond st data).waiting = s.waiting := rfl
@[simp] theorem State.respond_armed (s : State) (st : AccessStatus) (data : List Byte) : (s.respond st data).armed = s.armed := rfl
@[simp] theorem State.respond_unfreezing (s : State) (st : AccessStatus) (data : List Byte) : (s.respond st data).unfreezing = s.unfreezing := rfl
@[simp] theorem State.respond_log (s : State) (st : AccessStatus) (data : List Byte) : (s.respond st data).log = s.log := rfl
@[simp] theorem State.respond_fwl (s : State) (st : AccessStatus) (data : List Byte) : (s.respond st data).fwl = s.fwl := rfl
@[simp] theorem State.respond_merid (s : State) (st : AccessStatus) (data : List Byte) : (s.respond st data).merid = s.merid := rfl
@[simp] theorem State.respond_watch (s : State) (st : AccessStatus) (data : List Byte) : (s.respond st data).watch = s.watch := rfl
@[simp] theorem State.respond_pwr (s : State) (st : AccessStatus) (data : List Byte) : (s.respond st data).pwr = s.pwr := rfl
@[simp] theorem State.respond_plate (s : State) (st : AccessStatus) (data : List Byte) : (s.respond st data).plate = s.plate := rfl
@[simp] theorem State.respond_spares (s : State) (st : AccessStatus) (data : List Byte) : (s.respond st data).spares = s.spares := rfl
@[simp] theorem State.respond_wins (s : State) (st : AccessStatus) (data : List Byte) : (s.respond st data).wins = s.wins := rfl
@[simp] theorem State.respond_bind (s : State) (st : AccessStatus) (data : List Byte) : (s.respond st data).bind = s.bind := rfl
@[simp] theorem State.respond_bootBind (s : State) (st : AccessStatus) (data : List Byte) : (s.respond st data).bootBind = s.bootBind := rfl
@[simp] theorem State.respond_bindSt (s : State) (st : AccessStatus) (data : List Byte) : (s.respond st data).bindSt = s.bindSt := rfl
@[simp] theorem State.respond_domes (s : State) (st : AccessStatus) (data : List Byte) : (s.respond st data).domes = s.domes := rfl
@[simp] theorem State.respond_walkers (s : State) (st : AccessStatus) (data : List Byte) : (s.respond st data).walkers = s.walkers := rfl
@[simp] theorem State.respond_sched (s : State) (st : AccessStatus) (data : List Byte) : (s.respond st data).sched = s.sched := rfl
@[simp] theorem State.respond_link (s : State) (st : AccessStatus) (data : List Byte) : (s.respond st data).link = s.link := rfl
@[simp] theorem State.respond_solv (s : State) (st : AccessStatus) (data : List Byte) : (s.respond st data).solv = s.solv := rfl
@[simp] theorem State.respond_cvu (s : State) (st : AccessStatus) (data : List Byte) : (s.respond st data).cvu = s.cvu := rfl
@[simp] theorem State.respond_can (s : State) (st : AccessStatus) (data : List Byte) : (s.respond st data).can = s.can := rfl
@[simp] theorem State.respond_spiUntil (s : State) (st : AccessStatus) (data : List Byte) : (s.respond st data).spiUntil = s.spiUntil := rfl
@[simp] theorem State.respond_seeds (s : State) (st : AccessStatus) (data : List Byte) : (s.respond st data).seeds = s.seeds := rfl
@[simp] theorem State.respond_openQam0 (s : State) (st : AccessStatus) (data : List Byte) : (s.respond st data).openQam0 = s.openQam0 := rfl
@[simp] theorem State.respond_openQam1 (s : State) (st : AccessStatus) (data : List Byte) : (s.respond st data).openQam1 = s.openQam1 := rfl
@[simp] theorem State.respond_drive (s : State) (st : AccessStatus) (data : List Byte) : (s.respond st data).drive = s.drive := rfl
@[simp] theorem State.respond_occ (s : State) (st : AccessStatus) (data : List Byte) : (s.respond st data).occ = s.occ := rfl
@[simp] theorem State.respond_afu (s : State) (st : AccessStatus) (data : List Byte) : (s.respond st data).afu = s.afu := rfl
@[simp] theorem State.respond_boot (s : State) (st : AccessStatus) (data : List Byte) : (s.respond st data).boot = s.boot := rfl
@[simp] theorem State.respond_age (s : State) (st : AccessStatus) (data : List Byte) : (s.respond st data).age = s.age := rfl
@[simp] theorem State.respond_csi (s : State) (st : AccessStatus) (data : List Byte) : (s.respond st data).csi = s.csi := rfl
@[simp] theorem State.respond_eth (s : State) (st : AccessStatus) (data : List Byte) : (s.respond st data).eth = s.eth := rfl
@[simp] theorem State.respond_out (s : State) (st : AccessStatus) (data : List Byte) : (s.respond st data).out = s.out := rfl
@[simp] theorem State.respond_free (s : State) (st : AccessStatus) (data : List Byte) : (s.respond st data).free = s.free := rfl
@[simp] theorem State.respond_pending (s : State) (st : AccessStatus) (data : List Byte) : (s.respond st data).pending = s.pending := rfl

@[simp] theorem State.setQueue_now (s : State) (region q : Nat) (x : Queue) : (s.setQueue region q x).now = s.now := rfl
@[simp] theorem State.setQueue_phase (s : State) (region q : Nat) (x : Queue) : (s.setQueue region q x).phase = s.phase := rfl
@[simp] theorem State.setQueue_regs (s : State) (region q : Nat) (x : Queue) : (s.setQueue region q x).regs = s.regs := rfl
@[simp] theorem State.setQueue_mem (s : State) (region q : Nat) (x : Queue) : (s.setQueue region q x).mem = s.mem := rfl
@[simp] theorem State.setQueue_badWords (s : State) (region q : Nat) (x : Queue) : (s.setQueue region q x).badWords = s.badWords := rfl
@[simp] theorem State.setQueue_locks (s : State) (region q : Nat) (x : Queue) : (s.setQueue region q x).locks = s.locks := rfl
@[simp] theorem State.setQueue_qcmds (s : State) (region q : Nat) (x : Queue) : (s.setQueue region q x).qcmds = s.qcmds := rfl
@[simp] theorem State.setQueue_frozen (s : State) (region q : Nat) (x : Queue) : (s.setQueue region q x).frozen = s.frozen := rfl
@[simp] theorem State.setQueue_held (s : State) (region q : Nat) (x : Queue) : (s.setQueue region q x).held = s.held := rfl
@[simp] theorem State.setQueue_waiting (s : State) (region q : Nat) (x : Queue) : (s.setQueue region q x).waiting = s.waiting := rfl
@[simp] theorem State.setQueue_armed (s : State) (region q : Nat) (x : Queue) : (s.setQueue region q x).armed = s.armed := rfl
@[simp] theorem State.setQueue_unfreezing (s : State) (region q : Nat) (x : Queue) : (s.setQueue region q x).unfreezing = s.unfreezing := rfl
@[simp] theorem State.setQueue_log (s : State) (region q : Nat) (x : Queue) : (s.setQueue region q x).log = s.log := rfl
@[simp] theorem State.setQueue_fwl (s : State) (region q : Nat) (x : Queue) : (s.setQueue region q x).fwl = s.fwl := rfl
@[simp] theorem State.setQueue_merid (s : State) (region q : Nat) (x : Queue) : (s.setQueue region q x).merid = s.merid := rfl
@[simp] theorem State.setQueue_watch (s : State) (region q : Nat) (x : Queue) : (s.setQueue region q x).watch = s.watch := rfl
@[simp] theorem State.setQueue_pwr (s : State) (region q : Nat) (x : Queue) : (s.setQueue region q x).pwr = s.pwr := rfl
@[simp] theorem State.setQueue_plate (s : State) (region q : Nat) (x : Queue) : (s.setQueue region q x).plate = s.plate := rfl
@[simp] theorem State.setQueue_spares (s : State) (region q : Nat) (x : Queue) : (s.setQueue region q x).spares = s.spares := rfl
@[simp] theorem State.setQueue_wins (s : State) (region q : Nat) (x : Queue) : (s.setQueue region q x).wins = s.wins := rfl
@[simp] theorem State.setQueue_bind (s : State) (region q : Nat) (x : Queue) : (s.setQueue region q x).bind = s.bind := rfl
@[simp] theorem State.setQueue_bootBind (s : State) (region q : Nat) (x : Queue) : (s.setQueue region q x).bootBind = s.bootBind := rfl
@[simp] theorem State.setQueue_bindSt (s : State) (region q : Nat) (x : Queue) : (s.setQueue region q x).bindSt = s.bindSt := rfl
@[simp] theorem State.setQueue_domes (s : State) (region q : Nat) (x : Queue) : (s.setQueue region q x).domes = s.domes := rfl
@[simp] theorem State.setQueue_walkers (s : State) (region q : Nat) (x : Queue) : (s.setQueue region q x).walkers = s.walkers := rfl
@[simp] theorem State.setQueue_sched (s : State) (region q : Nat) (x : Queue) : (s.setQueue region q x).sched = s.sched := rfl
@[simp] theorem State.setQueue_link (s : State) (region q : Nat) (x : Queue) : (s.setQueue region q x).link = s.link := rfl
@[simp] theorem State.setQueue_solv (s : State) (region q : Nat) (x : Queue) : (s.setQueue region q x).solv = s.solv := rfl
@[simp] theorem State.setQueue_cvu (s : State) (region q : Nat) (x : Queue) : (s.setQueue region q x).cvu = s.cvu := rfl
@[simp] theorem State.setQueue_can (s : State) (region q : Nat) (x : Queue) : (s.setQueue region q x).can = s.can := rfl
@[simp] theorem State.setQueue_spiUntil (s : State) (region q : Nat) (x : Queue) : (s.setQueue region q x).spiUntil = s.spiUntil := rfl
@[simp] theorem State.setQueue_seeds (s : State) (region q : Nat) (x : Queue) : (s.setQueue region q x).seeds = s.seeds := rfl
@[simp] theorem State.setQueue_openQam0 (s : State) (region q : Nat) (x : Queue) : (s.setQueue region q x).openQam0 = s.openQam0 := rfl
@[simp] theorem State.setQueue_openQam1 (s : State) (region q : Nat) (x : Queue) : (s.setQueue region q x).openQam1 = s.openQam1 := rfl
@[simp] theorem State.setQueue_drive (s : State) (region q : Nat) (x : Queue) : (s.setQueue region q x).drive = s.drive := rfl
@[simp] theorem State.setQueue_occ (s : State) (region q : Nat) (x : Queue) : (s.setQueue region q x).occ = s.occ := rfl
@[simp] theorem State.setQueue_afu (s : State) (region q : Nat) (x : Queue) : (s.setQueue region q x).afu = s.afu := rfl
@[simp] theorem State.setQueue_boot (s : State) (region q : Nat) (x : Queue) : (s.setQueue region q x).boot = s.boot := rfl
@[simp] theorem State.setQueue_age (s : State) (region q : Nat) (x : Queue) : (s.setQueue region q x).age = s.age := rfl
@[simp] theorem State.setQueue_csi (s : State) (region q : Nat) (x : Queue) : (s.setQueue region q x).csi = s.csi := rfl
@[simp] theorem State.setQueue_eth (s : State) (region q : Nat) (x : Queue) : (s.setQueue region q x).eth = s.eth := rfl
@[simp] theorem State.setQueue_resp (s : State) (region q : Nat) (x : Queue) : (s.setQueue region q x).resp = s.resp := rfl
@[simp] theorem State.setQueue_out (s : State) (region q : Nat) (x : Queue) : (s.setQueue region q x).out = s.out := rfl
@[simp] theorem State.setQueue_free (s : State) (region q : Nat) (x : Queue) : (s.setQueue region q x).free = s.free := rfl
@[simp] theorem State.setQueue_pending (s : State) (region q : Nat) (x : Queue) : (s.setQueue region q x).pending = s.pending := rfl

@[simp] theorem State.mapOp_now (s : State) (region q index : Nat) (f : Op → Op) : (s.mapOp region q index f).now = s.now := rfl
@[simp] theorem State.mapOp_phase (s : State) (region q index : Nat) (f : Op → Op) : (s.mapOp region q index f).phase = s.phase := rfl
@[simp] theorem State.mapOp_regs (s : State) (region q index : Nat) (f : Op → Op) : (s.mapOp region q index f).regs = s.regs := rfl
@[simp] theorem State.mapOp_mem (s : State) (region q index : Nat) (f : Op → Op) : (s.mapOp region q index f).mem = s.mem := rfl
@[simp] theorem State.mapOp_badWords (s : State) (region q index : Nat) (f : Op → Op) : (s.mapOp region q index f).badWords = s.badWords := rfl
@[simp] theorem State.mapOp_locks (s : State) (region q index : Nat) (f : Op → Op) : (s.mapOp region q index f).locks = s.locks := rfl
@[simp] theorem State.mapOp_qcmds (s : State) (region q index : Nat) (f : Op → Op) : (s.mapOp region q index f).qcmds = s.qcmds := rfl
@[simp] theorem State.mapOp_frozen (s : State) (region q index : Nat) (f : Op → Op) : (s.mapOp region q index f).frozen = s.frozen := rfl
@[simp] theorem State.mapOp_held (s : State) (region q index : Nat) (f : Op → Op) : (s.mapOp region q index f).held = s.held := rfl
@[simp] theorem State.mapOp_waiting (s : State) (region q index : Nat) (f : Op → Op) : (s.mapOp region q index f).waiting = s.waiting := rfl
@[simp] theorem State.mapOp_armed (s : State) (region q index : Nat) (f : Op → Op) : (s.mapOp region q index f).armed = s.armed := rfl
@[simp] theorem State.mapOp_unfreezing (s : State) (region q index : Nat) (f : Op → Op) : (s.mapOp region q index f).unfreezing = s.unfreezing := rfl
@[simp] theorem State.mapOp_log (s : State) (region q index : Nat) (f : Op → Op) : (s.mapOp region q index f).log = s.log := rfl
@[simp] theorem State.mapOp_fwl (s : State) (region q index : Nat) (f : Op → Op) : (s.mapOp region q index f).fwl = s.fwl := rfl
@[simp] theorem State.mapOp_merid (s : State) (region q index : Nat) (f : Op → Op) : (s.mapOp region q index f).merid = s.merid := rfl
@[simp] theorem State.mapOp_watch (s : State) (region q index : Nat) (f : Op → Op) : (s.mapOp region q index f).watch = s.watch := rfl
@[simp] theorem State.mapOp_pwr (s : State) (region q index : Nat) (f : Op → Op) : (s.mapOp region q index f).pwr = s.pwr := rfl
@[simp] theorem State.mapOp_plate (s : State) (region q index : Nat) (f : Op → Op) : (s.mapOp region q index f).plate = s.plate := rfl
@[simp] theorem State.mapOp_spares (s : State) (region q index : Nat) (f : Op → Op) : (s.mapOp region q index f).spares = s.spares := rfl
@[simp] theorem State.mapOp_wins (s : State) (region q index : Nat) (f : Op → Op) : (s.mapOp region q index f).wins = s.wins := rfl
@[simp] theorem State.mapOp_bind (s : State) (region q index : Nat) (f : Op → Op) : (s.mapOp region q index f).bind = s.bind := rfl
@[simp] theorem State.mapOp_bootBind (s : State) (region q index : Nat) (f : Op → Op) : (s.mapOp region q index f).bootBind = s.bootBind := rfl
@[simp] theorem State.mapOp_bindSt (s : State) (region q index : Nat) (f : Op → Op) : (s.mapOp region q index f).bindSt = s.bindSt := rfl
@[simp] theorem State.mapOp_domes (s : State) (region q index : Nat) (f : Op → Op) : (s.mapOp region q index f).domes = s.domes := rfl
@[simp] theorem State.mapOp_walkers (s : State) (region q index : Nat) (f : Op → Op) : (s.mapOp region q index f).walkers = s.walkers := rfl
@[simp] theorem State.mapOp_sched (s : State) (region q index : Nat) (f : Op → Op) : (s.mapOp region q index f).sched = s.sched := rfl
@[simp] theorem State.mapOp_link (s : State) (region q index : Nat) (f : Op → Op) : (s.mapOp region q index f).link = s.link := rfl
@[simp] theorem State.mapOp_solv (s : State) (region q index : Nat) (f : Op → Op) : (s.mapOp region q index f).solv = s.solv := rfl
@[simp] theorem State.mapOp_cvu (s : State) (region q index : Nat) (f : Op → Op) : (s.mapOp region q index f).cvu = s.cvu := rfl
@[simp] theorem State.mapOp_can (s : State) (region q index : Nat) (f : Op → Op) : (s.mapOp region q index f).can = s.can := rfl
@[simp] theorem State.mapOp_spiUntil (s : State) (region q index : Nat) (f : Op → Op) : (s.mapOp region q index f).spiUntil = s.spiUntil := rfl
@[simp] theorem State.mapOp_seeds (s : State) (region q index : Nat) (f : Op → Op) : (s.mapOp region q index f).seeds = s.seeds := rfl
@[simp] theorem State.mapOp_openQam0 (s : State) (region q index : Nat) (f : Op → Op) : (s.mapOp region q index f).openQam0 = s.openQam0 := rfl
@[simp] theorem State.mapOp_openQam1 (s : State) (region q index : Nat) (f : Op → Op) : (s.mapOp region q index f).openQam1 = s.openQam1 := rfl
@[simp] theorem State.mapOp_drive (s : State) (region q index : Nat) (f : Op → Op) : (s.mapOp region q index f).drive = s.drive := rfl
@[simp] theorem State.mapOp_occ (s : State) (region q index : Nat) (f : Op → Op) : (s.mapOp region q index f).occ = s.occ := rfl
@[simp] theorem State.mapOp_afu (s : State) (region q index : Nat) (f : Op → Op) : (s.mapOp region q index f).afu = s.afu := rfl
@[simp] theorem State.mapOp_boot (s : State) (region q index : Nat) (f : Op → Op) : (s.mapOp region q index f).boot = s.boot := rfl
@[simp] theorem State.mapOp_age (s : State) (region q index : Nat) (f : Op → Op) : (s.mapOp region q index f).age = s.age := rfl
@[simp] theorem State.mapOp_csi (s : State) (region q index : Nat) (f : Op → Op) : (s.mapOp region q index f).csi = s.csi := rfl
@[simp] theorem State.mapOp_eth (s : State) (region q index : Nat) (f : Op → Op) : (s.mapOp region q index f).eth = s.eth := rfl
@[simp] theorem State.mapOp_resp (s : State) (region q index : Nat) (f : Op → Op) : (s.mapOp region q index f).resp = s.resp := rfl
@[simp] theorem State.mapOp_out (s : State) (region q index : Nat) (f : Op → Op) : (s.mapOp region q index f).out = s.out := rfl
@[simp] theorem State.mapOp_free (s : State) (region q index : Nat) (f : Op → Op) : (s.mapOp region q index f).free = s.free := rfl
@[simp] theorem State.mapOp_pending (s : State) (region q index : Nat) (f : Op → Op) : (s.mapOp region q index f).pending = s.pending := rfl

@[simp] theorem State.start_now (s : State) (region q : Nat) (o : Op) : (s.start region q o).now = s.now := rfl
@[simp] theorem State.start_phase (s : State) (region q : Nat) (o : Op) : (s.start region q o).phase = s.phase := rfl
@[simp] theorem State.start_regs (s : State) (region q : Nat) (o : Op) : (s.start region q o).regs = s.regs := rfl
@[simp] theorem State.start_mem (s : State) (region q : Nat) (o : Op) : (s.start region q o).mem = s.mem := rfl
@[simp] theorem State.start_badWords (s : State) (region q : Nat) (o : Op) : (s.start region q o).badWords = s.badWords := rfl
@[simp] theorem State.start_locks (s : State) (region q : Nat) (o : Op) : (s.start region q o).locks = s.locks := rfl
@[simp] theorem State.start_qcmds (s : State) (region q : Nat) (o : Op) : (s.start region q o).qcmds = s.qcmds := rfl
@[simp] theorem State.start_frozen (s : State) (region q : Nat) (o : Op) : (s.start region q o).frozen = s.frozen := rfl
@[simp] theorem State.start_held (s : State) (region q : Nat) (o : Op) : (s.start region q o).held = s.held := rfl
@[simp] theorem State.start_waiting (s : State) (region q : Nat) (o : Op) : (s.start region q o).waiting = s.waiting := rfl
@[simp] theorem State.start_armed (s : State) (region q : Nat) (o : Op) : (s.start region q o).armed = s.armed := rfl
@[simp] theorem State.start_unfreezing (s : State) (region q : Nat) (o : Op) : (s.start region q o).unfreezing = s.unfreezing := rfl
@[simp] theorem State.start_log (s : State) (region q : Nat) (o : Op) : (s.start region q o).log = s.log := rfl
@[simp] theorem State.start_fwl (s : State) (region q : Nat) (o : Op) : (s.start region q o).fwl = s.fwl := rfl
@[simp] theorem State.start_merid (s : State) (region q : Nat) (o : Op) : (s.start region q o).merid = s.merid := rfl
@[simp] theorem State.start_watch (s : State) (region q : Nat) (o : Op) : (s.start region q o).watch = s.watch := rfl
@[simp] theorem State.start_pwr (s : State) (region q : Nat) (o : Op) : (s.start region q o).pwr = s.pwr := rfl
@[simp] theorem State.start_plate (s : State) (region q : Nat) (o : Op) : (s.start region q o).plate = s.plate := rfl
@[simp] theorem State.start_spares (s : State) (region q : Nat) (o : Op) : (s.start region q o).spares = s.spares := rfl
@[simp] theorem State.start_wins (s : State) (region q : Nat) (o : Op) : (s.start region q o).wins = s.wins := rfl
@[simp] theorem State.start_bind (s : State) (region q : Nat) (o : Op) : (s.start region q o).bind = s.bind := rfl
@[simp] theorem State.start_bootBind (s : State) (region q : Nat) (o : Op) : (s.start region q o).bootBind = s.bootBind := rfl
@[simp] theorem State.start_bindSt (s : State) (region q : Nat) (o : Op) : (s.start region q o).bindSt = s.bindSt := rfl
@[simp] theorem State.start_domes (s : State) (region q : Nat) (o : Op) : (s.start region q o).domes = s.domes := rfl
@[simp] theorem State.start_walkers (s : State) (region q : Nat) (o : Op) : (s.start region q o).walkers = s.walkers := rfl
@[simp] theorem State.start_sched (s : State) (region q : Nat) (o : Op) : (s.start region q o).sched = s.sched := rfl
@[simp] theorem State.start_link (s : State) (region q : Nat) (o : Op) : (s.start region q o).link = s.link := rfl
@[simp] theorem State.start_solv (s : State) (region q : Nat) (o : Op) : (s.start region q o).solv = s.solv := rfl
@[simp] theorem State.start_cvu (s : State) (region q : Nat) (o : Op) : (s.start region q o).cvu = s.cvu := rfl
@[simp] theorem State.start_can (s : State) (region q : Nat) (o : Op) : (s.start region q o).can = s.can := rfl
@[simp] theorem State.start_spiUntil (s : State) (region q : Nat) (o : Op) : (s.start region q o).spiUntil = s.spiUntil := rfl
@[simp] theorem State.start_seeds (s : State) (region q : Nat) (o : Op) : (s.start region q o).seeds = s.seeds := rfl
@[simp] theorem State.start_openQam0 (s : State) (region q : Nat) (o : Op) : (s.start region q o).openQam0 = s.openQam0 := rfl
@[simp] theorem State.start_openQam1 (s : State) (region q : Nat) (o : Op) : (s.start region q o).openQam1 = s.openQam1 := rfl
@[simp] theorem State.start_drive (s : State) (region q : Nat) (o : Op) : (s.start region q o).drive = s.drive := rfl
@[simp] theorem State.start_occ (s : State) (region q : Nat) (o : Op) : (s.start region q o).occ = s.occ := rfl
@[simp] theorem State.start_afu (s : State) (region q : Nat) (o : Op) : (s.start region q o).afu = s.afu := rfl
@[simp] theorem State.start_boot (s : State) (region q : Nat) (o : Op) : (s.start region q o).boot = s.boot := rfl
@[simp] theorem State.start_age (s : State) (region q : Nat) (o : Op) : (s.start region q o).age = s.age := rfl
@[simp] theorem State.start_csi (s : State) (region q : Nat) (o : Op) : (s.start region q o).csi = s.csi := rfl
@[simp] theorem State.start_eth (s : State) (region q : Nat) (o : Op) : (s.start region q o).eth = s.eth := rfl
@[simp] theorem State.start_resp (s : State) (region q : Nat) (o : Op) : (s.start region q o).resp = s.resp := rfl
@[simp] theorem State.start_out (s : State) (region q : Nat) (o : Op) : (s.start region q o).out = s.out := rfl
@[simp] theorem State.start_free (s : State) (region q : Nat) (o : Op) : (s.start region q o).free = s.free := rfl
@[simp] theorem State.start_pending (s : State) (region q : Nat) (o : Op) : (s.start region q o).pending = s.pending := rfl

@[simp] theorem State.withPending_now (s : State) (cs : List Instr) : (s.withPending cs).now = s.now := rfl
@[simp] theorem State.withPending_phase (s : State) (cs : List Instr) : (s.withPending cs).phase = s.phase := rfl
@[simp] theorem State.withPending_regs (s : State) (cs : List Instr) : (s.withPending cs).regs = s.regs := rfl
@[simp] theorem State.withPending_mem (s : State) (cs : List Instr) : (s.withPending cs).mem = s.mem := rfl
@[simp] theorem State.withPending_badWords (s : State) (cs : List Instr) : (s.withPending cs).badWords = s.badWords := rfl
@[simp] theorem State.withPending_locks (s : State) (cs : List Instr) : (s.withPending cs).locks = s.locks := rfl
@[simp] theorem State.withPending_queues (s : State) (cs : List Instr) : (s.withPending cs).queues = s.queues := rfl
@[simp] theorem State.withPending_qcmds (s : State) (cs : List Instr) : (s.withPending cs).qcmds = s.qcmds := rfl
@[simp] theorem State.withPending_frozen (s : State) (cs : List Instr) : (s.withPending cs).frozen = s.frozen := rfl
@[simp] theorem State.withPending_held (s : State) (cs : List Instr) : (s.withPending cs).held = s.held := rfl
@[simp] theorem State.withPending_waiting (s : State) (cs : List Instr) : (s.withPending cs).waiting = s.waiting := rfl
@[simp] theorem State.withPending_armed (s : State) (cs : List Instr) : (s.withPending cs).armed = s.armed := rfl
@[simp] theorem State.withPending_unfreezing (s : State) (cs : List Instr) : (s.withPending cs).unfreezing = s.unfreezing := rfl
@[simp] theorem State.withPending_log (s : State) (cs : List Instr) : (s.withPending cs).log = s.log := rfl
@[simp] theorem State.withPending_fwl (s : State) (cs : List Instr) : (s.withPending cs).fwl = s.fwl := rfl
@[simp] theorem State.withPending_merid (s : State) (cs : List Instr) : (s.withPending cs).merid = s.merid := rfl
@[simp] theorem State.withPending_watch (s : State) (cs : List Instr) : (s.withPending cs).watch = s.watch := rfl
@[simp] theorem State.withPending_pwr (s : State) (cs : List Instr) : (s.withPending cs).pwr = s.pwr := rfl
@[simp] theorem State.withPending_plate (s : State) (cs : List Instr) : (s.withPending cs).plate = s.plate := rfl
@[simp] theorem State.withPending_spares (s : State) (cs : List Instr) : (s.withPending cs).spares = s.spares := rfl
@[simp] theorem State.withPending_wins (s : State) (cs : List Instr) : (s.withPending cs).wins = s.wins := rfl
@[simp] theorem State.withPending_bind (s : State) (cs : List Instr) : (s.withPending cs).bind = s.bind := rfl
@[simp] theorem State.withPending_bootBind (s : State) (cs : List Instr) : (s.withPending cs).bootBind = s.bootBind := rfl
@[simp] theorem State.withPending_bindSt (s : State) (cs : List Instr) : (s.withPending cs).bindSt = s.bindSt := rfl
@[simp] theorem State.withPending_domes (s : State) (cs : List Instr) : (s.withPending cs).domes = s.domes := rfl
@[simp] theorem State.withPending_walkers (s : State) (cs : List Instr) : (s.withPending cs).walkers = s.walkers := rfl
@[simp] theorem State.withPending_sched (s : State) (cs : List Instr) : (s.withPending cs).sched = s.sched := rfl
@[simp] theorem State.withPending_link (s : State) (cs : List Instr) : (s.withPending cs).link = s.link := rfl
@[simp] theorem State.withPending_solv (s : State) (cs : List Instr) : (s.withPending cs).solv = s.solv := rfl
@[simp] theorem State.withPending_cvu (s : State) (cs : List Instr) : (s.withPending cs).cvu = s.cvu := rfl
@[simp] theorem State.withPending_can (s : State) (cs : List Instr) : (s.withPending cs).can = s.can := rfl
@[simp] theorem State.withPending_spiUntil (s : State) (cs : List Instr) : (s.withPending cs).spiUntil = s.spiUntil := rfl
@[simp] theorem State.withPending_seeds (s : State) (cs : List Instr) : (s.withPending cs).seeds = s.seeds := rfl
@[simp] theorem State.withPending_openQam0 (s : State) (cs : List Instr) : (s.withPending cs).openQam0 = s.openQam0 := rfl
@[simp] theorem State.withPending_openQam1 (s : State) (cs : List Instr) : (s.withPending cs).openQam1 = s.openQam1 := rfl
@[simp] theorem State.withPending_drive (s : State) (cs : List Instr) : (s.withPending cs).drive = s.drive := rfl
@[simp] theorem State.withPending_occ (s : State) (cs : List Instr) : (s.withPending cs).occ = s.occ := rfl
@[simp] theorem State.withPending_afu (s : State) (cs : List Instr) : (s.withPending cs).afu = s.afu := rfl
@[simp] theorem State.withPending_boot (s : State) (cs : List Instr) : (s.withPending cs).boot = s.boot := rfl
@[simp] theorem State.withPending_age (s : State) (cs : List Instr) : (s.withPending cs).age = s.age := rfl
@[simp] theorem State.withPending_csi (s : State) (cs : List Instr) : (s.withPending cs).csi = s.csi := rfl
@[simp] theorem State.withPending_eth (s : State) (cs : List Instr) : (s.withPending cs).eth = s.eth := rfl
@[simp] theorem State.withPending_resp (s : State) (cs : List Instr) : (s.withPending cs).resp = s.resp := rfl
@[simp] theorem State.withPending_out (s : State) (cs : List Instr) : (s.withPending cs).out = s.out := rfl
@[simp] theorem State.withPending_free (s : State) (cs : List Instr) : (s.withPending cs).free = s.free := rfl

@[simp] theorem State.respond_resp (s : State) (st : AccessStatus) (data : List Byte) :
    (s.respond st data).resp = { status := st, data := data } := rfl
@[simp] theorem State.withPending_pending (s : State) (cs : List Instr) : (s.withPending cs).pending = cs := rfl
@[simp] theorem State.postCause_watch (s : State) (num : Nat) (island : Bool) (act : Option Nat) (inj : Bool) :
    (s.postCause num island act inj).watch = { s.watch with causes := s.watch.causes ++ [Cause.mk num island act inj] } := rfl

end Sys2Proof.Machine
end

