-- ==== Sys2Proof/Laws/Regs.lean ====
section
/-! SUPPORT. Registers: what a read gives after a write, and what an event flag, a count and a report change. -/

set_option Elab.async false

namespace Sys2Proof.Machine

/-! ### Bit fields -/

theorem bitsOf_lt (w hi lo : Nat) : bitsOf w hi lo < 2 ^ (hi + 1 - lo) := Nat.mod_lt _ (Nat.two_pow_pos _)

/-- Taking a field out of a word leaves the part above it, the field, and the part below it. -/
theorem bitsOf_split (w hi lo : Nat) (h : lo ≤ hi) :
    w = w / 2 ^ (hi + 1) * 2 ^ (hi + 1) + bitsOf w hi lo * 2 ^ lo + w % 2 ^ lo := by
  unfold bitsOf
  rw [Nat.shiftRight_eq_div_pow]
  have e : 2 ^ (hi + 1) = 2 ^ lo * 2 ^ (hi + 1 - lo) := by rw [← Nat.pow_add]; congr 1; omega
  have h1 := Nat.div_add_mod w (2 ^ lo)
  have h2 := Nat.div_add_mod (w / 2 ^ lo) (2 ^ (hi + 1 - lo))
  rw [Nat.div_div_eq_div_mul, ← e] at h2
  have e2 : w / 2 ^ (hi + 1) * 2 ^ (hi + 1) = 2 ^ lo * (2 ^ (hi + 1 - lo) * (w / 2 ^ (hi + 1))) := by
    rw [e]; ring
  rw [e2]
  calc w = 2 ^ lo * (w / 2 ^ lo) + w % 2 ^ lo := h1.symm
    _ = 2 ^ lo * (2 ^ (hi + 1 - lo) * (w / 2 ^ (hi + 1)) + w / 2 ^ lo % 2 ^ (hi + 1 - lo)) + w % 2 ^ lo := by rw [h2]
    _ = _ := by ring

/-- The natural number that `withField` spells. -/
theorem withField_toNat (w : Word) (hi lo v : Nat) (h : lo ≤ hi) (h31 : hi < 32) :
    (withField w hi lo v).toNat =
      w.toNat / 2 ^ (hi + 1) * 2 ^ (hi + 1) + v % 2 ^ (hi + 1 - lo) * 2 ^ lo + w.toNat % 2 ^ lo := by
  unfold withField
  have hs := bitsOf_split w.toNat hi lo h
  have hb := bitsOf_lt w.toNat hi lo
  simp only [BitVec.toNat_ofNat]
  have hv : v % 2 ^ (hi + 1 - lo) < 2 ^ (hi + 1 - lo) := Nat.mod_lt _ (Nat.two_pow_pos _)
  have e : 2 ^ (hi + 1) = 2 ^ (hi + 1 - lo) * 2 ^ lo := by rw [← Nat.pow_add]; congr 1; omega
  generalize hB : bitsOf w.toNat hi lo = B at *
  generalize hV : v % 2 ^ (hi + 1 - lo) = V at *
  generalize hA : w.toNat / 2 ^ (hi + 1) = A at *
  generalize hC : w.toNat % 2 ^ lo = C at *
  have hC' : C < 2 ^ lo := by rw [← hC]; exact Nat.mod_lt _ (Nat.two_pow_pos _)
  have e32 : 2 ^ 32 = 2 ^ (31 - hi) * 2 ^ (hi + 1) := by rw [← Nat.pow_add]; congr 1; omega
  have hA' : A < 2 ^ (31 - hi) := by
    rw [← hA]
    apply Nat.div_lt_of_lt_mul
    rw [Nat.mul_comm, ← e32]
    exact w.isLt
  have h1 : V * 2 ^ lo + C < 2 ^ (hi + 1) := by
    rw [e]
    calc V * 2 ^ lo + C < V * 2 ^ lo + 2 ^ lo := by omega
      _ = (V + 1) * 2 ^ lo := by ring
      _ ≤ _ := Nat.mul_le_mul_right _ hv
  have h2 : A * 2 ^ (hi + 1) + V * 2 ^ lo + C < 2 ^ 32 := by
    rw [e32]
    calc A * 2 ^ (hi + 1) + V * 2 ^ lo + C < A * 2 ^ (hi + 1) + 2 ^ (hi + 1) := by omega
      _ = (A + 1) * 2 ^ (hi + 1) := by ring
      _ ≤ _ := Nat.mul_le_mul_right _ hA'
  have h3 : w.toNat - B * 2 ^ lo + V * 2 ^ lo = A * 2 ^ (hi + 1) + V * 2 ^ lo + C := by omega
  rw [h3, Nat.mod_eq_of_lt h2]

/-- The field that was written reads as written. -/
theorem fieldOf_withField (w : Word) (hi lo v : Nat) (h : lo ≤ hi) (h31 : hi < 32) :
    fieldOf (withField w hi lo v) hi lo = v % 2 ^ (hi + 1 - lo) := by
  unfold fieldOf
  rw [withField_toNat w hi lo v h h31]
  unfold bitsOf
  rw [Nat.shiftRight_eq_div_pow]
  have e : 2 ^ (hi + 1) = 2 ^ (hi + 1 - lo) * 2 ^ lo := by rw [← Nat.pow_add]; congr 1; omega
  have hC : w.toNat % 2 ^ lo < 2 ^ lo := Nat.mod_lt _ (Nat.two_pow_pos _)
  rw [e, show w.toNat / (2 ^ (hi + 1 - lo) * 2 ^ lo) * (2 ^ (hi + 1 - lo) * 2 ^ lo) + v % 2 ^ (hi + 1 - lo) * 2 ^ lo +
      w.toNat % 2 ^ lo = w.toNat % 2 ^ lo + 2 ^ lo * (w.toNat / (2 ^ (hi + 1 - lo) * 2 ^ lo) * 2 ^ (hi + 1 - lo) +
      v % 2 ^ (hi + 1 - lo)) by ring, Nat.add_mul_div_left _ _ (Nat.two_pow_pos _), Nat.div_eq_of_lt hC, Nat.zero_add,
    Nat.mul_add_mod_self_right, Nat.mod_mod]

/-- A field above or below the one that was written is left alone. -/
theorem fieldOf_withField_ne (w : Word) (hi lo v hi' lo' : Nat) (h : lo ≤ hi) (h31 : hi < 32) (h' : lo' ≤ hi')
    (hd : hi < lo' ∨ hi' < lo) : fieldOf (withField w hi lo v) hi' lo' = fieldOf w hi' lo' := by
  unfold fieldOf
  rw [withField_toNat w hi lo v h h31]
  have hv : v % 2 ^ (hi + 1 - lo) < 2 ^ (hi + 1 - lo) := Nat.mod_lt _ (Nat.two_pow_pos _)
  have hb := bitsOf_lt w.toNat hi lo
  have hs := bitsOf_split w.toNat hi lo h
  have e : 2 ^ (hi + 1) = 2 ^ (hi + 1 - lo) * 2 ^ lo := by rw [← Nat.pow_add]; congr 1; omega
  have hC : w.toNat % 2 ^ lo < 2 ^ lo := Nat.mod_lt _ (Nat.two_pow_pos _)
  generalize v % 2 ^ (hi + 1 - lo) = V at *
  generalize bitsOf w.toNat hi lo = B at *
  rcases hd with hd | hd
  · have key : ∀ x, x < 2 ^ (hi + 1 - lo) →
        bitsOf (w.toNat / 2 ^ (hi + 1) * 2 ^ (hi + 1) + x * 2 ^ lo + w.toNat % 2 ^ lo) hi' lo' =
        w.toNat / 2 ^ (hi + 1) / 2 ^ (lo' - (hi + 1)) % 2 ^ (hi' + 1 - lo') := by
      intro x hx
      unfold bitsOf
      rw [Nat.shiftRight_eq_div_pow]
      have e3 : 2 ^ lo' = 2 ^ (hi + 1) * 2 ^ (lo' - (hi + 1)) := by rw [← Nat.pow_add]; congr 1; omega
      have hlt : x * 2 ^ lo + w.toNat % 2 ^ lo < 2 ^ (hi + 1) := by
        rw [e]
        calc x * 2 ^ lo + w.toNat % 2 ^ lo < x * 2 ^ lo + 2 ^ lo := by omega
          _ = (x + 1) * 2 ^ lo := by ring
          _ ≤ _ := Nat.mul_le_mul_right _ hx
      rw [e3, ← Nat.div_div_eq_div_mul, Nat.add_assoc, Nat.add_comm, Nat.add_mul_div_right _ _ (Nat.two_pow_pos _),
        Nat.div_eq_of_lt hlt, Nat.zero_add]
    rw [key V hv]
    conv => rhs; rw [hs]
    rw [key B hb]
  · have key : ∀ x, bitsOf (w.toNat / 2 ^ (hi + 1) * 2 ^ (hi + 1) + x * 2 ^ lo + w.toNat % 2 ^ lo) hi' lo' =
        bitsOf (w.toNat % 2 ^ lo) hi' lo' := by
      intro x
      unfold bitsOf
      rw [Nat.shiftRight_eq_div_pow, Nat.shiftRight_eq_div_pow]
      have e4 : 2 ^ lo = 2 ^ lo' * (2 ^ (hi' + 1 - lo') * 2 ^ (lo - (hi' + 1))) := by
        rw [← Nat.pow_add, ← Nat.pow_add]; congr 1; omega
      rw [e, show w.toNat / (2 ^ (hi + 1 - lo) * 2 ^ lo) * (2 ^ (hi + 1 - lo) * 2 ^ lo) + x * 2 ^ lo + w.toNat % 2 ^ lo =
          w.toNat % 2 ^ lo + 2 ^ lo * (w.toNat / (2 ^ (hi + 1 - lo) * 2 ^ lo) * 2 ^ (hi + 1 - lo) + x) by ring]
      generalize w.toNat / (2 ^ (hi + 1 - lo) * 2 ^ lo) * 2 ^ (hi + 1 - lo) + x = y
      generalize w.toNat % 2 ^ lo = c
      rw [e4, Nat.mul_assoc, Nat.add_mul_div_left _ _ (Nat.two_pow_pos _), Nat.mul_assoc, Nat.add_mul_mod_self_left]
    rw [key V]
    conv => rhs; rw [hs]
    rw [key B]

theorem getLsbD_bit (i j : Nat) : (BitVec.ofNat 32 (2 ^ i)).getLsbD j = (decide (j < 32) && decide (i = j)) := by
  rw [BitVec.getLsbD_ofNat, Nat.testBit_two_pow]

/-- The bit that was written reads as written. -/
theorem flagOf_withFlag (w : Word) (i : Nat) (b : Bool) (h : i < 32) : flagOf (withFlag w i b) i = b := by
  have hk := getLsbD_bit i i
  unfold flagOf withFlag
  generalize BitVec.ofNat 32 (2 ^ i) = m at hk
  cases b
  · simp only [Bool.false_eq_true, ↓reduceIte, BitVec.getLsbD_and, BitVec.getLsbD_not, hk]; simp [h]
  · simp only [↓reduceIte, BitVec.getLsbD_or, hk]; simp [h]

/-- Every other bit is left alone. -/
theorem flagOf_withFlag_ne (w : Word) (i j : Nat) (b : Bool) (h : i ≠ j) : flagOf (withFlag w i b) j = flagOf w j := by
  have hk := getLsbD_bit i j
  unfold flagOf withFlag
  generalize BitVec.ofNat 32 (2 ^ i) = m at hk
  by_cases hj : j < 32
  · cases b
    · simp only [Bool.false_eq_true, ↓reduceIte, BitVec.getLsbD_and, BitVec.getLsbD_not, hk]; simp [h, hj]
    · simp only [↓reduceIte, BitVec.getLsbD_or, hk]; simp [h]
  · rw [BitVec.getLsbD_of_ge _ _ (by omega), BitVec.getLsbD_of_ge _ _ (by omega)]

/-! ### Reads after writes -/

theorem State.rd_wr_ne (s : State) {j k : Nat} (w : Word) (h : j ≠ k) : (s.wr k w).rd j = s.rd j :=
  Sparse.get_set_ne _ _ _ h

theorem State.rd_wr_self (s : State) (k : Nat) (w : Word) (h : Registers.wf s.regs = true) : (s.wr k w).rd k = w :=
  Sparse.get_set_self _ _ _ h

/-- A read after a write. -/
theorem State.rd_wr (s : State) (j k : Nat) (w : Word) (h : Sparse.wf regReset s.regs = true) :
    (s.wr k w).rd j = if j = k then w else s.rd j := by
  split
  · next e => rw [e]; exact State.rd_wr_self _ _ _ h
  · next e => exact State.rd_wr_ne _ _ e

theorem State.rd_setFld (s : State) (j k hi lo v : Nat) (h : Sparse.wf regReset s.regs = true) :
    (s.setFld k hi lo v).rd j = if j = k then withField (s.rd k) hi lo v else s.rd j := State.rd_wr _ _ _ _ h

theorem State.rd_setFlag (s : State) (j k i : Nat) (b : Bool) (h : Sparse.wf regReset s.regs = true) :
    (s.setFlag k i b).rd j = if j = k then withFlag (s.rd k) i b else s.rd j := State.rd_wr _ _ _ _ h

theorem State.rd_addSat (s : State) (j k hi lo n : Nat) (h : Sparse.wf regReset s.regs = true) :
    (s.addSat k hi lo n).rd j =
      if j = k then withField (s.rd k) hi lo (satAdd (2 ^ (hi + 1 - lo) - 1) (s.fld k hi lo) n) else s.rd j :=
  State.rd_wr _ _ _ _ h

theorem State.wf_wr (s : State) (k : Nat) (w : Word) (h : Sparse.wf regReset s.regs = true) :
    Sparse.wf regReset (s.wr k w).regs = true := Sparse.wf_set _ _ _ h
theorem State.wf_setFld (s : State) (k hi lo v : Nat) (h : Sparse.wf regReset s.regs = true) :
    Sparse.wf regReset (s.setFld k hi lo v).regs = true := Sparse.wf_set _ _ _ h
theorem State.wf_setFlag (s : State) (k i : Nat) (b : Bool) (h : Sparse.wf regReset s.regs = true) :
    Sparse.wf regReset (s.setFlag k i b).regs = true := Sparse.wf_set _ _ _ h
theorem State.wf_addSat (s : State) (k hi lo n : Nat) (h : Sparse.wf regReset s.regs = true) :
    Sparse.wf regReset (s.addSat k hi lo n).regs = true := Sparse.wf_set _ _ _ h
theorem State.wf_wr64 (s : State) (k v : Nat) (h : Sparse.wf regReset s.regs = true) :
    Sparse.wf regReset (s.wr64 k v).regs = true := State.wf_wr _ _ _ (State.wf_wr _ _ _ h)
theorem State.wf_count (s : State) (r k n : Nat) (h : Sparse.wf regReset s.regs = true) :
    Sparse.wf regReset (s.count r k n).regs = true := State.wf_addSat _ _ _ _ _ (State.wf_addSat _ _ _ _ _ h)
theorem State.wf_injDone (s : State) (r b : Nat) (h : Sparse.wf regReset s.regs = true) :
    Sparse.wf regReset (s.injDone r b).regs = true := State.wf_setFlag _ _ _ _ h

/-- A 64-bit pair reads as written, modulo 2^64. -/
theorem State.rd64_wr64 (s : State) (k v : Nat) (h : Sparse.wf regReset s.regs = true) :
    (s.wr64 k v).rd64 k = v % 2 ^ 64 := by
  unfold State.rd64 State.wr64
  rw [State.rd_wr _ _ _ _ (State.wf_wr _ _ _ h), State.rd_wr _ _ _ _ (State.wf_wr _ _ _ h), State.rd_wr _ _ _ _ h]
  simp only [show ¬k = k + 4 by omega, ↓reduceIte, BitVec.toNat_ofNat]
  omega

theorem State.rd_wr64 (s : State) (j k v : Nat) (h : j ≠ k) (h' : j ≠ k + 4) : (s.wr64 k v).rd j = s.rd j :=
  (State.rd_wr_ne _ _ h').trans (State.rd_wr_ne _ _ h)

/-- A register's field after its own update. -/
theorem State.fld_setFld_self (s : State) (k hi lo v : Nat) (h : lo ≤ hi) (h31 : hi < 32) (hr : Registers.wf s.regs = true) :
    (s.setFld k hi lo v).fld k hi lo = v % 2 ^ (hi + 1 - lo) := by
  unfold State.fld State.setFld
  rw [State.rd_wr_self _ _ _ hr, fieldOf_withField _ _ _ _ h h31]

theorem State.flag_setFlag_self (s : State) (k i : Nat) (b : Bool) (h : i < 32) (hr : Registers.wf s.regs = true) :
    (s.setFlag k i b).flag k i = b := by
  unfold State.flag State.setFlag
  rw [State.rd_wr_self _ _ _ hr, flagOf_withFlag _ _ _ h]

theorem State.rd_setFld_ne (s : State) {j k : Nat} (hi lo v : Nat) (h : j ≠ k) : (s.setFld k hi lo v).rd j = s.rd j :=
  State.rd_wr_ne _ _ h

theorem State.rd_setFlag_ne (s : State) {j k : Nat} (i : Nat) (b : Bool) (h : j ≠ k) : (s.setFlag k i b).rd j = s.rd j :=
  State.rd_wr_ne _ _ h

theorem State.rd_addSat_ne (s : State) {j k : Nat} (hi lo n : Nat) (h : j ≠ k) : (s.addSat k hi lo n).rd j = s.rd j :=
  State.rd_wr_ne _ _ h

/-! ### Counts, reports and event flags -/

theorem State.dropReport_eq (s : State) (rep : Report) :
    ∃ regs_ log_, s.dropReport rep = { s with regs := regs_, log := log_ } := by
  unfold State.dropReport
  extract_lets s1
  have h1 : s1 = { s with regs := s1.regs } := rfl
  clear_value s1
  rw [h1]
  split
  · split
    · exact ⟨_, _, rfl⟩
    · exact ⟨_, s.log, rfl⟩
  · exact ⟨_, _, rfl⟩

/-- A report changes the Night Log, its source's report counter and, when it is dropped, NLLOST and the source's drop
counter: nothing else. -/
theorem State.report_eq (s : State) (rep : Report) : ∃ regs_ log_, s.report rep = { s with regs := regs_, log := log_ } := by
  unfold State.report
  extract_lets n rep' s1 l1 s2 l2
  split
  · exact ⟨s1.regs, _, rfl⟩
  · have h2 : s2 = { s with regs := s1.regs, log := s2.log } := rfl
    obtain ⟨x, y, h⟩ := State.dropReport_eq s2 rep'
    exact ⟨x, y, h.trans rfl⟩

/-- An event flag changes registers, the Night Log and what is sent out: nothing else. -/
theorem State.raise_eq (s : State) (r b : Nat) (e : Ev) :
    ∃ regs_ log_ out_, s.raise r b e = { s with regs := regs_, log := log_, out := out_ } := by
  unfold State.raise
  extract_lets was s1 s2 s3
  have h2 : ∃ regs_ out_, s2 = { s with regs := regs_, out := out_ } := by
    simp only [s2]
    repeat' split
    all_goals exact ⟨_, _, rfl⟩
  have h3 : ∃ regs_ out_, s3 = { s with regs := regs_, out := out_ } := by
    obtain ⟨x, y, h⟩ := h2
    simp only [s3]
    split
    · exact ⟨_, _, h⟩
    · exact ⟨_, _, by rw [h]; rfl⟩
  obtain ⟨x, y, h⟩ := h3
  split
  · exact ⟨_, s.log, _, h⟩
  · obtain ⟨u, v, hu⟩ := State.report_eq s3
      { src := r, code := b, inj := e.inj, itag := e.itag, detail := e.detail, queue := e.queue, index := e.index }
    exact ⟨_, _, _, by rw [hu, h]⟩

@[simp] theorem State.report_now (s : State) (rep : Report) : (s.report rep).now = s.now := by
  obtain ⟨_, _, h⟩ := State.report_eq s rep; rw [h]
@[simp] theorem State.report_phase (s : State) (rep : Report) : (s.report rep).phase = s.phase := by
  obtain ⟨_, _, h⟩ := State.report_eq s rep; rw [h]
@[simp] theorem State.report_mem (s : State) (rep : Report) : (s.report rep).mem = s.mem := by
  obtain ⟨_, _, h⟩ := State.report_eq s rep; rw [h]
@[simp] theorem State.report_badWords (s : State) (rep : Report) : (s.report rep).badWords = s.badWords := by
  obtain ⟨_, _, h⟩ := State.report_eq s rep; rw [h]
@[simp] theorem State.report_locks (s : State) (rep : Report) : (s.report rep).locks = s.locks := by
  obtain ⟨_, _, h⟩ := State.report_eq s rep; rw [h]
@[simp] theorem State.report_queues (s : State) (rep : Report) : (s.report rep).queues = s.queues := by
  obtain ⟨_, _, h⟩ := State.report_eq s rep; rw [h]
@[simp] theorem State.report_qcmds (s : State) (rep : Report) : (s.report rep).qcmds = s.qcmds := by
  obtain ⟨_, _, h⟩ := State.report_eq s rep; rw [h]
@[simp] theorem State.report_frozen (s : State) (rep : Report) : (s.report rep).frozen = s.frozen := by
  obtain ⟨_, _, h⟩ := State.report_eq s rep; rw [h]
@[simp] theorem State.report_held (s : State) (rep : Report) : (s.report rep).held = s.held := by
  obtain ⟨_, _, h⟩ := State.report_eq s rep; rw [h]
@[simp] theorem State.report_waiting (s : State) (rep : Report) : (s.report rep).waiting = s.waiting := by
  obtain ⟨_, _, h⟩ := State.report_eq s rep; rw [h]
@[simp] theorem State.report_armed (s : State) (rep : Report) : (s.report rep).armed = s.armed := by
  obtain ⟨_, _, h⟩ := State.report_eq s rep; rw [h]
@[simp] theorem State.report_unfreezing (s : State) (rep : Report) : (s.report rep).unfreezing = s.unfreezing := by
  obtain ⟨_, _, h⟩ := State.report_eq s rep; rw [h]
@[simp] theorem State.report_fwl (s : State) (rep : Report) : (s.report rep).fwl = s.fwl := by
  obtain ⟨_, _, h⟩ := State.report_eq s rep; rw [h]
@[simp] theorem State.report_merid (s : State) (rep : Report) : (s.report rep).merid = s.merid := by
  obtain ⟨_, _, h⟩ := State.report_eq s rep; rw [h]
@[simp] theorem State.report_watch (s : State) (rep : Report) : (s.report rep).watch = s.watch := by
  obtain ⟨_, _, h⟩ := State.report_eq s rep; rw [h]
@[simp] theorem State.report_pwr (s : State) (rep : Report) : (s.report rep).pwr = s.pwr := by
  obtain ⟨_, _, h⟩ := State.report_eq s rep; rw [h]
@[simp] theorem State.report_plate (s : State) (rep : Report) : (s.report rep).plate = s.plate := by
  obtain ⟨_, _, h⟩ := State.report_eq s rep; rw [h]
@[simp] theorem State.report_spares (s : State) (rep : Report) : (s.report rep).spares = s.spares := by
  obtain ⟨_, _, h⟩ := State.report_eq s rep; rw [h]
@[simp] theorem State.report_wins (s : State) (rep : Report) : (s.report rep).wins = s.wins := by
  obtain ⟨_, _, h⟩ := State.report_eq s rep; rw [h]
@[simp] theorem State.report_bind (s : State) (rep : Report) : (s.report rep).bind = s.bind := by
  obtain ⟨_, _, h⟩ := State.report_eq s rep; rw [h]
@[simp] theorem State.report_bootBind (s : State) (rep : Report) : (s.report rep).bootBind = s.bootBind := by
  obtain ⟨_, _, h⟩ := State.report_eq s rep; rw [h]
@[simp] theorem State.report_bindSt (s : State) (rep : Report) : (s.report rep).bindSt = s.bindSt := by
  obtain ⟨_, _, h⟩ := State.report_eq s rep; rw [h]
@[simp] theorem State.report_domes (s : State) (rep : Report) : (s.report rep).domes = s.domes := by
  obtain ⟨_, _, h⟩ := State.report_eq s rep; rw [h]
@[simp] theorem State.report_walkers (s : State) (rep : Report) : (s.report rep).walkers = s.walkers := by
  obtain ⟨_, _, h⟩ := State.report_eq s rep; rw [h]
@[simp] theorem State.report_sched (s : State) (rep : Report) : (s.report rep).sched = s.sched := by
  obtain ⟨_, _, h⟩ := State.report_eq s rep; rw [h]
@[simp] theorem State.report_link (s : State) (rep : Report) : (s.report rep).link = s.link := by
  obtain ⟨_, _, h⟩ := State.report_eq s rep; rw [h]
@[simp] theorem State.report_solv (s : State) (rep : Report) : (s.report rep).solv = s.solv := by
  obtain ⟨_, _, h⟩ := State.report_eq s rep; rw [h]
@[simp] theorem State.report_cvu (s : State) (rep : Report) : (s.report rep).cvu = s.cvu := by
  obtain ⟨_, _, h⟩ := State.report_eq s rep; rw [h]
@[simp] theorem State.report_can (s : State) (rep : Report) : (s.report rep).can = s.can := by
  obtain ⟨_, _, h⟩ := State.report_eq s rep; rw [h]
@[simp] theorem State.report_spiUntil (s : State) (rep : Report) : (s.report rep).spiUntil = s.spiUntil := by
  obtain ⟨_, _, h⟩ := State.report_eq s rep; rw [h]
@[simp] theorem State.report_seeds (s : State) (rep : Report) : (s.report rep).seeds = s.seeds := by
  obtain ⟨_, _, h⟩ := State.report_eq s rep; rw [h]
@[simp] theorem State.report_openQam0 (s : State) (rep : Report) : (s.report rep).openQam0 = s.openQam0 := by
  obtain ⟨_, _, h⟩ := State.report_eq s rep; rw [h]
@[simp] theorem State.report_openQam1 (s : State) (rep : Report) : (s.report rep).openQam1 = s.openQam1 := by
  obtain ⟨_, _, h⟩ := State.report_eq s rep; rw [h]
@[simp] theorem State.report_drive (s : State) (rep : Report) : (s.report rep).drive = s.drive := by
  obtain ⟨_, _, h⟩ := State.report_eq s rep; rw [h]
@[simp] theorem State.report_occ (s : State) (rep : Report) : (s.report rep).occ = s.occ := by
  obtain ⟨_, _, h⟩ := State.report_eq s rep; rw [h]
@[simp] theorem State.report_afu (s : State) (rep : Report) : (s.report rep).afu = s.afu := by
  obtain ⟨_, _, h⟩ := State.report_eq s rep; rw [h]
@[simp] theorem State.report_boot (s : State) (rep : Report) : (s.report rep).boot = s.boot := by
  obtain ⟨_, _, h⟩ := State.report_eq s rep; rw [h]
@[simp] theorem State.report_age (s : State) (rep : Report) : (s.report rep).age = s.age := by
  obtain ⟨_, _, h⟩ := State.report_eq s rep; rw [h]
@[simp] theorem State.report_csi (s : State) (rep : Report) : (s.report rep).csi = s.csi := by
  obtain ⟨_, _, h⟩ := State.report_eq s rep; rw [h]
@[simp] theorem State.report_eth (s : State) (rep : Report) : (s.report rep).eth = s.eth := by
  obtain ⟨_, _, h⟩ := State.report_eq s rep; rw [h]
@[simp] theorem State.report_resp (s : State) (rep : Report) : (s.report rep).resp = s.resp := by
  obtain ⟨_, _, h⟩ := State.report_eq s rep; rw [h]
@[simp] theorem State.report_out (s : State) (rep : Report) : (s.report rep).out = s.out := by
  obtain ⟨_, _, h⟩ := State.report_eq s rep; rw [h]
@[simp] theorem State.report_free (s : State) (rep : Report) : (s.report rep).free = s.free := by
  obtain ⟨_, _, h⟩ := State.report_eq s rep; rw [h]
@[simp] theorem State.report_pending (s : State) (rep : Report) : (s.report rep).pending = s.pending := by
  obtain ⟨_, _, h⟩ := State.report_eq s rep; rw [h]
@[simp] theorem State.raise_now (s : State) (r b : Nat) (e : Ev) : (s.raise r b e).now = s.now := by
  obtain ⟨_, _, _, h⟩ := State.raise_eq s r b e; rw [h]
@[simp] theorem State.raise_phase (s : State) (r b : Nat) (e : Ev) : (s.raise r b e).phase = s.phase := by
  obtain ⟨_, _, _, h⟩ := State.raise_eq s r b e; rw [h]
@[simp] theorem State.raise_mem (s : State) (r b : Nat) (e : Ev) : (s.raise r b e).mem = s.mem := by
  obtain ⟨_, _, _, h⟩ := State.raise_eq s r b e; rw [h]
@[simp] theorem State.raise_badWords (s : State) (r b : Nat) (e : Ev) : (s.raise r b e).badWords = s.badWords := by
  obtain ⟨_, _, _, h⟩ := State.raise_eq s r b e; rw [h]
@[simp] theorem State.raise_locks (s : State) (r b : Nat) (e : Ev) : (s.raise r b e).locks = s.locks := by
  obtain ⟨_, _, _, h⟩ := State.raise_eq s r b e; rw [h]
@[simp] theorem State.raise_queues (s : State) (r b : Nat) (e : Ev) : (s.raise r b e).queues = s.queues := by
  obtain ⟨_, _, _, h⟩ := State.raise_eq s r b e; rw [h]
@[simp] theorem State.raise_qcmds (s : State) (r b : Nat) (e : Ev) : (s.raise r b e).qcmds = s.qcmds := by
  obtain ⟨_, _, _, h⟩ := State.raise_eq s r b e; rw [h]
@[simp] theorem State.raise_frozen (s : State) (r b : Nat) (e : Ev) : (s.raise r b e).frozen = s.frozen := by
  obtain ⟨_, _, _, h⟩ := State.raise_eq s r b e; rw [h]
@[simp] theorem State.raise_held (s : State) (r b : Nat) (e : Ev) : (s.raise r b e).held = s.held := by
  obtain ⟨_, _, _, h⟩ := State.raise_eq s r b e; rw [h]
@[simp] theorem State.raise_waiting (s : State) (r b : Nat) (e : Ev) : (s.raise r b e).waiting = s.waiting := by
  obtain ⟨_, _, _, h⟩ := State.raise_eq s r b e; rw [h]
@[simp] theorem State.raise_armed (s : State) (r b : Nat) (e : Ev) : (s.raise r b e).armed = s.armed := by
  obtain ⟨_, _, _, h⟩ := State.raise_eq s r b e; rw [h]
@[simp] theorem State.raise_unfreezing (s : State) (r b : Nat) (e : Ev) : (s.raise r b e).unfreezing = s.unfreezing := by
  obtain ⟨_, _, _, h⟩ := State.raise_eq s r b e; rw [h]
@[simp] theorem State.raise_fwl (s : State) (r b : Nat) (e : Ev) : (s.raise r b e).fwl = s.fwl := by
  obtain ⟨_, _, _, h⟩ := State.raise_eq s r b e; rw [h]
@[simp] theorem State.raise_merid (s : State) (r b : Nat) (e : Ev) : (s.raise r b e).merid = s.merid := by
  obtain ⟨_, _, _, h⟩ := State.raise_eq s r b e; rw [h]
@[simp] theorem State.raise_watch (s : State) (r b : Nat) (e : Ev) : (s.raise r b e).watch = s.watch := by
  obtain ⟨_, _, _, h⟩ := State.raise_eq s r b e; rw [h]
@[simp] theorem State.raise_pwr (s : State) (r b : Nat) (e : Ev) : (s.raise r b e).pwr = s.pwr := by
  obtain ⟨_, _, _, h⟩ := State.raise_eq s r b e; rw [h]
@[simp] theorem State.raise_plate (s : State) (r b : Nat) (e : Ev) : (s.raise r b e).plate = s.plate := by
  obtain ⟨_, _, _, h⟩ := State.raise_eq s r b e; rw [h]
@[simp] theorem State.raise_spares (s : State) (r b : Nat) (e : Ev) : (s.raise r b e).spares = s.spares := by
  obtain ⟨_, _, _, h⟩ := State.raise_eq s r b e; rw [h]
@[simp] theorem State.raise_wins (s : State) (r b : Nat) (e : Ev) : (s.raise r b e).wins = s.wins := by
  obtain ⟨_, _, _, h⟩ := State.raise_eq s r b e; rw [h]
@[simp] theorem State.raise_bind (s : State) (r b : Nat) (e : Ev) : (s.raise r b e).bind = s.bind := by
  obtain ⟨_, _, _, h⟩ := State.raise_eq s r b e; rw [h]
@[simp] theorem State.raise_bootBind (s : State) (r b : Nat) (e : Ev) : (s.raise r b e).bootBind = s.bootBind := by
  obtain ⟨_, _, _, h⟩ := State.raise_eq s r b e; rw [h]
@[simp] theorem State.raise_bindSt (s : State) (r b : Nat) (e : Ev) : (s.raise r b e).bindSt = s.bindSt := by
  obtain ⟨_, _, _, h⟩ := State.raise_eq s r b e; rw [h]
@[simp] theorem State.raise_domes (s : State) (r b : Nat) (e : Ev) : (s.raise r b e).domes = s.domes := by
  obtain ⟨_, _, _, h⟩ := State.raise_eq s r b e; rw [h]
@[simp] theorem State.raise_walkers (s : State) (r b : Nat) (e : Ev) : (s.raise r b e).walkers = s.walkers := by
  obtain ⟨_, _, _, h⟩ := State.raise_eq s r b e; rw [h]
@[simp] theorem State.raise_sched (s : State) (r b : Nat) (e : Ev) : (s.raise r b e).sched = s.sched := by
  obtain ⟨_, _, _, h⟩ := State.raise_eq s r b e; rw [h]
@[simp] theorem State.raise_link (s : State) (r b : Nat) (e : Ev) : (s.raise r b e).link = s.link := by
  obtain ⟨_, _, _, h⟩ := State.raise_eq s r b e; rw [h]
@[simp] theorem State.raise_solv (s : State) (r b : Nat) (e : Ev) : (s.raise r b e).solv = s.solv := by
  obtain ⟨_, _, _, h⟩ := State.raise_eq s r b e; rw [h]
@[simp] theorem State.raise_cvu (s : State) (r b : Nat) (e : Ev) : (s.raise r b e).cvu = s.cvu := by
  obtain ⟨_, _, _, h⟩ := State.raise_eq s r b e; rw [h]
@[simp] theorem State.raise_can (s : State) (r b : Nat) (e : Ev) : (s.raise r b e).can = s.can := by
  obtain ⟨_, _, _, h⟩ := State.raise_eq s r b e; rw [h]
@[simp] theorem State.raise_spiUntil (s : State) (r b : Nat) (e : Ev) : (s.raise r b e).spiUntil = s.spiUntil := by
  obtain ⟨_, _, _, h⟩ := State.raise_eq s r b e; rw [h]
@[simp] theorem State.raise_seeds (s : State) (r b : Nat) (e : Ev) : (s.raise r b e).seeds = s.seeds := by
  obtain ⟨_, _, _, h⟩ := State.raise_eq s r b e; rw [h]
@[simp] theorem State.raise_openQam0 (s : State) (r b : Nat) (e : Ev) : (s.raise r b e).openQam0 = s.openQam0 := by
  obtain ⟨_, _, _, h⟩ := State.raise_eq s r b e; rw [h]
@[simp] theorem State.raise_openQam1 (s : State) (r b : Nat) (e : Ev) : (s.raise r b e).openQam1 = s.openQam1 := by
  obtain ⟨_, _, _, h⟩ := State.raise_eq s r b e; rw [h]
@[simp] theorem State.raise_drive (s : State) (r b : Nat) (e : Ev) : (s.raise r b e).drive = s.drive := by
  obtain ⟨_, _, _, h⟩ := State.raise_eq s r b e; rw [h]
@[simp] theorem State.raise_occ (s : State) (r b : Nat) (e : Ev) : (s.raise r b e).occ = s.occ := by
  obtain ⟨_, _, _, h⟩ := State.raise_eq s r b e; rw [h]
@[simp] theorem State.raise_afu (s : State) (r b : Nat) (e : Ev) : (s.raise r b e).afu = s.afu := by
  obtain ⟨_, _, _, h⟩ := State.raise_eq s r b e; rw [h]
@[simp] theorem State.raise_boot (s : State) (r b : Nat) (e : Ev) : (s.raise r b e).boot = s.boot := by
  obtain ⟨_, _, _, h⟩ := State.raise_eq s r b e; rw [h]
@[simp] theorem State.raise_age (s : State) (r b : Nat) (e : Ev) : (s.raise r b e).age = s.age := by
  obtain ⟨_, _, _, h⟩ := State.raise_eq s r b e; rw [h]
@[simp] theorem State.raise_csi (s : State) (r b : Nat) (e : Ev) : (s.raise r b e).csi = s.csi := by
  obtain ⟨_, _, _, h⟩ := State.raise_eq s r b e; rw [h]
@[simp] theorem State.raise_eth (s : State) (r b : Nat) (e : Ev) : (s.raise r b e).eth = s.eth := by
  obtain ⟨_, _, _, h⟩ := State.raise_eq s r b e; rw [h]
@[simp] theorem State.raise_resp (s : State) (r b : Nat) (e : Ev) : (s.raise r b e).resp = s.resp := by
  obtain ⟨_, _, _, h⟩ := State.raise_eq s r b e; rw [h]
@[simp] theorem State.raise_free (s : State) (r b : Nat) (e : Ev) : (s.raise r b e).free = s.free := by
  obtain ⟨_, _, _, h⟩ := State.raise_eq s r b e; rw [h]
@[simp] theorem State.raise_pending (s : State) (r b : Nat) (e : Ev) : (s.raise r b e).pending = s.pending := by
  obtain ⟨_, _, _, h⟩ := State.raise_eq s r b e; rw [h]

theorem State.rd_count (s : State) (r k n : Nat) {j : Nat} (h : j ∉ countKeys r k) : (s.count r k n).rd j = s.rd j := by
  simp only [countKeys, List.mem_cons, List.not_mem_nil, or_false, not_or] at h
  exact (State.rd_addSat_ne _ _ _ _ h.2).trans (State.rd_addSat_ne _ _ _ _ h.1)

theorem State.rd_dropReport (s : State) (rep : Report) {j : Nat} (h1 : j ≠ rk rWATCH 5 0x108)
    (h2 : j ≠ rk rWATCH 7 (0x700 + 4 * rep.src)) : (s.dropReport rep).rd j = s.rd j := by
  unfold State.dropReport
  extract_lets s1
  have hs : s1.rd j = s.rd j := (State.rd_addSat_ne _ _ _ _ h2).trans (State.rd_addSat_ne _ _ _ _ h1)
  split
  · split
    · exact hs
    · exact hs
  · exact hs

theorem State.rd_report (s : State) (rep : Report) {j : Nat} (h0 : j ≠ rk rWATCH 7 (0x600 + 4 * rep.src))
    (h1 : j ≠ rk rWATCH 5 0x108) (h2 : j ≠ rk rWATCH 7 (0x700 + 4 * rep.src)) : (s.report rep).rd j = s.rd j := by
  unfold State.report
  extract_lets n rep' s1 l1 s2 l2
  have hs : s1.rd j = s.rd j := State.rd_addSat_ne _ _ _ _ h0
  have hs2 : s2.rd j = s.rd j := hs
  split
  · exact hs
  · exact (State.rd_dropReport s2 rep' h1 h2).trans hs2

/-- An event changes no register but those that record it. -/
theorem State.rd_raise (s : State) (r b : Nat) (e : Ev) {j : Nat} (h : j ∉ eventKeys r) : (s.raise r b e).rd j = s.rd j := by
  simp only [eventKeys, List.mem_cons, List.not_mem_nil, or_false, not_or] at h
  obtain ⟨h0, h1, h2, h3, h4⟩ := h
  unfold State.raise
  extract_lets was s1 s2 s3
  have e1 : s1.rd j = s.rd j := State.rd_setFlag_ne _ _ _ h0
  have e2 : s2.rd j = s.rd j := by
    simp only [s2]
    split
    · exact e1
    · split <;> exact e1
  have e3 : s3.rd j = s.rd j := by
    simp only [s3]
    split
    · exact e2
    · exact (State.rd_wr_ne _ _ h1).trans e2
  split
  · exact e3
  · exact (State.rd_report s3 _ h2 h3 h4).trans e3

/-- The event's bit of BLK_ESTAT is set, and no other bit changes. -/
theorem State.raise_estat (s : State) (r b : Nat) (e : Ev) (h : Registers.wf s.regs = true) :
    (s.raise r b e).rd (kESTAT r) = withFlag (s.rd (kESTAT r)) b true := by
  have n0 : kESTAT r ≠ kEFIRST r := by unfold kESTAT kEFIRST rk; omega
  have n1 : kESTAT r ≠ rk rWATCH 7 (0x600 + 4 * r) := by unfold kESTAT rk rWATCH; omega
  have n2 : kESTAT r ≠ rk rWATCH 5 0x108 := by unfold kESTAT rk rWATCH; omega
  have n3 : kESTAT r ≠ rk rWATCH 7 (0x700 + 4 * r) := by unfold kESTAT rk rWATCH; omega
  unfold State.raise
  extract_lets was s1 s2 s3
  have e1 : s1.rd (kESTAT r) = withFlag (s.rd (kESTAT r)) b true := State.rd_wr_self _ _ _ h
  have e2 : s2.rd (kESTAT r) = withFlag (s.rd (kESTAT r)) b true := by
    simp only [s2]
    split
    · exact e1
    · split <;> exact e1
  have e3 : s3.rd (kESTAT r) = withFlag (s.rd (kESTAT r)) b true := by
    simp only [s3]
    split
    · exact e2
    · exact (State.rd_wr_ne _ _ n0).trans e2
  split
  · exact e3
  · exact (State.rd_report s3 _ n1 n2 n3).trans e3

/-- The event's bit reads 1. -/
theorem State.raise_flag (s : State) (r b : Nat) (e : Ev) (hb : b < 32) (h : Registers.wf s.regs = true) :
    (s.raise r b e).flag (kESTAT r) b = true := by
  unfold State.flag
  rw [State.raise_estat s r b e h, flagOf_withFlag _ _ _ hb]

theorem satAdd_le (top a b : Nat) : satAdd top a b ≤ top := by unfold satAdd; split <;> omega

/-- A count adds to BLK_ECNTk and stops at 0xFFFF. -/
theorem State.fld_count (s : State) (r k n : Nat) (hr : r < 40) (h : Registers.wf s.regs = true) :
    (s.count r k n).fld (kECNT r k) 15 0 = satAdd 0xFFFF (s.fld (kECNT r k) 15 0) n := by
  have n0 : kECNT r k ≠ rk rWATCH 7 (0x100 + 0x20 * r + 4 * k) := by unfold kECNT rk rWATCH; omega
  have e : (s.count r k n).rd (kECNT r k) = (s.addSat (kECNT r k) 15 0 n).rd (kECNT r k) := State.rd_addSat_ne _ _ _ _ n0
  have hle := satAdd_le 0xFFFF (s.fld (kECNT r k) 15 0) n
  unfold State.fld at *
  rw [e]
  unfold State.addSat State.setFld
  rw [State.rd_wr_self _ _ _ h, fieldOf_withField _ _ _ _ (by decide) (by decide)]
  exact Nat.mod_eq_of_lt (Nat.lt_of_le_of_lt hle (by decide))

end Sys2Proof.Machine
end

