-- ==== Sys2Proof/Laws/Access.lean ====
section
/-! SUPPORT. A register access that passes every check: what the checks leave, and that the write or the read then has its
effect. -/

set_option Elab.async false

namespace Sys2Proof.Machine

theorem State.demandPd_active (s : State) (pd : Nat) (h : s.pdState pd = 0) : s.demandPd pd = s.touch pd := by
  have ht : (s.touch pd).pdState pd = s.pdState pd := by
    unfold State.touch
    split <;> rfl
  unfold State.demandPd
  simp only [ht, h]
  simp

theorem State.pdDown_active (s : State) (pd : Nat) (h : s.pdState pd = 0) : s.pdDown pd = false := by
  unfold State.pdDown
  rw [h]
  simp

theorem State.checkSite_passes {s : State} {i : Initiator} {k : Nat} {write : Bool} (h : s.Passes i k write) :
    s.checkSite i.itag (regAddr k) (.regs k) write = (.pass, s) := by
  obtain ⟨h0, h1, h2⟩ := h.noFwInj
  unfold State.checkSite
  have hr := h.region
  have ha := h.allowed
  simp only [h.page, ↓reduceIte, show ¬40 ≤ rkRegion k by omega, State.fwCheck, h0, h1, h2, Bool.and_false, Bool.false_eq_true, ha]

theorem State.gate_reaches {s : State} {i : Initiator} {k : Nat} {v : Word} (h : s.Reaches i k v) :
    s.gate i k true v = (.ok, s.touch (s.keyPd k)) := by
  unfold State.gate
  have hp := h.passes
  simp only [hp.itag, State.checkSite_passes hp, h.mayWrite, h.fields, List.contains_eq_mem, hp.notFrozen, decide_false,
    Bool.false_eq_true, ↓reduceIte, Bool.not_true, Bool.or_self, Bool.and_false, State.pdDown_active _ _ hp.domain,
    hp.domain, State.demandPd_active _ _ hp.domain]

theorem State.gate_passes_read {s : State} {i : Initiator} {k : Nat} {v : Word} (h : s.Passes i k false) :
    s.gate i k false v = (.ok, s.touch (s.keyPd k)) := by
  unfold State.gate
  simp only [h.itag, State.checkSite_passes h, List.contains_eq_mem, h.notFrozen, decide_false,
    Bool.false_eq_true, ↓reduceIte, Bool.false_and, State.pdDown_active _ _ h.domain,
    h.domain, State.demandPd_active _ _ h.domain]

theorem State.aerInject_passes {s : State} {i : Initiator} {k : Nat} {w : Bool} (h : s.Passes i k w) :
    s.aerInject i.itag = s := by
  unfold State.aerInject
  split
  · next hc => exact absurd (h.noTlpInj hc.1) (by simp [hc.2])
  · rfl

/-- A write that passes every check has its effect and succeeds. -/
theorem State.regWrite_reaches {s : State} {i : Initiator} {k : Nat} {v : Word} (h : s.Reaches i k v) :
    s.regWrite i k v = (regEffect (s.touch (s.keyPd k)) k i.itag v).respond .ok := by
  unfold State.regWrite State.writeVia
  rw [State.aerInject_passes h.passes, State.gate_reaches h]

end Sys2Proof.Machine
end

