-- ==== Sys2Proof/Tests/Slice0.lean ====
section
/-! SUPPORT. Small tests of the model, and one witness for each statement with hypotheses: a concrete state and operands that
meet them. Expected values are taken from the spec's tables and examples or computed by hand from its rules. -/

set_option Elab.async false

namespace Sys2Proof.Machine.Tests

open Sys2Proof Sys2Proof.Machine

/-! ### Helpers -/

/-- Lockstep pair A. -/
def pairA : Initiator := { itag := 0x001#12 }

/-- A firewall descriptor that lets every ITAG reach everything. -/
def wide : FwDesc := { base := 0#32, last := 0xFFFFFFFF#32, w2 := 0x07000000#32 }

/-- The reset state with every firewall wide open: the domains' STATE fields reset to ACTIVE. -/
def cold : State := { fwl := { desc := (List.range 56).map (fun t => (64 * t, wide)) } }

def State.passesB (s : State) (i : Initiator) (k : Nat) (write : Bool) : Bool :=
  !s.frozen.contains i.itag && itagVerdict i == .pass && decide (rkRegion k < 40) && pageExists (rkRegion k) (rkPage k) &&
  s.fwPermits (rkRegion k) i.itag.toNat (regAddr k) write && !s.injArmed rFWL 0 && !s.injArmed rFWL 1 && !s.injArmed rFWL 2 &&
  !s.injArmed rPCIE 0 && s.pdState (s.keyPd k) == 0

theorem passes_of {s : State} {i : Initiator} {k : Nat} {w : Bool} (h : State.passesB s i k w = true) : s.Passes i k w := by
  simp only [State.passesB, Bool.and_eq_true, Bool.not_eq_true', List.contains_eq_mem, decide_eq_false_iff_not, beq_iff_eq,
    decide_eq_true_eq] at h
  obtain ⟨⟨⟨⟨⟨⟨⟨⟨⟨h1, h2⟩, h3⟩, h4⟩, h5⟩, h6⟩, h7⟩, h8⟩, h9⟩, h10⟩ := h
  exact ⟨h1, h2, h3, h4, h5, ⟨h6, h7, h8⟩, fun _ => h9, h10⟩

theorem reaches_of {s : State} {i : Initiator} {k : Nat} {v : Word} (h : (State.passesB s i k true &&
    s.mayWrite k i.itag.toNat && !s.changesOwned k i.itag.toNat v) = true) : s.Reaches i k v := by
  simp only [Bool.and_eq_true, Bool.not_eq_true'] at h
  exact ⟨passes_of h.1.1, h.1.2, h.2⟩

def State.canonicalB (s : State) : Bool :=
  Registers.wf s.regs && Memory.wf s.mem && Sparse.wf (fun _ => ({} : Queue)) s.queues &&
  Sparse.wf (fun _ => (none : Option QCmd)) s.qcmds && Sparse.wf (fun _ => (none : Option ArmedUnfreeze)) s.armed &&
  Sparse.wf (fun _ => ({} : SpareSt)) s.spares && Sparse.wf (fun _ => 0) s.wins && Sparse.wf bindHome s.bind &&
  Sparse.wf bindHome s.bootBind && Sparse.wf bindStDflt s.bindSt && Sparse.wf (fun _ => ({} : Dome)) s.domes &&
  Sparse.wf (fun _ => ({} : Walker)) s.walkers && Sparse.wf (fun _ => (none : Option Nat)) s.spiUntil &&
  Sparse.wf (fun _ => (none : Option Nat)) s.seeds

theorem canonical_of {s : State} (h : State.canonicalB s = true) : s.Canonical := by
  simp only [State.canonicalB, Bool.and_eq_true] at h
  obtain ⟨⟨⟨⟨⟨⟨⟨⟨⟨⟨⟨⟨⟨h1, h2⟩, h3⟩, h4⟩, h5⟩, h6⟩, h7⟩, h8⟩, h9⟩, h10⟩, h11⟩, h12⟩, h13⟩, h14⟩ := h
  exact ⟨h1, h2, h3, h4, h5, h6, h7, h8, h9, h10, h11, h12, h13, h14⟩

/-- Registers set in a state. -/
def up (l : List (Nat × Word)) (s : State := cold) : State := l.foldl (fun s x => s.wr x.1 x.2) s

theorem any_some {α : Type} {o : Option α} {p : α → Prop} [DecidablePred p] (h : o.any (fun x => decide (p x)) = true) :
    ∃ x, o = some x ∧ p x := by
  cases o with
  | none => cases h
  | some x => exact ⟨x, rfl, of_decide_eq_true h⟩

/-- Bytes placed in memory under rising keys. -/
def put (k : Nat) (bs : List Byte) (s : State) : State :=
  { s with mem := (List.range bs.length).foldl (fun m j => Sparse.set memReset m (k + j) (bs.getD j 0#8)) s.mem }

/-- A queue placed at an index of a block. -/
def withQueue (region q : Nat) (x : Queue) (s : State) : State := s.setQueue region q x

theorem cold_canonical : cold.Canonical := canonical_of (by decide +kernel)

theorem up_canonical (l : List (Nat × Word)) {s : State} (h : s.Canonical) : (up l s).Canonical := by
  unfold up
  induction l generalizing s with
  | nil => exact h
  | cons x l ih => exact ih ⟨Sparse.wf_set _ _ _ h.1, h.2⟩

theorem put_canonical (k : Nat) (bs : List Byte) {s : State} (h : s.Canonical) : (put k bs s).Canonical := by
  refine ⟨h.1, ?_, h.2.2⟩
  show Sparse.wf memReset ((List.range bs.length).foldl _ s.mem) = true
  have : ∀ (l : List Nat) (m : Sparse Byte), Sparse.wf memReset m = true →
      Sparse.wf memReset (l.foldl (fun m j => Sparse.set memReset m (k + j) (bs.getD j 0#8)) m) = true := by
    intro l
    induction l with
    | nil => exact fun _ h => h
    | cons x l ih => exact fun m h => ih _ (Sparse.wf_set _ _ _ h)
  exact this _ _ h.2.1

theorem withQueue_canonical (region q : Nat) (x : Queue) {s : State} (h : s.Canonical) : (withQueue region q x s).Canonical :=
  ⟨h.1, h.2.1, Sparse.wf_set _ _ _ h.2.2.1, h.2.2.2⟩


/-- A transaction that passed, and what it read. -/
def okAnd {α : Type} (x : Tx α × State) (p : α → State → Bool) : Bool :=
  match x.1 with
  | .ok a => p a x.2
  | _ => false

theorem any_ok {α : Type} {x : Tx α × State} {p : α → State → Prop} [∀ a u, Decidable (p a u)]
    (h : okAnd x (fun a u => decide (p a u)) = true) : ∃ a u, x = (.ok a, u) ∧ p a u := by
  obtain ⟨a, u⟩ := x
  cases a with
  | ok a => exact ⟨a, u, rfl, of_decide_eq_true h⟩
  | firewall => cases h
  | error => cases h
  | uncorrectable => cases h

/-- A fold whose accumulator is a number at every step, so that the kernel does not nest it. -/
def forced (f : Nat → Byte → Nat) : List Byte → Nat → Nat
  | [], c => c
  | b :: bs, c => match c with
    | 0 => forced f bs (f 0 b)
    | n + 1 => forced f bs (f (n + 1) b)

theorem foldl_forced (f : Nat → Byte → Nat) (bs : List Byte) (c : Nat) : bs.foldl f c = forced f bs c := by
  induction bs generalizing c with
  | nil => rfl
  | cons b bs ih => cases c <;> exact ih _

theorem crc32c_forced (bs : List Byte) : crc32c bs = forced (crcByteR 0x82F63B78) bs 0xFFFFFFFF ^^^ 0xFFFFFFFF := by
  simp only [crc32c, crcR, foldl_forced]

/-- A read in two parts. -/
theorem readSys_append {s : State} {a m n : Nat} {x y : List Byte} (hx : s.readSys a m = some x) (hy : s.readSys (a + m) n = some y) :
    s.readSys a (m + n) = some (x ++ y) := by
  have gen : ∀ (l : List Nat) (r x : List Byte) (f : Nat → Option Got),
      l.foldr (fun i acc => match f i, acc with | some g, some r => some (g.byte :: r) | _, _ => none) (some []) = some x →
      l.foldr (fun i acc => match f i, acc with | some g, some r => some (g.byte :: r) | _, _ => none) (some r) = some (x ++ r) := by
    intro l
    induction l with
    | nil => intro r x f h; cases h; rfl
    | cons i l ih =>
      intro r x f h
      simp only [List.foldr_cons] at h ⊢
      split at h
      · rename_i g r' hg hr
        rw [hg, ih r r' f hr]
        cases h
        rfl
      · cases h
  simp only [State.readSys, List.range_add, List.foldr_append, List.foldr_map] at hx hy ⊢
  simp only [← Nat.add_assoc]
  rw [hy]
  exact gen _ y x (fun i => s.siteByte (s.site (a + i))) hx

/-- What a transaction reads, in the state in which its checks leave the block. -/
theorem txRead_ok {s : State} {t : Itag} {a n : Nat} {v : Option (Nat × Nat × Nat)} {bs : List Byte}
    (hc : (s.checkRun t false v (checkPoints a n)).1 = .ok ())
    (hi : ((s.checkRun t false v (checkPoints a n)).2.memInjects
      ((checkPoints a n).map (s.checkRun t false v (checkPoints a n)).2.site)).1 = false)
    (hr : ((s.checkRun t false v (checkPoints a n)).2.memInjects
      ((checkPoints a n).map (s.checkRun t false v (checkPoints a n)).2.site)).2.readSys a n = some bs) :
    ∃ u, s.txRead (some t) a n v = (.ok bs, u) := by
  rcases hx : s.checkRun t false v (checkPoints a n) with ⟨x1, x2⟩
  rw [hx] at hc hi hr
  dsimp only at hc hi hr
  subst hc
  refine ⟨(x2.memInjects ((checkPoints a n).map x2.site)).2, ?_⟩
  simp only [State.txRead, hx, hi, hr]
  rfl
/-! ### The Meridian -/

/-- Encoder 0 a quadrature input with DIR 1, at count 5; encoder 1 has an index with CPR 8; encoder 2 is SSI, encoder 3 SSI with
parity, each of 8 bits. -/
def enc : State := { up [(kENC 0 0, 0x5#32), (kENC 0 8, 5#32), (kENC 1 0, 0x2#32), (kENC 1 4, 8#32), (kENC 1 8, 10#32),
    (kENC 2 0, 0x4803#32), (kENC 3 0, 0x8803#32)] with
  merid := { posIndex := [(1, 2#32)], seenIndex := [1] } }

theorem witness_EncoderInputs : enc.Canonical ∧ enc.fld (kENC 0 0) 1 0 = 1 ∧ enc.fld (kENC 1 0) 1 0 = 2 ∧
    enc.injArmed rMERID 0 = false ∧ enc.src ≠ 1 ∧ 1 ∈ enc.merid.seenIndex ∧
    (enc.rd (kENC 1 8) - Sparse.get (fun _ => 0#32) enc.merid.posIndex 1).toInt.natAbs = (enc.rd (kENC 1 4)).toNat ∧
    enc.fld (kENC 2 0) 1 0 = 3 ∧ enc.flag (kENC 2 0) 15 = false ∧ enc.src ≠ 3 ∧ enc.fld (kENC 3 0) 1 0 = 3 ∧
    enc.flag (kENC 3 0) 15 = true ∧
    ((List.range 32).foldl (fun a i => a + if bitOf (1 % 2 ^ enc.fld (kENC 3 0) 13 8) i then 1 else 0) 0) % 2 = 1 :=
  ⟨up_canonical _ cold_canonical, by decide +kernel⟩

theorem witness_PhaseAndVerniers : cold.incr = cold.nominalIncr ∧ (up [(kLOCKSTAT, 1#32)]).lock ≠ lkFREE ∧
    (up [(kVALIGN, 0x0FFFFFFF#32)] cold).Canonical ∧ cold.merid.lastBroadcast = none ∧ cold.merid.misaligned = 0 ∧
    (up [(kVALIGN, 0x0FFFFFFF#32)] cold).injArmed rMERID 2 = false ∧
    ∀ i, i ≤ 27 → 1 ≤ i → (up [(kVALIGN, 0x0FFFFFFF#32)] cold).cdDown i = false ∧
      (up [(kVALIGN, 0x0FFFFFFF#32)] cold).flag kVALIGN i = true :=
  ⟨by decide +kernel, by decide +kernel, up_canonical _ cold_canonical, by decide +kernel, by decide +kernel,
    by decide +kernel, by decide +kernel⟩

/-- gPTP of MAC 2, in FREE, HOLDOVER or UNLOCKED; encoder 0, LOCKED since 0 at 150,000,000 ns, in the 1.5 periods that R49
allows; HOLDOVER for 2,000 ms. -/
def ref (st now : Nat) (cfg : Word) : State := { up [(kLOCKCFG, cfg), (kLOCKSTAT, BitVec.ofNat 32 st)] with now := now }

theorem witness_LockStates : (ref 0 0 0x15#32).Canonical ∧ (ref 0 0 0x15#32).injArmed rMERID 1 = false ∧
    (ref 0 0 0x15#32).src = 5 ∧ (ref 0 0 0x15#32).fld kLOCKCFG 5 3 = 2 ∧ (ref 0 0 0x15#32).merid.leftFree = false ∧
    (ref 3 0 0x15#32).lock = lkHOLDOVER ∧ (ref 4 0 0x15#32).lock = lkUNLOCKED ∧
    (ref 2 150000000 1#32).Canonical ∧ (ref 2 150000000 1#32).lock = lkLOCKED ∧ (ref 2 150000000 1#32).src = 1 ∧
    3 * ((ref 2 150000000 1#32).rd kPERIOD).toNat ≤ 2 * ((ref 2 150000000 1#32).now - 0) ∧
    (ref 2 150000000 1#32).rd kRATE = 0#32 ∧ (ref 2 150000000 1#32).merid.lastRef.getD 0 = 0 ∧
    1000000 * (ref 3 2000000000 1#32).fld kHOLDMAX 15 0 ≤ (ref 3 2000000000 1#32).now ∧
    (ref 2 0 1#32).Reaches pairA kLOCKCFG 0#32 ∧ (ref 2 0 1#32).src ≠ fieldOf 0#32 2 0 ∧
    (ref 1 0 1#32).Reaches pairA kLOCKCFG 2#32 ∧ (ref 1 0 1#32).src ≠ fieldOf 2#32 2 0 :=
  ⟨up_canonical _ cold_canonical, by decide +kernel, by decide +kernel, by decide +kernel, by decide +kernel, by decide +kernel,
    by decide +kernel, up_canonical _ cold_canonical, by decide +kernel, by decide +kernel, by decide +kernel,
    by decide +kernel, by decide +kernel, by decide +kernel, reaches_of (by decide +kernel), by decide +kernel,
    reaches_of (by decide +kernel), by decide +kernel⟩

/-- Slot 5 armed, one-shot, to set pin 3 high at phase 0xD00, 76 ns ahead at the reset increment; a set-high action of slot 6
due at pin 3; a pulse on pin 4 that ends. -/
def slots : State := { up [(kSLOT 5 0, 0xD00#32), (kSLOT 5 2, 0x431#32), (kSLOT 5 3, 0x10001#32), (kTRG 3 0, 1#32)] with
  now := 500
  merid := { slots := [(5, { next := some 0xD00#64 })], flying := [⟨6, .trigger 3 1, 500, 0#64⟩],
             pulse := [(4, some (500, false))] } }

theorem witness_SlotsFire : (slots.slotAux 5).next = some 0xD00#64 ∧
    (∃ ns, slots.untilMatch 0xD00#64 = some ns ∧ ns ≤ 320) ∧ slots.slotArmed 5 = true ∧
    slots.slotRecurring 5 = false ∧ slots.slotEcc 5 = false ∧ slots.slotAction 5 ≠ .none ∧
    (∃ x, slots.takeDue (Action.isTrigger 3) = some x ∧ x.1.action = .trigger 3 1) ∧ slots.flag (kTRG 3 0) 0 = true ∧
    Sparse.get (fun _ => none) slots.merid.pulse 4 = some (500, false) ∧ 500 ≤ slots.now :=
  ⟨by decide +kernel, any_some (by decide +kernel), by decide +kernel, by decide +kernel, by decide +kernel, by decide +kernel,
    any_some (by decide +kernel), by decide +kernel, by decide +kernel, by decide +kernel⟩

theorem witness_PeriodWrites : cold.Canonical ∧ cold.Reaches pairA kPERIOD 25000000#32 ∧ cold.Reaches pairA kPERIOD 200000001#32 :=
  ⟨cold_canonical, reaches_of (by decide +kernel), reaches_of (by decide +kernel)⟩

/-- Slot 5 as above, and slot 1023 not armed. -/
theorem witness_SlotWrites : slots.Reaches pairA (kSLOT 1023 2) 0x31#32 ∧ slots.slotArmed 1023 = false ∧
    slots.slotStatus 1023 ≠ ssDISABLED ∧ slots.Reaches pairA (kSLOT 5 2) 0x31#32 ∧ slots.slotArmed 5 = true ∧
    slots.Canonical ∧ slots.slotEcc 0 = false ∧ flagOf 4#32 1 = false ∧ slots.Reaches pairA (kSLOT 0 3) (withFlag 4#32 0 true) ∧
    slots.slotStatus 0 ≠ ssDISABLED ∧
    (((up [(kSLOT 0 0, 0x8000#32)] slots).setFld (kSLOT 0 3) 13 2 1).setFlag (kSLOT 0 3) 1 false).armAllowed 0 = true ∧
    (∃ ns, (up [(kSLOT 0 0, 0x8000#32)] slots).untilMatch 0x8000#64 = some ns ∧ 320 ≤ ns) ∧ slots.untilMatch 0#64 = none ∧
    slots.Reaches pairA (kSLOT 5 3) (withFlag 4#32 0 false) ∧ slots.slotStatus 5 = ssARMED :=
  ⟨reaches_of (by decide +kernel), by decide +kernel, by decide +kernel, reaches_of (by decide +kernel), by decide +kernel,
    up_canonical _ cold_canonical, by decide +kernel, by decide +kernel, reaches_of (by decide +kernel), by decide +kernel,
    by decide +kernel, any_some (by decide +kernel), by decide +kernel, reaches_of (by decide +kernel), by decide +kernel⟩

theorem witness_TriggerOutputs : slots.Canonical ∧ slots.Reaches pairA (kTRG 3 0) 0#32 ∧ slots.flag (kTRG 3 0) 0 = true ∧
    slots.Reaches pairA (kTRG 31 0) 3#32 ∧ slots.flag (kTRG 31 0) 0 = false ∧ slots.Reaches pairA (kTRG 3 0) 3#32 :=
  ⟨up_canonical _ cold_canonical, reaches_of (by decide +kernel), by decide +kernel, reaches_of (by decide +kernel),
    by decide +kernel, reaches_of (by decide +kernel)⟩
/-! ### Page 0 and the queues -/

/-- Test rights of region 0 in `rights`; QUIESCE of region 0 set in `quiet`. -/
def rights : State := up [(rk rWATCH 6 0x100, 1#32)] cold
def quiet : State := up [(kCTRL 0, 1#32)] cold

theorem witness_HeaderWrites : cold.Canonical ∧ cold.Reaches pairA (kEINJ 0) 1#32 ∧ cold.testRights 0 = false ∧
    rights.Reaches pairA (kEINJ 0) 1#32 ∧ rights.testRights 0 = true ∧ cold.Reaches pairA (kCTRL 39) (withFlag 2#32 0 true) ∧
    quiet.Reaches pairA (kCTRL 0) (withFlag 3#32 0 false) ∧ quiet.quiesced 0 = true ∧
    cold.Reaches pairA (kCTRL 0) (withFlag 3#32 0 false) ∧ cold.quiesced 0 = false :=
  ⟨cold_canonical, reaches_of (by decide +kernel), by decide +kernel, reaches_of (by decide +kernel),
    by decide +kernel, reaches_of (by decide +kernel), reaches_of (by decide +kernel), by decide +kernel,
    reaches_of (by decide +kernel), by decide +kernel⟩

/-- Dome 3's ITAG is frozen and a read of it is held; an unfreeze is armed by pair A at 0, or on its way. -/
def frozen : State := { cold with frozen := [0x043#12], held := [⟨{ itag := 0x043#12 }, 0, false, 0#32⟩] }
def armed : State := { frozen with armed := [(3, some ⟨0x001#12, 0x043#12, 0⟩)], now := 10000 }

theorem witness_UnfreezeInTwoWrites :
    frozen.Reaches pairA (kFRZ 3) (wordOf (2 ^ 12 + 0x43)) ∧ Sparse.get (fun _ => none) frozen.armed 3 = none ∧
    homeBlock 0x43 = some 3 ∧ 0x043#12 ∈ frozen.frozen ∧
    armed.Reaches pairA (kFRZ 3) (wordOf (0x43 + 2 * 2 ^ 12)) ∧
    Sparse.get (fun _ => none) armed.armed 3 = some ⟨0x001#12, 0x043#12, 0⟩ ∧ armed.now ≤ 10000 + 0 ∧
    10000 + 0 < (armed.advance 1).now ∧
    0x043#12 ∈ ({ frozen with unfreezing := [0x043#12] } : State).unfreezing ∧
    ({ frozen with unfreezing := [0x043#12] } : State).drained 0x043#12 = true :=
  ⟨reaches_of (by decide +kernel), by decide +kernel, by decide +kernel, by decide +kernel, reaches_of (by decide +kernel),
    by decide +kernel, by decide +kernel, by decide +kernel, by decide +kernel, by decide +kernel⟩

/-- A queue of 16 entries with two of them written and none released. -/
def idle : Queue := { state := .active, tail := 2 }
def work : State := withQueue 0 63 idle cold

theorem witness_Doorbells :
    work.Reaches pairA (rk 0 12 (63 * 4)) 16#32 ∧ hasQueues 0 = true ∧ 63 ≤ queueMax 0 ∧ work.queue 0 63 = idle ∧
    16 = (16#32).toNat % 65536 ∧ idle.state ≠ .disabled ∧ Machine.dist idle.head 16 ≤ 2 ^ idle.sizeLog2 ∧
    Machine.dist idle.head idle.released ≤ Machine.dist idle.head 16 ∧ idle.state = .active ∧ idle.gated = false ∧
    work.quiesced 0 = false ∧ (up [(kCTRL 0, 1#32)] work).quiesced 0 = true ∧
    work.Reaches pairA (rk 0 12 (63 * 4)) 17#32 ∧ 2 ^ idle.sizeLog2 < Machine.dist idle.head 17 ∧
    (∃ x, ({ work with merid := { flying := [⟨1, .doorbell 0 63 4, 0, 0#64⟩] } } : State).takeDue (Action.isDoorbell 0) = some x ∧
      x.1.action = .doorbell 0 63 4 ∧ x.2.dropsAt 0 = false) ∧
    (∃ x, ({ up [(kPdStat 4, 3#32)] with merid := { flying := [⟨1, .doorbell 0 63 4, 0, 0#64⟩] } } : State).takeDue (Action.isDoorbell 0) = some x ∧
      x.2.dropsAt 0 = true) :=
  ⟨reaches_of (by decide +kernel), by decide +kernel, by decide +kernel, by decide +kernel, by decide +kernel, by decide +kernel,
    by decide +kernel, by decide +kernel, by decide +kernel, by decide +kernel, by decide +kernel, by decide +kernel,
    reaches_of (by decide +kernel), by decide +kernel, any_some (by decide +kernel), any_some (by decide +kernel)⟩

/-- Dome 0's context table in the Plate Store, with a context of 16 entries for queue 0. -/
def contexts : State := put 0xE0000000 (leBytes 8 0xE0001000 ++ leBytes 8 0xE0002000 ++ leBytes 4 4)
  (up [(kQTAB 0, 0xE0000000#32)] cold)
def stopped : State := withQueue 0 0 { state := .stopped, tail := 3, head := 1, released := 2 } contexts

theorem witness_QueueCommands : hasQueues 0 = true ∧ 0 ≤ queueMax 0 ∧ Sparse.get (fun _ => none) contexts.qcmds 0 = none ∧
    contexts.Reaches pairA (kQCMD 0) (wordOf (2 ^ 12)) ∧ (contexts.queue 0 0).state = .disabled ∧
    (∃ c, (((contexts.touch 4).wr (kQCMD 0) (wordOf (2 ^ 12))).readContext 0 0).1 = some c ∧ c.sizeLog2 = 4) ∧
    stopped.Reaches pairA (kQCMD 0) (wordOf (2 * 2 ^ 12)) ∧ (stopped.queue 0 0).state = .stopped ∧
    stopped.Reaches pairA (kQCMD 0) (wordOf (3 * 2 ^ 12 + 2 ^ 16 * 3)) ∧
    Machine.dist (stopped.queue 0 0).head 3 ≤ Machine.dist (stopped.queue 0 0).head (stopped.queue 0 0).tail ∧
    (∃ c, (((stopped.touch 4).wr (kQCMD 0) (wordOf (3 * 2 ^ 12 + 2 ^ 16 * 3))).readContext 0 0).1 = some c ∧ c.sizeLog2 = 4) ∧
    stopped.Reaches pairA (kQCMD 0) (wordOf (3 * 2 ^ 12 + 2 ^ 16 * 4)) ∧
    Machine.dist (stopped.queue 0 0).head (stopped.queue 0 0).tail < Machine.dist (stopped.queue 0 0).head 4 :=
  ⟨by decide +kernel, by decide +kernel, by decide +kernel, reaches_of (by decide +kernel), by decide +kernel,
    any_some (by decide +kernel), reaches_of (by decide +kernel), by decide +kernel, reaches_of (by decide +kernel),
    by decide +kernel, any_some (by decide +kernel), reaches_of (by decide +kernel), by decide +kernel⟩

/-- Queues of SEC: the only operation of queue 0 has a status, that of queue 1 is done and has none. -/
def sent (o : Op) : Queue := { state := .active, tail := 1, released := 1, cplBase := 0xE0000000, ops := [o] }
def doneOp : State := withQueue rSEC 1 (sent { index := 0, words := [], outcome := some 0 })
  (withQueue rSEC 0 (sent { index := 0, words := [], status := some 0 }) cold)

theorem witness_QueuesComplete : doneOp.Canonical ∧
    Sparse.get (fun _ => none) ({ doneOp with qcmds := [(5, some ⟨3, 1, 0⟩)] } : State).qcmds 5 = some ⟨3, 1, 0⟩ ∧
    (doneOp.queue rSEC 0).ops = [{ index := 0, words := [], status := some 0 }] ∧ stops 0 = false ∧
    ((doneOp.writeRecord rSEC 0 { index := 0, words := [], status := some 0 } 0).queue rSEC 0).state = .active ∧
    (doneOp.queue rSEC 1).ops = [{ index := 0, words := [], outcome := some 0 }] ∧ 0 ≤ doneOp.now :=
  ⟨withQueue_canonical _ _ _ (withQueue_canonical _ _ _ cold_canonical), by decide +kernel, by decide +kernel, by decide +kernel, by decide +kernel, by decide +kernel,
    by decide +kernel⟩

theorem witness_DepotMode : cold.Canonical ∧ cold.Reaches pairA (rk rWATCH 1 0x110) 0#32 ∧
    flagOf 0#32 0 = cold.flag (rk rWATCH 1 0x110) 0 ∧ cold.Reaches pairA (rk rWATCH 1 0x110) 1#32 ∧
    flagOf 1#32 0 ≠ cold.flag (rk rWATCH 1 0x110) 0 :=
  ⟨cold_canonical, reaches_of (by decide +kernel), by decide +kernel, reaches_of (by decide +kernel),
    by decide +kernel⟩
/-! ### The Domes -/

/-- An operation of 16 words with the given first ones. -/
def op (ws : List Word) (x : Op := { index := 0, words := [] }) : Op := { x with words := ws ++ List.replicate (16 - ws.length) 0#32 }

/-- An active queue of released operations, in index order from 0. -/
def queueOf (os : List Op) : Queue := { state := .active, tail := os.length, released := os.length, cplBase := 0xE0000000, ops := os }

/-- LOAD of slot 3 from 0xE0004000, where a map of ID 7 stands that uses no stage. -/
def loadOp : Op := op [1#32, 0#32, 0#32, 0#32, 0xE0004000#32, 0#32, 3#32]
def loading : State := withQueue 0 5 (queueOf [loadOp])
  (put 0xE00047FC (leBytes 4 700553177) (put 0xE0004000 (leBytes 4 0x00070001) cold))

/-- A map of ID 1 that uses stage 0 with one context, and a schedule of one output entry of stage 0. -/
def map0 : TrainMap := [0x00010001#32, 1#32, 0#32]
def outEnt : SEnt := { lstage := 0, port := 3, ctx := 0, tplan := 0, addr := 0xE0010000, count := 1, stride := 0,
                       tindex := 0, tqueue := 0, dep := false }
def runOp : Op := op [2#32, 0#32, 0#32, 0#32, 0xE0004000#32, 0#32, 1#32, 1#32, 100#32, 100#32]
def runs : State := withQueue 0 63 (queueOf [runOp]) (put 0xE0004010 [1#8] (put 0xE0004000 [0x30#8]
  ({ cold with domes := [(0, { maps := [(2, map0)] })] })))

/-- The bytes of the map. -/
def mapBytes : List Byte := leBytes 4 0x00070001 ++ List.replicate 2040 0#8 ++ leBytes 4 700553177

theorem witness_DomesTakeWork_load : loading.Canonical ∧ loading.nextOp 0 5 = some loadOp ∧ loading.pick 0 = some 5 ∧
    loadOp.opcode = 1 ∧ (loading.dome 0).usesSlot (loadOp.fld 0x18 1 0) = false ∧ loadOp.addr 0x10 % 64 = 0 ∧
    (∃ bs u, (loading.start 0 5 loadOp).txRead (some (domeItag 0)) (loadOp.addr 0x10) 2048 (some (0, 5, loadOp.index)) =
      (.ok bs, u) ∧ bs = mapBytes) ∧ TrainMap.formatOk (wordsOf mapBytes) mapBytes = true ∧
      (∀ l, l < 15 → TrainMap.used (wordsOf mapBytes) l ≠ true) ∧ TrainMap.contexts (wordsOf mapBytes) = [] :=
  ⟨withQueue_canonical _ _ _ (put_canonical _ _ (put_canonical _ _ cold_canonical)), by decide +kernel, by decide +kernel,
    by decide +kernel, by decide +kernel, by decide +kernel, any_ok (by decide +kernel),
    by simp only [TrainMap.formatOk, TrainMap.headOk, crc32c_forced]; decide +kernel, by decide +kernel, by decide +kernel⟩

theorem runs_canonical : runs.Canonical :=
  withQueue_canonical _ _ _ (put_canonical _ _ (put_canonical _ _ (canonical_of (by decide +kernel))))

theorem witness_DomesTakeWork_run : runs.nextOp 0 63 = some runOp ∧ runs.pick 0 = some 63 ∧
    runOp.opcode = 2 ∧ (runs.dome 0).run = none ∧ runs.earlierStep 0 runOp 2 = false ∧ runs.relaxedChoice 0 63 = false ∧
    runOp.addr 0x10 % 32 = 0 ∧ runOp.fld 0x18 31 24 = 0 ∧ runOp.fld 0x1C 31 16 = 0 ∧ runOp.fld 0x18 23 0 ≠ 0 ∧
    (runOp.word 8).toNat ≤ (runOp.word 9).toNat ∧ (runOp.words.drop 10).all (fun w => w == 0#32) = true ∧
    (runs.dome 0).maps.find? (fun m => TrainMap.id m.2 == runOp.fld 0x1C 15 0) = some (2, map0) ∧
    (∀ l, l < 15 → map0.used l = true → (domeSpares 0).avail runs l = true) ∧
    (∃ bs u, (runs.start 0 63 runOp).txRead (some (domeItag 0)) (runOp.addr 0x10) (32 * runOp.fld 0x18 23 0)
      (some (0, 63, runOp.index)) = (.ok bs, u) ∧ u.injArmed 0 4 = false ∧
      (SEnt.many (runOp.fld 0x18 23 0) bs).all (fun e => e.ok map0) = true) :=
  ⟨by decide +kernel, by decide +kernel, by decide +kernel, by decide +kernel, by decide +kernel, by decide +kernel,
    by decide +kernel, by decide +kernel, by decide +kernel, by decide +kernel, by decide +kernel, by decide +kernel,
    by decide +kernel, by decide +kernel, any_ok (by decide +kernel)⟩

/-- A RUN of queue 5 at work on Dome 7, its first issue at 0: one output entry of stage 0 to issue. Or it has issued, and
everything is done; or its first issue was long ago. -/
def working (x : DomeRun) : State := withQueue 7 5 (queueOf [{ runOp with started := true }])
  { cold with domes := [(7, { maps := [(2, map0)], run := some x })] }
def aRun : DomeRun := { queue := 5, index := 0, map := map0, slot := 2, plan := 100, wcet := 100, start := 0, first := some 0,
                        ents := [{ outEnt with addr := 0x02000000 * 7 + 0xE0010000 }] }
def doneRun : DomeRun := { aRun with ents := [{ outEnt with doneAt := some 0 }] }

theorem working_canonical (x : DomeRun) : (working x).Canonical := by
  refine withQueue_canonical _ _ _ ?_
  have h := cold_canonical
  refine ⟨h.1, h.2.1, h.2.2.1, h.2.2.2.1, h.2.2.2.2.1, h.2.2.2.2.2.1, h.2.2.2.2.2.2.1, h.2.2.2.2.2.2.2.1,
    h.2.2.2.2.2.2.2.2.1, h.2.2.2.2.2.2.2.2.2.1, ?_, h.2.2.2.2.2.2.2.2.2.2.2⟩
  rfl

theorem witness_DomesAtWork : ((working aRun).dome 7).run = some aRun ∧
    (∃ o, (working aRun).findOp 7 5 0 = some o ∧ o.status = none) ∧ aRun.paused = none ∧ aRun.finished = false ∧
    aRun.retried = false ∧ (∀ b, b < 5 → (working aRun).injArmed 7 b = false) ∧ aRun.first ≠ none ∧
    (∃ e, (aRun.ents.filter (fun e => e.lstage == 0 && e.port == 3)).find? (fun e => e.doneAt.isNone) = some e ∧
      aRun.planCycle 0 = e.tplan ∧ e.dep = false ∧
      ∀ i, i < e.count → (working aRun).scheduleAddrOk 7 ((working aRun).queue 7 5).tenant (e.addr + i * e.stride) 64 = true) ∧
    (∀ x ∈ aRun.ents, x.lstage = 0 → x.port = 3 → ∀ t, x.doneAt = some t → t ≤ 0 ∧ cyclesIn (t - 0 - 0) ≤ 0) ∧
    (working doneRun).fireNext 7 doneRun.allIssued = none ∧ doneRun.gw = [] ∧ doneRun.idle = true ∧
    aRun.wcet < aRun.cycles 1000 ∧ ((working aRun).dome 0).run = none := by
  refine ⟨by decide +kernel, any_some (by decide +kernel), by decide +kernel, by decide +kernel, by decide +kernel,
    by decide +kernel, by decide +kernel, any_some (by decide +kernel), ?_, by decide +kernel, by decide +kernel,
    by decide +kernel, by decide +kernel, by decide +kernel⟩
  intro x hx _ _ t ht
  simp [aRun, outEnt] at hx
  subst hx
  cases ht
/-! ### Spared parts and self-test windows -/

/-- CVU in an open self-test window; a slice of its channel 33 (33 is a spare) runs since 0 and ends now. -/
def window : State := up [(kCTRL rCVU, 0x10000#32)] (cold.setFlag (kSTAT rCVU) 3 true)
def slicing : State := { window with spares := [(rCVU * 4, { slice := some (33, 0), served := true })], now := 100000 }
/-- Dome 7 in an open window with ROT_EN. -/
def domeWindow : State := (cold.setFlag (kSTAT 7) 3 true).setFlag (kCTRL 7) 16 true
def domeSlicing : State := { domeWindow with spares := [(28, { slice := some (8, 0), served := true })], now := 1200000 }

theorem window_canonical : window.Canonical := canonical_of (by decide +kernel)

theorem witness_PartsRotate :
    domeWindow.Canonical ∧ window.Canonical ∧ (spareSets 7).find? (fun S => S.unit == 0) = some (domeSpares 7) ∧
    domeWindow.pdDown (regionPd 7) = false ∧ ((domeSpares 7).aux domeWindow) = {} ∧ domeWindow.flag (kSTAT 7) 3 = true ∧
    (∀ p, p < 22 → (domeSpares 7).canTest domeWindow p = false) ∧ (domeSpares 7).rotEnabled domeWindow = true ∧
    (∃ l, (domeSpares 7).nextRot domeWindow = some l ∧ domeWindow.partFree 7 l = true ∧
      ((domeSpares 7).move domeWindow l 2).isSome = true) ∧
    (spareSets rCVU).find? (fun S => S.unit == 0) = some cvuSpares ∧ (cvuSpares.aux slicing).slice = some (33, 0) ∧
    0 + cvuSpares.slice 33 ≤ slicing.now ∧ (cvuSpares.aux slicing).wantRetire = none ∧ cvuSpares.failBit = none ∧
    ((domeSpares 7).aux domeSlicing).slice = some (8, 0) ∧ 0 + (domeSpares 7).slice 8 ≤ domeSlicing.now ∧
    ((domeSpares 7).aux domeSlicing).wantRetire = none ∧ (domeSpares 7).failBit = some 20 :=
  ⟨canonical_of (by decide +kernel), window_canonical, rfl, by decide +kernel,
    by decide +kernel, by decide +kernel, by decide +kernel, by decide +kernel, any_some (by decide +kernel), rfl,
    by decide +kernel, by decide +kernel, by decide +kernel, rfl, by decide +kernel, by decide +kernel, by decide +kernel, rfl⟩

/-- A window action due at a region: an open or a close of window 7, of slot 5 or forced by a protected interval. -/
def due (a : Action) (slot : Nat) (s : State := cold) : State :=
  { s with merid := { s.merid with flying := [⟨slot, a, 0, 0#64⟩] } }
/-- Region 4 (a Dome) power-gated; protected interval 15 over every region. -/
def gatedDown : State := up [(kPdStat (regionPd 4), 3#32)]
def guarded : State := up [(kPROT 15 1, 0xFFFFFFFF#32), (kPROT 15 2, 0xFFFFFFFF#32), (kPROT 15 3, 0xFF#32)]

theorem witness_WindowsOpenAndClose :
    (∃ x, (due (.windowOpen 4 7) 5 gatedDown).takeDue (Action.isOpen 4) = some x ∧
      x.1.action = .windowOpen 4 7 ∧ x.2.dropsAt 4 = true) ∧
    (∃ x, (due (.windowOpen 4 7) 5 guarded).takeDue (Action.isOpen 4) = some x ∧
      x.1.action = .windowOpen 4 7 ∧ x.2.dropsAt 4 = false ∧ (x.2.slotFired x.1.slot).isProtected 4 = true) ∧
    (∃ x, (due (.windowOpen rSCHED 7) 5).takeDue (Action.isOpen rSCHED) = some x ∧ x.1.action = .windowOpen rSCHED 7 ∧
      x.2.dropsAt rSCHED = false ∧ (x.2.slotFired x.1.slot).isProtected rSCHED = false ∧
      bitOf (x.2.windows rSCHED) 7 = false ∧ (spareSets rSCHED).isEmpty = true ∧ rSCHED ≠ rPLATE) ∧
    (∃ x, (due (.windowClose 4 7) 1023 gatedDown).takeDue (Action.isClose 4) = some x ∧
      x.1.action = .windowClose 4 7 ∧ x.1.slot < 1024 ∧ x.2.dropsAt 4 = true) ∧
    (∃ x, (due (.windowClose 4 7) 1023).takeDue (Action.isClose 4) = some x ∧
      x.1.action = .windowClose 4 7 ∧ x.1.slot < 1024 ∧ x.2.dropsAt 4 = false) ∧
    (∃ x, (due (.windowClose rCVU 0) 1024 window).takeDue (Action.isClose rCVU) = some x ∧
      x.1.action = .windowClose rCVU 0 ∧ 1024 ≤ x.1.slot ∧ x.2.flag (kSTAT rCVU) 3 = true) :=
  ⟨any_some (by decide +kernel), any_some (by decide +kernel), any_some (by decide +kernel), any_some (by decide +kernel),
    any_some (by decide +kernel), any_some (by decide +kernel)⟩

/-- SUBCMD words of Linkous (PHYS 3:0, LOG 6:4, LINK 8, CMD 11:9) and of a Dome (PHYS 4:0, LOG 8:5, CMD 11:9). No spare part of a
Dome that has every one ACTIVE. -/
def noSpares : State := up [(rk 4 1 0x140, 0x55555555#32), (rk 4 1 0x144, 0x555#32)]

theorem witness_SubcommandsWait :
    spareSets 4 = [domeSpares 4] ∧ (domeSpares 4).kSub ≠ 0 ∧
    cold.Reaches pairA (domeSpares 4).kSub (withField 0x1C0#32 11 9 1) ∧
    fieldOf (withField 0x1C0#32 11 9 1) 8 5 = 14 ∧ 14 < (domeSpares 4).nlog ∧
    ((domeSpares 4).spareFor cold 14).isSome = true ∧ (domeSpares 4).avail cold 14 = true ∧
    ((domeSpares 4).spareFor noSpares 14) = none ∧ fieldOf (withField 0x1E0#32 11 9 1) 8 5 = (domeSpares 4).nlog ∧
    fieldOf (withField 21#32 11 9 2) 4 0 = 21 ∧ 21 < (domeSpares 4).nphys ∧
    (∀ l, l < (domeSpares 4).nlog → (domeSpares 4).phys cold l = 21 → ((domeSpares 4).spareFor cold l).isSome = true) ∧
    (∃ l, (List.range (domeSpares 4).nlog).find? (fun l => (domeSpares 4).phys noSpares l == 0 &&
      (domeSpares 4).st noSpares 0 == 1) = some l ∧ (domeSpares 4).spareFor noSpares l = none) ∧
    fieldOf (withField 22#32 11 9 2) 4 0 = (domeSpares 4).nphys ∧
    cold.Reaches pairA (lnkSpares 1).kSub (withField 0x170#32 11 9 1) ∧ lnkSpares (fieldOf (withField 0x170#32 11 9 1) 8 8) = lnkSpares 1 ∧
    (lnkSpares 1).kSub ≠ 0 ∧ ((lnkSpares 1).spareFor cold 7).isSome = true ∧ (lnkSpares 1).avail cold 7 = true :=
  ⟨rfl, by decide +kernel, reaches_of (by decide +kernel), by decide +kernel, by decide +kernel, by decide +kernel,
    by decide +kernel, by decide +kernel, by decide +kernel, by decide +kernel, by decide +kernel, by decide +kernel,
    any_some (by decide +kernel), by decide +kernel, reaches_of (by decide +kernel), rfl, by decide +kernel, by decide +kernel,
    by decide +kernel⟩
/-! ### The memory tiers and Transit -/

/-- An object table at 0xE0002000: 0 a held object of two lines at 0xD0000000, tenant 5; 1 and 2 of 64 KiB in Plate Store 0;
3 in HBM. -/
def objects (s : State := cold) : State :=
  put 0xE00020C0 (leBytes 4 0xA ++ leBytes 4 0 ++ leBytes 8 65536)
  (put 0xE0002040 (leBytes 4 8 ++ leBytes 4 0 ++ leBytes 8 65536 ++ leBytes 8 0xE0010000)
  (put 0xE0002080 (leBytes 4 8 ++ leBytes 4 0 ++ leBytes 8 65536 ++ leBytes 8 0xE0020000)
  (put 0xE0002000 (leBytes 4 0x519 ++ leBytes 4 1 ++ leBytes 8 8192 ++ leBytes 8 0xD0000000)
  (up [(rk rTRANSIT 1 0x100, 0xE0002000#32), (rk rTRANSIT 1 0x108, 3#32)] s))))

theorem objects_canonical {s : State} (h : s.Canonical) : (objects s).Canonical :=
  put_canonical _ _ (put_canonical _ _ (put_canonical _ _ (put_canonical _ _ (up_canonical _ h))))

/-- Operations of queue 1023: an ALLOC and a FREE of object 0, a MOVE of one tile from 1 to 2, a NOP, a re-read. -/
def allocOp : Op := op [4#32]
def freeOp : Op := op [5#32]
def moveOp : Op := op [1#32, 0#32, 0#32, 0#32, 0x00020001#32, 0#32, 0#32, 0#32, 0#32, 0#32, 0#32, 0#32, 1#32]
def transit (o : Op) (s : State := objects) : State := withQueue rTRANSIT 1023 (queueOf [o]) s
def roomy : State := objects (up [(kQUOTA 5, 2#32)])
def noRoom : State := objects (up [(kQUOTA 5, 2#32), (kPFREE, 1#32)])
def held : State := { transit { allocOp with started := true } roomy with plate := { allocs := [⟨1023, 0, 0⟩] } }
def mapped : State := { transit freeOp (objects (up [(kHELD 5, 2#32)])) with plate := { lines := [(0xD0000, 1), (0xD0001, 1)] } }

theorem witness_ArchivePool :
    cold.Reaches pairA (kQUOTA 15) 16384#32 ∧ cold.Reaches pairA (kQUOTA 15) 16385#32 ∧
    (List.range 16).foldl (fun a j => a + (if j = 15 then fieldOf 16384#32 14 0 else cold.fld (kQUOTA j) 14 0)) 0 ≤ 16384 ∧
    cold.fld (kHELD 15) 14 0 ≤ fieldOf 16384#32 14 0 ∧
    16384 < (List.range 16).foldl (fun a j => a + (if j = 15 then fieldOf 16385#32 14 0 else cold.fld (kQUOTA j) 14 0)) 0 ∧
    (transit allocOp).dropDeadMoves.nextOp rTRANSIT 1023 = some allocOp ∧ allocOp.opcode = 4 ∧
    (transit allocOp).dropDeadMoves.pick rTRANSIT = some 1023 ∧
    (∃ o, ((transit allocOp).dropDeadMoves.start rTRANSIT 1023 allocOp).heldObj allocOp = some o ∧
      ((transit allocOp).dropDeadMoves.start rTRANSIT 1023 allocOp).linesFree o = true ∧
      (transit allocOp).fld (kQUOTA o.tenant) 14 0 < (transit allocOp).fld (kHELD o.tenant) 14 0 + allocLines o ∧
      (transit allocOp roomy).fld (kHELD o.tenant) 14 0 + allocLines o ≤ (transit allocOp roomy).fld (kQUOTA o.tenant) 14 0 ∧
      (State.makeRoom o.tenant true (allocLines o) 1 (transit allocOp roomy)).1 = true ∧
      (transit allocOp noRoom).allocate o = none ∧ (held.dropDeadMoves.allocate o).isSome = true) ∧
    held.dropDeadMoves.plate.allocs = [⟨1023, 0, 0⟩] ∧
    (∃ p, held.dropDeadMoves.findOp rTRANSIT 1023 0 = some p ∧ p.status = none) ∧
    (held.dropDeadMoves.objEntry 0).isSome = true ∧
    mapped.Canonical ∧ mapped.nextOp rTRANSIT 1023 = some freeOp ∧ freeOp.opcode = 5 ∧ mapped.pick rTRANSIT = some 1023 ∧
    (∃ o, (mapped.start rTRANSIT 1023 freeOp).heldObj freeOp = some o ∧ o.tenant < 16) :=
  ⟨reaches_of (by decide +kernel), reaches_of (by decide +kernel), by decide +kernel, by decide +kernel, by decide +kernel,
    by decide +kernel, by decide +kernel, by decide +kernel, any_some (by decide +kernel), by decide +kernel,
    any_some (by decide +kernel), by decide +kernel,
    canonical_of (by decide +kernel), by decide +kernel, by decide +kernel, by decide +kernel, any_some (by decide +kernel)⟩

/-- An FP32 tile of one element at the start of object 1. -/
def tile : Tile := { fmt := 0, rows := 1, cols := 2, data := List.replicate 8 0#8 }
def moving : State := transit moveOp (objects (put 0xE0010000 tile.headerBytes cold))
/-- The pool is full with the tiles of an earlier MOVE; a MOVE whose re-read is due; an empty pool. -/
def moveOp1 : Op := { moveOp with index := 1 }
def full : State := transit moveOp (withQueue rTRANSIT 1022 (queueOf [{ moveOp with started := true, tiles := 16384 }]) objects)
def rereading : Op := { moveOp with started := true, reread := some (100, 0) }

/-- The MOVE started, with its tile in flight; its checks; its copy. -/
def moved : State := moving.dropDeadMoves.start rTRANSIT 1023 moveOp
def flying : State := (moved.addInflight moveOp.move.count).mapOp rTRANSIT 1023 0 (fun o => { o with tiles := moveOp.move.count })
def checked (x y : Obj) : MoveEnd × Nat × MoveAcc × State :=
  State.moveChecks 1023 0 (flying.queue rTRANSIT 1023).itag moveOp.move x y 1 0 (accFlags moveOp.result) flying

theorem witness_TransitMoves :
    moving.dropDeadMoves.nextOp rTRANSIT 1023 = some moveOp ∧ moveOp.opcode = 1 ∧ moving.dropDeadMoves.pick rTRANSIT = some 1023 ∧
    moving.dropDeadMoves.plate.stalled = false ∧ moving.dropDeadMoves.stepBlocked moveOp = false ∧ moveOp.move.count = 1 ∧
    moving.dropDeadMoves.fld kINFLIGHT 14 0 + moveOp.move.count ≤ 16384 ∧
    moving.dropDeadMoves.relaxedChoice rTRANSIT 1023 = false ∧
    (∃ x, moved.validObj 1 [0, 1, 2, 3, 4] = some x ∧ flying.validObj 1 [0, 1, 2, 3, 4] = some x ∧
      (moved.validObj 2 [0, 1, 2, 3, 4]).any (fun y => flying.validObj 2 [0, 1, 2, 3, 4] = some y ∧
        moveFormatOk moveOp.move moveOp x y = true ∧ (checked x y).1 = .ok ∧
        (State.moveTiles 1023 0 (flying.queue rTRANSIT 1023).itag moveOp.move x y 1 0 (accFlags moveOp.result)
          (checked x y).2.2.2).1 = .ok) = true) ∧
    full.dropDeadMoves.nextOp rTRANSIT 1023 = some moveOp ∧ full.dropDeadMoves.pick rTRANSIT = some 1023 ∧
    full.dropDeadMoves.stepBlocked moveOp = false ∧ 16384 < full.dropDeadMoves.fld kINFLIGHT 14 0 + moveOp.move.count ∧
    (transit (op [3#32])).nextOp rTRANSIT 1023 = some (op [3#32]) ∧ (op [3#32]).opcode = 3 ∧
    (transit (op [3#32])).pick rTRANSIT = some 1023 ∧ (transit (op [3#32])).stepBlocked (op [3#32]) = false ∧
    ((transit rereading).queue rTRANSIT 1023).ops.find? (fun o => o.reread.isSome && o.status.isNone) = some rereading ∧
    rereading.reread = some (100, 0) ∧ 100 ≤ ((transit rereading).advance 100).now :=
  ⟨by decide +kernel, by decide +kernel, by decide +kernel, by decide +kernel, by decide +kernel, by decide +kernel,
    by decide +kernel, by decide +kernel, any_some (by decide +kernel), by decide +kernel, by decide +kernel, by decide +kernel,
    by decide +kernel, by decide +kernel, by decide +kernel, by decide +kernel, by decide +kernel, by decide +kernel,
    by decide +kernel, by decide +kernel⟩

/-- A MOVE from HBM at work; pseudo-channel 191 SUSPECT since 0. -/
def fromHbm : State := transit { op [1#32, 0#32, 0#32, 0#32, 0x00020003#32] with started := true }
def suspect : State := { (cold.setPcState 191 1).setSuspect 191 (some 0) with now := 60000000000 }

theorem witness_PseudoChannelHealth : fromHbm.Canonical ∧ cold.Canonical ∧
    (∃ e ∈ fromHbm.queues, e.1 / 4096 = rTRANSIT ∧ ∃ o ∈ e.2.ops, o.opcode = 1 ∧ o.started = true ∧ o.status = none ∧
      (fromHbm.objEntry o.move.src).any (fun x => x.cls = 2) = true) ∧ fromHbm.pcState 191 ≠ 2 ∧
    cold.fld (rk (rHBM0 + 5) 1 0x108) 15 0 < 65535 ∧ cold.pcState 191 = 0 ∧
    suspect.Canonical ∧ Sparse.get (fun _ => none) suspect.plate.suspectAt 191 = some 0 ∧ suspect.pcState 191 = 1 ∧
    60000000000 + 0 ≤ suspect.now ∧ cold.Reaches pairA (rk (rHBM0 + 5) 1 0x10C) (withField 31#32 6 5 1) ∧
    cold.pdDown (regionPd rLPDDR) = false ∧ cold.pdDown (regionPd (rHBM0 + 5)) = false ∧
    (0x7EFFFFFFF : Nat) / 2 ^ 30 = 31 ∧ 0x7EFFFFFFF % 2 ^ 30 < 0x30000000 ∧
    wordStart (hbmKey 191 (0x7EFFFFFFF % 2 ^ 30)) ∉ cold.badWords :=
  ⟨canonical_of (by decide +kernel), cold_canonical, by decide +kernel, by decide +kernel, by decide +kernel, by decide +kernel,
    canonical_of (by decide +kernel), by decide +kernel, by decide +kernel, by decide +kernel, reaches_of (by decide +kernel),
    by decide +kernel, by decide +kernel, by decide, by decide, by decide +kernel⟩
/-! ### Walkers, the Coelostat and SCHED -/

theorem witness_WalkerCommands : cold.Reaches pairA (kWK 7 0x130) (withFlag 0x1FFF#32 13 true) ∧
    (cold.walker 7).finv = none ∧
    (({ cold with walkers := [(7, { finv := some (4095, true) })] } : State).walker 7).finv = some (4095, true) ∧
    cold.Reaches pairA (rk rKVW 1 0x104) (withFlag 0#32 0 true) ∧ cold.Reaches pairA (rk rKVW 1 0x100) 1#32 :=
  ⟨reaches_of (by decide +kernel), by decide +kernel, by decide +kernel, reaches_of (by decide +kernel),
    reaches_of (by decide +kernel)⟩

/-- A Coelostat table of three entries at 0xE0003000: 0 AWAY of job 1, 1 RESIDENT of job 2 and dirty, 2 in FAULT of job 3. Their
frames are objects 1, 2 and 1, their home is object 3. The Coelostat is on, with Transit queue 9. -/
def table (e0 e1 e2 : Nat) (s : State := cold) : State :=
  put 0xE0003040 (leBytes 4 0x30001 ++ leBytes 4 0x30001 ++ leBytes 4 e2)
  (put 0xE0003020 (leBytes 4 0x20001 ++ leBytes 4 0x30002 ++ leBytes 4 e1)
  (put 0xE0003000 (leBytes 4 0x10001 ++ leBytes 4 0x30001 ++ leBytes 4 e0)
  (up [(kCOEL 0x100, 0xE0003000#32), (kCOEL 0x108, 3#32), (kCOEL 0x10C, 0x10009#32)] (objects s))))

/-- Job 1 of SCHED queue 63, with a step that waits. -/
def rec1 : JobRec := { job := 1, sq := 63, dq := 5, tq := 9, domes := 128, prio := 7, liveMax := 4096, semhold := 100 }
def jobState (j : Job) (s : State := cold) : State := { s with sched := { s.sched with jobs := [(63, some j)] } }
def waiting : State := jobState { r := rec1, cand := some (0, 0) } (table 0 10 4)
def evicting : State := { table 0 10 4 with sched := { evict := [1] } }

/-- A swap of entry 0, out or in, whose MOVE stands at index 0 of Transit queue 9 with its record written, and whose time has come. -/
def swapping (out : Bool) : State := { withQueue rTRANSIT 9 { state := .active, tail := 1, released := 1, exec := 1, head := 1 } (table 1 10 4) with
  sched := { swap := some ⟨0, out, 0, 0, 640⟩ }, now := 1001 }

theorem witness_SwapsGoInAndOut :
    waiting.coelOn = true ∧ waiting.sched.swap = none ∧
    (∃ e, waiting.coelEnt 0 = some e ∧ e.hold = false ∧ e.state = 0 ∧ waiting.frameBusy e.frame = false ∧
      waiting.coelTable.find? (fun x => x.2.frame == e.frame && x.2.state == 2) = none ∧
      (waiting.coelTable.filter (fun x => x.2.job == 1 && x.2.state != 2)).foldr insertFrame [] = [(0, e)]) ∧
    waiting.jobOrder (fun j => waiting.readyButResidency j && !waiting.resident j.r.job) = [{ r := rec1, cand := some (0, 0) }] ∧
    evicting.coelOn = true ∧ evicting.sched.swap = none ∧ (∃ e, evicting.coelEnt 1 = some e ∧ e.state = 2) ∧
    evicting.sched.evict.find? (fun i => (evicting.coelEnt i).elim false (fun e => !evicting.jobBusy e.job)) = some 1 ∧
    (∀ b, (swapping b).sched.swap = some ⟨0, b, 0, 0, 640⟩ ∧ ((swapping b).coelEnt 0).isSome = true ∧
      ((swapping b).queue rTRANSIT (swapping b).coelQueue).failed.all (fun f => f.1 != 0) = true ∧
      (swapping b).opVisible rTRANSIT (swapping b).coelQueue 0 = true ∧ 0 + 1000 + ceilDiv 640 (if b then 640 else 1280) ≤ (swapping b).now) :=
  ⟨by decide +kernel, by decide +kernel, any_some (by decide +kernel), by decide +kernel, by decide +kernel, by decide +kernel,
    any_some (by decide +kernel), by decide +kernel, by decide +kernel⟩

/-- Every command is permitted, on the last entry (2) and on the first that does not exist; in the states that the clauses ask for. -/
def chosen (e2 : Nat) : State := ((table 0 10 e2).touch (regionPd rSCHED)).setFld (kCOEL 0x110) 9 0 2

theorem witness_CoelostatCommands :
    (∀ c, c ≤ 5 → 1 ≤ c → State.passesB (table 0 10 2) pairA (kCOEL 0x110) true && (table 0 10 2).mayWrite (kCOEL 0x110) pairA.itag.toNat &&
      !(table 0 10 2).changesOwned (kCOEL 0x110) pairA.itag.toNat (coelWord 2 c) &&
      !(table 0 10 2).changesOwned (kCOEL 0x110) pairA.itag.toNat (coelWord 3 c) = true) ∧
    (chosen 2).coelCount = 3 ∧ (∃ e, (chosen 2).coelEnt 2 = some e ∧ e.valid = true ∧ e.state = 2) ∧
    (∃ e, (chosen 4).coelEnt 2 = some e ∧ e.valid = true ∧ e.state = 4 ∧
      (((chosen 4).coelPut 2 2 true e.step).validObj e.frame [0]).isSome = true) ∧ (chosen 4).sched.swap = none ∧
    ((withQueue rTRANSIT 9 (queueOf []) (chosen 4)).queue rTRANSIT (chosen 4).coelQueue).state = .active ∧
    (∃ e, (chosen 0).coelEnt 2 = some e ∧ e.state ≠ 2 ∧ e.state ≠ 4) :=
  ⟨by decide +kernel, by decide +kernel, any_some (by decide +kernel), any_some (by decide +kernel), by decide +kernel,
    by decide +kernel, any_some (by decide +kernel)⟩
/-- Control operations of SCHED queue 0: an ADMIT of the record at 0xE0005000, RETIRE, JOIN and LEAVE. The record is of job 1 on
queue 63 with Dome 7 and no serving fields; with PERIOD 0 it fails. -/
def control (o : Op) (s : State := cold) : State := withQueue rSCHED 0 (queueOf [o]) (withQueue rSCHED 63 (queueOf []) s)
def admitOp : Op := op [1#32, 0#32, 0#32, 0#32, 0xE0005000#32]
def admitting (period : Nat) : State := control admitOp
  (put 0xE0005010 (leBytes 4 63 ++ leBytes 4 period) (put 0xE0005004 (leBytes 4 0x580) (put 0xE0005000 (leBytes 4 1)
    (put 0xE0005050 (leBytes 4 1) cold))))
def serving : State := jobState { r := { rec1 with serve := true } }
def joinOp : Op := op [4#32, 0#32, 0#32, 0#32, 1#32, 10#32, 20#32, 65536#32]
def leaveOp : Op := op [5#32, 0#32, 0#32, 0#32, 4095#32]
def oneRow (j : Job) : State := { cold with sched := { jobs := [(63, some j)], alm := [(4095, { state := 1, job := 1 })] } }

theorem witness_JobsAndRows :
    (admitting 1).control 1 = some admitOp ∧ admitOp.addr 0x10 % 128 = 0 ∧
    (∃ bs w, ((admitting 1).start rSCHED 0 admitOp).txRead (((admitting 1).start rSCHED 0 admitOp).queueItag rSCHED 0)
      (admitOp.addr 0x10) 128 (some (rSCHED, 0, admitOp.index)) = (.ok bs, w) ∧ w.admitCheck bs (JobRec.ofBytes bs) = stDONE) ∧
    (∃ bs w, ((admitting 0).start rSCHED 0 admitOp).txRead (((admitting 0).start rSCHED 0 admitOp).queueItag rSCHED 0)
      (admitOp.addr 0x10) 128 (some (rSCHED, 0, admitOp.index)) = (.ok bs, w) ∧ w.admitCheck bs (JobRec.ofBytes bs) ≠ stDONE) ∧
    (control (op [2#32, 0#32, 0#32, 0#32, 1#32]) (jobState { r := rec1 })).control 2 = some (op [2#32, 0#32, 0#32, 0#32, 1#32]) ∧
    (jobState { r := rec1 }).jobBy 1 = some { r := rec1 } ∧ cold.jobBy 1 = none ∧
    (control joinOp serving).control 4 = some joinOp ∧ serving.jobBy 1 = some { r := { rec1 with serve := true } } ∧
    (List.range 4096).find? (fun i => (serving.alm i).state == 0) = some 0 ∧
    joinOp.fld 0x14 16 0 ≤ joinOp.fld 0x18 16 0 ∧ joinOp.fld 0x18 16 0 ≤ joinOp.fld 0x1C 16 0 ∧
    joinOp.fld 0x14 16 0 < joinOp.fld 0x1C 16 0 ∧ joinOp.fld 0x1C 16 0 ≤ 65536 ∧
    (control leaveOp (oneRow { r := rec1 })).control 5 = some leaveOp ∧ ((oneRow { r := rec1 }).alm 4095).state ≠ 0 ∧
    ((oneRow { r := rec1 }).jobBy ((oneRow { r := rec1 }).alm 4095).job).isSome = true ∧
    (control leaveOp).control 5 = some leaveOp ∧ (cold.alm 4095).state = 0 :=
  ⟨by decide +kernel, by decide +kernel, any_ok (by decide +kernel), any_ok (by decide +kernel), by decide +kernel,
    by decide +kernel, by decide +kernel, by decide +kernel, by decide +kernel, by decide +kernel, by decide +kernel,
    by decide +kernel, by decide +kernel, by decide +kernel, by decide +kernel, by decide +kernel, by decide +kernel,
    by decide +kernel, by decide +kernel⟩

/-- Step 1 of job 1: a STEP descriptor that is next, a candidate whose reticle is one descriptor and END, an open step that has
written one descriptor of queue 5 of Dome 7, and a released one whose record is written. -/
def stepOp : Op := op [0x10#32, 0#32, 1#32]
def stepped (j : Job) (s : State := cold) : State := jobState j (withQueue rSCHED 63 (queueOf [stepOp]) s)
def candidate : Job := { r := { rec1 with nitems := 2, reticle := 0xE0006000, wmax := 10000 }, cand := some (0, 0) }
def openable : State := put 0xE0006080 [3#8] (stepped candidate)
def anOpen : OpenStep := { index := 0, number := 1, opened := 0, topen := 800, wstep := 900, qam := false, rows := [], descs := [(7, 5, 0)] }
def building : State := stepped { r := rec1, step := some anOpen } (withQueue 7 5 (queueOf []) cold)
def openedState : State := openable.coelClock
def boundaryOf : Opening := ({ s := openedState } : Opening).boundary candidate.r 0 1

theorem witness_StepsOpen :
    (stepped { r := rec1 }).jobAt 63 = some { r := rec1 } ∧ (stepped { r := rec1 }).nextOp rSCHED 63 = some stepOp ∧
    stepOp.opcode = 0x10 ∧ stepOp.step = ({ r := rec1 } : Job).lastStep + 1 ∧
    stepOp.step ≠ ({ r := rec1, lastStep := 1 } : Job).lastStep + 1 ∧
    openable.jobs.any Job.building = false ∧ openable.stepChoice = some (candidate, false) ∧
    openedState.findOp rSCHED 63 0 = some stepOp ∧ openedState.almOf 1 = [] ∧
    (∃ its w, State.readReticle boundaryOf.s 63 0 2 0xE0006000 [] = (.ok its, w) ∧ its ≠ [] ∧ ∀ i ∈ its, i.kind = 0) ∧
    building.jobs.find? Job.building = some { r := rec1, step := some anOpen } ∧
    (anOpen.descs.map (fun d => (d.1, d.2.1))).eraseDups = [(7, 5)] ∧
    (((({ building with sched := { jobs := [(63, some { r := rec1, step := some { anOpen with released := true } })] } } : State).setFlag
      (kSTAT rSCHED) 16 false).coelDirty 1 1).gate { itag := building.builder } (kDOORBELL 7 5) true 1#32).1 = .ok :=
  ⟨by decide +kernel, by decide +kernel, by decide +kernel, by decide +kernel, by decide +kernel, by decide +kernel,
    by decide +kernel, by decide +kernel, by decide +kernel, any_ok (by decide +kernel), by decide +kernel, by decide +kernel,
    by decide +kernel⟩

def released : OpenStep := { anOpen with released := true }
def closing : State := stepped { r := rec1, step := some released } (withQueue 7 5 { state := .active, tail := 1, released := 1, head := 1 } cold)

theorem witness_StepsClose :
    closing.jobAt 63 = some { r := rec1, step := some released } ∧ released.descs.all (fun d => closing.recordDone d) = true ∧
    closing.stepStatus released = 0 ∧ (∃ p, closing.findOp rSCHED 63 released.index = some p ∧ p.dl = false) ∧
    (closing.queue rSCHED 0).ops.all (fun p => p.opcode != 2) = true ∧
    900 < (closing.advance 2253).stepCycles { r := rec1, step := some released } released ∧
    (closing.advance 2253).injArmed rSCHED 2 = false :=
  ⟨by decide +kernel, by decide +kernel, by decide +kernel, any_some (by decide +kernel), by decide +kernel, by decide +kernel,
    by decide +kernel⟩

/-- Job 1 of PRIO 0 runs on Dome 7; job 2 of PRIO 7 has a released step and an operation that waits on Dome 7. -/
def low (p : Option Preempt) : Job := { r := { rec1 with prio := 0, liveMax := 215040 }, step := some released, pre := p }
def high : Job := { r := { rec1 with job := 2, sq := 2, dq := 6 }, step := some released }
def rivals (p : Option Preempt) : State := withQueue 7 6 (queueOf [runOp]) { working aRun with sched := { jobs := [(2, some high), (63, some (low p))] } }
def alone (p : Preempt) (d : Dome) : State := { cold with sched := { jobs := [(63, some (low (some p)))] }, domes := [(7, d)], now := 1936 }
def saving : Preempt := ⟨2, 0, 0, [7], []⟩
def restoring : Preempt := ⟨4, 0, 0, [7], [(7, 215040)]⟩

theorem witness_JobsGiveWay :
    (rivals none).jobAt 63 = some (low none) ∧ (rivals none).holdsSem 1 = false ∧ (rivals none).wanted (low none).r = true ∧
    (rivals (some ⟨1, 0, 0, [], []⟩)).jobAt 63 = some (low (some ⟨1, 0, 0, [], []⟩)) ∧
    (∀ k, k < 1 → ∀ o ∈ ((rivals none).queue rTRANSIT (9 + k)).ops, o.started = true → o.status.isSome = true) ∧
    (∀ e ∈ (rivals none).queues, e.1 / 4096 = rLNK → ∀ o ∈ e.2.ops, o.started = true → o.status = none → o.job ≠ 1) ∧
    (rivals none).runDomes (low none).r ≠ [] ∧ (alone ⟨1, 0, 0, [], []⟩ {}).runDomes (low none).r = [] ∧
    (alone saving { run := some aRun }).jobAt 63 = some (low (some saving)) ∧
    stageState aRun.map aRun.scan ≤ 215040 ∧ (215040#32).toNat ≤ (low none).r.liveMax ∧
    0 + saveNs 215040 ≤ (alone saving { run := some aRun }).now ∧
    (alone saving { run := some aRun }).validObj 0 [2, 3] = none ∧
    (alone ⟨3, 0, 0, [], []⟩ { saved := [aRun] }).restoreBlocked (low none).r [7] = false ∧
    (alone restoring { saved := [aRun] }).jobAt 63 = some (low (some restoring)) ∧
    0 + saveNs (Sparse.get (fun _ => 0) restoring.live 7) ≤ (alone restoring { saved := [aRun] }).now ∧
    ((alone restoring { saved := [aRun] }).dome 7).saved.find? (fun r => r.queue == (low none).r.dq) = some aRun :=
  ⟨by decide +kernel, by decide +kernel, by decide +kernel, by decide +kernel, by decide +kernel, by decide +kernel,
    by decide +kernel, by decide +kernel, by decide +kernel, by decide +kernel, by decide +kernel, by decide +kernel,
    by decide +kernel, by decide +kernel, by decide +kernel, by decide +kernel, by decide +kernel⟩

/-- Semaphore 63 held by job 1 since 0. -/
def semHeld : State := { jobState { r := rec1 } with sched := { jobs := [(63, some { r := rec1 })], sems := [(63, some ⟨1, 0, false⟩)] }, now := 253 }

theorem witness_Semaphores :
    cold.Reaches pairA (kSEM 63) (wordOf (2 ^ 16 + 1)) ∧ cold.sem 63 = none ∧
    (∀ j, cold.jobBy 1 = some j → j.pre = none ∧ j.suspended = false) ∧
    semHeld.Reaches pairA (kSEM 63) (wordOf (2 ^ 16 + 1)) ∧ semHeld.sem 63 ≠ none ∧
    semHeld.Reaches pairA (kSEM 63) (wordOf (1 + 2 * 2 ^ 16)) ∧ semHeld.sem 63 = some ⟨1, 0, false⟩ ∧
    semHeld.injArmed rSCHED 3 = false ∧ ({ semHeld with sched := { sems := [(63, some ⟨1, 0, false⟩)] } } : State).jobBy 1 = none ∧
    semHeld.jobBy 1 = some { r := rec1 } ∧ rec1.semhold < cyclesIn (semHeld.now - 0) :=
  ⟨reaches_of (by decide +kernel), by decide +kernel,
    (by intro j h; rw [show cold.jobBy 1 = none from (by decide +kernel)] at h; cases h),
    reaches_of (by decide +kernel), by decide +kernel, reaches_of (by decide +kernel), by decide +kernel, by decide +kernel,
    by decide +kernel, by decide +kernel, by decide +kernel⟩
/-! ### The Reduction array -/

/-- A context of one unknown for lane 255 (context 7) stands at 0xE0004000: its header, then K = 2.0, B = 1.0 and X = 0. -/
def image (h : Nat) (s : State := cold) : State :=
  put 0xE0004040 (leBytes 4 0x40000000 ++ leBytes 4 0x3F800000) (put 0xE0004000 (leBytes 4 h ++ leBytes 4 0 ++ leBytes 4 0x00800000) s)
def solvLoadOp : Op := op [1#32, 0#32, 0#32, 0#32, 0x7FF#32, 0#32, 0xE0004000#32]
def solvFreeOp : Op := op [2#32, 0#32, 0#32, 0#32, 0x7FF#32]
def array (o : Op) (s : State) : State := withQueue rSOLV 63 (queueOf [o]) s
def loads (h : Nat) : State := (array solvLoadOp (image h)).solvStart 63 solvLoadOp
def aCtx : SolvCtx := { n := 1, w := 0, itmax := 1, pertEn := false, pivtol := 0#32, pert := 0x00800000#32, tol := 0#32, sgn := 0,
                        ks := [0x40000000#32], bs := [0x3F800000#32], xs := [0#32] }

theorem witness_SolvContexts :
    solvLoadOp.fld 0x10 31 11 = 0 ∧ solvKey (solvLoadOp.fld 0x10 7 0) (solvLoadOp.fld 0x10 10 8) = 2047 ∧
    (array solvLoadOp (image 0x10000)).solvNext 63 1 = some solvLoadOp ∧ solvLoadOp.addr 0x18 % 64 = 0 ∧ solvLoadOp.word 5 = 0#32 ∧
    (solvLoadOp.words.drop 8).any (fun w => w != 0#32) = false ∧ (loads 0x10000).solvCtx 2047 = none ∧
    (∃ h w, (loads 0x10000).txRead (some 0x48) 0xE0004000 64 (some (rSOLV, 63, 0)) = (.ok h, w) ∧
      solvHeader (wordsOf h) = some { aCtx with ks := [], bs := [], xs := [] } ∧ packedLen 1 0 = 1 ∧
      okAnd (w.txRead (some 0x48) (0xE0004000 + 64) 12 (some (rSOLV, 63, 0))) (fun bs t => allFin (wordsOf bs) &&
        solvSpares.avail t 255 && (t.solvCtx 2047).isNone && decide (ctxBytes 1 0 ≤ t.laneFree 255)) = true) ∧
    (∃ h w, (loads 0).txRead (some 0x48) 0xE0004000 64 (some (rSOLV, 63, 0)) = (.ok h, w) ∧ solvHeader (wordsOf h) = none) ∧
    (array solvFreeOp { cold with solv := { ctxs := [(2047, some aCtx)] } }).solvNext 63 2 = some solvFreeOp ∧
    (solvFreeOp.words.drop 5).any (fun w => w != 0#32) = false ∧ aCtx.tenant = 0 :=
  ⟨by decide +kernel, by decide +kernel, by decide +kernel, by decide +kernel, by decide +kernel, by decide +kernel,
    by decide +kernel, any_ok (by decide +kernel), any_ok (by decide +kernel), by decide +kernel, by decide +kernel,
    by decide +kernel⟩

/-- A SOLVE of one problem, whose record at 0xE0004000 names lane 255, context 7 and one reference delta at 0xE0005000; without a
reference, or with that of step 1 of job 1, a deterministic job that has closed it or not. -/
def solveOp (useRef : Bool) : Op := op [0x00010010#32, 0#32, 0#32, 0#32, 0xE0004000#32, 0#32, 0#32, if useRef then 0x10001#32 else 1#32, 1#32, 0#32]
def detJob (closed : Nat) : Job := { r := { rec1 with det := true }, closed := closed }
def solving (useRef : Bool) (closed : Nat) : State := array (solveOp useRef) (jobState (detJob closed)
  { put 0xE0004000 (leBytes 4 0x7FF ++ leBytes 4 0x10000 ++ leBytes 8 0xE0005000 ++ leBytes 8 0xE0006000 ++ leBytes 8 0xE0007000) cold with
    solv := { ctxs := [(2047, some aCtx)] } })
def prob : SolvProb := { lane := 255, ctx := 7, force := false, ndelta := 0, nref := 1, dlist := 0xE0005000, xout := 0xE0006000, rrec := 0xE0007000 }

theorem witness_SolvesRun_solve : ∀ r : Bool,
    (solving r 1).solvNext 63 0x10 = some (solveOp r) ∧ solveWordsOk (solveOp r) = true ∧ flagOf ((solveOp r).word 7) 16 = r ∧
    (solving r 1).refClosed (solveOp r) = true ∧ (solving r 1).isDet (solveOp r).job = true ∧
    okAnd (((solving r 1).solvStart 63 (solveOp r)).txRead (some 0x48) ((solveOp r).addr 0x10) (32 * ((solveOp r).fld 0x18 9 0 + 1))
        (some (rSOLV, 63, (solveOp r).index))) (fun bs u =>
      ((solving r 1).solvStart 63 (solveOp r)).isDet (solveOp r).job && u.refClosed (solveOp r) &&
      decide (probsOf ((solveOp r).fld 0x18 9 0 + 1) bs = [prob]) && u.solveForm (solveOp r) [prob]
        (((solving r 1).solvStart 63 (solveOp r)).queue rSOLV 63).tenant && solvSpares.avail u 255 &&
      !(State.readDeltas r (rSOLV, 63, 0) [prob] u).2.1 &&
      (List.range 5).all (fun b => !(State.readDeltas r (rSOLV, 63, 0) [prob] u).2.2.injArmed rSOLV b)) = true ∧
    (solving true 0).solvNext 63 0x10 = some (solveOp true) ∧ (solving true 0).solveWaits (solveOp true) = true := by
  decide +kernel

/-- A SOLVE at work since 0, WCET 1 cycle, with a deadline that has come or none. -/
def solveRun : SolvRun := { queue := 63, index := 0, tenant := 0, start := 0, refprev := false, wcet := 1, probs := [prob] }
def solves (dl : Bool) : State := { array { solveOp false with words := [if dl then 0x410#32 else 0x10#32], started := true }
  { cold with solv := { ctxs := [(2047, some aCtx)], run := some solveRun } } with now := 1000 }

theorem witness_SolvesRun_ends : (solves true).solv.run = some solveRun ∧ solveRun.cut = none ∧
    (∃ o, (solves true).findOp rSOLV 63 0 = some o ∧ o.dl = true ∧ (solves true).reached o.deadline = true) ∧
    (solves true).incr ≠ 0 ∧ (∃ o, (solves false).findOp rSOLV 63 0 = some o ∧ o.dl = false) ∧
    solveRun.abortAt ((solves false).solvRunAll solveRun) = some (1, stERR_TIMEOUT_WCET) ∧ 1 < solvCyc ((solves false).now - 0) ∧
    cold.solv.run = none ∧ (∀ b : Bool, (((up [(kCTRL rSOLV, if b then 0x20000#32 else 0#32)]).count rSOLV 2).raise rSOLV 16
      { index := 255 }).flag (kCTRL rSOLV) 17 = b) :=
  ⟨by decide +kernel, by decide +kernel, any_some (by decide +kernel), by decide +kernel, any_some (by decide +kernel),
    by decide +kernel, by decide +kernel, by decide +kernel, by decide +kernel⟩
/-! ### The Occultation Unit -/

/-- Operations of OCC queue 63 over an image, a list of records or nothing at 0xE0004000. -/
def occ (o : Op) (s : State := cold) : State := withQueue rOCC 63 (queueOf [o]) s
def installOp : Op := op [1#32, 0#32, 0#32, 0#32, 0#32, 0#32, 0xE0004000#32]
def bodyOp : Op := op [2#32, 0#32, 0#32, 0#32, 7#32, 0#32, 0xE0004000#32]
def seedOp : Op := op [0x12#32, 0#32, 0#32, 0#32, 0xE0008000#32, 0#32, 63#32, 1000#32]
def checkOp : Op := op [0x10#32, 0#32, 0#32, 0#32, 0xE0004000#32, 0#32, 0#32, 16#32]
def selectOp : Op := op [0x11#32, 0#32, 0#32, 0#32, 32#32, 0#32, 4096#32]

/-- A Chart of one node without a block, its CRC right or wrong; a body model of one capsule. -/
def chartBytes : List Byte := leBytes 4 1 ++ leBytes 4 1 ++ List.replicate 4168 0#8
def installing (crc : Nat) : State := occ installOp (put 0xE0005050 (leBytes 4 crc) (put 0xE0004000 [1#8, 0#8, 0#8, 0#8, 1#8] cold))
def bodying : State := occ bodyOp (put 0xE0004000 [0x10#8] cold)

theorem install_chart : (chartOf 1 (chartBytes ++ leBytes 4 4190625536)).isSome = true := by
  simp only [chartOf, crc32c_forced]; decide +kernel
theorem install_bad : chartOf 1 (chartBytes ++ leBytes 4 0) = none := by
  simp only [chartOf, crc32c_forced]; decide +kernel

/-- After the header has been read: what the checks of the whole image's read leave, and the image. -/
def headed (crc : Nat) : State :=
  (((installing crc).occStart 63 installOp).txRead (some 0x49) 0xE0004000 64 (some (rOCC, 63, 0))).2
def passed (crc : Nat) : State :=
  (((headed crc).checkRun 0x49 false (some (rOCC, 63, 0)) (checkPoints 0xE0004000 4180)).2.memInjects
    ((checkPoints 0xE0004000 4180).map ((headed crc).checkRun 0x49 false (some (rOCC, 63, 0)) (checkPoints 0xE0004000 4180)).2.site)).2

theorem image_split (crc : Nat) : chartBytes ++ leBytes 4 crc =
    ((leBytes 4 1 ++ leBytes 4 1 ++ List.replicate 2040 0#8) ++ List.replicate 2048 0#8) ++ (List.replicate 80 0#8 ++ leBytes 4 crc) := by
  rw [chartBytes, show 4168 = 2040 + 2048 + 80 from rfl, List.replicate_add, List.replicate_add]
  simp only [List.append_assoc]

theorem image_read (crc : Nat) (h : crc = 0 ∨ crc = 4190625536) :
    ∃ u, (headed crc).txRead (some 0x49) 0xE0004000 (0x1044 + 16 * 1) (some (rOCC, 63, 0)) = (.ok (chartBytes ++ leBytes 4 crc), u) := by
  rw [image_split]
  rcases h with rfl | rfl
  · exact txRead_ok (by decide +kernel) (by decide +kernel)
      (readSys_append (s := passed 0) (a := 0xE0004000) (m := 4096) (n := 84)
        (readSys_append (m := 2048) (n := 2048) (by decide +kernel) (by decide +kernel)) (by decide +kernel))
  · exact txRead_ok (by decide +kernel) (by decide +kernel)
      (readSys_append (s := passed 4190625536) (a := 0xE0004000) (m := 4096) (n := 84)
        (readSys_append (m := 2048) (n := 2048) (by decide +kernel) (by decide +kernel)) (by decide +kernel))

theorem witness_ChartsAndBodies :
    installing 0 = (installing 0).dropDeadOcc ∧
    (installing 0).occNext 63 1 = some installOp ∧ (List.range 3).find? (fun k => ((installing 0).slot_ k).st == 0) = some 0 ∧
    installOp.addr 0x18 % 64 = 0 ∧ installOp.word 4 = 0#32 ∧ installOp.word 5 = 0#32 ∧ zeroWords installOp 8 = true ∧
    (∀ crc, crc = 0 ∨ crc = 4190625536 →
      (∃ h w, ((installing crc).occStart 63 installOp).txRead (some 0x49) 0xE0004000 64 (some (rOCC, 63, 0)) = (.ok h, w) ∧
        bitsOf (leNat ((h.drop 4).take 4)) 20 0 = 1) ∧
      ∃ u, (headed crc).txRead (some 0x49) 0xE0004000 (0x1044 + 16 * 1) (some (rOCC, 63, 0)) = (.ok (chartBytes ++ leBytes 4 crc), u)) ∧
    bodying.dropDeadOcc.occNext 63 2 = some bodyOp ∧ bodyOp.addr 0x18 % 64 = 0 ∧ bodyOp.fld 0x10 31 3 = 0 ∧ bodyOp.word 5 = 0#32 ∧
    zeroWords bodyOp 8 = true ∧
    (∃ h w, (bodying.dropDeadOcc.occStart 63 bodyOp).txRead (some 0x49) 0xE0004000 64 (some (rOCC, 63, 0)) = (.ok h, w) ∧
      bitsOf (leNat (h.take 4)) 3 0 = 0 ∧
      okAnd (w.txRead (some 0x49) 0xE0004000 96 (some (rOCC, 63, 0))) (fun bs _ => bodyStatus bs == 0) = true) ∧
    (occ seedOp).dropDeadOcc.occNext 63 0x12 = some seedOp ∧ seedOp.addr 0x10 % 16 = 0 ∧ seedOp.fld 0x18 31 6 = 0 ∧
    zeroWords seedOp 10 = true ∧ ((occ seedOp).dropDeadOcc.occStart 63 seedOp).occ.plan = none ∧
    ({ occ seedOp with occ := { plan := some ⟨[], [], 0⟩ } } : State).dropDeadOcc.occNext 63 0x12 = some seedOp ∧
    ((({ occ seedOp with occ := { plan := some ⟨[], [], 0⟩ } } : State).dropDeadOcc).occStart 63 seedOp).occ.plan = some ⟨[], [], 0⟩ :=
  ⟨by decide +kernel, by decide +kernel, by decide +kernel, by decide +kernel, by decide +kernel, by decide +kernel,
    by decide +kernel,
    fun crc h => ⟨by rcases h with rfl | rfl <;> exact any_ok (by decide +kernel), image_read crc h⟩, by decide +kernel, by decide +kernel,
    by decide +kernel, by decide +kernel, by decide +kernel, any_ok (by decide +kernel), by decide +kernel, by decide +kernel,
    by decide +kernel, by decide +kernel, by decide +kernel, by decide +kernel, by decide +kernel⟩

/-- A candidate of model 0 with one knot at 0xE0005000 and a block of 64 bytes at 0xE0006000; a current Chart in slot 2; plan and
fall-back entries of step 0. -/
def cand (w0 : Word) : List Word := [w0, 0#32, 0xE0005000#32, 0#32, 0#32, 0#32, 1000000#32, 0#32, 0xE0006000#32, 0#32, 64#32, 0#32,
                                     0#32, 0#32, 0#32, 0#32]
def candBytes : List Byte := bytesOf (cand 0#32)
def aBody : Body := { sub := 1, infl := 0#32, caps := [List.replicate 7 0#32] }
def aChart : Chart := { t0 := 0, corner := (0#32, 0#32, 0#32), source := 0, cols := List.replicate 1024 0, nodes := [⟨0, 0, 0, 0⟩] }
def current : ChartSlot := { st := 2, epoch := 1, nodes := 1, chart := some aChart }
def entry (w0 : Word) : OccEntry := { words := cand w0, step := 0, clear := true, epoch := 1 }
def checking (slots : Sparse ChartSlot) : State :=
  { occ checkOp (put 0xE0004000 candBytes cold) with occ := { slots := slots, bodies := [(0, some aBody)] } }
def selecting : State := { occ selectOp with occ := { slots := [(2, current)], table := [(1, some (entry 1#32)), (2, some (entry 0x802#32))] } }

theorem witness_ChecksAndSelects_check : ∀ slots ∈ [[], [(2, current)]],
    (checking slots).dropDeadOcc.occNext 63 0x10 = some checkOp ∧ checkOk checkOp = true ∧
    okAnd (((checking slots).dropDeadOcc.occStart 63 checkOp).txRead (some 0x49) (checkOp.addr 0x10) (64 * (checkOp.fld 0x18 10 0 + 1))
        (some (rOCC, 63, 0))) (fun bs w => splitRecs (checkOp.fld 0x18 10 0 + 1) (wordsOf bs) == [cand 0#32] &&
      candOk (cand 0#32) && (w.bodyModel (cFld (cand 0#32) 0 14 12)).isSome && distinct [cFld (cand 0#32) 0 10 0] &&
      okAnd (State.readKnots (rOCC, 63, 0) [cand 0#32] w) (fun _ x => (List.range 5).all (fun b => !x.injArmed rOCC b) &&
        decide (x.curSlot = if slots = [] then none else some 2) && ((slots == []) || (x.slot_ 2).chart == some aChart))) = true := by
  decide +kernel

theorem witness_ChecksAndSelects_select :
    (occ selectOp).dropDeadOcc.occNext 63 0x11 = some selectOp ∧ selectOk selectOp = true ∧
    ((occ selectOp).dropDeadOcc.occStart 63 selectOp).curSlot = none ∧
    ((occ selectOp).dropDeadOcc.occStart 63 selectOp).injArmed rOCC 3 = false ∧
    selecting.dropDeadOcc.occNext 63 0x11 = some selectOp ∧ (selecting.dropDeadOcc.occStart 63 selectOp).curSlot = some 2 ∧
    ((selecting.dropDeadOcc.occStart 63 selectOp).slot_ 2).chart = some aChart ∧
    ((selecting.dropDeadOcc.occStart 63 selectOp).slot_ 2).epoch = 1 ∧ (selecting.dropDeadOcc.occStart 63 selectOp).injArmed rOCC 3 = false ∧
    (selecting.dropDeadOcc.occStart 63 selectOp).eligible selectOp.step false = [entry 1#32] ∧
    (∃ b1 w1, (selecting.dropDeadOcc.occStart 63 selectOp).txRead (some 0x49) (cAddr (cand 1#32) 8) (16 * cNk (cand 1#32))
        (some (rOCC, 63, 0)) = (.ok b1, w1) ∧ w1.eligible selectOp.step true = [entry 0x802#32] ∧
      okAnd (w1.txRead (some 0x49) (cAddr (cand 0x802#32) 8) (16 * cNk (cand 0x802#32)) (some (rOCC, 63, 0))) (fun b2 w2 =>
        !w2.injArmed rOCC 3 && okAnd (w2.readBlock (some ⟨cand 1#32, wordsOf b1, 1⟩) (rOCC, 63, 0)) (fun _ w3 =>
          okAnd (w3.readBlock (some ⟨cand 0x802#32, wordsOf b2, 1⟩) (rOCC, 63, 0)) (fun _ w4 =>
            (List.range 5).all (fun b => !w4.injArmed rOCC b)))) = true) :=
  ⟨by decide +kernel, by decide +kernel, by decide +kernel, by decide +kernel, by decide +kernel, by decide +kernel,
    by decide +kernel, by decide +kernel, by decide +kernel, by decide +kernel, any_ok (by decide +kernel)⟩

/-- A CHECK whose deadline has come; a SELECT past its watchdog of 10 cycles; a SELECT whose hand-off has been answered. -/
def aChoice : Choice := { kind := 0, status := stDONE, record := [] }
def atWork (x : OccRun) (o : Op) : State := { occ { o with started := true } with occ := { run := some x }, now := 21 }
def checkRun : OccRun := { queue := 63, index := 0, start := 0, cycles := 100 }
def selectRun : OccRun := { checkRun with wcet := 10, choice := some aChoice }
/-- The same past its watchdog, with its registers shown. -/
def expired : State := (atWork selectRun selectOp).dropDeadOcc
def answered (rep : Nat) : State :=
  { occ { selectOp with started := true } with occ := { wait := some ⟨63, 0, aChoice⟩ }, drive := { report := some rep } }

theorem witness_ChecksAndSelects_ends :
    (∃ o, (atWork checkRun { checkOp with words := [0x410#32] }).findOp rOCC 63 0 = some o ∧ o.opcode = 0x10 ∧ o.dl = true ∧
      (atWork checkRun { checkOp with words := [0x410#32] }).reached o.deadline = true) ∧ checkRun.cut = none ∧
    (atWork checkRun checkOp).occ.run = some checkRun ∧ (atWork checkRun checkOp).incr ≠ 0 ∧
    expired.occ.run = some selectRun ∧ (∃ o, expired.findOp rOCC 63 0 = some o ∧ o.opcode = 0x11) ∧
    selectRun.body = none ∧ selectRun.write = none ∧ selectRun.cut = none ∧ expired.occ.load = none ∧
    expired.dropDeadOcc = expired ∧ selectRun.wcet < selectRun.cycles + selectRun.slow ∧ 0 + occNs 10 < expired.now ∧
    (answered 0).drive.report = some 0 ∧ (answered 1).drive.report = some 1 ∧ (answered 0).occ.wait = some ⟨63, 0, aChoice⟩ :=
  ⟨any_some (by decide +kernel), by decide +kernel, by decide +kernel, by decide +kernel, by decide +kernel,
    any_some (by decide +kernel), by decide +kernel, by decide +kernel, by decide +kernel, by decide +kernel, by decide +kernel,
    by decide +kernel, by decide +kernel, by decide +kernel, by decide +kernel, by decide +kernel⟩
/-! ### NOPs, sensors and fusion -/

/-- A NOP at the front of queue 1 of every block that takes one. -/
def nopOp : Op := op [3#32]
def nops : State := [7, rSCHED, rSOLV, rAFU, rDRIVE, rLNK, rSEC, rOCC].foldl (fun s r => withQueue r 1 (queueOf [nopOp]) s) cold

theorem witness_NopsComplete : nopOp.opcode = 3 ∧ (∀ r ∈ [7, rSCHED, rSOLV, rAFU, rDRIVE, rLNK, rSEC], nops.nextOp r 1 = some nopOp) ∧
    nops.inFlight rSEC = false ∧ nops.pick rSEC = some 1 ∧ nops.dropDeadOcc.occNext 1 3 = some nopOp :=
  ⟨by decide +kernel, by decide +kernel, by decide +kernel, by decide +kernel, by decide +kernel⟩

/-- Sensor slot 31, enabled, of a kind and in a state (0 OFF, 1 ACQUIRE, 2 LOCKED, 3 UNLOCKED, 4 SILENT), stream 15. -/
def sensor (kind st : Nat) (x : AfuSlot := {}) : State :=
  (up [(kSEN 31 0, wordOf (kind + 0x80000F0)), (kSEN 31 2, wordOf st)]).putSen 31 x

theorem witness_SensorsFollow : ∀ k ∈ [1, 3], 
    (sensor k 4).senOn 31 = true ∧ (sensor k 4).pdDown (regionPd rAFU) = false ∧ (sensor k 4).senState 31 = 4 ∧
    (sensor 3 1).senState 31 = 1 ∧ 3 ≤ (sensor 3 1).senKind 31 ∧
    (sensor 1 2 { frames := [(0, none)] }).senState 31 = 2 ∧ (sensor 1 2 { frames := [(0, none)] }).senKind 31 = 1 ∧
    pairFrame 0 ((sensor 1 2 { frames := [(0, none)] }).sen 31).fwin 0 [(0, none)] = some [(0, some 3)] ∧ pairFrame 0 0 0 [] = none ∧
    ((sensor 1 k { refs := [0] }).sen 31).refs = [0] ∧ ((sensor 1 k { refs := [0] }).sen 31).ref = none ∧
    (sensor 1 k { refs := [0] }).injArmed rAFU 3 = false ∧ (((sensor 1 k { refs := [0] }).sen 31).map 100).isSome = true ∧
    0 + 4 * (sensor 1 2).senPer 31 ≤ ((sensor 1 2).advance 133333332).now ∧
    ((sensor 1 2 { frames := [(0, some 3)] }).sen 31).frames = [(0, some 3)] ∧
    0 + ((sensor 1 2 { frames := [(0, none)] }).sen 31).fwin < ((sensor 1 2 { frames := [(0, none)] }).advance 1).now ∧
    (∃ b, (((sensor 2 2 { points := [2] }).putStr 15 { bound := [⟨15, 0, 0, 0, 0, 0, []⟩] }).str 15).bound.find?
        (fun b => some b.phase != ((sensor 2 2 { points := [2] }).sen 31).moved) = some b ∧
      (sensor 2 2 { points := [2] }).timeOf b.phase = some 0 ∧
      ((sensor 2 2 { points := [2] }).sen 31).points.any (fun p => decide (0 < p)) = true) := by
  intro k hk
  rcases List.mem_cons.1 hk with rfl | hk
  · exact ⟨by decide +kernel, by decide +kernel, by decide +kernel, by decide +kernel, by decide +kernel, by decide +kernel,
      by decide +kernel, by decide +kernel, by decide +kernel, by decide +kernel, by decide +kernel, by decide +kernel,
      by decide +kernel, by decide +kernel, by decide +kernel, by decide +kernel, any_some (by decide +kernel)⟩
  · cases List.mem_singleton.1 hk
    exact ⟨by decide +kernel, by decide +kernel, by decide +kernel, by decide +kernel, by decide +kernel, by decide +kernel,
      by decide +kernel, by decide +kernel, by decide +kernel, by decide +kernel, by decide +kernel, by decide +kernel,
      by decide +kernel, by decide +kernel, by decide +kernel, by decide +kernel, any_some (by decide +kernel)⟩

/-- Stream 15: one instant a revolution at phase 0, AGEMAX 511 ms. Its ISSUE; a CONTRIB of sensor 31 with one element captured
at 2,000 ns; the ISSUE after the instant of revolution 0, when ten revolutions have passed. -/
def issueOp : Op := op [1#32, 0#32, 0#32, 0#32, 0xE0004000#32]
def contribOp : Op := op [2#32, 0#32, 0#32, 0#32, 31#32, 1#32, 2000#32, 0#32, 0xE0004000#32]
def stream (age : Nat) (s : State := cold) : State := up [(kSTR 15, wordOf (1 + 128 * age + 2 ^ 17))] s
def issuing : State := withQueue rAFU 15 (queueOf [issueOp]) (stream 511)
def tooLate : State := { (withQueue rAFU 15 (queueOf [issueOp]) (stream 0)).putStr 15 { last := some 0#64 } with
  now := 1000000000, phase := 10 * 2 ^ 64, afu := { streams := [(15, { last := some 0#64 })], phaseLog := [(0, 0, cold.incr)] } }
def instant : Bound := ⟨15, 0, 0x100000000#64, 0xE0004000, 0, 0, []⟩
def contributing : State := { withQueue rAFU 31 (queueOf [contribOp]) (stream 511 (sensor 1 2)) with
  afu := { streams := [(15, { bound := [instant] })], poses := [⟨0, []⟩], lastImu := some 0, lastFix := some 0 } }

theorem witness_FusionInstants_operations :
    (∀ s ∈ [issuing, tooLate], s.nextOp rAFU 15 = some issueOp ∧ s.flag (kSTR 15) 17 = true ∧ (s.str 15).bound = [] ∧
      zeroWords issueOp 10 = true) ∧
    (issuing.start rAFU 15 issueOp).timeOf (BitVec.ofNat 64 ((issuing.start rAFU 15 issueOp).instantAfter 15 0)) = some 100000001 ∧
    issuing.now ≤ 100000001 + issuing.agemax 15 ∧
    (tooLate.start rAFU 15 issueOp).timeOf (BitVec.ofNat 64 ((tooLate.start rAFU 15 issueOp).instantAfter 15 0)) = some 100000001 ∧
    100000001 + tooLate.agemax 15 < tooLate.now ∧
    contributing.nextOp rAFU 31 = some contribOp ∧ contribOk contribOp = true ∧ contributing.senStream 31 = 15 ∧
    contribOp.fld 0x10 6 5 = 0 ∧ contributing.senState 31 = 2 ∧ contributing.injArmed rAFU 2 = false ∧
    (contributing.str 15).bound = [instant] ∧ contributing.timeOf instant.phase = some 100000001 ∧
    contribOp.addr 0x18 ≤ 100000001 + 1000 ∧
    contributing.timeOf (BitVec.ofNat 64 (contributing.instantBefore 15 instant.phase.toNat)) = some 0 ∧ 0 + 1000 < contribOp.addr 0x18 ∧
    (contributing.start rAFU 31 contribOp).timeOf instant.phase = some 100000001 ∧
    100000001 ≤ contribOp.addr 0x18 + (contributing.start rAFU 31 contribOp).egoRefresh.agemax 15 ∧
    (contributing.start rAFU 31 contribOp).egoRefresh.inTable (contribOp.addr 0x18) = true ∧
    okAnd ((contributing.start rAFU 31 contribOp).egoRefresh.txRead (some 0x4A) (contribOp.addr 0x20) (48 * contribOp.fld 0x14 12 0)
      (some (rAFU, 31, 0))) (fun _ _ => true) = true := by
  refine ⟨by decide +kernel, by decide +kernel, by decide +kernel, by decide +kernel, by decide +kernel, by decide +kernel,
    by decide +kernel, by decide +kernel, by decide +kernel, by decide +kernel, by decide +kernel, by decide +kernel,
    by decide +kernel, by decide +kernel, by decide +kernel, by decide +kernel, by decide +kernel, by decide +kernel,
    by decide +kernel, by decide +kernel⟩

/-- Fusion deadlines of stream 15: with nothing bound, with the instant bound and its phase come, with AFU power-gated; a pose
table whose newest pose is 1 ms old. -/
def fusing (s : State) : State := { s with merid := { s.merid with flying := [⟨0, .fusion 15, 0, 0x100000000#64⟩] } }
def dueStream : State := { stream 511 with afu := { streams := [(15, { bound := [instant] })] }, sched := {} }
def alive : State := withQueue rAFU 15 (queueOf [{ issueOp with started := true }]) dueStream

theorem witness_FusionInstants_deadlines :
    cold.pdDown (regionPd rAFU) = false ∧ 0 + 1000000 ≤ (cold.advance 1000000).now ∧ (cold.egoRefresh).injArmed rAFU 5 = false ∧
    recent cold cold.afu.lastImu 20000000 = false ∧ (up [(kSTAT rAFU, 0#32)]).egoq ≠ 3 ∧ cold.egoq = 3 ∧
    (∃ x, (fusing (up [(kPdStat (regionPd rAFU), 3#32)])).takeDue Action.isFusion = some x ∧ x.1.action = .fusion 15 ∧ x.2.dropsAt rAFU = true) ∧
    (∃ x, (fusing (stream 511)).takeDue Action.isFusion = some x ∧ x.1.action = .fusion 15 ∧ x.2.dropsAt rAFU = false ∧
      (x.2.slotFired x.1.slot).dueInstant 15 x.1 = none) ∧
    (∃ x, (fusing alive).takeDue Action.isFusion = some x ∧ x.1.action = .fusion 15 ∧ x.2.dropsAt rAFU = false ∧
      (x.2.slotFired x.1.slot).dueInstant 15 x.1 = some instant ∧
      ((x.2.slotFired x.1.slot).lidarMoves 15 instant).opAlive rAFU 15 instant.index = true ∧
      (((x.2.slotFired x.1.slot).lidarMoves 15 instant).egoRefresh).timeOf instant.phase = some 100000001 ∧
      ((((x.2.slotFired x.1.slot).lidarMoves 15 instant).egoRefresh).gather 15 100000001 instant).1 = [] ∧
      ((((x.2.slotFired x.1.slot).lidarMoves 15 instant).egoRefresh).gather 15 100000001 instant).2.1 = [] ∧
      (((x.2.slotFired x.1.slot).lidarMoves 15 instant).egoRefresh).flag (rk rAFU 3 0x100) 0 = false ∧
      (((x.2.slotFired x.1.slot).lidarMoves 15 instant).egoRefresh).injArmed rAFU 0 = false ∧
      (((x.2.slotFired x.1.slot).lidarMoves 15 instant).egoRefresh).injArmed rAFU 1 = false) :=
  ⟨by decide +kernel, by decide +kernel, by decide +kernel, by decide +kernel, by decide +kernel, by decide +kernel,
    any_some (by decide +kernel), any_some (by decide +kernel), any_some (by decide +kernel)⟩
/-! ### The Clock Drive -/

/-- A loop descriptor of one state, plant input and sensor, OUTDIV 2 and STALEMAX 1, all else zero, with its CRC. -/
def loopWords : List Word := [0x221#32, 0x01000200#32] ++ List.replicate 4093 0#32 ++ [414511225#32]
def aLoop : LoopDesc := ⟨loopWords⟩

theorem wordsOf_zeros (n : Nat) (l : List Byte) : wordsOf (List.replicate (4 * n) 0#8 ++ l) = List.replicate n 0#32 ++ wordsOf l := by
  induction n with
  | zero => rfl
  | succ n ih =>
    rw [Nat.mul_succ, Nat.add_comm, List.replicate_add]
    show wordsOf (0#8 :: 0#8 :: 0#8 :: 0#8 :: (List.replicate (4 * n) 0#8 ++ l)) = _
    rw [wordsOf, ih]
    rfl

theorem bytesOf_zeros (n : Nat) : bytesOf (List.replicate n 0#32) = List.replicate (4 * n) 0#8 := by
  induction n with
  | zero => rfl
  | succ n ih =>
    rw [Nat.mul_succ, List.replicate_succ, Nat.add_comm, List.replicate_add, ← ih]
    rfl

theorem sramRead_append {s : State} {a m n : Nat} {x y : List Byte} (hx : s.sramRead a m = some x) (hy : s.sramRead (a + m) n = some y) :
    s.sramRead a (m + n) = some (x ++ y) := by
  have gen : ∀ (l : List Nat) (r x : List Byte) (f : Nat → Option Byte),
      l.foldr (fun i acc => match f i, acc with | some b, some r => some (b :: r) | _, _ => none) (some []) = some x →
      l.foldr (fun i acc => match f i, acc with | some b, some r => some (b :: r) | _, _ => none) (some r) = some (x ++ r) := by
    intro l
    induction l with
    | nil => intro r x f h; cases h; rfl
    | cons i l ih =>
      intro r x f h
      simp only [List.foldr_cons] at h ⊢
      split at h
      · rename_i g r' hg hr
        rw [hg, ih r r' f hr]
        cases h
        rfl
      · cases h
  simp only [State.sramRead, List.range_add, List.foldr_append, List.foldr_map] at hx hy ⊢
  simp only [← Nat.add_assoc]
  rw [hy]
  exact gen _ y x (fun i => s.readKey (dKey (a + i))) hx
theorem sramRead_zeros {s : State} {a n : Nat} (h : ∀ i, i < n → s.readKey (dKey (a + i)) = some 0#8) :
    s.sramRead a n = some (List.replicate n 0#8) := by
  induction n with
  | zero => rfl
  | succ n ih =>
    rw [List.replicate_succ']
    refine sramRead_append (ih (fun i hi => h i (by omega))) ?_
    show (match s.readKey (dKey (a + n + 0)), some [] with | some b, some r => some (b :: r) | _, _ => none) = _
    rw [Nat.add_zero, h n (by omega)]

/-- The descriptor's bytes at an offset of the SRAM: those that are not zero, by key. -/
def loopMem (b : Nat) : Sparse Byte := [(dKey b, 0x21#8), (dKey b + 1, 2#8), (dKey b + 5, 2#8), (dKey b + 7, 1#8),
  (dKey b + 0x3FFC, 0x79#8), (dKey b + 0x3FFD, 0xF0#8), (dKey b + 0x3FFE, 0xB4#8), (dKey b + 0x3FFF, 0x18#8)]

theorem loop_read {s : State} {b : Nat} (h1 : s.sramRead b 8 = some (bytesOf [0x221#32, 0x01000200#32]))
    (h2 : ∀ i, i < 16372 → s.readKey (dKey (b + 8 + i)) = some 0#8)
    (h3 : s.sramRead (b + 0x3FFC) 4 = some (bytesOf [414511225#32])) : s.sramWords b 4096 = some loopWords := by
  have h := sramRead_append (m := 8 + 16372) (n := 4) (sramRead_append h1 (sramRead_zeros h2)) h3
  rw [State.sramWords, show 4 * 4096 = 8 + 16372 + 4 from rfl, h, Option.map_some, show 16372 = 4 * 4093 from rfl,
    List.append_assoc]
  show some (wordsOf (_ :: _ :: _ :: _ :: _ :: _ :: _ :: _ :: (List.replicate (4 * 4093) 0#8 ++ bytesOf [414511225#32]))) = _
  rw [wordsOf, wordsOf, wordsOf_zeros]
  rfl

/-- Loop 63 in a state (0 DISABLED, 1 RUN, 2 FAULT) with this descriptor, active and shadow, one sample taken; a sample action
of it due, a sample of it on core 0. -/
def loop (st : Nat) (x : Drive := {}) : State := { up [(kLSTAT 63, wordOf st)] with
  mem := loopMem (descOff 63) ++ loopMem (0x4000 + descOff 63) ++ [(dKey (stateOff 63 + 0xC0), 1#8)], drive := x }

theorem loop_zero (b : Nat) (hb : b = descOff 63 ∨ b = 0x4000 + descOff 63) (s : State)
    (hm : s.mem = (loop 0).mem) (hw : s.badWords = []) : ∀ i, i < 16372 → s.readKey (dKey (b + 8 + i)) = some 0#8 := by
  intro i hi
  simp only [State.readKey, hw, List.contains_nil, Bool.false_eq_true, if_false, State.raw, hm]
  rcases hb with rfl | rfl <;>
  · simp only [loop, loopMem, dKey, descOff, stateOff, List.cons_append, List.nil_append, Sparse.get]
    repeat rw [if_neg (by omega)]
    rfl

/-- A state with the memory of `loop`, for what the commands read of it. -/
theorem loop_desc {s : State} (hm : s.mem = (loop 0).mem) (hw : s.badWords = [])
    (ha : ∀ b ∈ [descOff 63, 0x4000 + descOff 63], s.sramRead b 8 = some (bytesOf [0x221#32, 0x01000200#32]) ∧
      s.sramRead (b + 0x3FFC) 4 = some (bytesOf [414511225#32])) : s.loopDesc 63 = some aLoop ∧ s.shadowDesc 63 = some aLoop := by
  have h := fun b hb => loop_read (ha b hb).1 (loop_zero b ((List.mem_cons.1 hb).imp_right List.mem_singleton.1) s hm hw) (ha b hb).2
  exact ⟨by rw [State.loopDesc, h _ (List.mem_cons_self ..)]; rfl,
    by rw [State.shadowDesc, h _ (List.mem_cons_of_mem _ (List.mem_singleton.2 rfl))]; rfl⟩

theorem aLoop_zero (off : Nat) (h8 : 8 ≤ off) (h : off < 0x3FFC) : aLoop.w off = 0#32 := by
  have h2 : off / 4 - 2 < 4093 := by omega
  rw [LoopDesc.w, aLoop, loopWords, List.append_assoc, List.getD_append_right _ _ _ _ (by show 2 ≤ _; omega),
    List.getD_append _ _ _ _ (by rw [List.length_replicate]; exact h2),
    List.getD_eq_getElem _ _ (by rw [List.length_replicate]; exact h2), List.getElem_replicate]

theorem aLoop_crc : crc32c (bytesOf (loopWords.take 4095)) = 414511225 := by
  have h : bytesOf (loopWords.take 4095) = bytesOf [0x221#32, 0x01000200#32] ++ List.replicate (4 * 4093) 0#8 := by
    rw [loopWords, List.take_left' (by simp only [List.length_append, List.length_replicate, List.length_cons, List.length_nil]), bytesOf, List.flatMap_append, ← bytesOf_zeros]
    rfl
  rw [h, crc32c_forced]
  decide +kernel

theorem aLoop_ok : aLoop.ok = true := by
  have hz : aLoop.zeroed = true := by
    simp only [LoopDesc.zeroed, descGaps, List.all_cons, List.all_nil, List.all_eq_true, List.mem_range, Bool.and_eq_true, beq_iff_eq,
      and_true]
    refine ⟨⟨⟨?_, ?_, ?_, ?_, ?_, ?_⟩, by decide +kernel⟩, by decide +kernel⟩ <;>
      exact fun i hi => aLoop_zero _ (by omega) (by omega)
  have hc : ((aLoop.w 0x3FFC).toNat == crc32c (bytesOf (aLoop.ws.take 4095))) = true := by
    rw [show aLoop.ws = loopWords from rfl, aLoop_crc]
    decide +kernel
  simp only [LoopDesc.ok, hc, hz, Bool.true_and]
  decide +kernel

/-- What the SRAM of a state of `loop` holds of the descriptors. -/
theorem loop_descs {s : State} (hm : s.mem = (loop 0).mem) (hw : s.badWords = []) :
    s.loopDesc 63 = some aLoop ∧ s.shadowDesc 63 = some aLoop := by
  have hr : ∀ a n, s.sramRead a n = (loop 0).sramRead a n := by
    intro a n
    simp only [State.sramRead, State.readKey, State.raw, hm, hw]
    rfl
  refine loop_desc hm hw (fun b hb => ?_)
  rw [hr, hr]
  revert b
  decide +kernel

/-- The descriptor of an SRAM that holds nothing. -/
def noLoop : LoopDesc := ⟨List.replicate 4096 0#32⟩
theorem noLoop_read {s : State} (hm : s.mem = []) (hw : s.badWords = []) : s.loopDesc 63 = some noLoop := by
  rw [State.loopDesc, State.sramWords, sramRead_zeros (fun i _ => by simp only [State.readKey, hw, State.raw, hm]; rfl), Option.map_some,
    ← List.append_nil (List.replicate (4 * 4096) 0#8), wordsOf_zeros, show wordsOf [] = [] from rfl, List.append_nil]
  rfl
theorem noLoop_bad : noLoop.ok = false := by
  have h : decide (1 ≤ noLoop.nx) = false := by decide +kernel
  simp only [LoopDesc.ok, h, Bool.and_false, Bool.false_and]

def sampleDue (s : State) : State := { s with merid := { s.merid with flying := [⟨5, .sample 63, 10, 0#64⟩] }, now := 24010 }
def sampleAt (t : Nat) : State := { sampleDue (loop 1 { loops := [(63, { lastMatch := some t })] }) with merid := { flying := [⟨5, .sample 63, 24010, 0#64⟩] } }
def aSample : Sample := ⟨63, 5, 10, [0#32], false⟩
def queued : State := { loop 1 { queue := [(0, [aSample])] } with now := 10 }
def taken : State := queued.setCoreQueue 0 []

theorem witness_LoopsSample_action :
    (∃ x, (sampleDue (up [(kPdStat (regionPd rDRIVE), 3#32)])).takeDue Action.isSample = some x ∧ x.1.action = .sample 63 ∧
      x.2.dropsAt rDRIVE = true) ∧
    (∃ x, (sampleAt 1).takeDue Action.isSample = some x ∧ x.1.action = .sample 63 ∧ x.2.dropsAt rDRIVE = false ∧
      (x.2.slotFired x.1.slot).loopState 63 ≠ 0 ∧ (x.2.slotFired x.1.slot).sampleEarly 63 (x.1.due - 10) = true) ∧
    (∃ x, (sampleAt 0).takeDue Action.isSample = some x ∧ x.1.action = .sample 63 ∧ x.2.dropsAt rDRIVE = false ∧
      (x.2.slotFired x.1.slot).loopState 63 ≠ 0 ∧ (x.2.slotFired x.1.slot).sampleEarly 63 (x.1.due - 10) = false ∧
      ((x.2.slotFired x.1.slot).aux 63).swap = false ∧ (x.2.slotFired x.1.slot).mem = (loop 0).mem ∧
      (x.2.slotFired x.1.slot).badWords = []) :=
  ⟨any_some (by decide +kernel), any_some (by decide +kernel), any_some (by decide +kernel)⟩

theorem witness_LoopsSample_execute :
    queued.coreQueue 0 = [aSample] ∧ aSample.due ≤ queued.now ∧ Sparse.get (fun _ => 0) queued.drive.busy 0 ≤ 4 * queued.now ∧
    taken.loopState 63 = 1 ∧ (∀ b, b < 5 → taken.injArmed rDRIVE b = false) ∧ (taken.aux 63).swap = false ∧
    taken.loopDesc 63 = some aLoop ∧ aLoop.refsrc ≠ 1 ∧
    (∃ st, taken.sramWords (stateOff 63) 49 = some st ∧ (st.getD 48 0#32).toNat % aLoop.outdiv ≠ 0 ∧
      (aLoop.step (st.take aLoop.nx) ((st.drop 24).take aLoop.ni) aSample.y []).finite = true) ∧ aLoop.nr = 0 ∧ aSample.stale = false ∧
    (driveSpares.fault ((taken.count rDRIVE 2).raise rDRIVE 19 { index := 0 }) 0).1 = true ∧
    (driveSpares.fault (((up [(rk rDRIVE 4 0x120, 0x155#32)] taken).count rDRIVE 2).raise rDRIVE 19 { index := 0 }) 0).1 = false :=
  ⟨by decide +kernel, by decide +kernel, by decide +kernel, by decide +kernel, by decide +kernel, by decide +kernel,
    (loop_descs rfl rfl).1, by decide +kernel, any_some (by decide +kernel), by decide +kernel, by decide +kernel, by decide +kernel,
    by decide +kernel⟩

/-- DRIVE_LCMD for loop 63, in every state of the loop. -/
def chosenLoop (st : Nat) (s : State := loop st) : State := (s.touch (regionPd rDRIVE)).wr kLCMD (BitVec.ofNat 32 63)

theorem witness_LoopsSample_commands :
    (∀ st ∈ [0, 1, 2], ∀ c ∈ [1, 2, 3, 4], State.passesB (loop st) pairA kLCMD true && (loop st).mayWrite kLCMD pairA.itag.toNat &&
      !(loop st).changesOwned kLCMD pairA.itag.toNat (loopWord 63 c) = true) ∧
    (∀ st ∈ [0, 1, 2], (chosenLoop st).loopState 63 = st) ∧ (chosenLoop 0).loopDesc 63 = some aLoop ∧ aLoop.ok = true ∧
    (chosenLoop 0 cold).loopState 63 = 0 ∧ (chosenLoop 0 cold).loopDesc 63 = some noLoop ∧ noLoop.ok = false ∧
    (chosenLoop 1).shadowDesc 63 = some aLoop ∧ (chosenLoop 1).swapBadCols aLoop = false ∧ (chosenLoop 2).loopDesc 63 = some aLoop :=
  ⟨by decide +kernel, by decide +kernel, (loop_descs (by decide +kernel) (by decide +kernel)).1, aLoop_ok, by decide +kernel,
    noLoop_read (by decide +kernel) (by decide +kernel), noLoop_bad, (loop_descs (by decide +kernel) (by decide +kernel)).2,
    by rw [State.swapBadCols, show (aLoop.refsrc == 1) = false by decide +kernel]; rfl,
    (loop_descs (by decide +kernel) (by decide +kernel)).1⟩

/-! ### Hand-offs, verdicts and the Logbook -/

/-- A hand-off record of kind 1 has arrived; the state in which its form is checked. -/
def arrived : State := put 0xC0260000 [1#8] { cold with drive := { arrived := true } }
def captured : State := { arrived with drive := { arrived := false } }
def pendingOf (bs : List Byte) : State :=
  (State.setHandOff captured (some ⟨bitsOf (leNat ((bs.drop 0).take 4)) 1 0, bitOf (leNat ((bs.drop 0).take 4)) 2,
    bitOf (leNat ((bs.drop 0).take 4)) 3, leNat ((bs.drop 8).take 4), leNat ((bs.drop 0x0C).take 4), 0, false⟩)).wr (rk rDRIVE 1 0x108)
      (BitVec.ofNat 32 (leNat ((bs.drop 8).take 4)))

/-- Channel 31 has captured the hand-off with a cause; DRIVE_HOCVU names it or channel 0. A SWITCH with a hand-off pending. -/
def verdict (hocvu cause : Nat) : State := { up [(rk rDRIVE 1 0x114, wordOf hocvu)] with
  drive := { ho := some ⟨0, true, false, 0, 0, 0, false⟩ }, cvu := { chans := [(31, { frame := some ⟨0, cause⟩ })] } }
def verdictOf (hocvu cause : Nat) : State :=
  ((verdict hocvu cause).deliver 31 0 cause (Sparse.get (fun _ => 0) ((verdict hocvu cause).cvuChan 31).counts 0) 0 false).afterVerdict 31 0
def switching (h : Option HandOff) : State := { withQueue rDRIVE 0 (queueOf [op [1#32]]) cold with drive := { ho := h } }

theorem witness_HandOffs :
    arrived.drive.arrived = true ∧ { (List.range 32).foldl (fun s n => s.captureFrame n) arrived with
      drive := { ((List.range 32).foldl (fun s n => s.captureFrame n) arrived).drive with arrived := false } } = captured ∧
    (∃ bs, captured.sramRead 0x260000 64 = some bs ∧ (pendingOf bs).handOffOk bs = true) ∧
    (∀ c ∈ [0, 6], ∀ n ∈ [0, 31], ((verdict n c).cvuChan 31).frame = some ⟨0, c⟩ ∧
      (List.range 3).all (fun b => !(verdict n c).cvuInj 31 b) = true ∧ (verdict n c).fld (kCH 31 4) 8 2 = 0 ∧
      (verdictOf n c).fld (rk rDRIVE 1 0x114) 4 0 = n ∧ (verdictOf n c).injArmed rDRIVE 4 = false ∧
      (verdictOf n c).drive.ho = some ⟨0, true, false, 0, 0, 0, false⟩) ∧
    (∀ h ∈ [none, some ⟨0, true, false, 0, 0, 0, true⟩, some ⟨0, true, false, 0, 0, 0, false⟩],
      (switching h).nextOp rDRIVE 0 = some (op [1#32]) ∧ (op [1#32]).opcode = 1 ∧ (op [1#32]).step = 0 ∧ (op [1#32]).occ.toNat = 0 ∧
      ((switching h).start rDRIVE 0 (op [1#32])).drive.ho = h) ∧
    0 + 1000000 * (verdict 0 0).fld (rk rDRIVE 1 0x118) 15 0 ≤
      ((verdict 0 0).advance (1000000 * (verdict 0 0).fld (rk rDRIVE 1 0x118) 15 0)).now ∧
    cold.Reaches pairA (rk rDRIVE 1 0x110) (withFlag 0#32 0 true) ∧
    (up [(kFBCFG, 1#32)]).fld kFBCFG 15 0 ≠ 0 ∧ (up [(kFBCFG, 1#32)]).drive.autoDone = false ∧
    (up [(kFBCFG, 1#32)]).drive.autoBase + 1000000 * (up [(kFBCFG, 1#32)]).fld kFBCFG 15 0 ≤ (cold.advance 1000000).now :=
  ⟨by decide +kernel, by decide +kernel, any_some (by decide +kernel), by decide +kernel, by decide +kernel, by decide +kernel,
    reaches_of (by decide +kernel), by decide +kernel, by decide +kernel, by decide +kernel⟩

/-- Channel 31 runs context 127 alone: it waits for a frame of one byte, or has given its verdict. -/
def channel (st : Nat) (ws : List Word) (on : Nat := 1) : State := { up [(kCH 31 0, wordOf (254 + on)), (kCH 31 4, wordOf (508 + st)), (kCTXSEL, 127#32)] with
  cvu := { ctxs := [(127, { ws := ws })] } }
def frameCtx : List Word := [0#32, 0#32, 0#32, 0#32, 1#32, 0#32, 0#32, 0#32]
/-- A DUMP of Logbook channel 7, which holds a record of 64 bytes. -/
def dumpOp : Op := op [2#32, 0#32, 0#32, 0#32, 7#32, 0#32, 0xE0004000#32]
def dumping : State := { withQueue rDRIVE 1 (queueOf [dumpOp]) (up [(kLB 7 0x18, 1#32)]) with drive := { chans := [(7, { recs := [(0, 64)] })] } }
def stopping : State := if (dumping.start rDRIVE 1 dumpOp).fld (kLB 7 0x18) 1 0 = 1 ∨ (dumping.start rDRIVE 1 dumpOp).fld (kLB 7 0x18) 1 0 = 2
  then (dumping.start rDRIVE 1 dumpOp).setFld (kLB 7 0x18) 1 0 3 else dumping.start rDRIVE 1 dumpOp

theorem witness_VerdictsAndLogbook :
    (channel 1 frameCtx).pdDown (regionPd rCVU) = false ∧ (channel 1 frameCtx).cvuOn 31 = true ∧
    (channel 1 frameCtx).cvuNames 31 127 = true ∧ cvuSpares.avail (channel 1 frameCtx) 31 = true ∧
    ((channel 1 frameCtx).cvuCtx 127).mode = 0 ∧ (channel 1 frameCtx).fld (kCH 31 4) 1 0 = 1 ∧
    (channel 1 frameCtx).fld (kCH 31 4) 8 2 = 127 ∧ (∀ b, b < 3 → (channel 1 frameCtx).cvuInj 31 b = false) ∧
    ((channel 1 frameCtx).cvuCtx 127).bad = false ∧ ((channel 1 frameCtx).cvuCtx 127).len = [0x31#8].length ∧
    ((channel 1 frameCtx).cvuCtx 127).expsrc = 0 ∧ (channel 2 frameCtx).fld (kCH 31 4) 1 0 = 2 ∧
    ((channel 2 frameCtx).cvuChan 31).verdictAt + 40 ≤ ((channel 2 frameCtx).advance 40).now ∧
    (channel 0 frameCtx).Reaches pairA (rk rCVU 2 (0x104 + 4 * 7)) 0#32 ∧ (channel 0 frameCtx 0).fld kCTXSEL 6 0 = 127 ∧
    (∀ w, w < 8 → ctxWordOk w 0#32 = true) ∧ ctxWordOk 0 3#32 = false ∧
    (List.range 32).any (fun n => (channel 0 frameCtx 0).cvuNames n 127) = false ∧
    (List.range 32).any (fun n => (channel 0 frameCtx).cvuNames n 127) = true ∧
    (channel 0 frameCtx 0).Reaches pairA (kCH 31 0) 255#32 ∧ cfgFirst 255#32 + (cfgCount 255#32 - 1) ≤ 127 ∧
    flagOf 255#32 0 = true ∧ flagOf ((channel 0 frameCtx 0).rd (kCH 31 0)) 0 = false ∧
    ((List.range (cfgCount 255#32)).map (fun i => (channel 0 frameCtx 0).cvuCtx (cfgFirst 255#32 + i))).all
      (fun c => c.runnable && (c.mode != 2 || cfgCount 255#32 == 1)) = true ∧
    dumping.nextOp rDRIVE 1 = some dumpOp ∧ dumpOp.opcode = 2 ∧ dumpOp.fld 0x10 31 3 = 0 ∧ dumpOp.fld 0x10 2 0 = 7 ∧
    dumpOp.addr 0x18 % 64 = 0 ∧ dumpOp.word 5 = 0#32 ∧ (dumpOp.words.drop 8).any (fun w => w != 0#32) = false ∧
    (∃ n w, State.dumpRecs 1 dumpOp (dumpOp.addr 0x18) (stopping.logChan 7).recs 0 stopping = (.ok n, w) ∧ n = 64) ∧
    cold.Reaches pairA (kLB 7 0) 0#32 ∧ cold.Reaches pairA (kLB 7 0) 0x2000#32 ∧ cold.Reaches pairA (kLB 7 0) 0x6000#32 ∧
    fieldOf 0x2000#32 14 13 = 1 ∧ fieldOf 0x6000#32 14 13 = 3 ∧
    (List.range 8).any (fun b => b != 7 && cold.fld (kLB b 0) 14 13 != 0 && cold.logOverlap 7 b) = false :=
  ⟨by decide +kernel, by decide +kernel, by decide +kernel, by decide +kernel, by decide +kernel, by decide +kernel,
    by decide +kernel, by decide +kernel, by decide +kernel, by decide +kernel, by decide +kernel, by decide +kernel,
    by decide +kernel, reaches_of (by decide +kernel), by decide +kernel, by decide +kernel, by decide +kernel, by decide +kernel,
    by decide +kernel, reaches_of (by decide +kernel), by decide +kernel, by decide +kernel, by decide +kernel, by decide +kernel,
    by decide +kernel, by decide +kernel, by decide +kernel, by decide +kernel, by decide +kernel, by decide +kernel,
    by decide +kernel, any_ok (by decide +kernel), reaches_of (by decide +kernel), reaches_of (by decide +kernel),
    reaches_of (by decide +kernel), by decide +kernel, by decide +kernel, by decide +kernel⟩
end Sys2Proof.Machine.Tests
end

section
/-! What a register write of the Meridian's pages reaches, and what the write of a register without a rule of its own
does to its fields (R83, R90). -/

namespace Sys2Proof.Machine

/-! ### Register keys -/

theorem rkRegion_rk {r p o : Nat} (hp : p < 16) (ho : o < 4096) : rkRegion (rk r p o) = r := by
  unfold rkRegion rk; omega

theorem rkPage_rk {r p o : Nat} (hp : p < 16) (ho : o < 4096) : rkPage (rk r p o) = p := by
  unfold rkPage rk; omega

theorem rkOff_rk {r p o : Nat} (ho : o < 4096) : rkOff (rk r p o) = o := by
  unfold rkOff rk; omega

/-- The Meridian's own registers record no event of any block. -/
theorem not_mem_eventKeys_merid {p o r : Nat} (h1 : 1 ≤ p) (hp : p < 16) (ho : o < 4096) (hr : r < 40) :
    rk rMERID p o ∉ eventKeys r := by
  simp only [eventKeys, kESTAT, kEFIRST, rk, rMERID, rWATCH, List.mem_cons, List.not_mem_nil, or_false]
  omega

/-- The Meridian's own registers count no event of any block. -/
theorem not_mem_countKeys_merid {p o r k : Nat} (h1 : 1 ≤ p) (hp : p < 16) (ho : o < 4096) (hr : r < 40) (hk : k < 8) :
    rk rMERID p o ∉ countKeys r k := by
  simp only [countKeys, kECNT, rk, rMERID, rWATCH, List.mem_cons, List.not_mem_nil, or_false]
  omega

/-! ### Accesses that pass their checks -/

/-- A domain of the always-on island keeps no idle time (R591). -/
theorem State.touch_island (s : State) {pd : Nat} (h : isMainPd pd = false) : s.touch pd = s :=
  if_neg (by rw [h]; decide)

theorem State.keyPd_merid (s : State) {k : Nat} (h : rkRegion k = rMERID) : s.keyPd k = 2 := by
  have hc : rkRegion k ≠ rCAN := by rw [h]; decide
  unfold State.keyPd
  rw [if_neg (fun x => hc x.1), h]
  rfl

theorem State.touch_keyPd_merid (s : State) {k : Nat} (h : rkRegion k = rMERID) : s.touch (s.keyPd k) = s := by
  rw [State.keyPd_merid s h]
  exact State.touch_island s rfl

theorem regEffect_merid (s : State) {k : Nat} (t : Itag) (v : Word) (hr : rkRegion k = rMERID) (hp : rkPage k ≠ 0) :
    regEffect s k t v = effMeridReg (rkPage k) (rkOff k) k t v s := by
  unfold regEffect
  dsimp only
  rw [if_neg hp, hr]
  rfl

section
variable {s : State} {st : AccessStatus} {data : List Byte} {k hi lo i : Nat}

@[simp] theorem State.respond_rd : (s.respond st data).rd k = s.rd k := rfl
@[simp] theorem State.respond_fld : (s.respond st data).fld k hi lo = s.fld k hi lo := rfl
@[simp] theorem State.respond_flag : (s.respond st data).flag k i = s.flag k i := rfl

end

/-- A permitted write to one of the Meridian's own pages has the Meridian's effect and touches nothing else. -/
theorem State.regWrite_merid {s : State} {i : Initiator} {k : Nat} {v : Word} (h : s.Reaches i k v)
    (hr : rkRegion k = rMERID) (hp : rkPage k ≠ 0) :
    s.regWrite i k v = (effMeridReg (rkPage k) (rkOff k) k i.itag v s).respond .ok := by
  rw [State.regWrite_reaches h, State.touch_keyPd_merid s hr, regEffect_merid s _ _ hr hp]

/-! ### Fields and flags of one word -/

/-- The bits of a field are the word's. -/
theorem testBit_fieldOf (w : Word) (hi lo j : Nat) :
    (fieldOf w hi lo).testBit j = (decide (j < hi + 1 - lo) && flagOf w (lo + j)) := by
  unfold fieldOf bitsOf flagOf
  rw [Nat.testBit_mod_two_pow, Nat.testBit_shiftRight]
  rfl

/-- A bit is the field of that one bit. -/
theorem flagOf_eq_fieldOf (w : Word) (i : Nat) : flagOf w i = (fieldOf w i i).testBit 0 := by
  rw [testBit_fieldOf]
  simp

/-- Writing a bit outside a field leaves the field alone. -/
theorem fieldOf_withFlag_ne (w : Word) (i : Nat) (b : Bool) (hi lo : Nat) (h : i < lo ∨ hi < i) :
    fieldOf (withFlag w i b) hi lo = fieldOf w hi lo := by
  refine Nat.eq_of_testBit_eq fun j => ?_
  rw [testBit_fieldOf, testBit_fieldOf]
  by_cases hj : j < hi + 1 - lo
  · rw [flagOf_withFlag_ne w i (lo + j) b (by omega)]
  · simp [hj]

/-- Writing a field leaves a bit outside it alone. -/
theorem flagOf_withField_ne (w : Word) (hi lo v i : Nat) (h : lo ≤ hi) (h31 : hi < 32) (hd : hi < i ∨ i < lo) :
    flagOf (withField w hi lo v) i = flagOf w i := by
  rw [flagOf_eq_fieldOf, flagOf_eq_fieldOf, fieldOf_withField_ne w hi lo v i i h h31 (le_refl i) hd]

theorem fieldOf_lt (w : Word) (hi lo : Nat) : fieldOf w hi lo < 2 ^ (hi + 1 - lo) := bitsOf_lt _ _ _

/-- A field that fills the word is the word. -/
theorem withField_whole (w v : Word) : withField w 31 0 (fieldOf v 31 0) = v := by
  apply BitVec.eq_of_toNat_eq
  rw [withField_toNat w 31 0 _ (by decide) (by decide)]
  unfold fieldOf bitsOf
  have hv := v.isLt
  have hw := w.isLt
  simp only [Nat.shiftRight_zero]
  omega

/-! ### A register write, field by field (R90) -/

/-- A field's write leaves the state alone, or sets that field and may take the register's lock. -/
theorem State.writeField_cases (s : State) (k : Nat) (d : RDef) (v : Word) (f : FDef) (acc : State × Bool) :
    (s.writeField k d v f acc).1 = acc.1 ∨
      ∃ x locks_, (s.writeField k d v f acc).1 = { acc.1.setFld k f.hi f.lo x with locks := locks_ } := by
  obtain ⟨u, bad⟩ := acc
  unfold State.writeField
  cases f.acc with
  | ro => exact .inl rfl
  | w1c => exact .inr ⟨_, u.locks, rfl⟩
  | w1s => exact .inr ⟨_, u.locks, rfl⟩
  | rw =>
    dsimp only
    split
    · exact .inr ⟨_, u.locks, rfl⟩
    · exact .inl rfl
  | rwl =>
    dsimp only
    split
    · exact .inl rfl
    · split
      · exact .inr ⟨_, _, rfl⟩
      · exact .inl rfl

/-- A value that a read-write field accepts is stored in it. -/
theorem State.writeField_rw (s : State) (k : Nat) (d : RDef) (v : Word) {f : FDef} (acc : State × Bool)
    (hf : f.acc = .rw) (ha : f.accepts (fieldOf v f.hi f.lo) = true) :
    s.writeField k d v f acc = (acc.1.setFld k f.hi f.lo (fieldOf v f.hi f.lo), acc.2) := by
  unfold State.writeField
  simp only [hf, ha, ↓reduceIte]

/-- A value that a read-write field does not accept is reported. -/
theorem State.writeField_rw_refused (s : State) (k : Nat) (d : RDef) (v : Word) {f : FDef} (acc : State × Bool)
    (hf : f.acc = .rw) (ha : f.accepts (fieldOf v f.hi f.lo) = false) : s.writeField k d v f acc = (acc.1, true) := by
  unfold State.writeField
  simp only [hf, ha, Bool.false_eq_true, ↓reduceIte]

/-- A read-write field without a step accepts what lies in its range. -/
theorem rw_accepts (hi lo rst min max x : Nat) :
    (rw hi lo rst min max).accepts x = (decide (min ≤ x) && decide (x ≤ max)) := by
  change (decide (min ≤ x) && decide (x ≤ max) && x % 1 == 0) = _
  rw [Nat.mod_one, beq_self_eq_true, Bool.and_true]

/-- `t` is `s` but for register `k` and the locks taken. -/
structure State.SameBut (k : Nat) (s t : State) : Prop where
  eq : ∃ regs_ locks_, t = { s with regs := regs_, locks := locks_ }
  rd : ∀ j, j ≠ k → t.rd j = s.rd j
  wf : Registers.wf s.regs = true → Registers.wf t.regs = true

theorem State.SameBut.refl (k : Nat) (s : State) : State.SameBut k s s := ⟨⟨s.regs, s.locks, rfl⟩, fun _ _ => rfl, id⟩

theorem State.SameBut.writeField {k : Nat} {u s : State} {d : RDef} {v : Word} {f : FDef} {acc : State × Bool}
    (h : State.SameBut k u acc.1) : State.SameBut k u (s.writeField k d v f acc).1 := by
  rcases State.writeField_cases s k d v f acc with e | ⟨x, l, e⟩
  · rw [e]; exact h
  · rw [e]
    obtain ⟨⟨regs_, locks_, eu⟩, hrd, hwf⟩ := h
    exact ⟨⟨_, l, by rw [eu]; rfl⟩, fun j hj => (State.rd_setFld_ne acc.1 _ _ _ hj).trans (hrd j hj),
      fun hu => State.wf_setFld acc.1 _ _ _ _ (hwf hu)⟩

theorem State.SameBut.writeFields {k : Nat} {u s : State} {d : RDef} {v : Word} (l : List FDef) {acc : State × Bool}
    (h : State.SameBut k u acc.1) :
    State.SameBut k u (l.foldl (fun acc f => s.writeField k d v f acc) acc).1 := by
  induction l generalizing acc with
  | nil => exact h
  | cons f l ih => exact ih h.writeField

/-- The fields of a register lie in its word and share no bit. -/
abbrev FieldsApart (l : List FDef) : Prop :=
  (∀ f ∈ l, f.lo ≤ f.hi ∧ f.hi < 32) ∧ l.Pairwise (fun f g => f.hi < g.lo ∨ g.hi < f.lo)

/-- Writing other fields leaves a field alone. -/
theorem State.writeFields_fld_ne (s : State) (k : Nat) (d : RDef) (v : Word) (hi lo : Nat) (h : lo ≤ hi) (l : List FDef)
    (hl : ∀ g ∈ l, (g.lo ≤ g.hi ∧ g.hi < 32) ∧ (hi < g.lo ∨ g.hi < lo)) (acc : State × Bool)
    (hwf : Registers.wf acc.1.regs = true) :
    (l.foldl (fun acc f => s.writeField k d v f acc) acc).1.fld k hi lo = acc.1.fld k hi lo := by
  induction l generalizing acc with
  | nil => rfl
  | cons g l ih =>
    obtain ⟨⟨hg, hg31⟩, hd⟩ := hl g List.mem_cons_self
    have hs : (s.writeField k d v g acc).1.fld k hi lo = acc.1.fld k hi lo := by
      rcases State.writeField_cases s k d v g acc with e | ⟨x, _, e⟩
      · rw [e]
      · rw [e]
        change fieldOf ((acc.1.setFld k g.hi g.lo x).rd k) hi lo = _
        rw [State.rd_setFld _ _ _ _ _ _ hwf, if_pos rfl, fieldOf_withField_ne _ _ _ _ _ _ hg hg31 h (by omega)]
        rfl
    exact (ih (fun g' hg' => hl g' (List.mem_cons_of_mem _ hg')) _ ((State.SameBut.refl k acc.1).writeField.wf hwf)).trans hs

/-- A field whose value is accepted reads as written when every field has been written. -/
theorem State.writeFields_fld (s : State) (k : Nat) (d : RDef) (v : Word) {f : FDef} (hf : f.acc = .rw)
    (ha : f.accepts (fieldOf v f.hi f.lo) = true) (l : List FDef) (hl : FieldsApart l) (hm : f ∈ l) (acc : State × Bool)
    (hwf : Registers.wf acc.1.regs = true) :
    (l.foldl (fun acc f => s.writeField k d v f acc) acc).1.fld k f.hi f.lo = fieldOf v f.hi f.lo := by
  induction l generalizing acc with
  | nil => exact absurd hm List.not_mem_nil
  | cons g l ih =>
    obtain ⟨hin, hap⟩ := hl
    obtain ⟨hg, hpw⟩ := List.pairwise_cons.mp hap
    have hw' := (State.SameBut.refl k acc.1).writeField (s := s) (d := d) (v := v) (f := g) |>.wf hwf
    rcases List.mem_cons.mp hm with rfl | hm
    · obtain ⟨hlo, h31⟩ := hin f List.mem_cons_self
      have hrest : ∀ g ∈ l, (g.lo ≤ g.hi ∧ g.hi < 32) ∧ (f.hi < g.lo ∨ g.hi < f.lo) :=
        fun g hgl => ⟨hin g (List.mem_cons_of_mem _ hgl), hg g hgl⟩
      rw [List.foldl_cons, State.writeFields_fld_ne s k d v _ _ hlo l hrest _ hw', State.writeField_rw s k d v acc hf ha,
        State.fld_setFld_self _ _ _ _ _ hlo h31 hwf, Nat.mod_eq_of_lt (fieldOf_lt _ _ _)]
    · exact ih ⟨fun g' hg' => hin g' (List.mem_cons_of_mem _ hg'), hpw⟩ hm _ hw'

/-- What a write of a register without a rule of its own can do: it changes that register by its fields, and sets
CFG_ERR where a limit or a lock was broken. -/
theorem State.writeGeneric_cases (s : State) (k : Nat) (t : Itag) (v : Word) :
    ∃ u, State.SameBut k s u ∧ (s.writeGeneric k t v = u ∨ s.writeGeneric k t v = u.cfgErr (rkRegion k) t) := by
  unfold State.writeGeneric
  cases regDef k with
  | none => exact ⟨s, .refl k s, .inl rfl⟩
  | some d =>
    refine ⟨_, State.SameBut.writeFields (u := s) (s := s) (d := d) (v := v) (acc := (s, false)) d.fields (.refl k s), ?_⟩
    dsimp only
    split
    · exact .inr rfl
    · exact .inl rfl

/-- A field whose value is accepted reads as written. -/
theorem State.writeGeneric_fld {s : State} {k : Nat} (t : Itag) {v : Word} {d : RDef} {f : FDef} (hd : regDef k = some d)
    (hl : FieldsApart d.fields) (hm : f ∈ d.fields) (hf : f.acc = .rw) (ha : f.accepts (fieldOf v f.hi f.lo) = true)
    (hk : k ∉ eventKeys (rkRegion k)) (hwf : Registers.wf s.regs = true) :
    (s.writeGeneric k t v).fld k f.hi f.lo = fieldOf v f.hi f.lo := by
  have h := State.writeFields_fld s k d v hf ha d.fields hl hm (s, false) hwf
  unfold State.writeGeneric
  rw [hd]
  dsimp only
  split
  · unfold State.fld at h ⊢
    rw [State.cfgErr, State.rd_raise _ _ _ _ hk]
    exact h
  · exact h

/-- A register that is one read-write field takes the word, or keeps its own and reports (R90). -/
theorem State.writeGeneric_whole (s : State) {k : Nat} (t : Itag) (v : Word) {d : RDef} {f : FDef} (hd : regDef k = some d)
    (hfs : d.fields = [f]) (hf : f.acc = .rw) (hhi : f.hi = 31) (hlo : f.lo = 0) :
    s.writeGeneric k t v = if f.accepts v.toNat then s.wr k v else s.cfgErr (rkRegion k) t := by
  have hv : fieldOf v f.hi f.lo = v.toNat := by
    rw [hhi, hlo]
    exact Nat.mod_eq_of_lt v.isLt
  unfold State.writeGeneric
  simp only [hd, hfs, List.foldl_cons, List.foldl_nil]
  cases ha : f.accepts v.toNat with
  | true =>
    rw [State.writeField_rw s k d v _ hf (by rw [hv]; exact ha)]
    simp only [Bool.false_eq_true, ↓reduceIte]
    rw [hhi, hlo, State.setFld, withField_whole]
  | false =>
    rw [State.writeField_rw_refused s k d v _ hf (by rw [hv]; exact ha)]
    rfl

section
variable (s : State) (k : Nat) (t : Itag) (v : Word)

@[simp] theorem State.writeGeneric_phase : (s.writeGeneric k t v).phase = s.phase := by
  obtain ⟨u, ⟨⟨_, _, rfl⟩, _, _⟩, e | e⟩ := State.writeGeneric_cases s k t v <;> simp [e, State.cfgErr]

@[simp] theorem State.writeGeneric_mem : (s.writeGeneric k t v).mem = s.mem := by
  obtain ⟨u, ⟨⟨_, _, rfl⟩, _, _⟩, e | e⟩ := State.writeGeneric_cases s k t v <;> simp [e, State.cfgErr]

@[simp] theorem State.writeGeneric_merid : (s.writeGeneric k t v).merid = s.merid := by
  obtain ⟨u, ⟨⟨_, _, rfl⟩, _, _⟩, e | e⟩ := State.writeGeneric_cases s k t v <;> simp [e, State.cfgErr]

/-- A write changes no register but its own and those in which CFG_ERR is recorded. -/
theorem State.rd_writeGeneric_ne {j : Nat} (hj : j ≠ k) (he : j ∉ eventKeys (rkRegion k)) :
    (s.writeGeneric k t v).rd j = s.rd j := by
  obtain ⟨u, hu, e | e⟩ := State.writeGeneric_cases s k t v
  · rw [e, hu.rd j hj]
  · rw [e, State.cfgErr, State.rd_raise _ _ _ _ he, hu.rd j hj]

end

end Sys2Proof.Machine
end

section
/-! The Meridian's lock state: what a reference event, a lost reference and a new source do (R42–R52). -/

namespace Sys2Proof.Machine

/-! ### Moves of the lock state -/

/-- A lock state is entered: MERID_LOCKSTAT shows it, and its counts start (R50). -/
def State.enterLock (s : State) (st : Nat) : State :=
  { s.setFld kLOCKSTAT 2 0 st with merid := { s.merid with stateSince := s.now, inTol := 0, outTol := 0 } }

/-- LOCKLOSS: BLK_ECNT0 counts, and the event sets at every loss (R51). -/
def State.lockLoss (s : State) : State := (s.count rMERID 0).raise rMERID 16 { always := true }

/-- The states other than FREE: HOLDOVER and UNLOCKED are losses of lock, and UNLOCKED raises cause 9 (R51, R574). -/
theorem State.setLock_notFree (s : State) {st : Nat} (h : st ≠ lkFREE) :
    s.setLock st =
      let u := if st = lkHOLDOVER ∨ st = lkUNLOCKED then (s.enterLock st).lockLoss else s.enterLock st
      if st = lkUNLOCKED then u.postCause 9 true else u := by
  unfold State.setLock
  simp only [if_neg h]
  rfl

theorem State.setLock_free (s : State) :
    s.setLock lkFREE = { (s.enterLock lkFREE).wr kRATE 0#32 with
      merid := { (s.enterLock lkFREE).merid with lastRef := none, leftFree := false } } := rfl

theorem State.setLock_holdover (s : State) : s.setLock lkHOLDOVER = (s.enterLock lkHOLDOVER).lockLoss := rfl

theorem State.setLock_unlocked (s : State) :
    s.setLock lkUNLOCKED = ((s.enterLock lkUNLOCKED).lockLoss).postCause 9 true := rfl

@[simp] theorem State.lockLoss_phase (s : State) : s.lockLoss.phase = s.phase := by simp [State.lockLoss]
@[simp] theorem State.lockLoss_mem (s : State) : s.lockLoss.mem = s.mem := by simp [State.lockLoss]
@[simp] theorem State.lockLoss_queues (s : State) : s.lockLoss.queues = s.queues := by simp [State.lockLoss]
@[simp] theorem State.lockLoss_merid (s : State) : s.lockLoss.merid = s.merid := by simp [State.lockLoss]
@[simp] theorem State.lockLoss_watch (s : State) : s.lockLoss.watch = s.watch := by simp [State.lockLoss]

/-- The registers in which a loss of lock is recorded. -/
abbrev lossKeys : List Nat := countKeys rMERID 0 ++ eventKeys rMERID

theorem State.rd_lockLoss (s : State) {j : Nat} (h : j ∉ lossKeys) : s.lockLoss.rd j = s.rd j := by
  rw [List.mem_append, not_or] at h
  exact (State.rd_raise _ _ _ _ h.2).trans (State.rd_count _ _ _ _ h.1)

/-- LOCKLOSS reads 1 once the lock has been lost. -/
theorem State.lockLoss_flag (s : State) (hs : Registers.wf s.regs = true) :
    s.lockLoss.flag (kESTAT rMERID) 16 = true :=
  State.raise_flag _ _ _ _ (by decide) (State.wf_count _ _ _ _ hs)

theorem State.enterLock_wf {s : State} (st : Nat) (hs : Registers.wf s.regs = true) :
    Registers.wf (s.enterLock st).regs = true := State.wf_setFld s _ _ _ _ hs

/-- The lock state has become `st`, and at most the loss of lock has been recorded beside it. -/
structure State.LockMove (s t : State) (st : Nat) : Prop where
  lock : t.lock = st
  phase : t.phase = s.phase
  mem : t.mem = s.mem
  queues : t.queues = s.queues
  lastRef : t.merid.lastRef = s.merid.lastRef
  rd : ∀ j, j ∉ kLOCKSTAT :: lossKeys → t.rd j = s.rd j

theorem State.LockMove.stay (s : State) : State.LockMove s s s.lock := ⟨rfl, rfl, rfl, rfl, rfl, fun _ _ => rfl⟩

theorem State.LockMove.enterLock {s : State} (hs : Registers.wf s.regs = true) {st : Nat} (h : st < 8) :
    State.LockMove s (s.enterLock st) st where
  lock := (State.fld_setFld_self s _ _ _ _ (by decide) (by decide) hs).trans (Nat.mod_eq_of_lt h)
  phase := rfl
  mem := rfl
  queues := rfl
  lastRef := rfl
  rd j hj := State.rd_setFld_ne s _ _ _ (List.ne_of_not_mem_cons hj)

theorem State.LockMove.lockLoss {s t : State} {st : Nat} (h : State.LockMove s t st) : State.LockMove s t.lockLoss st where
  lock := by
    have hk : kLOCKSTAT ∉ lossKeys := by decide
    rw [← h.lock, State.lock, State.lock, State.fld, State.fld, State.rd_lockLoss t hk]
  phase := by rw [State.lockLoss_phase, h.phase]
  mem := by rw [State.lockLoss_mem, h.mem]
  queues := by rw [State.lockLoss_queues, h.queues]
  lastRef := by rw [State.lockLoss_merid, h.lastRef]
  rd j hj := (State.rd_lockLoss t (List.not_mem_of_not_mem_cons hj)).trans (h.rd j hj)

theorem State.LockMove.postCause {s t : State} {st : Nat} (h : State.LockMove s t st) :
    State.LockMove s (t.postCause 9 true) st := ⟨h.lock, h.phase, h.mem, h.queues, h.lastRef, h.rd⟩

/-- The Meridian's timers and counts beside the time of the last reference have no part in it. -/
theorem State.LockMove.withMerid {s t : State} {st : Nat} (h : State.LockMove s t st) {m : Merid}
    (hm : m.lastRef = t.merid.lastRef) : State.LockMove s { t with merid := m } st :=
  ⟨h.lock, h.phase, h.mem, h.queues, hm.trans h.lastRef, h.rd⟩

/-- Entering a state other than FREE. -/
theorem State.LockMove.setLock {s : State} (hs : Registers.wf s.regs = true) {st : Nat} (h : st < 8) (hf : st ≠ lkFREE) :
    State.LockMove s (s.setLock st) st := by
  rw [State.setLock_notFree s hf]
  have he := State.LockMove.enterLock hs h
  have hu : State.LockMove s
      (if st = lkHOLDOVER ∨ st = lkUNLOCKED then (s.enterLock st).lockLoss else s.enterLock st) st := by
    split
    · exact he.lockLoss
    · exact he
  dsimp only
  split
  · exact hu.postCause
  · exact hu

/-- Entering FREE, where MERID_RATE reads 0 and no reference has been seen (R49). -/
theorem State.LockMove.setLock_free {s : State} (hs : Registers.wf s.regs = true) (hr : s.rd kRATE = 0#32)
    (hl : s.merid.lastRef = none) : State.LockMove s (s.setLock lkFREE) lkFREE := by
  have he := State.LockMove.enterLock hs (st := lkFREE) (by decide)
  have hrate : ∀ j, ((s.enterLock lkFREE).wr kRATE 0#32).rd j = (s.enterLock lkFREE).rd j := by
    intro j
    rw [State.rd_wr _ _ _ _ (State.enterLock_wf _ hs)]
    split
    · next e => rw [e, he.rd _ (by decide), hr]
    · rfl
  rw [State.setLock_free]
  exact ⟨(congrArg (fieldOf · 2 0) (hrate kLOCKSTAT)).trans he.lock, rfl, rfl, rfl, hl.symm,
    fun j hj => (hrate j).trans (he.rd j hj)⟩

/-- The state to which a lost reference leads (R48, R50). -/
def lockAfterLoss (st : Nat) : Nat :=
  if st = lkLOCKED then lkHOLDOVER else if st = lkACQUIRE then lkUNLOCKED else st

/-- A lost reference: LOCKED gives HOLDOVER, ACQUIRE gives UNLOCKED, and the other states stay (R48, R50). -/
theorem State.LockMove.refLost {s : State} (hs : Registers.wf s.regs = true) :
    State.LockMove s s.refLost (lockAfterLoss s.lock) := by
  unfold State.refLost lockAfterLoss
  split
  · exact .setLock hs (by decide) (by decide)
  · split
    · exact .setLock hs (by decide) (by decide)
    · exact .stay s

/-! ### A reference event while no reference is followed (R45, R49) -/

/-- A reference event as it is noted: the interval since the last one, its time and the phase error (R45, R49). -/
def State.refNoted (s : State) (ref : Nat) : State :=
  let s : State := match s.merid.lastRef with
    | some t0 => s.wr kRATE (BitVec.ofNat 32 (s.now - t0))
    | none => s
  let s : State := { s with merid := { s.merid with lastRef := some s.now } }
  s.wr kPERR (BitVec.ofInt 32 (signedOf 32 (2 ^ 32 + ref - s.phase64.toNat % 2 ^ 32)))

/-- What noting a reference event leaves and shows. -/
theorem State.refNoted_eq (s : State) (ref : Nat) :
    ∃ u, (u = s ∨ ∃ w, u = s.wr kRATE w) ∧
      s.refNoted ref = { u.wr kPERR (BitVec.ofInt 32 (signedOf 32 (2 ^ 32 + ref - s.phase64.toNat % 2 ^ 32))) with
        merid := { s.merid with lastRef := some s.now } } := by
  unfold State.refNoted
  cases s.merid.lastRef with
  | none => exact ⟨s, .inl rfl, rfl⟩
  | some t0 => exact ⟨_, .inr ⟨_, rfl⟩, rfl⟩

theorem State.refNoted_wf {s : State} (ref : Nat) (hs : Registers.wf s.regs = true) :
    Registers.wf (s.refNoted ref).regs = true := by
  obtain ⟨u, rfl | ⟨w, rfl⟩, e⟩ := State.refNoted_eq s ref
  · rw [e]; exact State.wf_wr _ _ _ hs
  · rw [e]; exact State.wf_wr _ _ _ (State.wf_wr _ _ _ hs)

theorem State.refNoted_perr {s : State} (ref : Nat) (hs : Registers.wf s.regs = true) :
    (s.refNoted ref).rd kPERR = BitVec.ofInt 32 (signedOf 32 (2 ^ 32 + ref - s.phase64.toNat % 2 ^ 32)) := by
  obtain ⟨u, hu, e⟩ := State.refNoted_eq s ref
  have hw : Registers.wf u.regs = true := by
    rcases hu with rfl | ⟨w, rfl⟩
    · exact hs
    · exact State.wf_wr _ _ _ hs
  rw [e]
  exact State.rd_wr_self u _ _ hw

theorem State.refNoted_rd (s : State) (ref : Nat) {j : Nat} (h1 : j ≠ kRATE) (h2 : j ≠ kPERR) :
    (s.refNoted ref).rd j = s.rd j := by
  obtain ⟨u, rfl | ⟨w, rfl⟩, e⟩ := State.refNoted_eq s ref
  · rw [e]; exact State.rd_wr_ne _ _ h2
  · rw [e]; exact (State.rd_wr_ne _ _ h2).trans (State.rd_wr_ne _ _ h1)

/-- Noting a reference event moves neither the phase nor memory nor a queue; the Meridian keeps its time. -/
theorem State.refNoted_frame (s : State) (ref : Nat) :
    (s.refNoted ref).phase = s.phase ∧ (s.refNoted ref).mem = s.mem ∧ (s.refNoted ref).queues = s.queues ∧
      (s.refNoted ref).merid = { s.merid with lastRef := some s.now } := by
  obtain ⟨u, rfl | ⟨w, rfl⟩, e⟩ := State.refNoted_eq s ref <;> rw [e] <;> exact ⟨rfl, rfl, rfl, rfl⟩

/-- The first reference event in FREE, HOLDOVER or UNLOCKED is noted and gives ACQUIRE (R45, R50). -/
theorem State.refEvent_acquire {s : State} (ref : Nat) (rev : Option Nat) (hs : Registers.wf s.regs = true)
    (hleft : s.merid.leftFree = false) (hl : s.lock = lkFREE ∨ s.lock = lkHOLDOVER ∨ s.lock = lkUNLOCKED) :
    State.LockMove (s.refNoted ref) (s.refEvent ref rev) lkACQUIRE := by
  have hlock : (s.refNoted ref).lock = s.lock :=
    congrArg (fieldOf · 2 0) (State.refNoted_rd s ref (j := kLOCKSTAT) (by decide) (by decide))
  have hm : (s.refNoted ref).merid.leftFree = false := by
    rw [(State.refNoted_frame s ref).2.2.2]; exact hleft
  unfold State.refEvent
  extract_lets u m n err noted st within step m' followed stepped
  have hnoted : noted = s.refNoted ref := rfl
  have hst : st = s.lock := hlock
  have hfollowed : followed = noted := if_neg (by rw [hnoted, hm]; exact Bool.false_ne_true)
  have hstep : step = false := by
    change (noted.merid.leftFree && noted.flag kLOCKCFG 6) = false
    rw [hnoted, hm, Bool.false_and]
  have hstepped : stepped = s.refNoted ref :=
    (if_neg (by rw [hstep]; exact Bool.false_ne_true)).trans (hfollowed.trans hnoted)
  have hmove : State.LockMove (s.refNoted ref) (stepped.setLock lkACQUIRE) lkACQUIRE := by
    rw [hstepped]
    exact .setLock (State.refNoted_wf ref hs) (by decide) (by decide)
  rw [hst]
  by_cases hfree : s.lock = lkFREE
  · rw [if_pos hfree]
    exact hmove.withMerid rfl
  · rw [if_neg hfree, if_pos (hl.resolve_left hfree)]
    exact hmove

/-! ### A new source (R52) -/

theorem regDef_kLOCKCFG : regDef kLOCKCFG = some (reg 1 0x000
    [rw 2 0 0 0 5, rw 5 3 0 0 5, { (rw 6 6) with acc := .rwl }, rw 15 8 8 1 255]) := by decide +kernel

/-- MERID_LOCKCFG with a new source, before the lock state moves: MERID_RATE is 0 and no reference has been seen; an encoder
that gives none is reported (R49, R52). -/
def State.newSource (s : State) (v : Word) (t : Itag) : State :=
  let s := s.writeGeneric kLOCKCFG t v
  let new := s.src
  let s : State := { s.wr kRATE 0#32 with merid := { s.merid with lastRef := none, refSince := s.now } }
  if 1 ≤ new ∧ new ≤ 4 ∧ s.fld (kENC (new - 1) 0) 1 0 = 1 then s.cfgErr rMERID t else s

/-- A write that changes MERID_LOCKCFG.SRC acts on the lock state at once (R52). -/
theorem effLockcfgWrite_newSource {s : State} {v : Word} {t : Itag} (h : (s.writeGeneric kLOCKCFG t v).src ≠ s.src) :
    effLockcfgWrite v t s =
      if (s.writeGeneric kLOCKCFG t v).src = 0 then
        (if (s.newSource v t).lock = lkFREE then s.newSource v t else (s.newSource v t).setLock lkFREE)
      else (s.newSource v t).refLost := by
  unfold effLockcfgWrite
  dsimp only
  rw [if_neg h]
  rfl

/-- What a new source leaves, whether it is reported or not. -/
theorem State.newSource_cases (s : State) (v : Word) (t : Itag) :
    ∃ u : State, u = { (s.writeGeneric kLOCKCFG t v).wr kRATE 0#32 with
        merid := { s.merid with lastRef := none, refSince := (s.writeGeneric kLOCKCFG t v).now } } ∧
      (s.newSource v t = u ∨ s.newSource v t = u.cfgErr rMERID t) := by
  refine ⟨_, rfl, ?_⟩
  unfold State.newSource
  dsimp only
  rw [State.writeGeneric_merid]
  split
  · exact .inr rfl
  · exact .inl rfl

section
variable (s : State) (v : Word) (t : Itag)

theorem State.newSource_frame : (s.newSource v t).phase = s.phase ∧ (s.newSource v t).mem = s.mem ∧
    (s.newSource v t).merid.lastRef = none := by
  obtain ⟨u, rfl, e | e⟩ := State.newSource_cases s v t <;> rw [e] <;> simp [State.cfgErr]

theorem State.rd_newSource {j : Nat} (hj : j ∉ eventKeys rMERID) :
    (s.newSource v t).rd j = ((s.writeGeneric kLOCKCFG t v).wr kRATE 0#32).rd j := by
  obtain ⟨u, rfl, e | e⟩ := State.newSource_cases s v t
  · rw [e]; rfl
  · rw [e, State.cfgErr, State.rd_raise _ _ _ _ hj]; rfl

variable {s v t}

theorem State.newSource_canonical (hs : s.Canonical) : (s.newSource v t).Canonical := by
  have hw := (State.wr_kept _ kRATE 0#32 (State.writeGeneric_kept s kLOCKCFG t v (Kept.refl s))).2.2 hs
  obtain ⟨u, rfl, e | e⟩ := State.newSource_cases s v t
  · rw [e]; exact hw
  · rw [e]; exact (State.cfgErr_kept _ rMERID t (Kept.refl _)).2.2 hw

theorem State.newSource_rate (hs : s.Canonical) : (s.newSource v t).rd kRATE = 0#32 := by
  rw [State.rd_newSource s v t (by decide)]
  exact State.rd_wr_self _ _ _ ((State.writeGeneric_kept s kLOCKCFG t v (Kept.refl s)).2.2 hs).1

theorem State.newSource_rd {j : Nat} (h1 : j ≠ kLOCKCFG) (h2 : j ≠ kRATE) (h3 : j ∉ eventKeys rMERID) :
    (s.newSource v t).rd j = s.rd j := by
  rw [State.rd_newSource s v t h3, State.rd_wr_ne _ _ h2, State.rd_writeGeneric_ne _ _ _ _ h1 h3]

/-- MERID_LOCKCFG takes a source that exists. -/
theorem State.lockcfg_src (hs : s.Canonical) (hv : fieldOf v 2 0 ≤ 5) :
    (s.writeGeneric kLOCKCFG t v).src = fieldOf v 2 0 := by
  have ha : (rw 2 0 0 0 5).accepts (fieldOf v 2 0) = true := by
    rw [rw_accepts, decide_eq_true (Nat.zero_le _), decide_eq_true hv, Bool.and_self]
  exact State.writeGeneric_fld (f := rw 2 0 0 0 5) t regDef_kLOCKCFG (by decide) List.mem_cons_self rfl ha (by decide) hs.1

theorem State.newSource_src : (s.newSource v t).src = (s.writeGeneric kLOCKCFG t v).src := by
  refine congrArg (fieldOf · 2 0) ?_
  rw [State.rd_newSource s v t (by decide), State.rd_wr_ne _ _ (by decide)]

end

/-! ### The commands (R43–R52) -/

/-- A valid synchronisation of the selected MAC where no reference is followed (R45, R50). -/
theorem gptpEvent_acquire {s : State} (hs : s.Canonical) {m : BitVec 3} {t1 : DWord} (hinj : s.injArmed rMERID 1 = false)
    (hsrc : s.src = 5) (hmac : s.fld kLOCKCFG 5 3 = m.toNat) (hleft : s.merid.leftFree = false)
    (hl : s.lock = lkFREE ∨ s.lock = lkHOLDOVER ∨ s.lock = lkUNLOCKED) :
    ∃ t, exec (.referenceEvent (.gptp m t1)) s = .next t ∧ t.lock = lkACQUIRE ∧ t.merid.lastRef = some s.now ∧
      t.rd kPERR = BitVec.ofInt 32 (signedOf 32 (2 ^ 32 + (s.ptpFraction t1).1 - s.phase64.toNat % 2 ^ 32)) ∧
      t.phase = s.phase ∧ t.mem = s.mem ∧ t.queues = s.queues := by
  have he : effReference (.gptp m t1) s = s.refEvent (s.ptpFraction t1).1 (some (s.ptpFraction t1).2) := by
    unfold effReference
    rw [hinj, if_neg Bool.false_ne_true]
    exact if_neg (by simp [hsrc, hmac])
  have hmove := State.refEvent_acquire (s.ptpFraction t1).1 (some (s.ptpFraction t1).2) hs.1 hleft hl
  obtain ⟨hphase, hmem, hqueues, hmerid⟩ := State.refNoted_frame s (s.ptpFraction t1).1
  refine ⟨_, congrArg Host.Outcome.next he, hmove.lock, ?_, ?_, hmove.phase.trans hphase, hmove.mem.trans hmem,
    hmove.queues.trans hqueues⟩
  · exact hmove.lastRef.trans (by rw [hmerid])
  · exact (hmove.rd kPERR (by decide)).trans (State.refNoted_perr _ hs.1)

/-- The encoder reference stays away 1.5 times its interval (R48, R50). -/
theorem referenceTimeout_holdover {s : State} (hs : s.Canonical) (hl : s.lock = lkLOCKED) (h1 : 1 ≤ s.src)
    (h4 : s.src ≤ 4)
    (hlate : 3 * (if (s.rd kRATE).toNat = 0 then (s.rd kPERIOD).toNat else (s.rd kRATE).toNat) ≤
      2 * (s.now - s.merid.lastRef.getD s.merid.refSince)) :
    ∃ t, exec .referenceTimeout s = .next t ∧ t.lock = lkHOLDOVER ∧ t.flag (kESTAT rMERID) 16 = true ∧
      t.watch = s.watch ∧ t.phase = s.phase ∧ ∀ k, k ∉ kLOCKSTAT :: lossKeys → t.rd k = s.rd k := by
  have he : effRefTimeout s = s.setLock lkHOLDOVER := by
    unfold effRefTimeout State.refLost
    dsimp only
    rw [if_pos ⟨h1, h4, hlate⟩, if_pos hl]
  have hmove := State.LockMove.setLock hs.1 (st := lkHOLDOVER) (by decide) (by decide)
  refine ⟨_, congrArg Host.Outcome.next he, hmove.lock, ?_, ?_, hmove.phase, hmove.rd⟩
  · rw [State.setLock_holdover]
    exact State.lockLoss_flag _ (State.enterLock_wf _ hs.1)
  · rw [State.setLock_holdover, State.lockLoss_watch]
    rfl

/-- MERID_HOLDMAX has passed in HOLDOVER (R50, R51, R574). -/
theorem holdoverExpiry_unlocked {s : State} (hs : s.Canonical) (hl : s.lock = lkHOLDOVER)
    (hmax : 1000000 * s.fld kHOLDMAX 15 0 ≤ s.now - s.merid.stateSince) :
    ∃ t, exec .holdoverExpiry s = .next t ∧ t.lock = lkUNLOCKED ∧ t.flag (kESTAT rMERID) 16 = true ∧
      t.watch = { s.watch with causes := s.watch.causes ++ [{ num := 9, island := true }] } ∧ t.phase = s.phase ∧
      ∀ k, k ∉ kLOCKSTAT :: lossKeys → t.rd k = s.rd k := by
  have he : effHoldover s = s.setLock lkUNLOCKED := if_pos ⟨hl, hmax⟩
  have hmove := State.LockMove.setLock hs.1 (st := lkUNLOCKED) (by decide) (by decide)
  refine ⟨_, congrArg Host.Outcome.next he, hmove.lock, ?_, ?_, hmove.phase, hmove.rd⟩
  · rw [State.setLock_unlocked]
    exact State.lockLoss_flag _ (State.enterLock_wf _ hs.1)
  · rw [State.setLock_unlocked, State.postCause_watch, State.lockLoss_watch]
    rfl

/-- A new source moves the lock state: no source makes it FREE, another one is a lost reference (R49, R52). -/
theorem effLockcfgWrite_move {s : State} {v : Word} {t : Itag} (hs : s.Canonical) (hv : fieldOf v 2 0 ≤ 5)
    (hsrc : s.src ≠ fieldOf v 2 0) :
    State.LockMove (s.newSource v t) (effLockcfgWrite v t s)
      (if fieldOf v 2 0 = 0 then lkFREE else lockAfterLoss s.lock) := by
  have hnew := State.lockcfg_src (t := t) hs hv
  have hn := State.newSource_canonical (v := v) (t := t) hs
  have hlock : (s.newSource v t).lock = s.lock :=
    congrArg (fieldOf · 2 0) (State.newSource_rd (j := kLOCKSTAT) (by decide) (by decide) (by decide))
  rw [effLockcfgWrite_newSource (by rw [hnew]; exact hsrc.symm), hnew]
  split
  · split
    · next hf => exact hf ▸ .stay _
    · exact .setLock_free hn.1 (State.newSource_rate hs) (State.newSource_frame s v t).2.2
  · exact hlock ▸ .refLost hn.1

/-- A permitted write of MERID_LOCKCFG that changes the source (R49, R52). -/
theorem lockcfgWrite_moves {s : State} {i : Initiator} {v : Word} (hs : s.Canonical) (hr : s.Reaches i kLOCKCFG v)
    (hv : fieldOf v 2 0 ≤ 5) (hsrc : s.src ≠ fieldOf v 2 0) :
    ∃ t, exec (.lockcfgWrite i v) s = .next t ∧ t.src = fieldOf v 2 0 ∧ t.rd kRATE = 0#32 ∧ t.phase = s.phase ∧
      t.mem = s.mem ∧ t.merid.lastRef = none ∧
      t.lock = (if fieldOf v 2 0 = 0 then lkFREE else lockAfterLoss s.lock) ∧
      ∀ k, k ∉ kLOCKCFG :: kRATE :: kLOCKSTAT :: lossKeys → t.rd k = s.rd k := by
  have hm := effLockcfgWrite_move (t := i.itag) hs hv hsrc
  obtain ⟨hphase, hmem, hlast⟩ := State.newSource_frame s v i.itag
  refine ⟨_, congrArg Host.Outcome.next (State.regWrite_merid hr rfl (by decide)), ?_, ?_,
    (State.respond_phase _ _ _).trans (hm.phase.trans hphase), (State.respond_mem _ _ _).trans (hm.mem.trans hmem),
    ?_, State.respond_fld.trans hm.lock, fun k hk => ?_⟩
  · refine State.respond_fld.trans ?_
    calc (effLockcfgWrite v i.itag s).src
        = (s.newSource v i.itag).src := congrArg (fieldOf · 2 0) (hm.rd kLOCKCFG (by decide))
      _ = (s.writeGeneric kLOCKCFG i.itag v).src := State.newSource_src
      _ = fieldOf v 2 0 := State.lockcfg_src hs hv
  · exact State.respond_rd.trans ((hm.rd kRATE (by decide)).trans (State.newSource_rate hs))
  · rw [State.respond_merid]
    exact hm.lastRef.trans hlast
  · simp only [List.mem_cons, List.mem_append, not_or] at hk
    obtain ⟨h1, h2, h3, h4, h5⟩ := hk
    rw [State.respond_rd]
    refine (hm.rd k ?_).trans (State.newSource_rd h1 h2 h5)
    simp only [List.mem_cons, List.mem_append, not_or]
    exact ⟨h3, h4, h5⟩

/-- Settles O3: a reference event starts the lock, a lost reference, the end of the hold-over and a new source move it. -/
theorem lockStates : Obligations.LockStates := by
  refine ⟨fun s hs => ⟨fun m t1 hinj hsrc hmac hleft hl => ?_, fun hl h1 h4 hlate => ?_, fun hl hmax => ?_⟩,
    fun s i v hs hr hv hsrc => ?_⟩
  · exact gptpEvent_acquire hs hinj hsrc hmac hleft hl
  · exact referenceTimeout_holdover hs hl h1 h4 hlate
  · exact holdoverExpiry_unlocked hs hl hmax
  · exact lockcfgWrite_moves hs hr hv hsrc

end Sys2Proof.Machine
end

section
/-! The Meridian's period, Ephemeris slots and trigger outputs (R42, R55–R63, R71). -/

namespace Sys2Proof.Machine

/-! ### MERID_PERIOD (R42) -/

theorem regDef_kPERIOD : regDef kPERIOD = some (reg 1 0x008 [rw 31 0 0x05F5E100 0x017D7840 0x0BEBC200]) := by
  decide +kernel

/-- A permitted write of MERID_PERIOD stores a value in its range and reports any other. -/
theorem State.regWrite_kPERIOD {s : State} {i : Initiator} {v : Word} (h : s.Reaches i kPERIOD v) :
    s.regWrite i kPERIOD v =
      (if 25000000 ≤ v.toNat ∧ v.toNat ≤ 200000000 then s.wr kPERIOD v else s.cfgErr rMERID i.itag).respond .ok := by
  have he : effMeridReg (rkPage kPERIOD) (rkOff kPERIOD) kPERIOD i.itag v s = s.writeGeneric kPERIOD i.itag v := rfl
  rw [State.regWrite_merid h rfl (by decide), he, State.writeGeneric_whole s i.itag v regDef_kPERIOD rfl rfl rfl rfl,
    rw_accepts]
  simp only [Bool.and_eq_true, decide_eq_true_eq]
  rfl

/-- Settles O5: the range of MERID_PERIOD decides between storing the value and CFG_ERR. -/
theorem periodWrites : Obligations.PeriodWrites := by
  intro s i v hs hr
  have he : exec (.meridPeriodWrite i v) s = .next (s.regWrite i kPERIOD v) := rfl
  rw [he, State.regWrite_kPERIOD hr]
  refine ⟨fun h1 h2 => ?_, fun h => ⟨?_, ?_, fun k hk => State.rd_raise _ _ _ _ hk⟩⟩
  · rw [if_pos ⟨h1, h2⟩]
  · rw [if_neg (by omega)]
  · exact State.raise_flag _ _ _ _ (by decide) hs.1

/-! ### The words of a slot (R59) -/

section
variable {n w : Nat} (hn : n < 1024) (hw : w < 4)
include hn hw

theorem rkRegion_kSLOT : rkRegion (kSLOT n w) = rMERID := rkRegion_rk (by omega) (by omega)
theorem rkPage_kSLOT : rkPage (kSLOT n w) = 4 + n / 256 := rkPage_rk (by omega) (by omega)
omit hn in
theorem rkOff_kSLOT : rkOff (kSLOT n w) = n % 256 * 16 + 4 * w := rkOff_rk (by omega)

theorem effMeridReg_kSLOT (t : Itag) (v : Word) (s : State) :
    effMeridReg (rkPage (kSLOT n w)) (rkOff (kSLOT n w)) (kSLOT n w) t v s =
      if w = 3 then effSlotCtl n v t s else effSlotWord n w v t s := by
  have hslot : (4 + n / 256 - 4) * 256 + (n % 256 * 16 + 4 * w) / 16 = n := by omega
  have hword : (n % 256 * 16 + 4 * w) % 16 / 4 = w := by omega
  rw [rkPage_kSLOT hn hw, rkOff_kSLOT hw]
  unfold effMeridReg
  rw [if_neg (by omega), if_neg (by omega), if_pos (by omega)]
  simp only [hslot, hword]

/-- A permitted write of a slot's word. -/
theorem State.regWrite_kSLOT {s : State} {i : Initiator} {v : Word} (h : s.Reaches i (kSLOT n w) v) :
    s.regWrite i (kSLOT n w) v =
      (if w = 3 then effSlotCtl n v i.itag s else effSlotWord n w v i.itag s).respond .ok := by
  rw [State.regWrite_merid h (rkRegion_kSLOT hn hw) (by rw [rkPage_kSLOT hn hw]; omega), effMeridReg_kSLOT hn hw]

theorem kSLOT_not_mem_eventKeys : kSLOT n w ∉ eventKeys rMERID :=
  not_mem_eventKeys_merid (by omega) (by omega) (by omega) (by decide)

theorem kSLOT_not_mem_countKeys {k : Nat} (hk : k < 8) : kSLOT n w ∉ countKeys rMERID k :=
  not_mem_countKeys_merid (by omega) (by omega) (by omega) (by decide) hk

end

/-- Writing PHASE, REV or ACT of a slot that is neither armed nor DISABLED. -/
theorem effSlotWord_unarmed {s : State} {n w : Nat} (v : Word) (t : Itag) (hw : w < 3) (ha : s.slotArmed n = false)
    (hd : s.slotStatus n ≠ ssDISABLED) : effSlotWord n w v t s = s.wr (kSLOT n w) v := by
  have hk : kSLOT n 3 ≠ kSLOT n w := by unfold kSLOT rk; omega
  have hst : (s.wr (kSLOT n w) v).slotStatus n = s.slotStatus n := congrArg (fieldOf · 18 16) (State.rd_wr_ne s v hk)
  unfold effSlotWord
  rw [ha, if_neg Bool.false_ne_true]
  exact if_neg (by rw [hst]; exact hd)

/-- Writing PHASE, REV or ACT of a slot that is armed. -/
theorem effSlotWord_armed {s : State} {n w : Nat} (v : Word) (t : Itag) (ha : s.slotArmed n = true) :
    effSlotWord n w v t s = s.cfgErr rMERID t := if_pos ha

/-- A permitted write of a slot's PHASE, REV or ACT word (R59). -/
theorem slotWordWrite_effect {s : State} {i : Initiator} {slot : BitVec 10} {w : SlotWord} {v : Word} {j : Nat}
    (h0 : w = .phase → j = 0) (h1 : w = .rev → j = 1) (h2 : w = .act → j = 2)
    (hr : s.Reaches i (kSLOT slot.toNat j) v) :
    exec (.slotWordWrite i slot w v) s = .next ((effSlotWord slot.toNat j v i.itag s).respond .ok) ∧ j < 3 := by
  have he : exec (.slotWordWrite i slot w v) s = .next (s.regWrite i (kSLOT slot.toNat j) v) ∧ j < 3 := by
    cases w with
    | phase => rw [h0 rfl]; exact ⟨rfl, by decide⟩
    | rev => rw [h1 rfl]; exact ⟨rfl, by decide⟩
    | act => rw [h2 rfl]; exact ⟨rfl, by decide⟩
  obtain ⟨he, hj⟩ := he
  refine ⟨?_, hj⟩
  rw [he, State.regWrite_kSLOT slot.isLt (by omega) hr, if_neg (by omega)]

/-! ### Arming and disarming (R57, R61–R63) -/

@[simp] theorem State.setSlotAux_rd (s : State) (n : Nat) (a : SlotAux) (j : Nat) : (s.setSlotAux n a).rd j = s.rd j := rfl
@[simp] theorem State.setSlotAux_mem (s : State) (n : Nat) (a : SlotAux) : (s.setSlotAux n a).mem = s.mem := rfl
@[simp] theorem State.setSlotAux_regs (s : State) (n : Nat) (a : SlotAux) : (s.setSlotAux n a).regs = s.regs := rfl
@[simp] theorem State.setSlotAux_merid (s : State) (n : Nat) (a : SlotAux) : (s.setSlotAux n a).merid =
    { s.merid with slots := Sparse.set (fun _ => {}) s.merid.slots n a } := rfl

section
variable (s : State) (n : Nat)

/-- Slot `n` with OWNER and MODE as a write of its CTL word gives them. -/
def State.slotOwned (v : Word) : State :=
  (s.setFld (kSLOT n 3) 13 2 (fieldOf v 13 2)).setFlag (kSLOT n 3) 1 (flagOf v 1)

/-- The phase at which a one-shot slot matches: its REV and PHASE words. -/
def State.slotMatch : DWord := ((s.rd (kSLOT n 1)).setWidth 64 <<< 32) ||| (s.rd (kSLOT n 0)).setWidth 64

/-- Slot `n` armed for an occurrence at phase `p`. -/
def State.armedFor (p : DWord) : State :=
  (((s.setFlag (kSLOT n 3) 0 true).setFld (kSLOT n 3) 18 16 ssARMED).setFld (kSLOT n 3) 31 20 0).setSlotAux n
    { next := some p }

/-- Slot `n` whose match lies nearer than the dispatch, or past (R62). -/
def State.slotLate : State := ((s.notArmed n ssLATE).count rMERID 1).raise rMERID 17 { queue := n }

/-- Slot `n` is a one-shot slot that its owner may arm and whose storage is sound (R57, R80). -/
structure State.Armable : Prop where
  status : s.slotStatus n ≠ ssDISABLED
  ecc : s.slotEcc n = false
  allowed : s.armAllowed n = true
  oneShot : s.slotRecurring n = false

variable {s n}

/-- Arming a slot that matches in time (R57, R61). -/
theorem State.armSlot_inTime {ns : Nat} (ha : s.Armable n) (hu : s.untilMatch (s.slotMatch n) = some ns)
    (h : 320 ≤ ns) : s.armSlot n = s.armedFor n (s.slotMatch n) := by
  unfold State.slotMatch at hu
  unfold State.armSlot
  simp only [ha.status, ha.ecc, ha.allowed, ha.oneShot, hu, h, Bool.not_true, Bool.false_eq_true, ↓reduceIte]
  rfl

/-- Arming a slot that matches too early, or no more (R62). -/
theorem State.armSlot_late (ha : s.Armable n) (h : ∀ ns, s.untilMatch (s.slotMatch n) = some ns → ns < 320) :
    s.armSlot n = s.slotLate n := by
  unfold State.slotMatch at h
  unfold State.armSlot
  simp only [ha.status, ha.ecc, ha.allowed, ha.oneShot, Bool.not_true, Bool.false_eq_true, ↓reduceIte]
  split
  · next ns hns => exact if_neg (by have := h ns hns; omega)
  · rfl

/-- A write that sets ARM of a slot that is not armed. -/
theorem effSlotCtl_arm (v : Word) (t : Itag) (h : s.slotArmed n = false) :
    effSlotCtl n (withFlag v 0 true) t s = (s.slotOwned n v).armSlot n := by
  unfold effSlotCtl
  dsimp only
  rw [if_neg (by simp [h]), if_pos (flagOf_withFlag v 0 true (by decide)), fieldOf_withFlag_ne v 0 true 13 2 (by decide),
    flagOf_withFlag_ne v 0 1 true (by decide)]
  rfl

section
variable (hs : Registers.wf s.regs = true)
include hs

/-- The CTL word with OWNER and MODE as written. -/
theorem State.rd_slotOwned (v : Word) : (s.slotOwned n v).rd (kSLOT n 3) =
    withFlag (withField (s.rd (kSLOT n 3)) 13 2 (fieldOf v 13 2)) 1 (flagOf v 1) := by
  rw [State.slotOwned, State.rd_setFlag _ _ _ _ _ (State.wf_setFld _ _ _ _ _ hs), if_pos rfl, State.rd_setFld _ _ _ _ _ _ hs,
    if_pos rfl]

theorem State.slotOwned_wf (v : Word) : Registers.wf (s.slotOwned n v).regs = true :=
  State.wf_setFlag _ _ _ _ (State.wf_setFld _ _ _ _ _ hs)

theorem State.slotOwned_status (v : Word) : (s.slotOwned n v).slotStatus n = s.slotStatus n := by
  unfold State.slotStatus State.fld
  rw [State.rd_slotOwned hs, fieldOf_withFlag_ne _ _ _ _ _ (by decide),
    fieldOf_withField_ne _ _ _ _ _ _ (by decide) (by decide) (by decide) (by decide)]

theorem State.slotOwned_recurring (v : Word) : (s.slotOwned n v).slotRecurring n = flagOf v 1 := by
  unfold State.slotRecurring State.flag
  rw [State.rd_slotOwned hs, flagOf_withFlag _ _ _ (by decide)]

/-- The CTL word of an armed slot. -/
theorem State.rd_armedFor (p : DWord) : (s.armedFor n p).rd (kSLOT n 3) =
    withField (withField (withFlag (s.rd (kSLOT n 3)) 0 true) 18 16 ssARMED) 31 20 0 := by
  have h1 := State.wf_setFlag s (kSLOT n 3) 0 true hs
  rw [State.armedFor, State.setSlotAux_rd, State.rd_setFld _ _ _ _ _ _ (State.wf_setFld _ _ _ _ _ h1), if_pos rfl,
    State.rd_setFld _ _ _ _ _ _ h1, if_pos rfl, State.rd_setFlag _ _ _ _ _ hs, if_pos rfl]

/-- The CTL word of a slot that was not armed, or is no more. -/
theorem State.rd_notArmed (st : Nat) : (s.notArmed n st).rd (kSLOT n 3) =
    withField (withFlag (s.rd (kSLOT n 3)) 0 false) 18 16 st := by
  rw [State.notArmed, State.setSlotAux_rd, State.rd_setFld _ _ _ _ _ _ (State.wf_setFlag _ _ _ _ hs), if_pos rfl,
    State.rd_setFlag _ _ _ _ _ hs, if_pos rfl]

theorem State.notArmed_wf (st : Nat) : Registers.wf (s.notArmed n st).regs = true := by
  rw [State.notArmed, State.setSlotAux_regs]
  exact State.wf_setFld _ _ _ _ _ (State.wf_setFlag _ _ _ _ hs)

end

section
variable {j : Nat} (hj : j ≠ kSLOT n 3)
include hj

theorem State.rd_slotOwned_ne (v : Word) : (s.slotOwned n v).rd j = s.rd j :=
  (State.rd_setFlag_ne _ _ _ hj).trans (State.rd_setFld_ne _ _ _ _ hj)

theorem State.rd_armedFor_ne (p : DWord) : (s.armedFor n p).rd j = s.rd j := by
  rw [State.armedFor, State.setSlotAux_rd, State.rd_setFld_ne _ _ _ _ hj, State.rd_setFld_ne _ _ _ _ hj,
    State.rd_setFlag_ne _ _ _ hj]

theorem State.rd_notArmed_ne (st : Nat) : (s.notArmed n st).rd j = s.rd j := by
  rw [State.notArmed, State.setSlotAux_rd, State.rd_setFld_ne _ _ _ _ hj, State.rd_setFlag_ne _ _ _ hj]

end

theorem State.slotOwned_mem (v : Word) : (s.slotOwned n v).mem = s.mem := by
  rw [State.slotOwned, State.setFlag_mem, State.setFld_mem]

theorem State.slotOwned_merid (v : Word) : (s.slotOwned n v).merid = s.merid := by
  rw [State.slotOwned, State.setFlag_merid, State.setFld_merid]

theorem State.armedFor_mem (p : DWord) : (s.armedFor n p).mem = s.mem := by
  rw [State.armedFor, State.setSlotAux_mem, State.setFld_mem, State.setFld_mem, State.setFlag_mem]

theorem State.armedFor_merid (p : DWord) : (s.armedFor n p).merid =
    { s.merid with slots := Sparse.set (fun _ => {}) s.merid.slots n { next := some p } } := by
  rw [State.armedFor, State.setSlotAux_merid, State.setFld_merid, State.setFld_merid, State.setFlag_merid]

theorem State.notArmed_mem (st : Nat) : (s.notArmed n st).mem = s.mem := by
  rw [State.notArmed, State.setSlotAux_mem, State.setFld_mem, State.setFlag_mem]

theorem State.notArmed_merid (st : Nat) : (s.notArmed n st).merid = { s.merid with
    slots := Sparse.set (fun _ => {}) s.merid.slots n { s.slotAux n with next := none } } := by
  rw [State.notArmed, State.setSlotAux_merid, State.setFld_merid, State.setFlag_merid]

/-- The registers that say when a slot matches and whether its storage fails are not its own CTL word. -/
theorem kSLOT_ctl_ne (n : Nat) : kSLOT n 0 ≠ kSLOT n 3 ∧ kSLOT n 1 ≠ kSLOT n 3 ∧ kINCR ≠ kSLOT n 3 ∧
    kINCR + 4 ≠ kSLOT n 3 ∧ kEINJ rMERID ≠ kSLOT n 3 := by
  unfold kSLOT kINCR kEINJ rk
  omega

theorem State.slotOwned_match (v : Word) : (s.slotOwned n v).slotMatch n = s.slotMatch n := by
  obtain ⟨h0, h1, -, -, -⟩ := kSLOT_ctl_ne n
  unfold State.slotMatch
  rw [State.rd_slotOwned_ne h0, State.rd_slotOwned_ne h1]

theorem State.slotOwned_untilMatch (v : Word) (p : DWord) : (s.slotOwned n v).untilMatch p = s.untilMatch p := by
  obtain ⟨-, -, h0, h1, -⟩ := kSLOT_ctl_ne n
  have hi : (s.slotOwned n v).incr = s.incr := by
    unfold State.incr State.rd64
    rw [State.rd_slotOwned_ne h0, State.rd_slotOwned_ne h1]
  unfold State.untilMatch
  rw [hi]
  rfl

theorem State.slotOwned_ecc (v : Word) : (s.slotOwned n v).slotEcc n = s.slotEcc n := by
  obtain ⟨-, -, -, -, h⟩ := kSLOT_ctl_ne n
  unfold State.slotEcc State.injArmed State.flag State.fld
  rw [State.rd_slotOwned_ne h]

end

/-- The words that a write of CTL leaves: ARM and STATUS as they became, OWNER and MODE as written. -/
theorem slotCtl_reads (x v : Word) (b : Bool) (st : Nat) (hst : st < 8) :
    let w := withField (withFlag (withFlag (withField x 13 2 (fieldOf v 13 2)) 1 (flagOf v 1)) 0 b) 18 16 st
    flagOf w 0 = b ∧ fieldOf w 18 16 = st ∧ fieldOf w 13 2 = fieldOf v 13 2 ∧ flagOf w 1 = flagOf v 1 := by
  have hv := fieldOf_lt v 13 2
  refine ⟨?_, ?_, ?_, ?_⟩
  · rw [flagOf_withField_ne _ _ _ _ _ (by decide) (by decide) (by decide), flagOf_withFlag _ _ _ (by decide)]
  · rw [fieldOf_withField _ _ _ _ (by decide) (by decide)]
    exact Nat.mod_eq_of_lt hst
  · rw [fieldOf_withField_ne _ _ _ _ _ _ (by decide) (by decide) (by decide) (by decide),
      fieldOf_withFlag_ne _ _ _ _ _ (by decide), fieldOf_withFlag_ne _ _ _ _ _ (by decide),
      fieldOf_withField _ _ _ _ (by decide) (by decide)]
    exact Nat.mod_eq_of_lt hv
  · rw [flagOf_withField_ne _ _ _ _ _ (by decide) (by decide) (by decide), flagOf_withFlag_ne _ _ _ _ (by decide),
      flagOf_withFlag _ _ _ (by decide)]

section
variable {s : State} {n : Nat} (hs : Registers.wf s.regs = true) (v : Word)
include hs

/-- A slot that a write of CTL has armed. -/
theorem State.armed_reads (p : DWord) :
    ((s.slotOwned n v).armedFor n p).slotArmed n = true ∧ ((s.slotOwned n v).armedFor n p).slotStatus n = ssARMED ∧
    ((s.slotOwned n v).armedFor n p).fld (kSLOT n 3) 31 20 = 0 ∧
    ((s.slotOwned n v).armedFor n p).slotOwner n = fieldOf v 13 2 ∧
    ((s.slotOwned n v).armedFor n p).slotRecurring n = flagOf v 1 := by
  obtain ⟨harm, hst, how, hmode⟩ := slotCtl_reads (s.rd (kSLOT n 3)) v true ssARMED (by decide)
  simp only [State.slotArmed, State.slotStatus, State.slotOwner, State.slotRecurring, State.flag, State.fld,
    State.rd_armedFor (State.slotOwned_wf hs v), State.rd_slotOwned hs]
  refine ⟨?_, ?_, ?_, ?_, ?_⟩
  · rw [flagOf_withField_ne _ _ _ _ _ (by decide) (by decide) (by decide), harm]
  · rw [fieldOf_withField_ne _ _ _ _ _ _ (by decide) (by decide) (by decide) (by decide), hst]
  · exact fieldOf_withField _ _ _ _ (by decide) (by decide)
  · rw [fieldOf_withField_ne _ _ _ _ _ _ (by decide) (by decide) (by decide) (by decide), how]
  · rw [flagOf_withField_ne _ _ _ _ _ (by decide) (by decide) (by decide), hmode]

/-- A slot that a write of CTL has left unarmed. -/
theorem State.notArmed_reads {st : Nat} (hst : st < 8) :
    ((s.slotOwned n v).notArmed n st).slotArmed n = false ∧ ((s.slotOwned n v).notArmed n st).slotStatus n = st ∧
    ((s.slotOwned n v).notArmed n st).slotOwner n = fieldOf v 13 2 := by
  obtain ⟨harm, hst, how, -⟩ := slotCtl_reads (s.rd (kSLOT n 3)) v false st hst
  simp only [State.slotArmed, State.slotStatus, State.slotOwner, State.flag, State.fld,
    State.rd_notArmed (State.slotOwned_wf hs v), State.rd_slotOwned hs]
  exact ⟨harm, hst, how⟩

/-- A write that clears ARM of an ARMED or FIRED slot (R63). -/
theorem effSlotCtl_disarm (t : Itag) (hst : s.slotStatus n = ssARMED ∨ s.slotStatus n = ssFIRED) :
    effSlotCtl n (withFlag v 0 false) t s = (s.slotOwned n v).notArmed n ssIDLE := by
  have hoff : flagOf (withFlag v 0 false) 0 = false := flagOf_withFlag v 0 false (by decide)
  unfold effSlotCtl
  dsimp only
  rw [if_neg (by simp [hoff]), if_neg (by simp [hoff]), fieldOf_withFlag_ne v 0 false 13 2 (by decide),
    flagOf_withFlag_ne v 0 1 false (by decide)]
  exact if_pos (by rw [← State.slotOwned_status hs v] at hst; exact hst)

end

theorem State.rd_slotLate (s : State) (n : Nat) {j : Nat} (h : j ∉ countKeys rMERID 1 ++ eventKeys rMERID) :
    (s.slotLate n).rd j = (s.notArmed n ssLATE).rd j := by
  rw [List.mem_append, not_or] at h
  exact (State.rd_raise _ _ _ _ h.2).trans (State.rd_count _ _ _ _ h.1)

theorem State.slotLate_mem (s : State) (n : Nat) : (s.slotLate n).mem = s.mem := by
  rw [State.slotLate, State.raise_mem, State.count_mem, State.notArmed_mem]

/-- BLK_ECNT1 counts a slot that was armed too late (R62). -/
theorem State.slotLate_ecnt {s : State} (n : Nat) (hs : Registers.wf s.regs = true) :
    (s.slotLate n).fld (kECNT rMERID 1) 15 0 = satAdd 0xFFFF (s.fld (kECNT rMERID 1) 15 0) 1 := by
  have hne : kECNT rMERID 1 ≠ kSLOT n 3 := by unfold kECNT kSLOT rk; omega
  have hev : kECNT rMERID 1 ∉ eventKeys rMERID := by decide
  calc (s.slotLate n).fld (kECNT rMERID 1) 15 0
      = ((s.notArmed n ssLATE).count rMERID 1).fld (kECNT rMERID 1) 15 0 :=
        congrArg (fieldOf · 15 0) (State.rd_raise _ _ _ _ hev)
    _ = satAdd 0xFFFF ((s.notArmed n ssLATE).fld (kECNT rMERID 1) 15 0) 1 :=
        State.fld_count _ _ _ _ (by decide) (State.notArmed_wf hs _)
    _ = _ := by unfold State.fld; rw [State.rd_notArmed_ne hne]

/-- OWNER and MODE of a one-shot slot as written leave it to be armed. -/
theorem State.slotOwned_armable {s : State} {n : Nat} {v : Word} (hs : Registers.wf s.regs = true)
    (hmode : flagOf v 1 = false) (hecc : s.slotEcc n = false) (hdis : s.slotStatus n ≠ ssDISABLED)
    (hall : (s.slotOwned n v).armAllowed n = true) :
    (s.slotOwned n v).Armable n where
  status := by rw [State.slotOwned_status hs]; exact hdis
  ecc := by rw [State.slotOwned_ecc]; exact hecc
  allowed := hall
  oneShot := by rw [State.slotOwned_recurring hs]; exact hmode

section
variable {s : State} {i : Initiator} {slot : BitVec 10} {v : Word} (hs : s.Canonical)
include hs

section
variable (hr : s.Reaches i (kSLOT slot.toNat 3) (withFlag v 0 true)) (harm : s.slotArmed slot.toNat = false)
  (hmode : flagOf v 1 = false) (ha : (s.slotOwned slot.toNat v).Armable slot.toNat)
include hr harm

omit hs in
/-- A permitted write that sets ARM of a slot that is not armed. -/
theorem slotArm_armSlot :
    exec (.slotArm i slot v) s = .next (((s.slotOwned slot.toNat v).armSlot slot.toNat).respond .ok) := by
  have he : exec (.slotArm i slot v) s = .next (s.regWrite i (kSLOT slot.toNat 3) (withFlag v 0 true)) := rfl
  rw [he, State.regWrite_kSLOT slot.isLt (by decide) hr, if_pos rfl, effSlotCtl_arm _ _ harm]

include ha

include hmode in
/-- A one-shot slot whose match lies 320 ns away or more is armed: what it shows, and what stays (R57, R61, R63). -/
theorem slotArm_inTime_shows {ns : Nat} (hu : s.untilMatch (s.slotMatch slot.toNat) = some ns) (hns : 320 ≤ ns) :
    ∃ t, exec (.slotArm i slot v) s = .next t ∧ t.slotArmed slot.toNat = true ∧ t.slotStatus slot.toNat = ssARMED ∧
      t.fld (kSLOT slot.toNat 3) 31 20 = 0 ∧ t.slotOwner slot.toNat = fieldOf v 13 2 ∧
      t.slotRecurring slot.toNat = false ∧
      t.merid = { s.merid with
        slots := Sparse.set (fun _ => {}) s.merid.slots slot.toNat { next := some (s.slotMatch slot.toNat) } } ∧
      (∀ k, k ≠ kSLOT slot.toNat 3 → t.rd k = s.rd k) ∧ t.mem = s.mem := by
  have he := slotArm_armSlot hr harm
  rw [State.armSlot_inTime ha (by rw [State.slotOwned_match, State.slotOwned_untilMatch]; exact hu) hns,
    State.slotOwned_match] at he
  obtain ⟨harmed, hst, hocc, how, hrec⟩ := State.armed_reads (n := slot.toNat) hs.1 v (s.slotMatch slot.toNat)
  have hmerid := State.armedFor_merid (s := s.slotOwned slot.toNat v) (n := slot.toNat) (s.slotMatch slot.toNat)
  have hmem := State.armedFor_mem (s := s.slotOwned slot.toNat v) (n := slot.toNat) (s.slotMatch slot.toNat)
  have hrd : ∀ k, k ≠ kSLOT slot.toNat 3 →
      ((s.slotOwned slot.toNat v).armedFor slot.toNat (s.slotMatch slot.toNat)).rd k = s.rd k :=
    fun k hk => (State.rd_armedFor_ne hk _).trans (State.rd_slotOwned_ne hk v)
  rw [State.slotOwned_merid] at hmerid
  rw [State.slotOwned_mem] at hmem
  exact ⟨_, he, State.respond_flag.trans harmed, State.respond_fld.trans hst, State.respond_fld.trans hocc,
    State.respond_fld.trans how, State.respond_flag.trans (hrec.trans hmode), (State.respond_merid _ _ _).trans hmerid,
    fun k hk => State.respond_rd.trans (hrd k hk), (State.respond_mem _ _ _).trans hmem⟩

/-- A one-shot slot whose match lies nearer, or is past, is late: what it shows, and what stays (R62). -/
theorem slotArm_late_shows (hu : ∀ ns, s.untilMatch (s.slotMatch slot.toNat) = some ns → ns < 320) :
    ∃ t, exec (.slotArm i slot v) s = .next t ∧ t.slotArmed slot.toNat = false ∧ t.slotStatus slot.toNat = ssLATE ∧
      t.fld (kECNT rMERID 1) 15 0 = satAdd 0xFFFF (s.fld (kECNT rMERID 1) 15 0) 1 ∧ t.mem = s.mem ∧
      ∀ k, k ∉ kSLOT slot.toNat 3 :: (countKeys rMERID 1 ++ eventKeys rMERID) → t.rd k = s.rd k := by
  have he := slotArm_armSlot hr harm
  rw [State.armSlot_late ha (by
    rw [State.slotOwned_match]; intro ns hns; rw [State.slotOwned_untilMatch] at hns; exact hu ns hns)] at he
  have hctl : kSLOT slot.toNat 3 ∉ countKeys rMERID 1 ++ eventKeys rMERID :=
    List.not_mem_append (kSLOT_not_mem_countKeys slot.isLt (by decide) (by decide))
      (kSLOT_not_mem_eventKeys slot.isLt (by decide))
  have hlate := State.rd_slotLate (s.slotOwned slot.toNat v) slot.toNat hctl
  obtain ⟨hoff, hst, -⟩ := State.notArmed_reads (n := slot.toNat) hs.1 v (st := ssLATE) (by decide)
  have hne : kECNT rMERID 1 ≠ kSLOT slot.toNat 3 := by unfold kECNT kSLOT rk; omega
  have hecnt := State.slotLate_ecnt slot.toNat (State.slotOwned_wf hs.1 (n := slot.toNat) v)
  have hmem := (State.slotLate_mem (s.slotOwned slot.toNat v) slot.toNat).trans (State.slotOwned_mem v)
  have hrd : ∀ k, k ∉ kSLOT slot.toNat 3 :: (countKeys rMERID 1 ++ eventKeys rMERID) →
      ((s.slotOwned slot.toNat v).slotLate slot.toNat).rd k = s.rd k := fun k hk => by
    have hk' := List.ne_of_not_mem_cons hk
    rw [State.rd_slotLate _ _ (List.not_mem_of_not_mem_cons hk), State.rd_notArmed_ne hk', State.rd_slotOwned_ne hk']
  have hecnt' : (s.slotOwned slot.toNat v).fld (kECNT rMERID 1) 15 0 = s.fld (kECNT rMERID 1) 15 0 :=
    congrArg (fieldOf · 15 0) (State.rd_slotOwned_ne hne v)
  rw [hecnt'] at hecnt
  unfold State.slotArmed State.flag at hoff
  unfold State.slotStatus State.fld at hst
  rw [← hlate] at hoff hst
  exact ⟨_, he, State.respond_flag.trans hoff, State.respond_fld.trans hst, State.respond_fld.trans hecnt,
    (State.respond_mem _ _ _).trans hmem, fun k hk => State.respond_rd.trans (hrd k hk)⟩

end

/-- A permitted write that clears ARM of an ARMED or FIRED slot: what it shows, and what stays (R63). -/
theorem slotDisarm_shows (hr : s.Reaches i (kSLOT slot.toNat 3) (withFlag v 0 false))
    (hst : s.slotStatus slot.toNat = ssARMED ∨ s.slotStatus slot.toNat = ssFIRED) :
    ∃ t, exec (.slotDisarm i slot v) s = .next t ∧ t.slotArmed slot.toNat = false ∧ t.slotStatus slot.toNat = ssIDLE ∧
      t.slotOwner slot.toNat = fieldOf v 13 2 ∧
      t.merid = { s.merid with
        slots := Sparse.set (fun _ => {}) s.merid.slots slot.toNat { s.slotAux slot.toNat with next := none } } ∧
      (∀ k, k ≠ kSLOT slot.toNat 3 → t.rd k = s.rd k) ∧ t.mem = s.mem := by
  have he : exec (.slotDisarm i slot v) s = .next (s.regWrite i (kSLOT slot.toNat 3) (withFlag v 0 false)) := rfl
  rw [State.regWrite_kSLOT slot.isLt (by decide) hr, if_pos rfl, effSlotCtl_disarm hs.1 _ _ hst] at he
  obtain ⟨hoff, hidle, how⟩ := State.notArmed_reads (n := slot.toNat) hs.1 v (st := ssIDLE) (by decide)
  have hmerid := State.notArmed_merid (s := s.slotOwned slot.toNat v) (n := slot.toNat) ssIDLE
  have hmem := (State.notArmed_mem (s := s.slotOwned slot.toNat v) (n := slot.toNat) ssIDLE).trans (State.slotOwned_mem v)
  have hrd : ∀ k, k ≠ kSLOT slot.toNat 3 → ((s.slotOwned slot.toNat v).notArmed slot.toNat ssIDLE).rd k = s.rd k :=
    fun k hk => (State.rd_notArmed_ne hk _).trans (State.rd_slotOwned_ne hk v)
  rw [State.slotAux, State.slotOwned_merid] at hmerid
  exact ⟨_, he, State.respond_flag.trans hoff, State.respond_fld.trans hidle,
    State.respond_fld.trans how, (State.respond_merid _ _ _).trans hmerid, fun k hk => State.respond_rd.trans (hrd k hk),
    (State.respond_mem _ _ _).trans hmem⟩

end

/-- Settles O6: a slot's words are stored while it is not armed, and a write of its CTL word arms it, finds it late, or
disarms it. -/
theorem slotWrites : Obligations.SlotWrites := by
  refine ⟨fun s i slot w v j h0 h1 h2 hr => ?_, fun s i slot v p hs hecc hmode hp => ?_⟩
  · obtain ⟨he, hj⟩ := slotWordWrite_effect h0 h1 h2 hr
    rw [he]
    refine ⟨fun ha hd => ?_, fun ha => ?_⟩
    · rw [effSlotWord_unarmed v i.itag hj ha hd]
    · rw [effSlotWord_armed v i.itag ha]
  · obtain rfl : p = s.slotMatch slot.toNat := hp
    refine ⟨fun hr harm hdis hall => ?_, fun hr hst => ?_⟩
    · have ha : (s.slotOwned slot.toNat v).Armable slot.toNat :=
        State.slotOwned_armable hs.1 hmode hecc hdis (by rw [State.slotOwned, hmode]; exact hall)
      exact ⟨fun ⟨ns, hu, hns⟩ => slotArm_inTime_shows hs hr harm hmode ha hu hns,
        fun hu => slotArm_late_shows hs hr harm ha hu⟩
    · exact slotDisarm_shows hs hr hst

/-! ### Trigger outputs (R71) -/

theorem regDef_kTRG {pin : Nat} (h : pin < 32) : regDef (kTRG pin 0) = some (reg 3 0x000
    [rw 0 0, rw 1 1, { (rw 13 2) with ownerOnly := true }, rw 15 14 1] 32 8) := by
  revert pin
  decide +kernel

section
variable {s : State} {pin : Nat} (hp : pin < 32)
include hp

theorem effMeridReg_kTRG (t : Itag) (v : Word) :
    effMeridReg (rkPage (kTRG pin 0)) (rkOff (kTRG pin 0)) (kTRG pin 0) t v s = effTrgCfg pin v t s := by
  have hpage : rkPage (kTRG pin 0) = 3 := rkPage_rk (by decide) (by omega)
  have hoff : rkOff (kTRG pin 0) = pin * 8 := rkOff_rk (by omega)
  rw [hpage, hoff]
  unfold effMeridReg
  rw [if_neg (by omega), if_pos (by omega), Nat.mul_div_cancel _ (by decide)]

/-- A bit of a trigger output's CFG that takes every value reads as written. -/
theorem State.trgCfg_flag (hs : Registers.wf s.regs = true) (t : Itag) (v : Word) {b : Nat} (hb : b = 0 ∨ b = 1) :
    (s.writeGeneric (kTRG pin 0) t v).flag (kTRG pin 0) b = flagOf v b := by
  have hk : kTRG pin 0 ∉ eventKeys (rkRegion (kTRG pin 0)) := by
    rw [show rkRegion (kTRG pin 0) = rMERID from rkRegion_rk (by decide) (by omega)]
    exact not_mem_eventKeys_merid (by decide) (by decide) (by omega) (by decide)
  have hm : rw b b ∈ [rw 0 0, rw 1 1, { (rw 13 2) with ownerOnly := true }, rw 15 14 1] := by
    rcases hb with rfl | rfl <;> decide
  have hlt : fieldOf v b b < 2 := by
    have h := fieldOf_lt v b b
    rwa [Nat.add_sub_cancel_left] at h
  have ha : (rw b b).accepts (fieldOf v b b) = true := by
    rw [rw_accepts, decide_eq_true (Nat.zero_le _), decide_eq_true (by omega), Bool.and_self]
  have hf := State.writeGeneric_fld (f := rw b b) t (regDef_kTRG hp) (by decide) hm rfl ha hk hs
  calc (s.writeGeneric (kTRG pin 0) t v).flag (kTRG pin 0) b
      = ((s.writeGeneric (kTRG pin 0) t v).fld (kTRG pin 0) b b).testBit 0 := flagOf_eq_fieldOf _ b
    _ = (fieldOf v b b).testBit 0 := congrArg (Nat.testBit · 0) hf
    _ = flagOf v b := (flagOf_eq_fieldOf v b).symm

/-- A write of MERID_TRGn_CFG moves the pin where it changes EN: to IDLE when it sets EN, to undriven when it clears it. -/
theorem effTrgCfg_eq (hs : Registers.wf s.regs = true) (t : Itag) (v : Word) :
    effTrgCfg pin v t s =
      if flagOf v 0 = s.flag (kTRG pin 0) 0 then s.writeGeneric (kTRG pin 0) t v
      else ((s.writeGeneric (kTRG pin 0) t v).setLevel pin (flagOf v 0 && flagOf v 1)).setPulse pin none := by
  unfold effTrgCfg
  simp only [State.trgCfg_flag hp hs t v (.inl rfl), State.trgCfg_flag hp hs t v (.inr rfl)]

end

/-- Settles O7: the pin moves only where the write changes EN. -/
theorem triggerOutputs : Obligations.TriggerOutputs := by
  intro s i pin v hs hr
  have he : exec (.trgCfgWrite i pin v) s = .next ((effTrgCfg pin.toNat v i.itag s).respond .ok) := by
    have hreg : rkRegion (kTRG pin.toNat 0) = rMERID := rkRegion_rk (by decide) (by omega)
    have hpage : rkPage (kTRG pin.toNat 0) = 3 := rkPage_rk (by decide) (by omega)
    change Host.Outcome.next (s.regWrite i (kTRG pin.toNat 0) v) = _
    rw [State.regWrite_merid hr hreg (by rw [hpage]; decide), effMeridReg_kTRG pin.isLt]
  rw [he, effTrgCfg_eq pin.isLt hs.1]
  refine ⟨fun hsame => ?_, fun hon hwas => ?_, fun hoff hwas => ?_⟩
  · rw [if_pos hsame]
  · rw [if_neg (by rw [hon, hwas]; decide), hon, Bool.true_and]
  · rw [if_neg (by rw [hoff, hwas]; decide), hoff, Bool.false_and]

end Sys2Proof.Machine
end

section
/-! Self-test windows that the Ephemeris opens and closes, plain register reads, and the completion of every command. -/

namespace Sys2Proof.Machine

/-! ### Windows (R66, R69, R583, R585) -/

/-- A due open: dropped, stopped by a protected interval, or carried out. -/
theorem effWindowOpen_due {s s' : State} {r w : Nat} {d : Dispatched} (ht : s.takeDue (Action.isOpen r) = some (d, s'))
    (ha : d.action = .windowOpen r w) :
    effWindowOpen r s =
      if s'.dropsAt r then s'.dropAction d.slot
      else if (s'.slotFired d.slot).isProtected r then (s'.slotFired d.slot).protEvent r
      else (s'.slotFired d.slot).openWindow r w := by
  unfold effWindowOpen
  simp only [ht, ha]

/-- A due close: forced by a protected interval, which no slot owns, dropped, or carried out. -/
theorem effWindowClose_due {s s' : State} {r w : Nat} {d : Dispatched} (ht : s.takeDue (Action.isClose r) = some (d, s'))
    (ha : d.action = .windowClose r w) :
    effWindowClose r s =
      if 1024 ≤ d.slot then (if s'.flag (kSTAT r) 3 then (s'.closeWindow r 0 true).protEvent r else s')
      else if s'.dropsAt r then s'.dropAction d.slot
      else (s'.slotFired d.slot).closeWindow r w false := by
  unfold effWindowClose
  simp only [ht, ha]

theorem State.wins_slotFired (s : State) (n : Nat) : (s.slotFired n).wins = s.wins := by
  unfold State.slotFired
  extract_lets k u
  have hu : u.wins = s.wins := State.setFld_wins s k 31 20 _
  split
  · exact hu
  · exact (State.setFld_wins u k 18 16 _).trans hu

/-- An occurrence that fires opens and closes no window. -/
theorem State.windows_slotFired (s : State) (n r : Nat) : (s.slotFired n).windows r = s.windows r :=
  congrArg (fun m => Sparse.get (fun _ => 0) m r) (State.wins_slotFired s n)

/-- A closed window of a region without spare parts opens. -/
theorem State.openWindow_noSpares {s : State} {r w : Nat} (hw : bitOf (s.windows r) w = false) (hs : spareSets r = [])
    (hr : r ≠ rPLATE) :
    s.openWindow r w = (s.setWindows r (Nat.lor (s.windows r) (2 ^ w))).touch (regionPd r) := by
  unfold State.openWindow
  rw [hw, if_neg Bool.false_ne_true]
  simp only [hr, hs, ↓reduceIte, List.foldl_nil]

/-- Settles O17, by the branches of a due open and of a due close. -/
theorem windowsOpenAndClose : Obligations.WindowsOpenAndClose := by
  intro s s' region d w
  refine ⟨fun ht ha => ?_, fun ht ha => ?_⟩
  · have he : exec (.windowOpen region) s = .next (effWindowOpen region.toNat s) := rfl
    rw [he, effWindowOpen_due ht ha]
    refine ⟨fun hd => ?_, fun hd hp => ?_, fun hd hp hw hs hr => ?_, fun hd hp => ?_⟩
    · rw [if_pos hd]
    · rw [hd, if_neg Bool.false_ne_true, if_pos hp]
      rfl
    · rw [hd, hp, if_neg Bool.false_ne_true, if_neg Bool.false_ne_true,
        State.openWindow_noSpares (by rw [State.windows_slotFired]; exact hw) hs hr, State.windows_slotFired]
    · rw [hd, hp, if_neg Bool.false_ne_true, if_neg Bool.false_ne_true]
  · have he : exec (.windowClose region) s = .next (effWindowClose region.toNat s) := rfl
    rw [he, effWindowClose_due ht ha]
    refine ⟨fun hn hd => ?_, fun hn hd => ?_, fun hn hw => ?_⟩
    · rw [if_neg (by omega), if_pos hd]
    · rw [if_neg (by omega), hd, if_neg Bool.false_ne_true]
    · rw [if_pos hn, if_pos hw]
      rfl

/-! ### Register reads (R83, R87, R89, R90) -/

@[simp] theorem State.touch_rd (s : State) (pd k : Nat) : (s.touch pd).rd k = s.rd k := by
  unfold State.touch
  split <;> rfl

/-- A read that passes its checks answers what the register reads as, from the state that the checks leave. -/
theorem registerRead_passes {s : State} {i : Initiator} {addr : BitVec 44} {k : Nat} {w : Word} {u : State}
    (hsite : s.site addr.toNat = .regs k) (hk : k % 4 = 0) (hp : s.Passes i k false)
    (hread : regRead (s.touch (s.keyPd k)) k = (some w, u)) :
    exec (.registerRead i addr 4) s = .next (u.respond .ok (leBytes 4 w.toNat)) := by
  have hshape : regShapeOk k 4 = true := by simp [regShapeOk, hk]
  have he : exec (.registerRead i addr 4) s = .next (s.anyAccess i addr.toNat (.read 4)) := rfl
  rw [he]
  unfold State.anyAccess
  simp only [hsite, State.regReadAny, hshape, Bool.true_eq_false, ↓reduceIte, State.regReadBy, State.aerInject_passes hp,
    State.readVia, State.gate_passes_read hp, hread]

/-- A page-0 register other than BLK_STAT reads as it is stored. -/
theorem regRead_header (s : State) {k : Nat} (hp : rkPage k = 0) (ho : rkOff k ≠ 0x014) :
    regRead s k = (some (s.rd k), s) := by
  unfold regRead
  simp only [hp, ho, ↓reduceIte]

/-- MERID_PHASE_LO reads the fraction and latches the revolution count. -/
theorem regRead_phaseLo (s : State) : regRead s (rk rMERID 1 0x010) =
    (some (s.phase64.setWidth 32), s.wr (rk rMERID 1 0x014) ((s.phase64 >>> 32).setWidth 32)) := rfl

/-- Settles O53: the answer is what the register reads as; page 0 and MERID_PHASE_LO are two of its cases. -/
theorem registerReads : Obligations.RegisterReads := by
  intro s i addr k hsite hk hp
  refine ⟨fun hpage hoff => ?_, fun hphase => ?_, fun w u hread => registerRead_passes hsite hk hp hread⟩
  · have h := registerRead_passes hsite hk hp (regRead_header _ hpage hoff)
    rwa [State.touch_rd] at h
  · subst hphase
    refine registerRead_passes hsite hk hp ?_
    rw [State.touch_keyPd_merid s rfl, regRead_phaseLo]

/-! ### Every command completes (R38, R599) -/

/-- A step runs the command at the front of the queue on the state with the queue's rest. -/
theorem step_front {s : State} {c : Instr} {rest : List Instr} (h : s.pending = c :: rest) :
    step s = exec c (s.withPending rest) := by
  unfold step
  rw [h]

/-- Settles O58: time passing and the loss of the standby input set the timebase count; every other command keeps it. -/
theorem commandsComplete : Obligations.CommandsComplete := by
  intro s c rest hs
  rw [step_front hs]
  refine ⟨fun hw => ?_, fun hw => exec_illFormed c _ hw⟩
  by_cases hp : ∃ ns, c = .phaseAdvance ns
  · obtain ⟨ns, rfl⟩ := hp
    obtain ⟨hpend, hnow, -⟩ := effPhaseAdvance_kept ns (s.withPending rest)
    refine ⟨_, rfl, hpend, fun ns' h => ?_, (fun h => nomatch h), fun h => absurd rfl (h ns)⟩
    obtain rfl : ns = ns' := Instr.phaseAdvance.inj h
    exact hnow
  · by_cases hl : c = .standbyLoss
    · subst hl
      obtain ⟨hpend, hnow, -⟩ := effStandbyLoss_kept (s.withPending rest)
      exact ⟨_, rfl, hpend, (fun _ h => nomatch h), fun _ => hnow, fun _ h => absurd rfl h⟩
    · obtain ⟨t, ht, hpend, hnow, -⟩ := exec_kept c (s.withPending rest) hw (fun ns h => hp ⟨ns, h⟩) hl
      exact ⟨t, ht, hpend, fun ns h => absurd ⟨ns, h⟩ hp, fun h => absurd h hl, fun _ _ => hnow⟩

end Sys2Proof.Machine
end

section
/-! What a permitted write of a page-0 header register or of a queue register reaches, and the header's writes: BLK_EINJ,
BLK_CTRL and BLK_FRZ (R91, R92, R96, R99, R100, R537). -/

namespace Sys2Proof.Machine

/-! ### Demand on a power domain leaves everything but its idle time alone -/

theorem State.touch_eq (s : State) (pd : Nat) : ∃ pwr_, s.touch pd = { s with pwr := pwr_ } := by
  unfold State.touch
  split
  · exact ⟨_, rfl⟩
  · exact ⟨s.pwr, rfl⟩

section
variable (s : State) (pd : Nat)

@[simp] theorem State.touch_regs : (s.touch pd).regs = s.regs := by obtain ⟨_, e⟩ := s.touch_eq pd; rw [e]
@[simp] theorem State.touch_now : (s.touch pd).now = s.now := by obtain ⟨_, e⟩ := s.touch_eq pd; rw [e]
@[simp] theorem State.touch_mem : (s.touch pd).mem = s.mem := by obtain ⟨_, e⟩ := s.touch_eq pd; rw [e]
@[simp] theorem State.touch_locks : (s.touch pd).locks = s.locks := by obtain ⟨_, e⟩ := s.touch_eq pd; rw [e]
@[simp] theorem State.touch_queues : (s.touch pd).queues = s.queues := by obtain ⟨_, e⟩ := s.touch_eq pd; rw [e]
@[simp] theorem State.touch_qcmds : (s.touch pd).qcmds = s.qcmds := by obtain ⟨_, e⟩ := s.touch_eq pd; rw [e]
@[simp] theorem State.touch_frozen : (s.touch pd).frozen = s.frozen := by obtain ⟨_, e⟩ := s.touch_eq pd; rw [e]
@[simp] theorem State.touch_armed : (s.touch pd).armed = s.armed := by obtain ⟨_, e⟩ := s.touch_eq pd; rw [e]
@[simp] theorem State.touch_unfreezing : (s.touch pd).unfreezing = s.unfreezing := by
  obtain ⟨_, e⟩ := s.touch_eq pd; rw [e]

variable (k hi lo i r q : Nat)

@[simp] theorem State.touch_fld : (s.touch pd).fld k hi lo = s.fld k hi lo :=
  congrArg (fieldOf · hi lo) (State.touch_rd s pd k)
@[simp] theorem State.touch_flag : (s.touch pd).flag k i = s.flag k i := congrArg (flagOf · i) (State.touch_rd s pd k)
@[simp] theorem State.touch_quiesced : (s.touch pd).quiesced r = s.quiesced r := State.touch_flag s pd _ _
@[simp] theorem State.touch_testRights : (s.touch pd).testRights r = s.testRights r := by
  simp only [State.testRights, State.touch_flag]
@[simp] theorem State.touch_queue : (s.touch pd).queue r q = s.queue r q := by
  simp only [State.queue, State.touch_queues]

end

/-! ### Where a permitted write leads -/

/-- Only pages 1 and 2, those of the CAN channels, name another domain than the region's. -/
theorem State.keyPd_region (s : State) {k : Nat} (h1 : rkPage k ≠ 1) (h2 : rkPage k ≠ 2) :
    s.keyPd k = regionPd (rkRegion k) := by
  unfold State.keyPd
  simp [h1, h2]

/-- A permitted write of a page-0 register has the header's effect (R91). -/
theorem State.regWrite_header {s : State} {i : Initiator} {r o : Nat} {v : Word} (ho : o < 4096)
    (h : s.Reaches i (rk r 0 o) v) :
    s.regWrite i (rk r 0 o) v = (effHeader r o (rk r 0 o) i.itag v (s.touch (regionPd r))).respond .ok := by
  have hr : rkRegion (rk r 0 o) = r := rkRegion_rk (by decide) ho
  have hp : rkPage (rk r 0 o) = 0 := rkPage_rk (by decide) ho
  have ho' : rkOff (rk r 0 o) = o := rkOff_rk ho
  rw [State.regWrite_reaches h, State.keyPd_region s (by omega) (by omega), hr]
  unfold regEffect
  simp only [hr, hp, ho', ↓reduceIte]

/-- A permitted write of pages 11–15 of a block with queues has the queue registers' effect (R119). -/
theorem State.regWrite_queueReg {s : State} {i : Initiator} {r p o : Nat} {v : Word} (hp11 : 11 ≤ p) (hp16 : p < 16)
    (ho : o < 4096) (hq : hasQueues r = true) (h : s.Reaches i (rk r p o) v) :
    s.regWrite i (rk r p o) v = (effQueueReg r p o (rk r p o) i.itag v (s.touch (regionPd r))).respond .ok := by
  have hr : rkRegion (rk r p o) = r := rkRegion_rk hp16 ho
  have hp : rkPage (rk r p o) = p := rkPage_rk hp16 ho
  have ho' : rkOff (rk r p o) = o := rkOff_rk ho
  rw [State.regWrite_reaches h, State.keyPd_region s (by omega) (by omega), hr]
  unfold regEffect
  simp only [hr, hp, ho', if_neg (show ¬p = 0 by omega), hq, hp11, decide_true, Bool.and_self, ↓reduceIte]

/-- A field of a word given as a number below 2^32. -/
theorem fieldOf_wordOf {n : Nat} (h : n < 2 ^ 32) (hi lo : Nat) :
    fieldOf (wordOf n) hi lo = n / 2 ^ lo % 2 ^ (hi + 1 - lo) := by
  unfold fieldOf wordOf bitsOf
  rw [BitVec.toNat_ofNat, Nat.mod_eq_of_lt h, Nat.shiftRight_eq_div_pow]

/-- A one-bit field without limits takes every value. -/
theorem rw_accepts_bit (v : Word) (b : Nat) : (rw b b).accepts (fieldOf v b b) = true := by
  have hlt := fieldOf_lt v b b
  rw [Nat.add_sub_cancel_left] at hlt
  rw [rw_accepts, decide_eq_true (Nat.zero_le _), decide_eq_true (by omega), Bool.and_self]

/-- A read-write bit without limits reads as written. -/
theorem State.writeGeneric_flag {s : State} {k : Nat} (t : Itag) {v : Word} {d : RDef} {b : Nat} (hd : regDef k = some d)
    (hl : FieldsApart d.fields) (hm : rw b b ∈ d.fields) (hk : k ∉ eventKeys (rkRegion k))
    (hwf : Registers.wf s.regs = true) : (s.writeGeneric k t v).flag k b = flagOf v b := by
  have hf := State.writeGeneric_fld (f := rw b b) t hd hl hm rfl (rw_accepts_bit v b) hk hwf
  calc (s.writeGeneric k t v).flag k b
      = ((s.writeGeneric k t v).fld k b b).testBit 0 := flagOf_eq_fieldOf _ b
    _ = (fieldOf v b b).testBit 0 := congrArg (Nat.testBit · 0) hf
    _ = flagOf v b := (flagOf_eq_fieldOf v b).symm

/-! ### BLK_EINJ and BLK_CTRL (R91, R92, R96, R103, R104) -/

/-- The fields of every register of the module lie apart. -/
theorem fieldsApart_of_regDef {k : Nat} {d : RDef} (hk : rkRegion k < 40) (hd : regDef k = some d) :
    FieldsApart d.fields := by
  have h : ∀ r < 40, ∀ d ∈ regionDefs r, FieldsApart d.fields := by decide +kernel
  exact h _ hk d (List.mem_of_find?_eq_some hd)

theorem rkRegion_kCTRL (r : Nat) : rkRegion (kCTRL r) = r := rkRegion_rk (by decide) (by decide)

/-- Every block's BLK_CTRL has QUIESCE as its bit 0 (R91). -/
theorem regDef_kCTRL {r : Nat} (hr : r < 40) : ∃ d, regDef (kCTRL r) = some d ∧ rw 0 0 ∈ d.fields := by
  have h : ∀ r < 40, (regDef (kCTRL r)).any (fun d => d.fields.contains (rw 0 0)) = true := by decide +kernel
  obtain ⟨d, hd, hm⟩ := Option.any_eq_true _ _ |>.mp (h r hr)
  exact ⟨d, hd, List.contains_iff_mem.mp hm⟩

/-- The registers that record an event of a block are not its BLK_CTRL. -/
theorem kCTRL_not_mem_eventKeys (r : Nat) : kCTRL r ∉ eventKeys r := by
  simp only [eventKeys, kCTRL, kESTAT, kEFIRST, rk, rWATCH, List.mem_cons, List.not_mem_nil, or_false]
  omega

/-- A write of BLK_CTRL sets QUIESCE to bit 0 of the value. -/
theorem State.quiesced_writeCtrl {s : State} {r : Nat} (t : Itag) (v : Word) (hr : r < 40)
    (hs : Registers.wf s.regs = true) : (s.writeGeneric (kCTRL r) t v).quiesced r = flagOf v 0 := by
  obtain ⟨d, hd, hm⟩ := regDef_kCTRL hr
  have hreg := rkRegion_kCTRL r
  exact State.writeGeneric_flag t hd (fieldsApart_of_regDef (by rw [hreg]; exact hr) hd) hm
    (by rw [hreg]; exact kCTRL_not_mem_eventKeys r) hs

/-- BLK_STAT.QUIESCED is not QUIESCE. -/
theorem State.quiesced_showQuiesced (s : State) (r : Nat) : (s.showQuiesced r).quiesced r = s.quiesced r := by
  refine congrArg (flagOf · 0) (State.rd_setFlag_ne _ _ _ ?_)
  unfold kCTRL kSTAT rk
  omega

/-- A write of BLK_CTRL releases recorded work where it takes QUIESCE from 1 to 0 (R104). -/
theorem effCtrl_eq {s : State} {r : Nat} (t : Itag) (v : Word) (hr : r < 40) (hs : Registers.wf s.regs = true) :
    effCtrl r t v s =
      (if s.quiesced r && !flagOf v 0 then (s.writeGeneric (kCTRL r) t v).unquiesce r
        else s.writeGeneric (kCTRL r) t v).showQuiesced r := by
  unfold effCtrl
  simp only [State.quiesced_writeCtrl t v hr hs]

section
variable {s : State} {i : Initiator} {r : Nat} {v : Word}

/-- A permitted write of BLK_EINJ. -/
theorem State.regWrite_kEINJ (h : s.Reaches i (kEINJ r) v) :
    s.regWrite i (kEINJ r) v =
      (if s.testRights r = false then (s.touch (regionPd r)).cfgErr r i.itag
        else ((s.touch (regionPd r)).writeGeneric (kEINJ r) i.itag v).injectNow r i.itag).respond .ok := by
  refine (State.regWrite_header (by decide) h).trans (congrArg (State.respond · .ok) ?_)
  change effEinj r i.itag v (s.touch (regionPd r)) = _
  unfold effEinj
  rw [State.touch_testRights]

/-- A permitted write of BLK_CTRL. -/
theorem State.regWrite_kCTRL (hs : s.Canonical) (h : s.Reaches i (kCTRL r) v) :
    s.regWrite i (kCTRL r) v =
      ((if s.quiesced r && !flagOf v 0 then ((s.touch (regionPd r)).writeGeneric (kCTRL r) i.itag v).unquiesce r
        else (s.touch (regionPd r)).writeGeneric (kCTRL r) i.itag v).showQuiesced r).respond .ok := by
  have hr : r < 40 := rkRegion_kCTRL r ▸ h.passes.region
  refine (State.regWrite_header (by decide) h).trans (congrArg (State.respond · .ok) ?_)
  change effCtrl r i.itag v (s.touch (regionPd r)) = _
  rw [effCtrl_eq i.itag v hr (by rw [State.touch_regs]; exact hs.1), State.touch_quiesced]

/-- A permitted write of BLK_CTRL with QUIESCE 1: what it leaves. -/
theorem State.regWrite_kCTRL_set (hs : s.Canonical) (h : s.Reaches i (kCTRL r) v) (hv : flagOf v 0 = true) :
    s.regWrite i (kCTRL r) v =
        (((s.touch (regionPd r)).writeGeneric (kCTRL r) i.itag v).showQuiesced r).respond .ok ∧
      (s.regWrite i (kCTRL r) v).quiesced r = true := by
  have hr : r < 40 := rkRegion_kCTRL r ▸ h.passes.region
  have he := State.regWrite_kCTRL hs h
  rw [hv, Bool.not_true, Bool.and_false, if_neg Bool.false_ne_true] at he
  refine ⟨he, ?_⟩
  rw [he]
  refine State.respond_flag.trans ((State.quiesced_showQuiesced _ r).trans ?_)
  rw [State.quiesced_writeCtrl i.itag v hr (by rw [State.touch_regs]; exact hs.1), hv]

end

/-- Settles O8: test rights decide what a write of BLK_EINJ does, and the change of QUIESCE what one of BLK_CTRL does. -/
theorem headerWrites : Obligations.HeaderWrites := by
  intro s i region v hs
  refine ⟨fun h hrights => ?_, fun h hrights => ?_, fun h => ?_, fun h hq => ?_, fun h hq => ?_⟩
  · change Host.Outcome.next (s.regWrite i (kEINJ region.toNat) v) = _
    rw [State.regWrite_kEINJ h, if_pos hrights]
  · change Host.Outcome.next (s.regWrite i (kEINJ region.toNat) v) = _
    rw [State.regWrite_kEINJ h, hrights, if_neg (by decide)]
  · obtain ⟨he, hset⟩ := State.regWrite_kCTRL_set hs h (flagOf_withFlag v 0 true (by decide))
    exact ⟨_, rfl, hset, he⟩
  · change Host.Outcome.next (s.regWrite i (kCTRL region.toNat) (withFlag v 0 false)) = _
    rw [State.regWrite_kCTRL hs h, hq, flagOf_withFlag v 0 false (by decide)]
    rfl
  · change Host.Outcome.next (s.regWrite i (kCTRL region.toNat) (withFlag v 0 false)) = _
    rw [State.regWrite_kCTRL hs h, hq]
    rfl

/-! ### BLK_FRZ (R99, R100, R537) -/

/-- The unfreeze word of an ITAG and a command below 4 spells both. -/
theorem frzWord_fields (itag : Itag) {cmd : Nat} (h : cmd < 4) :
    BitVec.ofNat 12 (fieldOf (wordOf (itag.toNat + cmd * 2 ^ 12)) 11 0) = itag ∧
      fieldOf (wordOf (itag.toNat + cmd * 2 ^ 12)) 13 12 = cmd := by
  have hi := itag.isLt
  have hn : itag.toNat + cmd * 2 ^ 12 < 2 ^ 32 := by omega
  rw [fieldOf_wordOf hn, fieldOf_wordOf hn]
  constructor
  · apply BitVec.eq_of_toNat_eq
    rw [BitVec.toNat_ofNat]
    omega
  · omega

section
variable {s : State} {r : Nat} {t : Itag} {v : Word} {named : Itag}

/-- The first write arms the unfreeze of a frozen ITAG homed in the block (R99). -/
theorem State.frzWrite_arm (hn : BitVec.ofNat 12 (fieldOf v 11 0) = named) (hc : fieldOf v 13 12 = 1)
    (ha : Sparse.get (fun _ => none) s.armed r = none) (hh : homeBlock named.toNat = some r) (hf : named ∈ s.frozen) :
    s.frzWrite r t v =
      ({ s with armed := Sparse.set (fun _ => none) s.armed r (some ⟨t, named, s.now⟩) }).setFlag (kFRZ r) 15 true := by
  unfold State.frzWrite
  simp only [ha, hn, hc, hh, List.contains_eq_mem, hf, decide_true, and_self, ↓reduceIte, ne_eq, not_true_eq_false,
    one_ne_zero]

/-- The second write, from the same initiator for the same ITAG in time, releases it (R99). -/
theorem State.frzWrite_release (hn : BitVec.ofNat 12 (fieldOf v 11 0) = named) (hc : fieldOf v 13 12 = 2)
    {a : ArmedUnfreeze} (ha : Sparse.get (fun _ => none) s.armed r = some a) (hby : a.by_ = t) (hnamed : a.named = named)
    (htime : s.now ≤ 10000 + a.time) :
    s.frzWrite r t v =
      { ({ s with armed := Sparse.set (fun _ => none) s.armed r none }).setFlag (kFRZ r) 15 false with
        unfreezing := named :: s.unfreezing } := by
  unfold State.frzWrite
  simp only [ha, hn, hc, hby, hnamed, htime, ne_eq, not_true_eq_false, ↓reduceIte, and_self]
  rfl

end

/-- A permitted write of BLK_FRZ. -/
theorem State.regWrite_kFRZ {s : State} {i : Initiator} {r : Nat} {v : Word} (h : s.Reaches i (kFRZ r) v) :
    s.regWrite i (kFRZ r) v = ((s.touch (regionPd r)).frzWrite r i.itag v).respond .ok :=
  State.regWrite_header (by decide) h

/-- An armed unfreeze whose 10 µs are over is cancelled (R100). -/
theorem effUnfreezeTimeout_late {s : State} {r : Nat} {a : ArmedUnfreeze}
    (ha : Sparse.get (fun _ => none) s.armed r = some a) (hlate : 10000 + a.time < s.now) :
    effUnfreezeTimeout r s = s.cancelUnfreeze r a.by_ := by
  unfold effUnfreezeTimeout
  simp only [ha, hlate, ↓reduceIte]

/-- A fold that sets queues sets nothing else. -/
theorem foldl_setQueues {α : Type} {f : State → α → State} (hf : ∀ s x, ∃ queues_, f s x = { s with queues := queues_ })
    (l : List α) (s : State) : ∃ queues_, l.foldl f s = { s with queues := queues_ } := by
  induction l generalizing s with
  | nil => exact ⟨s.queues, rfl⟩
  | cons x l ih =>
    obtain ⟨q, hq⟩ := hf s x
    obtain ⟨q', hq'⟩ := ih (f s x)
    exact ⟨q', by rw [List.foldl_cons, hq', hq]⟩

/-- What the release of a freeze changes: the ITAG's freeze, its held requests, the mirrors of its home block and the
states of its queues (R536, R537). -/
theorem State.unfreeze_eq (s : State) (t : Itag) :
    ∃ regs_ queues_, (homeBlock t.toNat = none → regs_ = s.regs) ∧
      s.unfreeze t = { s with
        frozen := s.frozen.filter (fun x => x != t), unfreezing := s.unfreezing.filter (fun x => x != t),
        held := s.held.filter (fun h => h.ini.itag != t),
        out := List.replicate (s.held.filter (fun h => h.ini.itag == t)).length (Out.errorResponse t) ++ s.out,
        regs := regs_, queues := queues_ } := by
  unfold State.unfreeze
  extract_lets n u w
  have hw : ∃ regs_, (homeBlock t.toNat = none → regs_ = s.regs) ∧ w = { u with regs := regs_ } := by
    cases hh : homeBlock t.toNat with
    | none => exact ⟨s.regs, fun _ => rfl, by simp only [w, hh]; rfl⟩
    | some home => exact ⟨_, (fun h => nomatch h), by simp only [w, hh]; rfl⟩
  obtain ⟨regs_, hregs, ew⟩ := hw
  obtain ⟨queues_, eq⟩ := foldl_setQueues (f := fun acc (e : Nat × Queue) =>
    if acc.queueItag (e.1 / 4096) (e.1 % 4096) = some t ∧ e.2.state = .frozen then
      acc.setQueue (e.1 / 4096) (e.1 % 4096) { e.2 with state := .stopped, ops := [] }
    else acc) (fun s e => by split; exacts [⟨_, rfl⟩, ⟨s.queues, rfl⟩]) w.queues w
  exact ⟨regs_, queues_, hregs, eq.trans (by rw [ew])⟩

/-- Settles O9: the two writes, the timeout and the effect of an unfreeze. -/
theorem unfreezeInTwoWrites : Obligations.UnfreezeInTwoWrites := by
  intro s i region itag a
  refine ⟨fun h ha hh hf => ?_, fun h ha hby hnamed htime => ?_, fun ha hlate => ?_, fun hm hd => ?_⟩
  · have hw : 2 ^ 12 + itag.toNat = itag.toNat + 1 * 2 ^ 12 := by omega
    obtain ⟨hn, hc⟩ := frzWord_fields itag (cmd := 1) (by decide)
    rw [← hw] at hn hc
    have he := State.frzWrite_arm (s := s.touch (regionPd region.toNat)) (t := i.itag) hn hc
      (by rw [State.touch_armed]; exact ha) hh (by rw [State.touch_frozen]; exact hf)
    rw [State.touch_armed] at he
    rw [← State.touch_now s (regionPd region.toNat)]
    exact congrArg Host.Outcome.next ((State.regWrite_kFRZ h).trans (congrArg (State.respond · .ok) he))
  · obtain ⟨hn, hc⟩ := frzWord_fields itag (cmd := 2) (by decide)
    have he := State.frzWrite_release (s := s.touch (regionPd region.toNat)) hn hc
      (by rw [State.touch_armed]; exact ha) hby hnamed (by rw [State.touch_now]; exact htime)
    rw [State.touch_armed, State.touch_unfreezing] at he
    exact congrArg Host.Outcome.next ((State.regWrite_kFRZ h).trans (congrArg (State.respond · .ok) he))
  · exact congrArg Host.Outcome.next (effUnfreezeTimeout_late ha hlate)
  · have he : exec (.unfreezeEffect itag) s = .next (s.unfreeze itag) := by
      change Host.Outcome.next (effUnfreeze itag s) = _
      unfold effUnfreeze
      rw [List.contains_eq_mem, decide_eq_true hm, hd, Bool.and_self, if_pos rfl]
    obtain ⟨regs_, queues_, hregs, hu⟩ := State.unfreeze_eq s itag
    refine ⟨_, he, ?_⟩
    rw [hu]
    exact ⟨rfl, rfl, rfl, rfl, rfl, rfl, hregs⟩

end Sys2Proof.Machine
end

section
/-! Work queues: doorbells, the QCMD commands, and the completion of commands and operations (R102–R109, R115). -/

namespace Sys2Proof.Machine

/-! ### Doorbells (R66, R69, R103, R105, R106) -/

section
variable {s : State} {i : Initiator} {r q : Nat} {v : Word}

/-- A permitted doorbell write (R103). -/
theorem State.regWrite_doorbell (h : s.Reaches i (rk r (12 + q / 1024) (q % 1024 * 4)) v) (hq : hasQueues r = true)
    (hq12 : q < 4096) (hmax : q ≤ queueMax r) :
    s.regWrite i (rk r (12 + q / 1024) (q % 1024 * 4)) v =
      ((s.touch (regionPd r)).doorbell r q v i.itag).respond .ok := by
  have hi : (12 + q / 1024 - 12) * 1024 + q % 1024 * 4 / 4 = q := by omega
  rw [State.regWrite_queueReg (by omega) (by omega) (by omega) hq h]
  unfold effQueueReg
  rw [if_neg (by omega)]
  simp only [hi, hmax, ↓reduceIte]

/-- A doorbell that keeps within the ring of an enabled queue sets TAIL, and releases where the queue may run. -/
theorem State.doorbell_taken {t : Itag} (hd : (s.queue r q).state ≠ .disabled)
    (hring : dist (s.queue r q).head (v.toNat % 65536) ≤ 2 ^ (s.queue r q).sizeLog2)
    (hrel : dist (s.queue r q).head (s.queue r q).released ≤ dist (s.queue r q).head (v.toNat % 65536)) :
    s.doorbell r q v t =
      if (s.queue r q).state = .active ∧ (s.queue r q).gated = false ∧ s.quiesced r = false then
        (s.setQueue r q { s.queue r q with tail := v.toNat % 65536 }).releaseTo r q (v.toNat % 65536)
      else s.setQueue r q { s.queue r q with tail := v.toNat % 65536 } := by
  unfold State.doorbell
  dsimp only
  rw [if_neg hd, if_neg (by omega)]
  rfl

/-- A doorbell on a DISABLED queue, past the ring or below RELEASED only sets CFG_ERR (R105). -/
theorem State.doorbell_refused {t : Itag}
    (h : (s.queue r q).state = .disabled ∨ 2 ^ (s.queue r q).sizeLog2 < dist (s.queue r q).head (v.toNat % 65536) ∨
      dist (s.queue r q).head (v.toNat % 65536) < dist (s.queue r q).head (s.queue r q).released) :
    s.doorbell r q v t = s.cfgErr r t := by
  unfold State.doorbell
  dsimp only
  rcases h with hd | h
  · rw [if_pos hd]
  · rw [if_pos h, ite_self]

end

/-- A due Ephemeris doorbell: dropped, or delivered to its queue. -/
theorem effDoorbellAction_due {s s' : State} {r r' q n : Nat} {d : Dispatched}
    (ht : s.takeDue (Action.isDoorbell r) = some (d, s')) (ha : d.action = .doorbell r' q n) :
    effDoorbellAction r s =
      if s'.dropsAt r then s'.dropAction d.slot else (s'.slotFired d.slot).ephDoorbell r q n (d.occ.setWidth 32) := by
  unfold effDoorbellAction
  simp only [ht, ha]

/-- Settles O10: a permitted doorbell is taken or refused, and a due one delivered or dropped. -/
theorem doorbells : Obligations.Doorbells := by
  intro s i region q v x n
  refine ⟨fun h hq hmax hx hn => ?_, fun d s' qq dbinc ht ha => ⟨fun hdrop => ?_, fun hdrop => ?_⟩⟩
  · subst hx hn
    have he : exec (.doorbellWrite i region q v) s =
        .next (((s.touch (regionPd region.toNat)).doorbell region.toNat q.toNat v i.itag).respond .ok) :=
      congrArg Host.Outcome.next (State.regWrite_doorbell h hq q.isLt hmax)
    rw [he]
    refine ⟨fun hd hring hrel => ?_, fun hbad => ?_⟩
    · rw [State.doorbell_taken (by simpa using hd) (by simpa using hring) (by simpa using hrel)]
      simp only [State.touch_queue, State.touch_quiesced]
      refine ⟨fun hact hgate hquiet => ?_, fun hnot => ?_⟩
      · rw [if_pos ⟨hact, hgate, hquiet⟩]
      · rw [if_neg]
        rintro ⟨hact, hgate, hquiet⟩
        simp [hact, hgate, hquiet] at hnot
    · rw [State.doorbell_refused (by simpa using hbad)]
  · change Host.Outcome.next (effDoorbellAction region.toNat s) = _
    rw [effDoorbellAction_due ht ha, hdrop, if_neg Bool.false_ne_true]
  · change Host.Outcome.next (effDoorbellAction region.toNat s) = _
    rw [effDoorbellAction_due ht ha, if_pos hdrop]

/-! ### QCMD (R102, R108, R109) -/

/-- A command is in progress on a queue, to report `out`: QCMD_STAT reads BUSY (R109). -/
def State.qcmdBusy (s : State) (r q cmd out : Nat) : State :=
  ({ s with qcmds := Sparse.set (fun _ => none) s.qcmds r (some ⟨q, cmd, out⟩) }).setFld (kQSTAT r) 2 0 1

section
variable {s : State} {r q cmd arg : Nat}

/-- The word of a QCMD command spells its queue, its command and its argument. -/
theorem qcmdWord_fields (hq : q < 4096) (hc : cmd < 16) (harg : arg < 65536) :
    fieldOf (wordOf (q + cmd * 2 ^ 12 + 2 ^ 16 * arg)) 11 0 = q ∧
      fieldOf (wordOf (q + cmd * 2 ^ 12 + 2 ^ 16 * arg)) 15 12 = cmd ∧
      fieldOf (wordOf (q + cmd * 2 ^ 12 + 2 ^ 16 * arg)) 31 16 = arg := by
  have hn : q + cmd * 2 ^ 12 + 2 ^ 16 * arg < 2 ^ 32 := by omega
  simp only [fieldOf_wordOf hn]
  omega

/-- A command written while none is in progress acts on its queue at once and is in progress (R109). -/
theorem State.qcmdWrite_command (hfree : Sparse.get (fun _ => none) s.qcmds r = none) (hq : q < 4096) (h1 : 1 ≤ cmd)
    (h3 : cmd ≤ 3) (harg : arg < 65536) {w : Word} (hw : w = wordOf (q + cmd * 2 ^ 12 + 2 ^ 16 * arg)) :
    s.qcmdWrite r w =
      (((s.wr (kQCMD r) w).qcmdDo r q cmd arg).2).qcmdBusy r q cmd ((s.wr (kQCMD r) w).qcmdDo r q cmd arg).1 := by
  obtain ⟨e1, e2, e3⟩ := qcmdWord_fields hq (by omega : cmd < 16) harg
  rw [← hw] at e1 e2 e3
  unfold State.qcmdWrite
  simp only [hfree, e1, e2, e3]
  rw [if_neg (by omega)]
  rfl

/-- A permitted write of a command to QCMD while none is in progress. -/
theorem State.regWrite_kQCMD {i : Initiator} {w : Word} (h : s.Reaches i (kQCMD r) w) (hqs : hasQueues r = true)
    (hfree : Sparse.get (fun _ => none) s.qcmds r = none) (hq : q < 4096) (h1 : 1 ≤ cmd)
    (h3 : cmd ≤ 3) (harg : arg < 65536) (hw : w = wordOf (q + cmd * 2 ^ 12 + 2 ^ 16 * arg))
    {s₀ : State} (hs₀ : s₀ = (s.touch (regionPd r)).wr (kQCMD r) w) {out : Nat} {u : State}
    (hdo : s₀.qcmdDo r q cmd arg = (out, u)) :
    s.regWrite i (kQCMD r) w = (u.qcmdBusy r q cmd out).respond .ok := by
  refine (State.regWrite_queueReg (by decide) (by decide) (by decide) hqs h).trans (congrArg (State.respond · .ok) ?_)
  change (s.touch (regionPd r)).qcmdWrite r w = _
  rw [State.qcmdWrite_command (by rw [State.touch_qcmds]; exact hfree) hq h1 h3 harg hw, ← hs₀, hdo]

/-- ENABLE of a DISABLED queue whose context is read and sound (R102). -/
theorem State.qEnable_ok (hd : (s.queue r q).state = .disabled) {c : Context} {u : State}
    (hc : s.readContext r q = (some c, u)) :
    s.qEnable r q = (0, u.setQueue r q { (u.queue r q).withContext c with
      state := .active, tail := 0, released := 0, exec := 0, head := 0, ops := [], failed := [] }) := by
  unfold State.qEnable
  simp only [hd, ne_eq, not_true_eq_false, ↓reduceIte, hc]

/-- DISABLE of a STOPPED queue (R109). -/
theorem State.qDisable_stopped (hd : (s.queue r q).state = .stopped) :
    s.qDisable r q = (0, s.setQueue r q { s.queue r q with
      state := .disabled, head := (s.queue r q).released, exec := (s.queue r q).released, ops := [] }) := by
  unfold State.qDisable
  simp only [hd]

/-- RESUME of a STOPPED queue within its TAIL, with a context that is read and sound, succeeds (R108). -/
theorem State.qResume_ok (hd : (s.queue r q).state = .stopped) {newHead : Nat}
    (hn : dist (s.queue r q).head newHead ≤ dist (s.queue r q).head (s.queue r q).tail) {c : Context} {u : State}
    (hc : s.readContext r q = (some c, u)) : (s.qResume r q newHead).1 = 0 := by
  unfold State.qResume
  simp only [hd, ne_eq, not_true_eq_false, ↓reduceIte, hc, if_neg (Nat.not_lt.mpr hn)]

/-- RESUME of a STOPPED queue past its TAIL is refused (R109). -/
theorem State.qResume_beyond (hd : (s.queue r q).state = .stopped) {newHead : Nat}
    (hn : dist (s.queue r q).head (s.queue r q).tail < dist (s.queue r q).head newHead) :
    s.qResume r q newHead = (3, s) := by
  unfold State.qResume
  simp only [hd, ne_eq, not_true_eq_false, ↓reduceIte, hn]

/-- What each command does to a queue that exists (R109). -/
theorem State.qcmdDo_cases (hmax : q ≤ queueMax r) :
    s.qcmdDo r q 1 arg = s.qEnable r q ∧ s.qcmdDo r q 2 arg = s.qDisable r q ∧
      s.qcmdDo r q 3 arg = s.qResume r q arg := by
  unfold State.qcmdDo
  refine ⟨?_, ?_, ?_⟩ <;> rw [if_neg (Nat.not_lt.mpr hmax)] <;> rfl

end

/-- Settles O11: each QCMD command acts on its queue when it is written, and is in progress. -/
theorem queueCommands : Obligations.QueueCommands := by
  intro s s₀ i region q newHead w done hqs hmax hfree hs₀ h hdone
  obtain ⟨henable, hdisable, hresume⟩ := State.qcmdDo_cases (s := s₀) (arg := 0) hmax
  obtain ⟨-, -, hresumeAt⟩ := State.qcmdDo_cases (s := s₀) (arg := newHead.toNat) hmax
  have hqueue : s₀.queue region.toNat q.toNat = s.queue region.toNat q.toNat := by
    rw [hs₀]
    exact State.touch_queue s _ _ _
  subst hdone
  refine ⟨fun hw hst c u hc => ?_, fun hw hst => ?_, fun hw hst => ⟨fun hn c u hc => ⟨?_, ?_⟩, fun hn => ?_⟩⟩
  · have hw' : w = wordOf (q.toNat + 1 * 2 ^ 12 + 2 ^ 16 * 0) := hw.trans (congrArg wordOf (by omega))
    have he := State.regWrite_kQCMD h hqs hfree q.isLt (by decide) (by decide) (by decide) hw' hs₀
      (henable.trans (State.qEnable_ok (hqueue ▸ hst) hc))
    rw [hw] at he
    exact congrArg Host.Outcome.next he
  · have hw' : w = wordOf (q.toNat + 2 * 2 ^ 12 + 2 ^ 16 * 0) := hw.trans (congrArg wordOf (by omega))
    have he := State.regWrite_kQCMD h hqs hfree q.isLt (by decide) (by decide) (by decide) hw' hs₀
      (hdisable.trans (State.qDisable_stopped (hqueue ▸ hst)))
    rw [hw, hqueue] at he
    exact congrArg Host.Outcome.next he
  · have hres := State.qResume_ok (hqueue ▸ hst) (hqueue ▸ hn) hc
    have he := State.regWrite_kQCMD h hqs hfree q.isLt (by decide) (by decide) newHead.isLt hw hs₀
      (hresumeAt.trans (Prod.ext hres rfl))
    rw [hw] at he
    exact congrArg Host.Outcome.next he
  · exact State.qResume_ok (hqueue ▸ hst) (hqueue ▸ hn) hc
  · have he := State.regWrite_kQCMD h hqs hfree q.isLt (by decide) (by decide) newHead.isLt hw hs₀
      (hresumeAt.trans (State.qResume_beyond (hqueue ▸ hst) (hqueue ▸ hn)))
    rw [hw] at he
    exact congrArg Host.Outcome.next he

/-! ### Completion (R107, R109, R115) -/

/-- A command in progress completes with its outcome (R109). -/
theorem State.qcmdDone_some {s : State} {r : Nat} {c : QCmd} (h : Sparse.get (fun _ => none) s.qcmds r = some c) :
    s.qcmdDone r =
      ({ s with qcmds := Sparse.set (fun _ => none) s.qcmds r none }).setFld (kQSTAT r) 2 0 c.outcome := by
  unfold State.qcmdDone
  simp only [h]

/-- A queue reads as it was set. -/
theorem State.queue_setQueue_self {s : State} (hs : s.Canonical) (r q : Nat) (x : Queue) :
    (s.setQueue r q x).queue r q = x := by
  obtain ⟨-, -, hqueues, -⟩ := hs
  exact Sparse.get_set_self _ _ _ hqueues

/-- A queue without operations that does not drain has nothing to write. -/
theorem State.flushN_empty {s : State} {r q : Nat} (hops : (s.queue r q).ops = [])
    (hst : (s.queue r q).state ≠ .draining) (n : Nat) : State.flushN r q n s = s := by
  cases n with
  | zero => rfl
  | succ n =>
    unfold State.flushN
    simp only [hops, hst, ↓reduceIte]

/-- The record of an ACTIVE queue's only operation is written, and the operation leaves (R107, R115). -/
theorem State.flush_only {s : State} {r q st : Nat} {o : Op} (hs : s.Canonical) (hops : (s.queue r q).ops = [o])
    (hst : o.status = some st) (hgo : stops st = false) (hact : ((s.writeRecord r q o st).queue r q).state = .active) :
    s.flush r q = (s.writeRecord r q o st).setQueue r q
      { (s.writeRecord r q o st).queue r q with ops := [], head := idx (o.index + 1) } := by
  have hs' : (s.writeRecord r q o st).Canonical := (State.writeRecord_kept s r q o st (Kept.refl s)).2.2 hs
  unfold State.flush
  rw [hops, List.length_singleton]
  unfold State.flushN
  simp only [hops, hst, hgo, Bool.false_eq_true, false_and, ↓reduceIte]
  apply State.flushN_empty <;> rw [State.queue_setQueue_self hs']
  rw [hact]
  decide

/-- The engines of SCHED, DRIVE, LNK and SEC let go of nothing when an operation completes, and add nothing to its
finish. -/
theorem State.dropDead_plain (s : State) {r : Nat} (h : r ∈ [rSCHED, rDRIVE, rLNK, rSEC]) : s.dropDead r = s := by
  simp only [List.mem_cons, List.not_mem_nil, or_false] at h
  rcases h with rfl | rfl | rfl | rfl <;> rfl

theorem State.completeOp_plain (s : State) {r : Nat} (h : r ∈ [rSCHED, rDRIVE, rLNK, rSEC]) (q : Nat) (o : Op) (st : Nat) :
    s.completeOp r q o st = s.finish r q o.index st o.result := by
  simp only [List.mem_cons, List.not_mem_nil, or_false] at h
  rcases h with rfl | rfl | rfl | rfl <;> rfl

/-- What completes an operation that is the only one of its queue: its record when it has a status, its finish when its
work is done and its time has come (R115). -/
theorem effOpComplete_only {s : State} {r q : Nat} {o : Op} (h : r ∈ [rSCHED, rDRIVE, rLNK, rSEC])
    (hops : (s.queue r q).ops = [o]) :
    (∀ st, o.status = some st → effOpComplete r q o.index s = s.flush r q) ∧
      (∀ st, o.status = none → o.outcome = some st → o.readyAt ≤ s.now →
        effOpComplete r q o.index s = s.finish r q o.index st o.result) := by
  have hfind : s.findOp r q o.index = some o := by
    unfold State.findOp
    rw [hops, List.find?_cons, beq_self_eq_true]
  unfold effOpComplete
  simp only [State.dropDead_plain s h, hfind]
  refine ⟨fun st hst => ?_, fun st hst hout hready => ?_⟩
  · rw [hst, Option.isSome_some, if_pos rfl]
  · rw [hst, Option.isSome_none, if_neg Bool.false_ne_true, hout]
    dsimp only
    rw [if_neg (Nat.not_lt.mpr hready), State.completeOp_plain s h]

/-- Settles O12: a command's outcome, the record of a queue's only operation, and the finish of one whose work is done. -/
theorem queuesComplete : Obligations.QueuesComplete := by
  intro s region hs
  refine ⟨fun c hc => congrArg Host.Outcome.next (State.qcmdDone_some hc), fun q o st hr hops hidx => ?_⟩
  obtain ⟨hrecord, hfinish⟩ := effOpComplete_only hr hops
  have he : exec (.operationComplete region q (BitVec.ofNat 16 o.index)) s =
      .next (effOpComplete region.toNat q.toNat o.index s) := by
    change Host.Outcome.next (effOpComplete region.toNat q.toNat (BitVec.ofNat 16 o.index).toNat s) = _
    rw [BitVec.toNat_ofNat, Nat.mod_eq_of_lt hidx]
  rw [he]
  exact ⟨fun hst hgo hact => ⟨_, rfl, (hrecord st hst).trans (State.flush_only hs hops hst hgo hact)⟩,
    fun hst hout hready => congrArg Host.Outcome.next (hfinish st hst hout hready)⟩

end Sys2Proof.Machine
end

section
/-! Register accesses as such: their widths (R86), the field-by-field write of a plain register (R90), and the canonical form
that every step keeps. -/

namespace Sys2Proof.Machine

/-! ### Widths (R86) -/

theorem regShapeOk_iff {k bytes : Nat} : regShapeOk k bytes = true ↔ bytes = 4 ∧ k % 4 = 0 ∨ bytes = 8 ∧ k % 8 = 0 := by
  simp [regShapeOk]

section
variable {s : State} {i : Initiator} {k : Nat}

/-- An access of 32 bits is one access, and one of 64 the access at the lower address before that at the higher (R86). -/
theorem State.regWriteAny_eq (v : DWord) :
    (k % 4 = 0 → s.regWriteAny i k 4 v = s.regWrite i k (v.setWidth 32)) ∧
      (k % 8 = 0 → ∃ resp_, s.regWriteAny i k 8 v =
        { (s.regWrite i k (v.setWidth 32)).regWrite i (k + 4) ((v >>> 32).setWidth 32) with resp := resp_ }) := by
  refine ⟨fun h => ?_, fun h => ?_⟩
  · unfold State.regWriteAny
    rw [regShapeOk_iff.mpr (.inl ⟨rfl, h⟩), if_neg (by decide), if_pos rfl]
  · unfold State.regWriteAny
    rw [regShapeOk_iff.mpr (.inr ⟨rfl, h⟩), if_neg (by decide), if_neg (by decide)]
    exact ⟨_, rfl⟩

theorem State.regReadAny_eq :
    (k % 4 = 0 → s.regReadAny i k 4 = s.regReadBy i k) ∧
      (k % 8 = 0 → ∃ resp_, s.regReadAny i k 8 = { (s.regReadBy i k).regReadBy i (k + 4) with resp := resp_ }) := by
  refine ⟨fun h => ?_, fun h => ?_⟩
  · unfold State.regReadAny
    rw [regShapeOk_iff.mpr (.inl ⟨rfl, h⟩), if_neg (by decide), if_pos rfl]
  · unfold State.regReadAny
    rw [regShapeOk_iff.mpr (.inr ⟨rfl, h⟩), if_neg (by decide), if_neg (by decide)]
    exact ⟨_, rfl⟩

/-- An access of another width or alignment, by an initiator that passes the checks before it, is a protocol violation. -/
theorem State.badShape_offends (hf : i.itag ∉ s.frozen) (hv : itagVerdict i = .pass) (write : Bool) :
    s.badShape i k write =
      (s.offend i.itag (siteBlock (.regs k)) 4 (regAddr k)).respond .violation (if write then [] else leBytes 4 0) := by
  unfold State.badShape
  simp only [List.contains_eq_mem, hf, decide_false, Bool.false_eq_true, ↓reduceIte, hv]

variable {addr : BitVec 44} (hsite : s.site addr.toNat = .regs k)
include hsite

theorem exec_registerWrite (bytes : Nat) (v : DWord) :
    exec (.registerWrite i addr bytes v) s = .next (s.regWriteAny i k bytes v) := by
  change execRegisterWrite i addr bytes v s = _
  unfold execRegisterWrite
  rw [hsite]

theorem exec_registerRead (bytes : Nat) : exec (.registerRead i addr bytes) s = .next (s.regReadAny i k bytes) := by
  change Host.Outcome.next (s.anyAccess i addr.toNat (.read bytes)) = _
  unfold State.anyAccess
  rw [hsite]

end

/-- Settles O51: by the width and the alignment of the access. -/
theorem accessWidths : Obligations.AccessWidths := by
  intro s i addr k bytes v hsite
  rw [exec_registerWrite hsite, exec_registerRead hsite]
  obtain ⟨hw4, hw8⟩ := State.regWriteAny_eq (s := s) (i := i) (k := k) v
  obtain ⟨hr4, hr8⟩ := State.regReadAny_eq (s := s) (i := i) (k := k)
  refine ⟨?_, ?_, fun h4 h8 hf hv haer => ?_⟩
  · rintro rfl hk
    exact ⟨congrArg Host.Outcome.next (hw4 hk), congrArg Host.Outcome.next (hr4 hk)⟩
  · rintro rfl hk
    obtain ⟨x, hx⟩ := hw8 hk
    obtain ⟨y, hy⟩ := hr8 hk
    exact ⟨⟨x, congrArg Host.Outcome.next hx⟩, y, congrArg Host.Outcome.next hy⟩
  · have hbad : regShapeOk k bytes = false := by
      rw [← Bool.not_eq_true, regShapeOk_iff]
      exact fun h => h.elim h4 h8
    unfold State.regWriteAny State.regReadAny
    rw [if_pos hbad, if_pos hbad, haer, State.badShape_offends hf hv, State.badShape_offends hf hv]
    exact ⟨rfl, rfl⟩

/-! ### Every field of a written register (R90) -/

/-- What a field of register `k` holds after a write of `v`, by its access type (R90, log 87). -/
def State.fieldAfter (s : State) (k : Nat) (d : RDef) (v : Word) (f : FDef) : Nat :=
  match f.acc with
  | .ro => s.fld k f.hi f.lo
  | .w1c => Nat.land (s.fld k f.hi f.lo) (Nat.xor (fieldOf v f.hi f.lo) (2 ^ (f.hi + 1 - f.lo) - 1))
  | .w1s => Nat.lor (s.fld k f.hi f.lo) (fieldOf v f.hi f.lo)
  | .rw => if f.accepts (fieldOf v f.hi f.lo) then fieldOf v f.hi f.lo else s.fld k f.hi f.lo
  | .rwl =>
    if s.locks.contains k then s.fld k f.hi f.lo
    else if d.fields.all (fun g => g.acc != .rw) || fieldOf v f.hi f.lo != f.rst then fieldOf v f.hi f.lo
    else s.fld k f.hi f.lo

/-- Does a write of `v` break a limit or a lock of the field (R90)? -/
def State.fieldRefused (s : State) (k : Nat) (v : Word) (f : FDef) : Bool :=
  match f.acc with
  | .rw => !f.accepts (fieldOf v f.hi f.lo)
  | .rwl => s.locks.contains k && fieldOf v f.hi f.lo != s.fld k f.hi f.lo
  | _ => false

/-- The state once every field of register `k` has been written. -/
def State.fieldsWritten (s : State) (k : Nat) (d : RDef) (v : Word) : State :=
  (d.fields.foldl (fun acc f => s.writeField k d v f acc) (s, false)).1

section
variable {s : State} {k : Nat} {d : RDef} {v : Word}

/-- A field's write reports a broken limit or lock. -/
theorem State.writeField_snd (f : FDef) (acc : State × Bool) :
    (s.writeField k d v f acc).2 = (acc.2 || s.fieldRefused k v f) := by
  obtain ⟨u, bad⟩ := acc
  unfold State.writeField State.fieldRefused
  cases f.acc with
  | ro | w1c | w1s => exact (Bool.or_false bad).symm
  | rw => cases h : f.accepts (fieldOf v f.hi f.lo) <;> simp [h]
  | rwl =>
    cases h : s.locks.contains k
    · simp only [Bool.false_eq_true, ↓reduceIte, Bool.false_and, Bool.or_false]
      split <;> rfl
    · simp only [↓reduceIte, Bool.true_and]

theorem State.writeFields_snd (l : List FDef) (acc : State × Bool) :
    (l.foldl (fun acc f => s.writeField k d v f acc) acc).2 = (acc.2 || l.any (s.fieldRefused k v)) := by
  induction l generalizing acc with
  | nil => exact (Bool.or_false _).symm
  | cons f l ih => rw [List.foldl_cons, ih, State.writeField_snd, List.any_cons, Bool.or_assoc]

/-- A write sets the fields, and CFG_ERR where one of them was refused. -/
theorem State.writeGeneric_eq (t : Itag) (hd : regDef k = some d) :
    s.writeGeneric k t v =
      if d.fields.any (s.fieldRefused k v) then (s.fieldsWritten k d v).cfgErr (rkRegion k) t
      else s.fieldsWritten k d v := by
  have hsnd := State.writeFields_snd (s := s) (k := k) (d := d) (v := v) d.fields (s, false)
  rw [Bool.false_or] at hsnd
  rw [← hsnd]
  unfold State.writeGeneric State.fieldsWritten
  rw [hd]

theorem State.fieldsWritten_sameBut : State.SameBut k s (s.fieldsWritten k d v) :=
  State.SameBut.writeFields (acc := (s, false)) d.fields (.refl k s)

/-- A field's own write leaves in it what its access type says. -/
theorem State.writeField_fld {f : FDef} (hlo : f.lo ≤ f.hi) (h31 : f.hi < 32) (acc : State × Bool)
    (hwf : Registers.wf acc.1.regs = true) (hsame : acc.1.fld k f.hi f.lo = s.fld k f.hi f.lo) :
    (s.writeField k d v f acc).1.fld k f.hi f.lo = s.fieldAfter k d v f := by
  obtain ⟨u, bad⟩ := acc
  have hset : ∀ x, x < 2 ^ (f.hi + 1 - f.lo) → (u.setFld k f.hi f.lo x).fld k f.hi f.lo = x := fun x hx =>
    (State.fld_setFld_self u _ _ _ _ hlo h31 hwf).trans (Nat.mod_eq_of_lt hx)
  have hv := fieldOf_lt v f.hi f.lo
  have hold : s.fld k f.hi f.lo < 2 ^ (f.hi + 1 - f.lo) := fieldOf_lt _ _ _
  dsimp only at hsame
  unfold State.writeField State.fieldAfter
  cases f.acc with
  | ro => exact hsame
  | w1c =>
    dsimp only
    rw [hsame]
    exact hset _ (Nat.lt_of_le_of_lt Nat.and_le_left hold)
  | w1s =>
    dsimp only
    rw [hsame]
    exact hset _ (Nat.or_lt_two_pow hold hv)
  | rw =>
    dsimp only
    split
    · exact hset _ hv
    · exact hsame
  | rwl =>
    dsimp only
    split
    · exact hsame
    · split
      · exact hset _ hv
      · exact hsame

/-- Once every field has been written, each holds what its access type says. -/
theorem State.writeFields_fldAfter {f : FDef} (l : List FDef) (hl : FieldsApart l) (hm : f ∈ l) (acc : State × Bool)
    (hwf : Registers.wf acc.1.regs = true) (hsame : acc.1.fld k f.hi f.lo = s.fld k f.hi f.lo) :
    (l.foldl (fun acc f => s.writeField k d v f acc) acc).1.fld k f.hi f.lo = s.fieldAfter k d v f := by
  induction l generalizing acc with
  | nil => exact absurd hm List.not_mem_nil
  | cons g l ih =>
    obtain ⟨hin, hap⟩ := hl
    obtain ⟨hg, hpw⟩ := List.pairwise_cons.mp hap
    have hwf' := (State.SameBut.refl k acc.1).writeField (s := s) (d := d) (v := v) (f := g) |>.wf hwf
    rw [List.foldl_cons]
    rcases List.mem_cons.mp hm with rfl | hm
    · obtain ⟨hlo, h31⟩ := hin f List.mem_cons_self
      have hrest : ∀ g ∈ l, (g.lo ≤ g.hi ∧ g.hi < 32) ∧ (f.hi < g.lo ∨ g.hi < f.lo) :=
        fun g hgl => ⟨hin g (List.mem_cons_of_mem _ hgl), hg g hgl⟩
      rw [State.writeFields_fld_ne s k d v _ _ hlo l hrest _ hwf', State.writeField_fld hlo h31 acc hwf hsame]
    · obtain ⟨hlo, -⟩ := hin f (List.mem_cons_of_mem _ hm)
      refine ih ⟨fun g' hg' => hin g' (List.mem_cons_of_mem _ hg'), hpw⟩ hm _ hwf' (Eq.trans ?_ hsame)
      have hone : ∀ g' ∈ [g], (g'.lo ≤ g'.hi ∧ g'.hi < 32) ∧ (f.hi < g'.lo ∨ g'.hi < f.lo) := by
        intro g' hg'
        rw [List.mem_singleton.mp hg']
        exact ⟨hin g List.mem_cons_self, (hg f hm).symm⟩
      exact State.writeFields_fld_ne s k d v f.hi f.lo hlo [g] hone acc hwf

end

/-! ### Plain registers (R90) -/

/-- A register that has no rule of its own: of the page-0 header but BLK_CTRL, BLK_EINJ and BLK_FRZ, or of the pages of the
Transit Engine, LPDDR or an application cluster that follow their header. -/
def PlainReg (k : Nat) : Prop :=
  (rkPage k = 0 ∧ rkOff k ∉ [0x010, 0x028, 0x050]) ∨
    (rkPage k ≠ 0 ∧ rkPage k < 11 ∧ rkRegion k ∈ [rTRANSIT, rLPDDR, rAPC0, rAPC0 + 1, rAPC0 + 2, rAPC0 + 3])

/-- A write of a plain register has no effect but on its fields. -/
theorem regEffect_plain (s : State) {k : Nat} (h : PlainReg k) (t : Itag) (v : Word) :
    regEffect s k t v = s.writeGeneric k t v := by
  unfold regEffect
  dsimp only
  rcases h with ⟨hp, ho⟩ | ⟨hp, h11, hr⟩
  · simp only [List.mem_cons, List.not_mem_nil, or_false, not_or] at ho
    obtain ⟨h1, h2, h3⟩ := ho
    unfold effHeader
    rw [if_pos hp, if_neg h1, if_neg h2, if_neg h3]
  · rw [if_neg hp, decide_eq_false (Nat.not_le.mpr h11), Bool.and_false, if_neg Bool.false_ne_true]
    simp only [List.mem_cons, List.not_mem_nil, or_false] at hr
    rcases hr with e | e | e | e | e | e <;> rw [e] <;> rfl

/-- A plain register that records events has no field that a write can break: BLK_ESTAT and BLK_EFIRST. -/
theorem not_refused_of_eventKey {s : State} {k : Nat} {d : RDef} {v : Word} (h : PlainReg k) (hk : rkRegion k < 40)
    (hd : regDef k = some d) (he : k ∈ eventKeys (rkRegion k)) : d.fields.any (s.fieldRefused k v) = false := by
  have hfields : ∀ r < 40, ∀ k ∈ [kESTAT r, kEFIRST r],
      (regDef k).all (fun d => d.fields.all (fun f => f.acc != .rw && f.acc != .rwl)) = true := by decide +kernel
  have hmem : k ∈ [kESTAT (rkRegion k), kEFIRST (rkRegion k)] := by
    simp only [eventKeys, List.mem_cons, List.not_mem_nil, or_false] at he ⊢
    simp only [PlainReg, List.mem_cons, List.not_mem_nil, or_false] at h
    unfold rkPage rkRegion at *
    unfold rk rWATCH rTRANSIT rLPDDR rAPC0 at *
    omega
  have hall := hfields _ hk k hmem
  rw [hd, Option.all_some, List.all_eq_true] at hall
  rw [List.any_eq_false]
  intro f hf
  have hacc := hall f hf
  unfold State.fieldRefused
  cases ha : f.acc <;> simp [ha] at hacc ⊢

section
variable {s : State} {k : Nat} {d : RDef} {v : Word}

/-- What a write of a plain register does, field by field (R90): each field holds what its access type says, a broken
limit or lock sets CFG_ERR, and no register changes but this one and those that record the CFG_ERR. -/
theorem State.writeGeneric_plain (t : Itag) (hs : Registers.wf s.regs = true) (h : PlainReg k) (hk : rkRegion k < 40)
    (hd : regDef k = some d) :
    (∀ f ∈ d.fields, (s.writeGeneric k t v).fld k f.hi f.lo = s.fieldAfter k d v f) ∧
      (d.fields.any (s.fieldRefused k v) = true → (s.writeGeneric k t v).flag (kESTAT (rkRegion k)) 0 = true) ∧
      (d.fields.any (s.fieldRefused k v) = false → ∀ j, j ≠ k → (s.writeGeneric k t v).rd j = s.rd j) := by
  have hsame : State.SameBut k s (s.fieldsWritten k d v) := State.fieldsWritten_sameBut
  have hfld : ∀ f ∈ d.fields, (s.fieldsWritten k d v).fld k f.hi f.lo = s.fieldAfter k d v f := fun f hf =>
    State.writeFields_fldAfter d.fields (fieldsApart_of_regDef hk hd) hf (s, false) hs rfl
  rw [State.writeGeneric_eq t hd]
  cases hbad : d.fields.any (s.fieldRefused k v) with
  | false => exact ⟨hfld, (fun e => nomatch e), fun _ => hsame.rd⟩
  | true =>
    have he : k ∉ eventKeys (rkRegion k) := fun he =>
      absurd ((not_refused_of_eventKey h hk hd he).symm.trans hbad) Bool.false_ne_true
    refine ⟨fun f hf => ?_, fun _ => State.raise_flag _ _ 0 _ (by decide) (hsame.wf hs), fun e => nomatch e⟩
    rw [← hfld f hf]
    exact congrArg (fieldOf · f.hi f.lo) (State.rd_raise _ _ 0 _ he)

/-- Demand on a domain changes neither what a write makes of a field nor whether it is refused. -/
theorem State.touch_fieldAfter (pd : Nat) (f : FDef) : (s.touch pd).fieldAfter k d v f = s.fieldAfter k d v f := by
  unfold State.fieldAfter
  simp only [State.touch_fld, State.touch_locks]

theorem State.touch_fieldRefused (pd : Nat) : (s.touch pd).fieldRefused k v = s.fieldRefused k v := by
  funext f
  unfold State.fieldRefused
  simp only [State.touch_fld, State.touch_locks]

theorem State.writeGeneric_queues (t : Itag) : (s.writeGeneric k t v).queues = s.queues := by
  obtain ⟨u, ⟨⟨_, _, rfl⟩, _, _⟩, e | e⟩ := State.writeGeneric_cases s k t v <;> simp [e, State.cfgErr]

end

/-- A permitted write of a plain register acts field by field and changes no other register, but for those that record a
CFG_ERR (R90). -/
theorem registerWrite_plain {s : State} {i : Initiator} {addr : BitVec 44} {v : DWord} {k : Nat} {d : RDef}
    (hs : s.Canonical) (hsite : s.site addr.toNat = .regs k) (hk : k % 4 = 0) (hr : s.Reaches i k (v.setWidth 32))
    (hd : regDef k = some d) (hplain : PlainReg k) :
    ∃ t, exec (.registerWrite i addr 4 v) s = .next t ∧ t.resp = { status := .ok } ∧ t.mem = s.mem ∧
      t.queues = s.queues ∧ (∀ f ∈ d.fields, t.fld k f.hi f.lo = s.fieldAfter k d (v.setWidth 32) f) ∧
      (∀ j, j ∉ k :: eventKeys (rkRegion k) → t.rd j = s.rd j) ∧
      (d.fields.any (s.fieldRefused k (v.setWidth 32)) = true → t.flag (kESTAT (rkRegion k)) 0 = true) ∧
      (d.fields.any (s.fieldRefused k (v.setWidth 32)) = false → ∀ j, j ≠ k → t.rd j = s.rd j) := by
  have he : exec (.registerWrite i addr 4 v) s =
      .next (((s.touch (s.keyPd k)).writeGeneric k i.itag (v.setWidth 32)).respond .ok) := by
    rw [exec_registerWrite hsite, (State.regWriteAny_eq v).1 hk, State.regWrite_reaches hr, regEffect_plain _ hplain]
  obtain ⟨hfld, hbad, hgood⟩ := State.writeGeneric_plain (s := s.touch (s.keyPd k)) (v := v.setWidth 32) i.itag
    (by rw [State.touch_regs]; exact hs.1) hplain hr.passes.region hd
  simp only [State.touch_fieldAfter, State.touch_fieldRefused, State.touch_rd] at hfld hbad hgood
  refine ⟨_, he, rfl, ?_, ?_, hfld, fun j hj => ?_, hbad, hgood⟩
  · rw [State.respond_mem, State.writeGeneric_mem, State.touch_mem]
  · rw [State.respond_queues, State.writeGeneric_queues, State.touch_queues]
  · obtain ⟨hjk, hje⟩ := List.ne_and_not_mem_of_not_mem_cons hj
    rw [State.respond_rd, State.rd_writeGeneric_ne _ _ _ _ hjk hje, State.touch_rd]

/-- Lockstep pair A. -/
def pairWriter : Initiator := { itag := 0x001#12 }

/-- The reset state with one firewall descriptor, which lets every ITAG reach the Transit Engine's registers. -/
def openTransit : State := { fwl := { desc := [(64 * rTRANSIT, { last := 0xFFFFFFFF#32, w2 := 0x07000000#32 })] } }

theorem openTransit_canonical : openTransit.Canonical :=
  ⟨rfl, rfl, rfl, rfl, rfl, rfl, rfl, rfl, rfl, rfl, rfl, rfl, rfl, rfl⟩

theorem openTransit_reaches_kCTRL : openTransit.Reaches pairWriter (kCTRL rTRANSIT) 1#32 where
  passes := {
    notFrozen := List.not_mem_nil
    itag := by decide +kernel
    region := by decide
    page := by decide
    allowed := by decide +kernel
    noFwInj := by decide +kernel
    noTlpInj := fun h => absurd h (by decide)
    domain := by decide +kernel }
  mayWrite := by decide +kernel
  fields := by decide +kernel

/-- Refutes O52: its second kind of register takes in the Transit Engine's own BLK_CTRL, and setting QUIESCE there, with no
operation in flight, also sets BLK_STAT.QUIESCED (R91, R92). Without BLK_CTRL, BLK_EINJ and BLK_FRZ the write acts as
`registerWrite_plain` says. -/
theorem not_registerWrites : ¬ Obligations.RegisterWrites := by
  intro h
  obtain ⟨d, hd, -⟩ := regDef_kCTRL (r := rTRANSIT) (by decide)
  have hsite : openTransit.site (0x00F0090010#44).toNat = .regs (kCTRL rTRANSIT) := by decide +kernel
  obtain ⟨t, ht, -, -, -, -, hother, -⟩ := h openTransit pairWriter 0x00F0090010#44 1#64 (kCTRL rTRANSIT) d
    openTransit_canonical hsite (by decide) openTransit_reaches_kCTRL hd (.inr (by decide))
  obtain rfl : openTransit.regWrite pairWriter (kCTRL rTRANSIT) 1#32 = t := by
    rw [exec_registerWrite hsite, (State.regWriteAny_eq 1#64).1 (by decide)] at ht
    exact Host.Outcome.next.inj ht
  have hstat := hother (kSTAT rTRANSIT) (by decide)
  exact absurd hstat (by decide +kernel)

/-! ### Canonical tables (R84, R719) -/

/-- With no command waiting a step idles. -/
theorem step_idle {s : State} (h : s.pending = []) : step s = .next s := by
  unfold step
  rw [h]

/-- The queue of commands is no table. -/
theorem State.withPending_canonical {s : State} (h : s.Canonical) (cs : List Instr) : (s.withPending cs).Canonical := h

/-- Settles O59: an idle step keeps the state, a well-formed command keeps every table, and any other is refused. -/
theorem stepsKeepCanonical : Obligations.StepsKeepCanonical := by
  intro s t hs ht
  cases hp : s.pending with
  | nil =>
    obtain rfl : s = t := Host.Outcome.next.inj ((step_idle hp).symm.trans ht)
    exact hs
  | cons c rest =>
    rw [step_front hp] at ht
    cases hw : c.wellFormed with
    | false =>
      obtain ⟨name, hn⟩ := exec_illFormed c (s.withPending rest) hw
      exact nomatch hn.symm.trans ht
    | true =>
      obtain ⟨u, hu, -, hkeeps⟩ := exec_sound c (s.withPending rest) hw
      obtain rfl : u = t := Host.Outcome.next.inj (hu.symm.trans ht)
      exact hkeeps (State.withPending_canonical hs rest)

end Sys2Proof.Machine
end

section
/-! A NOP of every engine (R175, R330, R372, R420, R455, R491, R647, R696), and what a permitted write of SUBCMD carries
(R203, R715). -/

namespace Sys2Proof.Machine

/-! ### NOPs -/

/-- A NOP that its queue may start next finishes DONE. -/
theorem effNop_next {s : State} {r q : Nat} {o : Op} (hn : s.nextOp r q = some o) (ho : o.opcode = 3) :
    effNop r q s = (s.start r q o).finish r q o.index stDONE := by
  unfold effNop
  simp only [hn, ho, ↓reduceIte]

/-- SEC, while it executes nothing, takes the front descriptor of the queue it picks (R392, R647). -/
theorem State.secNext_picked {s : State} {q : Nat} {o : Op} (hfree : s.inFlight rSEC = false)
    (hn : s.nextOp rSEC q = some o) (hp : s.pick rSEC = some q) : s.secNext q o.opcode = some o := by
  unfold State.secNext
  simp only [hfree, hn, hp, Bool.false_eq_true, ↓reduceIte, and_self]

/-- Settles O34: each engine's NOP is the one shared NOP, once SEC and the checker have taken theirs. -/
theorem nopsComplete : Obligations.NopsComplete := by
  intro s q o ho
  have hnop : ∀ r i, s.nextOp r i = some o →
      Host.Outcome.next (effNop r i s) =
        (.next ((s.start r i o).finish r i o.index stDONE) : Outcome) := fun r i hn => by
    rw [effNop_next hn ho]
  refine ⟨fun dome => hnop _ _, hnop _ _, hnop _ _, fun m => hnop _ _, fun d => hnop _ _, hnop _ _, ?_, ?_⟩
  · intro hn hfree hp
    have htaken := State.secNext_picked hfree hn hp
    rw [ho] at htaken
    have he : effSecNop q.toNat s = effNop rSEC q.toNat s := by
      unfold effSecNop
      rw [htaken]
    exact (congrArg Host.Outcome.next he).trans (hnop _ _ hn)
  · intro hn
    have he : effOccNop q.toNat s = (s.dropDeadOcc.occStart q.toNat o).finish rOCC q.toNat o.index stDONE := by
      unfold effOccNop
      simp only [hn]
    exact congrArg Host.Outcome.next he

/-! ### SUBCMD -/

/-- SUBCMD with a word's operands stored: its PHYS and LOG fields (R203). -/
def SpareSet.operands (S : SpareSet) (s : State) (w : Word) : State :=
  (s.setFld S.kSub S.subPhys.1 S.subPhys.2 (fieldOf w S.subPhys.1 S.subPhys.2)).setFld
    S.kSub S.subLog.1 S.subLog.2 (fieldOf w S.subLog.1 S.subLog.2)

section
variable {S : SpareSet} {s u : State} {w : Word} (hu : u = S.operands s w)
include hu

/-- TEST of a logical part: no such part, no spare or no working part, or pending (R203). -/
theorem SpareSet.subcmd_test (hc : fieldOf w S.subCmd.1 S.subCmd.2 = 1) :
    S.subcmd s w =
      if S.nlog ≤ fieldOf w S.subLog.1 S.subLog.2 then S.result u 3
      else if (S.spareFor u (fieldOf w S.subLog.1 S.subLog.2)).isNone ∨
          S.avail u (fieldOf w S.subLog.1 S.subLog.2) = false then S.result u 2
      else S.result (S.setAux u { S.aux u with wantTest := some (fieldOf w S.subLog.1 S.subLog.2) }) 1 := by
  subst hu
  unfold SpareSet.subcmd SpareSet.operands
  simp only [hc, ↓reduceIte]

/-- RETIRE of a physical part that does not exist. -/
theorem SpareSet.subcmd_retire_noPart (hc : fieldOf w S.subCmd.1 S.subCmd.2 = 2)
    (hp : S.nphys ≤ fieldOf w S.subPhys.1 S.subPhys.2) : S.subcmd s w = S.result u 3 := by
  subst hu
  unfold SpareSet.subcmd SpareSet.operands
  simp only [hc, hp, ↓reduceIte, OfNat.ofNat_ne_one]

/-- RETIRE of a part waits, unless it is ACTIVE for a logical part that no spare can follow (R203). -/
theorem SpareSet.subcmd_retire (hc : fieldOf w S.subCmd.1 S.subCmd.2 = 2)
    (hp : fieldOf w S.subPhys.1 S.subPhys.2 < S.nphys) {bound : Option Nat}
    (hb : (List.range S.nlog).find? (fun l => S.phys u l == fieldOf w S.subPhys.1 S.subPhys.2 &&
      S.st u (fieldOf w S.subPhys.1 S.subPhys.2) == 1) = bound) :
    S.subcmd s w =
      if bound.any (fun l => (S.spareFor u l).isNone) then S.result u 2
      else S.result (S.setAux u { S.aux u with wantRetire := some (fieldOf w S.subPhys.1 S.subPhys.2) }) 1 := by
  subst hu
  unfold SpareSet.subcmd SpareSet.operands
  unfold SpareSet.operands at hb
  simp only [hc, Nat.not_le.mpr hp, hb, ↓reduceIte, OfNat.ofNat_ne_one]
  cases bound with
  | none => rfl
  | some l => rfl

end

/-- The sets whose SUBCMD register serves one set of parts: the Domes', SOLV's, DRIVE's and CVU's. -/
theorem spareSets_single {r : Nat} {S : SpareSet} (h : spareSets r = [S]) (hk : S.kSub ≠ 0) :
    r < 8 ∧ S = domeSpares r ∨ r = rSOLV ∧ S = solvSpares ∨ r = rDRIVE ∧ S = driveSpares ∨
      r = rCVU ∧ S = cvuSpares := by
  unfold spareSets at h
  split_ifs at h with hdome hsolv hdrive hcvu hlnk hapc
  · exact .inl ⟨hdome, (List.singleton_inj.mp h).symm⟩
  · exact .inr (.inl ⟨hsolv, (List.singleton_inj.mp h).symm⟩)
  · exact .inr (.inr (.inl ⟨hdrive, (List.singleton_inj.mp h).symm⟩))
  · exact .inr (.inr (.inr ⟨hcvu, (List.singleton_inj.mp h).symm⟩))
  · exact absurd h (by simp)
  · exact absurd (congrArg SpareSet.kSub (List.singleton_inj.mp h)).symm hk

/-- The set of parts that a SUBCMD word addresses at a region, and the state in which it takes the command: Linkous stores
the LINK bit first, which names the link (R203, R715). -/
def subcmdTarget (r : Nat) (w : Word) (s : State) (S : SpareSet) (u : State) : Prop :=
  (spareSets r = [S] ∧ u = s.touch (regionPd r)) ∨
    (r = rLNK ∧ S = lnkSpares (fieldOf w 8 8) ∧ u = (s.touch (regionPd rLNK)).setFlag S.kSub 8 (flagOf w 8))

section
variable {r : Nat} {w : Word} {s u : State} {S : SpareSet} (h : subcmdTarget r w s S u) (hk : S.kSub ≠ 0)
include h hk

/-- SUBCMD and its command field are those of the set that the word addresses. -/
theorem subcmdOf_target : subcmdOf r = some (S.kSub, S.subCmd) := by
  rcases h with ⟨h1, -⟩ | ⟨rfl, rfl, -⟩
  · unfold subcmdOf
    simp only [h1, hk, ↓reduceIte]
  · rfl

/-- CMD is a field of three bits. -/
theorem subCmd_width : S.subCmd.2 ≤ S.subCmd.1 ∧ S.subCmd.1 < 32 ∧ S.subCmd.1 + 1 - S.subCmd.2 = 3 := by
  have hcmd : S.subCmd = (11, 9) ∨ S.subCmd = (19, 17) ∨ S.subCmd = (8, 6) ∨ S.subCmd = (13, 11) := by
    rcases h with ⟨h1, -⟩ | ⟨-, rfl, -⟩
    · rcases spareSets_single h1 hk with ⟨-, rfl⟩ | ⟨-, rfl⟩ | ⟨-, rfl⟩ | ⟨-, rfl⟩
      · exact .inl rfl
      · exact .inr (.inl rfl)
      · exact .inr (.inr (.inl rfl))
      · exact .inr (.inr (.inr rfl))
    · exact .inl rfl
  rcases hcmd with e | e | e | e <;> rw [e] <;> decide

/-- A permitted write of SUBCMD hands its word to the set that it addresses. -/
theorem State.regWrite_subcmd {i : Initiator} (hr : s.Reaches i S.kSub w) :
    s.regWrite i S.kSub w = (S.subcmd u w).respond .ok := by
  have heff : s.touch (s.keyPd S.kSub) = s.touch (regionPd r) →
      regEffect (s.touch (regionPd r)) S.kSub i.itag w = S.subcmd u w →
      s.regWrite i S.kSub w = (S.subcmd u w).respond .ok := fun ht he => by
    rw [State.regWrite_reaches hr, ht, he]
  rcases h with ⟨h1, rfl⟩ | ⟨rfl, rfl, rfl⟩
  · rcases spareSets_single h1 hk with ⟨hlt, rfl⟩ | ⟨rfl, rfl⟩ | ⟨rfl, rfl⟩ | ⟨rfl, rfl⟩
    · interval_cases r <;> exact heff rfl rfl
    · exact heff rfl rfl
    · exact heff rfl rfl
    · exact heff rfl rfl
  · have hkey : (lnkSpares (fieldOf w 8 8)).kSub = rk rLNK 1 0x1C0 := rfl
    rw [hkey] at heff ⊢
    exact heff rfl rfl

/-- The word's CMD is the command that SUBCMD_TEST and SUBCMD_RETIRE write. -/
theorem subCmd_withField {v : Word} {c : Nat} (hc : c < 8) (hw : w = withField v S.subCmd.1 S.subCmd.2 c) :
    fieldOf w S.subCmd.1 S.subCmd.2 = c := by
  obtain ⟨hlo, h31, hwidth⟩ := subCmd_width h hk
  rw [hw, fieldOf_withField _ _ _ _ hlo h31, hwidth]
  exact Nat.mod_eq_of_lt hc

section
variable {i : Initiator} {region : BitVec 6} (hreg : region.toNat = r) (hr : s.Reaches i S.kSub w) {v : Word}
include hreg hr

/-- A permitted SUBCMD_TEST. -/
theorem subcmdTest_effect (hw : w = withField v S.subCmd.1 S.subCmd.2 1) :
    exec (.subcmdTest i region v) s = .next ((S.subcmd u w).respond .ok) := by
  change execSubcmdTest i region v s = _
  unfold execSubcmdTest
  rw [hreg, subcmdOf_target h hk]
  dsimp only
  rw [← hw, State.regWrite_subcmd h hk hr]

/-- A permitted SUBCMD_RETIRE. -/
theorem subcmdRetire_effect (hw : w = withField v S.subCmd.1 S.subCmd.2 2) :
    exec (.subcmdRetire i region v) s = .next ((S.subcmd u w).respond .ok) := by
  change execSubcmdRetire i region v s = _
  unfold execSubcmdRetire
  rw [hreg, subcmdOf_target h hk]
  dsimp only
  rw [← hw, State.regWrite_subcmd h hk hr]

end

end

/-- Settles O18, by the branches that TEST and RETIRE have in the set that the word addresses. -/
theorem subcommandsWait : Obligations.SubcommandsWait := by
  intro s u₀ u i region v w S htarget hk hu hr
  refine ⟨fun hw => ?_, fun hw => ?_⟩
  · have he := subcmdTest_effect htarget hk rfl hr hw
    rw [SpareSet.subcmd_test hu (subCmd_withField htarget hk (by decide) hw)] at he
    refine ⟨fun hl hspare hav => ?_, fun hl hnone => ?_, fun hl => ?_⟩
    · rw [he, if_neg (Nat.not_le.mpr hl), if_neg]
      rw [hav, Option.isNone_eq_false_iff.mpr hspare]
      decide
    · rw [he, if_neg (Nat.not_le.mpr hl), if_pos (.inl (by rw [hnone]; rfl))]
    · rw [he, if_pos hl]
  · have he := subcmdRetire_effect htarget hk rfl hr hw
    have hc := subCmd_withField htarget hk (by decide) hw
    refine ⟨fun hp hfollow => ?_, fun hp ⟨l, hbound, hnone⟩ => ?_, fun hp => ?_⟩
    · rw [he, SpareSet.subcmd_retire hu hc hp rfl, if_neg]
      rw [Option.any_eq_true]
      rintro ⟨l, hl, hnone⟩
      obtain ⟨hrange, hphys⟩ := And.intro (List.mem_of_find?_eq_some hl) (List.find?_some hl)
      rw [Bool.and_eq_true, beq_iff_eq] at hphys
      have hspare := hfollow l (List.mem_range.mp hrange) hphys.1
      rw [Option.isNone_eq_false_iff.mpr hspare] at hnone
      exact absurd hnone (by decide)
    · rw [he, SpareSet.subcmd_retire hu hc hp hbound, Option.any_some, hnone]
      rfl
    · rw [he, SpareSet.subcmd_retire_noPart hu hc hp]

end Sys2Proof.Machine
end

section
/-! Spared parts: the rotation at a boundary between operations, and how a test slice ends (R192–R196). -/

namespace Sys2Proof.Machine

/-! ### What a set of spared parts keeps beside its registers -/

section
variable (S : SpareSet) (s : State)

theorem SpareSet.aux_setAux (hs : s.Canonical) (x : SpareSt) : S.aux (S.setAux s x) = x := by
  obtain ⟨-, -, -, -, -, hspares, -⟩ := hs
  exact Sparse.get_set_self _ _ _ hspares

@[simp] theorem SpareSet.showTest_spares : (S.showTest s).spares = s.spares := by
  unfold SpareSet.showTest
  split <;> simp

theorem SpareSet.aux_showTest : S.aux (S.showTest s) = S.aux s := by
  unfold SpareSet.aux
  rw [S.showTest_spares s]

end

/-- The set of a region's unit lies elsewhere than in the Plate Stores, whose row groups have windows of their own. -/
theorem spareSet_not_plate {r n : Nat} {S : SpareSet} (h : (spareSets r).find? (fun S => S.unit == n) = some S) :
    r ≠ rPLATE := by
  rintro rfl
  exact nomatch (show (none : Option SpareSet) = some S from h)

/-! ### Rotation (R193–R195) -/

/-- At a boundary with no part suspect, retired or left in TESTING, a window that has tested no part takes the next part of
the rotation: a spare moves in, and the slice of the part freed starts. -/
theorem SpareSet.boundary_rotates {S : SpareSet} {s u : State} {free : Nat → Bool} {l : Nat}
    (hsus : (S.aux s).suspects = []) (hret : (S.aux s).wantRetire = none) (htest : (S.aux s).wantTest = none)
    (hserved : (S.aux s).served = false) (hslice : (S.aux s).slice = none) (hwin : s.flag (kSTAT S.region) 3 = true)
    (hnone : ∀ p, p < S.nphys → S.canTest s p = false) (hrot : S.rotEnabled s = true) (hnext : S.nextRot s = some l)
    (hfree : free l = true) (hmove : S.move s l 2 = some u) :
    S.boundary s free = S.startSlice (S.advanceRot u l) (S.phys s l) := by
  have hsame : S.takeSuspects s free = s := by
    unfold SpareSet.takeSuspects
    rw [hsus]
    rfl
  have hleft : (List.range S.nphys).find? (S.canTest s) = none := by
    rw [List.find?_eq_none]
    intro p hp
    rw [hnone p (List.mem_range.mp hp)]
    exact Bool.false_ne_true
  unfold SpareSet.boundary
  simp only [hsame, hret, htest, hserved, hslice, hwin, hleft, hrot, hnext, hfree, hmove, Option.isNone_none,
    Option.isSome_none, and_self, Bool.false_eq_true, ↓reduceIte]

/-- SPARE_TAKEOVER, in a domain that is up, is a boundary of the unit's set. -/
theorem spareTakeover_boundary {s : State} {region : BitVec 6} {unit : BitVec 2} {S : SpareSet}
    (hS : (spareSets region.toNat).find? (fun S => S.unit == unit.toNat) = some S)
    (hpd : s.pdDown (regionPd region.toNat) = false) :
    exec (.spareTakeover region unit) s = .next (S.boundary s (s.partFree region.toNat)) := by
  refine congrArg Host.Outcome.next (?_ : effTakeover region.toNat unit.toNat s = _)
  unfold effTakeover
  simp only [hpd, spareSet_not_plate hS, hS, Bool.false_eq_true, ↓reduceIte]

/-! ### The end of a slice (R192) -/

/-- The part whose slice has lasted is SPARE when it passed, else RETIRED; SUBSTAT shows PASS or FAIL where the block has
it. -/
def SpareSet.sliceVerdict (S : SpareSet) (u : State) (p : Nat) (pass : Bool) : State :=
  if S.kSubstat = 0 then S.setSt u p (if pass then 0 else 3)
  else (S.setSt u p (if pass then 0 else 3)).setFlag S.kSubstat (if pass then S.testHi + 1 else S.testHi + 2) true

section
variable {S : SpareSet} {s u : State} {p t0 : Nat} (hs : s.Canonical) (hslice : (S.aux s).slice = some (p, t0))
  (hlast : t0 + S.slice p ≤ s.now) (hret : (S.aux s).wantRetire = none)
  (hu : u = S.showTest (S.setAux s { S.aux s with slice := none }))
include hs hslice hlast hret hu

/-- A slice that has lasted its length gives its part's verdict; a part that failed is counted, and flagged where the block
has a flag for it. -/
theorem SpareSet.sliceEnd_lasted (pass : Bool) :
    S.sliceEnd s pass =
      if pass then S.sliceVerdict u p true
      else S.failBit.elim ((S.sliceVerdict u p false).countOpt S.region S.cntTest)
        (fun b => ((S.sliceVerdict u p false).countOpt S.region S.cntTest).raise S.region b { index := p }) := by
  have hwant : ((S.aux u).wantRetire == some p) = false := by
    rw [hu, S.aux_showTest, S.aux_setAux s hs, hret]
    rfl
  unfold SpareSet.sliceEnd SpareSet.sliceVerdict
  simp only [hslice, Nat.not_lt.mpr hlast, ← hu, hwant, Bool.not_false, Bool.and_true, Bool.false_eq_true, ↓reduceIte]
  cases pass with
  | true => simp only [↓reduceIte]
  | false =>
    simp only [Bool.false_eq_true, ↓reduceIte]
    cases S.failBit <;> rfl

end

/-- TEST_SLICE_END ends the slice of the unit's set, and is use of the region's domain. -/
theorem testSliceEnd_slice {s : State} {region : BitVec 6} {unit : BitVec 2} {S : SpareSet} (pass : Bool)
    (banks : List (BitVec 9)) (hS : (spareSets region.toNat).find? (fun S => S.unit == unit.toNat) = some S) :
    exec (.testSliceEnd region unit pass banks) s = .next ((S.sliceEnd s pass).touch (regionPd region.toNat)) := by
  refine congrArg Host.Outcome.next (?_ : effSliceEnd region.toNat unit.toNat pass (banks.map BitVec.toNat) s = _)
  unfold effSliceEnd
  simp only [spareSet_not_plate hS, hS, ↓reduceIte]

/-- Settles O16: the boundary rotates, and the slice that has lasted gives its verdict. -/
theorem partsRotate : Obligations.PartsRotate := by
  intro s region unit S hs hS
  refine ⟨fun l u hpd hsus hret htest hserved hslice hwin hnone hrot hnext hfree hmove => ?_,
    fun p t0 banks u hslice hlast hret hu => ⟨?_, fun hfail => ?_, fun b hfail => ?_⟩⟩
  · rw [spareTakeover_boundary hS hpd, SpareSet.boundary_rotates hsus hret htest hserved hslice hwin hnone hrot hnext
      hfree hmove]
  all_goals rw [testSliceEnd_slice _ banks hS, SpareSet.sliceEnd_lasted hs hslice hlast hret hu]
  · rfl
  · rw [hfail]
    rfl
  · rw [hfail]
    rfl

end Sys2Proof.Machine
end

section
/-! The Domes at work: the issue of an output entry, a gather slot that frees, the watchdog, and stage faults (R178, R179,
R184, R185, R197–R199, R268). -/

namespace Sys2Proof.Machine

/-! ### Finite maps with equal contents are equal data -/

section
variable {α : Type} {d : Nat → α}

/-- The entries after the first do not list the first key. -/
theorem Sparse.get_tail_head {j : Nat} {x : α} {rest : Sparse α} (h : Sparse.rising none ((j, x) :: rest) = true) {k : Nat}
    (hk : k ≤ j) : Sparse.get d rest k = d k := Sparse.get_below d (lo := j) h hk

variable [DecidableEq α]

theorem Sparse.wf_cons {j : Nat} {x : α} {rest : Sparse α} (h : Sparse.wf d ((j, x) :: rest) = true) :
    x ≠ d j ∧ Sparse.rising none ((j, x) :: rest) = true ∧ Sparse.wf d rest = true := by
  simp only [Sparse.wf, List.all_cons, Bool.and_eq_true, decide_eq_true_eq] at h ⊢
  obtain ⟨hr, hx, hall⟩ := h
  exact ⟨hx, hr, Sparse.rising_none (lo := some j) hr, hall⟩

theorem Sparse.ext {m n : Sparse α} (hm : Sparse.wf d m = true) (hn : Sparse.wf d n = true)
    (h : ∀ k, Sparse.get d m k = Sparse.get d n k) : m = n := by
  induction m generalizing n with
  | nil =>
    cases n with
    | nil => rfl
    | cons e ns =>
      obtain ⟨hx, -⟩ := Sparse.wf_cons hn
      exact absurd (by simpa [Sparse.get] using h e.1) hx.symm
  | cons e ms ih =>
    obtain ⟨hx, hmr, hmw⟩ := Sparse.wf_cons hm
    cases n with
    | nil => exact absurd (by simpa [Sparse.get] using h e.1) hx
    | cons f ns =>
      obtain ⟨hy, hnr, hnw⟩ := Sparse.wf_cons hn
      obtain ⟨j, x⟩ := e
      obtain ⟨i, y⟩ := f
      rcases Nat.lt_trichotomy j i with hlt | rfl | hgt
      · have hj := h j
        simp only [Sparse.get, ↓reduceIte, hlt.ne', Sparse.get_tail_head hnr hlt.le] at hj
        exact absurd hj hx
      · have hxy := h j
        simp only [Sparse.get, ↓reduceIte] at hxy
        have hrest : ms = ns := ih hmw hnw fun k => by
          by_cases hk : j = k
          · subst hk
            rw [Sparse.get_tail_head hmr le_rfl, Sparse.get_tail_head hnr le_rfl]
          · simpa [Sparse.get, hk] using h k
        rw [hxy, hrest]
      · have hi := h i
        simp only [Sparse.get, ↓reduceIte, hgt.ne', Sparse.get_tail_head hmr hgt.le] at hi
        exact absurd hi.symm hy

/-- Of two writes to one key the later counts. -/
theorem Sparse.set_set {m : Sparse α} (hm : Sparse.wf d m = true) (k : Nat) (v w : α) :
    Sparse.set d (Sparse.set d m k v) k w = Sparse.set d m k w := by
  have hv := Sparse.wf_set d k v hm
  refine Sparse.ext (Sparse.wf_set d k w hv) (Sparse.wf_set d k w hm) fun j => ?_
  by_cases hj : j = k
  · rw [hj, Sparse.get_set_self d k w hv, Sparse.get_set_self d k w hm]
  · rw [Sparse.get_set_ne d _ w hj, Sparse.get_set_ne d _ v hj, Sparse.get_set_ne d _ w hj]

/-- Writing what a key holds changes nothing. -/
theorem Sparse.set_get {m : Sparse α} (hm : Sparse.wf d m = true) (k : Nat) :
    Sparse.set d m k (Sparse.get d m k) = m := by
  refine Sparse.ext (Sparse.wf_set d k _ hm) hm fun j => ?_
  by_cases hj : j = k
  · rw [hj, Sparse.get_set_self d k _ hm]
  · rw [Sparse.get_set_ne d m _ hj]

end

/-! ### The RUN of a Dome -/

section
variable {s : State} {d : Nat}

/-- A RUN whose operation is still at work stays (R535). -/
theorem State.dropDeadRun_alive {r : DomeRun} (hrun : (s.dome d).run = some r)
    (hop : ∃ o, s.findOp d r.queue r.index = some o ∧ o.status = none) : s.dropDeadRun d = s := by
  obtain ⟨o, ho, hst⟩ := hop
  unfold State.dropDeadRun
  simp only [hrun, ho, hst, Option.isSome_none, Bool.false_eq_true, ↓reduceIte]

/-- A Dome without a RUN has none to drop. -/
theorem State.dropDeadRun_free (hrun : (s.dome d).run = none) : s.dropDeadRun d = s := by
  unfold State.dropDeadRun
  simp only [hrun]

/-- The stages of a Dome's RUN fire. -/
theorem State.runOn_run {r : DomeRun} (hrun : (s.dome d).run = some r) : s.runOn d = State.settle d r.fuel s := by
  unfold State.runOn
  simp only [hrun]

variable (hs : s.Canonical)
include hs

theorem State.canonical_domes : Sparse.wf (fun _ => ({} : Dome)) s.domes = true := by
  obtain ⟨-, -, -, -, -, -, -, -, -, -, hdomes, -⟩ := hs
  exact hdomes

theorem State.dome_setRun (r : Option DomeRun) : (s.setRun d r).dome d = { s.dome d with run := r } :=
  Sparse.get_set_self _ _ _ (State.canonical_domes hs)

theorem State.setRun_setRun (r r' : Option DomeRun) : (s.setRun d r).setRun d r' = s.setRun d r' := by
  have hd := State.dome_setRun (d := d) hs r
  unfold State.setRun State.setDome at hd ⊢
  rw [hd]
  simp only [Sparse.set_set (State.canonical_domes hs)]

theorem State.setRun_self {r : DomeRun} (hrun : (s.dome d).run = some r) : s.setRun d (some r) = s := by
  have hsame : Sparse.set (fun _ => ({} : Dome)) s.domes d { s.dome d with run := some r } = s.domes := by
    rw [← hrun]
    exact Sparse.set_get (State.canonical_domes hs) d
  unfold State.setRun State.setDome
  rw [hsame]

end

/-! ### A gather slot that frees (R268) -/

/-- A RUN may fire at least once. -/
theorem DomeRun.fuel_eq_succ (r : DomeRun) : ∃ n, r.fuel = n + 1 := ⟨r.fuel - 1, by unfold DomeRun.fuel; omega⟩

section
variable {s : State} {d : Nat} {r : DomeRun} (hrun : (s.dome d).run = some r) (hp : r.paused = none)
  (hf : r.finished = false)
include hrun hp hf

/-- A firing, and then the others. -/
theorem State.settle_fires {u : State} (n : Nat) (h : s.fireNext d r.allIssued = some (none, u)) :
    State.settle d (n + 1) s = State.settle d n u := by
  rw [State.settle]
  simp only [hrun, hp, hf, h, Option.isSome_none, Bool.false_eq_true, or_self, ↓reduceIte]

/-- A RUN with nothing left to do has finished. -/
theorem State.settle_idle (n : Nat) (h : s.fireNext d r.allIssued = none) (hgw : r.gw = []) (hidle : r.idle = true) :
    State.settle d (n + 1) s = (s.setRun d (some { r with finished := true })).conclude d r.queue r.index
      (if r.empty then stNUM_EMPTY else stDONE) := by
  have hnote : s.noteRingWait d = s := by
    unfold State.noteRingWait
    simp only [hrun, hgw]
  rw [State.settle]
  simp only [hrun, hp, hf, h, hnote, hidle, Option.isSome_none, Bool.false_eq_true, or_self, ↓reduceIte]

end

/-! ### The issue of an output entry (R178, R179, R184) -/

/-- A fold whose steps change nothing. -/
theorem foldl_eq_self {α β : Type} {f : α → β → α} {a : α} {l : List β} (h : ∀ x ∈ l, f a x = a) :
    l.foldl f a = a := by
  induction l with
  | nil => rfl
  | cons x xs ih =>
    rw [List.foldl_cons, h x List.mem_cons_self]
    exact ih fun y hy => h y (List.mem_cons_of_mem x hy)

/-- An issue that meets no injection of its Dome is left as it is (R201). -/
theorem State.domeInject_unarmed {s : State} {d : Nat} (h : ∀ b, b < 5 → s.injArmed d b = false) (l : Nat) :
    s.domeInject d l = s := by
  have hi : ∀ b, b < 5 → s.domeInj d b l = false := fun b hb => by
    unfold State.domeInj
    rw [h b hb, Bool.false_and]
  unfold State.domeInject
  simp only [hi 0 (by decide), hi 1 (by decide), hi 2 (by decide), hi 3 (by decide), Bool.false_eq_true, false_and,
    ↓reduceIte]

/-- A RUN once output entry `e` of stage `l` has issued at `now`: its addresses wait at the stage, and it is finished a
cycle later. -/
def DomeRun.outIssued (r : DomeRun) (l : Nat) (e : SEnt) (now : Nat) : DomeRun :=
  { r with
    outAt := Sparse.set (fun _ => []) r.outAt l (Sparse.get (fun _ => []) r.outAt l ++
      ((List.range e.count).map (fun i => e.addr + i * e.stride)).map (fun a => (e.ctx, a)))
    ents := r.ents.map (fun x => if x = e then { x with doneAt := some (now + cyclesNs 1) } else x) }

/-- The output entry that comes next, once its cycle has come and the one before it has finished, issues on time: no
bubble is counted. -/
theorem effEntryIssue_output {s : State} {d l : Nat} {r : DomeRun} {e : SEnt} (hs : s.Canonical)
    (hrun : (s.dome d).run = some r) (hlive : s.dropDeadRun d = s) (hp : r.paused = none) (hf : r.finished = false)
    (hretry : r.retried = false) (hl : l ≠ 14) (hinj : ∀ b, b < 5 → s.injArmed d b = false) (hfirst : r.first ≠ none)
    (hnext : (r.ents.filter (fun e => e.lstage == l && e.port == 3)).find? (fun e => e.doneAt.isNone) = some e)
    (hbefore : ∀ x ∈ r.ents, x.lstage = l → x.port = 3 → ∀ t, x.doneAt = some t →
      t ≤ s.now ∧ cyclesIn (t - r.start - r.pausedFor) ≤ e.tplan)
    (hcycle : r.planCycle s.now = e.tplan) (hdep : e.dep = false)
    (haddr : ∀ i, i < e.count →
      s.scheduleAddrOk d (s.queue d r.queue).tenant (e.addr + i * e.stride) 64 = true) :
    effEntryIssue d l 3 s = (s.setRun d (some (r.outIssued l e s.now))).runOn d := by
  have hmine : ∀ x ∈ r.ents.filter (fun e => e.lstage == l && e.port == 3), ∀ t, x.doneAt = some t →
      t ≤ s.now ∧ cyclesIn (t - r.start - r.pausedFor) ≤ e.tplan := fun x hx t ht => by
    obtain ⟨hmem, hxl⟩ := List.mem_filter.mp hx
    rw [Bool.and_eq_true, beq_iff_eq, beq_iff_eq] at hxl
    exact hbefore x hmem hxl.1 hxl.2 t ht
  obtain ⟨t0, ht0⟩ := Option.ne_none_iff_exists'.mp hfirst
  have hsame : s.setRun d (some { r with first := some (r.first.getD s.now) }) = s := by
    rw [ht0, Option.getD_some, ← ht0]
    exact State.setRun_self hs hrun
  have haddrs : ((List.range e.count).map (fun i => e.addr + i * e.stride)).find?
      (fun a => s.scheduleAddrOk d (s.queue d r.queue).tenant a 64 = false) = none := by
    rw [List.find?_eq_none]
    intro a ha
    obtain ⟨i, hi, rfl⟩ := List.mem_map.mp ha
    rw [haddr i (List.mem_range.mp hi)]
    decide
  have hgo : ¬(r.paused.isSome = true ∨ r.finished = true) := by
    rw [hp, hf]
    decide
  have hfresh : ¬(r.start = s.now ∧ r.retried = true) := by
    rw [hretry]
    exact fun h => Bool.false_ne_true h.2
  unfold effEntryIssue
  simp only [hlive, hrun, hgo, hnext, hcycle, hdep, hl, ↓reduceIte]
  rw [if_neg, foldl_eq_self]
  · simp only [Nat.sub_self, ↓reduceIte, hsame, State.domeInject_unarmed hinj, hrun, hfresh, haddrs, State.dome_setRun hs,
      State.setRun_setRun hs]
    rfl
  -- no earlier entry has finished after the cycle of this one, so it is not late
  · intro x hx
    split
    · next t ht => exact Nat.max_eq_left (hmine x hx t ht).2
    · rfl
  -- its cycle has come, the entry before it has finished, and it waits for no ring slot and no operation
  · rintro (hearly | hbusy | hring | hwait)
    · exact lt_irrefl _ hearly
    · obtain ⟨x, hx, hlate⟩ := List.all_eq_false.mp hbusy
      refine hlate ?_
      split
      · next t ht => exact decide_eq_true (hmine x hx t ht).1
      · rfl
    · exact absurd hring (by simp)
    · exact Bool.false_ne_true hwait.1

/-! ### The watchdog (R185) -/

/-- A RUN past WCET_CYC is counted and flagged, and ends. -/
theorem effRunWcet_over {s : State} {d : Nat} {r : DomeRun} (hrun : (s.dome d).run = some r)
    (hlive : s.dropDeadRun d = s) (hfirst : r.first ≠ none) (hp : r.paused = none) (hf : r.finished = false)
    (hover : r.wcet < r.cycles s.now) :
    effRunWcet d s = (((s.count d 5).raise d 18 { inj := r.injWcet, queue := r.queue, index := r.index }).endRun d
      stERR_TIMEOUT_WCET) := by
  unfold effRunWcet
  simp only [hlive, hrun, hp, hf, hover, Option.isNone_eq_false_iff.mpr (Option.isSome_iff_ne_none.mpr hfirst),
    Option.isSome_none, Bool.false_eq_true, or_self, true_or, ↓reduceIte]

/-! ### Stage faults (R197–R199) -/

section
variable (S : SpareSet) (s : State)

@[simp] theorem State.countOpt_domes (r : Nat) (k : Option Nat) : (s.countOpt r k).domes = s.domes := by
  cases k with
  | none => rfl
  | some k => exact State.count_domes _ _ _ _

@[simp] theorem State.showSpares_domes (r : Nat) : (s.showSpares r).domes = s.domes := rfl

@[simp] theorem SpareSet.setAux_domes (x : SpareSt) : (S.setAux s x).domes = s.domes := rfl

@[simp] theorem SpareSet.setSt_domes (p v : Nat) : (S.setSt s p v).domes = s.domes := by
  unfold SpareSet.setSt
  cases S.kState <;> rfl

@[simp] theorem SpareSet.setAvail_domes (l : Nat) (b : Bool) : (S.setAvail s l b).domes = s.domes := by
  unfold SpareSet.setAvail
  cases S.kMap <;> rfl

@[simp] theorem SpareSet.bindTo_domes (l p : Nat) : (S.bindTo s l p).domes = s.domes := by
  unfold SpareSet.bindTo
  cases S.kMap <;> simp

@[simp] theorem SpareSet.showTest_domes : (S.showTest s).domes = s.domes := by
  unfold SpareSet.showTest
  split <;> simp

/-- A part that a spare or a part called back from its test replaces, or that is lost, leaves every RUN as it is. -/
@[simp] theorem SpareSet.fault_domes (l : Nat) : (S.fault s l).2.domes = s.domes := by
  unfold SpareSet.fault
  dsimp only
  split
  · simp
  · split
    · split
      · split <;> simp
      · simp
    · cases S.lostBit <;> simp

end

/-- A fault of a stage of a Dome without a RUN: counted and flagged by its cause, and the stage's part gives way. -/
theorem effStageFault_free {s u : State} {d l cause : Nat} (hl : l < 15) (hrun : (s.dome d).run = none)
    (hu : u = (if cause = 0 then (s.count d 3).raise d 16 { detail := BitVec.ofNat 64 l }
      else if cause = 1 then (s.count d 1).raise d 2 { detail := BitVec.ofNat 64 l }
      else (s.count d 2 3).raise d 17 { detail := BitVec.ofNat 64 l })) :
    effStageFault d l cause s = ((domeSpares d).fault u l).2 := by
  have hdomes : ((domeSpares d).fault u l).2.domes = s.domes := by
    rw [SpareSet.fault_domes, hu]
    split_ifs <;> simp
  have hfree : ((((domeSpares d).fault u l).2).dome d).run = none := by
    unfold State.dome at hrun ⊢
    rw [hdomes]
    exact hrun
  unfold effStageFault
  simp only [Nat.not_le.mpr hl, ← hu, hfree, ↓reduceIte]

/-- Settles O15: a RUN at work takes its next output entry, fires, is concluded, or is ended by its watchdog; a faulty stage of
a Dome without a RUN gives way. -/
theorem domesAtWork : Obligations.DomesAtWork := by
  intro s dome r
  refine ⟨fun hrun hop => ?_, fun l hl hrun => ?_⟩
  · have hlive := State.dropDeadRun_alive hrun hop
    refine ⟨fun l e hp hf hretry hl hinj hfirst hnext hbefore hcycle hdep haddr hs => ?_, fun hp hf => ?_,
      fun hfirst hp hf hover => ?_⟩
    · exact congrArg Host.Outcome.next
        (effEntryIssue_output hs hrun hlive hp hf hretry hl hinj hfirst hnext hbefore hcycle hdep haddr)
    · have he : effGatherSlotFree dome.toNat s = State.settle dome.toNat r.fuel s := by
        unfold effGatherSlotFree
        rw [hlive, State.runOn_run hrun]
      obtain ⟨n, hn⟩ := r.fuel_eq_succ
      refine ⟨fun u hfire => congrArg Host.Outcome.next ?_, fun hnone hgw hidle => congrArg Host.Outcome.next ?_⟩
      · rw [he, hn, State.settle_fires hrun hp hf n hfire, Nat.add_sub_cancel]
      · rw [he, hn, State.settle_idle hrun hp hf n hnone hgw hidle]
    · exact congrArg Host.Outcome.next (effRunWcet_over hrun hlive hfirst hp hf hover)
  · have hfault : ∀ c : BitVec 2, exec (.stageFault dome l c) s =
        .next (effStageFault dome.toNat l.toNat c.toNat s) := fun _ => rfl
    exact ⟨(hfault 0).trans (congrArg _ (effStageFault_free hl hrun rfl)),
      (hfault 1).trans (congrArg _ (effStageFault_free hl hrun rfl)),
      (hfault 2).trans (congrArg _ (effStageFault_free hl hrun rfl))⟩

end Sys2Proof.Machine
end

section
/-! The Domes take work: a LOAD and a RUN at the front of the queue that the Dome takes next (R173–R178). -/

namespace Sys2Proof.Machine

/-- A map whose stages are all in service has no stage that is lost (R174, R177). -/
theorem no_lost_stage {S : SpareSet} {s : State} {m : TrainMap}
    (h : ∀ l, l < 15 → TrainMap.used m l = true → S.avail s l = true) :
    (List.range 15).any (fun l => TrainMap.used m l && !S.avail s l) = false := by
  rw [List.any_eq_false]
  intro l hl hlost
  rw [Bool.and_eq_true, Bool.not_eq_true'] at hlost
  exact Bool.false_ne_true (hlost.2.symm.trans (h l (List.mem_range.mp hl) hlost.1))

/-! ### LOAD (R173, R174) -/

/-- A well-formed map whose stages are in service is read into its slot, and shown. -/
theorem effDomeLoad_takes {s u : State} {d q : Nat} {o : Op} {bs : List Byte} (hn : s.nextOp d q = some o)
    (hpick : s.pick d = some q) (ho : o.opcode = 1) (hslot : (s.dome d).usesSlot (o.fld 0x18 1 0) = false)
    (hal : o.addr 0x10 % 64 = 0)
    (hread : (s.start d q o).txRead (some (domeItag d)) (o.addr 0x10) 2048 (some (d, q, o.index)) = (.ok bs, u))
    (hform : TrainMap.formatOk (wordsOf bs) bs = true)
    (hstages : ∀ l, l < 15 → TrainMap.used (wordsOf bs) l = true → (domeSpares d).avail u l = true)
    (hscans : ∀ x ∈ TrainMap.contexts (wordsOf bs), (TrainMap.ent (wordsOf bs) x.1 x.2).isScan = true →
      (TrainMap.ent (wordsOf bs) x.1 x.2).scanLimit = true) :
    effDomeLoad d q s = ((((u.setDome d { u.dome d with
        maps := Sparse.set (fun _ => []) (u.dome d).maps (o.fld 0x18 1 0) (wordsOf bs) }).wr
      (kTMSLOT d (o.fld 0x18 1 0)) (BitVec.ofNat 32 (2 ^ 16 + TrainMap.id (wordsOf bs)))).setFlag
      (kSTAT d) (18 + o.fld 0x18 1 0) true).conclude d q o.index stDONE 0 (cyclesNs 480)) := by
  have hlimits : (TrainMap.contexts (wordsOf bs)).all (fun x => !(TrainMap.ent (wordsOf bs) x.1 x.2).isScan ||
      (TrainMap.ent (wordsOf bs) x.1 x.2).scanLimit) = true := by
    rw [List.all_eq_true]
    intro x hx
    rw [Bool.or_eq_true, Bool.not_eq_true', or_iff_not_imp_left, Bool.not_eq_false]
    exact hscans x hx
  unfold effDomeLoad
  simp only [hn, ho, hpick, hslot, hal, hread, hform, no_lost_stage hstages, hlimits, ne_eq, not_true_eq_false,
    Bool.false_eq_true, Bool.not_true, Bool.or_self, or_self, ↓reduceIte]

/-! ### RUN (R175, R177, R178) -/

/-- `t` is `s` but for its registers, of which those listed show the words beside them. -/
structure State.Shows (l : List (Nat × Word)) (s t : State) : Prop where
  eq : ∃ regs_, t = { s with regs := regs_ }
  wf : Registers.wf t.regs = true
  rd : ∀ e ∈ l, t.rd e.1 = e.2

section
variable {l : List (Nat × Word)} {s t : State}

theorem State.Shows.nil (hs : Registers.wf s.regs = true) : State.Shows [] s s :=
  ⟨⟨s.regs, rfl⟩, hs, fun _ he => absurd he List.not_mem_nil⟩

/-- A write elsewhere leaves what the state shows. -/
theorem State.Shows.wr (h : State.Shows l s t) {k : Nat} (hk : ∀ e ∈ l, e.1 ≠ k) (w : Word) :
    State.Shows l s (t.wr k w) := by
  obtain ⟨⟨regs_, rfl⟩, hwf, hrd⟩ := h
  exact ⟨⟨_, rfl⟩, State.wf_wr _ k w hwf, fun e he => (State.rd_wr_ne _ w (hk e he)).trans (hrd e he)⟩

/-- A write shows the word written. -/
theorem State.Shows.wr_cons (h : State.Shows l s t) {k : Nat} (hk : ∀ e ∈ l, e.1 ≠ k) (w : Word) :
    State.Shows ((k, w) :: l) s (t.wr k w) where
  eq := (h.wr hk w).eq
  wf := (h.wr hk w).wf
  rd := List.forall_mem_cons.mpr ⟨State.rd_wr_self t k w h.wf, (h.wr hk w).rd⟩

theorem State.Shows.wrs (h : State.Shows l s t) {f : Nat → Nat} {ks : List Nat} (hf : ∀ k ∈ ks, ∀ e ∈ l, e.1 ≠ f k)
    (w : Word) : State.Shows l s (ks.foldl (fun s k => s.wr (f k) w) t) := by
  induction ks generalizing t with
  | nil => exact h
  | cons k ks ih =>
    exact ih (h.wr (hf k List.mem_cons_self) w) fun k' hk' => hf k' (List.mem_cons_of_mem k hk')

/-- Showing a Dome's RUN writes BLK_STAT and RUNSTAT only (R202). -/
theorem State.Shows.showRun (h : State.Shows l s t) {d : Nat} (h1 : ∀ e ∈ l, e.1 ≠ kSTAT d)
    (h2 : ∀ e ∈ l, e.1 ≠ kRUNSTAT d) : State.Shows l s (t.showRun d) := by
  unfold State.showRun
  dsimp only
  split
  · exact ((h.wr h1 _).wr h1 _).wr h2 _
  · exact ((h.wr h1 _).wr h1 _).wr h2 _

end

/-- What a Dome's registers show of a RUN that it has just taken (R202). -/
abbrev runShown (d : Nat) (o : Op) : List (Nat × Word) :=
  [(kRUNCYC d, 0#32), (kRUNWCET d, o.word 9), (kRUNPLAN d, o.word 8)]

theorem State.shows_given {s : State} (d : Nat) (o : Op) (hs : Registers.wf s.regs = true) :
    State.Shows (runShown d o) s
      (((s.wr (kRUNPLAN d) (o.word 8)).wr (kRUNWCET d) (o.word 9)).wr (kRUNCYC d) 0#32) := by
  have hplan := (State.Shows.nil hs).wr_cons (k := kRUNPLAN d) (by simp) (o.word 8)
  have hwcet := hplan.wr_cons (k := kRUNWCET d) (by simp [kRUNPLAN, kRUNWCET, rk]) (o.word 9)
  exact hwcet.wr_cons (by simp [kRUNPLAN, kRUNWCET, kRUNCYC, rk]) 0#32

/-- A RUN that its Dome has just taken. -/
def DomeRun.taken (q : Nat) (o : Op) (m : TrainMap) (slot now : Nat) (bs : List Byte) : DomeRun :=
  { queue := q, index := o.index, map := m, slot := slot, plan := (o.word 8).toNat, wcet := (o.word 9).toNat, start := now,
    ents := SEnt.many (o.fld 0x18 23 0) bs }

/-- The operands of a RUN are well formed (R175, R177). -/
structure Op.RunFormat (o : Op) : Prop where
  aligned : o.addr 0x10 % 32 = 0
  entries : o.fld 0x18 31 24 = 0 ∧ o.fld 0x18 23 0 ≠ 0
  mapId : o.fld 0x1C 31 16 = 0
  cycles : (o.word 8).toNat ≤ (o.word 9).toNat
  rest : (o.words.drop 10).all (fun w => w == 0#32) = true

/-- A RUN that a free Dome takes: it stands there with the schedule's entries and the map that its ID names, and PLAN, WCET
and the cycle count show it. -/
theorem effDomeRun_takes {s u : State} {d q : Nat} {o : Op} {bs : List Byte} {slot : Nat} {m : TrainMap}
    (hs : s.Canonical) (hn : s.nextOp d q = some o) (hpick : s.pick d = some q) (ho : o.opcode = 2)
    (hfree : (s.dome d).run = none) (hearlier : s.earlierStep d o 2 = false) (htcc : s.relaxedChoice d q = false)
    (hinj : u.injArmed d 4 = false)
    (hform : o.RunFormat) (hmap : (s.dome d).maps.find? (fun m => TrainMap.id m.2 == o.fld 0x1C 15 0) = some (slot, m))
    (hstages : ∀ l, l < 15 → m.used l = true → (domeSpares d).avail s l = true)
    (hread : (s.start d q o).txRead (some (domeItag d)) (o.addr 0x10) (32 * o.fld 0x18 23 0) (some (d, q, o.index)) =
      (.ok bs, u))
    (hents : (SEnt.many (o.fld 0x18 23 0) bs).all (fun e => e.ok m) = true) :
    State.Shows (runShown d o) (u.setRun d (some (.taken q o m slot u.now bs))) (effDomeRun d q s) := by
  obtain ⟨hal, ⟨hres, hnent⟩, hid, hcyc, hrest⟩ := hform
  have hzero : (o.words.drop 10).any (fun w => w != 0#32) = false := by
    rw [List.any_eq_false]
    intro w hw
    have hw0 := List.all_eq_true.mp hrest w hw
    rw [bne, hw0]
    decide
  have hlost := no_lost_stage (S := domeSpares d) (s := s.start d q o) hstages
  have hdome : (s.start d q o).dome d = s.dome d := rfl
  have hu : Registers.wf u.regs = true :=
    (((State.txRead_kept _ _ _ _ _ (State.start_kept s _ _ _ (Kept.refl s))).of_snd hread).2.2 hs).1
  have hsome : (o.fld 0x18 23 0 == 0) = false := beq_eq_false_iff_ne.mpr hnent
  unfold effDomeRun
  simp only [State.dropDeadRun_free hfree, hn, ho, hpick, hfree, hearlier, htcc, hal, hres, hid, hsome,
    Nat.not_lt.mpr hcyc, hzero, hdome, hmap, hlost, hread, hents, hinj, ne_eq, not_true_eq_false, Option.isSome_none,
    Bool.false_eq_true, or_self, ↓reduceIte, bne_self_eq_false, decide_false, Bool.or_self, Bool.not_true,
    BitVec.ofNat_toNat, BitVec.setWidth_eq]
  have hgiven := State.shows_given (s := u.setRun d (some (.taken q o m slot u.now bs))) d o hu
  have hbub : ∀ k ∈ List.range 19, ∀ e ∈ runShown d o,
      e.1 ≠ rk d 3 (if k < 15 then 0x110 + 4 * k else 0x150 + 4 * (k - 15)) := by
    intro k _
    simp only [List.forall_mem_cons, List.not_mem_nil, false_imp_iff, implies_true, and_true, kRUNPLAN, kRUNWCET,
      kRUNCYC, rk]
    split_ifs <;> omega
  exact ((hgiven.wrs hbub _).wr (by simp [kRUNPLAN, kRUNWCET, kRUNCYC, kTRAINMAP, rk]) _).showRun
    (by simp [kRUNPLAN, kRUNWCET, kRUNCYC, kSTAT, rk]) (by simp [kRUNPLAN, kRUNWCET, kRUNCYC, kRUNSTAT, rk])

/-- Settles O14: the LOAD and the RUN pass every check of their form. -/
theorem domesTakeWork : Obligations.DomesTakeWork := by
  intro s u dome q o bs hs hn hpick
  refine ⟨fun ho hslot hal hread hform hstages hscans => congrArg Host.Outcome.next
    (effDomeLoad_takes hn hpick ho hslot hal hread hform hstages hscans), ?_⟩
  intro ho hfree hearlier htcc hinj hal hres hid hnent hcyc hrest slot m hmap hstages hread hents
  obtain ⟨⟨regs_, heq⟩, -, hrd⟩ := effDomeRun_takes hs hn hpick ho hfree hearlier htcc hinj
    ⟨hal, ⟨hres, hnent⟩, hid, hcyc, hrest⟩ hmap hstages hread hents
  simp only [runShown, List.forall_mem_cons] at hrd
  obtain ⟨hcycles, hwcet, hplan, -⟩ := hrd
  exact ⟨effDomeRun dome.toNat q.toNat s, regs_, rfl, heq, hplan, hwcet, hcycles⟩

end Sys2Proof.Machine
end

section
/-! The Archive pool: quotas, ALLOC, FREE and the ALLOCs that wait for room (R229, R230, R232). -/

namespace Sys2Proof.Machine

/-! ### Where a permitted write of a memory tier's page 1 leads -/

/-- Only the CAN channels name another domain than the region's (R666). -/
theorem State.keyPd_of_not_can (s : State) {k : Nat} (h : rkRegion k ≠ rCAN) : s.keyPd k = regionPd (rkRegion k) := by
  unfold State.keyPd
  simp only [h, false_and, ↓reduceIte]

/-- The regions below the scheduler's have no group of registers of their own. -/
theorem effBlockReg_other {r : Nat} (hr : r < rSCHED) (p o k : Nat) (t : Itag) (v : Word) (s : State) :
    effBlockReg r p o k t v s = effOtherReg r p o k t v s := by
  have hne : ∀ n, rSCHED < n → ¬r = n := fun n hn => by omega
  unfold effBlockReg
  simp only [hne rKVW (by decide), hne rAFU (by decide), hne rDRIVE (by decide), hne rWATCH (by decide),
    hne rMERID (by decide), hne rCVU (by decide), hne rPWR (by decide), hne rSEC (by decide), hne rUSB (by decide),
    hne rPCIE (by decide), hne rETH (by decide), hne rCAN (by decide), hne rLNK (by decide), ↓reduceIte]

/-- A permitted write of page 1 of one of those regions. -/
theorem State.regWrite_page1 {s : State} {i : Initiator} {r o : Nat} {v : Word} (hr : r < rSCHED) (ho : o < 4096)
    (h : s.Reaches i (rk r 1 o) v) :
    s.regWrite i (rk r 1 o) v = (effOtherReg r 1 o (rk r 1 o) i.itag v (s.touch (regionPd r))).respond .ok := by
  have hreg : rkRegion (rk r 1 o) = r := rkRegion_rk (by decide) ho
  have hpage : rkPage (rk r 1 o) = 1 := rkPage_rk (by decide) ho
  have hoff : rkOff (rk r 1 o) = o := rkOff_rk ho
  have hcan : r ≠ rCAN := Nat.ne_of_lt (hr.trans (by decide))
  rw [State.regWrite_reaches h, State.keyPd_of_not_can s (by rw [hreg]; exact hcan), hreg]
  unfold regEffect
  simp only [hreg, hpage, hoff, effBlockReg_other hr, show ¬11 ≤ 1 by decide, decide_false, Bool.and_false,
    Bool.false_eq_true, Nat.one_ne_zero, ↓reduceIte]

/-! ### PLATE_QUOTAt (R229) -/

/-- A permitted write of a quota is the pool's to take. -/
theorem quotaWrite_effect {s : State} {i : Initiator} {n : BitVec 4} {v : Word} (h : s.Reaches i (kQUOTA n.toNat) v) :
    exec (.quotaWrite i n v) s = .next ((effQuota n.toNat v i.itag (s.touch 12)).respond .ok) := by
  have hn := n.isLt
  refine congrArg Host.Outcome.next ((State.regWrite_page1 (by decide) (by omega) h).trans
    (congrArg (State.respond · .ok) ?_))
  unfold effOtherReg
  have hoff : 0x100 ≤ 0x100 + 4 * n.toNat ∧ 0x100 + 4 * n.toNat < 0x140 := by omega
  have hidx : (0x100 + 4 * n.toNat - 0x100) / 4 = n.toNat := by omega
  simp only [show ¬rPLATE < 8 by decide, hoff, hidx, and_self, ↓reduceIte]
  rfl

/-! ### ALLOC and FREE (R230, R232) -/

/-- What an ALLOC that finds room leaves. -/
theorem State.allocate_room {s w : State} {o : Obj}
    (h : State.makeRoom o.tenant true (allocLines o) (s.plate.slots.length + 1) s = (true, w)) :
    s.allocate o = some (w.mapLines o) := by
  unfold State.allocate
  rw [h]

/-- The queue's next operation is the one that the engine takes, with this opcode. -/
structure State.Takes (s : State) (q opcode : Nat) (op : Op) : Prop where
  next : s.nextOp rTRANSIT q = some op
  opcode : op.opcode = opcode
  picked : s.pick rTRANSIT = some q

section
variable {s : State} {q : Nat} {op : Op} {o : Obj} (h : s.dropDeadMoves.Takes q 4 op)
  (hobj : (s.dropDeadMoves.start rTRANSIT q op).heldObj op = some o)
  (hfree : (s.dropDeadMoves.start rTRANSIT q op).linesFree o = true)
include h hobj hfree

/-- An ALLOC above its tenant's quota concludes REJ_CAPACITY. -/
theorem effAlloc_overQuota
    (hquota : (s.dropDeadMoves.start rTRANSIT q op).fld (kQUOTA o.tenant) 14 0 <
      (s.dropDeadMoves.start rTRANSIT q op).fld (kHELD o.tenant) 14 0 + allocLines o) :
    effAlloc q s = (s.dropDeadMoves.start rTRANSIT q op).conclude rTRANSIT q op.index stREJ_CAPACITY := by
  unfold effAlloc
  simp only [h.next, h.opcode, h.picked, hobj, hfree, hquota, ne_eq, not_true_eq_false, or_self, Bool.not_true,
    Bool.false_eq_true, ↓reduceIte]

variable (hquota : (s.dropDeadMoves.start rTRANSIT q op).fld (kHELD o.tenant) 14 0 + allocLines o ≤
  (s.dropDeadMoves.start rTRANSIT q op).fld (kQUOTA o.tenant) 14 0)
include hquota

/-- An ALLOC within the quota that finds room concludes DONE. -/
theorem effAlloc_maps {w : State} (hroom : (s.dropDeadMoves.start rTRANSIT q op).allocate o = some w) :
    effAlloc q s = w.conclude rTRANSIT q op.index stDONE := by
  unfold effAlloc
  simp only [h.next, h.opcode, h.picked, hobj, hfree, hroom, Nat.not_lt.mpr hquota, ne_eq, not_true_eq_false, or_self,
    Bool.not_true, Bool.false_eq_true, ↓reduceIte]

/-- An ALLOC within the quota that finds no room waits, counted in BLK_ECNT4. -/
theorem effAlloc_waits (hroom : (s.dropDeadMoves.start rTRANSIT q op).allocate o = none) :
    effAlloc q s = ({ s.dropDeadMoves.start rTRANSIT q op with
      plate := { (s.dropDeadMoves.start rTRANSIT q op).plate with
        allocs := (s.dropDeadMoves.start rTRANSIT q op).plate.allocs ++ [HeldAlloc.mk q op.index o.handle] } } :
          State).count rPLATE 4 := by
  unfold effAlloc
  simp only [h.next, h.opcode, h.picked, hobj, hfree, hroom, Nat.not_lt.mpr hquota, ne_eq, not_true_eq_false, or_self,
    Bool.not_true, Bool.false_eq_true, ↓reduceIte]

end

/-- The oldest waiting ALLOC that now finds room concludes DONE and waits no longer (R232). -/
theorem effAllocResume_maps {s w : State} {h : HeldAlloc} {rest : List HeldAlloc} {op : Op} {o : Obj}
    (hq : s.dropDeadMoves.plate.allocs = h :: rest) (hop : s.dropDeadMoves.findOp rTRANSIT h.queue h.index = some op)
    (hst : op.status = none) (hobj : s.dropDeadMoves.objEntry h.handle = some o)
    (hroom : s.dropDeadMoves.allocate o = some w) :
    effAllocResume s = ({ w with plate := { w.plate with allocs := rest } } : State).conclude rTRANSIT h.queue h.index
      stDONE := by
  unfold effAllocResume
  simp only [hq, hop, hst, hobj, hroom, Option.isSome_none, Bool.false_eq_true, ↓reduceIte]

/-- The Archive lines that an object holds. -/
def State.linesOf (s : State) (o : Obj) : Nat := (s.plate.lines.filter (fun e => e.2 == o.handle + 1)).length

/-- The state without an object's Archive lines: they are unmapped and free, and its tenant holds them no longer. -/
def State.unmapLines (s : State) (o : Obj) : State :=
  let u : State := { s with plate := { s.plate with lines := s.plate.lines.filter (fun e => e.2 != o.handle + 1) } }
  ((u.giveLines o.tenant (s.linesOf o)).setFld (kHELD o.tenant) 14 0 (s.fld (kHELD o.tenant) 14 0 - s.linesOf o)).setRes
    o.handle false

/-- A FREE of a held object unmaps its lines and concludes DONE. -/
theorem effFree_unmaps {s : State} {q : Nat} {op : Op} {o : Obj} (h : s.Takes q 5 op)
    (hobj : (s.start rTRANSIT q op).heldObj op = some o) :
    effFree q s = ((s.start rTRANSIT q op).unmapLines o).conclude rTRANSIT q op.index stDONE := by
  unfold effFree
  simp only [h.next, h.opcode, h.picked, hobj, ne_eq, not_true_eq_false, or_self, ↓reduceIte]
  rfl

section
variable (s : State) (h k hi lo : Nat) (b : Bool)

@[simp] theorem State.setRes_rd : (s.setRes h b).rd k = s.rd k := rfl
@[simp] theorem State.setRes_fld : (s.setRes h b).fld k hi lo = s.fld k hi lo := rfl

end

section
variable (s : State) (o : Obj)

/-- Beside registers and the line map, unmapping clears the object's RES bit and nothing else. -/
theorem State.unmapLines_eq : ∃ regs_, s.unmapLines o =
    ({ s with
        regs := regs_,
        plate := { s.plate with lines := s.plate.lines.filter (fun e => e.2 != o.handle + 1) } } : State).setRes
      o.handle false := by
  unfold State.unmapLines State.giveLines
  exact ⟨_, rfl⟩

/-- Unmapping changes the tenant's lines in use and held and the free count, and no other register. -/
theorem State.rd_unmapLines {k : Nat} (hk : k ∉ [kUSE o.tenant, kPFREE, kHELD o.tenant]) :
    (s.unmapLines o).rd k = s.rd k := by
  simp only [List.mem_cons, List.not_mem_nil, or_false, not_or] at hk
  obtain ⟨huse, hpfree, hheld⟩ := hk
  unfold State.unmapLines State.giveLines
  rw [State.setRes_rd, State.rd_setFld_ne _ _ _ _ hheld, State.rd_setFld_ne _ _ _ _ hpfree,
    State.rd_setFld_ne _ _ _ _ huse]
  rfl

variable {s o}

/-- The tenant holds the object's lines no longer. -/
theorem State.unmapLines_held (hs : Registers.wf s.regs = true) :
    (s.unmapLines o).fld (kHELD o.tenant) 14 0 = (s.fld (kHELD o.tenant) 14 0 - s.linesOf o) % 2 ^ 15 := by
  unfold State.unmapLines State.giveLines
  rw [State.setRes_fld]
  exact State.fld_setFld_self _ _ 14 0 _ (by decide) (by decide) (State.wf_setFld _ _ _ _ _ (State.wf_setFld _ _ _ _ _ hs))

end

/-- Settles O19: the quota's two cases, the three ends of an ALLOC, the oldest one's second attempt, and what a FREE
leaves. -/
theorem archivePool : Obligations.ArchivePool := by
  intro s
  refine ⟨fun i n v hr => ?_, ?_, fun h rest op o w hq hop hst hobj hroom => congrArg Host.Outcome.next
    (effAllocResume_maps hq hop hst hobj hroom), ?_⟩
  · rw [quotaWrite_effect hr]
    unfold effQuota
    simp only [State.touch_fld]
    exact ⟨fun hsum hheld => by rw [if_neg (by omega)], fun hbad => by rw [if_pos hbad]⟩
  · rintro q u op o hn hop hp rfl hobj hfree
    have h : s.dropDeadMoves.Takes q.toNat 4 op := ⟨hn, hop, hp⟩
    exact ⟨fun hquota => congrArg Host.Outcome.next (effAlloc_overQuota h hobj hfree hquota), fun hquota =>
      ⟨fun w hroom => congrArg Host.Outcome.next (effAlloc_maps h hobj hfree hquota (State.allocate_room hroom)),
        fun hfull => congrArg Host.Outcome.next (effAlloc_waits h hobj hfree hquota hfull)⟩⟩
  · rintro q u op o mine hn hop hp rfl hobj rfl
    obtain ⟨regs_, ht⟩ := State.unmapLines_eq (s.start rTRANSIT q.toNat op) o
    exact ⟨_, regs_, congrArg Host.Outcome.next (effFree_unmaps ⟨hn, hop, hp⟩ hobj), ht, fun hs _ =>
      ⟨State.unmapLines_held hs.1, fun k hk => State.rd_unmapLines _ o hk⟩⟩

end Sys2Proof.Machine
end

section
/-! The Transit Engine's commands (R228, R237, R238, R241, R242). -/

namespace Sys2Proof.Machine

/-- No tile has been copied before tile 0. -/
theorem State.movedBefore_zero (s : State) (a : MoveArgs) (y : Obj) (m : MoveAcc) :
    s.movedBefore a y 0 m = m := rfl

/-- A MOVE whose tiles all pass their checks and are all copied concludes DONE with its RESULT (R243). -/
theorem State.runMove_done {s w z : State} {q j jc jt : Nat} {op : Op} {x y : Obj} {mc mt : MoveAcc}
    {again : Option Nat} (hx : s.validObj op.move.src [0, 1, 2, 3, 4] = some x)
    (hy : s.validObj op.move.dst [0, 1, 2, 3, 4] = some y)
    (hchecks : State.moveChecks q op.index (s.queue rTRANSIT q).itag op.move x y (op.move.count - j) j
      (s.movedBefore op.move y j (accFlags op.result)) s = (.ok, jc, mc, w))
    (htiles : State.moveTiles q op.index (s.queue rTRANSIT q).itag op.move x y (op.move.count - j) j
      (s.movedBefore op.move y j (accFlags op.result)) w = (.ok, jt, mt, z)) :
    s.runMove q op j again = z.conclude rTRANSIT q op.index stDONE
      ({ mt with tiles := op.move.count } : MoveAcc).result 0 false again.isSome := by
  unfold State.runMove
  simp only [hx, hy, hchecks, htiles]

/-- The operation that the engine takes is a MOVE, and neither a full pool nor an earlier step of its job holds it (R238,
R242). -/
structure State.TakesMove (s : State) (q : Nat) (op : Op) : Prop extends s.Takes q 1 op where
  goesOn : s.plate.stalled = false
  stepDue : s.stepBlocked op = false

section
variable {s : State} {q : Nat} {op : Op} (h : s.dropDeadMoves.TakesMove q op)
include h

/-- A MOVE without room for its tiles stalls the pool, counted in BLK_ECNT5 (R238). -/
theorem effTransitMove_stalls (hfull : 16384 < s.dropDeadMoves.fld kINFLIGHT 14 0 + op.move.count)
    (hc : op.move.count ≤ 256) :
    effTransitMove q s =
      ({ s.dropDeadMoves with plate := { s.dropDeadMoves.plate with stalled := true } } : State).count rTRANSIT 5 := by
  unfold effTransitMove
  simp only [h.next, h.opcode, h.picked, h.goesOn, h.stepDue, hfull, hc, ne_eq, not_true_eq_false, Bool.false_eq_true,
    or_self, and_self, ↓reduceIte]

/-- A well-formed MOVE with room in the pool starts, takes its place in the pool and is carried out from tile 0. -/
theorem effTransitMove_runs {x y : Obj} (hc1 : 1 ≤ op.move.count) (hc : op.move.count ≤ 256)
    (hroom : s.dropDeadMoves.fld kINFLIGHT 14 0 + op.move.count ≤ 16384)
    (hrelaxed : s.dropDeadMoves.relaxedChoice rTRANSIT q = false)
    (hx : (s.dropDeadMoves.start rTRANSIT q op).validObj op.move.src [0, 1, 2, 3, 4] = some x)
    (hy : (s.dropDeadMoves.start rTRANSIT q op).validObj op.move.dst [0, 1, 2, 3, 4] = some y)
    (hform : moveFormatOk op.move op x y = true) :
    effTransitMove q s =
      (((s.dropDeadMoves.start rTRANSIT q op).addInflight op.move.count).mapOp rTRANSIT q op.index
        (fun o => { o with tiles := op.move.count })).runMove q { op with tiles := op.move.count } 0 none := by
  unfold effTransitMove
  simp only [h.next, h.opcode, h.picked, h.goesOn, h.stepDue, Nat.not_lt.mpr hroom, Nat.not_lt.mpr hc,
    Nat.one_le_iff_ne_zero.mp hc1, hrelaxed, hx, hy, hform, ne_eq, not_true_eq_false, Bool.false_eq_true, or_self,
    false_and, ↓reduceIte]

end

/-- A NOP with no earlier step of its job outstanding concludes DONE (R241, R242). -/
theorem effTransitNop_done {s : State} {q : Nat} {op : Op} (h : s.Takes q 3 op) (hb : s.stepBlocked op = false) :
    effTransitNop q s = (s.start rTRANSIT q op).conclude rTRANSIT q op.index stDONE := by
  unfold effTransitNop
  simp only [h.next, h.opcode, h.picked, hb, ne_eq, not_true_eq_false, Bool.false_eq_true, or_self, ↓reduceIte]

/-- A MOVE whose re-read is due runs on from the tile that its RESULT saved (R228). -/
theorem effReread_due {s : State} {q due k : Nat} {op : Op}
    (hf : (s.queue rTRANSIT q).ops.find? (fun o => o.reread.isSome && o.status.isNone) = some op)
    (hr : op.reread = some (due, k)) (hdue : due ≤ s.now) :
    effReread q s = (s.mapOp rTRANSIT q op.index (fun o => { o with reread := none })).runMove q op
      (bitsOf op.result.toNat 40 32) (some k) := by
  unfold effReread
  simp only [hf, hr, Nat.not_lt.mpr hdue, ↓reduceIte]

/-- Releases go on once the next MOVE has room in the pool (R238). -/
theorem effPoolResume_room {s : State} {q : Nat} {op : Op} (hp : s.dropDeadMoves.pick rTRANSIT = some q)
    (hn : s.dropDeadMoves.nextOp rTRANSIT q = some op)
    (hroom : s.dropDeadMoves.fld kINFLIGHT 14 0 + op.move.count ≤ 16384) :
    effPoolResume s = { s.dropDeadMoves with plate := { s.dropDeadMoves.plate with stalled := false } } := by
  unfold effPoolResume
  simp only [hp, hn, hroom, ↓reduceIte]

/-- Settles O20: the checks and the copies of a MOVE are those of its run from tile 0, before which nothing was copied. -/
theorem transitMoves : Obligations.TransitMoves := by
  intro s q op
  refine ⟨?_, fun hn ho hp hb => congrArg Host.Outcome.next (effTransitNop_done ⟨hn, ho, hp⟩ hb),
    fun due k hf hr hdue => congrArg Host.Outcome.next (effReread_due hf hr hdue),
    fun hp hn hroom => congrArg Host.Outcome.next (effPoolResume_room hp hn hroom)⟩
  intro x y u v w z j k m m' hn ho hp hs hb hc1 hc
  have hmove : s.dropDeadMoves.TakesMove q.toNat op := ⟨⟨hn, ho, hp⟩, hs, hb⟩
  refine ⟨?_, fun hfull => congrArg Host.Outcome.next (effTransitMove_stalls hmove hfull hc)⟩
  rintro hroom hrelaxed rfl hx hy hform rfl hxv hyv hchecks htiles
  exact congrArg Host.Outcome.next ((effTransitMove_runs hmove hc1 hc hroom hrelaxed hx hy hform).trans
    (State.runMove_done (op := { op with tiles := op.move.count }) hxv hyv
      (by rw [State.movedBefore_zero]; exact hchecks) (by rw [State.movedBefore_zero]; exact htiles)))

end Sys2Proof.Machine
end

section
/-! The health of HBM pseudo-channels: SUSPECT, GOOD and LOST, patrol scrub and thermal alert (R221, R223, R227, R248,
R531). -/

namespace Sys2Proof.Machine

/-! ### Which registers events and counts leave alone -/

/-- A field reads the same where its register does. -/
theorem State.fld_of_rd {s t : State} {k : Nat} (h : t.rd k = s.rd k) (hi lo : Nat) : t.fld k hi lo = s.fld k hi lo :=
  congrArg (fieldOf · hi lo) h

/-- No event is recorded on page 1 of a block. -/
theorem page1_not_mem_eventKeys {r r' o : Nat} (ho : o < 4096) (hr : r' < 40) : rk r 1 o ∉ eventKeys r' := by
  simp only [eventKeys, kESTAT, kEFIRST, rk, rWATCH, List.mem_cons, List.not_mem_nil, or_false]
  omega

/-- No event is counted on page 1 of a block. -/
theorem page1_not_mem_countKeys {r r' o k : Nat} (ho : o < 4096) (hr : r' < 40) (hk : k < 8) :
    rk r 1 o ∉ countKeys r' k := by
  simp only [countKeys, kECNT, rk, rWATCH, List.mem_cons, List.not_mem_nil, or_false]
  omega

/-- BLK_ECNTj records no event. -/
theorem kECNT_not_mem_eventKeys {r r' j : Nat} (hr : r' < 40) (hj : j < 8) : kECNT r j ∉ eventKeys r' := by
  simp only [eventKeys, kECNT, kESTAT, kEFIRST, rk, rWATCH, List.mem_cons, List.not_mem_nil, or_false]
  omega

/-- BLK_ECNTj does not count the events of BLK_ECNTk. -/
theorem kECNT_not_mem_countKeys {r j k : Nat} (hj : j < 8) (hk : k < 8) (h : j ≠ k) :
    kECNT r j ∉ countKeys r k := by
  simp only [countKeys, kECNT, rk, rWATCH, List.mem_cons, List.not_mem_nil, or_false]
  omega

/-- BLK_ESTAT counts nothing. -/
theorem kESTAT_not_mem_countKeys {r k : Nat} (hk : k < 8) : kESTAT r ∉ countKeys r k := by
  simp only [countKeys, kECNT, kESTAT, rk, rWATCH, List.mem_cons, List.not_mem_nil, or_false]
  omega

/-- A record of an event without a flag changes no register outside the Night Watch. -/
theorem State.rd_eventRecord (s : State) {r j : Nat} (ecnt : Nat) (e : Ev) (hr : r < 40) (hj : rkRegion j ≠ rWATCH) :
    (s.eventRecord r ecnt e).rd j = s.rd j := by
  have hne : ∀ {p o : Nat}, p < 16 → o < 4096 → j ≠ rk rWATCH p o := fun hp ho h => hj (h ▸ rkRegion_rk hp ho)
  exact State.rd_report s _ (hne (by decide) (by dsimp only; omega)) (hne (by decide) (by decide))
    (hne (by decide) (by dsimp only; omega))

section
variable (s : State) (r ecnt : Nat) (e : Ev)

@[simp] theorem State.eventRecord_mem : (s.eventRecord r ecnt e).mem = s.mem := by
  unfold State.eventRecord
  rw [State.report_mem]

@[simp] theorem State.eventRecord_plate : (s.eventRecord r ecnt e).plate = s.plate := by
  unfold State.eventRecord
  rw [State.report_plate]

@[simp] theorem State.postCause_rd (num : Nat) (island : Bool) (act : Option Nat) (inj : Bool) (k : Nat) :
    (s.postCause num island act inj).rd k = s.rd k := rfl

end

/-! ### The state of a pseudo-channel (R218, R223) -/

/-- The block of a pseudo-channel's stack is not the Night Watch. -/
theorem stack_region {pc : Nat} (hpc : pc < 192) : rHBM0 + pc / 32 < 40 ∧ rHBM0 + pc / 32 ≠ rWATCH := by
  simp only [rHBM0, rWATCH]
  omega

theorem rkRegion_kPcState (pc : Nat) : rkRegion (kPcState pc) = rHBM0 + pc / 32 := rkRegion_rk (by decide) (by omega)

section
variable (s : State) (pc : Nat)

theorem State.pcState_count {r k : Nat} (n : Nat) (hr : r < 40) (hk : k < 8) : (s.count r k n).pcState pc = s.pcState pc :=
  State.fld_of_rd (State.rd_count _ _ _ _ (page1_not_mem_countKeys (by omega) hr hk)) _ _

theorem State.pcState_raise {r : Nat} (b : Nat) (e : Ev) (hr : r < 40) : (s.raise r b e).pcState pc = s.pcState pc :=
  State.fld_of_rd (State.rd_raise _ _ _ _ (page1_not_mem_eventKeys (by omega) hr)) _ _

theorem State.pcState_setPcState {v : Nat} (hs : Registers.wf s.regs = true) (hv : v < 4) :
    (s.setPcState pc v).pcState pc = v := by
  have hwidth : 2 * (pc % 16) + 1 + 1 - 2 * (pc % 16) = 2 := by omega
  exact (State.fld_setFld_self _ _ _ _ _ (by omega) (by omega) hs).trans
    ((congrArg (fun n => v % 2 ^ n) hwidth).trans (Nat.mod_eq_of_lt hv))

@[simp] theorem State.setSuspect_rd (t : Option Nat) (k : Nat) : (s.setSuspect pc t).rd k = s.rd k := rfl
@[simp] theorem State.setSuspect_pcState (t : Option Nat) (p : Nat) : (s.setSuspect pc t).pcState p = s.pcState p := rfl
@[simp] theorem State.setSuspect_mem (t : Option Nat) : (s.setSuspect pc t).mem = s.mem := rfl
@[simp] theorem State.setSuspect_suspectAt (t : Option Nat) : (s.setSuspect pc t).plate.suspectAt =
    Sparse.set (fun _ => none) s.plate.suspectAt pc t := rfl

end

/-- A pseudo-channel enters SUSPECT or LOST: its stack counts it in BLK_ECNTk and records it. -/
def State.pcEnters (s : State) (pc st k : Nat) : State :=
  ((s.setPcState pc st).count (rHBM0 + pc / 32) k).eventRecord (rHBM0 + pc / 32) k
    { detail := BitVec.ofNat 64 (pc % 32) }

section
variable {s : State} {pc st k : Nat}

@[simp] theorem State.pcEnters_mem : (s.pcEnters pc st k).mem = s.mem := by
  unfold State.pcEnters State.setPcState
  rw [State.eventRecord_mem, State.count_mem, State.setFld_mem]

@[simp] theorem State.pcEnters_plate : (s.pcEnters pc st k).plate = s.plate := by
  unfold State.pcEnters State.setPcState
  rw [State.eventRecord_plate, State.count_plate, State.setFld_plate]

variable (hpc : pc < 192)
include hpc

/-- Outside the Night Watch only the pseudo-channel's state and the count change. -/
theorem State.rd_pcEnters {j : Nat} (hj : rkRegion j ≠ rWATCH) (hstate : j ≠ kPcState pc)
    (hcount : j ∉ countKeys (rHBM0 + pc / 32) k) : (s.pcEnters pc st k).rd j = s.rd j := by
  have hr := (stack_region hpc).1
  unfold State.pcEnters
  rw [State.rd_eventRecord _ _ _ hr hj, State.rd_count _ _ _ _ hcount]
  exact State.rd_setFld_ne _ _ _ _ hstate

variable (hs : Registers.wf s.regs = true)
include hs

theorem State.pcEnters_pcState (hst : st < 4) (hk : k < 8) : (s.pcEnters pc st k).pcState pc = st := by
  obtain ⟨hr, hw⟩ := stack_region hpc
  have hreg : rkRegion (kPcState pc) ≠ rWATCH := by rw [rkRegion_kPcState]; exact hw
  calc (s.pcEnters pc st k).pcState pc
      = ((s.setPcState pc st).count (rHBM0 + pc / 32) k).pcState pc :=
        State.fld_of_rd (State.rd_eventRecord _ _ _ hr hreg) _ _
    _ = (s.setPcState pc st).pcState pc := State.pcState_count _ _ _ hr hk
    _ = st := State.pcState_setPcState _ _ hs hst

theorem State.pcEnters_ecnt (hk : k < 8) : (s.pcEnters pc st k).fld (kECNT (rHBM0 + pc / 32) k) 15 0 =
    satAdd 0xFFFF (s.fld (kECNT (rHBM0 + pc / 32) k) 15 0) 1 := by
  obtain ⟨hr, hw⟩ := stack_region hpc
  have hreg : rkRegion (kECNT (rHBM0 + pc / 32) k) ≠ rWATCH := by
    rw [kECNT, rkRegion_rk (by decide) (by omega)]; exact hw
  have hne : kECNT (rHBM0 + pc / 32) k ≠ kPcState pc := by unfold kECNT kPcState rk; omega
  calc (s.pcEnters pc st k).fld (kECNT (rHBM0 + pc / 32) k) 15 0
      = ((s.setPcState pc st).count (rHBM0 + pc / 32) k).fld (kECNT (rHBM0 + pc / 32) k) 15 0 :=
        State.fld_of_rd (State.rd_eventRecord _ _ _ hr hreg) _ _
    _ = satAdd 0xFFFF ((s.setPcState pc st).fld (kECNT (rHBM0 + pc / 32) k) 15 0) 1 :=
        State.fld_count _ _ _ _ hr (State.wf_setFld _ _ _ _ _ hs)
    _ = _ := congrArg (satAdd 0xFFFF · 1) (State.fld_of_rd (State.rd_setFld_ne _ _ _ _ hne) _ _)

end

/-! ### Read-around, breach and expiry (R221, R223) -/

/-- A read-around counts where a MOVE on P2 data is at work and the pseudo-channel is not LOST. -/
theorem effReadAround_counts {s : State} {pc : Nat}
    (hbusy : ∃ e ∈ s.queues, e.1 / 4096 = rTRANSIT ∧ ∃ o ∈ e.2.ops, o.opcode = 1 ∧ o.started = true ∧ o.status = none ∧
      ∃ x, s.objEntry o.move.src = some x ∧ x.cls = 2) (hlive : s.pcState pc ≠ 2) :
    effReadAround pc s = s.readAround pc := by
  obtain ⟨e, he, hregion, o, ho, hop, hstarted, hstatus, x, hx, hcls⟩ := hbusy
  unfold effReadAround
  rw [if_pos]
  refine ⟨List.any_eq_true.mpr ⟨e, he, ?_⟩, hlive⟩
  rw [Bool.and_eq_true, beq_iff_eq, List.any_eq_true]
  refine ⟨hregion, o, ho, ?_⟩
  simp only [hop, hstarted, hstatus, hx, hcls, Option.isNone_none, BEq.rfl, Bool.and_self]

/-- More corrected errors in a second than CETHR: counted, flagged, and the time of the breach noted. -/
def State.ceBreach (s : State) (pc n : Nat) : State :=
  ((s.count (rHBM0 + pc / 32) 0 n).raise (rHBM0 + pc / 32) 1 { detail := BitVec.ofNat 64 (pc % 32) }).setSuspect pc
    (some s.now)

section
variable {s : State} {pc n : Nat}

@[simp] theorem State.ceBreach_mem : (s.ceBreach pc n).mem = s.mem := State.raise_mem _ _ _ _
@[simp] theorem State.ceBreach_suspectAt : (s.ceBreach pc n).plate.suspectAt =
    Sparse.set (fun _ => none) s.plate.suspectAt pc (some s.now) := by
  unfold State.ceBreach
  rw [State.setSuspect_suspectAt, State.raise_plate, State.count_plate]

theorem State.ceBreach_canonical (hs : s.Canonical) : (s.ceBreach pc n).Canonical :=
  (State.setSuspect_kept _ _ _ (State.raise_kept _ _ _ _ (State.count_kept _ _ _ _ (Kept.refl s)))).2.2 hs

theorem State.ceBreach_flag (hs : Registers.wf s.regs = true) :
    (s.ceBreach pc n).flag (kESTAT (rHBM0 + pc / 32)) 1 = true :=
  State.raise_flag _ _ _ _ (by decide) (State.wf_count _ _ _ _ hs)

variable (hpc : pc < 192)
include hpc

theorem State.ceBreach_pcState : (s.ceBreach pc n).pcState pc = s.pcState pc := by
  have hr := (stack_region hpc).1
  unfold State.ceBreach
  rw [State.setSuspect_pcState, State.pcState_raise _ _ _ _ hr, State.pcState_count _ _ _ hr (by decide)]

/-- A breach of a GOOD pseudo-channel makes it SUSPECT. -/
theorem effPcThreshold_breach (hn : s.fld (rk (rHBM0 + pc / 32) 1 0x108) 15 0 < n) (hgood : s.pcState pc = 0) :
    effPcThreshold pc n s = (s.ceBreach pc n).pcEnters pc 1 2 := by
  have hstill : (s.ceBreach pc n).pcState pc = 0 := (State.ceBreach_pcState hpc).trans hgood
  have hnow : ((s.count (rHBM0 + pc / 32) 0 n).raise (rHBM0 + pc / 32) 1 { detail := BitVec.ofNat 64 (pc % 32) }).now =
      s.now := (State.raise_now _ _ _ _).trans (State.count_now _ _ _ _)
  unfold effPcThreshold
  dsimp only
  rw [if_pos ⟨hn, by rw [hgood]; decide⟩, hnow]
  exact if_pos hstill

/-- A breach counts nothing but its errors, in BLK_ECNT0. -/
theorem State.ceBreach_ecnt {j : Nat} (hj : j < 8) (hj0 : j ≠ 0) : (s.ceBreach pc n).fld (kECNT (rHBM0 + pc / 32) j) 15 0 =
    s.fld (kECNT (rHBM0 + pc / 32) j) 15 0 :=
  State.fld_of_rd ((State.rd_raise _ _ _ _ (kECNT_not_mem_eventKeys (stack_region hpc).1 hj)).trans
    (State.rd_count _ _ _ _ (kECNT_not_mem_countKeys hj (by decide) hj0))) _ _

variable (hs : Registers.wf s.regs = true)
include hs

/-- The flag of the breach stands when the pseudo-channel is SUSPECT. -/
theorem State.breach_flag : ((s.ceBreach pc n).pcEnters pc 1 2).flag (kESTAT (rHBM0 + pc / 32)) 1 = true := by
  have hreg : rkRegion (kESTAT (rHBM0 + pc / 32)) ≠ rWATCH := by
    rw [kESTAT, rkRegion_rk (by decide) (by decide)]; exact (stack_region hpc).2
  have hrd := State.rd_pcEnters (s := s.ceBreach pc n) (st := 1) hpc hreg (by unfold kESTAT kPcState rk; omega)
    (kESTAT_not_mem_countKeys (k := 2) (by decide))
  exact (congrArg (flagOf · 1) hrd).trans (State.ceBreach_flag hs)

/-- The errors of the breach stand counted when the pseudo-channel is SUSPECT. -/
theorem State.breach_ecnt0 : ((s.ceBreach pc n).pcEnters pc 1 2).fld (kECNT (rHBM0 + pc / 32) 0) 15 0 =
    satAdd 0xFFFF (s.fld (kECNT (rHBM0 + pc / 32) 0) 15 0) n := by
  obtain ⟨hr, hw⟩ := stack_region hpc
  have hreg : rkRegion (kECNT (rHBM0 + pc / 32) 0) ≠ rWATCH := by
    rw [kECNT, rkRegion_rk (by decide) (by decide)]; exact hw
  calc ((s.ceBreach pc n).pcEnters pc 1 2).fld (kECNT (rHBM0 + pc / 32) 0) 15 0
      = (s.ceBreach pc n).fld (kECNT (rHBM0 + pc / 32) 0) 15 0 :=
        State.fld_of_rd (State.rd_pcEnters hpc hreg (by unfold kECNT kPcState rk; omega)
          (kECNT_not_mem_countKeys (by decide) (by decide) (by decide))) _ _
    _ = (s.count (rHBM0 + pc / 32) 0 n).fld (kECNT (rHBM0 + pc / 32) 0) 15 0 :=
        State.fld_of_rd (State.rd_raise _ _ _ _ (kECNT_not_mem_eventKeys hr (by decide))) _ _
    _ = _ := State.fld_count _ _ _ _ hr hs

end

/-- 60 s after its last breach a SUSPECT pseudo-channel is GOOD again. -/
theorem effPcExpiry_due {s : State} {pc t0 : Nat} (h0 : Sparse.get (fun _ => none) s.plate.suspectAt pc = some t0)
    (hst : s.pcState pc = 1) (hdue : 60000000000 + t0 ≤ s.now) :
    effPcExpiry pc s = (s.setPcState pc 0).setSuspect pc none := by
  unfold effPcExpiry
  simp only [h0, hst, hdue, and_self, ↓reduceIte]

/-! ### Loss, and the RETIRE command (R223, R251) -/

section
variable {s : State} {pc : Nat} (hlive : s.pcState pc ≠ 2) (hpc : pc < 192)
include hlive hpc

/-- A pseudo-channel that is not LOST yet enters LOST; the second loss of its group counts and is the cause MEMFAIL. -/
theorem State.losePc_eq : s.losePc pc =
    if ((s.pcEnters pc 2 3).setSuspect pc none).lostMembers (pc % 12) = 2 then
      (((s.pcEnters pc 2 3).setSuspect pc none).count (rHBM0 + pc / 32) 4).postCause 7 false
    else (s.pcEnters pc 2 3).setSuspect pc none := by
  unfold State.losePc
  exact if_neg (by omega)

theorem State.losePc_mem : (s.losePc pc).mem = s.mem := by
  rw [State.losePc_eq hlive hpc]
  split <;> simp only [State.postCause_mem, State.count_mem, State.setSuspect_mem, State.pcEnters_mem]

/-- A group's failure shows in its own count alone. -/
theorem State.rd_losePc {j : Nat} (hj : j ∉ countKeys (rHBM0 + pc / 32) 4) :
    (s.losePc pc).rd j = (s.pcEnters pc 2 3).rd j := by
  rw [State.losePc_eq hlive hpc]
  split
  · rw [State.postCause_rd, State.rd_count _ _ _ _ hj, State.setSuspect_rd]
  · rw [State.setSuspect_rd]

variable (hs : Registers.wf s.regs = true)
include hs

theorem State.losePc_pcState : (s.losePc pc).pcState pc = 2 := by
  have hr := (stack_region hpc).1
  exact (State.fld_of_rd (State.rd_losePc hlive hpc (page1_not_mem_countKeys (by omega) hr (by decide))) _ _).trans
    (State.pcEnters_pcState hpc hs (by decide) (by decide))

theorem State.losePc_ecnt : (s.losePc pc).fld (kECNT (rHBM0 + pc / 32) 3) 15 0 =
    satAdd 0xFFFF (s.fld (kECNT (rHBM0 + pc / 32) 3) 15 0) 1 := by
  have hr := (stack_region hpc).1
  exact (State.fld_of_rd (State.rd_losePc hlive hpc
    (kECNT_not_mem_countKeys (by decide) (by decide) (by decide))) _ _).trans (State.pcEnters_ecnt hpc hs (by decide))

end

/-- HBMn_PCCMD. -/
def kPCCMD (n : Nat) : Nat := rk (rHBM0 + n) 1 0x10C

/-- A permitted write of HBMn_PCCMD is the stack's to take. -/
theorem State.regWrite_kPCCMD {s : State} {i : Initiator} {n : Nat} {v : Word} (hn : n < 6) (h : s.Reaches i (kPCCMD n) v) :
    s.regWrite i (kPCCMD n) v = (effPcCmd n v (s.touch (regionPd (rHBM0 + n)))).respond .ok := by
  refine (State.regWrite_page1 (by simp only [rHBM0, rSCHED]; omega) (by decide) h).trans
    (congrArg (State.respond · .ok) ?_)
  have hdome : ¬rHBM0 + n < 8 := by simp only [rHBM0]; omega
  have hplate : ¬rHBM0 + n = rPLATE := by simp only [rHBM0, rPLATE]; omega
  have hstack : rHBM0 ≤ rHBM0 + n ∧ rHBM0 + n < rHBM0 + 6 := by omega
  unfold effOtherReg
  simp only [hdome, hplate, hstack, and_self, Nat.add_sub_cancel_left, ↓reduceIte]

/-- The word of a RETIRE names the pseudo-channel that the rest of the word names. -/
theorem retireWord_fields (v : Word) :
    fieldOf (withField v 6 5 1) 6 5 = 1 ∧ fieldOf (withField v 6 5 1) 4 0 = fieldOf v 4 0 :=
  ⟨fieldOf_withField _ _ _ _ (by decide) (by decide),
    fieldOf_withField_ne _ _ _ _ _ _ (by decide) (by decide) (by decide) (.inr (by decide))⟩

/-- The state in which a permitted write of HBMn_PCCMD has selected pseudo-channel `c` of its stack. -/
def State.pcSelected (s : State) (n c : Nat) : State := (s.touch (regionPd (rHBM0 + n))).setFld (kPCCMD n) 4 0 c

section
variable (s : State) (n c : Nat)

@[simp] theorem State.pcSelected_mem : (s.pcSelected n c).mem = s.mem := State.touch_mem _ _

/-- The selection shows in HBMn_PCCMD alone. -/
theorem State.rd_pcSelected {j : Nat} (hj : j ≠ kPCCMD n) : (s.pcSelected n c).rd j = s.rd j :=
  (State.rd_setFld_ne _ _ _ _ hj).trans (State.touch_rd _ _ _)

theorem State.pcSelected_pcState (pc : Nat) : (s.pcSelected n c).pcState pc = s.pcState pc :=
  State.fld_of_rd (State.rd_pcSelected s n c (by unfold kPcState kPCCMD rk; omega)) _ _

theorem State.pcSelected_wf (hs : Registers.wf s.regs = true) : Registers.wf (s.pcSelected n c).regs = true :=
  State.wf_setFld _ _ _ _ _ (by rw [State.touch_regs]; exact hs)

end

/-- A permitted RETIRE of a pseudo-channel that is not LOST makes it LOST. -/
theorem pcRetireCmd_loses {s : State} {i : Initiator} {stack : BitVec 3} {v : Word} (hn : stack.toNat < 6)
    (hr : s.Reaches i (kPCCMD stack.toNat) (withField v 6 5 1)) :
    exec (.pcRetireCmd i stack v) s = .next
      (((s.pcSelected stack.toNat (fieldOf v 4 0)).losePc (32 * stack.toNat + fieldOf v 4 0)).respond .ok) := by
  obtain ⟨hcmd, hsel⟩ := retireWord_fields v
  have hexec : exec (.pcRetireCmd i stack v) s = .next (s.regWrite i (kPCCMD stack.toNat) (withField v 6 5 1)) :=
    if_neg (Nat.not_le.mpr hn)
  rw [hexec, State.regWrite_kPCCMD hn hr]
  unfold effPcCmd
  simp only [hcmd, hsel, ↓reduceIte]
  rfl

/-! ### Patrol scrub (R227, R531) -/

/-- The patrol scrub reaches the data of every pseudo-channel of a stack. -/
theorem patrolInRange_stack {mem a : Nat} (hmem : mem < 6) (hpc : a / 2 ^ 30 < 32) (hoff : a % 2 ^ 30 < 0x30000000) :
    patrolInRange mem (some a) = true :=
  (if_pos hmem).trans (by rw [decide_eq_true hpc, decide_eq_true hoff, Bool.and_self])

section
variable {s : State} {mem : Nat}

/-- Errors that the patrol scrub corrects are counted and flagged. -/
theorem effPatrol_corrects {n : Nat} (hup : s.pdDown (regionPd (if mem < 6 then rHBM0 + mem else rLPDDR)) = false)
    (hn : n ≠ 0) : effPatrol mem n none s =
      (s.count (if mem < 6 then rHBM0 + mem else rLPDDR) 0 n).raise (if mem < 6 then rHBM0 + mem else rLPDDR) 1 := by
  unfold effPatrol
  simp only [hup, hn, Bool.false_eq_true, ↓reduceIte]

/-- An uncorrectable code word that the patrol scrub meets on a GOOD pseudo-channel is marked, counted and flagged. -/
theorem effPatrol_marks {a : Nat} (hmem : mem < 6) (hup : s.pdDown (regionPd (rHBM0 + mem)) = false)
    (hgood : s.pcState (32 * mem + a / 2 ^ 30) = 0)
    (hnew : wordStart (hbmKey (32 * mem + a / 2 ^ 30) (a % 2 ^ 30)) ∉ s.badWords) :
    effPatrol mem 0 (some a) s =
      (({ s with badWords := wordStart (hbmKey (32 * mem + a / 2 ^ 30) (a % 2 ^ 30)) :: s.badWords } : State).count
        (rHBM0 + mem) 1).raise (rHBM0 + mem) 2 { detail := BitVec.ofNat 64 a } := by
  have hr : rHBM0 + mem < 40 := by simp only [rHBM0]; omega
  have hstill : ∀ (bad : List Nat) (e : Ev), ((({ s with badWords := bad } : State).count (rHBM0 + mem) 1).raise
      (rHBM0 + mem) 2 e).pcState (32 * mem + a / 2 ^ 30) = 0 := fun bad e =>
    (State.pcState_raise _ _ _ _ hr).trans ((State.pcState_count _ _ _ hr (by decide)).trans hgood)
  unfold effPatrol
  simp only [hmem, hup, hgood, hnew, hstill, List.contains_eq_mem, decide_false, and_false, OfNat.zero_ne_ofNat,
    zero_ne_one, Bool.false_eq_true, ↓reduceIte]

end

/-- Settles O21: each event of a pseudo-channel by the lemma that says what it leaves. -/
theorem pseudoChannelHealth : Obligations.PseudoChannelHealth := by
  intro s hs
  refine ⟨fun pc hpc => ?_, fun i stack v hstack hr hlive => ?_, ?_, fun stack hstack => if_neg (by omega)⟩
  · have hexists : ¬191 < pc.toNat := by omega
    refine ⟨fun hbusy hlive => (if_neg hexists).trans (congrArg Host.Outcome.next (effReadAround_counts hbusy hlive)),
      fun n hn hgood => ?_, fun t0 h0 hst hdue => (if_neg hexists).trans
        (congrArg Host.Outcome.next (effPcExpiry_due h0 hst hdue))⟩
    have hu : Registers.wf (s.ceBreach pc.toNat n.toNat).regs = true := (State.ceBreach_canonical hs).1
    refine ⟨_, (if_neg hexists).trans (congrArg Host.Outcome.next (effPcThreshold_breach hpc hn hgood)),
      State.pcEnters_pcState hpc hu (by decide) (by decide), ?_, ?_, ?_, ?_, ?_⟩
    · rw [State.pcEnters_plate, State.ceBreach_suspectAt]
    · exact State.breach_flag hpc hs.1
    · rw [State.pcEnters_mem, State.ceBreach_mem]
    · exact State.breach_ecnt0 hpc hs.1
    · rw [State.pcEnters_ecnt hpc hu (by decide), State.ceBreach_ecnt hpc (by decide) (by decide)]
  · have hsel : fieldOf v 4 0 < 32 := fieldOf_lt v 4 0
    have hpc : 32 * stack.toNat + fieldOf v 4 0 < 192 := by omega
    have hdiv : (32 * stack.toNat + fieldOf v 4 0) / 32 = stack.toNat := by omega
    have hu := State.pcSelected_wf s stack.toNat (fieldOf v 4 0) hs.1
    have hlive' := (State.pcSelected_pcState s stack.toNat (fieldOf v 4 0) _).trans_ne hlive
    have hecnt := State.losePc_ecnt hlive' hpc hu
    rw [hdiv, State.fld_of_rd (State.rd_pcSelected s _ _ (by unfold kECNT kPCCMD rk; omega))] at hecnt
    exact ⟨_, pcRetireCmd_loses hstack hr, State.losePc_pcState hlive' hpc hu, hecnt,
      (State.losePc_mem hlive' hpc).trans (State.pcSelected_mem s _ _)⟩
  · rintro mem n r rfl hmem hup
    refine ⟨fun hn => (if_pos (decide_eq_true hmem)).trans (congrArg Host.Outcome.next (effPatrol_corrects hup hn)), ?_⟩
    intro a hmem6 hpc hoff hgood hnew
    rw [if_pos hmem6] at hup ⊢
    exact (if_pos (patrolInRange_stack hmem6 hpc hoff)).trans (congrArg Host.Outcome.next
      (effPatrol_marks hmem6 hup hgood hnew))

end Sys2Proof.Machine
end

section
/-! Memory accesses that pass their checks: reads and writes of the Plate Stores and of the Clock Drive's SRAM (R205, R474,
R479). -/

namespace Sys2Proof.Machine

/-! ### Memory whose bytes are stored under their own addresses (R205, R474) -/

/-- Bytes of a Plate Store, and of the descriptors and plan buffers of the Clock Drive, are stored under their own system
addresses. -/
def OwnKeyed (a : Nat) : Prop :=
  (0xE0000000 ≤ a ∧ a < 0xF0000000 ∧ a % 0x02000000 < 0x01800000) ∨ (0xC0000000 ≤ a ∧ a < 0xC0240000)

/-- Such memory is made of whole pages. -/
theorem OwnKeyed.samePage {a n i : Nat} (h : OwnKeyed a) (hpage : a / 4096 = (a + n - 1) / 4096) (hi : i < n) :
    OwnKeyed (a + i) := by
  unfold OwnKeyed at *
  omega

section
variable (s : State) {a : Nat}

theorem State.site_plate (h : 0xE0000000 ≤ a ∧ a < 0xF0000000) : s.site a =
    if a % 0x02000000 < 0x01800000 then .plate (a % 0x10000000 / 0x02000000) a
    else .plateHole (a % 0x10000000 / 0x02000000) := by
  unfold State.site
  rw [if_neg (by omega), if_pos h]

theorem State.site_drive (h : 0xC0000000 ≤ a ∧ a < 0xC0240000) : s.site a = .drive (a - 0xC0000000) := by
  have hoff : a % 0x800000 = a - 0xC0000000 := by omega
  unfold State.site
  rw [if_neg (by omega), if_neg (by omega), if_neg (by omega), if_pos (by omega), hoff]

/-- Below the hand-off windows an offset of the SRAM is its byte's own. -/
theorem State.driveKey_own (h : 0xC0000000 ≤ a ∧ a < 0xC0240000) : s.driveKey (a - 0xC0000000) = a := by
  unfold State.driveKey
  rw [if_neg (by omega), if_neg (by omega)]
  omega

variable {s} (h : OwnKeyed a) (hbad : s.badWords = [])
include h hbad

theorem State.siteByte_own : s.siteByte (s.site a) = some { byte := Sparse.get memReset s.mem a } := by
  have hread : s.readKey a = some (Sparse.get memReset s.mem a) := by
    unfold State.readKey
    rw [hbad]
    rfl
  rcases h with ⟨hlo, hhi, hdata⟩ | hdrive
  · rw [State.site_plate s ⟨hlo, hhi⟩, if_pos hdata]
    exact congrArg (Option.map _) hread
  · rw [State.site_drive s hdrive, State.siteByte, State.driveKey_own s hdrive, hread]
    rfl

theorem State.sitePut_own (v : Byte) :
    s.sitePut (s.site a) v = some { s with mem := Sparse.set memReset s.mem a v } := by
  have hwrite : s.writeKey a v = some { s with mem := Sparse.set memReset s.mem a v } := by
    unfold State.writeKey
    rw [hbad]
    rfl
  rcases h with ⟨hlo, hhi, hdata⟩ | hdrive
  · rw [State.site_plate s ⟨hlo, hhi⟩, if_pos hdata]
    exact hwrite
  · rw [State.site_drive s hdrive, State.sitePut, State.driveKey_own s hdrive, hwrite]

end

/-! ### Runs of bytes -/

/-- A run whose every byte can be read. -/
theorem State.readSys_bytes {s : State} {a n : Nat} {g : Nat → Byte}
    (h : ∀ i < n, s.siteByte (s.site (a + i)) = some { byte := g i }) : s.readSys a n = some ((List.range n).map g) := by
  have hl : ∀ i ∈ List.range n, s.siteByte (s.site (a + i)) = some { byte := g i } :=
    fun i hi => h i (List.mem_range.mp hi)
  unfold State.readSys
  generalize List.range n = l at hl ⊢
  induction l with
  | nil => rfl
  | cons i l ih =>
    rw [List.foldr_cons, ih fun j hj => hl j (List.mem_cons_of_mem _ hj), hl i List.mem_cons_self]
    rfl

/-- Memory with bytes stored from a key on. -/
def putBytes : Sparse Byte → Nat → List Byte → Sparse Byte
  | m, _, [] => m
  | m, k, b :: rest => putBytes (Sparse.set memReset m k b) (k + 1) rest

/-- The bytes stored read as given, and every other byte as before. -/
theorem get_putBytes {m : Sparse Byte} (hm : Memory.wf m = true) (k : Nat) (bs : List Byte) (x : Nat) :
    Sparse.get memReset (putBytes m k bs) x =
      if k ≤ x then bs.getD (x - k) (Sparse.get memReset m x) else Sparse.get memReset m x := by
  induction bs generalizing m k with
  | nil => simp only [putBytes, List.getD_nil, ite_self]
  | cons b rest ih =>
    rw [putBytes, ih (Sparse.wf_set _ _ _ hm)]
    rcases Nat.lt_trichotomy x k with hlt | rfl | hgt
    · rw [if_neg (by omega), if_neg (by omega), Sparse.get_set_ne _ _ _ (by omega)]
    · rw [if_neg (by omega), if_pos (le_refl _), Sparse.get_set_self _ _ _ hm, Nat.sub_self, List.getD_cons_zero]
    · rw [if_pos (by omega), if_pos (by omega), Sparse.get_set_ne _ _ _ (by omega),
        show x - k = x - (k + 1) + 1 by omega, List.getD_cons_succ]

/-- Bytes that go to their own addresses are stored one after the other. -/
theorem State.writeRun_own {a n : Nat} (hown : ∀ i < n, OwnKeyed (a + i)) {s : State} (hbad : s.badWords = []) {j : Nat}
    {bs : List Byte} (hj : j + bs.length ≤ n) :
    writeRun (fun s i b => s.sitePut (s.site (a + i)) b) s j bs = ({ s with mem := putBytes s.mem (a + j) bs }, true) := by
  induction bs generalizing s j with
  | nil => rfl
  | cons b rest ih =>
    rw [List.length_cons] at hj
    rw [writeRun, State.sitePut_own (hown j (by omega)) hbad]
    exact ih (s := { s with mem := Sparse.set memReset s.mem (a + j) b }) (j := j + 1) hbad (by omega)

/-- Where no code word is bad there is none to heal. -/
theorem State.heal_noBad {s : State} (hbad : s.badWords = []) (keys : List Nat) : s.heal keys = s := by
  unfold State.heal
  rw [hbad, List.filter_nil, ← hbad]

/-! ### What the checks leave -/

section
variable {s : State} {i : Initiator} {a : Nat}

theorem State.aerInject_memPasses {n : Nat} {w : Bool} (h : s.MemPasses i a n w) : s.aerInject i.itag = s := by
  unfold State.aerInject
  exact if_neg fun hc => absurd (h.noTlpInj hc.1) (by rw [hc.2]; decide)

/-- An access that passes its checks does not start in the hole above a Plate Store. -/
theorem State.site_ne_hole {n : Nat} {w : Bool} (h : s.MemPasses i a n w) (d : Nat) : s.site a ≠ .plateHole d := by
  intro hsite
  have hpass := h.allowed
  simp only [checkPoints, State.checkAll, hsite, State.checkSite] at hpass
  cases hpass

theorem State.ownKeyed_memPasses {n : Nat} {w : Bool} (h : s.MemPasses i a n w)
    (ha : (0xE0000000 ≤ a ∧ a < 0xF0000000) ∨ (0xC0000000 ≤ a ∧ a < 0xC0240000)) : OwnKeyed a := by
  rcases ha with hplate | hdrive
  · by_cases hdata : a % 0x02000000 < 0x01800000
    · exact .inl ⟨hplate.1, hplate.2, hdata⟩
    · exact absurd ((State.site_plate s hplate).trans (if_neg hdata)) (State.site_ne_hole h _)
  · exact .inr hdrive

/-- Demand on domains that are all ACTIVE marks them as in use. -/
theorem State.demandPds_active {l : List Nat} (hl : ∀ pd ∈ l, s.pdState pd = 0) :
    l.foldl State.demandPd s = l.foldl State.touch s := by
  induction l generalizing s with
  | nil => rfl
  | cons pd l ih =>
    rw [List.foldl_cons, List.foldl_cons, State.demandPd_active s pd (hl pd List.mem_cons_self)]
    exact ih fun p hp => (State.touch_fld _ _ _ _ _).trans (hl p (List.mem_cons_of_mem _ hp))

/-- Marking domains as in use changes nothing but their idle times. -/
theorem State.touches_eq (s : State) (l : List Nat) : ∃ pwr_, l.foldl State.touch s = { s with pwr := pwr_ } := by
  induction l generalizing s with
  | nil => exact ⟨s.pwr, rfl⟩
  | cons pd l ih =>
    obtain ⟨_, h1⟩ := s.touch_eq pd
    obtain ⟨pwr_, h2⟩ := ih (s.touch pd)
    exact ⟨pwr_, h2.trans (by rw [h1])⟩

/-- The state that the checks of a run leave: the domains of its memories are in use. -/
def State.touchRun (s : State) (a n : Nat) : State :=
  ((checkPoints a n).map (fun x => sitePd (s.site x))).foldl State.touch s

section
variable (s a) (n : Nat)

theorem State.touchRun_eq : ∃ pwr_, s.touchRun a n = { s with pwr := pwr_ } := State.touches_eq s _

@[simp] theorem State.touchRun_mem : (s.touchRun a n).mem = s.mem := by obtain ⟨_, e⟩ := s.touchRun_eq a n; rw [e]
@[simp] theorem State.touchRun_badWords : (s.touchRun a n).badWords = s.badWords := by
  obtain ⟨_, e⟩ := s.touchRun_eq a n; rw [e]
@[simp] theorem State.touchRun_runningDesc (b : Nat) : (s.touchRun a n).runningDesc b = s.runningDesc b := by
  obtain ⟨_, e⟩ := s.touchRun_eq a n; rw [e]; rfl

end

/-- An access that passes its checks reaches its memory. -/
theorem State.memAccess_passes {q : MemReq} (h : s.MemPasses i a (reqBytes q) (reqWrite q)) :
    s.memAccess i a q = (s.touchRun a (reqBytes q)).memDo i.itag a q := by
  have hactive : ∀ pd ∈ (checkPoints a (reqBytes q)).map (fun x => sitePd (s.site x)), s.pdState pd = 0 :=
    List.forall_mem_map.mpr h.domains
  have hup : ((checkPoints a (reqBytes q)).map (fun x => sitePd (s.site x))).any s.pdDown = false :=
    List.any_eq_false.mpr fun pd hpd => by rw [State.pdDown_active s pd (hactive pd hpd)]; decide
  unfold State.memAccess
  simp only [State.aerInject_memPasses h, List.contains_eq_mem, h.notFrozen, h.itag, h.onePage, h.allowed, hup,
    State.demandPds_active hactive, decide_false, ne_eq, not_true_eq_false, Bool.false_eq_true, ↓reduceIte]
  rfl

theorem memoryAccess_passes {addr : BitVec 44} {q : MemReq} (h : s.MemPasses i addr.toNat (reqBytes q) (reqWrite q)) :
    exec (.memoryAccess i addr q) s = .next ((s.touchRun addr.toNat (reqBytes q)).memDo i.itag addr.toNat q) := by
  refine congrArg Host.Outcome.next (Eq.trans ?_ (State.memAccess_passes h))
  unfold State.anyAccess
  split
  · next k hk => exact absurd hk (h.memory k)
  · exact if_neg (Nat.pos_iff_ne_zero.mp h.some)

end

/-! ### The access itself (R474, R479) -/

/-- The hand-off windows see no write of such memory. -/
theorem State.noteWindow_own (s : State) (t : Itag) {a : Nat} (n : Nat) (h : OwnKeyed a) : s.noteWindow t a n = s := by
  unfold OwnKeyed at h
  unfold State.noteWindow State.noteHandOffWrite
  rw [if_neg (show ¬(0x00C0240000 ≤ a ∧ a < 0x00C0250000) by omega),
    if_neg (show ¬(0x00C0250000 ≤ a ∧ a < 0x00C0260000) by omega), if_neg (show ¬a = 0x00C0240000 by omega),
    if_neg (show ¬a = 0x00C0250000 by omega),
    if_neg (show ¬(a ≤ 0x00C026003F ∧ 0x00C0260040 ≤ a + n ∧ 0x00C0260000 ≤ a) by omega), ite_self]

section
variable {u : State} {a n : Nat} (hbad : u.badWords = [])
include hbad

/-- A read answers the bytes addressed. -/
theorem State.memDo_read (hown : ∀ i < n, OwnKeyed (a + i))
    (hinj : u.memInjects ((checkPoints a n).map u.site) = (false, u)) (t : Itag) :
    u.memDo t a (.read n) = u.respond .ok ((List.range n).map (fun j => Sparse.get memReset u.mem (a + j))) := by
  have hread := State.readSys_bytes fun i hi => State.siteByte_own (hown i hi) hbad
  unfold State.memDo State.txRead
  simp only [hinj, hread, Bool.false_eq_true, ↓reduceIte]

/-- A write stores its bytes from the address on. -/
theorem State.memDo_write {bs : List Byte} (ha : OwnKeyed a) (hown : ∀ i < bs.length, OwnKeyed (a + i))
    (hdesc : u.runningDesc a = false) (t : Itag) :
    u.memDo t a (.write bs) = State.respond { u with mem := putBytes u.mem a bs } .ok := by
  have hwrite : u.writeSys a bs = ({ u with mem := putBytes u.mem a bs }, true) := by
    unfold State.writeSys
    rw [State.heal_noBad hbad]
    exact State.writeRun_own hown hbad (by omega)
  unfold State.memDo State.txWrite
  simp only [hdesc, hwrite, State.noteWindow_own _ t _ ha, Bool.false_eq_true, ↓reduceIte]

end

/-- A write to the active descriptor of a loop in RUN only sets CFG_ERR (R479). -/
theorem State.memDo_write_running {u : State} {a : Nat} (hdesc : u.runningDesc a = true) (t : Itag) (bs : List Byte) :
    u.memDo t a (.write bs) = (u.cfgErr rDRIVE t).respond .ok := if_pos hdesc

/-- Settles O55: past its checks an access is the read or the write of bytes stored under their own addresses. -/
theorem memoryAccesses : Obligations.MemoryAccesses := by
  intro s i addr hs hbad
  refine ⟨?_, ?_⟩
  · rintro n u hpass hinj rfl ha
    have hown := fun j (hj : j < n) => (State.ownKeyed_memPasses hpass ha).samePage hpass.onePage hj
    have hread := State.memDo_read (u := s.touchRun addr.toNat n) ((s.touchRun_badWords _ _).trans hbad) hown hinj i.itag
    rw [s.touchRun_mem] at hread
    exact (memoryAccess_passes (q := .read n) hpass).trans (congrArg Host.Outcome.next hread)
  · rintro bs u hpass rfl ha
    have haccess := memoryAccess_passes (q := .write bs) hpass
    refine ⟨fun hdesc => ⟨putBytes s.mem addr.toNat bs, ?_, get_putBytes hs.2.1 _ bs⟩, fun hdesc => ?_⟩
    · have haddr := State.ownKeyed_memPasses hpass ha
      have hown := fun j (hj : j < bs.length) => haddr.samePage hpass.onePage hj
      have hwrite := State.memDo_write (u := s.touchRun addr.toNat bs.length) ((s.touchRun_badWords _ _).trans hbad)
        haddr hown ((s.touchRun_runningDesc _ _ _).trans hdesc) i.itag
      rw [s.touchRun_mem] at hwrite
      exact haccess.trans (congrArg Host.Outcome.next hwrite)
    · exact haccess.trans (congrArg Host.Outcome.next
        (State.memDo_write_running ((s.touchRun_runningDesc _ _ _).trans hdesc) i.itag bs))

end Sys2Proof.Machine
end

section
/-! The KV walkers' commands: invalidation of the Finder, the flush of staged pages and the quantised-append request (R258,
R280, R283). -/

namespace Sys2Proof.Machine

/-! ### Where a permitted write of a walker register leads -/

/-- A permitted write of KVW's own pages has the walkers' effect (R295). -/
theorem State.regWrite_kvw {s : State} {i : Initiator} {p o : Nat} {v : Word} (hp : 1 ≤ p) (hp16 : p < 16) (ho : o < 4096)
    (h : s.Reaches i (rk rKVW p o) v) :
    s.regWrite i (rk rKVW p o) v =
      (effKvwReg p o (rk rKVW p o) i.itag v (s.touch (regionPd rKVW))).respond .ok := by
  have hreg : rkRegion (rk rKVW p o) = rKVW := rkRegion_rk hp16 ho
  have hpage : rkPage (rk rKVW p o) = p := rkPage_rk hp16 ho
  have hoff : rkOff (rk rKVW p o) = o := rkOff_rk ho
  have hqueues : hasQueues rKVW = false := by decide
  have hpage0 : ¬p = 0 := by omega
  rw [State.regWrite_reaches h, State.keyPd_of_not_can s (by rw [hreg]; decide), hreg]
  unfold regEffect effBlockReg
  simp only [hreg, hpage, hoff, hqueues, hpage0, Bool.false_and, Bool.false_eq_true, ↓reduceIte]

section
variable (p k : Nat) (t : Itag) (v : Word) (s : State)

theorem effKvwReg_mode : effKvwReg 1 0x100 k t v s = (s.writeGeneric k t v).showKvMode := if_pos ⟨rfl, rfl⟩

theorem effKvwReg_flush (hv : flagOf v 0 = true) : effKvwReg 1 0x104 k t v s = effKvFlush s := by
  unfold effKvwReg
  simp only [hv, Nat.reduceEqDiff, and_false, and_self, ↓reduceIte]

theorem effKvwReg_finv (hp : 2 ≤ p) : effKvwReg p 0x130 k t v s = effFinv (p - 2) v s := by
  unfold effKvwReg
  simp only [hp, Nat.reduceEqDiff, and_false, or_self, and_self, ↓reduceIte]

end

/-! ### KVW_WnFINV (R258) -/

/-- The state in which walker `n` has taken an invalidation of sequence `q`, or of every line. -/
def State.finvTaken (s : State) (n q : Nat) (all : Bool) : State :=
  ((((s.setFld (kWK n 0x130) 11 0 q).setFlag (kWK n 0x130) 12 all).setWalker n
    { s.walker n with finv := some (q, all) }).setFlag (kWK n 0x130) 13 true).setFlag (kWK n 0x130) 14 false

@[simp] theorem State.touch_walker (s : State) (pd n : Nat) : (s.touch pd).walker n = s.walker n := by
  obtain ⟨_, e⟩ := s.touch_eq pd
  rw [e]
  rfl

/-- A write with VALID starts the invalidation that its word names, where none is pending. -/
theorem effFinv_starts {s : State} {n : Nat} {v : Word} (hv : flagOf v 13 = true) (hfree : (s.walker n).finv = none) :
    effFinv n v s = s.finvTaken n (fieldOf v 11 0) (flagOf v 12) := by
  have hwalker : ((s.setFld (kWK n 0x130) 11 0 (fieldOf v 11 0)).setFlag (kWK n 0x130) 12 (flagOf v 12)).walker n =
      s.walker n := rfl
  unfold effFinv State.finvTaken
  simp only [hv, hwalker, hfree, Bool.or_false, ↓reduceIte]

/-- The word with VALID set names the sequence and the ALL bit that the word names. -/
theorem finvWord_fields (v : Word) :
    fieldOf (withFlag v 13 true) 11 0 = fieldOf v 11 0 ∧ flagOf (withFlag v 13 true) 12 = flagOf v 12 :=
  ⟨fieldOf_withFlag_ne _ _ _ _ _ (.inr (by decide)), flagOf_withFlag_ne _ _ _ _ (by decide)⟩

/-- A permitted FINDER_INVALIDATE of a walker without a pending invalidation. -/
theorem finderInvalidate_starts {s : State} {i : Initiator} {walker : BitVec 3} {v : Word}
    (h : s.Reaches i (kWK walker.toNat 0x130) (withFlag v 13 true)) (hfree : (s.walker walker.toNat).finv = none) :
    exec (.finderInvalidate i walker v) s =
      .next (((s.touch (regionPd rKVW)).finvTaken walker.toNat (fieldOf v 11 0) (flagOf v 12)).respond .ok) := by
  have hn := walker.isLt
  obtain ⟨hseq, hall⟩ := finvWord_fields v
  have hwrite := State.regWrite_kvw (p := 2 + walker.toNat) (by omega) (by omega) (by decide) h
  rw [effKvwReg_finv _ _ _ _ _ (by omega), Nat.add_sub_cancel_left,
    effFinv_starts (flagOf_withFlag _ _ _ (by decide)) ((congrArg Walker.finv (s.touch_walker _ _)).trans hfree),
    hseq, hall] at hwrite
  exact congrArg Host.Outcome.next hwrite

/-- A pending invalidation drops the lines it names and reads DONE. -/
theorem effFinvDone_pending {s : State} {n q : Nat} {all : Bool} (h : (s.walker n).finv = some (q, all)) :
    effFinvDone n s = ((s.setWalker n { s.walker n with
      finv := none, finder := (s.walker n).finder.filter (fun l => !all && l.seq != q) }).setFlag
        (kWK n 0x130) 13 false).setFlag (kWK n 0x130) 14 true := by
  unfold effFinvDone
  simp only [h]

/-! ### KVW_CMD and KVW_MODE (R280, R283) -/

/-- A permitted write of FLUSH flushes the staged pages of every walker. -/
theorem kvFlush_effect {s : State} {i : Initiator} {v : Word} (h : s.Reaches i (rk rKVW 1 0x104) (withFlag v 0 true)) :
    exec (.kvFlush i v) s = .next ((effKvFlush (s.touch (regionPd rKVW))).respond .ok) := by
  have hwrite := State.regWrite_kvw (by decide) (by decide) (by decide) h
  rw [effKvwReg_flush _ _ _ _ (flagOf_withFlag _ _ _ (by decide))] at hwrite
  exact congrArg Host.Outcome.next hwrite

/-- A permitted write of KVW_MODE is a plain write, after which the mode in force is shown. -/
theorem qaReqWrite_effect {s : State} {i : Initiator} {v : Word} (h : s.Reaches i (rk rKVW 1 0x100) v) :
    exec (.qaReqWrite i v) s = .next
      ((((s.touch (regionPd rKVW)).writeGeneric (rk rKVW 1 0x100) i.itag v).showKvMode).respond .ok) := by
  have hwrite := State.regWrite_kvw (by decide) (by decide) (by decide) h
  rw [effKvwReg_mode] at hwrite
  exact congrArg Host.Outcome.next hwrite

/-- Settles O22: the three commands are permitted writes of KVW's own pages, and the end of an invalidation is the walker's. -/
theorem walkerCommands : Obligations.WalkerCommands := by
  rintro s u i walker v rfl
  refine ⟨fun h hfree => ?_, fun q all hpending => ?_, kvFlush_effect, qaReqWrite_effect⟩
  · rw [finderInvalidate_starts h hfree, State.finvTaken, State.touch_walker]
  · exact congrArg Host.Outcome.next (effFinvDone_pending hpending)

end Sys2Proof.Machine
end

section
/-! The Coelostat: the swaps it makes of its own and the commands of SCHED_COEL_CMD (R318–R322, R324, R329). -/

namespace Sys2Proof.Machine

/-! ### Serving a job that waits on residency (R318) -/

section
variable {s : State}

/-- The entry of lowest FRAME that is AWAY and not HOLD comes in, when its frame is neither busy nor taken. -/
theorem State.coelServeJob_swapsIn {j : Job} {n : Nat} {e : CoelEnt} {es : List (Nat × CoelEnt)}
    (hlowest : (s.coelTable.filter (fun x => x.2.job == j.r.job && x.2.state != 2)).foldr insertFrame [] = (n, e) :: es)
    (hhold : e.hold = false) (haway : e.state = 0) (hidle : s.frameBusy e.frame = false)
    (hfree : s.coelTable.find? (fun x => x.2.frame == e.frame && x.2.state == 2) = none) :
    s.coelServeJob j = some (s.coelMove n e false) := by
  unfold State.coelServeJob
  simp only [hlowest, hhold, haway, hidle, hfree, Bool.false_eq_true, OfNat.zero_ne_ofNat, zero_ne_one, or_self,
    ↓reduceIte]

variable (hon : s.coelOn = true) (hswap : s.sched.swap = none)
include hon hswap

/-- An enabled Coelostat without a swap in flight serves the first job that waits, where that job can be served. -/
theorem State.coelServe_first {t : State} {j : Job} {js : List Job}
    (hjobs : s.jobOrder (fun j => s.readyButResidency j && !s.resident j.r.job) = j :: js)
    (hserved : s.coelServeJob j = some t) : s.coelServe = t := by
  unfold State.coelServe
  simp only [hon, hswap, hjobs, hserved, Bool.not_true, Option.isSome_none, Bool.or_self, Bool.false_eq_true,
    List.findSome?_cons, Option.getD_some, ↓reduceIte]

/-- It swaps out the first entry to be evicted whose job has no released step left (R322). -/
theorem State.coelEvictNext_first {n : Nat} {e : CoelEnt} (hent : s.coelEnt n = some e) (hres : e.state = 2)
    (hfirst : s.sched.evict.find? (fun i => (s.coelEnt i).elim false (fun e => !s.jobBusy e.job)) = some n) :
    s.coelEvictNext = s.coelOut n e := by
  have hfind : ∀ p : Nat → Bool, (∀ i, p i = (s.coelEnt i).elim false (fun e => !s.jobBusy e.job)) →
      s.sched.evict.find? p = some n := fun p hp => (congrArg (List.find? · _) (funext hp)).trans hfirst
  unfold State.coelEvictNext
  rw [hfind _ fun i => by cases s.coelEnt i <;> rfl]
  simp only [hon, hswap, hent, hres, Bool.not_true, Option.isSome_none, Bool.or_self, Bool.false_eq_true, ↓reduceIte]

end

/-! ### The end of a swap (R319, R321) -/

/-- The MOVE in flight is a swap of this entry, has not failed, is visible, and its time has come. -/
structure State.SwapDue (s : State) (m : Swap) (e : CoelEnt) : Prop where
  inFlight : s.sched.swap = some m
  entry : s.coelEnt m.entry = some e
  succeeded : (s.queue rTRANSIT s.coelQueue).failed.all (fun f => f.1 != m.index) = true
  visible : s.opVisible rTRANSIT s.coelQueue m.index = true
  due : m.at_ + 1000 + ceilDiv m.size (if m.out then 640 else 1280) ≤ s.now

/-- No swap is in flight any more. -/
def State.swapEnded (s : State) : State :=
  { s with sched := { s.sched with swap := none } }.setFlag kCOELSTAT 13 false

/-- An entry that has gone out is AWAY, and its EVICT is carried out. -/
def State.swappedOut (s : State) (i : Nat) (e : CoelEnt) : State :=
  let u := s.coelPut i 0 e.dirty e.step
  { u with sched := { u.sched with evict := u.sched.evict.filter (fun k => k != i) } }

/-- An entry that has come in is RESIDENT and clean, and its job is served. -/
def State.swappedIn (s : State) (i : Nat) (e : CoelEnt) : State :=
  let u := s.coelPut i 2 false e.step
  { u with sched := { u.sched with jobs := u.sched.jobs.map (fun k =>
    (k.1, k.2.map (fun j => if j.r.job = e.job then { j with residentAt := u.now } else j))) } }

section
variable {s : State} {m : Swap} {e : CoelEnt} (h : s.SwapDue m e)
include h

/-- The records of the queue that failed are not of this MOVE. -/
theorem State.SwapDue.not_failed :
    (s.queue rTRANSIT s.coelQueue).failed.any (fun f => f.1 == m.index) = false := by
  have hnot : (!(s.queue rTRANSIT s.coelQueue).failed.any (fun f => f.1 == m.index)) = true :=
    List.not_any_eq_all_not.trans h.succeeded
  exact (Bool.not_eq_true' _).mp hnot

theorem effSwapDone_out (hout : m.out = true) :
    effSwapDone true s = (s.swapEnded.swappedOut m.entry e).coelResult.coelClock := by
  have hdue : ¬s.now < m.at_ + 1000 + ceilDiv m.size 640 := Nat.not_lt.mpr (by simpa only [hout, ↓reduceIte] using h.due)
  unfold effSwapDone
  simp only [h.inFlight, h.not_failed, h.visible, h.entry, hout, hdue, ne_eq, not_true_eq_false, Bool.true_eq_false,
    Bool.false_eq_true, or_self, and_false, ↓reduceIte]
  rfl

theorem effSwapDone_in (hin : m.out = false) :
    effSwapDone false s = (s.swapEnded.swappedIn m.entry e).coelResult.coelClock := by
  have hdue : ¬s.now < m.at_ + 1000 + ceilDiv m.size 1280 :=
    Nat.not_lt.mpr (by simpa only [hin, Bool.false_eq_true, ↓reduceIte] using h.due)
  unfold effSwapDone
  simp only [h.inFlight, h.not_failed, h.visible, h.entry, hin, hdue, ne_eq, not_true_eq_false, Bool.true_eq_false,
    Bool.false_eq_true, or_self, and_false, ↓reduceIte]
  refine congrArg (fun jobs => (State.coelResult { s.swapEnded.coelPut m.entry 2 false e.step with
    sched := { (s.swapEnded.coelPut m.entry 2 false e.step).sched with jobs := jobs } }).coelClock)
    (List.map_congr_left ?_)
  rintro ⟨sq, _ | j⟩ -
  · rfl
  · rfl

end

/-- Settles O23: COEL_SERVE and COEL_RESUME by what is first in their order, the ends of a swap by its direction. -/
theorem swapsGoInAndOut : Obligations.SwapsGoInAndOut := by
  intro s n e hent
  refine ⟨fun hon hswap => ⟨fun j js es hjobs hlowest hhold haway hidle hfree => ?_, fun hfirst hres => ?_⟩, ?_⟩
  · have hserved := State.coelServeJob_swapsIn hlowest hhold haway hidle hfree
    exact congrArg (fun t => Host.Outcome.next (State.coelClock t)) (State.coelServe_first hon hswap hjobs hserved)
  · exact congrArg (fun t => Host.Outcome.next (State.coelClock (State.coelResult (State.coelServe t))))
      (State.coelEvictNext_first hon hswap hent hres hfirst)
  · rintro m hm rfl hgood hvisible
    refine ⟨fun hout hdue => ⟨_, rfl, congrArg Host.Outcome.next (effSwapDone_out (m := m) ?_ hout)⟩,
      fun hin hdue => ⟨_, rfl, congrArg Host.Outcome.next (effSwapDone_in (m := m) ?_ hin)⟩⟩
    · exact ⟨hm, hent, hgood, hvisible, by rwa [hout]⟩
    · exact ⟨hm, hent, hgood, hvisible, by rwa [hin]⟩

/-! ### SCHED_COEL_CMD (R322, R324, R329) -/

/-- A permitted write of SCHED_COEL_CMD is a command of the Coelostat. -/
theorem State.regWrite_coelCmd {s : State} {i : Initiator} {v : Word} (h : s.Reaches i (kCOEL 0x110) v) :
    s.regWrite i (kCOEL 0x110) v = (effCoelCmd v (s.touch (regionPd rSCHED))).respond .ok :=
  State.regWrite_reaches h

/-- The word of a command names its entry and its CMD. -/
theorem coelWord_fields (entry : BitVec 10) {c : Nat} (hc : c ≤ 5) :
    fieldOf (coelWord entry c) 9 0 = entry.toNat ∧ fieldOf (coelWord entry c) 14 12 = c := by
  have hentry := entry.isLt
  have hword : entry.toNat + 2 ^ 12 * c < 2 ^ 32 := by omega
  unfold coelWord
  rw [fieldOf_wordOf hword, fieldOf_wordOf hword]
  omega

/-- The instruction that writes this CMD. -/
def coelInstr (i : Initiator) (entry : BitVec 10) : Nat → Instr
  | 1 => .coelEvict i entry
  | 2 => .coelEvictHold i entry
  | 3 => .coelRestore i entry
  | 4 => .coelRetry i entry
  | _ => .coelDiscard i entry

/-- A permitted command has the effect of its word. -/
theorem exec_coelInstr {s t : State} {i : Initiator} {entry : BitVec 10} {c : Nat} (h1 : 1 ≤ c) (h5 : c ≤ 5)
    (h : s.Reaches i (kCOEL 0x110) (coelWord entry c))
    (ht : effCoelCmd (coelWord entry c) (s.touch (regionPd rSCHED)) = t) :
    exec (coelInstr i entry c) s = .next (t.respond .ok) := by
  have hexec : exec (coelInstr i entry c) s = .next (s.regWrite i (kCOEL 0x110) (coelWord entry c)) := by
    interval_cases c <;> rfl
  rw [hexec, State.regWrite_coelCmd h, ht]

section
variable {s u : State} {entry : BitVec 10} (hu : u = s.setFld (kCOEL 0x110) 9 0 entry.toNat)
include hu

/-- A command above the table reads BADIDX. -/
theorem effCoelCmd_aboveTable {c : Nat} (h1 : 1 ≤ c) (h5 : c ≤ 5) (habove : u.coelCount ≤ entry.toNat) :
    effCoelCmd (coelWord entry c) s = u.setFld kCOELSTAT 2 0 2 := by
  subst hu
  obtain ⟨hidx, hcmd⟩ := coelWord_fields entry h5
  have hc : ¬(c = 0 ∨ 5 < c) := by omega
  unfold effCoelCmd
  simp only [hidx, hcmd, hc, habove, ↓reduceIte]

variable {e : CoelEnt} (hin : entry.toNat < u.coelCount) (hent : u.coelEnt entry.toNat = some e)
include hin hent

/-- Every command but RESTORE of an entry that is neither RESIDENT nor in FAULT reads BADSTATE. -/
theorem effCoelCmd_badState {c : Nat} (h1 : 1 ≤ c) (h5 : c ≤ 5) (hrestore : c ≠ 3) (hres : e.state ≠ 2)
    (hfault : e.state ≠ 4) : effCoelCmd (coelWord entry c) s = u.setFld kCOELSTAT 2 0 3 := by
  subst hu
  obtain ⟨hidx, hcmd⟩ := coelWord_fields entry h5
  have hc : ¬(c = 0 ∨ 5 < c) := by omega
  unfold effCoelCmd
  simp only [hidx, hcmd, hc, Nat.not_le.mpr hin, hent, hrestore, hres, hfault, ne_eq, not_false_eq_true, or_true,
    ite_self, ↓reduceIte]

/-- RESTORE clears HOLD, and the Coelostat serves. -/
theorem effCoelCmd_restore : effCoelCmd (coelWord entry 3) s =
    ((u.coelHold entry.toNat false).setFld kCOELSTAT 2 0 0).coelServe.coelClock := by
  subst hu
  obtain ⟨hidx, hcmd⟩ := coelWord_fields entry (c := 3) (by decide)
  unfold effCoelCmd
  simp only [hidx, hcmd, Nat.not_le.mpr hin, hent, Nat.reduceLT, OfNat.ofNat_ne_zero, OfNat.ofNat_ne_one,
    Nat.reduceEqDiff, or_self, ↓reduceIte]

variable (hvalid : e.valid = true)
include hvalid

section
variable (hres : e.state = 2)
include hres

/-- EVICT of a RESIDENT entry queues its eviction. -/
theorem effCoelCmd_evict : effCoelCmd (coelWord entry 1) s =
    ({ u with sched := { u.sched with evict := u.sched.evict ++ [entry.toNat] } }.setFld kCOELSTAT 2 0
      1).coelEvictNext.coelResult := by
  subst hu
  obtain ⟨hidx, hcmd⟩ := coelWord_fields entry (c := 1) (by decide)
  unfold effCoelCmd
  simp only [hidx, hcmd, Nat.not_le.mpr hin, hent, hvalid, hres, Nat.reduceLT, one_ne_zero, OfNat.one_ne_ofNat,
    Bool.true_eq_false, ne_eq, not_true_eq_false, or_self, or_false, ↓reduceIte]

/-- EVICT_HOLD of a RESIDENT entry sets HOLD and queues its eviction. -/
theorem effCoelCmd_evictHold {w : State} (hw : w = u.coelHold entry.toNat true) : effCoelCmd (coelWord entry 2) s =
    ({ w with sched := { w.sched with evict := w.sched.evict ++ [entry.toNat] } }.setFld kCOELSTAT 2 0
      1).coelEvictNext.coelResult := by
  subst hw hu
  obtain ⟨hidx, hcmd⟩ := coelWord_fields entry (c := 2) (by decide)
  unfold effCoelCmd
  simp only [hidx, hcmd, Nat.not_le.mpr hin, hent, hvalid, hres, Nat.reduceLT, OfNat.ofNat_ne_zero,
    OfNat.ofNat_ne_one, Bool.true_eq_false, ne_eq, not_true_eq_false, or_self, or_true, ↓reduceIte]

end

section
variable (hfault : e.state = 4)
include hfault

/-- RETRY of an entry in FAULT repeats its MOVE, when no swap is in flight and the queue is ACTIVE. -/
theorem effCoelCmd_retry (hswap : u.sched.swap = none) (hactive : (u.queue rTRANSIT u.coelQueue).state = .active) :
    effCoelCmd (coelWord entry 4) s = (u.setFld kCOELSTAT 2 0 0).coelMove entry.toNat e
      ((Sparse.get (fun _ => none) u.sched.failedOut entry.toNat).getD false) := by
  subst hu
  obtain ⟨hidx, hcmd⟩ := coelWord_fields entry (c := 4) (by decide)
  unfold effCoelCmd
  simp only [hidx, hcmd, Nat.not_le.mpr hin, hent, hvalid, hfault, hswap, hactive, Nat.reduceLT, Nat.reduceEqDiff,
    OfNat.ofNat_ne_zero, OfNat.ofNat_ne_one, Option.isSome_none, Bool.true_eq_false, Bool.false_eq_true, ne_eq,
    not_true_eq_false, or_self, ↓reduceIte]

/-- DISCARD of an entry in FAULT makes it RESIDENT and DIRTY, the bytes of its frame's object unspecified. -/
theorem effCoelCmd_discard {o : Obj} {w : State}
    (hobj : (u.coelPut entry.toNat 2 true e.step).validObj e.frame [0] = some o)
    (hw : w = (u.coelPut entry.toNat 2 true e.step).scramble ((List.range o.size).map (fun k => o.loc + k))) :
    effCoelCmd (coelWord entry 5) s = ({ w with sched := { w.sched with
      failedOut := Sparse.set (fun _ => none) w.sched.failedOut entry.toNat none } }.setFld kCOELSTAT 2 0
        0).coelClock := by
  subst hw hu
  obtain ⟨hidx, hcmd⟩ := coelWord_fields entry (c := 5) (by decide)
  unfold effCoelCmd
  simp only [hidx, hcmd, Nat.not_le.mpr hin, hent, hvalid, hfault, hobj, Nat.lt_irrefl, Nat.reduceEqDiff,
    OfNat.ofNat_ne_zero, OfNat.ofNat_ne_one, Bool.true_eq_false, ne_eq, not_true_eq_false, or_self, ↓reduceIte]

end

end

/-- Settles O24, by what each command does to an entry of each state. -/
theorem coelostatCommands : Obligations.CoelostatCommands := by
  intro s u i entry c h hu h1 h5
  refine ⟨fun hin e hent => ⟨fun hvalid hres => ⟨?evict, ?evictHold⟩, ?restore, fun hvalid hfault => ⟨?retry, ?discard⟩,
    fun hres hfault => ?badState⟩, fun habove => ?aboveTable⟩
  case evict =>
    rintro rfl
    exact exec_coelInstr h1 h5 h (effCoelCmd_evict hu hin hent hvalid hres)
  case evictHold =>
    rintro rfl
    exact ⟨_, rfl, exec_coelInstr h1 h5 h (effCoelCmd_evictHold hu hin hent hvalid hres rfl)⟩
  case restore =>
    rintro rfl
    exact exec_coelInstr h1 h5 h (effCoelCmd_restore hu hin hent)
  case retry =>
    rintro rfl hswap hactive
    exact exec_coelInstr h1 h5 h (effCoelCmd_retry hu hin hent hvalid hfault hswap hactive)
  case discard =>
    rintro rfl o hobj
    exact ⟨_, rfl, exec_coelInstr h1 h5 h (effCoelCmd_discard hu hin hent hvalid hfault hobj rfl)⟩
  case badState =>
    have hbad (hc : c ≠ 3) := exec_coelInstr h1 h5 h (effCoelCmd_badState hu hin hent h1 h5 hc hres hfault)
    refine ⟨?_, ?_, ?_, ?_⟩ <;>
    · rintro rfl
      exact hbad (by decide)
  case aboveTable =>
    have habv := exec_coelInstr h1 h5 h (effCoelCmd_aboveTable hu h1 h5 habove)
    refine ⟨?_, ?_, ?_, ?_, ?_⟩ <;>
    · rintro rfl
      exact habv

end Sys2Proof.Machine
end

section
/-! The scheduler's control queue: ADMIT, RETIRE, JOIN and LEAVE (R330–R332, R336). -/

namespace Sys2Proof.Machine

section
variable {s w : State} {o : Op} {bs : List Byte} (hnext : s.control 1 = some o) (haligned : o.addr 0x10 % 128 = 0)
  (hread : (s.start rSCHED 0 o).txRead ((s.start rSCHED 0 o).queueItag rSCHED 0) (o.addr 0x10) 128
    (some (rSCHED, 0, o.index)) = (.ok bs, w))
include hnext haligned hread

/-- A job whose record passes every check is admitted with its seed, and the loads are shown. -/
theorem effAdmit_admits (hpass : w.admitCheck bs (JobRec.ofBytes bs) = stDONE) :
    effAdmit s = (((w.setJob (JobRec.ofBytes bs).sq (some { r := JobRec.ofBytes bs })).setSeed (JobRec.ofBytes bs).job
      (some (JobRec.ofBytes bs).seed)).showLoads).finish rSCHED 0 o.index stDONE := by
  unfold effAdmit
  simp only [hnext, haligned, hread, hpass, ne_eq, not_true_eq_false, ↓reduceIte]

/-- A record that fails a check is refused with that check's status. -/
theorem effAdmit_refuses (hfail : w.admitCheck bs (JobRec.ofBytes bs) ≠ stDONE) :
    effAdmit s = (w.count rSCHED 7).finish rSCHED 0 o.index (w.admitCheck bs (JobRec.ofBytes bs)) := by
  unfold effAdmit
  simp only [hnext, haligned, hread, hfail, ne_eq, not_true_eq_false, not_false_eq_true, ↓reduceIte]

end

section
variable {s : State} {o : Op} (hnext : s.control 2 = some o)
include hnext

/-- A RETIRE of a job without an open step releases what the job holds. -/
theorem effRetire_releases {j : Job} (hjob : (s.start rSCHED 0 o).jobBy (o.fld 0x10 15 0) = some j) (hidle : j.step = none) :
    effRetire s = ((s.start rSCHED 0 o).retireJob j).finish rSCHED 0 o.index stDONE := by
  unfold effRetire
  simp only [hnext, hjob, hidle, Option.isSome_none, Bool.false_eq_true, ↓reduceIte]

/-- A RETIRE of a job that is not admitted only completes (log 15). -/
theorem effRetire_unknown (hjob : (s.start rSCHED 0 o).jobBy (o.fld 0x10 15 0) = none) :
    effRetire s = (s.start rSCHED 0 o).finish rSCHED 0 o.index stDONE := by
  unfold effRetire
  simp only [hnext, hjob]

end

/-- A row joins at entry `i`: PENDING with its lengths and the next JSEQ; the walkers of the job's Domes forget the index
(R336). -/
def State.joinRow (s : State) (j : Job) (i len plen lmax : Nat) : State :=
  (List.range 8).foldl (fun (s : State) d => if bitOf j.r.domes d then s.finderDrop d i else s)
    (({ s with sched := { s.sched with jseq := (s.sched.jseq + 1) % 2 ^ 32 } } : State).setAlm i
      { state := 1, job := j.r.job, len := len, plen := plen, lmax := lmax, jseq := s.sched.jseq })

/-- A JOIN within the limits of R331 takes the lowest FREE entry for the row and reports its index. -/
theorem effJoin_takesLowest {s u : State} {o : Op} {j : Job} {i : Nat} (hu : u = s.start rSCHED 0 o)
    (hnext : s.control 4 = some o) (hjob : u.jobBy (o.fld 0x10 15 0) = some j) (hserve : j.r.serve = true)
    (hfree : (List.range 4096).find? (fun i => (u.alm i).state == 0) = some i)
    (hlimits : ¬(65536 < o.fld 0x1C 16 0 ∨ o.fld 0x1C 16 0 < o.fld 0x18 16 0 ∨ o.fld 0x1C 16 0 ≤ o.fld 0x14 16 0 ∨
      o.fld 0x18 16 0 < o.fld 0x14 16 0)) :
    effJoin s = (u.joinRow j i (o.fld 0x14 16 0) (o.fld 0x18 16 0) (o.fld 0x1C 16 0)).finish rSCHED 0 o.index stDONE
      (BitVec.ofNat 64 i) := by
  subst hu
  unfold effJoin State.joinRow
  simp only [hnext, hjob, hserve, hfree, hlimits, Bool.true_eq_false, ↓reduceIte]

section
variable {s u : State} {o : Op} (hu : u = s.start rSCHED 0 o) (hnext : s.control 5 = some o)
include hu hnext

/-- A LEAVE of a row of an admitted job marks its entry. -/
theorem effLeave_marks (hrow : (u.alm (o.fld 0x10 11 0)).state ≠ 0)
    (hjob : (u.jobBy (u.alm (o.fld 0x10 11 0)).job).isSome = true) :
    effLeave s = (u.setAlm (o.fld 0x10 11 0) { u.alm (o.fld 0x10 11 0) with leave := true }).finish rSCHED 0 o.index
      stDONE := by
  subst hu
  have hknown := Option.isNone_eq_false_iff.mpr hjob
  unfold effLeave
  simp only [hnext, hrow, hknown, Bool.false_eq_true, or_self, ↓reduceIte]

/-- A LEAVE of a FREE entry changes no row and sets CFG_ERR. -/
theorem effLeave_noRow (hfree : (u.alm (o.fld 0x10 11 0)).state = 0) :
    effLeave s = (u.cfgErr rSCHED).finish rSCHED 0 o.index stDONE := by
  subst hu
  unfold effLeave
  simp only [hnext, hfree, true_or, ↓reduceIte]

end

/-- Settles O25, operation by operation of the control queue. -/
theorem jobsAndRows : Obligations.JobsAndRows := by
  rintro s u o rfl
  refine ⟨fun hadmit haligned bs w hread => ⟨fun hpass => ?admits, fun hfail => ?refuses⟩,
    fun hretire => ⟨fun j hjob hidle => ?releases, fun hjob => ?unknown⟩,
    fun hjoin j i hjob hserve hfree hprompt hmax hroom hcap => ?joins,
    fun hleave => ⟨fun hrow hjob => ?marks, fun hfree => ?noRow⟩⟩
  case admits => exact congrArg Host.Outcome.next (effAdmit_admits hadmit haligned hread hpass)
  case refuses => exact congrArg Host.Outcome.next (effAdmit_refuses hadmit haligned hread hfail)
  case releases => exact congrArg Host.Outcome.next (effRetire_releases hretire hjob hidle)
  case unknown => exact congrArg Host.Outcome.next (effRetire_unknown hretire hjob)
  case joins => exact congrArg Host.Outcome.next (effJoin_takesLowest rfl hjoin hjob hserve hfree (by omega))
  case marks => exact congrArg Host.Outcome.next (effLeave_marks rfl hleave hrow hjob)
  case noRow => exact congrArg Host.Outcome.next (effLeave_noRow rfl hleave hfree)

end Sys2Proof.Machine
end

section
/-! A step becomes a candidate, is opened and is released (R331, R343–R351). -/

namespace Sys2Proof.Machine

/-! ### A STEP descriptor (R331, R343) -/

section
variable {s : State} {sq : Nat} {j : Job} {o : Op} (hjob : s.jobAt sq = some j) (hnext : s.nextOp rSCHED sq = some o)
  (hop : o.opcode = 0x10) (hcand : j.cand = none) (hstep : j.step = none)
include hjob hnext hop hcand hstep

/-- The STEP that follows the job's last becomes its candidate. -/
theorem effStep_candidate (hnumber : o.step = j.lastStep + 1) :
    effStep sq s = ((s.start rSCHED sq o).setJob sq (some { j with cand := some (o.index, s.now) })).coelClock := by
  unfold effStep
  simp only [hjob, hnext, hop, hcand, hstep, hnumber, State.start_now, Option.isSome_none, Bool.false_eq_true, ne_eq,
    not_true_eq_false, or_self, ↓reduceIte]

/-- Any other STEP is refused. -/
theorem effStep_wrongNumber (hnumber : o.step ≠ j.lastStep + 1) :
    effStep sq s = (s.start rSCHED sq o).finish rSCHED sq o.index stREJ_FORMAT := by
  unfold effStep
  simp only [hjob, hnext, hop, hcand, hstep, hnumber, Option.isSome_none, Bool.false_eq_true, ne_eq, not_true_eq_false,
    not_false_eq_true, or_self, ↓reduceIte]

end

/-! ### The counts of a step (R351) -/

/-- Every GWREC item of the reticle emits a count that its schedule entry can hold, and no more appends than a RUN takes. -/
def CountsFit (its : List RetItem) (rows : List (Nat × AlmEnt × Nat)) : Prop :=
  ∀ i ∈ its, i.kind = 1 → ∃ l, i.emits rows = some l ∧ l.length ≤ 65535 ∧ (i.gwkind = 0 → l.length ≤ 16384)

theorem foldl_max_le {l : List Nat} {b : Nat} (h : ∀ n ∈ l, n ≤ b) : l.foldl Nat.max 0 ≤ b :=
  List.foldlRecOn l Nat.max (motive := (· ≤ b)) (Nat.zero_le b) fun _ ha n hn => Nat.max_le.mpr ⟨ha, h n hn⟩

section
variable {its : List RetItem} {rows : List (Nat × AlmEnt × Nat)} (h : CountsFit its rows)
include h

/-- The count of each item of the reticle, a descriptor's being 0. -/
theorem CountsFit.count_le {c : Option Nat}
    (hc : c ∈ its.map (fun i => if i.kind = 1 then (i.emits rows).map List.length else some 0)) :
    ∃ n ≤ 65535, c = some n := by
  obtain ⟨i, hi, rfl⟩ := List.mem_map.mp hc
  by_cases hkind : i.kind = 1
  · obtain ⟨l, hl, hcount, -⟩ := h i hi hkind
    exact ⟨l.length, hcount, by simp only [hkind, hl, Option.map_some, ↓reduceIte]⟩
  · exact ⟨0, Nat.zero_le _, if_neg hkind⟩

/-- The most appends of one item on a Dome. -/
theorem CountsFit.appends_le (d : Nat) :
    ((its.filter (fun i => i.kind == 1 && i.gwkind == 0 && i.dome == d)).map
      (fun i => ((i.emits rows).getD []).length)).foldl Nat.max 0 ≤ 16384 := by
  refine foldl_max_le fun n hn => ?_
  obtain ⟨i, hi, rfl⟩ := List.mem_map.mp hn
  obtain ⟨hmem, hsel⟩ := List.mem_filter.mp hi
  simp only [Bool.and_eq_true, beq_iff_eq] at hsel
  obtain ⟨⟨hkind, happend⟩, -⟩ := hsel
  obtain ⟨l, hl, -, hlen⟩ := h i hmem hkind
  simpa only [hl, Option.getD_some] using hlen happend

end

/-! ### Opening (R345–R350) -/

/-- A step whose reticle is read and whose counts fit is opened with the rows that its cost leaves. -/
theorem State.buildStep_opens {s w : State} {r : JobRec} {index n entries : Nat} {b f : Opening} {its : List RetItem}
    (hb : b = ({ s := s } : Opening).boundary r index n)
    (hread : State.readReticle b.s r.sq index r.nitems r.reticle [] = (.ok its, w))
    (hf : f = Opening.fitCost r its entries (entries + 1) { b with s := w }) (hfit : CountsFit its (f.s.rowsOf r)) :
    s.buildStep r index n entries = f.open_ r index n (b.s.flag kKVMODE 0) (f.s.rowsOf r) its
      (stepSize its (f.s.rowsOf r) entries f.wrote) := by
  unfold State.buildStep
  simp only [← hb, hread, ← hf]
  refine if_neg ((Bool.not_eq_true _).mpr (Bool.or_eq_false_iff.mpr
    ⟨List.any_eq_false.mpr fun c hc => ?count, List.any_eq_false.mpr fun d _ => ?appends⟩))
  case count =>
    obtain ⟨n, hn, rfl⟩ := hfit.count_le hc
    simpa only [decide_eq_true_eq, Nat.not_lt] using hn
  case appends => simpa only [decide_eq_true_eq, Nat.not_lt] using hfit.appends_le d

/-- The chosen step is built when no other step is being built and none of its job's entries is in FAULT. -/
theorem effStepOpen_builds {s u : State} {j : Job} {p : Op} {index t0 : Nat} (hfree : s.jobs.any Job.building = false)
    (hchoice : s.stepChoice = some (j, false)) (hcand : j.cand = some (index, t0))
    (hop : s.coelClock.findOp rSCHED j.r.sq index = some p)
    (hu : u = (s.coelClock.almOf j.r.job).foldl (fun s x => s.almInject x.1) s.coelClock)
    (hgood : (u.almOf j.r.job).any (fun x => x.2.fault) = false) :
    effStepOpen s = u.buildStep j.r index p.step (s.coelClock.almOf j.r.job).length := by
  subst hu
  unfold effStepOpen
  simp only [hfree, hchoice, hcand, hop, hgood, Bool.false_eq_true, ↓reduceIte]

/-! ### Release (R345) -/

/-- A released step: its builder is done and its job's RESIDENT entries are DIRTY with its number. -/
def State.releaseStep (s : State) (j : Job) (o : OpenStep) : State :=
  ((s.setJob j.r.sq (some { j with step := some { o with released := true } })).setFlag (kSTAT rSCHED) 16 false).coelDirty
    j.r.job o.number

/-- Where all the descriptors of a step are on one queue, each of them counts for it. -/
theorem filter_descs_eq {l : List (Nat × Nat × Nat)} {r q : Nat}
    (h : (l.map (fun d => (d.1, d.2.1))).eraseDups = [(r, q)]) : l.filter (fun d => d.1 == r && d.2.1 == q) = l := by
  refine List.filter_eq_self.mpr fun d hd => ?_
  have hmem : (d.1, d.2.1) ∈ [(r, q)] := h ▸ List.mem_eraseDups.mpr (List.mem_map_of_mem hd)
  obtain ⟨hr, hq⟩ := Prod.mk.inj (List.mem_singleton.mp hmem)
  simp only [hr, hq, beq_self_eq_true, Bool.and_self]

/-- The release writes the doorbell of the one queue that the step has descriptors on. -/
theorem effStepRelease_doorbell {s u w : State} {j : Job} {o : OpenStep} {r q : Nat}
    (hjob : s.jobs.find? Job.building = some j) (hstep : j.step = some o) (hu : u = s.releaseStep j o)
    (hone : (o.descs.map (fun d => (d.1, d.2.1))).eraseDups = [(r, q)])
    (hgate : u.gate { itag := u.builder } (kDOORBELL r q) true
      (BitVec.ofNat 32 (idx ((u.queue r q).tail + o.descs.length))) = (.ok, w)) :
    effStepRelease s = w.doorbell r q (BitVec.ofNat 32 (idx ((u.queue r q).tail + o.descs.length))) w.builder := by
  subst hu
  unfold State.releaseStep at hgate ⊢
  unfold effStepRelease
  simp only [hjob, hstep, hone, List.foldl_cons, List.foldl_nil, filter_descs_eq hone, hgate]

/-- Settles O26: a STEP by its number, the opening by the build of the chosen step, the release by its one doorbell. -/
theorem stepsOpen : Obligations.StepsOpen := by
  intro s
  refine ⟨fun sq j o hjob hnext hop hcand hstep => ⟨fun hnumber => ?candidate, fun hnumber => ?wrongNumber⟩, ?opens,
    fun j o u w r q hjob hstep hu hone hgate => ?releases⟩
  case candidate => exact congrArg Host.Outcome.next (effStep_candidate hjob hnext hop hcand hstep hnumber)
  case wrongNumber => exact congrArg Host.Outcome.next (effStep_wrongNumber hjob hnext hop hcand hstep hnumber)
  case opens =>
    intro j p index t0 u w b its hfree hchoice hcand hop hu hgood hb hread f hf hfit
    have hbuild := effStepOpen_builds hfree hchoice hcand hop hu hgood
    exact congrArg Host.Outcome.next (hbuild.trans (State.buildStep_opens hb hread hf hfit))
  case releases => exact congrArg Host.Outcome.next (effStepRelease_doorbell hjob hstep hu hone hgate)

end Sys2Proof.Machine
end

section
/-! A step closes or expires (R352–R354). -/

namespace Sys2Proof.Machine

/-- A row is longer by what the step appended, unless its entry is FREE. -/
def State.appended (s : State) (x : Nat × Nat) : State :=
  if (s.alm x.1).state = 0 then s else s.setAlm x.1 { s.alm x.1 with len := (s.alm x.1).len + x.2 }

/-- A released step all of whose records are visible, none with a stopping status, latched without QAM and with no deadline
on its STEP: it closes with DONE (R352, R353). -/
structure State.StepDone (s : State) (sq : Nat) (o : OpenStep) : Prop where
  released : o.released = true
  inTime : o.expired = false
  noQam : o.qam = false
  recorded : o.descs.all (fun d => s.recordDone d) = true
  noStop : s.stepStatus o = 0
  noDeadline : ∃ p, s.findOp rSCHED sq o.index = some p ∧ p.dl = false

/-- The job's open step closes well, its rows lengthened already: it is the job's last step, and its STEP completes with its
RESULT. -/
def State.closeWell (u : State) (sq : Nat) (j : Job) (o : OpenStep) : State :=
  (((({ u with openQam0 := u.openQam0 - 1 } : State).setJob sq (some { j with
    step := none, lastStep := o.number, closed := o.number,
    suspended := j.r.train && !u.flag (rk rWATCH 1 0x110) 0 })).showKvMode).setFlag (kSTAT rSCHED) 16 false).finish rSCHED
      sq o.index stDONE (stepResult (u.stepCycles j o) o.rows.length o.joined o.gone o.preempted o.parked)

/-- With no RETIRE on the control queue none waits for the job's step. -/
theorem State.retireWaiting_noRetire {s : State} (h : (s.queue rSCHED 0).ops.all (fun p => p.opcode != 2) = true) (j : Job) :
    s.retireWaiting j = s := by
  have hnone : (s.queue rSCHED 0).ops.find? (fun o => o.started && o.status.isNone && o.opcode == 2 &&
      o.fld 0x10 15 0 == j.r.job) = none := by
    refine List.find?_eq_none.mpr fun p hp hwaits => ?_
    have hother := List.all_eq_true.mp h p hp
    simp only [Bool.and_eq_true, beq_iff_eq, bne_iff_ne] at hwaits hother
    obtain ⟨⟨-, hretire⟩, -⟩ := hwaits
    exact hother hretire
  unfold State.retireWaiting
  rw [hnone]

section
variable {s : State} {sq : Nat} {j : Job} {o : OpenStep} (hjob : s.jobAt sq = some j) (hstep : j.step = some o)
include hjob hstep

/-- A step that is done closes well, where no RETIRE waits for it. -/
theorem effStepClose_closes {u : State} (hdone : s.StepDone sq o) (hu : u = o.rows.foldl State.appended s)
    (hretire : ((u.closeWell sq j o).queue rSCHED 0).ops.all (fun p => p.opcode != 2) = true) :
    effStepClose sq s = u.closeWell sq j o := by
  obtain ⟨hrel, hlive, hqam, hseen, hstatus, p, hfind, hdl⟩ := hdone
  subst hu
  unfold State.closeWell State.appended at hretire ⊢
  unfold effStepClose
  simp only [hjob, hstep, hlive, hrel, hqam, hseen, hstatus, hfind, hdl, Bool.not_true, Bool.not_false, Bool.false_and,
    Bool.and_false, Bool.and_true, Bool.or_self, Bool.false_eq_true, beq_self_eq_true, ne_eq, not_true_eq_false,
    ↓reduceIte]
  split
  · exact State.retireWaiting_noRetire hretire _
  · rfl

/-- A step past its WSTEP expires, counted and flagged (R354). -/
theorem effStepWcet_expires (hlive : o.expired = false) (hover : o.wstep < s.stepCycles j o)
    (hinj : s.injArmed rSCHED 2 = false) :
    effStepWcet sq s = ((s.setJob sq (some { j with step := some { o with expired := true } })).count rSCHED 2).raise rSCHED 16
      { queue := sq, index := o.index } := by
  have hnot : ¬s.stepCycles j o ≤ o.wstep := Nat.not_le.mpr hover
  unfold effStepWcet
  simp only [hjob, hstep, hlive, hinj, hnot, Bool.false_and, Bool.false_eq_true, false_and, or_self, ↓reduceIte]

end

/-- Settles O27: a step whose work is visible closes well, and one past WSTEP expires. -/
theorem stepsClose : Obligations.StepsClose := by
  intro s sq j o hjob hstep
  refine ⟨fun u w hrel hlive hqam hseen hstatus hop hu hw hretire => ?_, fun hlive hover hinj => ?_⟩
  · have hdone : s.StepDone sq.toNat o := ⟨hrel, hlive, hqam, hseen, hstatus, hop⟩
    subst hw
    exact congrArg Host.Outcome.next (effStepClose_closes hjob hstep hdone hu hretire)
  · exact congrArg Host.Outcome.next (effStepWcet_expires hjob hstep hlive hover hinj)

end Sys2Proof.Machine
end

section
/-! The Reduction array: LOAD and FREE of a context, the start and the ends of a SOLVE, and lane faults (R370–R399). -/

namespace Sys2Proof.Machine

/-! ### LOAD and FREE (R370–R373) -/

/-- The slot is empty or holds a context of this tenant (R372, R373). -/
def State.OwnsSlot (s : State) (key tenant : Nat) : Prop := ∀ c, s.solvCtx key = some c → c.tenant = tenant

theorem State.OwnsSlot.not_foreign {s : State} {key tenant : Nat} (h : s.OwnsSlot key tenant) :
    (match s.solvCtx key with | some c => c.tenant != tenant | none => false) = false := by
  split
  · next c hslot => simp only [h c hslot, bne_self_eq_false]
  · rfl

/-- The operands of a LOAD are well formed (R370, R372). -/
structure Op.LoadForm (o : Op) : Prop where
  aligned : o.addr 0x18 % 64 = 0
  slot : o.fld 0x10 31 11 = 0
  word5 : o.word 5 = 0#32
  rest : (o.words.drop 8).any (fun w => w != 0#32) = false

/-- No check that a LOAD makes before its first read refuses it. -/
theorem Op.LoadForm.not_refused {o : Op} (h : o.LoadForm) {foreign : Bool} (hforeign : foreign = false) :
    ¬(o.addr 0x18 % 64 ≠ 0 ∨ o.fld 0x10 31 11 ≠ 0 ∨ o.word 5 ≠ 0#32 ∨
      (o.words.drop 8).any (fun w => w != 0#32) = true ∨ foreign = true) := by
  obtain ⟨haligned, hslot, hword5, hrest⟩ := h
  simp [haligned, hslot, hword5, hrest, hforeign]

/-- The context's slot that a LOAD or a FREE names. -/
def Op.solvKey (o : Op) : Nat := Machine.solvKey (o.fld 0x10 7 0) (o.fld 0x10 10 8)

section
variable {s w : State} {q : Nat} {o : Op} {h : List Byte} (hnext : s.solvNext q 1 = some o) (hform : o.LoadForm)
  (hown : (s.solvStart q o).OwnsSlot o.solvKey ((s.solvStart q o).queue rSOLV q).tenant)
  (hread : (s.solvStart q o).txRead (some 0x48) (o.addr 0x18) 64 (some (rSOLV, q, o.index)) = (.ok h, w))
include hnext hform hown hread

/-- A LOAD whose header breaks a check of R372 concludes REJ_FORMAT. -/
theorem effSolvLoad_badHeader (hheader : solvHeader (wordsOf h) = none) :
    effSolvLoad q s = w.conclude rSOLV q o.index stREJ_FORMAT := by
  unfold effSolvLoad
  rw [hnext]
  refine (if_neg (hform.not_refused hown.not_foreign)).trans ?_
  rw [hread]
  dsimp only
  rw [hheader]

/-- A LOAD whose header is in order fills the empty slot with the context that its image holds, when all words are finite,
the lane is in service and there is room. -/
theorem effSolvLoad_fills {t : State} {c : SolvCtx} {e len : Nat} {bs : List Byte}
    (hheader : solvHeader (wordsOf h) = some c) (he : e = packedLen c.n c.w) (hlen : len = 4 * (e + 2 * c.n))
    (hbody : w.txRead (some 0x48) (o.addr 0x18 + 64) len (some (rSOLV, q, o.index)) = (.ok bs, t))
    (hfin : allFin (wordsOf bs) = true) (havail : solvSpares.avail t (o.fld 0x10 7 0) = true)
    (hempty : t.solvCtx o.solvKey = none) (hroom : ctxBytes c.n c.w ≤ t.laneFree (o.fld 0x10 7 0)) :
    effSolvLoad q s = (t.setSolvCtx o.solvKey (some { c with
        tenant := ((s.solvStart q o).queue rSOLV q).tenant, ks := (wordsOf bs).take e,
        bs := ((wordsOf bs).drop e).take c.n, xs := (wordsOf bs).drop (e + c.n) })).conclude rSOLV q o.index stDONE 0
      (solvNs (240 + ceilDiv (ceilDiv (64 + len) 64 * 64) 16)) := by
  subst he hlen
  unfold Op.solvKey at hempty ⊢
  unfold effSolvLoad
  rw [hnext]
  refine (if_neg (hform.not_refused hown.not_foreign)).trans ?_
  rw [hread]
  dsimp only
  rw [hheader]
  dsimp only
  rw [hbody]
  simp only [hfin, havail, hempty, Nat.not_lt.mpr hroom, Nat.add_zero, Bool.true_eq_false, ↓reduceIte]

end

/-- A FREE by the context's own tenant, or of no context, empties the slot. -/
theorem effSolvFree_empties {s : State} {q : Nat} {o : Op} (hnext : s.solvNext q 2 = some o)
    (hslot : o.fld 0x10 31 11 = 0) (hrest : (o.words.drop 5).any (fun w => w != 0#32) = false)
    (hown : (s.solvStart q o).OwnsSlot o.solvKey ((s.solvStart q o).queue rSOLV q).tenant) :
    effSolvFree q s = ((s.solvStart q o).setSolvCtx o.solvKey none).conclude rSOLV q o.index stDONE := by
  have hnot {foreign : Bool} (hforeign : foreign = false) : ¬(o.fld 0x10 31 11 ≠ 0 ∨
      (o.words.drop 5).any (fun w => w != 0#32) = true ∨ foreign = true) := by
    simp [hslot, hrest, hforeign]
  unfold effSolvFree
  rw [hnext]
  exact if_neg (hnot hown.not_foreign)

/-- Settles O30: a LOAD by what its header says, and a FREE. -/
theorem solvContexts : Obligations.SolvContexts := by
  rintro s u w q o h bs _ rfl rfl hslot hown
  refine ⟨fun hnext haligned hword5 hrest hread => ?_, fun hnext hrest => congrArg Host.Outcome.next
    (effSolvFree_empties hnext hslot hrest hown)⟩
  have hform : o.LoadForm := ⟨haligned, hslot, hword5, hrest⟩
  exact ⟨fun hheader => congrArg Host.Outcome.next (effSolvLoad_badHeader hnext hform hown hread hheader),
    fun c e len t hheader he hlen hbody hfin havail hempty hroom => congrArg Host.Outcome.next
      (effSolvLoad_fills hnext hform hown hread hheader he hlen hbody hfin havail hempty hroom)⟩

/-! ### A SOLVE starts (R376, R384) -/

/-- Without an injection armed no store error is met. -/
theorem State.solvStoreInj_unarmed {s : State} (h0 : s.injArmed rSOLV 0 = false) (h1 : s.injArmed rSOLV 1 = false)
    (r : SolvRun) : s.solvStoreInj r = (r, s) := by
  unfold State.solvStoreInj
  split
  · rfl
  · simp only [h0, h1, Bool.false_eq_true, ↓reduceIte]

/-- What a SOLVE reads passes every check, its reference has closed if it uses one, and no read fails: `v` is the state of
its start, `u` the one after its problem records are read, `w` the one after its delta lists are, `ds` the problems with
their deltas. -/
structure SolveReads (v u w : State) (q : Nat) (o : Op) (ds : List SolvProb) (useRef : Bool) : Prop where
  words : solveWordsOk o = true
  usesRef : flagOf (o.word 7) 16 = useRef
  closed : useRef = true → u.refClosed o = true
  problems : ∃ bs, v.txRead (some 0x48) (o.addr 0x10) (32 * (o.fld 0x18 9 0 + 1)) (some (rSOLV, q, o.index)) = (.ok bs, u) ∧
    u.solveForm o (probsOf (o.fld 0x18 9 0 + 1) bs) (v.queue rSOLV q).tenant = true ∧
    (probsOf (o.fld 0x18 9 0 + 1) bs).any (fun p => decide (16384 < p.ndelta) || decide (16384 < p.nref) ||
      !solvSpares.avail u p.lane) = false ∧
    State.readDeltas useRef (rSOLV, q, o.index) (probsOf (o.fld 0x18 9 0 + 1) bs) u = (ds, false, w)

/-- The SOLVE that stands in the array once its deltas are read. -/
def SolvRun.started (q : Nat) (o : Op) (tenant now : Nat) (ds : List SolvProb) : SolvRun :=
  { queue := q, index := o.index, tenant := tenant, start := now, refprev := false, wcet := (o.word 9).toNat, probs := ds }

/-- The array at work on a SOLVE, whose status comes when it ends. -/
def State.solving (w : State) (r : SolvRun) : State :=
  ((((w.setSolvRun r).setFlag (kSTAT rSOLV) 16 true).conclude rSOLV r.queue r.index stDONE).solvCut).solvDue

/-- A SOLVE whose reads pass every check runs, where no injection is armed. -/
theorem State.solveStart_runs {s u w t : State} {q : Nat} {o : Op} {ds : List SolvProb} {useRef : Bool}
    (h : SolveReads (s.solvStart q o) u w q o ds useRef) (hinj : ∀ b, b < 5 → w.injArmed rSOLV b = false)
    (ht : t = w.solving (.started q o ((s.solvStart q o).queue rSOLV q).tenant w.now ds))
    (hlate : t.injArmed rSOLV 2 = false) : s.solveStart q o = t := by
  obtain ⟨hwords, rfl, hclosed, bs, hread, hform, hlimits, hdeltas⟩ := h
  have huse : (flagOf (o.word 7) 16 && u.refClosed o) = flagOf (o.word 7) 16 := by
    cases hflag : flagOf (o.word 7) 16 with
    | false => rfl
    | true => exact hclosed hflag
  have hprev : (flagOf (o.word 7) 16 && !u.refClosed o) = false := by
    rw [← huse, Bool.and_assoc, Bool.and_not_self, Bool.and_false]
  subst ht
  unfold State.solving SolvRun.started at hlate ⊢
  unfold State.solveStart
  simp only [hwords, hread, hform, hlimits, huse, hprev, hdeltas, hinj 3 (by decide), hinj 4 (by decide),
    State.solvStoreInj_unarmed (hinj 0 (by decide)) (hinj 1 (by decide)), hlate, Bool.true_eq_false, Bool.false_eq_true,
    ↓reduceIte]

/-- The array's next SOLVE does not start while it waits for its reference. -/
theorem effSolve_waits {s : State} {q : Nat} {o : Op} (hnext : s.solvNext q 0x10 = some o) (hwait : s.solveWaits o = true) :
    effSolve q s = s := by
  unfold effSolve
  simp only [hnext, hwait, ↓reduceIte]

/-- The array's next SOLVE starts when it uses no reference or one that has closed. -/
theorem effSolve_starts {s : State} {q : Nat} {o : Op} (hnext : s.solvNext q 0x10 = some o)
    (hready : flagOf (o.word 7) 16 = true → s.refClosed o = true) : effSolve q s = s.solveStart q o := by
  have hwait : ¬s.solveWaits o = true := by
    unfold State.solveWaits
    simp only [Bool.and_eq_true, Bool.not_eq_true']
    rintro ⟨⟨⟨-, hflag⟩, -⟩, hopen⟩
    exact Bool.false_ne_true (hopen.symm.trans (hready hflag))
  unfold effSolve
  simp only [hnext, hwait, Bool.false_eq_true, ↓reduceIte]

/-- The close of the reference's step starts a deterministic job's SOLVE. -/
theorem effSolveRefReady_starts {s : State} {q : Nat} {o : Op} (hnext : s.solvNext q 0x10 = some o)
    (hflag : flagOf (o.word 7) 16 = true) (hclosed : s.refClosed o = true) (hdet : s.isDet o.job = true) :
    effSolveRefReady q s = s.solveStart q o := by
  unfold effSolveRefReady
  simp only [hnext, hflag, hclosed, hdet, Bool.and_self, ↓reduceIte]

/-! ### A SOLVE is cut by its deadline or given up at its watchdog (R385, R393) -/

/-- No SOLVE at work, nothing to cut. -/
theorem State.solvCut_idle {s : State} (h : s.solv.run = none) : s.solvCut = s := by
  unfold State.solvCut
  rw [h]

section
variable {s : State} {r : SolvRun} {o : Op} (hrun : s.solv.run = some r) (hop : s.findOp rSOLV r.queue r.index = some o)
include hrun hop

/-- A SOLVE without a deadline is not cut. -/
theorem State.solvCut_noDeadline (hdl : o.dl = false) : s.solvCut = s := by
  unfold State.solvCut
  simp only [hrun, hop, hdl, true_or, ↓reduceIte]

/-- A deadline reached while the timebase advances cuts the SOLVE at the cycle of its phase. -/
theorem State.solvCut_reached (hcut : r.cut = none) (hdl : o.dl = true) (hreached : s.reached o.deadline = true)
    (hincr : s.incr ≠ 0) : s.solvCut = s.setSolvRun { r with
      cut := some (solvCyc (s.now - r.start - (s.phase - (o.deadline.setWidth 96 <<< 32)).toNat / s.incr)) } := by
  unfold State.solvCut
  simp only [hrun, hop, hcut, hdl, hreached, hincr, Bool.true_eq_false, Option.isSome_none, Bool.false_eq_true, or_self,
    ↓reduceIte]

/-- A SOLVE without a deadline that is past its WCET is given up. -/
theorem effSolveWcet_givesUp (hdl : o.dl = false) {a : Nat}
    (habort : r.abortAt (s.solvRunAll r) = some (a, stERR_TIMEOUT_WCET)) (hpast : a < solvCyc (s.now - r.start)) :
    effSolveWcet s = s.solvGiveUp r a stERR_TIMEOUT_WCET := by
  unfold effSolveWcet
  simp only [State.solvCut_noDeadline hrun hop hdl, hrun, habort, hpast, and_self, ↓reduceIte]

end

/-! ### Lane faults (R398, R399) -/

/-- A lane fault is counted in BLK_ECNT2 and flagged. -/
def State.laneFaulted (s : State) (lane : Nat) : State := (s.count rSOLV 2).raise rSOLV 16 { index := lane }

/-- A lane that faults without restart is withdrawn: it fails, goes out of service, and cause 8 is posted. -/
def State.laneWithdrawn (s : State) (lane : Nat) : State :=
  (((solvSpares.setAvail (solvSpares.setSt s (solvSpares.phys s lane) 2) lane false).setFlag (kSTAT rSOLV) 2 true).raise
    rSOLV 17 { index := lane }).postCause 8 false

section
variable {s u : State} {lane : Nat} (hidle : s.solv.run = none) (hu : u = s.laneFaulted lane)
include hidle hu

/-- With RESTART_EN a fault of an idle lane is handed to the spares. -/
theorem effLaneFault_spared (hrestart : u.flag (kCTRL rSOLV) 17 = true)
    (hend : (solvSpares.fault u lane).2.solv.run = none) : effLaneFault lane s = (solvSpares.fault u lane).2 := by
  subst hu
  unfold State.laneFaulted at hrestart hend ⊢
  unfold effLaneFault State.laneFault
  simp only [State.solvCut_idle hidle, hrestart, hend, ↓reduceIte]

/-- Without RESTART_EN a lane that faults while idle is withdrawn. -/
theorem effLaneFault_withdrawn (hrestart : u.flag (kCTRL rSOLV) 17 = false)
    (hend : (u.laneWithdrawn lane).solv.run = none) : effLaneFault lane s = u.laneWithdrawn lane := by
  subst hu
  unfold State.laneWithdrawn at hend ⊢
  unfold State.laneFaulted at hrestart hend ⊢
  unfold effLaneFault State.laneFault
  simp only [State.solvCut_idle hidle, hrestart, hend, Bool.false_eq_true, ↓reduceIte]

end

/-- Settles O31: the start and the wait of a SOLVE, its deadline and its watchdog, and a lane's fault by RESTART_EN. -/
theorem solvesRun : Obligations.SolvesRun := by
  intro s q
  refine ⟨?starts, fun o hnext hwait => congrArg Host.Outcome.next (effSolve_waits hnext hwait), ?ends, ?laneFaults⟩
  case starts =>
    rintro u w o bs _ ds useRef hnext hwords hflag hready hread - hsame rfl hform hlimits hdeltas hinj t ht hlate
    have hreads : SolveReads (s.solvStart q.toNat o) u w q.toNat o ds useRef :=
      ⟨hwords, hflag, fun huse => hsame.trans (hready huse).1, bs, hread, hform, hlimits, hdeltas⟩
    have hruns : s.solveStart q.toNat o = t := State.solveStart_runs hreads hinj ht hlate
    refine ⟨congrArg Host.Outcome.next ?_, fun huse => congrArg Host.Outcome.next ?_⟩
    · exact (effSolve_starts hnext fun h => (hready (hflag.symm.trans h)).1).trans hruns
    · obtain ⟨hclosed, hdet⟩ := hready huse
      exact (effSolveRefReady_starts hnext (hflag.trans huse) hclosed hdet).trans hruns
  case ends =>
    intro r o hrun hop hcut
    exact ⟨fun hdl hreached hincr => congrArg (fun t => Host.Outcome.next (State.solvDue t))
        (State.solvCut_reached hrun hop hcut hdl hreached hincr),
      fun hdl a habort hpast => congrArg Host.Outcome.next (effSolveWcet_givesUp hrun hop hdl habort hpast)⟩
  case laneFaults =>
    intro lane u hidle hu
    refine ⟨fun hrestart hend => congrArg Host.Outcome.next (effLaneFault_spared hidle hu hrestart hend), ?_⟩
    rintro hrestart _ rfl hend
    exact congrArg Host.Outcome.next (effLaneFault_withdrawn hidle hu hrestart hend)

end Sys2Proof.Machine
end

section
/-! The Occultation Unit: INSTALL, BODY and SEED, CHECK and its deadline, SELECT and its watchdog, and the reports of the
hand-off (R408–R437). -/

namespace Sys2Proof.Machine

/-- The conclusion of an operation takes no time. -/
@[simp] theorem State.conclude_now (s : State) (region q index st : Nat) (result : DWord) (after : Nat) (tcc retried : Bool) :
    (s.conclude region q index st result after tcc retried).now = s.now := rfl

/-! ### INSTALL and BODY (R408, R409, R411) -/

/-- The operands of an INSTALL are in order and both its reads succeed: `v` is the state of its start, `t` the one after its
image `bs` of `n` nodes is read. -/
structure InstallReads (v t : State) (q : Nat) (o : Op) (n : Nat) (bs : List Byte) : Prop where
  aligned : o.addr 0x18 % 64 = 0
  word4 : o.word 4 = 0#32
  word5 : o.word 5 = 0#32
  rest : zeroWords o 8 = true
  someNode : n ≠ 0
  limit : n ≤ 1048576
  image : ∃ h w, v.txRead (some 0x49) (o.addr 0x18) 64 (some (rOCC, q, o.index)) = (.ok h, w) ∧
    bitsOf (leNat ((h.drop 4).take 4)) 20 0 = n ∧
    w.txRead (some 0x49) (o.addr 0x18) (0x1044 + 16 * n) (some (rOCC, q, o.index)) = (.ok bs, t)

/-- What an INSTALL into slot `k` does with the Chart of the image that it has read, `none` where that is malformed. -/
def State.installImage (t : State) (q index k n : Nat) : Option Chart → State
  | none => t.rejectInstall q index stREJ_FORMAT (occNs (1200 + ceilDiv n 8))
  | some c =>
    let x := (t.setSlot_ k { st := 1 }).conclude rOCC q index stDONE 0 (occNs (1200 + ceilDiv n 8))
    ({ x with occ := { x.occ with load := some ⟨q, index, k, c⟩ } } : State).showOcc

/-- An INSTALL that has read its image goes by what `chartOf` says of it. -/
theorem effOccInstall_reads {s t : State} {q k n : Nat} {o : Op} {bs : List Byte} (hnext : s.dropDeadOcc.occNext q 1 = some o)
    (hfree : (List.range 3).find? (fun k => (s.dropDeadOcc.slot_ k).st == 0) = some k)
    (h : InstallReads (s.dropDeadOcc.occStart q o) t q o n bs) :
    effOccInstall q s = t.installImage q o.index k n (chartOf n bs) := by
  obtain ⟨haligned, hword4, hword5, hrest, hnode, hlimit, header, w, hheader, rfl, himage⟩ := h
  unfold effOccInstall
  simp only [hnext, hfree, haligned, hword4, hword5, hrest, hheader, himage, hnode, Nat.not_lt.mpr hlimit, ne_eq,
    not_true_eq_false, Bool.true_eq_false, or_self, ↓reduceIte]
  cases chartOf _ bs with
  | none => rfl
  | some c => rfl

/-- A BODY whose operands and image are in order runs for 100 cycles with the model that the image holds. -/
theorem effOccBody_runs {s w t : State} {q : Nat} {o : Op} {h bs : List Byte} (hnext : s.dropDeadOcc.occNext q 2 = some o)
    (haligned : o.addr 0x18 % 64 = 0) (hword4 : o.fld 0x10 31 3 = 0) (hword5 : o.word 5 = 0#32) (hrest : zeroWords o 8 = true)
    (hheader : (s.dropDeadOcc.occStart q o).txRead (some 0x49) (o.addr 0x18) 64 (some (rOCC, q, o.index)) = (.ok h, w))
    (himage : w.txRead (some 0x49) (o.addr 0x18) (64 + 32 * (bitsOf (leNat (h.take 4)) 3 0 + 1))
      (some (rOCC, q, o.index)) = (.ok bs, t))
    (hgood : bodyStatus bs = 0) :
    effOccBody q s = (t.conclude rOCC q o.index stDONE).setOccRun
      { queue := q, index := o.index, start := t.now, cycles := 100, body := some (o.fld 0x10 2 0, bodyOf bs) } := by
  unfold effOccBody
  simp only [hnext, haligned, hword4, hword5, hrest, hheader, himage, hgood, State.conclude_now, ne_eq, not_true_eq_false,
    Bool.true_eq_false, or_self, ↓reduceIte]

/-! ### SEED (R437) -/

/-- The operands of a SEED are in order. -/
structure Op.SeedForm (o : Op) : Prop where
  aligned : o.addr 0x10 % 16 = 0
  count : o.fld 0x18 31 6 = 0
  rest : zeroWords o 10 = true

/-- The times that a SEED samples. -/
def Op.seedTimes (o : Op) : List Nat := (List.range (o.fld 0x18 5 0 + 1)).map (fun k => o.addr 0x20 + k * (o.word 7).toNat)

/-- The poses of a trajectory at these times, as a SEED writes them. -/
def Traj.seedBytes (p : Traj) (times : List Nat) : List Byte :=
  times.flatMap (fun t =>
    bytesOf [(poseAt p.words p.knots t).x.1, (poseAt p.words p.knots t).y.1, (poseAt p.words p.knots t).yaw.1, 0#32])

/-- A SEED is degraded by a time past the end of the plan. -/
def Traj.seedStatus (p : Traj) (times : List Nat) : Nat :=
  if times.any (fun t => decide (cEnd p.words < t)) then stDONE_DEGRADED else stDONE

section
variable {s v : State} {q : Nat} {o : Op} (hnext : s.dropDeadOcc.occNext q 0x12 = some o)
  (hv : v = s.dropDeadOcc.occStart q o) (hform : o.SeedForm)
include hnext hv hform

/-- Without a held plan a SEED concludes NO_PATH. -/
theorem effSeed_noPlan (hplan : v.occ.plan = none) :
    effSeed q s = v.conclude rOCC q o.index stNO_PATH 0 (occNs (100 + 2 * (o.fld 0x18 5 0 + 1))) := by
  subst hv
  obtain ⟨haligned, hcount, hrest⟩ := hform
  unfold effSeed
  simp only [hnext, haligned, hcount, hrest, hplan, ne_eq, not_true_eq_false, Bool.true_eq_false, or_self, ↓reduceIte]

/-- A SEED samples the held plan. -/
theorem effSeed_samples {p : Traj} {x : State} (hplan : v.occ.plan = some p)
    (hx : x = v.conclude rOCC q o.index (p.seedStatus o.seedTimes)) :
    effSeed q s = x.setOccRun
      { queue := q, index := o.index, start := x.now, cycles := 100 + 2 * (o.fld 0x18 5 0 + 1),
        write := some (o.addr 0x10, p.seedBytes o.seedTimes) } := by
  subst hv hx
  obtain ⟨haligned, hcount, hrest⟩ := hform
  unfold effSeed
  simp only [hnext, haligned, hcount, hrest, hplan, ne_eq, not_true_eq_false, Bool.true_eq_false, or_self, ↓reduceIte]
  rfl

end

/-- Settles O32: an INSTALL by what its image holds, a BODY, and a SEED by whether a plan is held. -/
theorem chartsAndBodies : Obligations.ChartsAndBodies := by
  rintro s _ _ q o rfl rfl
  refine ⟨?installs, ?loads, ?seeds⟩
  case installs =>
    rintro k n h bs w t hnext hfree haligned hword4 hword5 hrest hheader rfl hnode hlimit himage
    have hreads : InstallReads (s.dropDeadOcc.occStart q.toNat o) t q.toNat o _ bs :=
      ⟨haligned, hword4, hword5, hrest, hnode.ne', hlimit, h, w, hheader, rfl, himage⟩
    have hinstall := effOccInstall_reads hnext hfree hreads
    refine ⟨fun hbad => congrArg Host.Outcome.next ?_, ?_⟩
    · rw [hinstall, hbad]
      rfl
    · rintro c _ hchart rfl
      refine congrArg Host.Outcome.next ?_
      rw [hinstall, hchart]
      rfl
  case loads =>
    rintro h bs w t _ hnext haligned hword4 hword5 hrest hheader himage hgood rfl
    exact congrArg Host.Outcome.next
      (effOccBody_runs hnext haligned hword4 hword5 hrest hheader himage hgood)
  case seeds =>
    intro hnext haligned hcount hrest
    have hform : o.SeedForm := ⟨haligned, hcount, hrest⟩
    refine ⟨fun hplan => congrArg Host.Outcome.next (effSeed_noPlan hnext rfl hform hplan), ?_⟩
    rintro p _ x hplan rfl hx
    exact congrArg Host.Outcome.next (effSeed_samples hnext rfl hform hplan hx)

/-! ### A CHECK starts (R421–R424) -/

/-- A CHECK passes its checks and none of its reads fails: `v` is the state of its start, `x` the one after its candidate
records `recs` and their knots `ks` are read. -/
structure CheckReads (v x : State) (q : Nat) (o : Op) (recs ks : List (List Word)) : Prop where
  form : checkOk o = true
  distinct : distinct (recs.map (fun r => cFld r 0 10 0)) = true
  reads : ∃ bs w,
    v.txRead (some 0x49) (o.addr 0x10) (64 * (o.fld 0x18 10 0 + 1)) (some (rOCC, q, o.index)) = (.ok bs, w) ∧
    recs = splitRecs (o.fld 0x18 10 0 + 1) (wordsOf bs) ∧
    recs.all (fun r => candOk r && (w.bodyModel (cFld r 0 14 12)).isSome) = true ∧
    State.readKnots (rOCC, q, o.index) recs w = (.ok ks, x)

/-- Without an injection armed a descriptor's tests meet no error. -/
theorem State.occInject_unarmed {s : State} (h : ∀ b, b < 5 → s.injArmed rOCC b = false) (k tests : Nat) :
    s.occInject k tests = (false, 0, s) := by
  unfold State.occInject
  simp only [h 0 (by decide), h 1 (by decide), h 2 (by decide), Bool.and_false, Bool.false_eq_true, ↓reduceIte, ite_self]

section
variable {s x : State} {q : Nat} {o : Op} {recs ks : List (List Word)} (hnext : s.dropDeadOcc.occNext q 0x10 = some o)
  (h : CheckReads (s.dropDeadOcc.occStart q o) x q o recs ks)
include hnext h

/-- Without a current Chart a CHECK reports every candidate as NOEPOCH. -/
theorem effCheck_noChart (hcur : x.curSlot = none) :
    effCheck q s = ((x.conclude rOCC q o.index stDONE).setOccRun
      { queue := q, index := o.index, start := x.now, cycles := 200 + 2 * (o.fld 0x18 10 0 + 1), wcet := (o.word 10).toNat,
        outs := recs.map (fun r => { words := r, noepoch := true }) }).occCut := by
  obtain ⟨hform, hdistinct, bs, w, hrecords, rfl, hgood, hknots⟩ := h
  unfold effCheck
  simp only [hnext, hform, hrecords, hgood, hdistinct, hknots, hcur, Bool.true_eq_false, or_self, ↓reduceIte]

/-- A CHECK tests its candidates against the current Chart, where no injection is armed. -/
theorem effCheck_tests {k : Nat} {ch : Chart} {outs : List CandOut} (hinj : ∀ b, b < 5 → x.injArmed rOCC b = false)
    (hcur : x.curSlot = some k) (hchart : (x.slot_ k).chart = some ch)
    (houts : outs = (testAll ch x.bodies (o.fld 0x1C 12 0) (recs.zip ks) false).1) :
    effCheck q s = ((x.conclude rOCC q o.index stDONE).setOccRun
      { queue := q, index := o.index, start := x.now,
        cycles := 200 + 2 * (o.fld 0x18 10 0 + 1) +
          testCycles (outs.foldl (fun a c => a + c.tests) 0) (outs.foldl (fun a c => a + c.placed) 0),
        wcet := (o.word 10).toNat, slot := some k, epoch := (x.slot_ k).epoch, outs := outs }).occCut := by
  obtain ⟨hform, hdistinct, bs, w, hrecords, rfl, hgood, hknots⟩ := h
  subst houts
  unfold effCheck
  simp only [hnext, hform, hrecords, hgood, hdistinct, hknots, hcur, hchart, Option.getD_some, hinj 3 (by decide),
    Bool.false_and, State.occInject_unarmed hinj, Bool.true_eq_false, Bool.false_eq_true, or_self, ↓reduceIte]

end

/-! ### The deadline of a CHECK and the watchdog (R425, R429) -/

section
variable {s : State} {r : OccRun} {o : Op} (hrun : s.occ.run = some r) (hop : s.findOp rOCC r.queue r.index = some o)
include hrun hop

/-- A deadline reached while the timebase advances cuts a CHECK at the cycle of its phase. -/
theorem State.occCut_reached (hopcode : o.opcode = 0x10) (hdl : o.dl = true) (hcut : r.cut = none)
    (hreached : s.reached o.deadline = true) (hincr : s.incr ≠ 0) :
    s.occCut = s.setOccRun { r with
      cut := some ((s.now - r.start - (s.phase - (o.deadline.setWidth 96 <<< 32)).toNat / s.incr) / 2) } := by
  unfold State.occCut
  simp only [hrun, hop, hopcode, hdl, hcut, hreached, hincr, ne_eq, not_true_eq_false, Bool.true_eq_false,
    Option.isSome_none, Bool.false_eq_true, or_self, ↓reduceIte]

/-- Only a CHECK has a deadline. -/
theorem State.occCut_notCheck (hopcode : o.opcode ≠ 0x10) : s.occCut = s := by
  unfold State.occCut
  simp only [hrun, hop, hopcode, ne_eq, not_false_eq_true, true_or, ↓reduceIte]

/-- The checker's descriptor completes by what it has done, when no freeze has ended a descriptor, no INSTALL is in
execution and no deadline cuts it. -/
theorem State.occComplete_run (hload : s.occ.load = none) (halive : s.dropDeadOcc = s) (hcut : s.occCut = s) :
    s.occComplete r.queue o = s.runDone r o := by
  have hindex : o.index = r.index := by simpa using List.find?_some hop
  unfold State.occComplete
  simp only [halive, hcut, hload, hrun, hindex, BEq.rfl, Bool.and_self, ↓reduceIte]

/-- A SELECT past its watchdog completes. -/
theorem effOccWcet_completes (hload : s.occ.load = none) (halive : s.dropDeadOcc = s) (hopcode : o.opcode ≠ 0x10)
    (hcut : r.cut = none) (hwcet : r.wcet ≠ 0) (hover : r.wcet < r.cycles + r.slow) (hpast : r.start + occNs r.wcet < s.now) :
    effOccWcet s = s.runDone r o := by
  have hsame : s.occCut = s := State.occCut_notCheck hrun hop hopcode
  unfold effOccWcet
  simp only [hsame, hrun, hop, hcut, hwcet, hover, hpast, ne_eq, not_false_eq_true, and_self, ↓reduceIte,
    State.occComplete_run hrun hop hload halive hsame]

end

/-- A SELECT that needs more cycles than its watchdog allows ends ERR_TIMEOUT_WCET. -/
theorem State.selectDone_expired {s : State} {r : OccRun} {c : Choice} (hwcet : r.wcet ≠ 0) (hover : r.wcet < r.cycles + r.slow) :
    s.selectDone r c = ((((s.occCounts r.tests r.tcaps).count rOCC 6).occEndRun.showOcc).finish rOCC r.queue r.index
      stERR_TIMEOUT_WCET) := by
  unfold State.selectDone
  simp only [hwcet, hover, ne_eq, not_false_eq_true, and_self, ↓reduceIte]

/-- The checker's descriptor that has a choice is a SELECT. -/
theorem State.runDone_select {s : State} {r : OccRun} {o : Op} {c : Choice} (hbody : r.body = none) (hwrite : r.write = none)
    (hchoice : r.choice = some c) : s.runDone r o = s.selectDone r c := by
  unfold State.runDone
  rw [hbody, hwrite, hchoice]

/-! ### A SELECT starts (R430–R433) -/

/-- The first eligible entry of a role is taken without a re-check where it was tested against the current epoch (R431). -/
theorem State.selectRole_fresh {s w : State} {ch : Chart} {epoch rcmax tmax : Nat} {viol : Nat × Nat × Nat} {e : OccEntry}
    {es : List OccEntry} {x : Sel} {bs : List Byte} (hfresh : e.epoch = epoch)
    (hread : s.txRead (some 0x49) (cAddr e.words 8) (16 * cNk e.words) (some viol) = (.ok bs, w)) :
    State.selectRole ch epoch rcmax tmax viol (e :: es) x s = (some ⟨e.words, wordsOf bs, epoch⟩, x, w) := by
  unfold State.selectRole
  simp only [hfresh, BEq.rfl, Bool.true_eq_false, false_and, ↓reduceIte, hread]

/-- A SELECT's timeout flag in its RESULT: a CHECK of its step missed its deadline (R436). -/
def State.missedBit (s : State) (o : Op) : Nat := if s.occ.missed.contains o.step then 4 else 0

/-- What a SELECT without a Chart chooses: to send nothing. -/
def Choice.nothing (s : State) (o : Op) : Choice :=
  { kind := 3, status := stNO_PATH, record := handOffRecord 3 stNO_PATH 0 o.step (o.word 5).toNat none none,
    result := BitVec.ofNat 64 (0x7FF + 0x7FF * 2 ^ 11 + (3 + s.missedBit o + 16) * 2 ^ 32) }

/-- What a SELECT with a plan and a fall-back chooses: to send both. -/
def Choice.both (s : State) (o : Op) (epoch : Nat) (p g : Traj) (pb gb : List Byte) : Choice :=
  { kind := 0, plan := some p, fb := some g, planBlock := pb, fbBlock := gb, status := stDONE,
    record := handOffRecord 0 stDONE epoch o.step (o.word 5).toNat (some p) (some g),
    result := BitVec.ofNat 64 (p.cid + g.cid * 2 ^ 11 + s.missedBit o * 2 ^ 32) }

section
variable {s v : State} {q : Nat} {o : Op} (hnext : s.dropDeadOcc.occNext q 0x11 = some o)
  (hv : v = s.dropDeadOcc.occStart q o) (hform : selectOk o = true) (hinj : v.injArmed rOCC 3 = false)
include hnext hv hform hinj

/-- A SELECT without a Chart sends nothing. -/
theorem effSelect_noChart (hcur : v.curSlot = none) :
    effSelect q s = (v.conclude rOCC q o.index stDONE).setOccRun
      { queue := q, index := o.index, start := v.now, cycles := 506, wcet := (o.word 7).toNat,
        choice := some (.nothing v o) } := by
  subst hv
  unfold Choice.nothing State.missedBit
  have hbytes : ceilDiv (([] : List Byte).length + ([] : List Byte).length) 128 = 0 := rfl
  unfold effSelect
  simp only [hnext, hform, hinj, hcur, decideKind, State.readBlock, hbytes, cidOf, State.conclude_now, Option.isNone_none,
    Nat.lt_irrefl, Nat.zero_mul, Nat.add_zero, Bool.true_eq_false, Bool.false_eq_true, Bool.false_and, ↓reduceIte]

/-- A SELECT that finds a plan and a fall-back without a re-check reads both blocks and sends both, where no injection is
armed. -/
theorem effSelect_both {k epoch : Nat} {ch : Chart} {p g : Traj} {pb gb : List Byte} {w₁ w₂ w₃ w : State}
    (hcur : v.curSlot = some k) (hchart : (v.slot_ k).chart = some ch) (hepoch : epoch = (v.slot_ k).epoch)
    (hplan : State.selectRole ch epoch (o.fld 0x10 5 0) (o.fld 0x18 12 0) (rOCC, q, o.index) (v.eligible o.step false) {} v =
      (some p, {}, w₁))
    (hfb : State.selectRole ch epoch (o.fld 0x10 5 0) (o.fld 0x18 12 0) (rOCC, q, o.index) (w₁.eligible o.step true) {} w₁ =
      (some g, {}, w₂))
    (hinj₂ : w₂.injArmed rOCC 3 = false)
    (hpb : w₂.readBlock (some p) (rOCC, q, o.index) = (.ok pb, w₃))
    (hgb : w₃.readBlock (some g) (rOCC, q, o.index) = (.ok gb, w))
    (hunarmed : ∀ b, b < 5 → w.injArmed rOCC b = false) :
    effSelect q s = (w.conclude rOCC q o.index stDONE).setOccRun
      { queue := q, index := o.index, start := w.now, cycles := 506 + ceilDiv (pb.length + gb.length) 128,
        wcet := (o.word 7).toNat, slot := some k, epoch := epoch, choice := some (.both w o epoch p g pb gb) } := by
  subst hv hepoch
  unfold Choice.both State.missedBit
  unfold effSelect
  simp only [hnext, hform, hinj, hcur, hchart, hplan, hfb, hinj₂, hpb, hgb, decideKind, State.occInject_unarmed hunarmed,
    cidOf, State.conclude_now, Option.isSome_none, Option.isNone_some, Nat.lt_irrefl, Nat.zero_mul, Nat.add_zero,
    Nat.zero_add, Bool.true_eq_false, Bool.false_eq_true, Bool.false_and, ↓reduceIte]

end

/-! ### The report of the hand-off (R434–R436) -/

/-- The report of the hand-off is taken. -/
def State.reportTaken (s : State) : State :=
  { s with drive := { s.drive with report := none }, occ := { s.occ with wait := none } }

section
variable {s : State} {w : OccWait} {rep : Nat} (hrep : s.drive.report = some rep) (hwait : s.occ.wait = some w)
include hrep hwait

/-- An accepted hand-off is adopted and completes its SELECT. -/
theorem effHandOffReport_accepted (hok : rep = 0) (hstatus : w.choice.status = stDONE) :
    effHandOffReport s =
      (s.reportTaken.adopt w.choice).showOcc.finish rOCC w.queue w.index stDONE w.choice.result := by
  subst hok
  unfold effHandOffReport
  simp only [hrep, hwait, hstatus, stDONE, stDONE_PREV, stNO_PATH, zero_ne_one, OfNat.zero_ne_ofNat, Nat.reduceBEq,
    Bool.or_self, Bool.false_eq_true, ↓reduceIte]
  rfl

/-- A refused hand-off is counted and flagged, and its SELECT ends ERR_DATA. -/
theorem effHandOffReport_refused (hbad : rep = 1) :
    effHandOffReport s =
      (((s.reportTaken.count rOCC 7).raise rOCC 19 { queue := w.queue, index := w.index }).showOcc).finish rOCC w.queue w.index
        stERR_DATA w.choice.result := by
  subst hbad
  unfold effHandOffReport
  simp only [hrep, hwait, stERR_DATA, stDONE_PREV, stNO_PATH, one_ne_zero, Nat.reduceEqDiff, OfNat.ofNat_ne_one,
    Nat.reduceBEq, Bool.or_self, Bool.false_eq_true, ↓reduceIte]
  rfl

end

/-- Settles O33: a CHECK and its deadline, a SELECT and its watchdog, and the two reports of a hand-off. -/
theorem checksAndSelects : Obligations.ChecksAndSelects := by
  intro s
  refine ⟨?checks, ?ends, ?selects, ?reports⟩
  case checks =>
    rintro _ _ w x _ q o bs recs ks rfl hnext hform rfl hrecords hrecs hgood hdistinct hknots rfl hinj
    have hreads : CheckReads (s.dropDeadOcc.occStart q.toNat o) x q.toNat o recs ks :=
      ⟨hform, hdistinct, bs, w, hrecords, hrecs, hgood, hknots⟩
    exact ⟨fun hcur => congrArg Host.Outcome.next (effCheck_noChart hnext hreads hcur),
      fun k ch outs hcur hchart houts => congrArg Host.Outcome.next (effCheck_tests hnext hreads hinj hcur hchart houts)⟩
  case ends =>
    intro r o hrun hop
    refine ⟨fun hopcode hdl hcut hreached hincr => congrArg Host.Outcome.next
      (State.occCut_reached hrun hop hopcode hdl hcut hreached hincr), ?_⟩
    intro c hopcode hbody hwrite hchoice hcut hload halive hwcet hover hpast
    have hselect : o.opcode ≠ 0x10 := by
      rw [hopcode]
      decide
    refine congrArg Host.Outcome.next ?_
    calc effOccWcet s = s.runDone r o := effOccWcet_completes hrun hop hload halive hselect hcut hwcet hover hpast
      _ = s.selectDone r c := State.runDone_select hbody hwrite hchoice
      _ = _ := State.selectDone_expired hwcet hover
  case selects =>
    rintro _ v x q o rfl hnext hform hv
    refine ⟨?_, ?_⟩
    · rintro hcur hinj rfl
      exact congrArg Host.Outcome.next (effSelect_noChart hnext hv hform hinj hcur)
    · rintro k ch e f es fs b1 b2 b3 b4 w1 w2 w3 w4 _ _ hcur hchart hplans hfbs hplanFresh hfbFresh hunarmed hinj hinj₂
        hplanRead hfbRead rfl rfl hpb hgb rfl
      have hplan : State.selectRole ch (v.slot_ k).epoch (o.fld 0x10 5 0) (o.fld 0x18 12 0) (rOCC, q.toNat, o.index)
          (v.eligible o.step false) {} v = (some ⟨e.words, wordsOf b1, (v.slot_ k).epoch⟩, {}, w1) := by
        rw [hplans]
        exact State.selectRole_fresh hplanFresh hplanRead
      have hfb : State.selectRole ch (v.slot_ k).epoch (o.fld 0x10 5 0) (o.fld 0x18 12 0) (rOCC, q.toNat, o.index)
          (w1.eligible o.step true) {} w1 = (some ⟨f.words, wordsOf b2, (v.slot_ k).epoch⟩, {}, w2) := by
        rw [hfbs]
        exact State.selectRole_fresh hfbFresh hfbRead
      exact congrArg Host.Outcome.next (effSelect_both hnext hv hform hinj hcur hchart rfl hplan hfb hinj₂ hpb hgb hunarmed)
  case reports =>
    rintro w rep _ hrep hwait rfl
    exact ⟨fun hok hstatus => congrArg Host.Outcome.next (effHandOffReport_accepted hrep hwait hok hstatus),
      fun hbad => congrArg Host.Outcome.next (effHandOffReport_refused hrep hwait hbad)⟩

end Sys2Proof.Machine
end

section
/-! The Alignment and Fusion Unit: samples, reference events and publication of its sensors (R444–R446, R462, R463), and the
instants of its streams, its ego estimate and its fusion deadlines (R448–R461). -/

namespace Sys2Proof.Machine

/-! ### Samples of a sensor (R444, R446) -/

/-- A sensor's sample has been seen: its silence is counted from now. -/
def State.sampleSeen (s : State) (n : Nat) : State := s.putSen n { s.sen n with lastSample := s.now }

/-- A camera's frame once its pairing is known: the trigger that it has paired with takes it, or it is counted as unpaired. -/
def State.notePairing (u : State) (n : Nat) : Option (List (Nat × Option Nat)) → State
  | some fs => u.putSen n { u.sen n with frames := fs }
  | none => u.addSat (kSEN n 2) 15 3 1

section
variable {s : State} {n : Nat} (ts : Nat) (hup : s.pdDown (regionPd rAFU) = false) (hon : s.senOn n = true)
include hup hon

/-- A sample brings a SILENT sensor to ACQUIRE. -/
theorem effSensorSample_silent (hst : (s.sampleSeen n).senState n = 4) :
    effSensorSample n ts s = (s.sampleSeen n).setSen n 1 := by
  unfold State.sampleSeen at hst ⊢
  unfold effSensorSample
  simp only [hup, hon, hst, Bool.false_eq_true, Bool.true_eq_false, or_self, ↓reduceIte]

/-- A sample brings a sensor that gives no reference events from ACQUIRE to LOCKED. -/
theorem effSensorSample_acquire (hst : (s.sampleSeen n).senState n = 1) (hkind : 3 ≤ s.senKind n) :
    effSensorSample n ts s = (s.sampleSeen n).setSen n 2 := by
  unfold State.sampleSeen at hst ⊢
  unfold effSensorSample
  simp only [hup, hon, hst, hkind, Bool.false_eq_true, Bool.true_eq_false, or_self, ↓reduceIte]

/-- A frame start of a LOCKED camera is paired by the time of its arrival. -/
theorem effSensorSample_frame (hst : (s.sampleSeen n).senState n = 2) (hkind : s.senKind n = 1) :
    effSensorSample n ts s = (s.sampleSeen n).notePairing n
      (pairFrame (s.sampleSeen n).now ((s.sampleSeen n).sen n).fwin 0 ((s.sampleSeen n).sen n).frames) := by
  unfold State.sampleSeen at hst ⊢
  unfold effSensorSample
  simp only [hup, hon, hst, hkind, Bool.false_eq_true, Bool.true_eq_false, or_self, Nat.reduceEqDiff, ↓reduceIte]
  cases pairFrame _ _ 0 _ <;> rfl

end

/-! ### Reference events and silence (R445, R446) -/

/-- A sensor's own time is taken by its map where the map gives one. -/
theorem State.mapTime_some {s : State} {n ts : Nat} {z : Int} (h : (s.sen n).map ts = some z) :
    s.mapTime n ts = (z.toNat, s) := by
  unfold State.mapTime
  rw [h]

/-- The first reference event of an active sensor bases its map on its oldest trigger, 3 ns after the match. -/
theorem effSensorRef_first {s : State} {n ts m : Nat} {rest : List Nat} {z : Int} (hon : s.senOn n = true)
    (hrefs : (s.sen n).refs = m :: rest) (hfirst : (s.sen n).ref = none) (hdue : m ≤ s.now) (hoff : s.senState n ≠ 0)
    (hsilent : s.senState n ≠ 4) (hinj : s.injArmed rAFU 3 = false) (hmap : (s.sen n).map ts = some z) :
    effSensorRef n ts s = s.putSen n { s.sen n with
      refs := rest, ref := some (ts, m + 3), mapTs := ts, mapT := ((m + 3 : Nat) : Int), num := 1, den := 1 } := by
  unfold effSensorRef
  simp only [hrefs, hfirst, hon, hoff, hsilent, hinj, Nat.not_lt.mpr hdue, State.mapTime_some hmap, Bool.true_eq_false,
    Bool.false_and, Bool.false_eq_true, or_self, ↓reduceIte]

/-- A LOCKED or UNLOCKED sensor without a sample for four periods is SILENT, and is counted. -/
theorem effSensorSilent_due {s : State} {n : Nat} (hst : s.senState n = 2 ∨ s.senState n = 3)
    (hdue : (s.sen n).lastSample + 4 * s.senPer n ≤ s.now) : effSensorSilent n s = (s.setSen n 4).count rAFU 4 :=
  if_pos ⟨hst, hdue⟩

/-! ### Publication (R462, R463) -/

/-- The oldest trigger of a camera is taken once its frame has paired, or once its window has passed without one. -/
theorem State.takeFrame_oldest {s : State} {n m : Nat} {capt : Option Nat} {rest : List (Nat × Option Nat)} {paired : Bool}
    (hon : s.senOn n = true) (hkind : s.senKind n = 1) (hframes : (s.sen n).frames = (m, capt) :: rest)
    (hcapt : capt.isSome = paired) (hdue : paired = true ∨ m + (s.sen n).fwin < s.now) :
    s.takeFrame n paired = some (s.putSen n { s.sen n with frames := rest }) := by
  have hpast : (paired || decide (m + (s.sen n).fwin < s.now)) = true := by simpa using hdue
  unfold State.takeFrame
  simp only [hframes, hon, hkind, hcapt, hpast, BEq.rfl, Bool.and_self, ↓reduceIte]

/-- A lidar's points are published at an instant for which they have not been. -/
theorem State.lidarMove_new {s : State} {n : Nat} {b : Bound} (h : some b.phase ≠ (s.sen n).moved) :
    s.lidarMove n b = (s.putSen n { s.sen n with moved := some b.phase }).l1Publish n true :=
  if_neg h.symm

/-- The first point captured after an instant for which the lidar has not published moves its points. -/
theorem effLidarInstant_moves {s : State} {n t : Nat} {b : Bound} (hon : s.senOn n = true) (hkind : s.senKind n = 2)
    (hst : s.senState n = 2 ∨ s.senState n = 3)
    (hfirst : (s.str (s.senStream n)).bound.find? (fun b => some b.phase != (s.sen n).moved) = some b)
    (ht : s.timeOf b.phase = some t) (hpoint : (s.sen n).points.any (fun p => decide (t < p)) = true) :
    effLidarInstant n s = (s.putSen n { s.sen n with moved := some b.phase }).l1Publish n true := by
  have hlive : (s.senState n == 2 || s.senState n == 3) = true := by simpa using hst
  have hnew : some b.phase ≠ (s.sen n).moved := by simpa using List.find?_some hfirst
  unfold effLidarInstant
  simp only [hon, hkind, hlive, hfirst, ht, hpoint, State.lidarMove_new hnew, BEq.rfl, Bool.and_self, Option.getD_some,
    ↓reduceIte]

/-- Settles O35: a sample by the state of its sensor, the first reference event, silence, and the publication of a camera's
frame and of a lidar's points. -/
theorem sensorsFollow : Obligations.SensorsFollow := by
  intro s n ts hon
  refine ⟨?samples, ?reference, ?silence, ?frames, ?lidar⟩
  case samples =>
    rintro hup _ rfl
    refine ⟨fun hst => congrArg Host.Outcome.next (effSensorSample_silent _ hup hon hst),
      fun hst hkind => congrArg Host.Outcome.next (effSensorSample_acquire _ hup hon hst hkind), fun hst hkind => ?_⟩
    have hframe := effSensorSample_frame ts.toNat hup hon hst hkind
    exact ⟨fun fs hpair => congrArg Host.Outcome.next (hframe.trans (congrArg (State.notePairing _ _) hpair)),
      fun hpair => congrArg Host.Outcome.next (hframe.trans (congrArg (State.notePairing _ _) hpair))⟩
  case reference =>
    intro m rest z hrefs hfirst hdue hst hinj hmap
    exact congrArg Host.Outcome.next
      (effSensorRef_first hon hrefs hfirst hdue (by omega) (by omega) hinj hmap)
  case silence => exact fun hst hdue => congrArg Host.Outcome.next (effSensorSilent_due hst hdue)
  case frames =>
    intro m capt rest hkind hframes
    refine ⟨fun hcapt => congrArg Host.Outcome.next ?_, fun hcapt hpast => congrArg Host.Outcome.next ?_⟩
    · unfold effL1Frame
      rw [State.takeFrame_oldest hon hkind hframes hcapt (.inl rfl)]
    · unfold effFrameExpiry
      rw [State.takeFrame_oldest hon hkind hframes (by rw [hcapt]; rfl) (.inr hpast)]
  case lidar =>
    intro b t hkind hst hfirst ht hpoint
    exact congrArg Host.Outcome.next (effLidarInstant_moves hon hkind hst hfirst ht hpoint)

/-! ### An ISSUE is bound (R449, R457) -/

/-- An ISSUE that its queue may start next passes its checks, on a stream that is enabled and has no instant bound. -/
structure IssueStarts (s : State) (m : Nat) (o : Op) : Prop where
  next : s.nextOp rAFU m = some o
  opcode : o.opcode = 1
  enabled : s.flag (kSTR m) 17 = true
  unbound : (s.str m).bound = []
  out : o.addr 0x10 % 128 = 0
  trk : o.addr 0x18 % 64 = 0
  grid : o.addr 0x20 % 64 = 0
  rest : zeroWords o 10 = true

/-- The instant that an ISSUE is bound to. -/
def Op.instant (o : Op) (m : Nat) (p : DWord) : Bound :=
  { queue := m, index := o.index, phase := p, out := o.addr 0x10, trk := o.addr 0x18, grid := o.addr 0x20 }

/-- The phase after which a stream's next instant is sought: the instant that it bound last, or now. -/
def State.boundUpTo (s : State) (last : Option DWord) : Nat := last.elim s.phase64.toNat BitVec.toNat

/-- An ISSUE misses its deadline where the stream's next instant lies more than AGEMAX in the past, and is bound to it
otherwise. -/
theorem effAfuIssue_next {s u v : State} {m t : Nat} {o : Op} {p : DWord} (h : IssueStarts s m o)
    (hu : u = s.start rAFU m o) (hp : p = BitVec.ofNat 64 (u.instantAfter m (u.boundUpTo (s.str m).last)))
    (hv : v = u.putStr m { s.str m with last := some p }) (ht : v.timeOf p = some t) :
    effAfuIssue m s =
      if t + v.agemax m < v.now then (v.count rAFU 3).finish rAFU m o.index stMISS_DEADLINE
      else v.putStr m { v.str m with bound := [o.instant m p] } := by
  obtain ⟨hnext, hopcode, henabled, hunbound, hout, htrk, hgrid, hrest⟩ := h
  have hfree : ¬ 2 ≤ ([] : List Bound).length := by decide
  subst hu
  unfold State.boundUpTo at hp
  simp only [hunbound] at hv
  unfold effAfuIssue
  -- The instant is sought after the one bound last, or from now on where none has been.
  cases hlast : (s.str m).last <;>
    simp only [hlast, Option.elim_none, Option.elim_some] at hp <;>
    simp only [hlast, ← hp, ← hv, hnext, hopcode, henabled, hunbound, hfree, hout, htrk, hgrid, hrest, ht, Op.instant,
      ne_eq, not_true_eq_false, Bool.true_eq_false, List.nil_append, or_self, decide_eq_true_eq, ↓reduceIte]

/-! ### A CONTRIB is bound (R451, R453) -/

/-- A CONTRIB of detections that its queue may start next is well formed and comes from a LOCKED sensor `n` of stream `m`;
its capture reaches the stream's only bound instant `b`, at `t`, and no instant before it. -/
structure ContribReaches (s : State) (q : Nat) (o : Op) (n m : Nat) (b : Bound) (t : Nat) : Prop where
  next : s.nextOp rAFU q = some o
  opcode : o.opcode = 2
  form : contribOk o = true
  sensor : n = o.fld 0x10 4 0
  stream : m = s.senStream n
  detections : o.fld 0x10 6 5 = 0
  locked : s.senState n = 2
  bound : (s.str m).bound = [b]
  time : s.timeOf b.phase = some t
  reaches : o.addr 0x18 ≤ t + 1000
  first : ∀ t', s.timeOf (BitVec.ofNat 64 (s.instantBefore m b.phase.toNat)) = some t' → t' + 1000 < o.addr 0x18

/-- A CONTRIB whose capture is young enough and lies in the pose table is bound to the instant that it reaches first, with
the detections that it reads. -/
theorem effAfuContrib_binds {s u v : State} {q n m t : Nat} {o : Op} {b : Bound} {bs : List Byte}
    (h : ContribReaches s q o n m b t) (hinj : s.injArmed rAFU 2 = false) (hu : u = (s.start rAFU q o).egoRefresh)
    (ht : (s.start rAFU q o).timeOf b.phase = some t) (hage : t ≤ o.addr 0x18 + u.agemax m)
    (htable : u.inTable (o.addr 0x18) = true) (hsome : o.fld 0x14 12 0 ≠ 0)
    (hread : u.txRead (some 0x4A) (o.addr 0x20) (48 * o.fld 0x14 12 0) (some (rAFU, q, o.index)) = (.ok bs, v)) :
    effAfuContrib q s = (v.bindContrib m b ⟨n, 0, o.addr 0x18, false, bs⟩).conclude rAFU q o.index stDONE := by
  obtain ⟨hnext, hopcode, hform, rfl, rfl, hkind, hlocked, hbound, htime, hreaches, hfirst⟩ := h
  subst hu
  have hbefore : ∀ t', s.timeOf (BitVec.ofNat 64 (s.instantBefore (s.senStream (o.fld 0x10 4 0)) b.phase.toNat)) = some t' →
      ¬ o.addr 0x18 ≤ t' + 1000 := fun t' ht' => Nat.not_le.mpr (hfirst t' ht')
  have hlen : 48 * o.fld 0x14 12 0 ≠ 0 := by omega
  unfold effAfuContrib
  -- The instant before the bound one has no time, or one that the capture does not reach: the contribution is not late.
  cases hprev : s.timeOf (BitVec.ofNat 64 (s.instantBefore (s.senStream (o.fld 0x10 4 0)) b.phase.toNat)) <;>
    simp only [hprev, hnext, hopcode, hform, hkind, hlocked, hinj, hbound, htime, hreaches, hbefore, ht, htable, hlen, hread,
      Nat.not_lt.mpr hage, List.find?_cons, BitVec.ofNat_toNat, BitVec.setWidth_eq, Option.getD_some, ne_eq, zero_ne_one,
      Nat.reduceBNe, not_true_eq_false, Bool.true_eq_false, Bool.false_eq_true, BEq.rfl, Bool.true_or, Bool.and_self,
      Bool.false_and, Bool.or_self, Bool.not_true, Bool.not_false, false_and, or_self, decide_true, decide_false, ↓reduceIte]

/-! ### The ego estimate (R460, R461) -/

/-- A pose that is 1 ms old is followed by the next one. -/
theorem effEgoTick_due {s : State} {p : PoseEntry} {ps : List PoseEntry} (hup : s.pdDown (regionPd rAFU) = false)
    (hposes : s.afu.poses = p :: ps) (hdue : p.time + 1000000 ≤ s.now) :
    effEgoTick s = { (s.drawWords 11).2 with afu := { (s.drawWords 11).2.afu with
      poses := ⟨(s.drawWords 11).2.now, (s.drawWords 11).1⟩ :: (s.drawWords 11).2.afu.poses.take 4095 } } := by
  have hdue' : 1000000 + p.time ≤ s.now := by omega
  unfold effEgoTick
  simp only [hup, hposes, hdue', decide_true, Bool.not_true, Bool.or_self, Bool.false_eq_true, ↓reduceIte]

/-- An input of the ego filter other than a scan match is noted: 0 is the IMU, 2 a visual update, 3 a wheel update. -/
def State.egoInput (u : State) (source : Nat) : State :=
  if source = 0 then { u with afu := { u.afu with lastImu := some u.now } }
  else if source = 2 then { u with afu := { u.afu with lastFix := some u.now } }
  else { u with afu := { u.afu with lastWheel := some u.now } }

/-- EGOQ is LOST, and no INERTIAL time runs. -/
def State.egoLost (s : State) : State :=
  State.setFld { s with afu := { s.afu with inertialSince := none } } (kSTAT rAFU) 18 16 3

section
variable {s : State} (hup : s.pdDown (regionPd rAFU) = false)
include hup

/-- EGOQ is brought up to date before and after an input. -/
theorem effEgoUpdate_input {source : Nat} (points : Nat) (eig : Word) (hsource : source ≠ 1) :
    effEgoUpdate source points eig s = (s.egoRefresh.egoInput source).egoRefresh := by
  unfold effEgoUpdate State.egoInput
  simp only [hup, hsource, Bool.false_eq_true, ↓reduceIte]

/-- A scan match of fewer than 500 points is not accepted, and is counted. -/
theorem effEgoUpdate_scanRefused {points : Nat} (eig : Word) (hinj : s.egoRefresh.injArmed rAFU 5 = false)
    (hfew : points < 500) :
    effEgoUpdate 1 points eig s = (s.egoRefresh.addSat (rk rAFU 1 0x19C) 31 16 1).egoRefresh := by
  unfold effEgoUpdate
  simp only [hup, hinj, hfew, decide_true, Bool.or_true, Bool.true_or, Bool.false_eq_true, one_ne_zero, ↓reduceIte]

/-- A timeout of the ego estimate brings EGOQ up to date. -/
theorem egoTimeout_refreshes : (if s.pdDown (regionPd rAFU) then s else s.egoRefresh) = s.egoRefresh :=
  if_neg (by rw [hup]; exact Bool.false_ne_true)

end

/-- Without an IMU sample for 20 ms EGOQ is LOST; its entry is counted, flagged and answered by cause 6. -/
theorem State.egoRefresh_lost {s : State} (h : recent s s.afu.lastImu 20000000 = false) :
    s.egoRefresh =
      if s.egoq ≠ 3 then ((s.egoLost.count rAFU 7).raise rAFU 18 { always := true }).postCause 6 false else s.egoLost := by
  unfold State.egoRefresh State.egoLost
  simp only [h, true_and, ↓reduceIte]

/-! ### An instant is issued (R450, R454, R457) -/

/-- An instant whose phase has a time is issued for that time. -/
theorem State.tinstOf_some {s : State} {b : Bound} {t : Nat} (h : s.timeOf b.phase = some t) : s.tinstOf b = (t, s) := by
  unfold State.tinstOf
  rw [h]

/-- An instant that replaces no contribution lists no replacement. -/
theorem State.listed_repl_nil (s : State) (m : Nat) (b : Bound) (gone : List Nat) : (s.listed m b [] gone).repl = [] := by
  simp [State.listed]

/-- The verdict of a cross-check that does not run. -/
def Checked.idle : Checked := ⟨false, false, false, 0, false⟩

theorem State.crossCheck_off {s : State} (h : s.flag (rk rAFU 3 0x100) 0 = false) (m t : Nat) (cs : List Contrib) :
    s.crossCheck m t cs = .idle := by
  unfold State.crossCheck Checked.idle
  simp only [h, Bool.false_and, Bool.false_eq_true, Nat.zero_min, ↓reduceIte]

theorem State.showCheck_idle (s : State) (m instant : Nat) : s.showCheck m instant .idle = s := rfl

/-- Without an injection armed the read of the track table meets no error. -/
theorem State.trackInject_unarmed {s : State} (h0 : s.injArmed rAFU 0 = false) (h1 : s.injArmed rAFU 1 = false) :
    s.trackInject = (false, s) := by
  unfold State.trackInject
  simp only [h0, h1, Bool.false_eq_true, ↓reduceIte]

/-- An instant that no cross-check refuses and no contribution reaches goes out with the tracks predicted to it and its own
grid. -/
theorem State.issueGrid_noContribs (s : State) (m t : Nat) (b : Bound) (l : Listed) :
    s.issueGrid m b t [] l .idle =
      (s.trackStep t false []).issueOut m b t l .idle (s.gridBytes m t []).1 ((s.gridBytes m t []).2 ||| 0) := rfl

/-- An instant to which nothing contributes and nothing is replaced is issued, where neither the cross-check nor an
injection acts. -/
theorem State.issue_noContribs {v w : State} {m t : Nat} {b : Bound} (hw : w = v.egoRefresh) (ht : w.timeOf b.phase = some t)
    (hused : (w.gather m t b).1 = []) (hrepl : (w.gather m t b).2.1 = []) (hoff : w.flag (rk rAFU 3 0x100) 0 = false)
    (h0 : w.injArmed rAFU 0 = false) (h1 : w.injArmed rAFU 1 = false) :
    v.issue m b = (w.unbindInstant m b).issueGrid m b t [] (w.listed m b [] (w.gather m t b).2.2) .idle := by
  subst hw
  unfold State.issue
  simp only [State.tinstOf_some ht, hused, hrepl, State.listed_repl_nil, List.foldl_nil, State.crossCheck_off hoff,
    State.showCheck_idle, State.trackInject_unarmed h0 h1, Bool.false_eq_true, ↓reduceIte]

/-! ### A fusion deadline (R450, R457) -/

/-- A due deadline acts on its stream. -/
theorem effFusion_due {s u : State} {d : Dispatched} {m : Nat} (ht : s.takeDue Action.isFusion = some (d, u))
    (ha : d.action = .fusion m) : effFusion s = u.fusionDue m d := by
  unfold effFusion
  simp only [ht, ha]

/-- A deadline that its destination drops is dropped. -/
theorem State.fusionDue_dropped {u : State} {m : Nat} {d : Dispatched} (h : u.dropsAt rAFU = true) :
    u.fusionDue m d = u.dropAction d.slot := if_pos h

section
variable {u : State} {m : Nat} {d : Dispatched} (htaken : u.dropsAt rAFU = false)
include htaken

/-- A deadline without an instant is counted. -/
theorem State.fusionDue_noInstant (h : (u.slotFired d.slot).dueInstant m d = none) :
    u.fusionDue m d = (u.slotFired d.slot).addSat (kSTR m) 31 18 1 := by
  unfold State.fusionDue
  simp only [htaken, h, Bool.false_eq_true, ↓reduceIte]

/-- A deadline issues the first instant whose phase has come, once the lidars' points are published. -/
theorem State.fusionDue_issues {b : Bound} (h : (u.slotFired d.slot).dueInstant m d = some b)
    (halive : ((u.slotFired d.slot).lidarMoves m b).opAlive rAFU m b.index = true) :
    u.fusionDue m d = ((u.slotFired d.slot).lidarMoves m b).issue m b := by
  unfold State.fusionDue
  simp only [htaken, h, halive, Bool.false_eq_true, ↓reduceIte]

end

/-- Settles O36: an ISSUE by the age of its instant, a CONTRIB that reaches one instant, the ego's inputs, poses and loss,
and a fusion deadline by what its stream has bound. -/
theorem fusionInstants : Obligations.FusionInstants := by
  intro s
  refine ⟨?issue, ?contrib, ?ego, ?deadline⟩
  case issue =>
    intro m o u v p t hnext hopcode henabled hunbound hout htrk hgrid hrest hu hp hv ht
    have hissue := effAfuIssue_next ⟨hnext, hopcode, henabled, hunbound, hout, htrk, hgrid, hrest⟩ hu hp hv ht
    exact ⟨fun hyoung => congrArg Host.Outcome.next (hissue.trans (if_neg (Nat.not_lt.mpr hyoung))),
      fun hold => congrArg Host.Outcome.next (hissue.trans (if_pos hold))⟩
  case contrib =>
    intro q o n m b bs t u v hnext hopcode hform hn hm hkind hlocked hinj hbound htime hreaches hfirst hu ht hage htable
      hsome hread
    exact congrArg Host.Outcome.next (effAfuContrib_binds
      ⟨hnext, hopcode, hform, hn, hm, hkind, hlocked, hbound, htime, hreaches, hfirst⟩ hinj hu ht hage htable hsome hread)
  case ego =>
    intro hup
    refine ⟨fun p ps hposes hdue => congrArg Host.Outcome.next (effEgoTick_due hup hposes hdue), ?inputs, ?lost⟩
    case inputs =>
      rintro points eig _ rfl
      exact ⟨congrArg Host.Outcome.next (effEgoUpdate_input (source := 0) hup points eig (by decide)),
        congrArg Host.Outcome.next (effEgoUpdate_input (source := 2) hup points eig (by decide)),
        congrArg Host.Outcome.next (effEgoUpdate_input (source := 3) hup points eig (by decide)),
        fun hinj hfew => congrArg Host.Outcome.next (effEgoUpdate_scanRefused hup eig hinj hfew)⟩
    case lost =>
      rintro _ himu rfl
      have htimeout := (egoTimeout_refreshes hup).trans (State.egoRefresh_lost himu)
      refine ⟨fun hentry => ?_, fun hstays => ?_⟩
      · have hlost := htimeout.trans (if_pos hentry)
        exact ⟨congrArg Host.Outcome.next hlost, congrArg Host.Outcome.next hlost⟩
      · have hlost := htimeout.trans (if_neg (not_not.mpr hstays))
        exact ⟨congrArg Host.Outcome.next hlost, congrArg Host.Outcome.next hlost⟩
  case deadline =>
    intro d u m hdue haction
    have hfusion := effFusion_due hdue haction
    refine ⟨fun hdrops => congrArg Host.Outcome.next (hfusion.trans (State.fusionDue_dropped hdrops)),
      fun htaken hnone => congrArg Host.Outcome.next (hfusion.trans (State.fusionDue_noInstant htaken hnone)), ?_⟩
    rintro htaken b _ w _ _ t hb rfl halive hw ht hrepl hoff h0 h1 rfl hused rfl
    refine congrArg Host.Outcome.next ?_
    calc effFusion s = u.fusionDue m d := hfusion
      _ = ((u.slotFired d.slot).lidarMoves m b).issue m b := State.fusionDue_issues htaken hb halive
      _ = _ := State.issue_noContribs hw ht hused hrepl hoff h0 h1
      _ = _ := State.issueGrid_noContribs _ m t b _

end Sys2Proof.Machine
end

section
/-! Hand-offs: the record and its verdict, SWITCH, HOTMO, and the flight of the fall-back (R489–R495). -/

namespace Sys2Proof.Machine

/-! ### The record (R489) -/

/-- The hand-off that a record describes, pending since this time. -/
def HandOff.ofRecord (bs : List Byte) (since : Nat) : HandOff :=
  ⟨bitsOf (leNat ((bs.drop 0).take 4)) 1 0, bitOf (leNat ((bs.drop 0).take 4)) 2, bitOf (leNat ((bs.drop 0).take 4)) 3,
    leNat ((bs.drop 8).take 4), leNat ((bs.drop 0x0C).take 4), since, false⟩

/-- The arrival of a record is taken note of. -/
def State.arrivalTaken (s : State) : State := { s with drive := { s.drive with arrived := false } }

/-- The record's hand-off is pending, and its STEP is shown. -/
def State.recordPending (s : State) (bs : List Byte) : State :=
  (s.setHandOff (some (.ofRecord bs s.now))).wr (rk rDRIVE 1 0x108) (BitVec.ofNat 32 (leNat ((bs.drop 8).take 4)))

/-- A record that is read and whose form is right leaves its hand-off pending. -/
theorem State.takeRecord_pending {s : State} {bs : List Byte} (hread : s.arrivalTaken.sramRead 0x260000 64 = some bs)
    (hform : (s.arrivalTaken.recordPending bs).handOffOk bs = true) :
    s.takeRecord = s.arrivalTaken.recordPending bs := by
  unfold State.arrivalTaken at hread
  unfold State.takeRecord
  simp only [hread]
  exact if_pos hform

/-- A record that has arrived is captured by the channels before the Clock Drive takes it. -/
theorem effHandOffRecord_arrived {s u v : State} (harrived : s.drive.arrived = true)
    (hcapture : (List.range 32).foldl (fun s n => s.captureFrame n) s = u) (htake : u.takeRecord = v) :
    effHandOffRecord s = { v with drive := { v.drive with inRxp := 0, inRxf := 0 } } := by
  subst hcapture htake
  unfold effHandOffRecord
  rw [if_neg (by rw [harrived]; decide)]

/-! ### The verdict (R489, R506, R518) -/

/-- Channel `n` has delivered the verdict of the frame that it captured, no injection acting. -/
def State.verdictGiven (s : State) (n : Nat) (f : CvuFrame) : State :=
  (s.deliver n (s.fld (kCH n 4) 8 2) f.cause (Sparse.get (fun _ => 0) (s.cvuChan n).counts (s.fld (kCH n 4) 8 2)) f.value
    false).afterVerdict n (s.fld (kCH n 4) 8 2)

/-- Where no injection is armed the verdict is the captured one, and it reaches the Clock Drive from the channel in
DRIVE_HOCVU. -/
theorem effHandOffVerdict_captured {s : State} {n : Nat} {f : CvuFrame} (hframe : (s.cvuChan n).frame = some f)
    (hinj : ∀ b, b < 3 → s.cvuInj n b = false) :
    effHandOffVerdict n s =
      if (s.verdictGiven n f).fld (rk rDRIVE 1 0x114) 4 0 = n then (s.verdictGiven n f).handOffVerdict (f.cause == 0)
      else s.verdictGiven n f := by
  have hcause : (if f.cause = 3 then 3 else f.cause) = f.cause := ite_eq_right_iff.mpr Eq.symm
  unfold effHandOffVerdict State.verdictGiven
  simp only [hframe, hinj 0 (by decide), hinj 1 (by decide), hcause, Bool.or_self, Bool.false_eq_true, ↓reduceIte]

/-- A pending hand-off whose verdict no injection touches passes on a pass, and is a mismatch otherwise. -/
theorem State.handOffVerdict_pending {s : State} {h : HandOff} (hpending : s.drive.ho = some h) (hwaits : h.passed = false)
    (hinj : s.injArmed rDRIVE 4 = false) (pass : Bool) :
    s.handOffVerdict pass = if pass then s.setHandOff (some { h with passed := true }) else s.rejectHandOff 1 true := by
  unfold State.handOffVerdict
  simp only [hpending, hwaits, hinj, Bool.not_false, Bool.and_true, Bool.false_eq_true, ↓reduceIte]

/-! ### SWITCH (R492) and HOTMO (R494) -/

section
variable {s : State} {o : Op} (hnext : s.nextOp rDRIVE 0 = some o) (hopcode : o.opcode = 1)
include hnext hopcode

/-- A SWITCH without a pending hand-off changes nothing. -/
theorem effSwitch_noHandOff (hnone : (s.start rDRIVE 0 o).drive.ho = none) :
    effSwitch s = (s.start rDRIVE 0 o).finish rDRIVE 0 o.index stDONE_PREV := by
  unfold effSwitch
  simp only [hnext, hopcode, hnone, ne_eq, not_true_eq_false, ↓reduceIte]

variable {h : HandOff} (hpending : (s.start rDRIVE 0 o).drive.ho = some h)
include hpending

/-- A SWITCH accepts the passed hand-off of its step and occurrence. -/
theorem effSwitch_accepts (hstep : h.step = o.step) (hocc : h.switch = o.occ.toNat) (hpassed : h.passed = true) :
    effSwitch s =
      ((s.start rDRIVE 0 o).acceptHandOff h).finish rDRIVE 0 o.index stDONE (BitVec.ofNat 64 (h.kind + 4)) := by
  unfold effSwitch
  simp only [hnext, hopcode, hpending, hstep, hocc, hpassed, ne_eq, not_true_eq_false, and_self, ↓reduceIte]

/-- A SWITCH rejects as late a hand-off of its step or an earlier one that still awaits its verdict. -/
theorem effSwitch_late (hwaits : h.passed = false) (hstep : h.step ≤ o.step) :
    effSwitch s =
      ((s.start rDRIVE 0 o).rejectHandOff 2 true).finish rDRIVE 0 o.index stDONE_PREV (BitVec.ofNat 64 h.kind) := by
  unfold effSwitch
  simp only [hnext, hopcode, hpending, hwaits, hstep, ne_eq, not_true_eq_false, Bool.false_eq_true, and_false, ↓reduceIte]

end

/-- A hand-off pending for HOTMO is rejected as late. -/
theorem effHandOffTimeout_due {s : State} {h : HandOff} (hpending : s.drive.ho = some h)
    (hdue : h.since + 1000000 * s.fld (rk rDRIVE 1 0x118) 15 0 ≤ s.now) : effHandOffTimeout s = s.rejectHandOff 2 false := by
  unfold effHandOffTimeout
  simp only [hpending, hdue, ↓reduceIte]

/-! ### The fall-back flies (R495) -/

/-- A permitted write of the Clock Drive's own pages has its own effect. -/
theorem State.regWrite_drive {s : State} {i : Initiator} {p o : Nat} {v : Word} (hp : 1 ≤ p) (hp11 : p < 11) (ho : o < 4096)
    (h : s.Reaches i (rk rDRIVE p o) v) :
    s.regWrite i (rk rDRIVE p o) v =
      (effDriveReg p o (rk rDRIVE p o) i.itag v (s.touch (regionPd rDRIVE))).respond .ok := by
  have hreg : rkRegion (rk rDRIVE p o) = rDRIVE := rkRegion_rk (by omega) ho
  have hpage : rkPage (rk rDRIVE p o) = p := rkPage_rk (by omega) ho
  have hoff : rkOff (rk rDRIVE p o) = o := rkOff_rk ho
  have hpage0 : ¬p = 0 := by omega
  rw [State.regWrite_reaches h, State.keyPd_of_not_can s (by rw [hreg]; decide), hreg]
  unfold regEffect
  simp only [hreg, hpage, hoff, hpage0, Nat.not_le.mpr hp11, decide_false, Bool.and_false, Bool.false_eq_true, ↓reduceIte]
  rfl

/-- A write of DRIVE_FBCMD with FLY set flies the fall-back. -/
theorem effDriveReg_fly (k : Nat) (t : Itag) {v : Word} (s : State) (hv : flagOf v 0 = true) :
    effDriveReg 1 0x110 k t v s = s.fly := by
  unfold effDriveReg
  simp only [hv, and_self, ↓reduceIte]

/-- A permitted FLY flies the fall-back. -/
theorem fly_effect {s : State} {i : Initiator} {v : Word} (h : s.Reaches i (rk rDRIVE 1 0x110) (withFlag v 0 true)) :
    exec (.fly i v) s = .next ((s.touch (regionPd rDRIVE)).fly.respond .ok) := by
  have hwrite := State.regWrite_drive (by decide) (by decide) (by decide) h
  rw [effDriveReg_fly _ _ _ (flagOf_withFlag _ _ _ (by decide))] at hwrite
  exact congrArg Host.Outcome.next hwrite

/-- A lapse of AUTOMS that has flown the fall-back once does so no more. -/
theorem effAutoFly_done {s : State} (hdone : s.drive.autoDone = true) : effAutoFly s = s := by
  unfold effAutoFly
  simp only [hdone, true_or, or_true, ↓reduceIte]

/-- A lapse of AUTOMS flies the fall-back. -/
theorem effAutoFly_lapses {s : State} (hon : s.fld kFBCFG 15 0 ≠ 0) (hfirst : s.drive.autoDone = false)
    (hdue : s.drive.autoBase + 1000000 * s.fld kFBCFG 15 0 ≤ s.now) :
    effAutoFly s = State.fly { s with drive := { s.drive with autoDone := true } } := by
  unfold effAutoFly
  simp only [hon, hfirst, Nat.not_lt.mpr hdue, Bool.false_eq_true, or_self, ↓reduceIte]

/-- Settles O38: a record of right form, a verdict by its channel and its cause, a SWITCH by the hand-off that it finds, the
lapse of HOTMO, FLY, and the lapse of AUTOMS. -/
theorem handOffs : Obligations.HandOffs := by
  intro s
  refine ⟨?record, ?verdict, ?switch, ?timeout, ?fly, ?autoFly⟩
  case record =>
    rintro harrived _ _ _ hcapture hread rfl hform
    exact congrArg Host.Outcome.next
      (effHandOffRecord_arrived harrived hcapture.symm (State.takeRecord_pending hread hform))
  case verdict =>
    rintro _ f _ _ hframe hinj rfl rfl
    have hverdict := effHandOffVerdict_captured hframe hinj
    refine ⟨fun hother => congrArg Host.Outcome.next (hverdict.trans (if_neg hother)), ?_⟩
    intro hnamed h hpending hwaits harmed
    have hreached := (hverdict.trans (if_pos hnamed)).trans (State.handOffVerdict_pending hpending hwaits harmed _)
    exact ⟨fun hpass => congrArg Host.Outcome.next (hreached.trans (if_pos (beq_iff_eq.mpr hpass))),
      fun hfail => congrArg Host.Outcome.next (hreached.trans (if_neg (mt beq_iff_eq.mp hfail)))⟩
  case switch =>
    rintro o _ hnext hopcode rfl
    refine ⟨fun hnone => congrArg Host.Outcome.next (effSwitch_noHandOff hnext hopcode hnone), fun h hpending => ⟨?_, ?_⟩⟩
    · exact fun hstep hocc hpassed => congrArg Host.Outcome.next
        (effSwitch_accepts hnext hopcode hpending hstep hocc hpassed)
    · exact fun hwaits hstep => congrArg Host.Outcome.next (effSwitch_late hnext hopcode hpending hwaits hstep)
  case timeout => exact fun _ hpending hdue => congrArg Host.Outcome.next (effHandOffTimeout_due hpending hdue)
  case fly => exact fun _ _ => fly_effect
  case autoFly =>
    exact fun hon => ⟨fun hdone => congrArg Host.Outcome.next (effAutoFly_done hdone),
      fun hfirst hdue => congrArg Host.Outcome.next (effAutoFly_lapses hon hfirst hdue)⟩

end Sys2Proof.Machine
end

section
/-! Where a permitted write of a block's own registers leads (R86, R90), and a step on a queue of commands. -/

namespace Sys2Proof.Machine

/-- Settles O56: a step takes the front command off the queue and runs it, or idles. -/
theorem stepRunsFrontCommand : Obligations.StepRunsFrontCommand :=
  fun _ => ⟨fun _ _ h => step_front h, step_idle⟩

section
variable {s : State} {i : Initiator} {r p o : Nat} {v : Word} (hp : 1 ≤ p) (hp11 : p < 11) (ho : o < 4096)
include hp hp11 ho

/-- A permitted write of a block's own pages has the block's effect. -/
theorem State.regWrite_ownPage (h : s.Reaches i (rk r p o) v) :
    s.regWrite i (rk r p o) v =
      (effBlockReg r p o (rk r p o) i.itag v (s.touch (s.keyPd (rk r p o)))).respond .ok := by
  have hreg : rkRegion (rk r p o) = r := rkRegion_rk (by omega) ho
  have hpage : rkPage (rk r p o) = p := rkPage_rk (by omega) ho
  have hoff : rkOff (rk r p o) = o := rkOff_rk ho
  have hpage0 : ¬p = 0 := by omega
  rw [State.regWrite_reaches h]
  unfold regEffect
  simp only [hreg, hpage, hoff, hpage0, Nat.not_le.mpr hp11, decide_false, Bool.and_false, Bool.false_eq_true, ↓reduceIte]

/-- Of every block but CAN the domain touched is the region's. -/
theorem State.regWrite_block (hr : r ≠ rCAN) (h : s.Reaches i (rk r p o) v) :
    s.regWrite i (rk r p o) v = (effBlockReg r p o (rk r p o) i.itag v (s.touch (regionPd r))).respond .ok := by
  have hreg : rkRegion (rk r p o) = r := rkRegion_rk (by omega) ho
  rw [State.regWrite_ownPage hp hp11 ho h, State.keyPd_of_not_can s (by rw [hreg]; exact hr), hreg]

end

section
variable (p o k : Nat) (t : Itag) (v : Word) (s : State)

theorem effBlockReg_watch : effBlockReg rWATCH p o k t v s = effWatchReg p o k t v s := rfl
theorem effBlockReg_cvu : effBlockReg rCVU p o k t v s = effCvuReg p o k t v s := rfl
theorem effBlockReg_pwr : effBlockReg rPWR p o k t v s = effPwrReg p o k t v s := rfl
theorem effBlockReg_sec : effBlockReg rSEC p o k t v s = effSecReg p o k t v s := rfl
theorem effBlockReg_pcie : effBlockReg rPCIE p o k t v s = effPcieReg p o k t v s := rfl
theorem effBlockReg_eth : effBlockReg rETH p o k t v s = effEthReg p o k t v s := rfl
theorem effBlockReg_can : effBlockReg rCAN p o k t v s = effCanReg p o k t v s := rfl
theorem effBlockReg_lnk : effBlockReg rLNK p o k t v s = effLnkReg p o k t v s := rfl
theorem effBlockReg_fwl : effBlockReg rFWL 1 0x114 k t v s = effFwlCmd v t s := rfl

end

end Sys2Proof.Machine
end

section
/-! Check-value frames and contexts, and the Logbook's DUMP and MODE (R498, R501, R509, R511–R517). -/

namespace Sys2Proof.Machine

/-! ### Frames (R511–R516) -/

/-- A channel in service reads the whole frame of the context whose turn it is, and no injection is armed for it. -/
structure State.FrameReads (s : State) (n ctx : Nat) (data : List Byte) : Prop where
  powered : s.pdDown (regionPd rCVU) = false
  on : s.cvuOn n = true
  names : s.cvuNames n ctx = true
  avail : cvuSpares.avail s n = true
  snoops : (s.cvuCtx ctx).mode = 0
  waits : s.fld (kCH n 4) 1 0 = 1
  turn : s.fld (kCH n 4) 8 2 = ctx
  noInj : ∀ b, b < 3 → s.cvuInj n b = false
  readable : (s.cvuCtx ctx).bad = false
  whole : (s.cvuCtx ctx).len = data.length
  fixed : (s.cvuCtx ctx).expsrc = 0

/-- The cause of a frame's verdict: 0 where its check value is the expected one. -/
def CvuCtx.causeOf (c : CvuCtx) (v : Nat) : Nat :=
  if v = c.expect % 2 ^ (if c.alg = 1 then 64 else 32) then 0 else 6

/-- A complete frame gets the verdict that its check value gives. -/
theorem effFrameEnd_complete {s : State} {n ctx : Nat} {data : List Byte} (h : s.FrameReads n ctx data) :
    effFrameEnd n ctx data 0 s =
      (s.deliver n ctx ((s.cvuCtx ctx).causeOf (checkValue (s.cvuCtx ctx).alg data))
        (Sparse.get (fun _ => 0) (s.cvuChan n).counts ctx) (checkValue (s.cvuCtx ctx).alg data) false).afterVerdict n ctx := by
  obtain ⟨hpowered, hon, hnames, havail, hsnoops, hwaits, hturn, hinj, hreadable, hwhole, hfixed⟩ := h
  have hread : s.readCtx n ctx = (s.cvuCtx ctx, s) := by
    unfold State.readCtx
    simp only [hinj 2 (by decide), Bool.false_eq_true, ↓reduceIte]
  have hexp (i : Nat) (tl : Nat) : s.expected (s.cvuCtx ctx) i tl = (some (s.cvuCtx ctx).expect, s) := by
    unfold State.expected
    simp only [hfixed, ↓reduceIte]
  unfold effFrameEnd CvuCtx.causeOf
  simp only [hpowered, hon, hnames, havail, hsnoops, hwaits, hturn, hread, hreadable, hwhole, hfixed, hexp,
    hinj 0 (by decide), hinj 1 (by decide), List.take_length, Nat.sub_zero, Nat.reduceEqDiff, Nat.not_lt_zero, Bool.true_eq_false,
    Bool.false_eq_true, Bool.or_self, ne_eq, not_true_eq_false, and_false, or_self, decide_false, ↓reduceIte]

/-- 40 ns after its verdict a channel takes its next context. -/
theorem effCtxAdvance_due {s : State} {n : Nat} (hstate : s.fld (kCH n 4) 1 0 = 2)
    (hdue : (s.cvuChan n).verdictAt + 40 ≤ s.now) :
    effCtxAdvance n s =
      (s.setFld (kCH n 4) 8 2 (cfgFirst (s.rd (kCH n 0)) +
        (s.fld (kCH n 4) 8 2 - cfgFirst (s.rd (kCH n 0)) + 1) % cfgCount (s.rd (kCH n 0)))).setFld (kCH n 4) 1 0 1 := by
  unfold effCtxAdvance
  simp only [hstate, Nat.not_lt.mpr hdue, ne_eq, not_true_eq_false, or_self, ↓reduceIte]

/-! ### Contexts and channels (R509, R517) -/

/-- A permitted write of a context's word. -/
theorem cvuContextWrite_effect {s : State} {i : Initiator} {word : BitVec 3} {v : Word}
    (h : s.Reaches i (rk rCVU 2 (0x104 + 4 * word.toNat)) v) :
    exec (.cvuContextWrite i word v) s =
      .next ((effCtxData word.toNat i.itag v (s.touch (regionPd rCVU))).respond .ok) := by
  have hw := word.isLt
  have hoff : 0x104 ≤ 0x104 + 4 * word.toNat ∧ 0x104 + 4 * word.toNat < 0x124 := by omega
  have hidx : (0x104 + 4 * word.toNat - 0x104) / 4 = word.toNat := by omega
  refine congrArg Host.Outcome.next ((State.regWrite_block (by decide) (by decide) (by omega) (by decide) h).trans
    (congrArg (State.respond · .ok) ?_))
  rw [effBlockReg_cvu]
  unfold effCvuReg
  simp only [hoff, hidx, and_self, OfNat.ofNat_ne_one, false_and, ↓reduceIte]

/-- A permitted write of a channel's configuration. -/
theorem cvuChannelCfgWrite_effect {s : State} {i : Initiator} {ch : BitVec 5} {v : Word}
    (h : s.Reaches i (kCH ch.toNat 0) v) :
    exec (.cvuChannelCfgWrite i ch v) s =
      .next ((effChCfg ch.toNat i.itag v (s.touch (regionPd rCVU))).respond .ok) := by
  have hch := ch.isLt
  have hoff : 0x100 ≤ 0x100 + 0x10 * ch.toNat + 0 ∧ 0x100 + 0x10 * ch.toNat + 0 < 0x300 ∧
      (0x100 + 0x10 * ch.toNat + 0) % 16 = 0 := by omega
  have hidx : (0x100 + 0x10 * ch.toNat + 0 - 0x100) / 16 = ch.toNat := by omega
  refine congrArg Host.Outcome.next ((State.regWrite_block (by decide) (by decide) (by omega) (by decide) h).trans
    (congrArg (State.respond · .ok) ?_))
  rw [effBlockReg_cvu]
  unfold effCvuReg
  simp only [hoff, hidx, and_self, ↓reduceIte]

/-- The configuration of a channel out of service, of contexts that may all run, starts it at its first context. -/
theorem effChCfg_starts {s : State} {n : Nat} {v : Word} (t : Itag) (hlast : cfgFirst v + (cfgCount v - 1) ≤ 127)
    (hon : flagOf v 0 = true) (hold : flagOf (s.rd (kCH n 0)) 0 = false)
    (hruns : ((List.range (cfgCount v)).map (fun i => s.cvuCtx (cfgFirst v + i))).all
      (fun c => c.runnable && (c.mode != 2 || cfgCount v == 1)) = true) :
    effChCfg n t v s =
      (((s.writeGeneric (kCH n 0) t v).setCvuChan n {}).setFld (kCH n 4) 8 2 (cfgFirst v)).setFld (kCH n 4) 1 0 1 := by
  have hrunnable : ((List.range (cfgCount v)).map (fun i => s.cvuCtx (cfgFirst v + i))).any (fun c => !c.runnable) = false := by
    rw [List.any_eq_false]
    intro c hc
    have := List.all_eq_true.mp hruns c hc
    simp_all
  have hmode : ¬(1 < cfgCount v ∧
      ((List.range (cfgCount v)).map (fun i => s.cvuCtx (cfgFirst v + i))).any (fun c => c.mode == 2) = true) := by
    rintro ⟨hmany, hany⟩
    obtain ⟨c, hc, htwo⟩ := List.any_eq_true.mp hany
    have := List.all_eq_true.mp hruns c hc
    simp_all
  unfold effChCfg
  simp only [Nat.not_lt.mpr hlast, hon, hold, hrunnable, hmode, Bool.false_and, Bool.false_eq_true, or_self, and_false,
    ↓reduceIte]

/-! ### The Logbook (R498, R501) -/

/-- A DUMP whose form is right ends a recording and puts the records out. -/
theorem effDump_puts {s u w : State} {o : Op} {n : Nat} (hnext : s.nextOp rDRIVE 1 = some o) (hopcode : o.opcode = 2)
    (hchannel : o.fld 0x10 31 3 = 0) (haligned : o.addr 0x18 % 64 = 0) (hword : o.word 5 = 0#32)
    (hrest : (o.words.drop 8).any (fun w => w != 0#32) = false)
    (hu : u = (if (s.start rDRIVE 1 o).fld (kLB (o.fld 0x10 2 0) 0x18) 1 0 = 1 ∨
        (s.start rDRIVE 1 o).fld (kLB (o.fld 0x10 2 0) 0x18) 1 0 = 2
      then (s.start rDRIVE 1 o).setFld (kLB (o.fld 0x10 2 0) 0x18) 1 0 3 else s.start rDRIVE 1 o))
    (hput : State.dumpRecs 1 o (o.addr 0x18) (u.logChan (o.fld 0x10 2 0)).recs 0 u = (.ok n, w)) :
    effDump s = w.conclude rDRIVE 1 o.index stDONE (BitVec.ofNat 64 n) := by
  subst hu
  unfold effDump
  simp only [hnext, hopcode, hchannel, haligned, hword, hrest, hput, ne_eq, not_true_eq_false, Bool.false_eq_true, or_self,
    ↓reduceIte]

/-- A permitted write of a channel's MODE. -/
theorem logbookModeWrite_effect {s : State} {i : Initiator} {c : BitVec 3} {v : Word} (h : s.Reaches i (kLB c.toNat 0) v) :
    exec (.logbookModeWrite i c v) s = .next ((effLogMode c.toNat i.itag v (s.touch (regionPd rDRIVE))).respond .ok) := by
  have hc := c.isLt
  have hoff : 0x100 ≤ 0x100 + 0x20 * c.toNat + 0 ∧ 0x100 + 0x20 * c.toNat + 0 < 0x200 := by omega
  have hidx : (0x100 + 0x20 * c.toNat + 0 - 0x100) / 0x20 = c.toNat := by omega
  have hword : (0x100 + 0x20 * c.toNat + 0 - 0x100) % 0x20 = 0 := by omega
  refine congrArg Host.Outcome.next ((State.regWrite_drive (by decide) (by decide) (by omega) h).trans
    (congrArg (State.respond · .ok) ?_))
  unfold effDriveReg
  simp only [hoff, hidx, hword, and_self, OfNat.ofNat_ne_one, Nat.reduceEqDiff, false_and, ↓reduceIte]

section
variable {s : State} {c : Nat} {v : Word} (t : Itag)

theorem effLogMode_reserved (hmode : fieldOf v 14 13 = 3) : effLogMode c t v s = s.cfgErr rDRIVE t := if_pos hmode

theorem effLogMode_off (hmode : fieldOf v 14 13 = 0) :
    effLogMode c t v s = (s.writeGeneric (kLB c 0) t v).setFld (kLB c 0x18) 1 0 0 := by
  unfold effLogMode
  simp only [hmode, Nat.reduceEqDiff, ne_eq, not_true_eq_false, false_and, ↓reduceIte]

/-- A MODE that overlaps no other channel arms the channel at the base of its region. -/
theorem effLogMode_arms {w : State} (hres : fieldOf v 14 13 ≠ 3) (hon : fieldOf v 14 13 ≠ 0)
    (hapart : (List.range 8).any (fun b => b != c && s.fld (kLB b 0) 14 13 != 0 && s.logOverlap c b) = false)
    (hw : w = (s.writeGeneric (kLB c 0) t v).setFld (kLB c 0x18) 2 0 1) :
    effLogMode c t v s = (w.setFld (kLB c 0x1C) 20 0 (w.fld (kLB c 8) 20 0)).setLogChan c {} := by
  have hbase : w.fld (kLB c 8) 20 0 = (s.writeGeneric (kLB c 0) t v).fld (kLB c 8) 20 0 := by
    rw [hw]
    exact State.fld_of_rd (State.rd_setFld_ne _ _ _ _ (by unfold kLB rk; omega)) _ _
  rw [hbase, hw]
  unfold effLogMode
  simp only [hres, hon, hapart, Bool.false_eq_true, and_false, ↓reduceIte]

end

/-- Settles O39: a frame by its check value, the channel's turn, context and configuration writes, a DUMP, and MODE. -/
theorem verdictsAndLogbook : Obligations.VerdictsAndLogbook := by
  intro s ch
  refine ⟨?frame, ?advance, ?context, ?config, ?dump, ?mode⟩
  case frame =>
    rintro ctx data v hpowered hon hnames havail hsnoops hwaits hturn hinj hreadable hwhole hfixed rfl
    exact congrArg Host.Outcome.next (effFrameEnd_complete
      ⟨hpowered, hon, hnames, havail, hsnoops, hwaits, hturn, hinj, hreadable, hwhole, hfixed⟩)
  case advance =>
    rintro _ rfl hstate hdue
    exact congrArg Host.Outcome.next (effCtxAdvance_due hstate hdue)
  case context =>
    rintro i word v _ _ h rfl rfl
    rw [cvuContextWrite_effect h]
    unfold effCtxData
    exact ⟨fun hok hfree => by simp only [hok, hfree, Bool.true_eq_false, Bool.false_eq_true, or_self, ↓reduceIte],
      fun hbad => by simp only [hbad, ↓reduceIte]⟩
  case config =>
    rintro i v _ h rfl hlast hon hold hruns
    rw [cvuChannelCfgWrite_effect h, effChCfg_starts i.itag hlast hon hold hruns]
  case dump =>
    rintro o u w _ n hnext hopcode hchannel rfl haligned hword hrest hu hput
    exact congrArg Host.Outcome.next (effDump_puts hnext hopcode hchannel haligned hword hrest hu hput)
  case mode =>
    intro i c v u h hu
    rw [logbookModeWrite_effect h, ← hu]
    refine ⟨fun hmode => by rw [effLogMode_reserved _ hmode], fun hmode => by rw [effLogMode_off _ hmode], ?_⟩
    intro w hres hon hapart hw
    rw [effLogMode_arms i.itag hres hon hapart hw]

end Sys2Proof.Machine
end

section
/-! The Night Log's reports, ring and last slots, the test rights, and the firewall's descriptor commands (R547–R558, R567,
R590). -/

namespace Sys2Proof.Machine

/-! ### Reports and the ring (R547–R551, R558) -/

/-- The state in which report `rep` has its number at its source. -/
def State.reportNumbered (s : State) (rep : Report) : State :=
  { s.addSat (rk rWATCH 7 (0x600 + 4 * rep.src)) 31 0 1 with
    log := { (s.addSat (rk rWATCH 7 (0x600 + 4 * rep.src)) 31 0 1).log with
      seq := Sparse.set (fun _ => 0) s.log.seq rep.src (Sparse.get (fun _ => 0) s.log.seq rep.src + 1) } }

/-- A report with the number and the phase that it gets at its source. -/
def State.numbered (s : State) (rep : Report) : Report :=
  { rep with seq := Sparse.get (fun _ => 0) s.log.seq rep.src, phase := s.phase64 }

/-- A numbered report joins the input queue, or is dropped where that holds 64. -/
theorem State.report_cases (s : State) (rep : Report) :
    s.report rep = if s.log.input.length < 64 then
      { s.reportNumbered rep with log := { (s.reportNumbered rep).log with input := s.log.input ++ [s.numbered rep] } }
      else (s.reportNumbered rep).dropReport (s.numbered rep) := rfl

/-- The next entry's number is one higher. -/
theorem ofNat_succ_toNat (w : Word) : BitVec.ofNat 32 (w.toNat + 1) = w + 1 := by bv_omega

section
variable {s : State} {r : Report} {rest : List Report} (hinput : s.log.input = r :: rest)
include hinput

/-- Into a full ring the oldest report is dropped. -/
theorem effNlWrite_full (hfull : s.nlFull = true) :
    effNlWrite s = State.dropReport { s with log := { s.log with input := rest } } r := by
  unfold effNlWrite
  simp only [hinput, hfull, ↓reduceIte]

/-- The oldest report goes into the ring's next entry. -/
theorem effNlWrite_stores (hfree : s.nlFull = false) (hlast : s.lastSlot r.src = none) (hready : s.nlReady = true) :
    effNlWrite s = State.nlStore { s with log := { s.log with input := rest } } r := by
  unfold effNlWrite
  simp only [hinput, hfree, hlast, hready, Bool.false_eq_true, Bool.not_true, Bool.or_self, ↓reduceIte]

end

/-- A held last-slot record goes into the ring's next entry, with LASTOF. -/
theorem effLastWrite_stores {s : State} {l : Report} (hnext : s.nextLast = some l) (hfree : s.nlFull = false)
    (hready : s.nlReady = true) :
    effLastWrite s = State.nlStore { s with
      log := { s.log with last := Sparse.set (fun _ => none) s.log.last l.src none },
      watch := { s.watch with badRecords := s.watch.badRecords.filter (fun x => x != 1024 + l.src) } }
      { l with lastOf := true } := by
  unfold effLastWrite
  simp only [hnext, hfree, hready, Bool.not_true, Bool.or_self, Bool.false_eq_true, ↓reduceIte]

/-- A permitted write of WATCH_NLRD. -/
theorem nlrdWrite_effect {s : State} {i : Initiator} {v : Word} (h : s.Reaches i kNLRD v) :
    exec (.nlrdWrite i v) s = .next ((effNlrd v i.itag (s.touch (regionPd rWATCH))).respond .ok) :=
  congrArg Host.Outcome.next (State.regWrite_block (by decide) (by decide) (by decide) (by decide) h)

/-! ### Test rights (R555, R556) -/

/-- A permitted write of a grant word. -/
theorem trgrantWrite_effect {s : State} {i : Initiator} {hi : Bool} {v : Word}
    (h : s.Reaches i (if hi then kTRGRANT + 4 else kTRGRANT) v) :
    exec (.trgrantWrite i hi v) s = .next ((effTrgrant hi v i.itag (s.touch (regionPd rWATCH))).respond .ok) := by
  refine congrArg Host.Outcome.next ?_
  cases hi with
  | false => exact State.regWrite_block (p := 6) (o := 0x100) (by decide) (by decide) (by decide) (by decide) h
  | true => exact State.regWrite_block (p := 6) (o := 0x104) (by decide) (by decide) (by decide) (by decide) h

/-- BLK_EINJ returns to its reset value in every region whose right has gone. -/
theorem State.revoke_eq (s s0 : State) : s.revoke s0 =
    (List.range 40).foldl (fun a r =>
      if s0.testRights r && !s.testRights r then a.wr (kEINJ r) (regReset (kEINJ r)) else a) s := rfl

/-- A grant that is not zero starts the time and is counted. -/
theorem effTrgrant_grants {s w : State} {hi : Bool} {v : Word} {t : Itag}
    (hw : w = s.writeGeneric (if hi then kTRGRANT + 4 else kTRGRANT) t v) (hv : v ≠ 0#32) :
    effTrgrant hi v t s = (State.count { w with watch := { w.watch with trTime := s.now } } rWATCH 7).revoke s := by
  unfold effTrgrant
  simp only [hw, hv, ↓reduceIte]

/-! ### Descriptor commands (R567, R590) -/

/-- A permitted write of FWL_DCMD. -/
theorem State.regWrite_fwlCmd {s : State} {i : Initiator} {v : Word} (h : s.Reaches i (rk rFWL 1 0x114) v) :
    s.regWrite i (rk rFWL 1 0x114) v = (effFwlCmd v i.itag (s.touch (regionPd rFWL))).respond .ok :=
  State.regWrite_block (by decide) (by decide) (by decide) (by decide) h

/-- The descriptor slot that FWL_DSEL selects. -/
def State.fwSlot (s : State) : Nat := s.fld kDSEL 5 0 * 64 + s.fld kDSEL 11 6

/-- The descriptor that the data words spell. -/
def State.fwData (s : State) : FwDesc := ⟨s.rd (kDDATA 0), s.rd (kDDATA 1), s.rd (kDDATA 2)⟩

/-- A command on the selected slot is in progress, to end with this result. -/
def State.fwBusy (s : State) (commit : Bool) (result : Nat) : State :=
  { s.setFld kDSTAT 2 0 1 with fwl := { s.fwl with busy := some ⟨commit, s.fwSlot, s.fwData, result⟩ } }

section
variable {s : State} {t : Itag} (hidle : s.fwl.busy = none) (htarget : s.fld kDSEL 5 0 ≤ 55)
include hidle htarget

theorem effFwlCmd_read : effFwlCmd (wordOf 1) t s = s.fwBusy false 0 := by
  have hcmd : fieldOf (wordOf 1) 1 0 = 1 := by decide
  unfold effFwlCmd
  simp only [hcmd, hidle, Nat.not_lt.mpr htarget, ne_eq, not_true_eq_false, false_and, OfNat.zero_ne_ofNat, ↓reduceIte]
  rfl

/-- A commit to a locked descriptor by another than the lockstep pairs is refused and counted. -/
theorem effFwlCmd_locked (hlock : (Sparse.get (fun _ => {}) s.fwl.desc s.fwSlot).lock = true)
    (hother : isPair t.toNat = false) : effFwlCmd (wordOf 2) t s =
      { (s.count rFWL 5).setFld kDSTAT 2 0 1 with fwl := { s.fwl with busy := some ⟨true, s.fwSlot, s.fwData, 2⟩ } } := by
  have hcmd : fieldOf (wordOf 2) 1 0 = 2 := by decide
  unfold State.fwSlot at hlock
  unfold effFwlCmd
  simp only [hcmd, hidle, Nat.not_lt.mpr htarget, hlock, hother, ne_eq, not_true_eq_false, and_false, Bool.not_false,
    Bool.and_self, OfNat.ofNat_ne_one, ↓reduceIte]
  rfl

/-- A commit of well-formed data to an unlocked descriptor goes ahead. -/
theorem effFwlCmd_commits (hlock : (Sparse.get (fun _ => {}) s.fwl.desc s.fwSlot).lock = false)
    (hres : fieldOf s.fwData.w2 31 28 = 0) (hword : s.rd (kDDATA 3) = 0#32)
    (hrange : s.fwData.base.toNat ≤ s.fwData.last.toNat) : effFwlCmd (wordOf 2) t s = s.fwBusy true 0 := by
  have hcmd : fieldOf (wordOf 2) 1 0 = 2 := by decide
  unfold State.fwSlot at hlock
  unfold State.fwData at hres hrange
  unfold effFwlCmd
  simp only [hcmd, hidle, Nat.not_lt.mpr htarget, hlock, hres, hword, Nat.not_lt.mpr hrange, ne_eq, not_true_eq_false,
    and_false, Bool.false_and, Bool.false_eq_true, or_self, OfNat.ofNat_ne_one, OfNat.zero_ne_ofNat, ↓reduceIte]
  rfl

end

/-- The commit in progress puts its descriptor in force. -/
theorem effFwlDone_commits {s : State} {slot : Nat} {d : FwDesc} (hbusy : s.fwl.busy = some ⟨true, slot, d, 0⟩) :
    effFwlDone s = { (s.setFld kDSTAT 2 0 0).count rFWL 4 with fwl := { s.fwl with
      busy := none, desc := Sparse.set (fun _ => {}) s.fwl.desc slot d, bad := s.fwl.bad.filter (fun x => x != slot) } } := by
  unfold effFwlDone
  simp only [hbusy, ne_eq, not_true_eq_false, ↓reduceIte]
  rfl

/-- The read in progress puts the slot's descriptor in the data words. -/
theorem effFwlDone_reads {s : State} {slot : Nat} {d f : FwDesc} (hbusy : s.fwl.busy = some ⟨false, slot, d, 0⟩)
    (hf : f = Sparse.get (fun _ => {}) s.fwl.desc slot) :
    effFwlDone s = (((State.wr { s.setFld kDSTAT 2 0 0 with fwl := { s.fwl with busy := none } }
      (kDDATA 0) f.base).wr (kDDATA 1) f.last).wr (kDDATA 2) f.w2).wr (kDDATA 3) 0#32 := by
  unfold effFwlDone
  simp only [hbusy, hf, ne_eq, not_true_eq_false, Bool.false_eq_true, ↓reduceIte]

/-- Settles O40: reports and the ring's writes, NLRD, the grants and their end, and the descriptor commands. -/
theorem nightLogAndRights : Obligations.NightLogAndRights := by
  intro s
  refine ⟨?report, ?ring, ?last, ?writes, ?expiry, ?commands, ?done⟩
  case report =>
    rintro src code inj itag ecnt detail queue index _ _ hsrc rfl rfl
    have hreport : exec (.nightLogReport src code inj itag ecnt detail queue index) s = .next (s.report
        { src := src.toNat, code := code.toNat, inj := inj, itag := itag, ecnt := ecnt.toNat, detail := detail,
          queue := queue.toNat, index := index.toNat }) := if_neg (Nat.not_le.mpr hsrc)
    rw [hreport, State.report_cases]
    exact ⟨fun hroom => by rw [if_pos hroom]; rfl, fun hfull => by rw [if_neg (Nat.not_lt.mpr hfull)]; rfl⟩
  case ring =>
    rintro r rest _ hinput rfl
    refine ⟨fun hfull => congrArg Host.Outcome.next (effNlWrite_full hinput hfull), fun hfree hlast hready => ?_⟩
    rw [← ofNat_succ_toNat]
    exact congrArg Host.Outcome.next (effNlWrite_stores hinput hfree hlast hready)
  case last =>
    intro l hnext hfree hready
    rw [← ofNat_succ_toNat]
    exact congrArg Host.Outcome.next (effLastWrite_stores hnext hfree hready)
  case writes =>
    intro i v u hu
    refine ⟨fun h => ?_, ?_⟩
    · rw [nlrdWrite_effect h, ← hu]
      unfold effNlrd
      exact ⟨fun hlo hhi => by rw [if_neg (not_or.mpr ⟨Nat.not_lt.mpr hlo, Nat.not_lt.mpr hhi⟩)],
        fun hout => by rw [if_pos hout]⟩
    · rintro hi _ w rfl h hw hv x rfl
      have hnow : u.now = s.now := by rw [hu, State.touch_now]
      rw [trgrantWrite_effect h, ← hu, effTrgrant_grants hw hv, hnow, State.revoke_eq]
  case expiry =>
    rintro hgrants hdue _ rfl
    exact congrArg Host.Outcome.next ((if_pos ⟨hgrants, hdue⟩).trans (State.revoke_eq _ _))
  case commands =>
    rintro i u _ _ hu hidle htarget rfl rfl
    refine ⟨fun h => ?_, fun h hlock hother => ?_, fun h hlock hres hword hrange => ?_⟩
    · refine congrArg Host.Outcome.next ((State.regWrite_fwlCmd h).trans ?_)
      rw [← hu, effFwlCmd_read hidle htarget]
      rfl
    · refine congrArg Host.Outcome.next ((State.regWrite_fwlCmd h).trans ?_)
      rw [← hu, effFwlCmd_locked hidle htarget hlock hother]
      rfl
    · refine congrArg Host.Outcome.next ((State.regWrite_fwlCmd h).trans ?_)
      rw [← hu, effFwlCmd_commits hidle htarget hlock hres hword hrange]
      rfl
  case done =>
    exact fun slot d => ⟨fun hbusy => congrArg Host.Outcome.next (effFwlDone_commits hbusy),
      fun hbusy f hf => congrArg Host.Outcome.next (effFwlDone_reads hbusy hf)⟩

end Sys2Proof.Machine
end

section
/-! The safe-state controller: the diverse checker's verdicts, causes, time-outs and the commands of WATCH_SSCMD
(R571–R576, R721). -/

namespace Sys2Proof.Machine

/-! ### Verdicts of the diverse checker (R571–R573) -/

/-- The verdicts kept once this one has joined them. -/
def State.verdictsWith (s : State) (bad : Bool) : List Bool := (bad :: s.watch.verdicts).take 256

/-- The disagreements in the window once this verdict has joined it. -/
def State.windowBad (s : State) (bad : Bool) : Nat := (((s.verdictsWith bad).take (s.fld kDISCFG 14 6)).filter id).length

/-- A verdict has joined the window, and WATCH_DISSTAT shows it. -/
def State.verdictJoined (s : State) (bad : Bool) (instant : Nat) (rest : List (Bool × Nat × Nat)) : State :=
  (s.setWatch { s.watch with
      comparisons := rest, verdicts := s.verdictsWith bad, clean := if bad then 0 else s.watch.clean + 1 }).wr
    kDISSTAT (BitVec.ofNat 32 (s.windowBad bad + (if bad then 2 ^ 9 else 0) +
      (if bad && (s.verdictsWith bad).getD 1 false then 2 ^ 10 else 0) + instant % 2 ^ 21 * 2 ^ 11))

section
variable {s u : State} {bad : Bool} {instant d : Nat} {rest : List (Bool × Nat × Nat)}
  (hnext : s.watch.comparisons = (bad, instant, d) :: rest) (hu : u = s.verdictJoined bad instant rest)
include hnext hu

/-- K disagreements in the window raise cause 0. -/
theorem effVerdict_disagrees {w : State} (hbad : bad = true)
    (hw : w = (u.count rWATCH 5).raise rWATCH 18 { detail := BitVec.ofNat 64 instant })
    (hmany : w.fld kDISCFG 5 0 ≤ s.windowBad bad) : effVerdict s = w.postCause 0 false := by
  subst hbad hw hu
  unfold State.verdictJoined State.windowBad State.verdictsWith at *
  unfold effVerdict
  simp only [hnext, ↓reduceIte] at hmany ⊢
  simp only [hmany, Bool.true_eq_false, and_false, ↓reduceIte]

/-- A clean verdict, with fewer than K disagreements in the window, ends DEGRADED where the checker alone caused it and
enough clean ones have come. -/
theorem effVerdict_clean (hclean : bad = false) (hfew : s.windowBad bad < u.fld kDISCFG 5 0) :
    effVerdict s =
      if u.safe = ssDEGRADED ∧ s.watch.latched = false ∧ u.rd kCHKSTRM ≠ 0#32 ∧ u.fld kDISCFG 22 15 ≤ s.watch.clean + 1
      then u.enterSafe ssNORMAL else u := by
  have hlatched : u.watch.latched = s.watch.latched := by rw [hu]; rfl
  subst hclean hu
  have hnot := Nat.not_le.mpr hfew
  rw [← hlatched]
  unfold State.verdictJoined State.windowBad State.verdictsWith at *
  unfold effVerdict
  simp only [hnext, Bool.false_and, Bool.false_eq_true, ↓reduceIte] at hnot ⊢
  simp only [hnot, and_true, ↓reduceIte]

end

/-! ### Causes (R574, R575) -/

/-- The most severe pending cause is taken. -/
theorem effSafeCause_takes {s : State} {c : Cause} (hworst : s.worstCause = some c) :
    effSafeCause s = (s.setWatch { s.watch with causes := s.watch.causes.erase c }).takeCause c := by
  unfold effSafeCause
  rw [hworst]

/-- In RECOVERING causes 3 and 4 are dropped. -/
theorem State.takeCause_recovering {u : State} {c : Cause} (hsafe : u.safe = ssRECOVERING) (hnum : c.num = 3 ∨ c.num = 4) :
    u.takeCause c = u := if_pos ⟨hsafe, hnum⟩

/-- In RESTARTING a cause of a main domain is only shown. -/
theorem State.takeCause_restarting {u : State} {c : Cause} (hsafe : u.safe = ssRESTARTING) (hmain : c.island = false) :
    u.takeCause c = u.setFlag kSSCAUSE c.num true := by
  have hne : ¬ssRESTARTING = ssRECOVERING := by decide
  unfold State.takeCause
  simp only [hsafe, hmain, hne, false_and, and_self, ↓reduceIte]

/-- A cause is shown, logged and counted before it is acted on. -/
def State.causeLogged (u : State) (c : Cause) : State :=
  ((((u.setFlag kSSCAUSE c.num true).setFld kSSCAUSE 19 16 c.num).raise rWATCH 16
    { always := true, inj := c.inj, detail := BitVec.ofNat 64 c.num })).count rWATCH 3

/-- In NORMAL a cause that is not ignored is acted on. -/
theorem State.takeCause_normal {u : State} {c : Cause} (hsafe : u.safe = ssNORMAL) (hnum : c.num ≠ 7)
    (hact : (u.setFlag kSSCAUSE c.num true).actOf c ≠ 0) :
    u.takeCause c = (u.causeLogged c).react ((u.setFlag kSSCAUSE c.num true).actOf c) := by
  have hne : ¬ssNORMAL = ssRECOVERING := by decide
  have hne' : ¬ssNORMAL = ssRESTARTING := by decide
  unfold State.takeCause State.causeLogged
  simp only [hsafe, hnum, hact, hne, hne', false_and, ↓reduceIte]

section
variable {v : State} (hsafe : v.safe = ssNORMAL)
include hsafe

theorem State.react_degrade : v.react 1 = v.enterSafe ssDEGRADED := by
  have hne : ¬ssNORMAL = ssHALTED := by decide
  unfold State.react
  simp only [hsafe, hne, OfNat.one_ne_ofNat, ↓reduceIte]

theorem State.react_restart : v.react 2 = v.restartOrHalt := by
  have hne : ¬ssNORMAL = ssHALTED := by decide
  unfold State.react
  simp only [hsafe, hne, Nat.reduceEqDiff, ↓reduceIte]

theorem State.react_halt : v.react 3 = v.haltMain := by
  have hne : ¬ssNORMAL = ssHALTED := by decide
  unfold State.react
  simp only [hsafe, hne, ↓reduceIte]

end

/-! ### WATCH_SSCMD (R573, R574, R576) and the heartbeat (R721) -/

/-- A permitted write of the Night Watch's own pages. -/
theorem State.regWrite_watch {s : State} {i : Initiator} {p o : Nat} {v : Word} (hp : 1 ≤ p) (hp11 : p < 11)
    (ho : o < 4096) (h : s.Reaches i (rk rWATCH p o) v) :
    s.regWrite i (rk rWATCH p o) v =
      (effWatchReg p o (rk rWATCH p o) i.itag v (s.touch (regionPd rWATCH))).respond .ok :=
  State.regWrite_block hp hp11 ho (by decide) h

/-- A permitted write of WATCH_SSCMD. -/
theorem State.regWrite_ssCmd {s : State} {i : Initiator} {v : Word} (h : s.Reaches i kSSCMD v) :
    s.regWrite i kSSCMD v = (effSsCmd v i.itag (s.touch (regionPd rWATCH))).respond .ok :=
  State.regWrite_watch (by decide) (by decide) (by decide) h

/-- DEGRADE, RESTART and HALT are causes with their own action. -/
theorem State.regWrite_ssCmd_cause {s : State} {i : Initiator} {cmd : Nat} (h : s.Reaches i kSSCMD (wordOf cmd))
    (h1 : 1 ≤ cmd) (h3 : cmd ≤ 3) :
    s.regWrite i kSSCMD (wordOf cmd) = ((s.touch (regionPd rWATCH)).postCause 15 true (some cmd)).respond .ok := by
  have hcmd : fieldOf (wordOf cmd) 2 0 = cmd := by
    rw [fieldOf_wordOf (by omega)]
    omega
  rw [State.regWrite_ssCmd h]
  unfold effSsCmd
  simp only [hcmd, h1, h3, and_self, ↓reduceIte]

section
variable (t : Itag) (s : State)

theorem effSsCmd_ready : effSsCmd (wordOf 4) t s =
    if s.safe = ssRESTARTING ∧ s.watch.bootEnded = true then
      ((s.setWatch { s.watch with hbBase := s.now, seq := 0 }).enterSafe ssRECOVERING).setPhase 7
    else s.cfgErr rWATCH t := rfl

theorem effSsCmd_clear : effSsCmd (wordOf 5) t s =
    if s.safe = ssDEGRADED ∧ s.watch.latched = false then s.enterSafe ssNORMAL else s := rfl

end

/-- Settles O41: the checker's verdicts, the most severe cause by the state that it meets, the time-outs, and the commands
of WATCH_SSCMD. -/
theorem safeStateController : Obligations.SafeStateController := by
  intro s
  refine ⟨?verdict, ?cause, ?noPlan, ?heartbeat, ?recovery, ?commands⟩
  case verdict =>
    rintro bad instant d _ rest u hnext rfl hu
    refine ⟨fun hbad w hw hmany => congrArg Host.Outcome.next (effVerdict_disagrees hnext hu hbad hw hmany), ?_⟩
    intro hclean hfew
    have hverdict := effVerdict_clean hnext hu hclean hfew
    exact ⟨fun hsafe hlatched hstreams henough =>
        congrArg Host.Outcome.next (hverdict.trans (if_pos ⟨hsafe, hlatched, hstreams, henough⟩)),
      fun hsafe => congrArg Host.Outcome.next (hverdict.trans (if_neg fun h => hsafe h.1))⟩
  case cause =>
    rintro c u v hworst hu
    have htakes : effSafeCause s = u.takeCause c := hu ▸ effSafeCause_takes hworst
    refine ⟨fun hsafe hnum => congrArg Host.Outcome.next (htakes.trans (State.takeCause_recovering hsafe hnum)),
      fun hsafe hmain => congrArg Host.Outcome.next (htakes.trans (State.takeCause_restarting hsafe hmain)), ?_⟩
    rintro hsafe hnum _ rfl hact hv hvsafe
    have hlogged : v = u.causeLogged c := hv
    have hreact := htakes.trans (State.takeCause_normal hsafe hnum hact)
    rw [← hlogged] at hreact
    refine ⟨fun hdo => ?_, fun hdo hfew => ?_, fun hdo hmany => ?_, fun hdo => ?_⟩
    all_goals rw [hdo] at hreact
    · exact congrArg Host.Outcome.next (hreact.trans (State.react_degrade hvsafe))
    · exact congrArg Host.Outcome.next ((hreact.trans (State.react_restart hvsafe)).trans (if_neg (Nat.not_le.mpr hfew)))
    · exact congrArg Host.Outcome.next ((hreact.trans (State.react_restart hvsafe)).trans (if_pos hmany))
    · exact congrArg Host.Outcome.next (hreact.trans (State.react_halt hvsafe))
  case noPlan => exact fun hruns hdue => congrArg Host.Outcome.next (if_pos ⟨hruns, hdue⟩)
  case heartbeat => exact fun hon hdue => congrArg Host.Outcome.next (if_pos ⟨hon, hdue⟩)
  case recovery => exact fun hsafe hfirst hdue => congrArg Host.Outcome.next (if_pos ⟨hsafe, hfirst, hdue⟩)
  case commands =>
    intro i u hu
    refine ⟨?write, fun h => ?degrade, fun h => ?restart, fun h => ?halt, fun h => ?ready, fun h => ?clear⟩
    case write =>
      rintro v _ h rfl
      rw [hu]
      exact congrArg Host.Outcome.next (State.regWrite_watch (by decide) (by decide) (by decide) h)
    case degrade => exact congrArg Host.Outcome.next (hu ▸ State.regWrite_ssCmd_cause h (by decide) (by decide))
    case restart => exact congrArg Host.Outcome.next (hu ▸ State.regWrite_ssCmd_cause h (by decide) (by decide))
    case halt => exact congrArg Host.Outcome.next (hu ▸ State.regWrite_ssCmd_cause h (by decide) (by decide))
    case ready =>
      have hwrite := State.regWrite_ssCmd h
      rw [← hu, effSsCmd_ready] at hwrite
      exact ⟨fun hsafe hboot => congrArg Host.Outcome.next
          (hwrite.trans (congrArg (State.respond · .ok) (if_pos ⟨hsafe, hboot⟩))),
        fun hnot => congrArg Host.Outcome.next (hwrite.trans (congrArg (State.respond · .ok)
          (if_neg (not_and_or.mpr (hnot.imp_right ne_true_of_eq_false)))))⟩
    case clear =>
      have hwrite := State.regWrite_ssCmd h
      rw [← hu, effSsCmd_clear] at hwrite
      exact ⟨fun hsafe hlatched => congrArg Host.Outcome.next
          (hwrite.trans (congrArg (State.respond · .ok) (if_pos ⟨hsafe, hlatched⟩))),
        fun hnot => congrArg Host.Outcome.next (hwrite.trans (congrArg (State.respond · .ok)
          (if_neg (not_and_or.mpr (hnot.imp_right ne_false_of_eq_true)))))⟩

end Sys2Proof.Machine
end

section
/-! The restart sequencer, the lockstep pairs, NW_ALIVE and the protected intervals (R560, R577–R582, R585). -/

namespace Sys2Proof.Machine

/-! ### The restart sequencer (R577, R581) -/

section
variable {s : State}

/-- In RESTARTING the end of quiesce shows phase 3. -/
theorem effQuiesce_restarting (hseq : s.watch.seq = 1) (hsafe : s.safe = ssRESTARTING) :
    effQuiesce s = (s.setWatch { s.watch with seq := 2 }).setPhase 3 := by
  unfold effQuiesce
  rw [if_neg (not_not.mpr hseq)]
  exact if_pos hsafe

/-- In RESTARTING the hold shows phase 4. -/
theorem effHold_restarting {u : State} (hseq : s.watch.seq = 2) (hu : u = s.holdMain) (hsafe : u.safe = ssRESTARTING) :
    effHold s = (u.setWatch { u.watch with seq := 3 }).setPhase 4 := by
  unfold effHold
  rw [if_neg (not_not.mpr hseq), ← hu]
  exact if_pos hsafe

/-- The release lets the main domains go, or has them boot where their memories were lost. -/
theorem effRelease_restarting {u : State} (hseq : s.watch.seq = 3) (hsafe : s.safe = ssRESTARTING)
    (hsupply : s.pwr.brown = false) (hu : u = ((s.zeroMeas 6).zeroMeas 7).setPhase 5) :
    effRelease s = if u.flag (rk rPWR 1 0x104) 2 = true then (u.setWatch { u.watch with seq := 4 }).startMainBoot
      else (u.setWatch { u.watch with seq := 4 }).releaseMain := by
  unfold effRelease
  simp only [hseq, hsafe, hsupply, ← hu, ne_eq, not_true_eq_false, Bool.false_eq_true, or_self, ↓reduceIte]
  rfl

section
variable (hseq : s.watch.seq = 4) (hsafe : s.safe = ssRESTARTING) (hmain : s.boot.mainOnly = false)
  (hinj : s.injArmed rSEC 0 = false)
include hseq hsafe hmain hinj

/-- Without an injection the check of an image that can be read is decided by its digest. -/
theorem effImageCheck_reads {bs : List Byte} (himage : s.restartImage = some bs) :
    effImageCheck s = if sha256 bs = s.rstHash then (s.setWatch { s.watch with seq := 5, bootEnded := true }).setPhase 6
      else s.haltMain := by
  have hsig : s.sigFails = (false, s) := if_neg (by rw [hinj]; decide)
  unfold effImageCheck
  simp only [hseq, hsafe, hmain, hsig, himage, ne_eq, not_true_eq_false, Bool.false_eq_true, or_self, true_and, ↓reduceIte]

/-- An image that cannot be read halts the machine. -/
theorem effImageCheck_unreadable (himage : s.restartImage = none) : effImageCheck s = s.haltMain := by
  have hsig : s.sigFails = (false, s) := if_neg (by rw [hinj]; decide)
  unfold effImageCheck
  simp only [hseq, hsafe, hmain, hsig, himage, ne_eq, not_true_eq_false, Bool.false_eq_true, or_self, ↓reduceIte]

end

end

/-! ### The lockstep pairs (R582) -/

/-- A mismatch of pair `p` is counted and flagged. -/
def State.mismatchNoted (s : State) (p : Nat) : State := (s.count rWATCH 2).raise rWATCH 17 { index := p }

/-- Pair `p` is taken out of service now. -/
def State.pairTaken (u : State) (p : Nat) : State :=
  (u.setFlag kSAFESTAT (12 + p) false).setWatch { u.watch with
    pairOut := Sparse.set (fun _ => none) u.watch.pairOut p (some u.now) }

/-- A mismatching pair in service is taken out; with both out the machine halts, unless it has. -/
theorem State.pairMismatch_cases (s : State) (p : Nat) :
    s.pairMismatch p false =
      if (s.mismatchNoted p).pairIn p = false then s.mismatchNoted p
      else if ((s.mismatchNoted p).pairTaken p).pairIn 0 || ((s.mismatchNoted p).pairTaken p).pairIn 1 ||
        ((s.mismatchNoted p).pairTaken p).safe == ssHALTED then (s.mismatchNoted p).pairTaken p
      else ((s.mismatchNoted p).pairTaken p).haltMain := rfl

/-- A pair that is out is back in service when it has restarted. -/
theorem effPairDone_out {s : State} {p t : Nat} (hout : Sparse.get (fun _ => none) s.watch.pairOut p = some t) :
    effPairDone p s = (s.setWatch { s.watch with
      pairOut := Sparse.set (fun _ => none) s.watch.pairOut p none }).setFlag kSAFESTAT (12 + p) true := by
  unfold effPairDone
  simp only [hout]

/-- NW_ALIVE toggles when a millisecond has passed. -/
theorem effAlive_toggles {s : State} (hin : s.pairIn 0 = true ∨ s.pairIn 1 = true)
    (hdue : s.watch.aliveAt + 1000000 ≤ s.now) :
    effAlive s = s.setWatch { s.watch with alive := !s.watch.alive, aliveAt := s.now } :=
  if_pos (by
    rw [Bool.and_eq_true, Bool.or_eq_true, decide_eq_true_eq]
    exact ⟨hin, by omega⟩)

/-! ### Protected intervals (R585) -/

/-- The state with these dispatched actions in flight. -/
def State.withFlying (s : State) (f : List Dispatched) : State := { s with merid := { s.merid with flying := f } }

/-- The close that interval `k` forces on the window of region `r`. -/
def State.forcedClose (s : State) (k r : Nat) : Dispatched := ⟨1024 + k, .windowClose r 0, s.now + 100, 0⟩

/-- Does interval `k` close an open window of region `r`? -/
def State.forcesClose (s : State) (k r : Nat) : Bool := s.protCovers k r && s.flag (kSTAT r) 3 && hasSpares r

/-- Forcing the closes of a list of regions changes only the actions in flight. -/
theorem State.forceCloses_eq (s : State) (k : Nat) (l : List Nat) (f : List Dispatched) :
    l.foldl (fun a r => if a.forcesClose k r then a.withFlying (insertFlying (a.forcedClose k r) a.merid.flying) else a)
      (s.withFlying f) =
      s.withFlying (l.foldl (fun f r => if s.forcesClose k r then insertFlying (s.forcedClose k r) f else f) f) := by
  induction l generalizing f with
  | nil => rfl
  | cons r rest ih =>
    rw [List.foldl_cons, List.foldl_cons, ← ih]
    have hsame : (s.withFlying f).forcesClose k r = s.forcesClose k r := rfl
    rw [hsame]
    congr 1
    split <;> rfl

section
variable {s : State} {k rev : Nat} (hrev : rev = ((s.phase64 - (s.rd (kPROT k 0)).setWidth 64) >>> 32).toNat + 1)
include hrev

/-- An interval acts once a revolution. -/
theorem effProtStart_done (hdone : Sparse.get (fun _ => 0) s.watch.protDone k = rev) : effProtStart k s = s :=
  if_pos (.inr (hdone.trans hrev))

/-- An interval that begins forces the closes of the open windows that it covers. -/
theorem effProtStart_forces (hnow : s.protNow k = true) (hfirst : Sparse.get (fun _ => 0) s.watch.protDone k ≠ rev) :
    effProtStart k s = (s.setWatch { s.watch with protDone := Sparse.set (fun _ => 0) s.watch.protDone k rev }).withFlying
      ((List.range 40).foldl (fun f r => if s.forcesClose k r then insertFlying (s.forcedClose k r) f else f)
        s.merid.flying) := by
  have hneither : ¬(s.protNow k = false ∨ Sparse.get (fun _ => 0) s.watch.protDone k = rev) :=
    not_or.mpr ⟨ne_false_of_eq_true hnow, hfirst⟩
  unfold effProtStart
  rw [hrev] at hneither ⊢
  refine (if_neg hneither).trans ?_
  generalize List.range 40 = regions
  exact State.forceCloses_eq (s.setWatch { s.watch with protDone := Sparse.set (fun _ => 0) s.watch.protDone k _ }) k regions
    s.merid.flying

end

/-- Settles O42: the sequencer's three steps and its image check, the pairs, NW_ALIVE, and an interval's forced closes. -/
theorem restartAndPairs : Obligations.RestartAndPairs := by
  intro s
  refine ⟨?quiesce, ?hold, ?release, ?image, ?mismatch, ?back, ?alive, rfl, ?interval⟩
  case quiesce => exact fun hseq hsafe => congrArg Host.Outcome.next (effQuiesce_restarting hseq hsafe)
  case hold => exact fun hseq u hu hsafe => congrArg Host.Outcome.next (effHold_restarting hseq hu hsafe)
  case release =>
    intro hseq hsafe hsupply u hu
    have hrelease := effRelease_restarting hseq hsafe hsupply hu
    exact ⟨fun hkept => congrArg Host.Outcome.next (hrelease.trans (if_neg (ne_true_of_eq_false hkept))),
      fun hlost => congrArg Host.Outcome.next (hrelease.trans (if_pos hlost))⟩
  case image =>
    intro hseq hsafe hmain hinj
    exact ⟨fun bs himage hhash => congrArg Host.Outcome.next
        ((effImageCheck_reads hseq hsafe hmain hinj himage).trans (if_pos hhash)),
      fun bs himage hhash => congrArg Host.Outcome.next
        ((effImageCheck_reads hseq hsafe hmain hinj himage).trans (if_neg hhash)),
      fun himage => congrArg Host.Outcome.next (effImageCheck_unreadable hseq hsafe hmain hinj himage)⟩
  case mismatch =>
    rintro pair _ _ rfl rfl
    have hcases := State.pairMismatch_cases s pair.toNat
    refine ⟨fun hout => congrArg Host.Outcome.next (hcases.trans (if_pos hout)), fun hin hother => ?_,
      fun hin h0 h1 hsafe => ?_⟩
    all_goals replace hcases := hcases.trans (if_neg (ne_false_of_eq_true hin))
    · exact congrArg Host.Outcome.next (hcases.trans (if_pos (Bool.or_eq_true_iff.mpr (.inl (Bool.or_eq_true_iff.mpr hother)))))
    · refine congrArg Host.Outcome.next (hcases.trans (if_neg ?_))
      rw [Bool.or_eq_true_iff, Bool.or_eq_true_iff, beq_iff_eq]
      rintro ((h | h) | h)
      · exact ne_true_of_eq_false h0 h
      · exact ne_true_of_eq_false h1 h
      · exact hsafe h
  case back => exact fun pair t hout => congrArg Host.Outcome.next (effPairDone_out hout)
  case alive => exact fun hin hdue => congrArg Host.Outcome.next (effAlive_toggles hin hdue)
  case interval =>
    exact fun k rev hnow hrev => ⟨fun hdone => congrArg Host.Outcome.next (effProtStart_done hrev hdone),
      fun hfirst => congrArg Host.Outcome.next (effProtStart_forces hrev hnow hfirst)⟩

end Sys2Proof.Machine
end

section
/-! Power domains: the deeper states, exits and pre-wakes, PWR_PDCMD, SLEEP and WAKE (R591, R594–R597, R601, R620). -/

namespace Sys2Proof.Machine

/-! ### Deeper states (R591, R594) -/

section
variable {s : State} {pd : Nat}

/-- An idle domain that nothing forbids to be gated goes deeper when its budget, its next action and its idle time allow it. -/
theorem State.goesDeeper_allowed {st lat ns : Nat} (hidle : s.pdIdle pd = true) (hgate : s.noGate pd = false)
    (hst : s.pdState pd = st) (hbudget : lat ≤ s.budget pd * 1000) (hfits : s.fitsAimed pd lat = true)
    (hlong : Sparse.get (fun _ => 0) s.pwr.idleFrom pd + ns ≤ s.now) : s.goesDeeper pd st lat ns = true := by
  unfold State.goesDeeper
  simp only [hst, hidle, hgate, hbudget, hfits, hlong, beq_self_eq_true, Bool.not_false, decide_true, Bool.and_self]

theorem effClkgate_enters (hmay : pdMayGate pd = true) (hbudget : 1 ≤ s.budget pd)
    (hdeeper : s.goesDeeper pd 0 200 1000 = true) : effClkgate pd s = s.setPd pd 1 := by
  unfold effClkgate
  simp only [hmay, hbudget, hdeeper, decide_true, Bool.and_self, ↓reduceIte]

theorem effClkgate_excluded (hmay : pdMayGate pd = false) : effClkgate pd s = s := by
  unfold effClkgate
  simp only [hmay, Bool.false_and, Bool.false_eq_true, ↓reduceIte]

theorem effRetention_enters (hmay : pdMayRetain pd = true) (hdeeper : s.goesDeeper pd 1 40000 200000 = true) :
    effRetention pd s = s.setPd pd 2 := by
  unfold effRetention
  simp only [hmay, hdeeper, Bool.and_self, ↓reduceIte]

theorem effRetention_excluded (hmay : pdMayRetain pd = false) : effRetention pd s = s := by
  unfold effRetention
  simp only [hmay, Bool.false_and, Bool.false_eq_true, ↓reduceIte]

theorem effOff_enters (hmay : pdMayOff pd = true) (hon : s.flag (kPdCfg pd) 0 = true)
    (hdeeper : s.goesDeeper pd 2 (pdOffExit pd) (1000000 * s.fld (kPdCfg pd) 16 1) = true) :
    effOff pd s = (s.resetPd pd).setPd pd 3 := by
  unfold effOff
  simp only [hmay, hon, hdeeper, Bool.and_self, ↓reduceIte]

theorem effOff_excluded (hmay : pdMayOff pd = false) : effOff pd s = s := by
  unfold effOff
  simp only [hmay, Bool.false_and, Bool.false_eq_true, ↓reduceIte]

/-! ### Exits (R595–R597, R620) -/

/-- Demand starts the exit of a gated domain. -/
theorem effWake_gated (hdemand : s.pdIdle pd = false) (hgated : s.pdState pd = 1) (htouched : (s.touch pd).pdState pd = 1) :
    effWake pd s = (s.touch pd).startExit pd 200 := by
  unfold effWake State.demandPd
  simp only [hdemand, hgated, htouched, Bool.false_eq_true, true_or, ↓reduceIte]

/-- Demand starts the exit of a retained domain. -/
theorem effWake_retained (hdemand : s.pdIdle pd = false) (hretained : s.pdState pd = 2)
    (htouched : (s.touch pd).pdState pd = 2) : effWake pd s = (s.touch pd).startExit pd 40000 := by
  unfold effWake State.demandPd
  simp only [hdemand, hretained, htouched, Bool.false_eq_true, OfNat.ofNat_ne_one, or_true, ↓reduceIte]

/-- An occurrence nearer than the exit latency and 1 µs starts the exit, counted. -/
theorem effPrewake_near {lat t : Nat} (hexit : s.exitLatency pd = some lat) (haimed : s.nextAimed pd = some t)
    (hnear : t ≤ lat + 1000) : effPrewake pd s = (s.startExit pd lat).count rPWR 5 := by
  unfold effPrewake
  simp only [hexit, haimed, hnear, ↓reduceIte]

/-- The exit of a domain is over. -/
def State.exitOver (s : State) (pd : Nat) : State :=
  s.setPwr { s.pwr with
    wakeAt := Sparse.set (fun _ => none) s.pwr.wakeAt pd none,
    wakeFrom := Sparse.set (fun _ => 0) s.pwr.wakeFrom pd 0 }

/-- A complete exit leaves the domain ACTIVE; one from retention with a state error restarts it first. -/
theorem State.wakeDone_complete {retErr : Bool} {t : Nat} (hwake : Sparse.get (fun _ => none) s.pwr.wakeAt pd = some t)
    (hdue : t ≤ s.now) (hexiting : s.pdState pd = 5) (hinj : s.injArmed rPWR 2 = false) :
    s.wakeDone pd retErr =
      ((if Sparse.get (fun _ => 0) s.pwr.wakeFrom pd = 2 ∧ retErr = true
        then (((s.exitOver pd).count rPWR 6).resetPd pd).dropPdMem pd else s.exitOver pd).setPd pd 0).touch pd := by
  unfold State.wakeDone State.exitOver
  simp only [hwake, Nat.not_lt.mpr hdue, hexiting, hinj, ne_eq, not_true_eq_false, or_self, Bool.and_false, Bool.false_and,
    Bool.false_or, Bool.false_eq_true, ↓reduceIte]

/-- Where no access waits for the domain the end of its exit does no more. -/
theorem effWakeDone_noWaiting {u : State} {retErr : Bool} (hdone : s.wakeDone pd retErr = u)
    (hnone : ∀ a ∈ u.waiting, u.keyPd a.key ≠ pd) (hactive : u.pdState pd = 0) : effWakeDone pd retErr s = u := by
  have hmine : u.waiting.filter (fun a => u.keyPd a.key == pd) = [] :=
    List.filter_eq_nil_iff.mpr fun a ha => by rw [beq_iff_eq]; exact hnone a ha
  have hothers : u.waiting.filter (fun a => u.keyPd a.key != pd) = u.waiting :=
    List.filter_eq_self.mpr fun a ha => bne_iff_ne.mpr (hnone a ha)
  unfold effWakeDone
  simp only [hdone, hactive, hmine, hothers, List.foldl_nil, ne_eq, not_true_eq_false, ↓reduceIte]

end

/-! ### PWR_PDCMD and PWR_SLEEP (R595, R601) -/

/-- A permitted write of the power controller's own pages. -/
theorem State.regWrite_pwr {s : State} {i : Initiator} {p o : Nat} {v : Word} (hp : 1 ≤ p) (hp11 : p < 11)
    (ho : o < 4096) (h : s.Reaches i (rk rPWR p o) v) :
    s.regWrite i (rk rPWR p o) v = (effPwrReg p o (rk rPWR p o) i.itag v (s.touch (regionPd rPWR))).respond .ok :=
  State.regWrite_block hp hp11 ho (by decide) h

/-- The domain whose exit a command asks for starts it, where its state has an exit. -/
def State.startNextExit (s : State) (pd : Nat) : State := (s.exitLatency pd).elim s (s.startExit pd)

/-- A wake command names its domain, which is none of the always-on island's. -/
theorem effPdCmd_wake {pd : Nat} (t : Itag) (s : State) (hpd : pd < 32) :
    effPdCmd (wordOf (pd + 2 ^ 5)) t s =
      if pd < 4 then (s.setFld kPDCMD 4 0 pd).cfgErr rPWR t else (s.setFld kPDCMD 4 0 pd).startNextExit pd := by
  have hdomain : fieldOf (wordOf (pd + 2 ^ 5)) 4 0 = pd := by
    rw [fieldOf_wordOf (by omega)]
    omega
  have hcmd : fieldOf (wordOf (pd + 2 ^ 5)) 6 5 = 1 := by
    rw [fieldOf_wordOf (by omega)]
    omega
  unfold effPdCmd State.startNextExit
  simp only [hdomain, hcmd, ne_eq, not_true_eq_false, ↓reduceIte]
  cases (s.setFld kPDCMD 4 0 pd).exitLatency pd <;> rfl

theorem effSleepCmd_wake (s : State) :
    effSleepCmd (wordOf 2) s =
      if s.pwr.sleeping = true then (s.setPwr { s.pwr with sleeping := false }).startMainBoot else s := by
  have hcmd : fieldOf (wordOf 2) 1 0 = 2 := by decide
  unfold effSleepCmd
  simp only [hcmd, OfNat.ofNat_ne_one, true_and, ↓reduceIte]

/-- SLEEP turns the main domains off and drops the contents of their memories. -/
theorem effSleepCmd_sleep {s v : State}
    (hv : v = (mainPds.reverse.foldl (fun s pd => (s.resetPd pd).setPd pd 3) s).dropMem isHbmLpddrKey) :
    effSleepCmd (wordOf 1) s = v.setPwr { v.pwr with sleeping := true, wakeAt := [], wakeFrom := [] } := by
  have hcmd : fieldOf (wordOf 1) 1 0 = 1 := by decide
  unfold effSleepCmd
  simp only [hcmd, ← hv, ↓reduceIte]

/-- Settles O43: the three deeper states, the exits on demand and ahead of an occurrence, their end, and the commands. -/
theorem domainsSleepAndWake : Obligations.DomainsSleepAndWake := by
  intro s pd
  refine ⟨fun hidle hgate => ⟨?gate, ?retain, ?off⟩, ?noGate, ?noRetain, ?noOff, fun hdemand => ⟨?gated, ?retained⟩,
    ?prewake, ?done, ?commands⟩
  case gate =>
    exact fun hmay hst hbudget hfits hlong => congrArg Host.Outcome.next (effClkgate_enters hmay hbudget
      (State.goesDeeper_allowed hidle hgate hst (by omega) hfits hlong))
  case retain =>
    exact fun hmay hst hbudget hfits hlong => congrArg Host.Outcome.next (effRetention_enters hmay
      (State.goesDeeper_allowed hidle hgate hst (by omega) hfits hlong))
  case off =>
    exact fun hmay hon hst hbudget hfits hlong => congrArg Host.Outcome.next (effOff_enters hmay hon
      (State.goesDeeper_allowed hidle hgate hst hbudget hfits hlong))
  case noGate => exact fun hmay => congrArg Host.Outcome.next (effClkgate_excluded hmay)
  case noRetain => exact fun hmay => congrArg Host.Outcome.next (effRetention_excluded hmay)
  case noOff => exact fun hmay => congrArg Host.Outcome.next (effOff_excluded hmay)
  case gated => exact fun htouched hst => congrArg Host.Outcome.next (effWake_gated hdemand hst htouched)
  case retained => exact fun htouched hst => congrArg Host.Outcome.next (effWake_retained hdemand hst htouched)
  case prewake =>
    exact fun lat t hexit haimed hnear => congrArg Host.Outcome.next (effPrewake_near hexit haimed hnear)
  case done =>
    rintro retErr t _ _ hwake hdue hexiting hinj rfl rfl hnone hactive
    exact congrArg Host.Outcome.next
      (effWakeDone_noWaiting (State.wakeDone_complete hwake hdue hexiting hinj) hnone hactive)
  case commands =>
    intro i u v hu
    refine ⟨?pdcmd, ?sleep, ?wake⟩
    case pdcmd =>
      intro h hv
      have hwrite : s.regWrite i kPDCMD (wordOf (pd.toNat + 2 ^ 5)) =
          (effPdCmd (wordOf (pd.toNat + 2 ^ 5)) i.itag (s.touch (regionPd rPWR))).respond .ok :=
        State.regWrite_pwr (by decide) (by decide) (by decide) h
      rw [effPdCmd_wake _ _ pd.isLt, ← hu, ← hv] at hwrite
      refine ⟨fun hisland => congrArg Host.Outcome.next
        (hwrite.trans (congrArg (State.respond · .ok) (if_pos hisland))), fun hmain => ?_⟩
      rw [if_neg (Nat.not_lt.mpr hmain), State.startNextExit] at hwrite
      refine ⟨fun lat hexit => ?_, fun hnone => ?_⟩
      · rw [hexit] at hwrite
        exact congrArg Host.Outcome.next hwrite
      · rw [hnone] at hwrite
        exact congrArg Host.Outcome.next hwrite
    case sleep =>
      intro h hv
      have hwrite : s.regWrite i (rk rPWR 1 0x120) (wordOf 1) =
          (effSleepCmd (wordOf 1) (s.touch (regionPd rPWR))).respond .ok :=
        State.regWrite_pwr (by decide) (by decide) (by decide) h
      rw [← hu, effSleepCmd_sleep hv] at hwrite
      exact congrArg Host.Outcome.next hwrite
    case wake =>
      intro h
      have hwrite : s.regWrite i (rk rPWR 1 0x120) (wordOf 2) =
          (effSleepCmd (wordOf 2) (s.touch (regionPd rPWR))).respond .ok :=
        State.regWrite_pwr (by decide) (by decide) (by decide) h
      rw [← hu, effSleepCmd_wake] at hwrite
      exact ⟨fun hsleeps => congrArg Host.Outcome.next
          (hwrite.trans (congrArg (State.respond · .ok) (if_pos hsleeps))),
        fun hawake => congrArg Host.Outcome.next
          (hwrite.trans (congrArg (State.respond · .ok) (if_neg (ne_true_of_eq_false hawake))))⟩

end Sys2Proof.Machine
end

section
/-! Ceilings, supply events, the loss of the standby input, and AGE's reading of its monitors (R599, R604–R613, R620). -/

namespace Sys2Proof.Machine

/-! ### The power ceiling (R604) -/

/-- The estimate of the input power is shown, and its time noted. -/
def State.estimated (s : State) (p : Nat) : State := (s.setFld kPEST 15 0 p).setPwr { s.pwr with estAt := some s.now }

section
variable {s u : State} {p : Nat} (hdue : passed s s.pwr.estAt 1000000 = true) (hu : u = s.estimated p)
include hdue hu

/-- An estimate above the limit lowers a ceiling that is not the highest. -/
theorem effEstimate_above (habove : u.fld kPLIM 8 0 * 10 < p) (hlowered : u.ceiling 0 ≠ 8) :
    effEstimate p s = (u.setPwr { u.pwr with lowFor := 0 }).setCeiling 0 (Nat.max 2 (u.ceiling 0 - 1)) := by
  subst hu
  unfold State.estimated at *
  unfold effEstimate
  simp only [hdue, habove, hlowered, Bool.not_true, Bool.false_eq_true, ↓reduceIte]

/-- The tenth estimate in a row that is well below the limit raises the ceiling. -/
theorem effEstimate_below (hbelow : 100 * p < 95 * (u.fld kPLIM 8 0 * 10)) :
    effEstimate p s =
      if 10 ≤ u.pwr.lowFor + 1 then
        (u.setPwr { u.pwr with lowFor := u.pwr.lowFor + 1 }).setCeiling 0 (Nat.min 8 (u.ceiling 0 + 1))
      else u.setPwr { u.pwr with lowFor := u.pwr.lowFor + 1 } := by
  have hnot : ¬u.fld kPLIM 8 0 * 10 < p := by omega
  subst hu
  unfold State.estimated at *
  unfold effEstimate
  simp only [hdue, hnot, hbelow, Bool.not_true, Bool.false_eq_true, ↓reduceIte]

end

/-! ### The thermal ceiling (R605) -/

/-- The highest reading is shown, and what it is: warm, critical or at the trip. -/
def State.thermalSeen (s : State) (t : Nat) : State :=
  (s.setFld kTJMAX 7 0 t).setPwr { s.pwr with
    sampleAt := some s.now, warm := decide (s.fld kTCFG 6 0 ≤ t), crit := decide (105 ≤ t), trip := decide (115 ≤ t) }

section
variable {s u : State} {temps : List Nat} {t : Nat} (hdue : passed s s.pwr.sampleAt 100000 = true)
  (hinj : s.pwr.warnInjUntil ≤ s.now) (ht : t = temps.foldl Nat.max 0) (hu : u = s.thermalSeen t)
include hdue hinj ht hu

/-- A reading a little below the warning changes no ceiling. -/
theorem effThermal_cool (hcool : t < s.fld kTCFG 6 0) (hnear : s.fld kTCFG 6 0 ≤ t + 5) (h105 : t < 105) :
    effThermal temps s = u := by
  have h115 : t < 115 := by omega
  subst hu ht
  unfold effThermal
  simp only [hdue, Nat.not_lt.mpr hinj, Nat.not_le.mpr hcool, Nat.not_lt.mpr hnear, Nat.not_le.mpr h105,
    Nat.not_le.mpr h115, Bool.not_true, decide_false, Bool.false_and, Bool.false_eq_true, ↓reduceIte]
  unfold State.thermalSeen
  simp only [Nat.not_le.mpr hcool, Nat.not_le.mpr h105, Nat.not_le.mpr h115, decide_false]
  rfl

/-- A reading that becomes warm is counted and flagged, and steps the ceiling down. -/
theorem effThermal_warm {v : State} (hwarm : s.fld kTCFG 6 0 ≤ t) (h105 : t < 105) (hwas : s.pwr.warm = false)
    (hv : v = (u.count rPWR 2).raise rPWR 18) :
    effThermal temps s = v.thermalStep (Nat.max 2 (v.ceiling 1 - 1)) := by
  have h115 : t < 115 := by omega
  subst hv hu ht
  unfold effThermal
  simp only [hdue, Nat.not_lt.mpr hinj, hwarm, Nat.not_le.mpr h105, Nat.not_le.mpr h115, hwas, Bool.not_true,
    decide_true, decide_false, Bool.false_and, Bool.false_eq_true, ↓reduceIte]
  unfold State.thermalSeen
  simp only [hwarm, Nat.not_le.mpr h105, Nat.not_le.mpr h115, decide_true, decide_false]
  rfl

/-- A reading that becomes critical is counted and flagged, raises cause 10, and sets the lowest ceiling. -/
theorem effThermal_critical (hwarm : s.fld kTCFG 6 0 ≤ t) (h105 : 105 ≤ t) (h115 : t < 115) (hwas : s.pwr.warm = true)
    (hnew : s.pwr.crit = false) :
    effThermal temps s = (((u.count rPWR 3).raise rPWR 19).postCause 10 true).setCeiling 1 2 := by
  subst hu ht
  unfold effThermal
  simp only [hdue, Nat.not_lt.mpr hinj, hwarm, h105, Nat.not_le.mpr h115, hwas, hnew, Bool.not_true,
    decide_true, decide_false, Bool.false_and, Bool.false_eq_true, ↓reduceIte]
  unfold State.thermalSeen
  simp only [hwarm, h105, Nat.not_le.mpr h115, decide_true, decide_false]
  rfl

/-- A reading that reaches the trip halts the machine by cause 10. -/
theorem effThermal_trip (hwarm : s.fld kTCFG 6 0 ≤ t) (h115 : 115 ≤ t) (hwas : s.pwr.warm = true)
    (hcrit : s.pwr.crit = true) (hnew : s.pwr.trip = false) :
    effThermal temps s = (u.postCause 10 true (some 3)).setCeiling 1 2 := by
  have h105 : 105 ≤ t := by omega
  subst hu ht
  unfold effThermal
  simp only [hdue, Nat.not_lt.mpr hinj, hwarm, h105, h115, hwas, hcrit, hnew, Bool.not_true,
    decide_true, Bool.false_eq_true, ↓reduceIte]
  unfold State.thermalSeen
  simp only [hwarm, h105, h115, decide_true]
  rfl

end

/-! ### Supply events (R607–R611) -/

section
variable {s : State} {mv : Nat}

theorem State.steady_of_le (h : s.pwr.supplyFrom + 1000000 ≤ s.now) : s.steady = true := by
  unfold State.steady
  rw [decide_eq_true_eq]
  omega

/-- A fall below 9.0 V flies the fall-back, and has the sequencer quiesce and hold the main domains. -/
theorem effBrownout_below {u v : State} (hlow : mv < 9000) (hu : u = (s.inputLow mv s.now).fly)
    (hv : v = u.setWatch { u.watch with seq := if u.watch.seq = 3 then 3 else 1, bootEnded := false }) :
    effBrownout mv s = ((v.setPwr { v.pwr with brown := true }).count rPWR 1).raise rPWR 17 := by
  subst hv
  unfold effBrownout
  rw [if_neg (Nat.not_le.mpr hlow), ← hu]

end

/-! ### The loss of the standby input (R599) -/

/-- A restricted table reads as before at the keys that it keeps, and as unlisted at the others. -/
theorem Sparse.get_restrict {α : Type} (d : Nat → α) (p : Nat → Bool) (m : Sparse α) (k : Nat) :
    Sparse.get d (Sparse.restrict p m) k = if p k then Sparse.get d m k else d k := by
  induction m with
  | nil => exact (ite_self _).symm
  | cons e rest ih =>
    obtain ⟨j, x⟩ := e
    by_cases hj : p j = true
    · have hkeep : Sparse.restrict p ((j, x) :: rest) = (j, x) :: Sparse.restrict p rest := List.filter_cons_of_pos hj
      rw [hkeep]
      simp only [Sparse.get, ih]
      by_cases hjk : j = k
      · simp only [← hjk, hj, ↓reduceIte]
      · simp only [hjk, ↓reduceIte]
    · have hdrop : Sparse.restrict p ((j, x) :: rest) = Sparse.restrict p rest := List.filter_cons_of_neg hj
      rw [hdrop, ih]
      simp only [Sparse.get]
      by_cases hjk : j = k
      · simp only [← hjk, hj, Bool.false_eq_true, ↓reduceIte]
      · simp only [hjk, ↓reduceIte]

/-! ### AGE's monitors (R613) -/

/-- One monitor's reading joins those of this round. -/
def ageFold (readings : Nat → Option Int) (acc : List (Nat × Int) × State) (i : Nat) : List (Nat × Int) × State :=
  if acc.2.monActive i then
    ((acc.2.readMonitor i (readings i)).1.elim acc.1 (fun v => (i, v) :: acc.1), (acc.2.readMonitor i (readings i)).2)
  else acc

/-- The readings of rail `r` that count, in the order of their monitors. -/
abbrev State.railReadings (v : State) (vs : List (Nat × Int)) (r : Nat) : List Int :=
  (vs.filter (fun x => monRail x.1 == r && v.counts x.1)).map (fun x => x.2)

/-- The least of the readings is shown in the rail's AGE_VNOW. -/
def State.showLeast (t : State) (r : Nat) (xs : List Int) : State :=
  xs.min?.elim t (fun m => t.setFld (kVNOW r) 26 11 (patternOf 16 m))

/-- The minimum of a list of readings is the last of its successive minima. -/
theorem min?_cons_eq_foldl (m : Int) (ms : List Int) :
    (m :: ms).min? = some (ms.foldl (fun a b => if b < a then b else a) m) := by
  have hmin : (fun a b : Int => if b < a then b else a) = min := by
    funext a b
    rw [Int.min_def]
    split <;> split <;> omega
  rw [List.min?_cons', hmin]

theorem State.rd_showLeast (t : State) (r : Nat) (xs : List Int) {k : Nat} (hk : k ≠ kVNOW r) :
    (t.showLeast r xs).rd k = t.rd k := by
  unfold State.showLeast
  cases xs.min? with
  | none => rfl
  | some m => exact State.rd_setFld_ne _ _ _ _ hk

theorem kAGECTRL_ne_kVNOW (r : Nat) : kAGECTRL ≠ kVNOW r := by
  unfold kAGECTRL kVNOW rk
  omega

/-- Showing the least readings of some rails leaves AGE_CTRL alone. -/
theorem State.flag_showLeasts (xs : Nat → List Int) (l : List Nat) (t : State) :
    (l.foldl (fun t r => t.showLeast r (xs r)) t).flag kAGECTRL 0 = t.flag kAGECTRL 0 := by
  induction l generalizing t with
  | nil => rfl
  | cons r rest ih => exact (ih _).trans (congrArg (flagOf · 0) (State.rd_showLeast t r _ (kAGECTRL_ne_kVNOW r)))

section
variable {s : State}

/-- Within 10 ms of the last reading, or with AGE's domain down, nothing is read. -/
theorem effAgeRead_early (readings : List (Option Int))
    (h : s.pdDown 29 = true ∨ passed s s.age.readAt 10000000 = false) : effAgeRead readings s = s := by
  refine if_pos ?_
  rw [Bool.or_eq_true_iff, Bool.not_eq_true']
  exact h

/-- With the planner off the readings only show in AGE_VNOW. -/
theorem effAgeRead_plannerOff {u v : State} {readings : List (Option Int)} {vs : List (Nat × Int)}
    (hup : s.pdDown 29 = false) (hdue : passed s s.age.readAt 10000000 = true)
    (hu : u = s.setAge { s.age with readAt := some s.now })
    (hread : (List.range 1024).foldl (ageFold (fun i => readings.getD i none)) ([], u) = (vs, v))
    (hoff : v.flag kAGECTRL 0 = false) :
    effAgeRead readings s =
      (List.range 5).foldl (fun t r => t.showLeast r (v.railReadings vs.reverse r)) v := by
  have hfold : ∀ F : List (Nat × Int) × State → Nat → List (Nat × Int) × State,
      (∀ acc i, F acc i = ageFold (fun i => readings.getD i none) acc i) → (List.range 1024).foldl F ([], u) = (vs, v) := by
    intro F hF
    rw [funext₂ hF]
    exact hread
  have hshow : ∀ (shared : Nat → List Int) (G : State → Nat × List Int × List Int → State),
      (∀ t r xs ys, G t (r, xs, ys) = t.showLeast r xs) →
      ((List.range 5).map (fun r => (r, v.railReadings vs.reverse r, shared r))).foldl G v =
        (List.range 5).foldl (fun t r => t.showLeast r (v.railReadings vs.reverse r)) v := by
    intro shared G hG
    simp only [List.foldl_map, hG]
  have hctrl := (State.flag_showLeasts (v.railReadings vs.reverse) (List.range 5) v).trans hoff
  unfold effAgeRead
  rw [if_neg (by rw [hup, hdue]; decide)]
  dsimp only
  rw [← hu, hfold]
  · dsimp only
    rw [hshow, if_pos hctrl]
    intro t r xs ys
    unfold State.showLeast
    cases xs with
    | nil => rfl
    | cons m ms => rw [min?_cons_eq_foldl]; rfl
  · intro acc i
    unfold ageFold
    split
    · obtain ⟨_ | x, w⟩ := acc.2.readMonitor i (readings.getD i none) <;> rfl
    · rfl

end

/-- Settles O44: the two ceilings, the supply's falls and recoveries, the loss of the standby input, and AGE's reading. -/
theorem powerEvents : Obligations.PowerEvents := by
  intro s mv
  refine ⟨?estimate, ?thermal, ?dip, ?recover, ?brownout, ?memlost, rfl, ?standby, ?early, ?read⟩
  case estimate =>
    intro hdue u hu
    refine ⟨fun habove hlowered => congrArg Host.Outcome.next (effEstimate_above hdue hu habove hlowered), fun hbelow => ?_⟩
    have hestimate := effEstimate_below hdue hu hbelow
    exact ⟨fun hten => congrArg Host.Outcome.next (hestimate.trans (if_pos (by omega))),
      fun hfew => congrArg Host.Outcome.next (hestimate.trans (if_neg (by omega)))⟩
  case thermal =>
    intro temps t u hdue hinj ht hu
    exact ⟨fun hcool hnear h105 => congrArg Host.Outcome.next (effThermal_cool hdue hinj ht hu hcool hnear h105),
      fun hwarm h105 hwas v hv => congrArg Host.Outcome.next (effThermal_warm hdue hinj ht hu hwarm h105 hwas hv),
      fun hwarm h105 h115 hwas hnew =>
        congrArg Host.Outcome.next (effThermal_critical hdue hinj ht hu hwarm h105 h115 hwas hnew),
      fun hwarm h115 hwas hcrit hnew =>
        congrArg Host.Outcome.next (effThermal_trip hdue hinj ht hu hwarm h115 hwas hcrit hnew)⟩
  case dip => exact fun hlo hhi => congrArg Host.Outcome.next (if_pos ⟨hlo, hhi⟩)
  case recover =>
    intro hgood hlong
    have hsteady := State.steady_of_le hlong
    refine ⟨congrArg Host.Outcome.next (if_pos ⟨hgood, hsteady⟩), ?_⟩
    rintro hbrown _ rfl
    exact congrArg Host.Outcome.next (if_pos ⟨hgood, hsteady, hbrown⟩)
  case brownout => exact fun hlow u v hu hv => congrArg Host.Outcome.next (effBrownout_below hlow hu hv)
  case memlost => exact fun hlow => congrArg Host.Outcome.next (if_neg (Nat.not_le.mpr hlow))
  case standby =>
    intro _
    refine ⟨_, rfl, fun k => ?_⟩
    simp only [Sparse.get_restrict, Bool.and_eq_true, decide_eq_true_eq]
  case early => exact fun readings h => congrArg Host.Outcome.next (effAgeRead_early _ h)
  case read =>
    intro readings u v vs hup hdue hu hread hoff
    have hmap (i : Nat) : (readings.map (fun x => x.map BitVec.toInt)).getD i none = (readings.getD i none).map BitVec.toInt :=
      List.getD_map readings none (fun x : Option (BitVec 16) => x.map BitVec.toInt)
    refine congrArg Host.Outcome.next (effAgeRead_plannerOff hup hdue hu ?_ hoff)
    simp only [hmap]
    exact hread

end Sys2Proof.Machine
end

section
/-! The phases of boot and recovery (R628, R633–R650, R712). -/

namespace Sys2Proof.Machine

/-! ### A phase that is not the next (R641) -/

section
variable {s : State}

theorem effBootRom_notNext (pufDiff : Nat) (replayOk : Bool) (h : s.phaseReady 1 = false) :
    effBootRom pufDiff replayOk s = s := if_pos h

theorem effBootFirmware_notNext (failed : Bool) (h : s.phaseReady 2 = false) : effBootFirmware failed s = s := if_pos h

theorem effBootRecords_notNext (failed : Bool) (h : s.phaseReady 3 = false) : effBootRecords failed s = s := if_pos h

theorem effBootIsland_notNext (failed : Bool) (h : s.phaseReady 4 = false) : effBootIsland failed s = s := if_pos h

theorem effBootMainPower_notNext (h : s.phaseReady 5 = false ∨ s.flag kPSTAT 0 = false) : effBootMainPower s = s := if_pos h

theorem effBootImage_notNext (failed : Bool) (h : s.phaseReady 7 = false) : effBootImage failed s = s := if_pos h

theorem effBootSelftest_notNext (parts : List FailedPart) (h : s.phaseReady 8 = false) : effBootSelftest parts s = s :=
  if_pos h

end

/-! ### ROM (R628, R638, R650) -/

/-- The state in which a cold boot has been counted and the replay area read. -/
def State.coldBooted (s : State) (replayOk : Bool) : State :=
  ((s.setBoot { s.boot with cold := s.boot.cold + 1 }).wr kBOOTCNT
    (BitVec.ofNat 32 (s.setBoot { s.boot with cold := s.boot.cold + 1 }).boot.cold)).readReplay replayOk

/-- A new nonce is drawn. -/
def State.nonceDrawn (s : State) : State :=
  (List.range 8).foldl (fun (s : State) i => s.draw.2.wr (kDBGNONCE i) (Config.freeWord s.draw.1)) s

/-- The device's identity and debug state are shown. -/
def State.identityShown (s : State) : State :=
  ((s.setDigest (kDEVID 0) devId).setFlag kBOOTSTAT 14 (s.setDigest (kDEVID 0) devId).boot.token.isSome).setFlag
    kBOOTSTAT 15 (!(s.setDigest (kDEVID 0) devId).boot.token.isSome)

section
variable {s v w : State} {pufDiff : Nat} {replayOk : Bool} (hready : s.phaseReady 1 = true) (hv : v = s.coldBooted replayOk)
  (hreplay : v.flag (kESTAT rSEC) 16 = false) (hw : w = v.nonceDrawn)
include hready hv hreplay hw

/-- A PUF that is too far off, or an erased device, fails the boot. -/
theorem effBootRom_fails (h : 1536 < pufDiff ∨ w.boot.erased = true) :
    effBootRom pufDiff replayOk s = (w.phaseDone 1).bootFail 6 := by
  unfold State.coldBooted at hv
  unfold State.nonceDrawn at hw
  unfold effBootRom
  simp only [hready, ← hv, hreplay, ← hw, h, Bool.true_eq_false, Bool.false_and, Bool.false_eq_true, ↓reduceIte]

/-- A PUF within its tolerance shows the identity and takes the token. -/
theorem effBootRom_passes {x : State} (hpuf : pufDiff ≤ 768) (herased : w.boot.erased = false) (hx : x = w.identityShown) :
    effBootRom pufDiff replayOk s =
      (x.setBoot { x.boot with token := none, erased := x.boot.token == some 2 }).phaseDone 1 := by
  have h1536 : ¬1536 < pufDiff := by omega
  have h768 : ¬768 < pufDiff := by omega
  unfold State.coldBooted at hv
  unfold State.nonceDrawn at hw
  unfold State.identityShown at hx
  unfold effBootRom
  simp only [hready, ← hv, hreplay, ← hw, h1536, h768, herased, ← hx, Bool.true_eq_false, Bool.false_and, Bool.false_eq_true,
    or_self, ↓reduceIte]

end

/-! ### Firmware and recovery (R642, R712) -/

section
variable {s u : State}

/-- The chosen firmware image runs. -/
theorem effBootFirmware_runs {failed : Bool} {slot : Nat} {r : Rec} (hready : s.phaseReady 2 = true)
    (hchosen : s.chooseSlot 0 0x00800000 0x00800000 1 failed = (some (slot, r), u)) :
    effBootFirmware failed s = u.runFirmware slot r := by
  unfold effBootFirmware
  simp only [hready, hchosen, Bool.true_eq_false, ↓reduceIte]

/-- Without an image the recovery port waits, the main domains held. -/
theorem effBootFirmware_waits {failed : Bool} {v : State} (hready : s.phaseReady 2 = true)
    (hnone : s.chooseSlot 0 0x00800000 0x00800000 1 failed = (none, u)) (hfail : u.fld kBOOTSTAT 13 10 ≠ 0)
    (hv : v = (u.raise rSEC 17 { detail := 1 }).holdMain) :
    effBootFirmware failed s =
      { v with boot := { v.boot with recovery := true }, watch := { v.watch with halt := true } } := by
  unfold effBootFirmware
  simp only [hready, hnone, hfail, ← hv, Bool.true_eq_false, ↓reduceIte]

/-- A frame of recovery goes to flash. -/
theorem effRecoveryFrame_writes {off : Nat} {data : List Byte} (hrecovery : s.boot.recovery = true)
    (hlength : data.length = 256) (hroom : off + 256 ≤ 0x00800000) :
    effRecoveryFrame off data s = s.flashWrite off data := by
  unfold effRecoveryFrame
  simp only [hrecovery, hlength, hroom, beq_self_eq_true, decide_true, Bool.and_self, ↓reduceIte]

theorem effRecoveryFrame_ignored (off : Nat) (data : List Byte) (hrecovery : s.boot.recovery = false) :
    effRecoveryFrame off data s = s := by
  unfold effRecoveryFrame
  simp only [hrecovery, Bool.false_and, Bool.false_eq_true, ↓reduceIte]

/-- Without a valid image the port waits on. -/
theorem effRecoveryDone_waits (hrecovery : s.boot.recovery = true) (hnone : s.validRec 0 0x00800000 1 = (none, u)) :
    effRecoveryDone s = u := by
  unfold effRecoveryDone
  simp only [hrecovery, hnone, Bool.true_eq_false, ↓reduceIte]

/-- A valid image that recovery brought runs. -/
theorem effRecoveryDone_runs {r : Rec} (hrecovery : s.boot.recovery = true)
    (hvalid : s.validRec 0 0x00800000 1 = (some r, u)) :
    effRecoveryDone s =
      (State.setFld { u with boot := { u.boot with recovery := false }, watch := { u.watch with halt := false } }
        kBOOTSTAT 13 10 0).runFirmware 0 r := by
  unfold effRecoveryDone
  simp only [hrecovery, hvalid, Bool.true_eq_false, ↓reduceIte]

end

/-! ### Records and Island (R632, R641) -/

/-- Writing a digest leaves what boot keeps. -/
theorem State.setDigest_boot (s : State) (k : Nat) (d : List Byte) : (s.setDigest k d).boot = s.boot := by
  have hfold : ∀ (l : List Nat) (t : State),
      (l.foldl (fun s i => s.wr (k + 4 * i) (BitVec.ofNat 32 (beNat ((d.drop (4 * i)).take 4)))) t).boot = t.boot := by
    intro l
    induction l with
    | nil => exact fun _ => rfl
    | cons i rest ih => exact fun t => ih _
  exact hfold _ s

/-- A measurement leaves what boot keeps. -/
theorem State.extend_boot (s : State) (i : Nat) (d : List Byte) : (s.extend i d).boot = s.boot := State.setDigest_boot s _ _

/-- The Provisioning Record is measured, and its customer key and debug policy are kept. -/
def State.provisioned (u : State) (p : Rec) : State :=
  (u.extend 1 (sha256 p.image)).setBoot { (u.extend 1 (sha256 p.image)).boot with
    custHash := p.body.take 32, debug := bitsOf (p.b 0x40 4) 1 0 }

section
variable {s u : State} {failed : Bool}

/-- Without a valid Provisioning Record the boot fails. -/
theorem effBootRecords_noProvisioning (hready : s.phaseReady 3 = true)
    (hnone : s.validRec 0x01000000 0x10000 2 = (none, u)) : effBootRecords failed s = u.bootFail 2 := by
  unfold effBootRecords
  simp only [hready, hnone, Bool.true_eq_false, ↓reduceIte]

/-- The one valid Boot Configuration Record is applied, unless it failed while it was read. -/
theorem effBootRecords_oneConfig {p a : Rec} {w x : State} (hready : s.phaseReady 3 = true)
    (hprov : s.validRec 0x01000000 0x10000 2 = (some p, u)) (hprovOk : provisionOk p = true)
    (hfirst : (u.provisioned p).validRec 0x01010000 0x20000 3 = (some a, w)) (hconfig : configOk a = true)
    (hsecond : w.validRec 0x01030000 0x20000 3 = (none, x)) :
    effBootRecords failed s =
      if failed = true then x.bootFail 3
      else (((((x.extend 2 (sha256 a.image)).setSlot 1 0).applyConfig a).nowRunning a).measureDebug.phaseDone 3) := by
  unfold State.provisioned at hfirst
  rw [State.extend_boot] at hfirst
  unfold effBootRecords
  simp only [hready, hprov, hprovOk, hfirst, hconfig, hsecond, Option.isSome_none, Bool.and_false, Bool.true_eq_false,
    Bool.false_eq_true, ↓reduceIte]
  cases failed <;> rfl

/-- Without a valid Drive Image the boot fails. -/
theorem effBootIsland_noImage (hready : s.phaseReady 4 = true)
    (hnone : s.chooseSlot 0x01200000 0x01400000 0x00200000 4 failed = (none, u)) :
    effBootIsland failed s = u.bootFail 4 := by
  unfold effBootIsland
  simp only [hready, hnone, Bool.true_eq_false, ↓reduceIte]

/-- The chosen Drive Image is measured and loaded. -/
theorem effBootIsland_loads {slot : Nat} {r : Rec} (hready : s.phaseReady 4 = true)
    (hchosen : s.chooseSlot 0x01200000 0x01400000 0x00200000 4 failed = (some (slot, r), u)) :
    effBootIsland failed s =
      ((((u.extend 3 (sha256 (r.image.take 0x10000))).setSlot 2 slot).nowRunning r).loadDrive r).phaseDone 4 := by
  unfold effBootIsland
  simp only [hready, hchosen, Bool.true_eq_false, ↓reduceIte]

/-! ### Main power, Image and Self-test (R633, R634, R637) -/

/-- With the supply good and no Ageing Record the rails take the voltages of the configuration. -/
theorem effBootMainPower_noAgeing {vs : List Nat} (hready : s.phaseReady 5 = true) (hgood : s.flag kPSTAT 0 = true)
    (hnone : s.chooseCopy 0x01070000 0x01090000 0x20000 7 = (none, u)) (hvs : vs = (List.range 5).map (u.bootVolts none)) :
    effBootMainPower s = ((((List.range 5).foldl (fun (s : State) r => s.setRail r (vs.getD r 0))
      (u.setBoot { u.boot with rails := vs })).setFlag kPSTAT 2 false).releaseMain).phaseDone 5 := by
  subst hvs
  unfold effBootMainPower
  simp only [hready, hgood, hnone, Option.map_none, Bool.true_eq_false, or_self, ↓reduceIte]

section
variable (hready : s.phaseReady 7 = true) (hmain : s.boot.mainOnly = false)
include hready hmain

/-- Without a valid application image the boot fails. -/
theorem effBootImage_noImage (hnone : s.chooseSlot 0x01600000 0x07600000 0x06000000 5 failed = (none, u)) :
    effBootImage failed s = u.bootFail 5 := by
  unfold effBootImage
  simp only [hready, hmain, hnone, Bool.true_eq_false, Bool.false_eq_true, ↓reduceIte]

/-- The chosen application image is copied, measured and hashed. -/
theorem effBootImage_copies {slot : Nat} {r : Rec} {v : State}
    (hchosen : s.chooseSlot 0x01600000 0x07600000 0x06000000 5 failed = (some (slot, r), u))
    (hv : v = (writeRun (fun s i b => s.writeKey (lpKey (Config.imageBase + i)) b)
      (u.heal ((List.range r.image.length).map (fun i => lpKey (Config.imageBase + i)))) 0 r.image).1) :
    effBootImage failed s =
      (((((v.setBoot { v.boot with imageLen := r.image.length }).extend 4 (sha256 (r.image.take 0x10000))).setSlot 3 slot).setRstHash
        (sha256 r.image)).nowRunning r).phaseDone 7 := by
  unfold effBootImage
  simp only [hready, hmain, hchosen, ← hv, Bool.true_eq_false, Bool.false_eq_true, ↓reduceIte]

end

/-- Every set of parts is tested and bound, nothing being retired before. -/
def State.partsTested (v : State) (parts : List FailedPart) : State :=
  (((bootSets.foldl (fun s S => S.selfTest parts [] s) v).selfTestCores parts []).selfTestRows parts []).selfTestPcs parts []

/-- With neither an Ageing nor a Repair Record, a first Repair Record is written and measured. -/
theorem effBootSelftest_first {v w : State} {parts : List FailedPart} (hready : s.phaseReady 8 = true)
    (hageing : s.chooseCopy 0x01070000 0x01090000 0x20000 7 = (none, u))
    (hrepair : u.chooseCopy 0x01050000 0x01060000 0x10000 6 = (none, v)) (hw : w = v.partsTested parts) :
    effBootSelftest parts s = ((w.flashWrite 0x01050000 (deviceRecord 6 1 w.repairBody)).extend 5
      (sha256 (deviceRecord 6 1 w.repairBody))).phaseDone 8 := by
  have hseq : 1 % 2 ^ 32 = 1 := by decide
  unfold State.partsTested at hw
  unfold effBootSelftest
  simp only [hready, hageing, hrepair, ← hw, hseq, Bool.true_eq_false, ↓reduceIte]

end

/-! ### DONE (R641) -/

/-- A permitted write of DONE. -/
theorem bootDone_effect {s : State} {i : Initiator} (h : s.Reaches i (rk rSEC 1 0x104) (wordOf 1)) :
    exec (.bootDone i) s = .next ((effBootCmd (wordOf 1) (s.touch (regionPd rSEC))).respond .ok) :=
  congrArg Host.Outcome.next (State.regWrite_block (by decide) (by decide) (by decide) (by decide) h)

section
variable {u : State}

theorem effBootCmd_notNext (h : u.phaseReady 10 = false) : effBootCmd (wordOf 1) u = u := if_pos (.inr h)

/-- The boot's last phase has ended. -/
def State.bootEnded (u : State) : State :=
  ((u.phaseDone 10).setFld kBOOTSTAT 3 0 0xF).setBoot
    { ((u.phaseDone 10).setFld kBOOTSTAT 3 0 0xF).boot with mainOnly := false }

/-- DONE ends the boot, or hands a restart whose memory was lost back to its sequencer. -/
theorem effBootCmd_ends {v : State} (hready : u.phaseReady 10 = true) (hv : v = u.bootEnded) :
    effBootCmd (wordOf 1) u =
      if v.safe = ssRESTARTING then (v.setWatch { v.watch with seq := 5, bootEnded := true }).setPhase 6
      else ((v.enterSafe (if v.watch.latched then ssDEGRADED else ssNORMAL)).planTimer true).planRestart := by
  have hdone : flagOf (wordOf 1) 0 = true := by decide
  unfold State.bootEnded at hv
  unfold effBootCmd
  simp only [hdone, hready, ← hv, Bool.true_eq_false, or_self, ↓reduceIte]

end

/-- Settles O45: each phase when it is not the next, and what each does when it is; recovery's frames and its end. -/
theorem bootPhases : Obligations.BootPhases := by
  intro s failed parts
  refine ⟨fun pufDiff replayOk h => congrArg Host.Outcome.next (effBootRom_notNext pufDiff replayOk h),
    fun h => congrArg Host.Outcome.next (effBootFirmware_notNext failed h),
    fun h => congrArg Host.Outcome.next (effBootRecords_notNext failed h),
    fun h => congrArg Host.Outcome.next (effBootIsland_notNext failed h),
    fun h => congrArg Host.Outcome.next (effBootImage_notNext failed h),
    fun h => congrArg Host.Outcome.next (effBootSelftest_notNext parts h), ?rom, ?firmware, ?records, ?island,
    fun h => congrArg Host.Outcome.next (effBootMainPower_notNext h), ?power, rfl, ?image, ?selftest, rfl, ?done, ?frame,
    ?recovered⟩
  case rom =>
    rintro pufDiff replayOk _ v w hready rfl hv hreplay hw
    exact ⟨fun hfail => congrArg Host.Outcome.next (effBootRom_fails hready hv hreplay hw hfail),
      fun hpuf herased x hx => congrArg Host.Outcome.next (effBootRom_passes hready hv hreplay hw hpuf herased hx)⟩
  case firmware =>
    exact fun slot r u hready => ⟨fun hchosen => congrArg Host.Outcome.next (effBootFirmware_runs hready hchosen),
      fun hnone hfail v hv => congrArg Host.Outcome.next (effBootFirmware_waits hready hnone hfail hv)⟩
  case records =>
    intro hready u
    refine ⟨fun hnone => congrArg Host.Outcome.next (effBootRecords_noProvisioning hready hnone), ?_⟩
    rintro p a _ w x hprov hprovOk rfl hfirst hconfig hsecond
    have hrecords := effBootRecords_oneConfig (failed := failed) hready hprov hprovOk hfirst hconfig hsecond
    exact ⟨fun hread => congrArg Host.Outcome.next (hrecords.trans (if_neg (ne_true_of_eq_false hread))),
      fun hfailed => congrArg Host.Outcome.next (hrecords.trans (if_pos hfailed))⟩
  case island =>
    exact fun hready slot r u => ⟨fun hnone => congrArg Host.Outcome.next (effBootIsland_noImage hready hnone),
      fun hchosen => congrArg Host.Outcome.next (effBootIsland_loads hready hchosen)⟩
  case power =>
    exact fun hready hgood u vs hnone hvs => congrArg Host.Outcome.next (effBootMainPower_noAgeing hready hgood hnone hvs)
  case image =>
    exact fun hready hmain slot r u v => ⟨fun hnone => congrArg Host.Outcome.next (effBootImage_noImage hready hmain hnone),
      fun hchosen hv => congrArg Host.Outcome.next (effBootImage_copies hready hmain hchosen hv)⟩
  case selftest =>
    rintro hready u v w _ hageing hrepair hw rfl
    exact congrArg Host.Outcome.next (effBootSelftest_first hready hageing hrepair hw)
  case done =>
    intro i u v h hu
    rw [bootDone_effect h, ← hu]
    refine ⟨fun hnot => by rw [effBootCmd_notNext hnot], fun hready hv => ?_⟩
    rw [effBootCmd_ends hready hv]
    exact ⟨fun hsafe => by rw [if_neg hsafe], fun hsafe => by rw [if_pos hsafe]⟩
  case frame =>
    exact fun off data => ⟨fun hrecovery hlength hroom =>
        congrArg Host.Outcome.next (effRecoveryFrame_writes hrecovery hlength hroom),
      fun hrecovery => congrArg Host.Outcome.next (effRecoveryFrame_ignored _ data hrecovery)⟩
  case recovered =>
    exact fun r u hrecovery => ⟨fun hnone => congrArg Host.Outcome.next (effRecoveryDone_waits hrecovery hnone),
      fun hvalid => congrArg Host.Outcome.next (effRecoveryDone_runs hrecovery hvalid)⟩

end Sys2Proof.Machine
end

section
/-! The security engine: quotes, extends, anti-rollback commits and debug tokens (R640, R646–R649). -/

namespace Sys2Proof.Machine

/-! ### QUOTE (R647, R648) -/

section
variable {s u : State} {q : Nat} {o : Op} (hnext : s.secNext q 1 = some o) (hu : u = s.start rSEC q o)
include hnext hu

theorem effQuote_badFormat (hbad : o.addr 0x30 % 256 ≠ 0 ∨ o.fld 0x38 31 8 ≠ 0 ∨ o.word 15 ≠ 0#32) :
    effQuote q s = u.finish rSEC q o.index stREJ_FORMAT := by
  unfold effQuote
  simp only [hnext, ← hu]
  exact if_pos hbad

section
variable (haligned : o.addr 0x30 % 256 = 0) (hmask : o.fld 0x38 31 8 = 0) (hzero : o.word 15 = 0#32)
  (hinj : u.injArmed rSEC 2 = false)
include haligned hmask hzero hinj

/-- After a debug token, or without a closed module, a quote is refused and counted. -/
theorem effQuote_refused (hopen : u.flag kBOOTSTAT 14 = true ∨ u.flag kBOOTSTAT 15 = false) :
    effQuote q s = (u.count rSEC 6).conclude rSEC q o.index stREJ_LIMIT := by
  have hlimit : (u.flag kBOOTSTAT 14 || !u.flag kBOOTSTAT 15) = true := by
    obtain htoken | hclosed := hopen
    · rw [htoken, Bool.true_or]
    · rw [hclosed, Bool.not_false, Bool.or_true]
  unfold effQuote
  simp only [hnext, ← hu, haligned, hmask, hzero, hinj, hlimit, ne_eq, not_true_eq_false, or_self, Bool.false_eq_true,
    Bool.false_or, ↓reduceIte]

/-- Otherwise the message and its signature are written. -/
theorem effQuote_writes {w : State} (htoken : u.flag kBOOTSTAT 14 = false) (hclosed : u.flag kBOOTSTAT 15 = true)
    (hwritten : u.txWrite (u.queueItag rSEC q) (o.addr 0x30) (u.quoteBytes o ++ signature (u.quoteBytes o)) = (.ok (), w)) :
    effQuote q s = w.conclude rSEC q o.index stDONE := by
  unfold effQuote
  simp only [hnext, ← hu, haligned, hmask, hzero, hinj, htoken, hclosed, hwritten, ne_eq, not_true_eq_false, or_self,
    Bool.not_true, Bool.or_self, Bool.false_eq_true, ↓reduceIte]

end

end

/-! ### EXTEND (R646) -/

section
variable {s u : State} {q : Nat} {o : Op} (hnext : s.secNext q 2 = some o) (hu : u = s.start rSEC q o)
include hnext hu

/-- Only MEAS6 and MEAS7 may be extended. -/
theorem effExtend_refused (hreg : o.fld 0x10 2 0 < 6) : effExtend q s = u.finish rSEC q o.index stREJ_FORMAT := by
  unfold effExtend
  simp only [hnext, ← hu, hreg, true_or, ↓reduceIte]

/-- A well-formed EXTEND hashes what it reads into the measurement. -/
theorem effExtend_extends {d : List Byte} {w : State} (hreg : 6 ≤ o.fld 0x10 2 0) (hrest : o.fld 0x10 31 3 = 0)
    (hword : o.word 5 = 0#32) (hwords : ∀ j, j < 8 → o.word (8 + j) = 0#32)
    (hread : u.txRead (u.queueItag rSEC q) (o.addr 0x18) 32 (some (rSEC, q, o.index)) = (.ok d, w)) :
    effExtend q s = (w.extend (o.fld 0x10 2 0) d).conclude rSEC q o.index stDONE := by
  have hzero : (List.range 8).all (fun j => o.word (8 + j) == 0#32) = true :=
    List.all_eq_true.mpr fun j hj => beq_iff_eq.mpr (hwords j (List.mem_range.mp hj))
  unfold effExtend
  simp only [hnext, ← hu, hrest, hword, hzero, hread, Nat.not_lt.mpr hreg, beq_self_eq_true, Bool.and_self,
    Bool.true_eq_false, or_self, ↓reduceIte]

end

/-! ### Anti-rollback commits (R640) -/

/-- A permitted commit of a counter. -/
theorem State.regWrite_svnCmd {s : State} {i : Initiator} {ctr : Nat} (h : s.Reaches i kSVNCMD (wordOf ctr)) :
    s.regWrite i kSVNCMD (wordOf ctr) = (effSvnCmd (wordOf ctr) i.itag (s.touch (regionPd rSEC))).respond .ok :=
  State.regWrite_block (by decide) (by decide) (by decide) (by decide) h

section
variable {s w : State} {ctr : Nat} (t : Itag) (hctr : ctr < 16) (hw : w = (s.setFld kSVNCMD 3 0 ctr).readReplay true)
include hctr hw

/-- A counter that no running image has is not committed. -/
theorem effSvnCmd_notRunning (hnone : Sparse.get (fun _ => none) w.boot.running ctr = none) :
    effSvnCmd (wordOf ctr) t s = w.cfgErr rSEC t := by
  have hfld : fieldOf (wordOf ctr) 3 0 = ctr := by
    rw [fieldOf_wordOf (by omega)]
    omega
  unfold effSvnCmd
  simp only [hfld, ← hw, hnone]

/-- A counter takes the version that runs, unless that is lower than its own. -/
theorem effSvnCmd_running {svn : Nat} (hsvn : Sparse.get (fun _ => none) w.boot.running ctr = some svn) :
    effSvnCmd (wordOf ctr) t s =
      if svn < (w.rd (kSVNCTR ctr)).toNat then w.cfgErr rSEC t
      else (w.setBoot { w.boot with svn := Sparse.set (fun _ => 0) w.boot.svn ctr svn }).wr (kSVNCTR ctr)
        (BitVec.ofNat 32 svn) := by
  have hfld : fieldOf (wordOf ctr) 3 0 = ctr := by
    rw [fieldOf_wordOf (by omega)]
    omega
  unfold effSvnCmd
  simp only [hfld, ← hw, hsvn]

end

/-! ### Debug tokens (R649) -/

/-- A permitted ACCEPT decides on the token in SEC's buffer. -/
theorem State.regWrite_dbgAccept {s : State} {i : Initiator} {w : State} {ok : Bool}
    (h : s.Reaches i (rk rSEC 1 0x160) (wordOf 1)) (hok : (s.touch (regionPd rSEC)).tokenOk = (ok, w)) :
    s.regWrite i (rk rSEC 1 0x160) (wordOf 1) =
      State.respond (if ok then w.setBoot { w.boot with token := some w.boot.debug } else w) .ok := by
  have haccept : flagOf (wordOf 1) 0 = true := by decide
  refine (State.regWrite_block (by decide) (by decide) (by decide) (by decide) h).trans (congrArg (State.respond · .ok) ?_)
  change effDbgCmd (wordOf 1) (s.touch (regionPd rSEC)) = _
  unfold effDbgCmd
  simp only [haccept, hok, ↓reduceIte]

/-- Settles O46: quotes, extends, the commit of an anti-rollback counter and the acceptance of a token, each by its cases. -/
theorem securityEngine : Obligations.SecurityEngine := by
  intro s q o u hu
  refine ⟨?quote, ?extend, ?commit, ?token⟩
  case quote =>
    refine fun hnext => ⟨fun hbad => congrArg Host.Outcome.next (effQuote_badFormat hnext hu hbad), ?_⟩
    exact fun haligned hmask hzero hinj =>
      ⟨fun hopen => congrArg Host.Outcome.next (effQuote_refused hnext hu haligned hmask hzero hinj hopen),
        fun w htoken hclosed hwritten => congrArg Host.Outcome.next
          (effQuote_writes hnext hu haligned hmask hzero hinj htoken hclosed hwritten)⟩
  case extend =>
    exact fun hnext => ⟨fun hreg => congrArg Host.Outcome.next (effExtend_refused hnext hu hreg),
      fun d w hreg hrest hword hwords hread =>
        congrArg Host.Outcome.next (effExtend_extends hnext hu hreg hrest hword hwords hread)⟩
  case commit =>
    intro i ctr w h hw
    have hwrite := State.regWrite_svnCmd h
    refine ⟨fun hnone => ?_, fun svn hsvn => ?_⟩
    · rw [effSvnCmd_notRunning _ ctr.isLt hw hnone] at hwrite
      exact congrArg Host.Outcome.next hwrite
    · rw [effSvnCmd_running _ ctr.isLt hw hsvn] at hwrite
      exact ⟨fun hlower => congrArg Host.Outcome.next (hwrite.trans (congrArg (State.respond · .ok) (if_pos hlower))),
        fun hreached => congrArg Host.Outcome.next
          (hwrite.trans (congrArg (State.respond · .ok) (if_neg (Nat.not_lt.mpr hreached))))⟩
  case token =>
    rintro i token t w ok rfl h hok
    have hwrite := State.regWrite_dbgAccept h hok
    exact ⟨fun htrue => congrArg Host.Outcome.next (hwrite.trans (congrArg (State.respond · .ok) (if_pos htrue))),
      fun hfalse => congrArg Host.Outcome.next
        (hwrite.trans (congrArg (State.respond · .ok) (if_neg (ne_true_of_eq_false hfalse))))⟩

end Sys2Proof.Machine
end

section
/-! Cameras, Ethernet frames and gate lists (R655–R663, R676). -/

namespace Sys2Proof.Machine

/-! ### Cameras (R655–R659) -/

/-- A channel that has no open frame ends none. -/
theorem State.endFrame_none {s : State} {p vc : Nat} (nofe : Bool) (h : s.camFrame (16 * p + vc) = none) :
    s.endFrame p vc nofe = s := by
  unfold State.endFrame
  simp only [h]

/-- Without an armed injection a header is usable when one of its copies is. -/
theorem State.header_of_not_armed {s : State} {p : Nat} {h1 h2 : Bool} (h : s.injArmed rCSI 1 = false) :
    s.header p h1 h2 = (h1 || h2, !h1 && h2, s) := by
  unfold State.header
  simp only [h, Bool.false_and, Bool.false_eq_true, ↓reduceIte]

/-- A counter moves no frame. -/
theorem State.camFrame_count (s : State) (r k n c : Nat) : (s.count r k n).camFrame c = s.camFrame c := rfl

theorem header_usable {h1 h2 : Bool} (h : h1 = true ∨ h2 = true) : (h1 || h2) = true := Bool.or_eq_true_iff.mpr h

section
variable {s u : State} {p vc c : Nat} {h1 h2 : Bool} (hon : s.csiOn p vc = true) (hu : u = s.demandPd 31)
  (hc : c = 16 * p + vc) (hinj : u.injArmed rCSI 1 = false)

include hon hu hinj in
/-- A Frame Start whose header copies are both bad is counted. -/
theorem effFrameStart_badHeader (fnum : Nat) : effFrameStart p vc fnum false false s = u.count rCSI 1 := by
  unfold effFrameStart
  simp only [hon, ← hu, State.header_of_not_armed hinj, Bool.or_self, Bool.true_eq_false, ↓reduceIte]

include hon hu hc hinj in
/-- A Frame Start opens a frame, one to drop where the ring is full. -/
theorem effFrameStart_opens (fnum : Nat) (husable : h1 = true ∨ h2 = true) (hnone : u.camFrame c = none) :
    effFrameStart p vc fnum h1 h2 s =
      if u.ringFull (kCsiVc c) then (u.count rCSI 2).setCam c (some { fnum := fnum, tfs := u.now, dropped := true })
      else u.setCam c (some { fnum := fnum, tfs := u.now, hdrFix := !h1 && h2 }) := by
  subst hc
  unfold effFrameStart
  simp only [hon, ← hu, State.header_of_not_armed hinj, header_usable husable, State.endFrame_none true hnone,
    Bool.true_eq_false, ↓reduceIte]

section
variable {dt : Nat} {f : CamFrame} (hinj0 : u.injArmed rCSI 0 = false) (husable : h1 = true ∨ h2 = true)

include hon hu hc hinj hinj0 husable

/-- A packet of another type than the channel receives is counted. -/
theorem effLongPacket_otherType (ok : Bool) (data : List Byte) (hdt : dt ≠ fieldOf (u.rd (kCsiVc c)) 6 1)
    (hemb : dt ≠ 0x12 ∨ flagOf (u.rd (kCsiVc c)) 7 = false) : effLongPacket p vc dt h1 h2 ok data s = u.count rCSI 3 := by
  have hnotEmb : (dt == 0x12 && flagOf (u.rd (kCsiVc c)) 7) = false := by
    obtain hother | hflag := hemb
    · rw [beq_false_of_ne hother, Bool.false_and]
    · rw [hflag, Bool.and_false]
  subst hc
  unfold effLongPacket
  simp only [hon, ← hu, State.header_of_not_armed hinj, hinj0, header_usable husable, beq_false_of_ne hdt, hnotEmb,
    Bool.false_and, Bool.or_self, Bool.false_eq_true, Bool.true_eq_false, ↓reduceIte]

section
variable (data : List Byte) (hf : u.camFrame c = some f) (hdt : dt = fieldOf (u.rd (kCsiVc c)) 6 1) (hpix : dt ≠ 0x12)
include hf hdt hpix

/-- A line whose checksum is right joins the frame. -/
theorem effLongPacket_joins : effLongPacket p vc dt h1 h2 true data s =
    u.setCam c (some { f with hdrFix := f.hdrFix || (!h1 && h2), pix := data :: f.pix }) := by
  subst hc
  unfold effLongPacket
  simp only [hon, ← hu, State.header_of_not_armed hinj, hinj0, header_usable husable, ← hdt, beq_self_eq_true,
    beq_false_of_ne hpix, hf, Bool.false_and, Bool.or_false, Bool.not_true, Bool.false_eq_true, Bool.true_eq_false, ↓reduceIte]

/-- A line whose checksum is wrong joins it marked, and is counted. -/
theorem effLongPacket_badCrc : effLongPacket p vc dt h1 h2 false data s =
    (u.count rCSI 0).setCam c (some { f with
      crcErr := true, hdrFix := f.hdrFix || (!h1 && h2), pix := data :: f.pix }) := by
  subst hc
  unfold effLongPacket
  simp only [hon, ← hu, State.header_of_not_armed hinj, hinj0, header_usable husable, ← hdt, beq_self_eq_true,
    beq_false_of_ne hpix, State.camFrame_count, hf, Bool.false_and, Bool.or_false, Bool.not_false, Bool.or_true,
    Bool.false_eq_true, Bool.true_eq_false, ↓reduceIte]

end

end

include hon hu hc hinj in
/-- A Frame End ends the channel's frame. -/
theorem effCamFrameEnd_ends {f : CamFrame} (husable : h1 = true ∨ h2 = true) (hf : u.camFrame c = some f) :
    effCamFrameEnd p vc h1 h2 s =
      (u.setCam c (some { f with hdrFix := f.hdrFix || (!h1 && h2) })).endFrame p vc false := by
  subst hc
  unfold effCamFrameEnd
  simp only [hon, ← hu, State.header_of_not_armed hinj, header_usable husable, hf, Bool.true_eq_false, ↓reduceIte]

end

theorem effCphyLoss_counted {s : State} (h : s.pdDown 31 = false) : effCphyLoss s = s.count rCSI 4 :=
  if_neg (ne_true_of_eq_false h)

/-! ### Ethernet reception (R661) -/

section
variable {s u : State} {m : Nat} {data : List Byte} (dur : Nat) (hon : s.macOn m = true) (hlen : data.length ≤ 9216)
  (hu : u = s.demandPd 31) (hinj : u.injArmed rETH 0 = false)
include hon hlen hu hinj

/-- A frame whose check sequence is wrong is counted. -/
theorem effEthRx_badFcs : effEthRx m data false dur s = u.count rETH 0 := by
  unfold effEthRx
  simp only [hon, Nat.not_lt.mpr hlen, ← hu, hinj, Bool.true_eq_false, or_self, Bool.false_and, Bool.not_false, Bool.or_true,
    Bool.false_eq_true, ↓reduceIte]

section
variable {f k ring : Nat} (hf : u.flowFilter m data = some f)
  (hring : ring = 8 * m + (Config.filterRing (u.filterWords m f)).toNat) (hk : k = kEthRing ring)
include hf hring hk

/-- A frame for a full ring is counted. -/
theorem effEthRx_ringFull (hfull : u.ringFull k = true) : effEthRx m data true dur s = u.count rETH 1 := by
  unfold effEthRx
  simp only [hon, Nat.not_lt.mpr hlen, ← hu, hinj, hf, ← hring, ← hk, hfull, Bool.true_eq_false, or_self, Bool.false_and,
    Bool.not_true, Bool.or_self, Bool.false_eq_true, ↓reduceIte]

/-- A frame for a ring with room is written to it, and takes one of its places where the write is not refused. -/
theorem effEthRx_written {size : Nat} {ok : Bool} {w : State} (hroom : u.ringFull k = false)
    (hsize : size = u.fld (k + 0x08) 27 0)
    (hwrite : State.ringWrite { u with free := u.free + 2 } (ethItag m) k (Sparse.get (fun _ => 0) u.eth.count ring)
      (data.take size)
      ⟨f, if size < data.length then 9 else 0, (Config.freeWord (u.free + 1)).toNat, u.now - dur, u.now,
        (data.take size).length⟩ = (ok, w)) :
    effEthRx m data true dur s = if ok then w.setEth { w.eth with
      count := Sparse.set (fun _ => 0) w.eth.count ring (Sparse.get (fun _ => 0) u.eth.count ring + 1) } else w := by
  have hfld : State.fld { u with free := u.free + 2 } (k + 0x08) 27 0 = size := hsize.symm
  unfold effEthRx State.draw
  simp only [hon, Nat.not_lt.mpr hlen, ← hu, hinj, hf, ← hring, ← hk, hroom, hfld, decide_eq_true_eq, hwrite,
    Bool.true_eq_false, or_self, Bool.false_and, Bool.not_true, Bool.false_eq_true, ↓reduceIte]
  cases ok <;> rfl

end

end

/-! ### Ethernet transmission (R662) -/

/-- A search over the classes finds what the one class that has a frame gives. -/
theorem findSome?_single_class {α : Type} {c : Nat} (g : Nat → Option α) (hc : c < 8) (hg : ∀ d, d ≠ c → g d = none) :
    [7, 6, 5, 4, 3, 2, 1, 0].findSome? g = g c := by
  have hrest : ∀ l : List Nat, c ∈ l → l.findSome? g = g c := by
    intro l
    induction l with
    | nil => exact fun h => absurd h List.not_mem_nil
    | cons d rest ih =>
      intro h
      by_cases hd : d = c
      · subst hd
        rw [List.findSome?_cons]
        cases hgd : g d with
        | some a => rfl
        | none => exact List.findSome?_eq_none_iff.mpr fun x _ => if hx : x = d then hx ▸ hgd else hg x hx
      · rw [List.findSome?_cons, hg d hd]
        exact ih ((List.mem_cons.mp h).resolve_left (Ne.symm hd))
  exact hrest _ (by simp only [List.mem_cons, List.not_mem_nil, or_false]; omega)

section
variable {s u : State} {m c : Nat} {data : List Byte} {f : TxFrame} (hon : s.macOn m = true)
  (hu : u = (s.demandPd 31).count rETH 2 0) (hempty : Sparse.get (fun _ => []) (s.demandPd 31).eth.tx m = [])
  (hf : f = ⟨c, data, u.now, false⟩)
include hon hu hempty hf

/-- Behind a frame that is being sent a frame waits. -/
theorem effEthTx_waits (hbusy : u.now < Sparse.get (fun _ => 0) u.eth.txUntil m) :
    effEthTx m [(c, data)] s = u.setEth { u.eth with tx := Sparse.set (fun _ => []) u.eth.tx m [f] } := by
  have hnow : (s.demandPd 31).now = u.now := hu ▸ (State.count_now _ _ _ _).symm
  have hnotLate : ¬u.now + ((s.demandPd 31).rd (kMAC m 0x14)).toNat < u.now := by omega
  subst hf
  unfold effEthTx
  simp only [hon, hempty, hnow, hnotLate, ← hu, Nat.not_le.mpr hbusy, List.nil_append, List.map_cons, List.map_nil,
    decide_false, Bool.not_false, Bool.and_false, List.filter_cons, List.filter_nil, List.length_nil, Bool.or_false, Bool.false_eq_true,
    Bool.true_eq_false, ↓reduceIte]

/-- On a free line a frame that may start is sent. -/
theorem effEthTx_sends {w : State} (hc : c < 8) (hfree : Sparse.get (fun _ => 0) u.eth.txUntil m ≤ u.now)
    (hmay : u.mayStart m f = true)
    (hw : w = u.setEth { u.eth with
      tx := Sparse.set (fun _ => []) u.eth.tx m [],
      txUntil := Sparse.set (fun _ => 0) u.eth.txUntil m (u.now + u.frameNs m data.length) }) :
    effEthTx m [(c, data)] s = { w with out := .eth m data :: w.out } := by
  have hnow : (s.demandPd 31).now = u.now := hu ▸ (State.count_now _ _ _ _).symm
  have hnotLate : ¬u.now + ((s.demandPd 31).rd (kMAC m 0x14)).toNat < u.now := by omega
  subst hf
  unfold effEthTx
  simp only [hon, hempty, hnow, hnotLate, ← hu, hfree, List.nil_append, List.map_cons, List.map_nil,
    decide_false, Bool.not_false, Bool.and_false, List.filter_cons, List.filter_nil, List.length_nil, Bool.or_false, Bool.false_eq_true,
    Bool.true_eq_false, ↓reduceIte]
  rw [findSome?_single_class _ hc]
  · simp only [List.find?_cons, beq_self_eq_true, hmay, List.erase_cons_head, ↓reduceIte]
    rw [← hw]
  · intro d hd
    simp only [List.find?_cons, beq_false_of_ne hd.symm, List.find?_nil]

end

/-! ### Gate lists (R663) -/

/-- The word of a SWAP of an administrative list: INDEX with bit 8. -/
theorem swapWord_index {x : Nat} (h : x < 256) : fieldOf (wordOf (x + 2 ^ 8)) 7 0 = x := by
  rw [fieldOf_wordOf (by omega)]
  omega

theorem swapWord_swap {x : Nat} (h : x < 256) : flagOf (wordOf (x + 2 ^ 8)) 8 = true := by
  have hbit : fieldOf (wordOf (x + 2 ^ 8)) 8 8 = 1 := by
    rw [fieldOf_wordOf (by omega)]
    omega
  rw [flagOf_eq_fieldOf, hbit]
  rfl

/-- The time of a SWAP of a list with a cycle: its base, counted forward by whole cycles where it is past. -/
theorem State.gclSwap_of_cycle {s : State} {m base cycle : Nat} (hbase : base = s.rd64 (kMAC m 0x18))
    (hcycle : cycle = (s.rd (kMAC m 0x14)).toNat) (hne : cycle ≠ 0) :
    s.gclSwap m = s.setEth { s.eth with
      swapAt := Sparse.set (fun _ => none) s.eth.swapAt m
        (some (if s.ptpNow ≤ base then base else base + ceilDiv (s.ptpNow - base) cycle * cycle)) } := by
  unfold State.gclSwap
  simp only [← hbase, ← hcycle, hne, ↓reduceIte]

/-- A permitted SWAP. -/
theorem State.regWrite_gclSwap {s : State} {i : Initiator} {m x : Nat} (hm : m < 6) (hx : x < 256)
    (h : s.Reaches i (kMAC m 0x08) (wordOf (x + 2 ^ 8))) :
    s.regWrite i (kMAC m 0x08) (wordOf (x + 2 ^ 8)) =
      (((s.touch 31).setFld (kMAC m 0x08) 7 0 x).gclSwap m).respond .ok := by
  have hoff : 0x100 ≤ 0x100 + 0x20 * m + 0x08 ∧ 0x100 + 0x20 * m + 0x08 < 0x1C0 := by omega
  have hmac : (0x100 + 0x20 * m + 0x08 - 0x100) / 0x20 = m := by omega
  have hreg : (0x100 + 0x20 * m + 0x08 - 0x100) % 0x20 = 0x08 := by omega
  refine (State.regWrite_block (by decide) (by decide) (by omega) (by decide) h).trans
    (congrArg (State.respond · .ok) ?_)
  rw [effBlockReg_eth]
  unfold effEthReg
  rw [if_pos ⟨rfl, hoff⟩, hmac, hreg]
  unfold effMacWrite
  simp only [swapWord_index hx, swapWord_swap hx, OfNat.ofNat_eq_ofNat, Nat.reduceEqDiff, ↓reduceIte]
  rfl

section
variable {s : State} {m t : Nat} (hswap : Sparse.get (fun _ => none) s.eth.swapAt m = some t)
include hswap

/-- Before its time a list does not become operative. -/
theorem effGclActivate_early (h : s.ptpNow < t) : effGclActivate m s = s := by
  unfold effGclActivate
  simp only [hswap, h, true_or, ↓reduceIte]

/-- At its time the administrative list becomes the operative one. -/
theorem effGclActivate_due (h : t ≤ s.ptpNow) (hup : s.pdDown 31 = false) :
    effGclActivate m s = s.setEth { s.eth with
      oper := Sparse.set (fun _ => ({} : GateList)) s.eth.oper m
        ⟨(List.range 256).map (fun i => Sparse.get (fun _ => ({} : Gate)) s.eth.admin (256 * m + i)),
          (s.rd (kMAC m 0x14)).toNat, t⟩,
      swapAt := Sparse.set (fun _ => none) s.eth.swapAt m none } := by
  unfold effGclActivate
  simp only [hswap, Nat.not_lt.mpr h, hup, Bool.false_eq_true, or_self, ↓reduceIte]

end

/-- Settles O47: camera packets, Ethernet frames either way, and the swap of gate lists, each by its cases. -/
theorem camerasAndEthernet : Obligations.CamerasAndEthernet := by
  intro s
  refine ⟨?camera, fun hup => congrArg Host.Outcome.next (effCphyLoss_counted hup), ?ethernet⟩
  case camera =>
    intro port vc h1 h2 u c hon hu hc hinj0 hinj1
    refine ⟨fun fnum => ⟨?bad, ?opens⟩, fun dt data f husable hf => ⟨?joins, ?other⟩, ?ends⟩
    case bad =>
      rintro rfl rfl
      exact congrArg Host.Outcome.next (effFrameStart_badHeader hon hu hinj1 fnum.toNat)
    case opens =>
      intro husable hnone
      have hopens := effFrameStart_opens hon hu hc hinj1 fnum.toNat husable hnone
      exact ⟨fun hfull => congrArg Host.Outcome.next (hopens.trans (if_pos hfull)),
        fun hroom => congrArg Host.Outcome.next (hopens.trans (if_neg (ne_true_of_eq_false hroom)))⟩
    case joins =>
      exact fun hdt hpix =>
        ⟨congrArg Host.Outcome.next (effLongPacket_joins hon hu hc hinj1 hinj0 husable data hf hdt hpix),
          congrArg Host.Outcome.next (effLongPacket_badCrc hon hu hc hinj1 hinj0 husable data hf hdt hpix)⟩
    case other =>
      exact fun ok hdt hemb =>
        congrArg Host.Outcome.next (effLongPacket_otherType hon hu hc hinj1 hinj0 husable ok data hdt hemb)
    case ends =>
      exact fun f husable hf => congrArg Host.Outcome.next (effCamFrameEnd_ends hon hu hc hinj1 husable hf)
  case ethernet =>
    intro mac hmac
    have hexists : ¬6 ≤ mac.toNat := Nat.not_le.mpr hmac
    refine ⟨?phy, ?receive, ?send, ?swap, ?activate⟩
    case phy =>
      exact fun hup => (if_neg hexists).trans (congrArg Host.Outcome.next (if_neg (ne_true_of_eq_false hup)))
    case receive =>
      intro data dur u hon hlen hu hinj
      refine ⟨(if_neg hexists).trans (congrArg Host.Outcome.next (effEthRx_badFcs dur hon hlen hu hinj)), ?_⟩
      intro f k ring size ok w hf hring hk
      refine ⟨fun hfull => (if_neg hexists).trans
        (congrArg Host.Outcome.next (effEthRx_ringFull dur hon hlen hu hinj hf hring hk hfull)), ?_⟩
      intro hroom hsize hwrite
      have hwritten := effEthRx_written dur hon hlen hu hinj hf hring hk hroom hsize hwrite
      exact ⟨fun htrue => (if_neg hexists).trans (congrArg Host.Outcome.next (hwritten.trans (if_pos htrue))),
        fun hfalse => (if_neg hexists).trans
          (congrArg Host.Outcome.next (hwritten.trans (if_neg (ne_true_of_eq_false hfalse))))⟩
    case send =>
      intro pcp data u w hon hu hempty
      exact ⟨fun hbusy => (if_neg hexists).trans (congrArg Host.Outcome.next (effEthTx_waits hon hu hempty rfl hbusy)),
        fun hfree hmay hw => (if_neg hexists).trans
          (congrArg Host.Outcome.next (effEthTx_sends hon hu hempty rfl pcp.isLt hfree hmay hw))⟩
    case swap =>
      intro i u base cycle hu h hbase hcycle hne
      have hindex : s.fld (kMAC mac.toNat 0x08) 7 0 < 256 := fieldOf_lt _ 7 0
      refine (if_neg hexists).trans (congrArg Host.Outcome.next ((State.regWrite_gclSwap hmac hindex h).trans ?_))
      rw [← hu, State.gclSwap_of_cycle hbase hcycle hne]
    case activate =>
      exact fun t hswap =>
        ⟨fun hdue hup => (if_neg hexists).trans (congrArg Host.Outcome.next (effGclActivate_due hswap hdue hup)),
          fun hearly => (if_neg hexists).trans (congrArg Host.Outcome.next (effGclActivate_early hswap hearly))⟩

end Sys2Proof.Machine
end

section
/-! Network time, CAN and the data-ready edge of SPI0 (R664–R672, R675). -/

namespace Sys2Proof.Machine

/-! ### Network time (R664, R665) -/

/-- The state in which the SLAVE port has taken the offset of a Sync, its time and rate drawn. -/
def State.synced (s : State) (ofs : Int) (good : Nat) : State :=
  State.setEth (State.wr { s with free := s.free + 2 } kPTPOFS
      (BitVec.ofNat 32 (patternOf 32 (clampInt (-2147483648) 2147483647 ofs)))) { s.eth with
    ptpAt := s.now, ptpTime := (Config.freeDWord s.free).toNat, ptpRate := (Config.freeDWord (s.free + 1)).toNat,
    lastSync := some s.now, good := good }

section
variable {s : State} {m : Nat} (hon : s.macOn m = true)
include hon

/-- A Sync in tolerance and in time counts towards synchronisation; the fourth synchronises the port. -/
theorem effPtpSync_inTolerance {t1 good : Nat} {ofs : Int} (hslave : s.slaveMac = some m)
    (hofs : ofs = (s.ptpNow : Int) - ((t1 : Int) + (Sparse.get (fun _ => none) s.eth.delay m).getD 0))
    (htol : ofs.natAbs ≤ s.fld kPTPTOL 15 0) (htime : ∀ t, s.eth.lastSync = some t → s.now ≤ t + 3 * s.syncNs m)
    (hgood : good = Nat.min 4 (s.eth.good + 1)) :
    effPtpSync m t1 s =
      if good = 4 ∧ s.eth.unsyncUntil ≤ s.now then (s.synced ofs good).setFlag kPTPSTAT 0 true else s.synced ofs good := by
  unfold effPtpSync State.draw
  cases hlast : s.eth.lastSync with
  | none =>
    simp only [hon, hslave, ← hofs, htol, hlast, ← hgood, decide_true, Bool.and_self, ne_eq, not_true_eq_false,
      Bool.true_eq_false, or_self, ↓reduceIte]
    rfl
  | some t =>
    simp only [hon, hslave, ← hofs, htol, hlast, htime t hlast, ← hgood, decide_true, Bool.and_self, ne_eq, not_true_eq_false,
      Bool.true_eq_false, or_self, ↓reduceIte]
    rfl

/-- A Pdelay exchange that succeeds gives the delay of the path. -/
theorem effPdelay_measured (t1 t2 t3 t4 : Nat) : effPdelay m true t1 t2 t3 t4 s = s.setEth { s.eth with
    delay := Sparse.set (fun _ => none) s.eth.delay m (some ((((t4 : Int) - (t1 : Int)) - ((t3 : Int) - (t2 : Int))) / 2)) } := by
  unfold effPdelay
  simp only [hon, Bool.true_eq_false, ↓reduceIte]

/-- One that fails is counted. -/
theorem effPdelay_failed (t1 t2 t3 t4 : Nat) : effPdelay m false t1 t2 t3 t4 s = s.count rETH 5 := by
  unfold effPdelay
  simp only [hon, Bool.true_eq_false, Bool.false_eq_true, ↓reduceIte]

/-- A MASTER whose interval has passed sends the time. -/
theorem effSyncSend_sends {w : State} (hmaster : s.fld (kMAC m 0x04) 1 0 = 2)
    (hpassed : passed s (Sparse.get (fun _ => none) s.eth.sent m) (s.syncNs m) = true)
    (hw : w = s.setEth { s.eth with sent := Sparse.set (fun _ => none) s.eth.sent m (some s.now) }) :
    effSyncSend m s = { w with out := .sync m w.ptpNow :: w.out } := by
  unfold effSyncSend
  simp only [hon, hmaster, hpassed, beq_self_eq_true, Bool.and_self, ← hw, ↓reduceIte]

end

/-- The port is unsynchronised when three intervals have gone without a Sync, and not before. -/
theorem effSyncTimeout_slave {s : State} {m t : Nat} (hslave : s.slaveMac = some m) (hlast : s.eth.lastSync = some t) :
    effSyncTimeout s = if t + 3 * s.syncNs m < s.now ∧ s.pdDown 31 = false then s.unsync m else s := by
  unfold effSyncTimeout
  simp only [hslave, hlast]

/-! ### CAN frames (R668–R671) -/

section
variable {s : State} {c : Nat}

/-- Without an armed injection a mailbox is read as it stands. -/
theorem State.readBox_of_not_armed (k : Nat) (h : s.injArmed rCAN 0 = false) : s.readBox k = (s.box k, s) := by
  unfold State.readBox
  simp only [h, Bool.false_and, Bool.false_eq_true, ↓reduceIte]

section
variable (hon : s.canOn c = true) (hup : s.pdDown (canPd c) = false)
include hon hup

/-- The pending mailbox of highest priority goes out on an idle bus. -/
theorem effCanTx_sends {m : Nat} (hlisten : s.flag (kCAN c 0) 5 = false) (hidle : s.onBus c = none)
    (hnext : s.canNext c = some m) (hinj : s.injArmed rCAN 0 = false) (hpending : (s.box (boxKey c false m)).pending = true) :
    effCanTx c s =
      s.setBus c (some ⟨m, (s.box (boxKey c false m)).len, (s.box (boxKey c false m)).data⟩) := by
  unfold effCanTx
  simp only [hon, hlisten, hidle, hup, Option.isSome_none, Bool.true_eq_false, Bool.false_eq_true, or_self, hnext,
    State.readBox_of_not_armed _ hinj, hpending, ↓reduceIte]

/-- A frame with an error moves the receive count. -/
theorem effCanRx_bad (ext : Bool) (id : Nat) (data : List Byte) :
    effCanRx c ext id data false s = s.canErrors c (s.tec c) (s.rec_ c + 1) := by
  unfold effCanRx
  simp only [hon, hup, Bool.true_eq_false, Bool.false_eq_true, or_self, ↓reduceIte]

/-- A good frame goes into the first mailbox that takes it. -/
theorem effCanRx_received {u : State} {ext : Bool} {id m : Nat} (data : List Byte) (hrec : s.rec_ c ≤ 127)
    (hu : u = s.canErrors c (s.tec c) (s.rec_ c - 1))
    (hhit : (List.range (boxCount c)).find? (fun m => (u.box (boxKey c true m)).ide == ext &&
      Nat.land (Nat.xor (u.box (boxKey c true m)).id id) (u.box (boxKey c true m)).mask.toNat == 0) = some m)
    (hread : (u.box (boxKey c true m)).unread = false) :
    effCanRx c ext id data true s = u.setBox (boxKey c true m) { u.box (boxKey c true m) with
      data := spreadBytes data, len := data.length, stamp := BitVec.ofNat 64 u.now, unread := true,
      count := (u.box (boxKey c true m)).count + 1 } := by
  unfold effCanRx
  simp only [hon, hup, Nat.not_lt.mpr hrec, ← hu, hhit, hread, Bool.or_false, Bool.true_eq_false, Bool.false_eq_true, or_self,
    ↓reduceIte]

end

section
variable {f : BusFrame} {u w : State} (hbus : s.onBus c = some f) (hu : u = s.setBus c none)
include hbus hu

/-- A frame that has been sent frees its mailbox, but for content committed behind it. -/
theorem effCanTxEnd_sent (hw : w = u.setBox (boxKey c false f.mb)
    { u.box (boxKey c false f.mb) with pending := (u.box (boxKey c false f.mb)).again, again := false }) :
    effCanTxEnd c 0 s = w.canErrors c (w.tec c - 1) (w.rec_ c) := by
  unfold effCanTxEnd
  simp only [hbus, ← hu, ← hw, ↓reduceIte]
  rw [hw]
  rfl

section
variable (hrepeats : u.flag (kCAN c 0) 3 = false)
  (hw : w = u.setBox (boxKey c false f.mb) { u.box (boxKey c false f.mb) with pending := true, again := false })
include hrepeats hw

/-- One that lost arbitration stays pending. -/
theorem effCanTxEnd_lost : effCanTxEnd c 1 s = w := by
  unfold effCanTxEnd
  simp only [hbus, ← hu, hrepeats, Bool.not_false, Bool.true_or, ← hw, Nat.one_ne_zero, ↓reduceIte]

/-- One that met an error is repeated, and the transmit count rises. -/
theorem effCanTxEnd_error :
    effCanTxEnd c 2 s = (w.count rCAN 2).canErrors c ((w.count rCAN 2).tec c + 8) ((w.count rCAN 2).rec_ c) := by
  unfold effCanTxEnd
  simp only [hbus, ← hu, hrepeats, Bool.not_false, Bool.true_or, ← hw, OfNat.ofNat_ne_zero, OfNat.ofNat_ne_one,
    Nat.reduceEqDiff, false_and, ↓reduceIte]

/-- One that a checked channel reads back different is an error of its own. -/
theorem effCanTxEnd_different {x : State} (hchecked : c < 4)
    (hx : x = (w.raise rCAN 17 { index := c }).count rCAN 2) :
    effCanTxEnd c 3 s = x.canErrors c (x.tec c + 8) (x.rec_ c) := by
  unfold effCanTxEnd
  simp only [hbus, ← hu, hrepeats, Bool.not_false, Bool.true_or, ← hw, hchecked, OfNat.ofNat_ne_zero, OfNat.ofNat_ne_one,
    and_self, ← hx, ↓reduceIte]

end

end

/-! ### Channel states (R671, R672) -/

/-- A channel set to recover from bus-off by itself does. -/
theorem effCanRecover_recovers (hbusOff : s.canState c = 2) (hauto : s.flag (kCAN c 0) 4 = true)
    (hen : s.flag (kCAN c 0) 0 = true) : effCanRecover c s = s.wr (kCAN c 0x0C) 0#32 := if_pos ⟨hbusOff, hauto, hen⟩

/-- A lockstep mismatch turns a channel off. -/
theorem effCanLockstep_off (hen : s.flag (kCAN c 0) 0 = true) (hon : s.canState c ≠ 3) :
    effCanLockstep c s =
      (((s.setBus c none).setFld (kCAN c 0x0C) 17 16 3).raise rCAN 16 { always := true, index := c }).count rCAN 6 :=
  if_neg (not_or_intro (ne_false_of_eq_true hen) hon)

end

/-! ### Bit timing (R666) -/

section
variable {s : State} {n : Nat} (isData : Bool) (t : Itag) (v : Word)

/-- The timing of a channel that is on stays. -/
theorem effBitTiming_on (hen : s.flag (kCAN n 0) 0 = true) : effBitTiming n isData t v s = s.cfgErr rCAN t := by
  unfold effBitTiming
  simp only [hen, Bool.true_or, ↓reduceIte]

/-- A timing in range is written while the channel is off. -/
theorem effBitTiming_inRange (hoff : s.flag (kCAN n 0) 0 = false)
    (hdata : isData = true → (if n < 8 then 10 else 8) ≤ dataCycles v)
    (hnom : isData = false → n < 8 → 80 ≤ nomCycles v ∧ nomCycles v ≤ 640) :
    effBitTiming n isData t v s = s.writeGeneric (kCAN n (if isData then 8 else 4)) t v := by
  unfold effBitTiming
  cases isData with
  | true => simp only [hoff, hdata rfl, decide_true, Bool.not_true, Bool.or_self, Bool.false_eq_true, ↓reduceIte]
  | false =>
    by_cases hfast : n < 8
    · obtain ⟨hlo, hhi⟩ := hnom rfl hfast
      simp only [hoff, hlo, hhi, decide_true, Bool.and_self, Bool.or_true, Bool.not_true, Bool.or_self, Bool.false_eq_true,
        ↓reduceIte]
    · simp only [hoff, Nat.not_lt.mp hfast, decide_true, Bool.true_or, Bool.not_true, Bool.or_self, Bool.false_eq_true,
        ↓reduceIte]

end

/-- A permitted write of a channel's timing. -/
theorem State.regWrite_bitTiming {s : State} {i : Initiator} {n k : Nat} {isData : Bool} {v : Word} (hn : n < 10)
    (hk : k = kCAN n (if isData then 8 else 4)) (h : s.Reaches i k v) :
    s.regWrite i k v = (effBitTiming n isData i.itag v (s.touch (s.keyPd k))).respond .ok := by
  subst hk
  have hwrite : ∀ w, w = 4 ∨ w = 8 → ∀ u : State, effCanReg 1 (0x100 + 0x20 * n + w) (kCAN n w) i.itag v u =
      effBitTiming n (w == 8) i.itag v u := by
    intro w hw u
    have hoff : 0x100 ≤ 0x100 + 0x20 * n + w ∧ 0x100 + 0x20 * n + w < 0x240 := by omega
    have hch : (0x100 + 0x20 * n + w - 0x100) / 0x20 = n := by omega
    have hword : (0x100 + 0x20 * n + w - 0x100) % 0x20 = w := by omega
    have hne : w ≠ 0 := by omega
    unfold effCanReg
    simp only [hoff, hch, hword, hne, hw, and_self, ↓reduceIte]
  cases isData with
  | true =>
    refine (State.regWrite_ownPage (by decide) (by decide) (by simp only [↓reduceIte]; omega) h).trans
      (congrArg (State.respond · .ok) ?_)
    exact hwrite 8 (Or.inr rfl) _
  | false =>
    refine (State.regWrite_ownPage (by decide) (by decide) (by simp only [Bool.false_eq_true, ↓reduceIte]; omega) h).trans
      (congrArg (State.respond · .ok) ?_)
    exact hwrite 4 (Or.inl rfl) _

/-! ### Mailboxes (R667, R668) -/

/-- A permitted write of the selected mailbox's first word. -/
theorem State.regWrite_mailbox {s : State} {i : Initiator} {v : Word} (h : s.Reaches i (rk rCAN 2 0x104) v) :
    s.regWrite i (rk rCAN 2 0x104) v =
      ((s.touch (s.keyPd (rk rCAN 2 0x104))).mbWrite 0x104 i.itag v).respond .ok :=
  State.regWrite_ownPage (by decide) (by decide) (by decide) h

section
variable {u : State} {c m : Nat} {b : Mailbox} {v : Word} (t : Itag) (hsel : u.mbSel = some (c, false, m))
  (hreq : flagOf v 31 = true) (hb : b = { u.box (boxKey c false m) with ctl := withFlag v 31 false })
include hsel hreq hb

/-- TXREQ makes a mailbox of the host's pending. -/
theorem State.mbWrite_txreq (hown : hostOwns c b = true) (hidle : u.onBus c = none) :
    u.mbWrite 0x104 t v = u.setBox (boxKey c false m) { b with pending := true } := by
  unfold State.mbWrite
  simp only [hsel, hreq, ← hb, hown, hidle, Bool.false_eq_true, ↓reduceIte]
  rw [hb]

/-- TXREQ of a mailbox of the Clock Drive's is discarded and counted. -/
theorem State.mbWrite_txreq_notOwned (hown : hostOwns c b = false) :
    u.mbWrite 0x104 t v = (u.setBox (boxKey c false m) b).count rCAN 5 := by
  unfold State.mbWrite
  simp only [hsel, hreq, ← hb, hown, Bool.false_eq_true, ↓reduceIte]

end

/-! ### SPI0 (R675) -/

section
variable {s : State} {n : Nat}

/-- An edge while a read runs is counted. -/
theorem effSpiReady_overlap {t : Nat} (hruns : Sparse.get (fun _ => none) s.spiUntil n = some t) (hbusy : s.now < t) :
    effSpiReady n s = s.count rCAN 7 := by
  unfold effSpiReady
  simp only [hruns, hbusy, ↓reduceIte]

/-- An edge on a free chip select starts a read. -/
theorem effSpiReady_starts (hfree : Sparse.get (fun _ => none) s.spiUntil n = none) :
    effSpiReady n s = { s with spiUntil := Sparse.set (fun _ => none) s.spiUntil n (some (s.now + s.spiNs n)) } := by
  unfold effSpiReady
  simp only [hfree]

end

/-- Settles O48: network time, CAN frames and mailboxes, bit timing and the data-ready edge, each by its cases. -/
theorem networkTimeAndCan : Obligations.NetworkTimeAndCan := by
  intro s
  refine ⟨?time, ?timeout, ?can, ?lockstep, ?mailbox, ?spi⟩
  case time =>
    intro mac hmac hon
    have hexists : ¬6 ≤ mac.toNat := Nat.not_le.mpr hmac
    refine ⟨?sync, fun t1 t2 t3 t4 => ⟨?measured, ?failed⟩, ?send⟩
    case sync =>
      intro t1 ofs good u hslave hofs htol htime hgood hu
      have hsync := effPtpSync_inTolerance hon hslave hofs htol htime hgood
      exact ⟨fun hfour hdone => (if_neg hexists).trans
          (congrArg Host.Outcome.next (hu ▸ hsync.trans (if_pos ⟨hfour, hdone⟩))),
        fun hfewer => (if_neg hexists).trans
          (congrArg Host.Outcome.next (hu ▸ hsync.trans (if_neg fun h => hfewer h.1)))⟩
    case measured => exact (if_neg hexists).trans (congrArg Host.Outcome.next (effPdelay_measured hon _ _ _ _))
    case failed => exact (if_neg hexists).trans (congrArg Host.Outcome.next (effPdelay_failed hon _ _ _ _))
    case send =>
      exact fun hmaster hpassed =>
        (if_neg hexists).trans (congrArg Host.Outcome.next (effSyncSend_sends hon hmaster hpassed rfl))
  case timeout =>
    intro m t hslave hlast
    have htimeout := effSyncTimeout_slave hslave hlast
    exact ⟨fun hlate hup => congrArg Host.Outcome.next (htimeout.trans (if_pos ⟨hlate, hup⟩)),
      fun hearly => congrArg Host.Outcome.next (htimeout.trans (if_neg fun h => Nat.not_lt.mpr hearly h.1))⟩
  case can =>
    rintro ch _ hch rfl
    have hexists : ¬10 ≤ ch.toNat := Nat.not_le.mpr hch
    refine ⟨fun hon hup => ⟨?transmit, fun ext id data hlen => ⟨?bad, ?good⟩⟩, ?ends, ?recover, ?timing⟩
    case transmit =>
      rintro m _ hlisten hidle hnext hinj rfl hpending
      exact (if_neg hexists).trans
        (congrArg Host.Outcome.next (effCanTx_sends hon hup hlisten hidle hnext hinj hpending))
    case bad =>
      exact (if_neg (not_or_intro hexists (Nat.not_lt.mpr hlen))).trans
        (congrArg Host.Outcome.next (effCanRx_bad hon hup ext id.toNat data))
    case good =>
      rintro u m _ hrec hu hhit rfl hread
      exact (if_neg (not_or_intro hexists (Nat.not_lt.mpr hlen))).trans
        (congrArg Host.Outcome.next (effCanRx_received hon hup data hrec hu hhit hread))
    case ends =>
      rintro f u _ hbus hu rfl
      refine ⟨fun w hw => (if_neg hexists).trans (congrArg Host.Outcome.next (effCanTxEnd_sent hbus hu hw)), ?_⟩
      exact fun hrepeats w hw =>
        ⟨(if_neg hexists).trans (congrArg Host.Outcome.next (effCanTxEnd_lost hbus hu hrepeats hw)),
          (if_neg hexists).trans (congrArg Host.Outcome.next (effCanTxEnd_error hbus hu hrepeats hw)),
          fun hchecked x hx =>
            (if_neg hexists).trans (congrArg Host.Outcome.next (effCanTxEnd_different hbus hu hrepeats hw hchecked hx))⟩
    case recover =>
      exact fun hbusOff hauto hen =>
        (if_neg hexists).trans (congrArg Host.Outcome.next (effCanRecover_recovers hbusOff hauto hen))
    case timing =>
      intro i isData v k u hk h hu
      have hwrite := State.regWrite_bitTiming hch hk h
      rw [← hu] at hwrite
      have hexec : exec (.canBitTimingWrite i ch isData v) s = .next (s.regWrite i k v) := hk ▸ if_neg hexists
      rw [hexec, hwrite]
      exact ⟨fun hen => congrArg (Host.Outcome.next <| State.respond · .ok) (effBitTiming_on isData i.itag v hen),
        fun hoff hdata hnom => congrArg (Host.Outcome.next <| State.respond · .ok)
          (hk ▸ effBitTiming_inRange isData i.itag v hoff hdata hnom)⟩
  case lockstep => exact fun ch hen hon => congrArg Host.Outcome.next (effCanLockstep_off hen hon)
  case mailbox =>
    intro i v c m u b h hu hsel hb
    have hreq : flagOf (withFlag v 31 true) 31 = true := flagOf_withFlag v 31 true (by decide)
    have hwrite := State.regWrite_mailbox h
    rw [← hu] at hwrite
    exact ⟨fun hown hidle => congrArg Host.Outcome.next
        (hwrite.trans (congrArg (State.respond · .ok) (State.mbWrite_txreq i.itag hsel hreq hb hown hidle))),
      fun hown => congrArg Host.Outcome.next
        (hwrite.trans (congrArg (State.respond · .ok) (State.mbWrite_txreq_notOwned i.itag hsel hreq hb hown)))⟩
  case spi =>
    exact fun cs => ⟨fun t hruns hbusy => congrArg Host.Outcome.next (effSpiReady_overlap hruns hbusy),
      fun hfree => congrArg Host.Outcome.next (effSpiReady_starts hfree)⟩

end Sys2Proof.Machine
end

section
/-! Writes of the group entries of LNK (R695, R715). -/

namespace Sys2Proof.Machine

/-- A permitted write of the first three words of a group entry is the entry's write: refused while an operation of the
group is in flight, or when it sets RANK at or above P. -/
theorem State.regWrite_group {s : State} {i : Initiator} {g w : Nat} {v : Word} (hg : g < 16) (hw : w < 3)
    (h : s.Reaches i (kGRP g w) v) :
    s.regWrite i (kGRP g w) v = (effGroupWrite g w i.itag v (s.touch (regionPd rLNK))).respond .ok := by
  have hoff : 0x100 ≤ 0x100 + 0x10 * g + 4 * w ∧ 0x100 + 0x10 * g + 4 * w < 0x200 ∧
      (0x100 + 0x10 * g + 4 * w - 0x100) % 0x10 < 0x0C := by omega
  have hgroup : (0x100 + 0x10 * g + 4 * w - 0x100) / 0x10 = g := by omega
  have hword : (0x100 + 0x10 * g + 4 * w - 0x100) % 0x10 / 4 = w := by omega
  refine (State.regWrite_block (by decide) (by decide) (by omega) (by decide) h).trans (congrArg (State.respond · .ok) ?_)
  rw [effBlockReg_lnk]
  unfold effLnkReg
  simp only [hoff, hgroup, hword, and_self, OfNat.ofNat_ne_one, false_and, ↓reduceIte]

/-- A BARRIER of group 0 in flight. -/
def barrierOp : Op := { index := 0, words := [4#32], started := true }

/-- The reset state with the BARRIER in queue 0 of LNK, and one firewall descriptor, which lets every ITAG reach the
registers of LNK. -/
def openLinks : State :=
  { fwl := { desc := [(64 * rLNK, { last := 0xFFFFFFFF#32, w2 := 0x07000000#32 })] },
    queues := [(4096 * rLNK, { state := .active, ops := [barrierOp] })] }

theorem openLinks_canonical : openLinks.Canonical :=
  ⟨rfl, rfl, rfl, rfl, rfl, rfl, rfl, rfl, rfl, rfl, rfl, rfl, rfl, rfl⟩

theorem openLinks_reaches_count : openLinks.Reaches pairWriter (kGRP 0 3) 0#32 where
  passes := {
    notFrozen := List.not_mem_nil
    itag := by decide +kernel
    region := by decide
    page := by decide
    allowed := by decide +kernel
    noFwInj := by decide +kernel
    noTlpInj := fun h => absurd h (by decide)
    domain := by decide +kernel }
  mayWrite := by decide +kernel
  fields := by decide +kernel

/-- Refutes O49: its clause on a group in flight takes in the fourth word of the entry, the read-only count of operations
completed (R715). A write of it is ignored whether or not the group is busy, and sets no CFG_ERR. Of the three words that
can be written, `State.regWrite_group` says what the clause says. -/
theorem not_linksUpAndDown : ¬ Obligations.LinksUpAndDown := by
  intro h
  obtain ⟨-, -, -, -, hgroup⟩ := h openLinks
  obtain ⟨hbusy, -⟩ := hgroup pairWriter 0#4 3#2 0#32 _ rfl openLinks_reaches_count
  have hexec : exec (.groupWrite pairWriter 0#4 3#2 0#32) openLinks =
      .next (openLinks.regWrite pairWriter (kGRP 0 3) 0#32) := rfl
  have hstate := Host.Outcome.next.inj (hexec.symm.trans (hbusy (by decide +kernel)))
  have hcfgErr := congrArg (State.flag · (kESTAT rLNK) 0) hstate
  exact absurd hcfgErr (by decide +kernel)

end Sys2Proof.Machine
end

section
/-! Collectives: how they start, complete, time out and are aborted (R692, R696–R700). -/

namespace Sys2Proof.Machine

/-! ### Finishing (R696, R698) -/

section
variable {s : State} {c : Coll} {p : Op} (hop : s.findOp rLNK c.queue c.index = some p)
include hop

section
variable (hruns : p.status = none)
include hruns

/-- A collective whose result is not known yet goes on. -/
theorem State.collTry_waits (hresult : s.collResult p c = none) : s.collTry c = s := by
  unfold State.collTry
  simp only [hop, hruns, Option.isSome_none, Bool.false_eq_true, hresult, ↓reduceIte]

/-- A barrier that everyone has reached completes. -/
theorem State.collTry_barrier {bs : List Byte} (hopcode : p.opcode = 4) (hresult : s.collResult p c = some bs) :
    s.collTry c = (((s.dropColl c).noteXfer (s.grpLinks p.lnk.group) p.lnk.tq).addSat (kGRP p.lnk.group 3) 31 0 1).conclude
      rLNK c.queue c.index stDONE := by
  unfold State.collTry
  simp only [hop, hruns, Option.isSome_none, hresult, hopcode, OfNat.ofNat_ne_one, Nat.reduceEqDiff, or_self,
    Bool.false_eq_true, ↓reduceIte]

/-- A collective of data whose result is known writes it and completes. -/
theorem State.collTry_writes {out : List Byte} {d : Obj} {x z : State} (hopcode : p.opcode = 1 ∨ p.opcode = 2)
    (hresult : s.collResult p c = some out) (hx : x = (s.dropColl c).noteXfer (s.grpLinks p.lnk.group) p.lnk.tq)
    (hdst : x.validObj p.lnk.dst [2, 3, 4] = some d)
    (hwrite : x.objTxWrite (x.queue rTRANSIT p.lnk.tq).itag d p.lnk.dstOff out = (.ok (), z)) :
    s.collTry c = (z.addSat (kGRP p.lnk.group 3) 31 0 1).conclude rLNK c.queue c.index stDONE := by
  unfold State.collTry
  simp only [hop, hruns, Option.isSome_none, hresult, hopcode, ← hx, hdst, hwrite, Bool.false_eq_true, ↓reduceIte]

end

/-- Without a link of its group up a PUT waits. -/
theorem State.sendPut_waits (hdown : (s.grpLinks c.group).find? (fun l => s.lnkUp l && s.lnkMode l == 1) = none) :
    s.sendPut c = s := by
  unfold State.sendPut
  simp only [hop, hdown]

/-- On the first link of its group that is up a PUT goes out. -/
theorem State.sendPut_sends {l : Nat} {x : State}
    (hup : (s.grpLinks c.group).find? (fun l => s.lnkUp l && s.lnkMode l == 1) = some l)
    (hx : x = { s.dropColl c with out := .put l p.lnk.dstOff c.own :: s.out }) :
    s.sendPut c = ((x.noteXfer (x.grpLinks c.group) p.lnk.tq).addSat (kGRP c.group 3) 31 0 1).conclude
      rLNK c.queue c.index stDONE := by
  subst hx
  unfold State.sendPut
  simp only [hop, hup]

end

/-! ### Starting (R696, R697, R699) -/

section
variable {s : State} {q : Nat} {o : Op} (hnext : s.nextOp rLNK q = some o) (hpick : s.pick rLNK = some q)
  (hidle : s.groupBusy o.lnk.group = false) (hfirst : s.lnkEarlier o = false)
include hnext hpick hidle hfirst

theorem effLnkOp_badForm (hform : s.lnkFormOk q o = false) :
    effLnkOp o.opcode q s = (s.start rLNK q o).conclude rLNK q o.index stREJ_FORMAT := by
  unfold effLnkOp
  simp only [hnext, hpick, hidle, hfirst, hform, ne_eq, not_true_eq_false, Bool.false_eq_true, or_self, ↓reduceIte]

section
variable (hform : s.lnkFormOk q o = true) (hrange : s.lnkRangeOk o = true)
include hform hrange

/-- A BARRIER joins the collectives in flight, and completes where it can. -/
theorem effLnkOp_barrier {u : State} {c : Coll} (hopcode : o.opcode = 4) (hu : u = s.start rLNK q o)
    (hearly : u.link.early = []) (hc : c = ⟨q, o.index, o.lnk.group, u.now, [], [], 0⟩) :
    effLnkOp o.opcode q s = ((u.setColls (u.link.colls ++ [c])).addInflight 0).collTry c := by
  have hkeep : ∀ f, u.link.early.filter f = u.link.early := fun f => by rw [hearly, List.filter_nil]
  have hmine : u.link.early.map Prod.snd = [] := by rw [hearly, List.map_nil]
  subst hc
  unfold effLnkOp
  simp only [hnext, hpick, hidle, hfirst, hform, hrange, hopcode, ← hu, hkeep, hmine, ne_eq, not_true_eq_false,
    Bool.false_eq_true, Bool.true_eq_false, OfNat.ofNat_eq_ofNat, Nat.reduceEqDiff, false_and, or_self, ↓reduceIte]

section
variable {u v w : State} {x : Obj} {bs : List Byte} {n : Bool} (hroom : s.fld kINFLIGHT 14 0 < 16384)
  (hcredits : s.takeAllCredits (s.grpLinks o.lnk.group) o.lnk.tq = (true, u)) (hv : v = u.start rLNK q o)
  (hsrc : v.validObj o.lnk.src [2, 3, 4] = some x)
  (hread : v.objTxRead (v.queue rTRANSIT o.lnk.tq).itag x o.lnk.srcOff o.lnk.bytes = (.ok (bs, n), w))
include hroom hcredits hv hsrc hread

/-- A PUT that has read its source is sent where it can be. -/
theorem effLnkOp_put {c : Coll} (hopcode : o.opcode = 5) (hc : c = ⟨q, o.index, o.lnk.group, w.now, bs, [], 0⟩) :
    effLnkOp o.opcode q s = (w.setColls (w.link.colls ++ [c])).sendPut c := by
  subst hc
  unfold effLnkOp
  simp only [hnext, hpick, hidle, hfirst, hform, hrange, hopcode, Nat.not_le.mpr hroom, hcredits, ← hv, hsrc, hread, ne_eq,
    not_true_eq_false, not_false_eq_true, Bool.false_eq_true, Bool.true_eq_false, Nat.reduceEqDiff, and_false, or_self,
    ↓reduceIte]

/-- A collective of data that has read its source joins those in flight, and completes where it can. -/
theorem effLnkOp_collective {c : Coll} (hopcode : o.opcode = 1 ∨ o.opcode = 2) (hearly : w.link.early = [])
    (hc : c = ⟨q, o.index, o.lnk.group, w.now, bs, [], 1⟩) :
    effLnkOp o.opcode q s = ((w.setColls (w.link.colls ++ [c])).addInflight 1).collTry c := by
  have h4 : o.opcode ≠ 4 := by omega
  have h5 : o.opcode ≠ 5 := by omega
  have hkeep : ∀ f, w.link.early.filter f = w.link.early := fun f => by rw [hearly, List.filter_nil]
  have hmine : w.link.early.map Prod.snd = [] := by rw [hearly, List.map_nil]
  subst hc
  unfold effLnkOp
  simp only [hnext, hpick, hidle, hfirst, hform, hrange, h4, h5, Nat.not_le.mpr hroom, hcredits, ← hv, hsrc, hread, hkeep,
    hmine, ne_eq, not_true_eq_false, not_false_eq_true, Bool.false_eq_true, Bool.true_eq_false, and_false, or_self,
    ↓reduceIte]

end

end

end

/-! ### A group of one -/

/-- The Transit Engine's count of operations in flight is in no group's entry. -/
theorem State.rd_kGRP_addInflight (s : State) (n g w : Nat) : (s.addInflight n).rd (kGRP g w) = s.rd (kGRP g w) := by
  have hcount : kGRP g w ≠ kINFLIGHT := by
    unfold kGRP kINFLIGHT rk rLNK rTRANSIT
    omega
  have hpeak : kGRP g w ≠ kINFPEAK := by
    unfold kGRP kINFPEAK rk rLNK rTRANSIT
    omega
  unfold State.addInflight
  rw [State.rd_setFld_ne _ _ _ _ hpeak, State.rd_setFld_ne _ _ _ _ hcount]

theorem State.grpP_addInflight (s : State) (n g : Nat) : (s.addInflight n).grpP g = s.grpP g :=
  congrArg (· + 1) (State.fld_of_rd (State.rd_kGRP_addInflight s n g 0) 17 0)

theorem State.grpRank_addInflight (s : State) (n g : Nat) : (s.addInflight n).grpRank g = s.grpRank g :=
  State.fld_of_rd (State.rd_kGRP_addInflight s n g 1) 17 0

/-- The one member of a group has arrived at its barrier. -/
theorem State.collResult_barrier_alone {s : State} {p : Op} (c : Coll) (hopcode : p.opcode = 4)
    (hone : s.grpP p.lnk.group = 1) (hrank : s.grpRank p.lnk.group = 0) : s.collResult p c = some [] := by
  unfold State.collResult
  simp only [hopcode, hone, hrank]
  rfl

/-! ### Failures (R692, R700) -/

/-- A time-out ends the operation that it meets, and nothing before it. -/
theorem effCollTimeout_of_coll {s : State} {q : Nat} {c : Coll} {o : Op}
    (hcoll : s.link.colls.find? (fun c => c.queue == q) = some c) (hop : s.findOp rLNK q c.index = some o)
    (hput : o.opcode ≠ 5) :
    effCollTimeout q s =
      if s.now < c.start + o.lnk.tmo * 1000 then s else (s.count rLNK 3).collFail c stERR_TIMEOUT_WCET := by
  unfold effCollTimeout
  simp only [hcoll, hop, hput, false_or]

section
variable {s u : State} {l gid : Nat}

section
variable (hu : u = s.count rLNK 4)
include hu

/-- An abort marker that meets no operation is only counted. -/
theorem effAbortMarker_none (hnone : u.collOf gid = none) : effAbortMarker gid s = u := by
  unfold effAbortMarker
  simp only [← hu, hnone]

/-- It ends the operation that it meets. -/
theorem effAbortMarker_ends {c : Coll} (hcoll : u.collOf gid = some c) : effAbortMarker gid s = u.collFail c stERR_DATA := by
  unfold effAbortMarker
  simp only [← hu, hcoll]

end

section
variable (hup : s.lnkUp l = true)
include hup

section
variable (hu : u = (s.count rLNK 1).raise rLNK 2 { detail := BitVec.ofNat 64 gid })
include hu

/-- A bad flit that serves no operation is only counted and reported. -/
theorem effFlitUncorrectable_none (hnone : u.collOf gid = none) : effFlitUncorrectable l gid s = u := by
  unfold effFlitUncorrectable State.badFlit
  simp only [hup, ← hu, hnone, ↓reduceIte]

/-- It ends the operation that it serves, and abort markers go out. -/
theorem effFlitUncorrectable_ends {c : Coll} (hcoll : u.collOf gid = some c) :
    effFlitUncorrectable l gid s = State.collFail { u with out := .abortMarker gid :: u.out } c stERR_DATA := by
  unfold effFlitUncorrectable State.badFlit
  simp only [hup, ← hu, hcoll, ↓reduceIte]

end

/-! ### Flits (R698) -/

section
variable {level rank off : Nat} {data : List Byte} (hinj : s.injArmed rLNK 0 = false)
include hinj

/-- A flit of a collective that has not started is kept. -/
theorem effCollFlit_early (hnone : s.collOf gid = none) :
    effCollFlit l gid level rank off data s =
      { s with link := { s.link with early := s.link.early ++ [(gid, ⟨level, rank, off, data⟩)] } } := by
  unfold effCollFlit
  simp only [hup, hinj, hnone, Bool.true_eq_false, Bool.false_eq_true, false_and, ↓reduceIte]

/-- A flit of one in flight becomes a part of it. -/
theorem effCollFlit_joins {c d : Coll} (hcoll : s.collOf gid = some c)
    (hd : d = { c with parts := ⟨level, rank, off, data⟩ :: c.parts }) :
    effCollFlit l gid level rank off data s =
      (s.setColls (s.link.colls.map (fun x => if x.queue = d.queue ∧ x.index = d.index then d else x))).collTry d := by
  subst hd
  unfold effCollFlit
  simp only [hup, hinj, hcoll, Bool.true_eq_false, Bool.false_eq_true, false_and, ↓reduceIte]

end

end

end

/-- A command of a collective is the start of an operation of its opcode. -/
theorem exec_collective {s t : State} {q : BitVec 6} {o : Op} (h : effLnkOp o.opcode q.toNat s = t) :
    (o.opcode = 1 → exec (.allreduce q) s = .next t) ∧ (o.opcode = 2 → exec (.bcast q) s = .next t) ∧
      (o.opcode = 4 → exec (.barrier q) s = .next t) ∧ (o.opcode = 5 → exec (.put q) s = .next t) := by
  refine ⟨?_, ?_, ?_, ?_⟩
  all_goals
    intro hopcode
    rw [hopcode] at h
    exact congrArg Host.Outcome.next h

/-- Settles O50: an operation's start, by its opcode, and what finishes it: its result, a link, a time-out, an abort marker
or a bad flit. -/
theorem collectivesRun : Obligations.CollectivesRun := by
  intro s q
  refine ⟨?start, ?timeout, ?abort, ?flits⟩
  case start =>
    intro o hnext hpick hidle hfirst
    refine ⟨fun hform t ht => ?badForm, fun hform hrange => ⟨?barrier, ?data⟩⟩
    case badForm => exact exec_collective ((effLnkOp_badForm hnext hpick hidle hfirst hform).trans ht.symm)
    case barrier =>
      intro u v c p hopcode hone hrank hearly hcolls hu hc hv hop hruns hargs hpop
      have huearly : u.link.early = [] := hu ▸ hearly
      have hucolls : u.link.colls = [] := hu ▸ hcolls
      have hstarted := effLnkOp_barrier hnext hpick hidle hfirst hform hrange hopcode hu huearly hc
      rw [hucolls, List.nil_append, ← hv] at hstarted
      have hvone : v.grpP p.lnk.group = 1 := by
        rw [hv, State.grpP_addInflight, hargs, hu]
        exact hone
      have hvrank : v.grpRank p.lnk.group = 0 := by
        rw [hv, State.grpRank_addInflight, hargs, hu]
        exact hrank
      have hqueue : c.queue = q.toNat := by rw [hc]
      have hindex : c.index = o.index := by rw [hc]
      rw [← hqueue, ← hindex] at hop
      have hdone := State.collTry_barrier hop hruns hpop (State.collResult_barrier_alone c hpop hvone hvrank)
      rw [hargs, hqueue, hindex] at hdone
      obtain ⟨-, -, hbarrier, -⟩ := exec_collective (hstarted.trans hdone)
      exact hbarrier hopcode
    case data =>
      intro u v w x bs n y hroom hcredits hv hsrc hread
      refine ⟨?collective, ?put⟩
      case collective =>
        intro c p hearly hc hy hop hruns hargs hpop
        have hqueue : c.queue = q.toNat := by rw [hc]
        have hindex : c.index = o.index := by rw [hc]
        rw [← hqueue, ← hindex] at hop
        have hstarted := fun hopcode =>
          effLnkOp_collective hnext hpick hidle hfirst hform hrange hroom hcredits hv hsrc hread hopcode hearly hc
        rw [← hy] at hstarted
        refine ⟨fun hresult => ?waits, fun out d z t hresult _ hdst hwrite ht => ?writes⟩
        case waits =>
          have hwaits := State.collTry_waits hop hruns hresult
          exact ⟨fun h1 => (exec_collective ((hstarted (.inl h1)).trans hwaits)).1 h1,
            fun h2 => (exec_collective ((hstarted (.inr h2)).trans hwaits)).2.1 h2⟩
        case writes =>
          rw [← hargs] at hdst hwrite
          have hwrites := fun hopcode => State.collTry_writes hop hruns (hpop ▸ hopcode) hresult rfl hdst hwrite
          rw [hargs, hqueue, hindex, ← ht] at hwrites
          exact ⟨fun h1 => (exec_collective ((hstarted (.inl h1)).trans (hwrites (.inl h1)))).1 h1,
            fun h2 => (exec_collective ((hstarted (.inr h2)).trans (hwrites (.inr h2)))).2.1 h2⟩
      case put =>
        intro c p hopcode hc hy hop hargs
        have hqueue : c.queue = q.toNat := by rw [hc]
        have hindex : c.index = o.index := by rw [hc]
        have hgroup : c.group = o.lnk.group := by rw [hc]
        have hown : c.own = bs := by rw [hc]
        rw [← hqueue, ← hindex] at hop
        have hstarted :=
          effLnkOp_put hnext hpick hidle hfirst hform hrange hroom hcredits hv hsrc hread hopcode hc
        rw [← hy] at hstarted
        refine ⟨fun hdown => ?_, fun l hup => ?_⟩
        · rw [← hgroup] at hdown
          obtain ⟨-, -, -, hput⟩ := exec_collective (hstarted.trans (State.sendPut_waits hop hdown))
          exact hput hopcode
        · rw [← hgroup] at hup
          have hsent := State.sendPut_sends hop hup rfl
          rw [hargs, hqueue, hindex, hgroup, hown] at hsent
          obtain ⟨-, -, -, hput⟩ := exec_collective (hstarted.trans hsent)
          exact hput hopcode
  case timeout =>
    intro c o hcoll hop hput
    have htimeout := effCollTimeout_of_coll hcoll hop hput
    exact ⟨fun hlate => congrArg Host.Outcome.next (htimeout.trans (if_neg (Nat.not_lt.mpr hlate))),
      fun hearly => congrArg Host.Outcome.next (htimeout.trans (if_pos hearly))⟩
  case abort =>
    exact fun gid u hu => ⟨fun hnone => congrArg Host.Outcome.next (effAbortMarker_none hu hnone),
      fun c hcoll => congrArg Host.Outcome.next (effAbortMarker_ends hu hcoll)⟩
  case flits =>
    intro link gid hup
    refine ⟨fun u hu => ⟨?noneBad, ?endsBad⟩, fun level rank off data hinj => ⟨?early, ?joins⟩⟩
    case noneBad => exact fun hnone => congrArg Host.Outcome.next (effFlitUncorrectable_none hup hu hnone)
    case endsBad => exact fun c hcoll => congrArg Host.Outcome.next (effFlitUncorrectable_ends hup hu hcoll)
    case early => exact fun hnone => congrArg Host.Outcome.next (effCollFlit_early hup hinj hnone)
    case joins => exact fun c d hcoll hd => congrArg Host.Outcome.next (effCollFlit_joins hup hinj hcoll hd)

end Sys2Proof.Machine
end
